-- ==== Sys2Proof/Word.lean ====
section
/-!
DEFINITION. The words of the PRK-8832: bytes, 16, 32 and 64-bit words, byte strings, and the sparse table that every
indexed collection of the machine's state uses.
-/
namespace Sys2Proof

/-- One byte. -/
abbrev Byte := BitVec 8
/-- A 16-bit word. -/
abbrev W16 := BitVec 16
/-- A 32-bit word: a dword of a command, a 32-bit register. -/
abbrev W32 := BitVec 32
/-- A 64-bit word: an Izkin stack entry, a 64-bit register. -/
abbrev W64 := BitVec 64
/-- A byte string, lowest address first. -/
abbrev Bytes := List Byte
/-- A submission queue entry: 64 bytes, byte 0 in bits [7:0] (R72 SQES). -/
abbrev Sqe := BitVec 512

/-- Sparse data by number: the keys rise strictly and no listed value equals what an unlisted key reads as. -/
abbrev Tab (α : Type) := List (Nat × α)

/-- What physics and timing bring to the pick that begins at a boundary: symbol errors that strike stored codewords (memory 0 Hamper,
1 DRAM, 2 journal die; codeword; symbol; error value: R191), Hamper words whose writes by different masters meet in one clk of the new
pick (R190), pages whose block has missed the strobe (R22), and the clocks or events that the pick just ended adds to counters of
waiting and of link errors (Weft address, amount: R30, R70, R186). -/
structure PickEnv where
  upsets : List (Nat × Nat × Nat × Nat) := []
  ties : List Nat := []
  missed : List Nat := []
  counts : List (Nat × Nat) := []
deriving DecidableEq, Repr

/-- How the decode of one codeword of a flash page went (R134 steps 1 to 3): at hard decision, with so many corrected bits; after a
retry with a voltage set; by the soft decode; or not at all. -/
inductive CwOut where
  | hard (bits : Nat)
  | retry (set : Nat)
  | soft
  | fail
deriving DecidableEq, Repr

end Sys2Proof
end

