-- ==== Sys2Proof/Syntax.lean ====
section
/-!
DEFINITION. The commands of the PRK-8832: one constructor for each row of the opcode table, in the table's order, with the
operands that the outside world supplies (a core, a command context, an address, a value, what a physical act came to).
-/
namespace Sys2Proof

/-- A command: an operation or event of the opcode table. Each constructor's docstring names its row, the rule of spec/
that governs it and its operands. -/
inductive Instr where
/-- POWER_ON_RESET (R486): Release of POR_N latches the straps, loads the fuse map, zeroes the Hamper and starts
  bring-up. -/
  | powerOnReset (straps : Byte)
/-- VDD_AON_LOSS (R500): A fall of VDD_AON below 1.620 V holds the whole part in power-on reset. -/
  | vddAonLoss
/-- CORE_PLL_LOCK_LOST (R461): Loss of the core PLL lock, for example through a lost REF25, is the device-fatal event
  0x8201. -/
  | corePllLockLost
/-- BOOT_SLOT_SELECT (R485): The boot ROM picks and verifies a firmware slot, or enters recovery mode. -/
  | bootSlotSelect
/-- DIE_TABLE_VALIDATION (R114): The die parameter table copies are checked and each die's ONFI ID and parameter page
  are compared with it. -/
  | dieTableValidation (agree : List Bool) (bad : List Nat := [])
/-- CHANNEL_TRAINING (R115): A flash channel trains at its bin and falls back to lower bins, or is fenced. -/
  | channelTraining (chan : Nat) (bin : Nat)
/-- DRAM_TRAINING (R179): DRAM training, fast or full, runs with speed fallback; if any channel fails at every speed,
  the DRAM block is fenced. -/
  | dramTraining (speeds : List Nat) (gib : Nat) (bolts : Nat) (module : Nat := 0)
/-- RESTART_INDEX (R173): Steps 1 to 5 of the restart read the control areas, scan the ring, sort the records and
  reload the dumped slots. -/
  | restartIndex (picks : Nat)
/-- SEGMENT_REBUILD (R175): A map segment is rebuilt from its checkpoint and its list of ring records, with promoted
  segments first. -/
  | segmentRebuild (seg : Nat) (ok : Bool)
/-- PWRFAIL_N_ASSERT (R166): PWRFAIL_N low for 4 always-on samples triggers the power-fail sequence. -/
  | pwrfailNAssert (ns : Nat)
/-- SUPPLY_MONITOR_TRIP (R500): A core rail below its trip level for 1 µs triggers the power-fail sequence. -/
  | supplyMonitorTrip (rail : Nat)
/-- LATCH_OPEN (R491): The carrier latch opens; with no removal request pending, this triggers the power-fail sequence
  with REASON 3. -/
  | latchOpen
/-- LATCH_CLOSE (R491): The latch closes after a latch-triggered seal, which allows the device reset of R167. -/
  | latchClose
/-- POWER_FAIL_ACT (R167): At the acting boundary the part stops fetch and all work, and it dumps the committed
  staging slots. -/
  | powerFailAct
/-- SEAL (R167): The SEAL record, the control area and the ring head are written, and every chip enable is deasserted.
  -/
  | sealRing (dieOk : Bool)
/-- POWER_RESTORED_RESET (R167): After 256 picks of good power and a closed latch following a seal, firmware requests
  a device reset. -/
  | powerRestoredReset
/-- PERST_ASSERT (R474): PERST# resets the functions as a link-down, or performs a device reset when PERST_FULL is 1.
  -/
  | perstAssert
/-- LINK_DOWN (R69): A link-down resets every function, squashes commands and stops Party sends. -/
  | linkDown
/-- LINK_UP (R69): The link retrains and the functions come up in reset state. -/
  | linkUp (width : Nat) (speed : Nat) (flit : Bool) (uio : Bool) (lanes : Nat)
/-- LINK_RECOVERY (R57): The link passes through Recovery and may lose width or speed. -/
  | linkRecovery (width : Nat) (speed : Nat)
/-- LINK_TRAINING_RETRY (R55): Held in Detect below x4, the part restarts training every 64 bolts. -/
  | linkTrainingRetry
/-- CXL_MEM_READ (R62): A CXL.mem read is served from a carved window, or returns poison. -/
  | cxlMemRead (hpa : Nat)
/-- CXL_MEM_WRITE (R63): A CXL.mem write is stored in its window, or is dropped when it falls outside every window. -/
  | cxlMemWrite (hpa : Nat) (data : Bytes) (mask : Nat) (poison : Bool)
/-- HDM_DECODER_COMMIT (R60): Committing an HDM decoder either succeeds or fails with Commit Error. -/
  | hdmDecoderCommit (dec : Nat) (base : Nat) (size : Nat) (ways : Nat) (commit : Bool)
/-- HOST_READ_COMPLETION (R65): A DMA read of host memory completes, times out, or returns UR, CA or poison. -/
  | hostReadCompletion (ctx : Nat) (kind : Nat) (result : Nat) (bytes : Bytes)
/-- UIO_WRITE_COMPLETION (R67): A UIO peer write completes; a UR or CA counts as a failed send. -/
  | uioWriteCompletion (member : Nat) (ok : Bool)
/-- IDENTIFY_MEMORY_DEVICE (R59): This mailbox command reports 16.25 GiB of volatile capacity. -/
  | identifyMemoryDevice
/-- GET_SUPPORTED_LOGS (R59): This mailbox command lists the supported logs. -/
  | getSupportedLogs
/-- GET_LOG (R59): This mailbox command returns the Command Effects Log. -/
  | getLog (payload : Bytes)
/-- GET_EVENT_RECORDS (R59): This mailbox command returns event records. -/
  | getEventRecords (payload : Bytes)
/-- CLEAR_EVENT_RECORDS (R59): This mailbox command clears event records. -/
  | clearEventRecords (payload : Bytes)
/-- GET_EVENT_INTERRUPT_POLICY (R59): This mailbox command returns the event interrupt policy. -/
  | getEventInterruptPolicy
/-- SET_EVENT_INTERRUPT_POLICY (R59): This mailbox command sets the event interrupt policy. -/
  | setEventInterruptPolicy (payload : Bytes)
/-- GET_TIMESTAMP (R59): This mailbox command returns the timestamp. -/
  | getTimestamp
/-- SET_TIMESTAMP (R59): This mailbox command sets the timestamp. -/
  | setTimestamp (payload : Bytes)
/-- DOE_DISCOVERY (R68): The DOE instance answers a Discovery request. -/
  | doeDiscovery (index : Nat)
/-- CDAT_TABLE_ACCESS (R68): The DOE instance returns CDAT entries. -/
  | cdatTableAccess (handle : Nat)
/-- DOE_ABORT (R68): A DOE Abort takes effect within 1 bolt. -/
  | doeAbort
/-- DOORBELL_WRITE (R74): An SQ tail or CQ head doorbell is updated, or dropped with an Error status asynchronous
  event. -/
  | doorbellWrite (fn : Nat) (q : Nat) (cq : Bool) (value : Nat)
/-- CC_EN_CLEAR (R95): CC.EN written from 1 to 0 resets the controller, and CSTS.RDY reads 0 within 2,500 picks. -/
  | ccEnClear (fn : Nat)
/-- CC_EN_SET (R95): CC.EN written from 0 to 1 enables the controller, and CSTS.RDY reads 1 within 256 picks. -/
  | ccEnSet (fn : Nat) (cc : W32) (aqa : W32) (asq : W64) (acq : W64)
/-- NORMAL_SHUTDOWN (R95): CC.SHN = 0b01 stops fetch, drains the commands in flight and flushes. -/
  | normalShutdown (fn : Nat)
/-- ABRUPT_SHUTDOWN (R95): CC.SHN = 0b10 acts as CC.EN going from 1 to 0 and sets SHST. -/
  | abruptShutdown (fn : Nat)
/-- FLR (R449): A Function Level Reset squashes or drains the function's work, as in R451. -/
  | flr (fn : Nat)
/-- VF_ENABLE_CLEAR (R449): VF Enable written from 1 to 0 resets every VF as its FLR does. -/
  | vfEnableClear
/-- BUS_MASTER_ENABLE_CLEAR (R450): The function's requests are drained, then held. -/
  | busMasterEnableClear (fn : Nat)
/-- BUS_MASTER_ENABLE_SET (R450): The held work of the function resumes. -/
  | busMasterEnableSet (fn : Nat)
/-- MEMORY_SPACE_ENABLE_CLEAR (R449): BAR accesses of the function end with Unsupported Request. -/
  | memorySpaceEnableClear (fn : Nat)
/-- SQE_FETCH (R80): The queue engine fetches entries from the controllers in rotation and assigns contexts and
  sequence numbers. -/
  | sqeFetch (sqes : List Sqe) (ok : Bool)
/-- CREATE_IO_SQ (R74): Creates an I/O submission queue within the controller's allotment. -/
  | createIoSq (ctx : Nat)
/-- CREATE_IO_CQ (R74): Creates an I/O completion queue within the controller's allotment. -/
  | createIoCq (ctx : Nat)
/-- DELETE_IO_SQ (R92): Deletes an SQ; its fetched commands are treated as aborted. -/
  | deleteIoSq (ctx : Nat)
/-- DELETE_IO_CQ (R75): Deletes an I/O completion queue. -/
  | deleteIoCq (ctx : Nat)
/-- GET_LOG_PAGE (R76): Returns a standard or Hokuron log page. -/
  | getLogPage (ctx : Nat)
/-- IDENTIFY (R72): Returns the controller or namespace identify data. -/
  | identify (ctx : Nat)
/-- ABORT (R92): Races a fetched I/O command to the completion poster. -/
  | abort (ctx : Nat)
/-- SET_FEATURES (R76): Sets a supported feature; SV = 1 fails. -/
  | setFeatures (ctx : Nat)
/-- GET_FEATURES (R76): Returns a supported feature. -/
  | getFeatures (ctx : Nat)
/-- ASYNCHRONOUS_EVENT_REQUEST (R509): Leaves a request outstanding for asynchronous events. -/
  | asynchronousEventRequest (ctx : Nat)
/-- NAMESPACE_CREATE (R150): Creates a namespace at a contiguous NS_BASE range and may fix TNVMCAP. -/
  | namespaceCreate (ctx : Nat)
/-- NAMESPACE_DELETE (R88): A critical command that deletes a namespace once its earlier commands have completed. -/
  | namespaceDelete (ctx : Nat)
/-- NAMESPACE_ATTACHMENT (R75): Attaches a namespace to controllers or detaches it. -/
  | namespaceAttachment (ctx : Nat)
/-- FIRMWARE_IMAGE_DOWNLOAD (R75): Downloads a piece of a firmware image. -/
  | firmwareImageDownload (ctx : Nat)
/-- FIRMWARE_COMMIT_ACTIVATE (R97): CA = 0b011 holds fetch, drains the commands in flight and activates the image
  without a reset. -/
  | firmwareCommitActivate (ctx : Nat)
/-- FIRMWARE_COMMIT_AT_RESET (R98): CA = 0b001 or 0b010 sets the image to activate at the next power-on or device
  reset. -/
  | firmwareCommitAtReset (ctx : Nat)
/-- ACTIVATION_DRAIN_END (R97): When the drain ends, the new image takes over the house clusters. -/
  | activationDrainEnd
/-- ACTIVATION_END (R97): Fetch resumes and the Commit completes with success. -/
  | activationEnd (ok : Bool)
/-- ACTIVATION_DRAIN_LIMIT (R98): The drain has not finished at 150,000 picks; the old image stays active. -/
  | activationDrainLimit
/-- DEVICE_SELF_TEST_SHORT (R99): Starts a short self-test. -/
  | deviceSelfTestShort (ctx : Nat)
/-- DEVICE_SELF_TEST_EXTENDED (R99): Starts an extended self-test. -/
  | deviceSelfTestExtended (ctx : Nat)
/-- DEVICE_SELF_TEST_ABORT (R99): Aborts the running self-test. -/
  | deviceSelfTestAbort (ctx : Nat)
/-- SELF_TEST_STEP (R100): One step of the self-test runs in the idle cycles of a pick. -/
  | selfTestStep (ok : Bool)
/-- VIRTUALIZATION_MANAGEMENT (R74): A critical command by which F0 assigns flexible queue resources. -/
  | virtualizationManagement (ctx : Nat)
/-- FORMAT_NVM (R88): A critical command that formats a namespace after its earlier commands have completed. -/
  | formatNvm (ctx : Nat)
/-- SANITIZE (R141): A critical Block Erase that erases every block that is not retired. -/
  | sanitize (ctx : Nat)
/-- READ (R152): Resolves each granule through staging, the map and the flash, under R83. -/
  | read (ctx : Nat)
/-- WRITE (R89): Stages the data and commits it atomically in pieces of up to 1 MiB. -/
  | write (ctx : Nat)
/-- FLUSH (R93): Completes when every covered write is programmed in SLC and its map delta is journaled. -/
  | flush (ctx : Nat)
/-- DATASET_MANAGEMENT (R142): Deallocates ranges, each range atomic. -/
  | datasetManagement (ctx : Nat)
/-- ARM (R277): Checks the key, the counter and the lockout, and leaves one pending Arm. -/
  | arm (ctx : Nat)
/-- LOCKOUT_END (R280): The 1,024-bolt Arm lockout of a function expires. -/
  | lockoutEnd (fn : Nat)
/-- SET_PORTION (R442): A critical command that sets a function's Portion and places its carved resources. -/
  | setPortion (ctx : Nat)
/-- GET_PORTION (R446): Returns a Portion record with its usage. -/
  | getPortion (ctx : Nat)
/-- LOAD_PROGRAM (R362): Receives a piece of a program image and verifies the image at FINAL. -/
  | loadProgram (ctx : Nat)
/-- PARTIAL_LOAD_DISCARD (R362): A partial load left without a piece for 64 bolts is discarded. -/
  | partialLoadDiscard (fn : Nat) (handle : Nat)
/-- UNLOAD_PROGRAM (R364): Removes a loaded image that has no run in flight. -/
  | unloadProgram (ctx : Nat)
/-- RUN_PROGRAM (R371): Checks the argument block, takes the guard entries and resources, and starts the input reads.
  -/
  | runProgram (ctx : Nat)
/-- RUN_RESOURCE_ACQUIRE (R372): A run waiting for a run ID or for lines acquires them in fetch order. -/
  | runResourceAcquire (ctx : Nat)
/-- RUN_ENTRY_TASK_CREATE (R371): Once the buffer inputs are in memory, the run page and windows are written and the
  entry task is created. -/
  | runEntryTaskCreate (run : Nat)
/-- RUN_END (R375): When the last task and the last job have ended, the outputs are committed, the result returned and
  the resources released. -/
  | runEnd (run : Nat)
/-- RUN_TIMEOUT (R376): The TIMEOUT of a run expires and the run is killed. -/
  | runTimeout (run : Nat)
/-- KEY_LOAD (R275): Checks the KCV and writes a key slot ACTIVE. -/
  | keyLoad (ctx : Nat)
/-- KEY_ERASE (R275): Key Load with ERASE = 1 empties the slot. -/
  | keyErase (ctx : Nat)
/-- PARTY_JOIN_FOUND (R400): Party Join with FOUND = 1 founds a Party at epoch 1. -/
  | partyJoinFound (ctx : Nat)
/-- PARTY_JOIN (R400): Party Join with FOUND = 0 sends JOIN_REQ to the seed. -/
  | partyJoin (ctx : Nat)
/-- JOIN_TIMEOUT (R400): A join that has no answer within 4,096 bolts completes with result 0x02. -/
  | joinTimeout
/-- PARTY_LEAVE (R401): Sends LEAVE, or clears the Party state of a LOST member. -/
  | partyLeave (ctx : Nat)
/-- LEAVE_TIMEOUT (R401): With no LEAVING epoch within 4,096 bolts, Party Leave completes with result 0x02. -/
  | leaveTimeout
/-- PARTY_STATUS (R402): Returns the roster header and the silent set. -/
  | partyStatus (ctx : Nat)
/-- LOG_SWAP_START (R452): Starts dirty-page logging for a function. -/
  | logSwapStart (ctx : Nat)
/-- LOG_SWAP_SWAP (R454): Swaps the active bitmap at the pick boundary P. -/
  | logSwapSwap (ctx : Nat)
/-- LOG_SWAP_STOP (R454): Writes the remaining bitmap lines and ends logging. -/
  | logSwapStop (ctx : Nat)
/-- DIRTY_LINE_WRITE (R453): A changed shadow bitmap line is written to the host within 1 bolt of its first change. -/
  | dirtyLineWrite (fn : Nat) (line : Nat)
/-- FUSE_REPAIR (R202): Writes a field fuse entry for a Hamper bank and row. -/
  | fuseRepair (ctx : Nat)
/-- COMPRESS_WRITE (R251): Compresses the host data into a Twill frame and writes the reserved extent atomically. -/
  | compressWrite (ctx : Nat)
/-- DECOMPRESS_READ (R252): Decodes one stored frame to the host. -/
  | decompressRead (ctx : Nat)
/-- SCAN_READ (R306): Scans logical blocks through a chain of a decompressor and a scan lane. -/
  | scanRead (ctx : Nat)
/-- DIGEST_READ (R266): Returns the SHA digest of logical blocks. -/
  | digestRead (ctx : Nat)
/-- SPREAD_WRITE (R416): Writes one piece of a stripe: computes the parity, sends the chunks and commits the local
  slice. -/
  | spreadWrite (ctx : Nat)
/-- SPREAD_OPEN_TIMEOUT (R415): A member with no PLAN_ACK within 4,096 bolts ends the command with Shard Unavailable.
  -/
  | spreadOpenTimeout (stripe : Nat)
/-- OPEN_STRIPE_TIMEOUT (R417): A stripe left OPEN beyond OPEN_BOLTS × 1,024 bolts is dropped. -/
  | openStripeTimeout (stripe : Nat)
/-- SHARD_READ (R419): Returns bytes of the local shard, or its table entry. -/
  | shardRead (ctx : Nat)
/-- MEND_REPAIR (R420): Queues the stripe at its lead for repair. -/
  | mendRepair (ctx : Nat)
/-- MEND_VERIFY (R420): Collects the shard digests and compares them with the stripe digest. -/
  | mendVerify (ctx : Nat)
/-- MEND_DROP (R420): Drops the stripe at every member. -/
  | mendDrop (ctx : Nat)
/-- WRITE_CLAIM (R90): Once all of a write's data is in staging, the poster claims the write and issues its commit
  word. -/
  | writeClaim (ctx : Nat)
/-- STAGING_UNIT_COMPLETE (R159): A unit's data is complete in staging; its STAGE record is written and waiting reads
  proceed. -/
  | stagingUnitComplete (ctx : Nat)
/-- JOURNAL_WORD_DURABLE (R157): The die acknowledges a journal word; this frees slots and posts completions. -/
  | journalWordDurable (ok : Bool)
/-- CHECKPOINT_START (R165): A segment checkpoint is triggered by its record count, by the ring fill or at clean
  shutdown. -/
  | checkpointStart (seg : Nat)
/-- CTRL_FIELD_FOLD (R162): The CTRL values are folded into the control area at most once per 256 bolts. -/
  | ctrlFieldFold
/-- UNIT_PROGRAM_START (R123): A program of all the planes of a die starts once its units are placed, with pad units
  when the units cannot wait. -/
  | unitProgramStart (die : Nat)
/-- FLASH_READ_DONE (R134): A flash read completes and escalates through retry, soft decode and die-parity rebuild. -/
  | flashReadDone (pua : Nat) (outcomes : List CwOut) (task : Option Nat := none)
/-- FLASH_PROGRAM_DONE (R135): A program reports its status; a failure closes the superblock and retires the block. -/
  | flashProgramDone (die : Nat) (ok : Bool) (task : Option Nat := none)
/-- FLASH_ERASE_DONE (R135): An erase reports its status; a failure retires the block. -/
  | flashEraseDone (sb : Nat) (ok : Bool) (chan : Nat) (task : Option Nat := none)
/-- DIE_READY_TIMEOUT (R137): A die that is not ready within its maximum array time plus 1 pick is reset, or retired
  as failed. -/
  | dieReadyTimeout (die : Nat) (resetOk : Bool)
/-- DIE_REBUILD (R137): Every valid unit of a failed die is rewritten through MOVE. -/
  | dieRebuild (die : Nat)
/-- FOLD (R127): The valid units of the oldest SLC superblocks are copied into the FOLD stream. -/
  | fold (sb : Nat)
/-- GARBAGE_COLLECTION (R129): The victim superblock's valid units are moved at the level set by F. -/
  | garbageCollection
/-- REFRESH (R133): A queued block's valid units are copied through MOVE. -/
  | refresh (blk : Nat)
/-- STATIC_WEAR_LEVELLING (R132): The longest-closed superblock is copied into the most-worn free superblock. -/
  | staticWearLevelling
/-- PATROL_READ (R133): Patrol reads of every valid unit once in each lap. -/
  | patrolRead
/-- DUMP_STANDBY_ERASE (R126): A superblock is erased as a DUMP standby when the ready space falls below 192 MiB. -/
  | dumpStandbyErase
/-- SLC_TARGET_UPDATE (R125): The SLC target T is recomputed and recorded every 64 bolts. -/
  | slcTargetUpdate
/-- DIE_TEMPERATURE_READ (R145): Each die's temperature is read every 256 bolts. -/
  | dieTemperatureRead (die : Nat) (temp : Int)
/-- PICK_BOUNDARY (R25): The counter advances, budgets refill at bolts, slices are chosen, activations preempted and
  completions released. -/
  | pickBoundary (env : PickEnv := {})
/-- PICK_DISTRIBUTION_FAILURE (R22): A count mismatch, or a strobe missing for 2 picks, is device-fatal. -/
  | pickDistributionFailure
/-- ACTIVATION_PREEMPT (R24): An activation that has run 6,400 clk is preempted at the pick boundary and requeued. -/
  | activationPreempt (core : Nat)
/-- COALESCING_WINDOW_END (R104): An interrupt coalescing window ends and its interrupt is posted. -/
  | coalescingWindowEnd (fn : Nat) (vec : Nat)
/-- APST_TRANSITION (R103): After the idle time, APST moves the part to a lower power state. -/
  | apstTransition
/-- THERMAL_UPDATE (R493): Each bolt the temperatures are read, the margin and t are updated, and PS2 may be forced.
  -/
  | thermalUpdate (tj : List Int) (dram : List Int)
/-- HAMPER_SCRUB_STEP (R198): The Hamper scrubber reads beats in idle bank cycles and rewrites them corrected or
  poisoned. -/
  | hamperScrubStep (syms : List (Nat × Nat))
/-- DRAM_SCRUB_STEP (R199): The DRAM scrubber checks lines in idle command slots. -/
  | dramScrubStep (syms : List (Nat × Nat))
/-- HEDDLE_CHECK (R294): The checker reads tile rows, corrects single-bit errors and turns uncorrectable entries into
  holes. -/
  | heddleCheck (tile : Nat) (row : Nat) (kind : Nat)
/-- BLOCK_FATAL_EVENT (R462): A block-fatal event fences the block by its Selvage within 16 clk. -/
  | blockFatalEvent (page : Nat) (code : Nat) (arg : Nat)
/-- DEVICE_FATAL_EVENT (R466): The part stops fetch and all work, lights FAULT and sets GLB_FATAL_STAT. -/
  | deviceFatalEvent (code : Nat)
/-- FATAL_RESET (R466): The fatal reset follows FATAL_DELAY picks after a device-fatal event. -/
  | fatalReset
/-- DEVICE_RESET (R475): A device, fatal or boot-watchdog reset holds the blocks in reset for 64 picks and then boots.
  -/
  | deviceReset
/-- BOOT_WATCHDOG_EXPIRY (R477): Without RST_BOOT_OK by LIMIT, the part performs a device reset. -/
  | bootWatchdogExpiry
/-- CROSSING_WATCHDOG_EXPIRY (R473): A crossing watchdog expires and fences the far block, or is device-fatal. -/
  | crossingWatchdogExpiry (id : Nat) (far : Bool)
/-- BRANCH_NOT_ANSWERING (R31): A Weft branch that stops answering fences the blocks it serves. -/
  | branchNotAnswering (branch : Nat)
/-- SERVICE_BUTTON_RELEASE (R488): A press of 500 ms to 5 s requests removal at its release; a shorter press has no
  effect. -/
  | serviceButtonRelease (ms : Nat)
/-- SERVICE_BUTTON_CANCEL (R490): A press that reaches 5 s cancels the removal. -/
  | serviceButtonCancel
/-- REMOVAL_REQUEST (R489): Fetch is held, AWAY is sent and the commands in flight drain. -/
  | removalRequest
/-- REMOVAL_DRAIN_LIMIT (R489): Commands still in flight after DRAIN_BOLTS are squashed. -/
  | removalDrainLimit
/-- REMOVAL_SEAL (R177): Staging is flushed, segments are checkpointed and SEAL is written with REASON 4. -/
  | removalSeal
/-- REMOVAL_AWAY_TIMEOUT (R396): Without an AWAY epoch 256 bolts after AWAY, READY_TO_REMOVE is lit anyway. -/
  | removalAwayTimeout
/-- PRSNT_N_RISE (R488): Presence lost while powered raises event 0x8085. -/
  | prsntNRise
/-- SHUTTLE_DESCRIPTOR (R210): A Shuttle accepts the next descriptor from its ring and checks it. -/
  | shuttleDescriptor (sh : Nat) (res : Nat) (data : Bytes)
/-- SHUTTLE_DESCRIPTOR_END (R214): A descriptor ends: its writes are made visible, STATUS is written and DEP_TASK
  decremented. -/
  | shuttleDescriptorEnd (sh : Nat)
/-- LINE_POST (R218): A hardware producer posts a burst, or END, on a pacing line. -/
  | linePost (line : Nat) (agent : Nat) (last : Bool) (len : Nat)
/-- LINE_RELEASE (R218): A hardware consumer releases a burst of a pacing line. -/
  | lineRelease (line : Nat) (agent : Nat)
/-- TWILL_COMPRESS (R241): A compress job is accepted into a slot. -/
  | twillCompress (eng : Nat)
/-- TWILL_DECOMPRESS (R246): A decompress job is accepted into a slot. -/
  | twillDecompress (eng : Nat)
/-- TWILL_VERIFY (R243): A verify job, which decodes and writes nothing, is accepted. -/
  | twillVerify (eng : Nat)
/-- TWILL_JOB_END (R248): A Twill job ends with its code, its result fields and its decrement. -/
  | twillJobEnd (eng : Nat)
/-- DIGEST_INIT (R259): Allocates a context and absorbs data. -/
  | digestInit (eng : Nat)
/-- DIGEST_UPDATE (R259): Absorbs data into a context. -/
  | digestUpdate (eng : Nat) (lost : Bool)
/-- DIGEST_FINAL (R260): Absorbs, pads, finalises and checks the length. -/
  | digestFinal (eng : Nat) (lost : Bool)
/-- DIGEST_ONESHOT (R260): INIT and FINAL in one job. -/
  | digestOneshot (eng : Nat)
/-- DIGEST_COMPARE (R262): Compares a final digest in fixed time. -/
  | digestCompare (eng : Nat) (lost : Bool)
/-- DIGEST_RELEASE (R262): Releases a digest context. -/
  | digestRelease (eng : Nat)
/-- DIGEST_JOB_END (R263): A digest job ends with its code. -/
  | digestJobEnd (eng : Nat)
/-- KCK_GENERATE (R271): Computes a CMAC tag under a key slot. -/
  | kckGenerate (eng : Nat)
/-- KCK_VERIFY (R271): Verifies a CMAC tag and reports only PASS. -/
  | kckVerify (eng : Nat)
/-- KCK_JOB_END (R272): A keyed-check job ends with its code. -/
  | kckJobEnd (eng : Nat)
/-- SCAN_JOB (R303): A scan job and its specification are accepted. -/
  | scanJob (eng : Nat)
/-- SCAN_JOB_END (R304): A scan job ends with its code and output counts. -/
  | scanJobEnd (eng : Nat)
/-- MENDER_MAC (R412): A Mender multiply-accumulate job is accepted. -/
  | menderMac
/-- MENDER_JOB_END (R413): A Mender job ends with its code. -/
  | menderJobEnd
/-- TASK_DISPATCH (R355): A core takes a task from its slot or asks its list, or steals from another. -/
  | taskDispatch (core : Nat)
/-- DEPENDENCE_DECREMENT (R350): A decrement reaches a task and may make it READY. -/
  | dependenceDecrement (task : Nat)
/-- TASK_AGEING (R356): A READY task that has waited PICKS rises one priority level. -/
  | taskAgeing (task : Nat)
/-- HEARTBEAT_SEND (R391): A member writes its heartbeat to each watcher at its bolt. -/
  | heartbeatSend
/-- HEARTBEAT (R390): A received heartbeat is checked and handled. -/
  | heartbeat (member : Nat)
/-- SILENT_MARK (R392): A watcher marks a member silent 64 bolts after its last heartbeat. -/
  | silentMark (member : Nat)
/-- SUSPECT_SEND (R393): A watcher sends SUSPECT after LOSS_S, or after AWAY_S, and repeats it every 4,096 bolts. -/
  | suspectSend (member : Nat)
/-- EPOCH_ISSUE (R394): Every 16 bolts the steward issues up to 16 held changes as a new epoch. -/
  | epochIssue
/-- LOST_MEMBER_FREE (R393): A LOST member becomes FREE 7 days after the epoch that declared it. -/
  | lostMemberFree (member : Nat)
/-- MESSAGE_RESEND (R389): A message not acknowledged within 64 picks is resent under a new counter. -/
  | messageResend (member : Nat) (counter : Nat)
/-- ACK_SEND (R389): At the pick boundary after acceptance the receiver sends one ACK per sender. -/
  | ackSend (member : Nat)
/-- CAP_SEND (R381): A member sends CAP when FREE_GIB changes enough. -/
  | capSend
/-- BAR4_WRITE (R384): A peer write into the Party window is taken, or dropped when it falls outside its areas. -/
  | bar4Write (off : Nat) (data : Bytes) (poison : Bool)
/-- ACK (R389): Acknowledges counters, so the sender frees its pending messages. -/
  | msgAck (slot : Nat)
/-- CHUNK_NAK (R399): The sender resends the refused chunk. -/
  | msgChunkNak (slot : Nat)
/-- JOIN_REQ (R400): The steward adds the member, or a seed relays the request. -/
  | msgJoinReq (slot : Nat)
/-- JOIN_NAK (R400): The join fails because the index is not FREE. -/
  | msgJoinNak (slot : Nat)
/-- EPOCH (R394): The receiver applies the next epoch and makes it durable, or asks to sync. -/
  | msgEpoch (slot : Nat)
/-- SYNC_REQ (R395): The part answers with 64 ROSTER_PART messages. -/
  | msgSyncReq (slot : Nat)
/-- ROSTER_PART (R395): The part collects roster parts and adopts a superseding roster. -/
  | msgRosterPart (slot : Nat)
/-- SUSPECT (R393): The collector counts the suspicion toward declaring a loss. -/
  | msgSuspect (slot : Nat)
/-- RETRACT (R393): The collector withdraws a watcher's suspicion. -/
  | msgRetract (slot : Nat)
/-- AWAY (R393): The steward holds the change from ACTIVE to AWAY. -/
  | msgAway (slot : Nat)
/-- BACK (R393): The steward holds the change from AWAY to ACTIVE. -/
  | msgBack (slot : Nat)
/-- LEAVE (R393): The steward holds the change to LEAVING, or to LOST with FORCE. -/
  | msgLeave (slot : Nat)
/-- DEPART (R393): The steward holds the change from LEAVING to FREE. -/
  | msgDepart (slot : Nat)
/-- CAP (R381): Updates the sender's FREE_GIB. -/
  | msgCap (slot : Nat)
/-- SYNC_HINT (R392): Prompts the receiver to request a sync from the named issuer. -/
  | msgSyncHint (slot : Nat)
/-- CHUNK_HEADER_ARRIVAL (R399): A chunk header arrives; the chunk is checked and handed to the Mender or refused. -/
  | chunkHeaderArrival (slot : Nat)
/-- PLAN (R425): A helper or target accepts its role in a relay plan. -/
  | msgPlan (slot : Nat)
/-- PLAN_ACK (R425): The lead starts the plan, or excludes the member and plans again. -/
  | msgPlanAck (slot : Nat)
/-- GRANT (R421): Grants chunk slots for a stream. -/
  | msgGrant (slot : Nat)
/-- CHUNK_OK (R416): Reports the contiguous bytes committed. -/
  | msgChunkOk (slot : Nat)
/-- HOP_FAIL (R429): The lead aborts the plan and plans again without the failed member. -/
  | msgHopFail (slot : Nat)
/-- PLAN_ABORT (R429): The participant drops the plan. -/
  | msgPlanAbort (slot : Nat)
/-- DIGEST_REQ (R417): The member hashes its shard and answers with DIGEST. -/
  | msgDigestReq (slot : Nat)
/-- DIGEST (R427): The lead collects a shard digest for a seal or a verification. -/
  | msgDigest (slot : Nat)
/-- STRIPE_SET (R427): The member makes the stripe record durable, or frees a replaced shard. -/
  | msgStripeSet (slot : Nat)
/-- STRIPE_DROP (R420): The member frees the stripe's shard and entry. -/
  | msgStripeDrop (slot : Nat)
/-- SPREAD_OPEN (R415): The member allocates the shard and answers with PLAN_ACK. -/
  | msgSpreadOpen (slot : Nat)
/-- RECORD_REQ (R429): The member answers with the stripe record. -/
  | msgRecordReq (slot : Nat)
/-- RECORD (R429): A lost stripe table entry is rebuilt from the record. -/
  | msgRecord (slot : Nat)
/-- RELAY_TIMEOUT (R429): With no CHUNK_OK for 4,096 bolts, the lead aborts and plans again. -/
  | relayTimeout (stream : Nat)
/-- SOFT_RST (R39): A write of SOFT_RST starts the soft reset of a page. -/
  | softRst (page : Nat)
/-- SOFT_RESET_END (R39): The soft reset finishes at the second pick boundary and may lift a fence. -/
  | softResetEnd (page : Nat) (selfOk : Bool)
/-- SELV_REQ (R462): A write of SELV_REQ fences the block within 16 clk. -/
  | selvReq (page : Nat)
/-- SNAP (R49): A write of SNAP captures the page's counters. -/
  | snap (page : Nat)
/-- GLB_SNAP_ALL (R49): Captures every snapshot page at the next pick boundary. -/
  | glbSnapAll
/-- ERR_STAT_CLEAR (R40): A W1C write to ERR_STAT clears bits and may clear ERR_FIRST. -/
  | errStatClear (page : Nat) (value : W32)
/-- IRQ_STAT_CLEAR (R41): A W1C write to IRQ_STAT that leaves unmasked bits set sends one more message. -/
  | irqStatClear (page : Nat) (value : W32)
/-- WEFT_SKEW_CLR (R31): Clears WEFT_PICK_SKEW. -/
  | weftSkewClr (value : W32)
/-- RST_CTL_DEVICE (R476): With KEY 0xA5 it requests a device reset; otherwise the write is dropped. -/
  | rstCtlDevice (value : W32)
/-- RST_BOOT_OK (R477): Firmware stops the boot watchdog and updates the boot record. -/
  | rstBootOk (value : W32)
/-- DRILL (R166): A write of JNL_PF_CTL.DRILL runs the power-fail sequence with REASON 5. -/
  | drill (value : W32)
/-- DDR_TRAIN_FULL (R182): Invalidates the fast-training values. -/
  | ddrTrainFull (value : W32)
/-- RETRAIN (R70): A write of CXL_LINK_CTL.RETRAIN starts link retraining. -/
  | retrain (value : W32)
/-- QEN_FETCH_HOLD (R108): Holds all fetch from the next pick boundary. -/
  | qenFetchHold (value : W32)
/-- WARP_ARB_WEIGHT_WRITE (R30): New arbitration weights take effect at the next pick boundary. -/
  | warpArbWeightWrite (port : Nat) (value : W32)
/-- HAMPER_REGION_CFG (R189): A HAM_*_CFG write moves a region at the next pick boundary, or is refused. -/
  | hamperRegionCfg (region : Nat) (value : W32)
/-- JNL_MAPC_CFG_WRITE (R181): Resizes the map cache and empties it at the next pick boundary. -/
  | jnlMapcCfgWrite (value : W32)
/-- SHU_TAIL_ADVANCE (R207): Firmware submits Shuttle descriptors by advancing SHU_TAIL. -/
  | shuTailAdvance (sh : Nat) (value : W32)
/-- SHU_STOP (R222): The Shuttle holds after its current burst. -/
  | shuStop (sh : Nat) (value : W32)
/-- SHU_FLUSH (R222): Completes the queued descriptors with 0x09. -/
  | shuFlush (sh : Nat) (value : W32)
/-- SHU_LINE_CFG_WRITE (R220): Configures or releases a pacing line. -/
  | shuLineCfgWrite (line : Nat) (value : W64)
/-- SOFTWARE_LINE_POST (R220): A software post of a burst, or of END, on a line. -/
  | softwareLinePost (value : W32)
/-- SOFTWARE_LINE_RELEASE (R220): A software release of a burst of a line. -/
  | softwareLineRelease (value : W32)
/-- TWILL_TAIL_ADVANCE (R243): Firmware submits Twill jobs by advancing TWC_TAIL or TWD_TAIL. -/
  | twillTailAdvance (eng : Nat) (value : W32)
/-- TWILL_STOP (R254): The Twill engine holds at the next pick boundary. -/
  | twillStop (eng : Nat) (value : W32)
/-- TWILL_FLUSH (R254): Completes the held and queued Twill jobs with 0x09. -/
  | twillFlush (eng : Nat) (value : W32)
/-- DIG_TAIL_ADVANCE (R259): Firmware submits digest jobs. -/
  | digTailAdvance (eng : Nat) (value : W32)
/-- DIG_STOP (R282): The digest engine holds at the next pick boundary. -/
  | digStop (eng : Nat) (value : W32)
/-- DIG_FLUSH (R282): Completes the digest jobs with 0x09. -/
  | digFlush (eng : Nat) (value : W32)
/-- KCK_TAIL_ADVANCE (R271): Firmware submits keyed-check jobs. -/
  | kckTailAdvance (eng : Nat) (value : W32)
/-- KCK_STOP (R282): The keyed-check engine holds at the next pick boundary. -/
  | kckStop (eng : Nat) (value : W32)
/-- KCK_FLUSH (R282): Completes the keyed-check jobs with 0x09. -/
  | kckFlush (eng : Nat) (value : W32)
/-- SCN_TAIL_ADVANCE (R302): Firmware submits scan jobs. -/
  | scnTailAdvance (eng : Nat) (value : W32)
/-- SCN_STOP (R310): The scan lane holds at the next pick boundary. -/
  | scnStop (eng : Nat) (value : W32)
/-- SCN_FLUSH (R310): Completes the scan jobs with 0x09. -/
  | scnFlush (eng : Nat) (value : W32)
/-- MND_TAIL_ADVANCE (R412): Firmware submits Mender jobs. -/
  | mndTailAdvance (value : W32)
/-- MND_STOP (R430): The Mender holds at the next pick boundary. -/
  | mndStop (value : W32)
/-- MND_FLUSH (R430): Completes the Mender jobs with 0x09. -/
  | mndFlush (value : W32)
/-- HED_GROUP_CFG_WRITE (R287): Configures a Heddle group, or enables it cleared, or is refused. -/
  | hedGroupCfgWrite (grp : Nat) (value : W32)
/-- HED_COMPACT_PACK (R293): Moves every hole of the group to the highest indices. -/
  | hedCompactPack (grp : Nat)
/-- HED_COMPACT_SPREAD (R293): Spreads the valid entries evenly over the group. -/
  | hedCompactSpread (grp : Nat)
/-- HED_GROUP_CLEAR (R309): Makes every entry of the group a hole. -/
  | hedGroupClear (grp : Nat)
/-- ITN_DEC (R349): Firmware decrements a task's dependence counter. -/
  | itnDec (value : W32)
/-- ITN_QUERY (R377): Captures a task table entry for reading. -/
  | itnQuery (value : W32)
/-- GLB_LOG_INDEX (R480): Captures an event log entry for reading. -/
  | glbLogIndex (value : W32)
/-- KILL_RUNS (R445): The PF kills every run of the function at the next pick boundary. -/
  | killRuns (fn : Nat) (value : W32)
/-- REGISTER_WRITE (R6): A write to a register with no behaviour of its own, with the range, width and protection
  checks. -/
  | registerWrite (master : Nat) (fn : Nat) (addr : Nat) (width : Nat) (value : W64)
/-- NOP (R322): Does nothing. -/
  | izNop (core : Nat)
/-- LIT8 (R322): Pushes a sign-extended 1-byte immediate. -/
  | izLit8 (core : Nat) (imm : Byte)
/-- LIT16 (R322): Pushes a sign-extended 2-byte immediate. -/
  | izLit16 (core : Nat) (imm : W16)
/-- LIT32 (R322): Pushes a sign-extended 4-byte immediate. -/
  | izLit32 (core : Nat) (imm : W32)
/-- LIT64 (R322): Pushes an 8-byte immediate. -/
  | izLit64 (core : Nat) (imm : W64)
/-- DUP (R322): Duplicates the top entry. -/
  | izDup (core : Nat)
/-- DROP (R322): Drops the top entry. -/
  | izDrop (core : Nat)
/-- SWAP (R322): Swaps the top two entries. -/
  | izSwap (core : Nat)
/-- OVER (R322): Copies the second entry to the top. -/
  | izOver (core : Nat)
/-- ROT (R322): Rotates the top three entries. -/
  | izRot (core : Nat)
/-- NIP (R322): Drops the second entry. -/
  | izNip (core : Nat)
/-- TUCK (R322): Copies the top entry under the second. -/
  | izTuck (core : Nat)
/-- NTH (R322): Copies the entry i below the top. -/
  | izNth (core : Nat) (imm : Byte)
/-- SETN (R322): Pops a value and writes it i below the top. -/
  | izSetn (core : Nat) (imm : Byte)
/-- DROPN (R322): Drops n entries. -/
  | izDropn (core : Nat) (imm : Byte)
/-- DUP2 (R322): Duplicates the top two entries. -/
  | izDup2 (core : Nat)
/-- TOR (R322): Moves the top entry to the return stack. -/
  | izTor (core : Nat)
/-- FROMR (R322): Moves the top of the return stack to the data stack. -/
  | izFromr (core : Nat)
/-- RFETCH (R322): Copies the top of the return stack. -/
  | izRfetch (core : Nat)
/-- DEPTH (R322): Pushes the data-stack depth. -/
  | izDepth (core : Nat)
/-- LITW (R322): Pushes w × 2^60. -/
  | izLitw (core : Nat) (imm : Byte)
/-- ADD (R323): Adds modulo 2^64. -/
  | izAdd (core : Nat)
/-- SUB (R323): Subtracts. -/
  | izSub (core : Nat)
/-- MUL (R323): Pushes the low 64 bits of the product. -/
  | izMul (core : Nat)
/-- MULHU (R323): Pushes the high 64 bits of the unsigned product. -/
  | izMulhu (core : Nat)
/-- MULHS (R323): Pushes the high 64 bits of the signed product. -/
  | izMulhs (core : Nat)
/-- DIVU (R323): Divides, unsigned. -/
  | izDivu (core : Nat)
/-- REMU (R323): Takes the unsigned remainder. -/
  | izRemu (core : Nat)
/-- DIVS (R323): Divides, signed. -/
  | izDivs (core : Nat)
/-- REMS (R323): Takes the signed remainder. -/
  | izRems (core : Nat)
/-- NEG (R323): Negates. -/
  | izNeg (core : Nat)
/-- AND (R323): Bitwise AND. -/
  | izAnd (core : Nat)
/-- OR (R323): Bitwise OR. -/
  | izOr (core : Nat)
/-- XOR (R323): Bitwise XOR. -/
  | izXor (core : Nat)
/-- NOT (R323): Bitwise NOT. -/
  | izNot (core : Nat)
/-- SHL (R323): Shifts left. -/
  | izShl (core : Nat)
/-- SHR (R323): Shifts right, logical. -/
  | izShr (core : Nat)
/-- SAR (R323): Shifts right, arithmetic. -/
  | izSar (core : Nat)
/-- ROL (R323): Rotates left. -/
  | izRol (core : Nat)
/-- ROR (R323): Rotates right. -/
  | izRor (core : Nat)
/-- ADDI (R323): Adds a 1-byte immediate. -/
  | izAddi (core : Nat) (imm : Byte)
/-- ADDI32 (R323): Adds a 4-byte immediate. -/
  | izAddi32 (core : Nat) (imm : W32)
/-- ANDI (R323): ANDs with a zero-extended immediate. -/
  | izAndi (core : Nat) (imm : W32)
/-- SHLI (R323): Shifts left by an immediate. -/
  | izShli (core : Nat) (imm : Byte)
/-- SHRI (R323): Shifts right, logical, by an immediate. -/
  | izShri (core : Nat) (imm : Byte)
/-- SARI (R323): Shifts right, arithmetic, by an immediate. -/
  | izSari (core : Nat) (imm : Byte)
/-- MINU (R323): Unsigned minimum. -/
  | izMinu (core : Nat)
/-- MAXU (R323): Unsigned maximum. -/
  | izMaxu (core : Nat)
/-- MINS (R323): Signed minimum. -/
  | izMins (core : Nat)
/-- MAXS (R323): Signed maximum. -/
  | izMaxs (core : Nat)
/-- SEXT (R323): Sign-extends the low n bytes. -/
  | izSext (core : Nat) (imm : Byte)
/-- ZEXT (R323): Keeps the low n bytes. -/
  | izZext (core : Nat) (imm : Byte)
/-- CLZ (R324): Counts leading zero bits. -/
  | izClz (core : Nat)
/-- CTZ (R324): Counts trailing zero bits. -/
  | izCtz (core : Nat)
/-- POPC (R324): Counts one bits. -/
  | izPopc (core : Nat)
/-- BFX (R324): Extracts a bit field, zero-extended. -/
  | izBfx (core : Nat) (imm : W16)
/-- BFXS (R324): Extracts a bit field, sign-extended. -/
  | izBfxs (core : Nat) (imm : W16)
/-- BFI (R324): Inserts a bit field. -/
  | izBfi (core : Nat) (imm : W16)
/-- BPERM (R324): Permutes bytes under a selector from the stack. -/
  | izBperm (core : Nat)
/-- BSWAP (R324): Reverses the 8 bytes. -/
  | izBswap (core : Nat)
/-- BFXV (R324): Extracts a bit field with operands from the stack. -/
  | izBfxv (core : Nat)
/-- BFIV (R324): Inserts a bit field with operands from the stack. -/
  | izBfiv (core : Nat)
/-- BPERMI (R324): Permutes bytes under an immediate selector. -/
  | izBpermi (core : Nat) (imm : W64)
/-- EQ (R325): Pushes a = b. -/
  | izEq (core : Nat)
/-- NE (R325): Pushes a ≠ b. -/
  | izNe (core : Nat)
/-- LTU (R325): Unsigned less-than. -/
  | izLtu (core : Nat)
/-- LEU (R325): Unsigned less-or-equal. -/
  | izLeu (core : Nat)
/-- GTU (R325): Unsigned greater-than. -/
  | izGtu (core : Nat)
/-- GEU (R325): Unsigned greater-or-equal. -/
  | izGeu (core : Nat)
/-- LTS (R325): Signed less-than. -/
  | izLts (core : Nat)
/-- LES (R325): Signed less-or-equal. -/
  | izLes (core : Nat)
/-- GTS (R325): Signed greater-than. -/
  | izGts (core : Nat)
/-- GES (R325): Signed greater-or-equal. -/
  | izGes (core : Nat)
/-- EQZ (R325): Pushes a = 0. -/
  | izEqz (core : Nat)
/-- NEZ (R325): Pushes a ≠ 0. -/
  | izNez (core : Nat)
/-- SELECT (R325): Chooses a or b by c. -/
  | izSelect (core : Nat)
/-- JMP (R326): Branches with a 16-bit offset. -/
  | izJmp (core : Nat) (imm : W16)
/-- JZ (R326): Branches if zero. -/
  | izJz (core : Nat) (imm : W16)
/-- JNZ (R326): Branches if non-zero. -/
  | izJnz (core : Nat) (imm : W16)
/-- JMPL (R326): Branches with a 32-bit offset. -/
  | izJmpl (core : Nat) (imm : W32)
/-- JZL (R326): Branches if zero, 32-bit offset. -/
  | izJzl (core : Nat) (imm : W32)
/-- JNZL (R326): Branches if non-zero, 32-bit offset. -/
  | izJnzl (core : Nat) (imm : W32)
/-- CALL (R326): Calls a function-table entry. -/
  | izCall (core : Nat) (imm : W16)
/-- RET (R326): Returns to the caller. -/
  | izRet (core : Nat)
/-- LOOP (R326): Decrements the top of the return stack and branches while it is non-zero. -/
  | izLoop (core : Nat) (imm : W16)
/-- TRAP (R326): Traps with 0x0B and the USER immediate. -/
  | izTrap (core : Nat) (imm : Byte)
/-- LD8 (R327): Loads 1 byte through a window. -/
  | izLd8 (core : Nat)
/-- LD16 (R327): Loads 2 bytes. -/
  | izLd16 (core : Nat)
/-- LD32 (R327): Loads 4 bytes. -/
  | izLd32 (core : Nat)
/-- LD64 (R327): Loads 8 bytes. -/
  | izLd64 (core : Nat)
/-- LDS8 (R327): Loads 1 byte, sign-extended. -/
  | izLds8 (core : Nat)
/-- LDS16 (R327): Loads 2 bytes, sign-extended. -/
  | izLds16 (core : Nat)
/-- LDS32 (R327): Loads 4 bytes, sign-extended. -/
  | izLds32 (core : Nat)
/-- ST8 (R327): Stores 1 byte, posted. -/
  | izSt8 (core : Nat)
/-- ST16 (R327): Stores 2 bytes. -/
  | izSt16 (core : Nat)
/-- ST32 (R327): Stores 4 bytes. -/
  | izSt32 (core : Nat)
/-- ST64 (R327): Stores 8 bytes. -/
  | izSt64 (core : Nat)
/-- AADD (R327): 64-bit atomic add. -/
  | izAadd (core : Nat)
/-- CAS (R327): 64-bit compare-and-swap. -/
  | izCas (core : Nat)
/-- COLL (R321): Pushes the collision flag and clears it. -/
  | izColl (core : Nat)
/-- COPY (R327): Copies len bytes between windows. -/
  | izCopy (core : Nat)
/-- FENCE (R319): Stalls until every earlier store of the core is visible. -/
  | izFence (core : Nat)
/-- SUBMIT (R329): Checks a descriptor and queues it to a Shuttle or an engine. -/
  | izSubmit (core : Nat)
/-- WAIT (R328): Adds n to the task's counter and may end the activation. -/
  | izWait (core : Nat)
/-- SPAWN (R328): Creates a task of the same run. -/
  | izSpawn (core : Nat)
/-- SIGNAL (R328): Decrements a task's counter. -/
  | izSignal (core : Nat)
/-- YIELD (R328): Ends the activation; the task is requeued ready. -/
  | izYield (core : Nat)
/-- END (R328): Ends the task. -/
  | izEnd (core : Nat)
/-- SELF (R328): Pushes the running task's number. -/
  | izSelf (core : Nat)
/-- PNOW (R328): Pushes the pick counter. -/
  | izPnow (core : Nat)
/-- HSRCH (R330): Searches a Heddle group with an all-ones mask. -/
  | izHsrch (core : Nat)
/-- HSRCHM (R330): Searches a Heddle group with a request mask. -/
  | izHsrchm (core : Nat)
/-- HNEXT (R330): Continues the last search. -/
  | izHnext (core : Nat)
/-- HINS (R330): Inserts a Heddle entry. -/
  | izHins (core : Nat)
/-- HDEL (R330): Deletes a Heddle entry. -/
  | izHdel (core : Nat)
/-- FEAT (R332): Reads a feature register. -/
  | izFeat (core : Nat) (imm : Byte)
/-- CORE (R332): Pushes the core number. -/
  | izCore (core : Nat)
/-- FUNCN (R332): Pushes the run's function. -/
  | izFuncn (core : Nat)
/-- WLD (R332): Privileged 32-bit Weft load. -/
  | izWld (core : Nat)
/-- WST (R332): Privileged 32-bit Weft store. -/
  | izWst (core : Nat)
/-- WLD64 (R332): Privileged 64-bit Weft load. -/
  | izWld64 (core : Nat)
/-- WST64 (R332): Privileged 64-bit Weft store. -/
  | izWst64 (core : Nat)
/-- EVT (R332): Privileged write of an informational event. -/
  | izEvt (core : Nat)
/-- CRC32C (R333): Extends a CRC-32C over len bytes. -/
  | izCrc32c (core : Nat)
/-- GFMUL (R333): Bytewise multiplication in GF(2^8). -/
  | izGfmul (core : Nat)
/-- CLMUL (R333): Low 64 bits of the carry-less product. -/
  | izClmul (core : Nat)
/-- CLMULH (R333): High 64 bits of the carry-less product. -/
  | izClmulh (core : Nat)
/-- POR_N_ASSERT (R501): POR_N driven low holds the part in power-on reset; asserted before the seal it has the
  outcome of a power failure before the seal. -/
  | porNAssert
/-- PWRFAIL_N_DEASSERT (R172): PWRFAIL_N returns high, which step 5 of the restart and the 256-pick count before the
  post-seal device reset wait for. -/
  | pwrfailNDeassert
/-- RAIL_BACK_IN_RANGE (R500): A core rail rises to at least 20 mV above its trip level, so the supply monitor reports
  it in range again for R167 and R173. -/
  | railBackInRange (rail : Nat)
/-- PERST_DEASSERT (R474): Release of PERST_N ends the CXL fundamental reset and lets link training begin. -/
  | perstDeassert
/-- SERVICE_BUTTON_PRESS (R488): The debounced fall of SVC_BTN_N starts a press, whose length sets the removal, cancel
  and LOCATE behaviour. -/
  | serviceButtonPress
/-- VF_ENABLE_SET (R432): VF Enable written from 0 to 1 makes functions F1 to NumVFs present, so they answer
  configuration and BAR accesses. -/
  | vfEnableSet (num : Nat)
/-- MSIX_VECTOR_UNMASK (R447): Unmasking an MSI-X vector, or clearing the function mask, sends the messages held as
  pending bits, each counted against IRQ when sent. -/
  | msixVectorUnmask (fn : Nat) (vec : Nat)
deriving DecidableEq, Repr

end Sys2Proof
end

