-- ==== Sys2Proof/Decode.lean ====
section
/-!
DEFINITION. The commands that a word spells. No row of the opcode table gives bits, so no word spells a command.
-/
namespace Sys2Proof

/-- The command that the low `nbits` bits of `w` spell: none, since the table gives no row any bits. -/
def decodeTableWord (_nbits _w : Nat) : Option Instr := none

end Sys2Proof
end

