-- ==== Sys2Proof/Machine/Tab.lean ====
section
/-!
DEFINITION. Sparse tables (`Tab`): reading, writing and the canonical form. An unlisted key reads as the table's default;
a write of the default removes the entry, so equal tables are equal data.
-/
namespace Sys2Proof.Machine

/-- What key `k` holds; `d` where nothing is listed. -/
def tget {α : Type} (d : α) : Tab α → Nat → α
  | [], _ => d
  | (k', v) :: t, k => if k = k' then v else tget d t k

/-- Puts `v` at key `k` without regard to the default: keys stay ascending. -/
def tput {α : Type} (k : Nat) (v : α) : Tab α → Tab α
  | [] => [(k, v)]
  | (k', v') :: t => if k < k' then (k, v) :: (k', v') :: t
                     else if k = k' then (k, v) :: t
                     else (k', v') :: tput k v t

/-- Removes key `k`. -/
def tdel {α : Type} (k : Nat) : Tab α → Tab α
  | [] => []
  | (k', v') :: t => if k = k' then t else (k', v') :: tdel k t

/-- Writes `v` at key `k`: the default is never listed. -/
def tset {α : Type} [DecidableEq α] (d : α) (k : Nat) (v : α) (t : Tab α) : Tab α :=
  if v = d then tdel k t else tput k v t

/-- Applies `f` to what key `k` holds. -/
def tmod {α : Type} [DecidableEq α] (d : α) (k : Nat) (f : α → α) (t : Tab α) : Tab α :=
  tset d k (f (tget d t k)) t

/-- All keys of a table are above `n`. -/
def tabAbove {α : Type} (n : Nat) : Tab α → Bool
  | [] => true
  | (k, _) :: t => n < k && tabAbove n t

/-- The canonical form: keys rise strictly and no listed value is the default. -/
def tabWf {α : Type} [DecidableEq α] (d : α) : Tab α → Bool
  | [] => true
  | (k, v) :: t => v ≠ d && tabAbove k t && tabWf d t

/-- The keys listed, ascending. -/
def tkeys {α : Type} (t : Tab α) : List Nat := t.map Prod.fst

/-- The listed keys whose value satisfies `p`, ascending. -/
def tfind {α : Type} (p : Nat → α → Bool) (t : Tab α) : List Nat :=
  (t.filter fun e => p e.1 e.2).map Prod.fst

/-- Writes `bs` at consecutive keys from `k`. -/
def tsetBytes (k : Nat) : Bytes → Tab Byte → Tab Byte
  | [], t => t
  | b :: bs, t => tsetBytes (k + 1) bs (tset 0 k b t)

/-- Reads `n` consecutive bytes from key `k`. -/
def tgetBytes (t : Tab Byte) (k : Nat) : Nat → Bytes
  | 0 => []
  | n + 1 => tget 0 t k :: tgetBytes t (k + 1) n

/-- Puts `a` before the first element that it does not come after. -/
def insertBy {α : Type} (le : α → α → Bool) (a : α) : List α → List α
  | [] => [a]
  | b :: l => if le a b then a :: b :: l else b :: insertBy le a l

/-- A list in the order of `le`; elements that tie keep their order. -/
def sortBy {α : Type} (le : α → α → Bool) (l : List α) : List α := l.foldr (insertBy le) []

end Sys2Proof.Machine
end

