-- ==== Sys2Proof/Machine/Bits.lean ====
section
/-!
DEFINITION. Bit fields of numbers, byte order (R5) and the small list operations that the chapters share.
-/
namespace Sys2Proof.Machine

/-- Bits [hi:lo] of a number (Notation of the scope chapter). -/
def bits (v hi lo : Nat) : Nat := (v / 2 ^ lo) % 2 ^ (hi - lo + 1)

/-- Bit `i` of a number. -/
def bit (v i : Nat) : Bool := (v / 2 ^ i) % 2 = 1

/-- A flag as a number. -/
def b2n (b : Bool) : Nat := if b then 1 else 0

/-- `v` with bits [hi:lo] replaced by `x`. -/
def setBits (v hi lo x : Nat) : Nat :=
  v - bits v hi lo * 2 ^ lo + (x % 2 ^ (hi - lo + 1)) * 2 ^ lo

/-- `v` with bit `i` replaced. -/
def setBit (v i : Nat) (b : Bool) : Nat := setBits v i i (b2n b)

/-- The number that bytes spell, lowest address least significant (R5). -/
def leNat : Bytes → Nat
  | [] => 0
  | b :: bs => b.toNat + 256 * leNat bs

/-- The `n` bytes of a number, lowest first (R5). -/
def natLe : Nat → Nat → Bytes
  | 0, _ => []
  | n + 1, v => BitVec.ofNat 8 v :: natLe n (v / 256)

/-- `n` bytes of `bs` from `off`, as a number. -/
def leAt (bs : Bytes) (off n : Nat) : Nat := leNat ((bs.drop off).take n)

/-- The number that bytes spell, most significant first (digests, CMAC tags). -/
def beNat (bs : Bytes) : Nat := bs.foldl (fun a b => 256 * a + b.toNat) 0

/-- `n` bytes of a number, most significant first. -/
def natBe (n v : Nat) : Bytes := (natLe n v).reverse

/-- `n` zero bytes. -/
def zeros (n : Nat) : Bytes := List.replicate n 0

/-- `bs` cut or zero-filled to `n` bytes. -/
def padTo (n : Nat) (bs : Bytes) : Bytes := (bs ++ zeros (n - bs.length)).take n

/-- Bytes of `base` from `off` replaced by `bs`. -/
def patch (base : Bytes) (off : Nat) (bs : Bytes) : Bytes :=
  base.take off ++ bs ++ base.drop (off + bs.length)

/-- Rounded-up quotient. -/
def cdiv (a b : Nat) : Nat := (a + b - 1) / b

/-- A signed number of `w` bits. -/
def sgn (w v : Nat) : Int := if v % 2 ^ w < 2 ^ (w - 1) then (v % 2 ^ w : Nat) else (v % 2 ^ w : Nat) - (2 ^ w : Nat)

/-- A signed number laid into `w` bits. -/
def unsgn (w : Nat) (i : Int) : Nat := (i % (2 ^ w : Nat)).toNat

/-- `l` with the element at `i` replaced. -/
def setAt {α : Type} (l : List α) (i : Nat) (x : α) : List α := l.set i x

/-- Applies `f` for 0, 1, … `n` − 1 in order. -/
def iter {α : Type} (n : Nat) (f : Nat → α → α) (a : α) : α := (List.range n).foldl (fun a i => f i a) a

/-- Cuts a list into pieces of `n` elements (`fuel` pieces at most). -/
def chunks {α : Type} (n : Nat) : Nat → List α → List (List α)
  | 0, _ => []
  | fuel + 1, l => if l.isEmpty then [] else l.take n :: chunks n fuel (l.drop n)

/-- Bitwise operations on numbers, by width. -/
def andN (a b : Nat) : Nat := Nat.land a b
/-- Bits of `a` that `b` does not have. -/
def clearN (a b : Nat) : Nat := a - Nat.land a b

/-- Keys `n` items apart that the range [off, off + len) touches, at granularity `g`. -/
def grains (g off len : Nat) : List Nat :=
  if len = 0 then [] else (List.range ((off + len - 1) / g - off / g + 1)).map (· + off / g)

/-- Base-2 logarithm rounded up, at least 0. -/
def clog2 (n : Nat) : Nat := if n ≤ 1 then 0 else Nat.log2 (n - 1) + 1

/-- `k n`, by cases on `n`, so that the kernel evaluates `n` before it goes on (a long string would else nest too deep). -/
def withNat {α : Type} (n : Nat) (k : Nat → α) : α :=
  match n with
  | 0 => k 0
  | m + 1 => k (m + 1)

/-- A left fold whose state is a number, evaluated at every step. -/
def foldNat {β : Type} (f : Nat → β → Nat) (s : Nat) : List β → Nat
  | [] => s
  | b :: bs => withNat (f s b) fun t => foldNat f t bs

/-- The number whose byte `i` (byte 0 lowest) is `f i`, for `n` bytes. -/
def packBytes (f : Nat → Nat) : Nat → Nat
  | 0 => 0
  | n + 1 => f n * 256 ^ n + packBytes f n

/-- Byte `i` of a number (byte 0 lowest). -/
def nthByte (x i : Nat) : Nat := x / 256 ^ i % 256

end Sys2Proof.Machine
end

