-- ==== Sys2Proof/Machine/Aes.lean ====
section
/-!
DEFINITION. AES-256 encryption (FIPS 197) and AES-256-CMAC (NIST SP 800-38B): the keyed check of R267.
-/
namespace Sys2Proof.Machine

/-- The S-box of AES. -/
def aesSbox : List Nat :=
  [0x63, 0x7c, 0x77, 0x7b, 0xf2, 0x6b, 0x6f, 0xc5, 0x30, 0x01, 0x67, 0x2b, 0xfe, 0xd7, 0xab, 0x76] ++
  [0xca, 0x82, 0xc9, 0x7d, 0xfa, 0x59, 0x47, 0xf0, 0xad, 0xd4, 0xa2, 0xaf, 0x9c, 0xa4, 0x72, 0xc0] ++
  [0xb7, 0xfd, 0x93, 0x26, 0x36, 0x3f, 0xf7, 0xcc, 0x34, 0xa5, 0xe5, 0xf1, 0x71, 0xd8, 0x31, 0x15] ++
  [0x04, 0xc7, 0x23, 0xc3, 0x18, 0x96, 0x05, 0x9a, 0x07, 0x12, 0x80, 0xe2, 0xeb, 0x27, 0xb2, 0x75] ++
  [0x09, 0x83, 0x2c, 0x1a, 0x1b, 0x6e, 0x5a, 0xa0, 0x52, 0x3b, 0xd6, 0xb3, 0x29, 0xe3, 0x2f, 0x84] ++
  [0x53, 0xd1, 0x00, 0xed, 0x20, 0xfc, 0xb1, 0x5b, 0x6a, 0xcb, 0xbe, 0x39, 0x4a, 0x4c, 0x58, 0xcf] ++
  [0xd0, 0xef, 0xaa, 0xfb, 0x43, 0x4d, 0x33, 0x85, 0x45, 0xf9, 0x02, 0x7f, 0x50, 0x3c, 0x9f, 0xa8] ++
  [0x51, 0xa3, 0x40, 0x8f, 0x92, 0x9d, 0x38, 0xf5, 0xbc, 0xb6, 0xda, 0x21, 0x10, 0xff, 0xf3, 0xd2] ++
  [0xcd, 0x0c, 0x13, 0xec, 0x5f, 0x97, 0x44, 0x17, 0xc4, 0xa7, 0x7e, 0x3d, 0x64, 0x5d, 0x19, 0x73] ++
  [0x60, 0x81, 0x4f, 0xdc, 0x22, 0x2a, 0x90, 0x88, 0x46, 0xee, 0xb8, 0x14, 0xde, 0x5e, 0x0b, 0xdb] ++
  [0xe0, 0x32, 0x3a, 0x0a, 0x49, 0x06, 0x24, 0x5c, 0xc2, 0xd3, 0xac, 0x62, 0x91, 0x95, 0xe4, 0x79] ++
  [0xe7, 0xc8, 0x37, 0x6d, 0x8d, 0xd5, 0x4e, 0xa9, 0x6c, 0x56, 0xf4, 0xea, 0x65, 0x7a, 0xae, 0x08] ++
  [0xba, 0x78, 0x25, 0x2e, 0x1c, 0xa6, 0xb4, 0xc6, 0xe8, 0xdd, 0x74, 0x1f, 0x4b, 0xbd, 0x8b, 0x8a] ++
  [0x70, 0x3e, 0xb5, 0x66, 0x48, 0x03, 0xf6, 0x0e, 0x61, 0x35, 0x57, 0xb9, 0x86, 0xc1, 0x1d, 0x9e] ++
  [0xe1, 0xf8, 0x98, 0x11, 0x69, 0xd9, 0x8e, 0x94, 0x9b, 0x1e, 0x87, 0xe9, 0xce, 0x55, 0x28, 0xdf] ++
  [0x8c, 0xa1, 0x89, 0x0d, 0xbf, 0xe6, 0x42, 0x68, 0x41, 0x99, 0x2d, 0x0f, 0xb0, 0x54, 0xbb, 0x16]

/-- Multiplication by 2 in the field of AES, polynomial 0x11B. -/
def aesDouble (a : Nat) : Nat := Nat.xor (2 * a) (a / 128 * 0x11B)

/-- The table as one number, its first entry lowest. -/
def aesSboxNat : Nat := aesSbox.foldr (fun b n => b + 256 * n) 0

/-- SubBytes on one byte. -/
def aesSub (a : Nat) : Nat := nthByte aesSboxNat a

/-- SubBytes and RotWord on a word of the key schedule. -/
def aesSubRot (rot w : Nat) : Nat := packBytes (fun i => aesSub (nthByte w ((i + rot) % 4))) 4

/-- The next eight words of the key schedule of AES-256, from the eight before them and the round constant. -/
def aesNextKey (k rc : Nat) : Nat :=
  let g (i : Nat) := k / 2 ^ (32 * i) % 2 ^ 32
  withNat (Nat.xor (Nat.xor (g 0) (aesSubRot 1 (g 7))) rc) fun a =>
  withNat (Nat.xor (g 1) a) fun b => withNat (Nat.xor (g 2) b) fun c => withNat (Nat.xor (g 3) c) fun d =>
  withNat (Nat.xor (g 4) (aesSubRot 0 d)) fun e =>
  withNat (Nat.xor (g 5) e) fun f => withNat (Nat.xor (g 6) f) fun h => withNat (Nat.xor (g 7) h) fun l =>
  a + 2 ^ 32 * (b + 2 ^ 32 * (c + 2 ^ 32 * (d + 2 ^ 32 * (e + 2 ^ 32 * (f + 2 ^ 32 * (h + 2 ^ 32 * l))))))

/-- The round keys of AES-256 from the 32-byte key: round key `r` is bits 128·r to 128·r + 127 (the last 16 bytes of the
schedule are not used). -/
def aesExpand (key : Nat) : Nat :=
  foldNat (fun w i => w + 2 ^ (256 * (i + 1)) * aesNextKey (w / 2 ^ (256 * i)) (2 ^ i)) key (List.range 7)

/-- SubBytes and ShiftRows on the 16 bytes of the state, column by column. -/
def aesSubShift (s : Nat) : Nat :=
  packBytes (fun i => aesSub (nthByte s ((i / 4 * 4 + i % 4 + 4 * (i % 4)) % 16))) 16

/-- MixColumns. -/
def aesMix (s : Nat) : Nat :=
  packBytes (fun i =>
    let b (k : Nat) := nthByte s (i / 4 * 4 + (i + k) % 4)
    Nat.xor (Nat.xor (aesDouble (b 0)) (Nat.xor (aesDouble (b 1)) (b 1))) (Nat.xor (b 2) (b 3))) 16

/-- AES-256 of one 16-byte block (its first byte lowest) under the round keys. -/
def aesBlock (w x : Nat) : Nat :=
  let rk (r : Nat) := w / 2 ^ (128 * r) % 2 ^ 128
  withNat (foldNat (fun s r => Nat.xor (withNat (aesSubShift s) aesMix) (rk (r + 1))) (Nat.xor x (rk 0)) (List.range 13))
    fun s => Nat.xor (aesSubShift s) (rk 14)

/-- Doubling of a subkey in the field of CMAC (SP 800-38B, section 6.1), where the first byte is the highest. -/
def cmacDouble (l : Nat) : Nat :=
  let v := beNat (natLe 16 l)
  let d := (2 * v) % 2 ^ 128
  leNat (natBe 16 (if v < 2 ^ 127 then d else Nat.xor d 0x87))

/-- AES-256-CMAC of a message: a 16-byte tag. -/
def cmac (key : Bytes) (m : Bytes) : Bytes :=
  withNat (aesExpand (leNat key)) fun w =>
  withNat (cmacDouble (aesBlock w 0)) fun k1 =>
  let n := max 1 (cdiv m.length 16)
  let blocks := chunks 16 m.length m
  let last := blocks.getD (n - 1) []
  let fin := if last.length = 16 then Nat.xor (leNat last) k1
             else Nat.xor (leNat (last ++ [0x80])) (cmacDouble k1)
  withNat (foldNat (fun c b => aesBlock w (Nat.xor c (leNat b))) 0 (blocks.take (n - 1))) fun c =>
  natLe 16 (aesBlock w (Nat.xor c fin))

/-- Blocks that a CMAC of `n` bytes computes (R269). -/
def cmacBlocks (n : Nat) : Nat := max 1 (cdiv n 16)

end Sys2Proof.Machine
end

