-- ==== Sys2Proof/Config.lean ====
section
/-!
DEFINITION. What the spec leaves open: the free values. Each is a constant with no body, applied to the state's plain
counter `free` (advanced at every draw) or to the operands it depends on, so nothing can be proved of a particular value.
-/
namespace Sys2Proof.Config

/-- A byte the spec leaves undefined (R327 COPY over overlapping ranges, R247 the destination of a failed job): the
n-th draw. Log entry 5. -/
opaque freeByte : Nat → Byte

/-- A choice of one of several legal orders or instances that the spec leaves to firmware or to an entropy source
(which free slot, compressor or lane is taken): the n-th draw. Log entry 6. -/
opaque freeChoice : Nat → Nat

/-- The power estimate in mW that the part shows in `PWR_EST_MW` (R495); the spec gives no formula: the n-th draw.
Log entry 7. -/
opaque powerEstimate : Nat → BitVec 32

/-- Whether a low PWRFAIL_N pulse of 3 samples, or one from 120 ns to 160 ns, is detected (R504): the n-th draw.
Log entry 8. -/
opaque shortPulse : Nat → Bool

/-- The byte that a PRED 6 element takes when its coded rank is 256 or more, by the left byte and the rank: R234 and R238
state no value there. Log entry 9. -/
opaque twillRank : Nat → Nat → BitVec 8

/-- The part is a PRK-8832-X, with a junction limit of 105 °C, and not a PRK-8832-C, with 100 °C (R493). Log entry 10. -/
opaque gradeX : Bool

/-- The DRAM modules are RDIMMs (R178, R182 DDR_CFG.RDIMM): the spec does not say which a part carries. Log entry 11. -/
opaque rdimm : Bool

/-- The vendor ID of the part's configuration space, which the spec does not give. Log entry 130. -/
opaque vendorId : BitVec 16

end Sys2Proof.Config
end

