-- ==== Sys2Proof/Machine/Gf.lean ====
section
/-!
DEFINITION. Arithmetic in GF(2^8) with polynomial 0x11D and generator 0x02, and the Reed–Solomon codes of the memories
(R191): the check symbols and the correction of any two symbols.
-/
namespace Sys2Proof.Machine

/-- Multiplication by 2 in GF(2^8), polynomial 0x11D (R191). -/
def gfDouble (a : Nat) : Nat := if a < 128 then 2 * a else Nat.xor (2 * a) 0x11D

/-- Multiplication in GF(2^8). -/
def gfMul (a b : Nat) : Nat :=
  ((List.range 8).foldl (fun (p : Nat × Nat) i => (if bit b i then Nat.xor p.1 p.2 else p.1, gfDouble p.2)) (0, a)).1

/-- α^n. -/
def gfExp : Nat → Nat
  | 0 => 1
  | n + 1 => gfDouble (gfExp n)

/-- `a` to the power `n`. -/
def gfPow (a : Nat) : Nat → Nat
  | 0 => 1
  | n + 1 => gfMul a (gfPow a n)

/-- The inverse: a^254; 0 for 0. -/
def gfInv (a : Nat) : Nat := gfPow a 254

/-- The remainder register of the generator polynomial (x + 1)(x + 2)(x + 4)(x + 8) = x^4 + 15x^3 + 54x^2 + 120x + 64
after one more data symbol; the register holds the highest power first (R191). -/
def rsStep (r : List Nat) (d : Nat) : List Nat :=
  let f := Nat.xor d (r.getD 0 0)
  [Nat.xor (r.getD 1 0) (gfMul f 15), Nat.xor (r.getD 2 0) (gfMul f 54), Nat.xor (r.getD 3 0) (gfMul f 120), gfMul f 64]

/-- The four check symbols of a data word, highest power first (R191). -/
def rsCheck (data : List Nat) : List Nat := data.foldl rsStep [0, 0, 0, 0]

/-- A codeword: the data, then its check symbols. -/
def rsWord (data : List Nat) : List Nat := data ++ rsCheck data

/-- The value of a codeword, highest power first, at `x` (Horner). -/
def rsEval (w : List Nat) (x : Nat) : Nat := w.foldl (fun a c => Nat.xor (gfMul a x) c) 0

/-- The four syndromes of a codeword. -/
def rsSyndromes (w : List Nat) : List Nat := (List.range 4).map fun i => rsEval w (gfExp i)

/-- XORs symbol `i` of a codeword with `e`. -/
def rsFlip (w : List Nat) (i e : Nat) : List Nat := w.set i (Nat.xor (w.getD i 0) e)

/-- Corrects one symbol, if the syndromes are those of one error. -/
def rsOne (w : List Nat) : Option (List Nat) :=
  (List.range w.length).findSome? fun i =>
    let v := rsFlip w i (rsEval w 1)
    if rsSyndromes v = [0, 0, 0, 0] then some v else none

/-- Corrects two symbols, if the syndromes are those of two errors. -/
def rsTwo (w : List Nat) : Option (List Nat) :=
  let n := w.length
  let s0 := rsEval w 1
  let s1 := rsEval w 2
  (List.range n).findSome? fun i => (List.range n).findSome? fun j =>
    if i < j then
      let x := gfExp (n - 1 - i)
      let y := gfExp (n - 1 - j)
      let e := gfMul (Nat.xor s1 (gfMul s0 y)) (gfInv (Nat.xor x y))
      let v := rsFlip (rsFlip w i e) j (Nat.xor s0 e)
      if rsSyndromes v = [0, 0, 0, 0] then some v else none
    else none

/-- What the decoder makes of a codeword (R191, R193): the corrected word and whether it had to correct; none where it is
uncorrectable. -/
def rsDecode (w : List Nat) : Option (List Nat × Bool) :=
  if rsSyndromes w = [0, 0, 0, 0] then some (w, false)
  else match rsOne w with
    | some v => some (v, true)
    | none => (rsTwo w).map (·, true)

end Sys2Proof.Machine
end

