-- ==== Sys2Proof/Machine/Regs.lean ====
section
/-!
DEFINITION. The static register map: the 482 pages of R44 with their types (R42) and branches (R16), the common header
(R37) and the block registers of every chapter, each with its width, reset value, access type and range. Only what does
not change lies here; the values live in `State.regs`.
-/
namespace Sys2Proof.Machine

/-- A page: block type code, INST and INDEX (R44). -/
structure PageId where
  type : Nat
  inst : Nat
  index : Nat
deriving DecidableEq, Repr

/-- A row of R44: base, pages, type, whether INST (else INDEX) counts the pages, and the first INDEX. -/
structure PageRow where
  base : Nat
  pages : Nat
  type : Nat
  perInst : Bool
  index0 : Nat := 0

/-- The rows of R44 in address order. -/
def pageRows : List PageRow := [
  ⟨0x000000, 2, 0x01, false, 0⟩, ⟨0x010000, 1, 0x02, false, 0⟩, ⟨0x018000, 1, 0x03, false, 0⟩,
  ⟨0x020000, 2, 0x10, false, 0⟩, ⟨0x030000, 5, 0x11, false, 0⟩, ⟨0x038000, 1, 0x12, false, 0⟩,
  ⟨0x040000, 4, 0x20, true, 0⟩, ⟨0x048000, 32, 0x21, true, 0⟩, ⟨0x0C0000, 64, 0x30, true, 0⟩,
  ⟨0x100000, 8, 0x31, true, 0⟩, ⟨0x108000, 8, 0x32, true, 0⟩, ⟨0x110000, 4, 0x33, true, 0⟩,
  ⟨0x118000, 2, 0x34, true, 0⟩, ⟨0x120000, 8, 0x35, true, 0⟩, ⟨0x140000, 48, 0x36, false, 0⟩,
  ⟨0x170000, 8, 0x36, false, 48⟩, ⟨0x178000, 8, 0x40, true, 0⟩, ⟨0x180000, 128, 0x41, true, 0⟩,
  ⟨0x200000, 9, 0x42, false, 0⟩, ⟨0x240000, 1, 0x50, false, 0⟩, ⟨0x248000, 1, 0x51, false, 0⟩,
  ⟨0x280000, 2, 0x60, false, 0⟩, ⟨0x300000, 128, 0x61, true, 0⟩, ⟨0x400000, 4, 0x70, false, 0⟩,
  ⟨0x480000, 1, 0x80, false, 0⟩, ⟨0x481000, 1, 0x81, false, 0⟩, ⟨0x482000, 1, 0x82, false, 0⟩]

/-- The page behind a Weft address; none where R44 lists none. -/
def pageAt (a : Nat) : Option PageId :=
  (pageRows.find? fun r => r.base ≤ a && a < r.base + 0x1000 * r.pages).map fun r =>
    let i := (a - r.base) / 0x1000
    if r.perInst then ⟨r.type, i, r.index0⟩ else ⟨r.type, 0, r.index0 + i⟩

/-- The base of the page that holds an address. -/
def pageBase (a : Nat) : Nat := a / 0x1000 * 0x1000

/-- The bases of all 482 pages (R44). -/
def allPages : List Nat := pageRows.flatMap fun r => (List.range r.pages).map fun i => r.base + 0x1000 * i

/-- The branch that serves a page; 16 stands for the root (R16). -/
def branchOf (p : PageId) : Nat :=
  match p.type with
  | 0x01 | 0x02 | 0x03 => 16
  | 0x10 | 0x11 | 0x12 => 0
  | 0x20 => 1 + p.inst
  | 0x21 => 1 + p.inst / 8
  | 0x30 => if p.inst < 32 then 5 else 6
  | 0x31 | 0x32 | 0x33 | 0x34 | 0x35 => 7
  | 0x36 => 8
  | 0x40 => if p.inst < 2 then 9 else if p.inst < 5 then 10 else 11
  | 0x41 => if p.inst < 32 then 9 else if p.inst < 80 then 10 else 11
  | 0x42 | 0x50 | 0x51 => 12
  | 0x60 => 13
  | 0x61 => 14
  | _ => 15

/-! ### Page bases by block -/

def pgGlb := 0x000000
def pgLog := 0x001000
def pgWarp := 0x010000
def pgWeft := 0x018000
def pgHam := 0x020000
def pgHamS := 0x021000
def pgDdr := 0x030000
def pgDdrCh (c : Nat) := 0x031000 + 0x1000 * c
def pgJnl := 0x038000
def pgFlc (q : Nat) := 0x040000 + 0x1000 * q
def pgFch (c : Nat) := 0x048000 + 0x1000 * c
def pgShu (s : Nat) := 0x0C0000 + 0x1000 * s
def pgTwc (i : Nat) := 0x100000 + 0x1000 * i
def pgTwd (i : Nat) := 0x108000 + 0x1000 * i
def pgDig (i : Nat) := 0x110000 + 0x1000 * i
def pgKck (i : Nat) := 0x118000 + 0x1000 * i
def pgScn (i : Nat) := 0x120000 + 0x1000 * i
def pgTile (t : Nat) := 0x140000 + 0x1000 * t
def pgGrp (g : Nat) := 0x170000 + 0x1000 * g
def pgIzc (k : Nat) := 0x178000 + 0x1000 * k
def pgIzk (n : Nat) := 0x180000 + 0x1000 * n
def pgItn := 0x200000
def pgItnRl (k : Nat) := 0x201000 + 0x1000 * k
def pgMnd := 0x240000
def pgPty := 0x248000
def pgQen := 0x280000
def pgQenP := 0x281000
def pgFun (f : Nat) := 0x300000 + 0x1000 * f
def pgCxl := 0x400000
def pgCxlT := 0x401000
def pgCxlH := 0x402000
def pgDoe := 0x403000
def pgSvc := 0x480000
def pgPwr := 0x481000
def pgClk := 0x482000

/-- A block register, or an array of `count` of them every `stride` bytes. -/
structure Reg where
  off : Nat
  /-- 64 bits wide; else 32. -/
  wide : Bool := false
  reset : Nat := 0
  /-- Bits an RW write stores. -/
  rw : Nat := 0
  /-- Bits a 1 clears. -/
  w1c : Nat := 0
  /-- A counter that SNAP_CTL captures (R49). -/
  snap : Bool := false
  /-- Counted since power-on reset, so kept by the resets of R507. -/
  por : Bool := false
  /-- Accepts writes only from firmware (R48). -/
  fw : Bool := false
  /-- Ranges of RW fields: hi, lo, least, greatest (R508). -/
  ranges : List (Nat × Nat × Nat × Nat) := []
  stride : Nat := 0
  count : Nat := 1

/-- A 32-bit register that only the part writes. -/
def ro32 (off : Nat) (reset : Nat := 0) (por : Bool := false) (stride : Nat := 0) (count : Nat := 1) : Reg :=
  { off := off, reset := reset, por := por, stride := stride, count := count }
/-- A 64-bit register that only the part writes and that is no counter. -/
def ro64 (off : Nat) (reset : Nat := 0) (stride : Nat := 0) (count : Nat := 1) (por : Bool := false) : Reg :=
  { off := off, wide := true, reset := reset, stride := stride, count := count, por := por }
/-- A 64-bit snapshot counter. -/
def ctr (off : Nat) (stride : Nat := 0) (count : Nat := 1) (por : Bool := false) : Reg :=
  { off := off, wide := true, snap := true, stride := stride, count := count, por := por }
/-- A 32-bit register that software writes. -/
def rw32 (off mask : Nat) (reset : Nat := 0) (ranges : List (Nat × Nat × Nat × Nat) := []) (stride : Nat := 0)
    (count : Nat := 1) : Reg :=
  { off := off, reset := reset, rw := mask, ranges := ranges, stride := stride, count := count }
/-- A 64-bit register that software writes. -/
def rw64 (off mask : Nat) (reset : Nat := 0) (ranges : List (Nat × Nat × Nat × Nat) := []) (stride : Nat := 0)
    (count : Nat := 1) : Reg :=
  { off := off, wide := true, reset := reset, rw := mask, ranges := ranges, stride := stride, count := count }

/-- Global page 0 (R51). -/
def regsGlb : List Reg := [
  ro64 0x100, ro32 0x110 0x8832B101, ro32 0x118,
  { off := 0x11C, reset := 1, w1c := 0x1F, por := true },
  ro32 0x120, ro32 0x124 0 true,
  { off := 0x128, rw := 0x1FFFF, fw := true },
  ro32 0x130 0 true, ro32 0x134, ro32 0x138,
  { off := 0x140, rw := 0xFFFFFFFF, por := true, stride := 4, count := 4 }]
/-- Global page 1 (R480): kept by every reset but power-on. -/
def regsLog : List Reg := [
  ro32 0x100 0 true, ro32 0x104 0 true, ro32 0x108, ro64 0x110 0 8 2 true,
  { off := 0x120, reset := 1, rw := 1, por := true }]
/-- The Warp page (R30). -/
def regsWarp : List Reg := [
  rw32 0x100 0xFFFFFFFF 0x11111111 [] 4 8, ctr 0x140 8 8 true, ctr 0x180 8 8 true, ctr 0x1C0 8 8, ctr 0x200 8 8]
/-- The Weft page (R31). -/
def regsWeft : List Reg := [ro32 0x100 0xFFFF, ro32 0x104, ro32 0x108, ro32 0x110 0 true]
/-- Hamper page 0 (R204). -/
def regsHam : List Reg := [
  rw32 0x100 0x07FF03FF 0x01800280, rw32 0x104 0x07FF03FF 0x00400080, rw32 0x108 0x07FF03FF 0x014000C0,
  rw32 0x10C 0x07FF03FF 0x00800200, rw32 0x110 0xE7 0xC2,
  ctr 0x118, ctr 0x120, ctr 0x128, ro32 0x130, ro32 0x138, ctr 0x180 8 10, ctr 0x1D0 8 10]
/-- Hamper page 1 (R204). -/
def regsHamS : List Reg := [
  rw32 0x100 0xFFF1 0x401 [(15, 4, 1, 4095)], ro32 0x104, ro32 0x108, ctr 0x110, rw32 0x118 0xFFF1 0x101,
  ro32 0x11C, ro32 0x120, ctr 0x128, ro32 0x130, ro64 0x140 0 8 16, ro32 0x200 0 false 4 16]
/-- The DRAM controller page (R182). -/
def regsDdr : List Reg := [ro32 0x100, ro32 0x104, ro32 0x108, ro32 0x10C, ro64 0x110, ro64 0x118]
/-- A DRAM channel page (R182). -/
def regsDdrCh : List Reg := [ro32 0x100, ro64 0x108, ro64 0x110, ro64 0x118, ro32 0x120]
/-- The journal page (R181). -/
def regsJnl : List Reg := [
  ro32 0x100, ro32 0x104, ro32 0x108, ctr 0x110 0 1 true, ctr 0x118 0 1 true, ro32 0x124 1, ro32 0x128, ro32 0x12C,
  ro32 0x130, ro32 0x134, rw32 0x138 0xFF 0x32 [(7, 0, 10, 80)], ro32 0x148, ro32 0x14C, ro32 0x150 0 true,
  ctr 0x158, rw32 0x160 0x03FF001F 0x08 [(4, 0, 0, 16)], ctr 0x168, ctr 0x170]
/-- A quadrant page (R147); the registers from +0x200 stand only in quadrant 0. -/
def regsFlc (q : Nat) : List Reg :=
  [ro32 0x100, ctr 0x108] ++ (if q = 0 then [
  rw32 0x200 0xFFFFFF 0x050A06 [(7, 0, 4, 40)], rw32 0x204 0xFFFFFFFF 0x01000004, ro32 0x208, ro32 0x20C,
  rw32 0x210 0xFFFFFFFF 0x00800040, rw32 0x214 0xFFFF 0x10, ro32 0x218, ro32 0x220, ro32 0x224, ro32 0x228,
  ctr 0x230 8 9, ro32 0x280, rw32 0x284 0xFF 0x07 [(7, 0, 1, 90)]] else [])
/-- A flash channel page (R148). -/
def regsFch : List Reg := [
  rw32 0x100 0x8 0x8, ro32 0x104, ro32 0x108, ro32 0x10C, ro64 0x110, ro64 0x118, ro64 0x120, ro64 0x128, ro64 0x130,
  ro64 0x138, rw32 0x200 0xFFFFFFFF 0 [] 4 16]
/-- A Shuttle page (R223), with the line registers in the page of Shuttle 0 (R224). -/
def regsShu (i : Nat) : List Reg :=
  [rw32 0x100 0xF3FFF000 0x40000000 [(31, 28, 4, 10)], ro32 0x104, rw32 0x108 0x3FF, ro32 0x10C, rw32 0x110 0x1,
   ctr 0x118, ctr 0x120, ctr 0x128, ctr 0x130, ro32 0x138] ++ (if i = 0 then [
   rw64 0x400 0x03FFFFFFFFFF0F7F 0xFFFF0000 [(6, 2, 12, 26), (11, 8, 0, 8)] 16 32, ro64 0x408 0 16 32, ro32 0x600] else [])
/-- The ring registers shared by every stream engine (R254, R282, R310, R430). -/
def regsRing : List Reg := [
  rw32 0x100 0xF3FFF000 0x40000000 [(31, 28, 4, 10)], ro32 0x104, rw32 0x108 0x3FF, ro32 0x10C, rw32 0x110 0x1]
/-- A compressor, decompressor or scan lane page (R254, R310). -/
def regsTw (last : Bool) : List Reg :=
  regsRing ++ [ctr 0x118 8 7, ro32 0x150] ++ (if last then [ctr 0x158] else [])
/-- A digest page (R282). -/
def regsDig (i : Nat) : List Reg :=
  regsRing ++ [ctr 0x118 8 4, ro32 0x138] ++ (if i = 0 then [ro64 0x400 0 8 64, ro32 0x600 0x40, ctr 0x608] else [])
/-- A keyed-check page (R282). -/
def regsKck (i : Nat) : List Reg :=
  regsRing ++ [ctr 0x118 8 4, ro32 0x138] ++
    (if i = 0 then [ro64 0x400 0 16 32, ro64 0x408 0 16 32, ctr 0x600 0 1 true, ro32 0x608 0 false 4 4] else [])
/-- A Heddle tile page (R308). -/
def regsTile (t : Nat) : List Reg := [ro32 0x100 (if t < 24 then 0x100000 else 0), ctr 0x108, ctr 0x110, ctr 0x118]
/-- A Heddle group page (R309). -/
def regsGrp : List Reg := [
  rw32 0x100 0xFF1F3F07 0x1800, rw32 0x104 0x2, { off := 0x108, w1c := 0x40000 }, ro32 0x10C,
  rw32 0x110 0xFFFFFFFF 0xFFFFFFFF [] 4 12, ro64 0x140, ro64 0x148, ro64 0x150, ro64 0x158, ro64 0x160]
/-- A cluster page (R378). -/
def regsIzc (k : Nat) : List Reg := [ro32 0x100, ro32 0x104 (if k < 2 then 1 else 0), ro64 0x108 0 8 6]
/-- A core page (R344). -/
def regsIzk (n : Nat) : List Reg := [
  ro32 0x100 (if n < 32 then 0x100 else 0), ro32 0x104, ro32 0x108, ro32 0x110, ro32 0x114, ro64 0x118, ctr 0x120 8 6,
  ro64 0x180 0 8 4, ro64 0x200 0x000F000000000000 16 16, ro64 0x208 0 16 16]
/-- The Itinerary control page (R377). -/
def regsItn : List Reg := [
  ro32 0x100 0x2000E000, ro32 0x104, rw32 0x108 0x0FFF0FFF 0x0E000F00, rw32 0x10C 0x8000FFFF, ro32 0x110,
  rw32 0x114 0xFFFF 0x100, ro32 0x118, ro64 0x120 0 8 4, ro32 0x140, ctr 0x148 8 7]
/-- A ready-list page (R377). -/
def regsItnRl : List Reg := [ro32 0x100, ro32 0x104, ro32 0x108 0 true, ctr 0x110, ctr 0x118, ro32 0x120]
/-- The Mender page (R430). -/
def regsMnd : List Reg := regsRing ++ [
  ctr 0x118 8 3, ro32 0x130, rw32 0x140 0xFFFFFFFF 0x00404010, ro32 0x144, ro32 0x148, ro32 0x14C, ro32 0x150,
  ro32 0x154, ro32 0x158 0x380, ro32 0x15C, ctr 0x160 8 4]
/-- The Party page (R403). -/
def regsPty : List Reg := [
  ro32 0x100, ro32 0x104, ro64 0x108, ro32 0x110, ro32 0x114, ro64 0x118, ro64 0x120, rw32 0x128 1, ro32 0x130,
  ro32 0x138, ctr 0x140 8 8, ro32 0x200 0 false 4 32]
/-- Queue engine page 0 (R108). -/
def regsQen : List Reg := [
  ro32 0x100, rw32 0x104 1, ro32 0x108, ro32 0x10C, ctr 0x110, ctr 0x118, ro32 0x120 0 true, ro32 0x124,
  ro32 0x200 0 false 4 128]
/-- Queue engine page 1 (R108). -/
def regsQenP : List Reg := [ctr 0x100 8 4, ro32 0x120, ctr 0x128]
/-- A function page (R458). -/
def regsFun : List Reg := [
  ro32 0x100, ro32 0x104, ro32 0x140 0 false 4 16, ro32 0x180 0 false 4 16, ctr 0x200 8 10 true, ro32 0x250 0 true,
  ro64 0x300, ro64 0x308, ro32 0x310, ro64 0x318, ctr 0x320 0 1 true]
/-- The CXL pages (R70). -/
def regsCxl (i : Nat) : List Reg :=
  match i with
  | 0 => [ro32 0x100, rw32 0x104 0xF0 0x60 [(7, 4, 3, 6)], ro32 0x108 0 true, ctr 0x110, ctr 0x118, ctr 0x120]
  | 1 => [ctr 0x100 8 5, rw32 0x128 1]
  | 2 => [rw64 0x100 0x8000FF007F0003FF 0 [(47, 40, 1, 128), (30, 24, 0, 127)] 8 128,
          rw64 0x500 0xBFFF1FFF0001FFFF 0 [(61, 48, 1, 8192)] 8 128, ro32 0x900, ro64 0x908]
  | _ => [ro32 0x100, ro32 0x104]
/-- The service panel page (R495). -/
def regsSvc : List Reg := [
  ro32 0x100 0 true, ro32 0x104 0 true, rw32 0x108 0x103, ro32 0x10C 0 true, rw32 0x110 0xFFFF0001 0x04000000,
  ro32 0x118 0 true]
/-- The power page (R495). -/
def regsPwr : List Reg := [
  ro32 0x100 0x10000, ro32 0x104, rw32 0x108 0x1F 0x08 [(4, 0, 1, 30)], ro32 0x10C, ro32 0x110, ctr 0x118 8 5,
  ctr 0x140, ctr 0x148, ro32 0x150 0 false 4 8]
/-- The clock and reset page (R479). -/
def regsClk : List Reg := [
  ro32 0x100, ro32 0x104, ctr 0x110, ro64 0x120, ro64 0x130 0 8 2, ro32 0x180,
  rw32 0x184 0xFFFF03 0x010001 [(23, 8, 1, 65535)], rw32 0x188 0xFFFFFFFF 0x001312D0,
  { off := 0x18C, fw := true }, ro32 0x190 0 true, ro64 0x198 0 0 1 true]

/-- The block registers of a page, offsets 0x100 and above. -/
def blockRegs (p : PageId) : List Reg :=
  match p.type with
  | 0x01 => if p.index = 0 then regsGlb else regsLog
  | 0x02 => regsWarp
  | 0x03 => regsWeft
  | 0x10 => if p.index = 0 then regsHam else regsHamS
  | 0x11 => if p.index = 0 then regsDdr else regsDdrCh
  | 0x12 => regsJnl
  | 0x20 => regsFlc p.inst
  | 0x21 => regsFch
  | 0x30 => regsShu p.inst
  | 0x31 => regsTw false
  | 0x32 => regsTw true
  | 0x33 => regsDig p.inst
  | 0x34 => regsKck p.inst
  | 0x35 => regsTw true
  | 0x36 => if p.index < 48 then regsTile p.index else regsGrp
  | 0x40 => regsIzc p.inst
  | 0x41 => regsIzk p.inst
  | 0x42 => if p.index = 0 then regsItn else regsItnRl
  | 0x50 => regsMnd
  | 0x51 => regsPty
  | 0x60 => if p.index = 0 then regsQen else regsQenP
  | 0x61 => regsFun
  | 0x70 => regsCxl p.index
  | 0x80 => regsSvc
  | 0x81 => regsPwr
  | _ => regsClk

/-- Whether the page has counters that SNAP_CTL captures (R37 SNAP). -/
def pageSnap (p : PageId) : Bool := (blockRegs p).any (·.snap)

/-- Whether the page can be fenced by its Selvage: every page but those of global, Warp, Weft and journal (R462). -/
def pageSelv (p : PageId) : Bool := !(p.type = 0x01 || p.type = 0x02 || p.type = 0x03 || p.type = 0x12)

/-- Reset value of PAGE_CTL.EN (R38). -/
def enReset (p : PageId) : Nat :=
  match p.type with
  | 0x01 | 0x02 | 0x03 | 0x12 | 0x80 | 0x81 | 0x82 => 1
  | _ => 0

/-- The header registers of R37. -/
def headerRegs (p : PageId) : List Reg := [
  ro32 0x000 (p.type * 0x10000 + p.inst * 0x100 + p.index), ro32 0x004 0x100,
  ro64 0x008 (b2n (pageSelv p) * 2 ^ 63 + b2n (pageSnap p) * 2 ^ 62 + 2 ^ 61),
  rw32 0x010 1 (enReset p), ro32 0x014, { off := 0x018, w1c := 0xFFFFFFFF }, rw32 0x01C 0xFFFFFFFF,
  ro64 0x020, ro32 0x028 0 true, { off := 0x030, w1c := 0xFFFFFFFF }, rw32 0x034 0xFFFFFFFF 0xFFFFFFFF,
  rw32 0x038 0xC07F07FF, rw32 0x040 1 1, ro32 0x044, ro32 0x050, ro64 0x058 0 0 1 true]

/-- Every register of a page. -/
def pageRegs (p : PageId) : List Reg := headerRegs p ++ blockRegs p

/-- Whether an offset is the start of the register (or of an element of the array). -/
def Reg.starts (r : Reg) (off : Nat) : Bool :=
  if r.stride = 0 then off = r.off
  else r.off ≤ off && off < r.off + r.stride * r.count && (off - r.off) % r.stride = 0

/-- The register that starts at a Weft address. -/
def regAt (a : Nat) : Option Reg :=
  match pageAt a with
  | none => none
  | some p => if a % 0x1000 < 0x100 then (headerRegs p).find? (·.starts (a % 0x1000))
              else (blockRegs p).find? (·.starts (a % 0x1000))

/-- The static reset value at a Weft address; 0 where no register starts. -/
def regReset (a : Nat) : Nat :=
  match regAt a with
  | none => 0
  | some r => r.reset

/-- The offsets a register covers. -/
def Reg.offs (r : Reg) : List Nat := (List.range r.count).map fun i => r.off + r.stride * i

end Sys2Proof.Machine
end

