-- ==== Sys2Proof/Machine/Types.lean ====
section
/-!
DEFINITION. The plain-data types the state is built of, chapter by chapter. A field's default is its value at power-on
reset; the rule of spec/ that names the field stands in its docstring.
-/
namespace Sys2Proof.Machine

/-! ### What the part sends to its outside -/

/-- A status of a completion entry: status code type, status code, Do Not Retry (R106, R107). -/
structure Status where
  sct : Nat := 0
  sc : Nat := 0
  dnr : Bool := false
deriving DecidableEq, Repr

/-- One message the part sends: the host, a peer, a board pin's watcher sees it. -/
inductive Sent where
  /-- A completion entry written to a CQ of a controller (R90, R108): SQ head pointer and phase included. -/
  | cqe (fn cq sq cid : Nat) (st : Status) (dw0 dw1 : W32) (sqhd : Nat) (phase : Bool)
  /-- Command data written to host memory at byte `off` of the command's buffer (R65: poison sends the TLP poisoned). -/
  | data (fn sq cid off : Nat) (bytes : Bytes) (poison : Bool)
  /-- A write to host memory at a bus address, with a function's requester ID (R216, R453). -/
  | host (fn addr : Nat) (bytes : Bytes) (poison : Bool)
  /-- A read of host memory the part asks for: command data (kind 0), MPTR data (1), PRP or SGL lists (2), Shuttle (3). -/
  | ask (fn ctx kind addr len : Nat)
  /-- An MSI-X message on a vector of a function (R447). -/
  | msix (fn vec : Nat)
  /-- A write into a peer's Party window: HPA, bytes, and whether it goes as a UIO write or as a posted write (R66, R67). -/
  | peer (hpa : Nat) (bytes : Bytes) (uio : Bool)
  /-- The answer to a CXL.mem read: 64 bytes and poison (R62). -/
  | memData (bytes : Bytes) (poison : Bool)
  /-- The completion of a CXL.mem write (R63). -/
  | memDone
  /-- The answer of the CXL memory-device mailbox: return code and payload (R59). -/
  | mailbox (code : Nat) (payload : Bytes)
  /-- A DOE response (R68). -/
  | doe (payload : Bytes)
  /-- The value a BAR or Weft read returns, or an Unsupported Request answer. -/
  | unsupported
deriving DecidableEq, Repr

/-! ### Timed effects -/

/-- An effect that waits for a pick boundary. -/
inductive Due where
  /-- `GLB_SNAP_ALL` captures every snapshot page (R49). -/
  | snapAll
  /-- A register takes a new value: arbitration weights (R30), a Hamper region (R189), the map cache (R181). -/
  | reg (addr : Nat) (v : W64)
  /-- A page's soft reset ends at this pick (R39). -/
  | softReset (page at_ : Nat)
  /-- A block fence's queued jobs end with code 0x08 (R463). -/
  | fenceJobs (page : Nat)
  /-- A function fence acts (R457). -/
  | fnFence (f : Nat)
  /-- A run is killed (R376): run, status code, Dword0, Dword1. -/
  | killRun (run : Nat) (st : Status) (dw0 dw1 : W32)
  /-- A controller is reset by CC.EN (R94), with CSTS.SHST set afterwards when `shst` (R95). -/
  | ctlReset (f : Nat) (shst : Bool)
  /-- A function's FLR acts (R449). -/
  | flr (f : Nat)
  /-- A link-down acts (R69). -/
  | linkDown
  /-- A device, fatal (1) or boot-watchdog (2) reset acts at this pick (R475). -/
  | reset (kind at_ : Nat)
  /-- A Log Swap acts (R454): its context. -/
  | logSwap (ctx : Nat)
  /-- A removal request acts (R488). -/
  | removal
  /-- An engine with STOP set holds (R254): page base. -/
  | hold (page : Nat)
  /-- `QEN_FETCH_CTL`.HOLD acts (R108). -/
  | fetchHold
  /-- A task's counter is decremented by a completion held for the boundary (R25 step 4, R27). -/
  | dec (task : Nat)
  /-- A run's entry task is created (R371 step 6). -/
  | entryTask (run : Nat)
  /-- An ACK is sent to a Party member (R389). -/
  | partyAck (member : Nat)
  /-- A firmware activation's hold begins at the acting boundary (R97): context of the Commit and slot. -/
  | activate (ctx slot : Nat)
  /-- A firmware activation ends (R97): whether the new image came up. -/
  | actDone (ok : Bool)
deriving DecidableEq, Repr

/-- One entry of the event log (R468). -/
structure LogEntry where
  code : W16 := 0
  inst : Byte := 0
  index : Byte := 0
  cls : Nat := 0
  masked : Bool := false
  repeats : Nat := 0
  pick : BitVec 48 := 0
  detail : W32 := 0
deriving DecidableEq, Repr

/-- The event log (R468, R469). -/
structure EventLog where
  /-- Ring entries by index mod 4,096. -/
  ring : Tab LogEntry := []
  /-- `GLB_LOG_HEAD`: entries written to the ring. -/
  head : W32 := 0
  /-- `GLB_LOG_DROPPED`. -/
  dropped : W32 := 0
  /-- The root queue, newest first, while the ring cannot be written. -/
  queue : List LogEntry := []
  /-- The 256 entries saved at the last seal, newest first, in the journal control area. -/
  saved : List LogEntry := []
  /-- A previous seal saved entries (PREV of R470). -/
  savedValid : Bool := false
  /-- The entry `GLB_LOG_INDEX` captured. -/
  captured : LogEntry := {}
deriving DecidableEq, Repr

/-! ### Boot, resets, straps -/

/-- Which phase of bring-up the part is in (R486). -/
inductive BootPhase where
  /-- Held in power-on reset: POR_N low or VDD_AON out of range (R501, R500). -/
  | held
  /-- Reset released: straps, fuses and Hamper done; the boot ROM has not chosen a slot (R486). -/
  | rom
  /-- Firmware runs; media bring-up goes on (R486). -/
  | firmware
  /-- The controllers may report ready (R173 step 6, or degraded under R487). -/
  | ready
  /-- Recovery mode (R485). -/
  | recovery
  /-- Device-fatal state (R466). -/
  | fatal
  /-- Sealed by the power-fail sequence or a removal, no further flash or journal I/O (R167). -/
  | sealed
deriving DecidableEq, Repr

/-- A firmware slot as the boot ROM finds it (R483, R485). -/
structure FwSlot where
  present : Bool := false
  /-- The image bytes: a .izp image with HOUSE = 1. -/
  image : Bytes := []
  /-- The CRC-32C the boot-area directory records for the item. -/
  crc : W32 := 0
deriving DecidableEq, Repr

/-- A boot record copy (R484). -/
structure BootRecord where
  valid : Bool := false
  seq : Nat := 0
  active : Nat := 0
  lastGood : Nat := 0
  pending : Bool := false
deriving DecidableEq, Repr

/-- Boot and reset state. -/
structure Boot where
  phase : BootPhase := .rom
  /-- Strap balls as the board ties them; latched into `GLB_STRAP` at POR_N release (R482). -/
  straps : Byte := 0
  /-- Firmware slots 1 to 3 of the boot area (R483). -/
  slots : Tab FwSlot := []
  /-- The two boot record copies (R484). -/
  recordA : BootRecord := {}
  recordB : BootRecord := {}
  /-- Copies A and B of the die parameter table (R112). -/
  dieTableA : Bytes := []
  dieTableB : Bytes := []
  /-- Degraded mode (R487). -/
  degraded : Bool := false
  /-- Pick at which firmware was booted: the boot watchdog counts from it (R477); none: stopped. -/
  wdogFrom : Option Nat := some 0
  /-- Slot that booted last; a watchdog expiry excludes it (R485). -/
  lastSlot : Nat := 0
  /-- Pick of the last fatal reset, for the second-event rule of R466. -/
  lastFatalReset : Option Nat := none
  /-- Staying in the fatal state until power-on reset (R466). -/
  stuck : Bool := false
  /-- The map in DRAM, and write staging in the Hamper, are kept over the reset that leads to this boot (R474, R475). -/
  mapKept : Bool := false
  stageKept : Bool := false
  /-- Pick at which the 64 picks of a reset end (R475). -/
  holdUntil : Nat := 0
  /-- The core PLL has lost its lock (R461, R501). -/
  pllLost : Bool := false
  /-- POR_N is low (R501). -/
  porLow : Bool := false
  /-- VDD_AON out of range (R500). -/
  aonLow : Bool := false
  /-- Core rails out of range, by bit (R500): VDD_CORE, VDD_SRAM, VDD_CXL, VDD_CXLH, VDD_JNL, VDD_IO. -/
  railsLow : Tab Bool := []
  /-- PWRFAIL_N is low (R166). -/
  pwrfailLow : Bool := false
  /-- PERST_N is low (R474). -/
  perstLow : Bool := false
  /-- FL_PWR_EN (R499). -/
  flPwrEn : Bool := false
  /-- Consecutive picks of good power and closed latch after a seal (R167). -/
  goodPicks : Nat := 0
  /-- Firmware image slots loaded by Firmware Image Download: the piece buffer (R75). -/
  download : Bytes := []
deriving DecidableEq, Repr

def Boot.reset : Boot := {}
def EventLog.reset : EventLog := {}

/-! ### CXL -/

/-- An HDM decoder (R60). -/
structure Decoder where
  hpa : Nat := 0
  committed : Bool := false
  /-- Commit Error: the last commit was refused. -/
  err : Bool := false
deriving DecidableEq, Repr

/-- A record of the mailbox event log (R59, R65). -/
structure EventRecord where
  handle : Nat := 0
  dpa : Nat := 0
  /-- The timestamp at the event. -/
  time : W64 := 0
deriving DecidableEq, Repr

/-- A CXL.mem request that waits at a closed crossing (R472): a read, or a write with its data, byte mask and poison. -/
structure MemReq where
  hpa : Nat := 0
  write : Option (Bytes × Nat × Bool) := none
deriving DecidableEq, Repr

/-- The CXL attachment. -/
structure Cxl where
  /-- Link up, lanes, speed code, flit and UIO modes as trained (R55, R70). -/
  up : Bool := false
  width : Nat := 0
  speed : Nat := 0
  flit256 : Bool := false
  uio : Bool := false
  laneFail : W16 := 0
  /-- The link is held in Detect below x4; the bolt at which it tries again (R55). -/
  detectFrom : Option Nat := none
  dec0 : Decoder := {}
  dec1 : Decoder := {}
  /-- SR-IOV: VF Enable and NumVFs (R432). -/
  vfEnable : Bool := false
  numVfs : Nat := 0
  /-- Mailbox: event records, next handle, interrupt policy, timestamp and the pick it was set (R59). -/
  events : List EventRecord := []
  nextHandle : Nat := 1
  irqPolicy : W32 := 0
  timestamp : W64 := 0
  timestampSet : Option Nat := none
  /-- Retraining is in progress (R70 RETRAIN). -/
  retraining : Bool := false
  /-- CXL.mem requests that wait for a closed crossing, oldest first (R472). -/
  memWait : List MemReq := []
  /-- Registers of the primary mailbox: command, return code of the last command, payload (R58, R59). -/
  mboxCmd : W64 := 0
  mboxCode : Nat := 0
  mboxData : Tab Byte := []
deriving DecidableEq, Repr

def Cxl.reset : Cxl := {}

/-! ### Functions and controllers -/

/-- A submission queue of a controller (R74). -/
structure Sq where
  base : Nat := 0
  size : Nat := 0
  head : Nat := 0
  tail : Nat := 0
  cq : Nat := 0
  /-- A Delete I/O SQ waits for its commands (R92): context of the Delete. -/
  deleting : Option Nat := none
deriving DecidableEq, Repr

/-- A completion queue of a controller. -/
structure Cq where
  base : Nat := 0
  size : Nat := 0
  head : Nat := 0
  tail : Nat := 0
  phase : Bool := true
  vector : Nat := 0
  ien : Bool := false
deriving DecidableEq, Repr

/-- A completion entry on its way to its CQ. -/
structure Cpl where
  sq : Nat := 0
  cid : Nat := 0
  st : Status := {}
  dw0 : W32 := 0
  dw1 : W32 := 0
  /-- The context that the command holds until the entry is written (R79); namespace and sequence number of a write that succeeded,
  which a Flush covers from then on (R93). -/
  ctx : Nat := 0
  nsid : Nat := 0
  seq : Nat := 0
deriving DecidableEq, Repr

/-- An asynchronous event (R509): type, information, log page. -/
structure Aev where
  type : Nat := 0
  info : Nat := 0
  page : Nat := 0
deriving DecidableEq, Repr

/-- A pending Arm of an admin SQ (R277): counter, tag, pick of its completion. -/
structure Arm where
  counter : W64 := 0
  tag : BitVec 128 := 0
  pick : Nat := 0
  /-- Fetch order of the Arm, to tell whether a critical command is the next entry after it (R78). -/
  order : Nat := 0
deriving DecidableEq, Repr

/-- A Portion record (R434). -/
structure Portion where
  policy : Nat := 7
  trapLimit : Nat := 8
  refuseLimit : Nat := 64
  slots : Nat := 0
  irq : Nat := 0xFFFF
  hostRd : Nat := 0
  hostWr : Nat := 0
  flashOps : Nat := 0
  corePicks : Nat := 0
  twc : Nat := 0
  twd : Nat := 0
  dig : Nat := 0
  kck : Nat := 0
  scn : Nat := 0
  hamper : Nat := 0
  hedTiles : Nat := 0
  hedWcode : Nat := 0
  hdmHam : Nat := 0
  hdmDram : Nat := 0
  heap : Nat := 0
  repair : Nat := 0
deriving DecidableEq, Repr

/-- An entry of the Error log page (R72 ELPE, R76): its number, the command's SQ and CID, its status, LBA and NSID. -/
structure ErrEntry where
  count : Nat := 0
  sq : Nat := 0
  cid : Nat := 0
  st : Status := {}
  lba : Nat := 0
  nsid : Nat := 0
deriving DecidableEq, Repr

/-- Dirty-page logging of a function (R452, R453). -/
structure DirtyLog where
  active : Bool := false
  addr : Nat := 0
  base : Nat := 0
  pages : Nat := 0
  ovf : Bool := false
  /-- Shadow of the active bitmap: set bits by page. -/
  bits : Tab Bool := []
  /-- Lines of 64 bytes changed and not yet written, with the bolt of their first change. -/
  dirty : Tab Nat := []
deriving DecidableEq, Repr

/-- A function and its NVMe controller. -/
structure Fn where
  /-- Bus Master Enable and Memory Space Enable (R449). -/
  bme : Bool := false
  mse : Bool := false
  /-- CC, AQA, ASQ, ACQ of the controller (R95). -/
  cc : W32 := 0
  aqa : W32 := 0
  asq : W64 := 0
  acq : W64 := 0
  /-- CSTS.RDY, CFS and SHST. -/
  rdy : Bool := false
  cfs : Bool := false
  shst : Nat := 0
  /-- CC.EN was set at this pick and RDY is not yet set (R95). -/
  enabling : Option Nat := none
  /-- A normal shutdown drains (R95); the fetch order at which its Flush was taken. -/
  draining : Bool := false
  shutFlush : Option Nat := none
  sqs : Tab Sq := []
  cqs : Tab Cq := []
  /-- Flexible I/O SQs and CQs assigned by Virtualization Management (R74). -/
  flexSq : Nat := 0
  flexCq : Nat := 0
  /-- Virtualization Management: the secondary controller is online. -/
  online : Bool := false
  /-- Features (R76). -/
  ab : Nat := 7
  tempOver : Option Nat := none
  tempUnder : Nat := 0
  nsqReq : Nat := 0
  ncqReq : Nat := 0
  coalThr : Nat := 0
  coalTime : Nat := 0
  vecCd : Tab Bool := []
  aec : W32 := 0
  pickWin : Nat := 0
  /-- Outstanding Asynchronous Event Requests, by context, oldest first (R509). -/
  aers : List Nat := []
  /-- Events held or waiting (R509), and the posted events whose types are masked until their log page is read. -/
  held : List Aev := []
  maskedEvs : List Aev := []
  /-- The pending Arm (R277). -/
  arm : Option Arm := none
  /-- Consecutive Authentication Failed results, and the bolt at which a lockout ends (R280). -/
  authFails : Nat := 0
  lockUntil : Option Nat := none
  /-- Fetch order of the last entry fetched from the admin SQ (R78). -/
  lastAdmin : Nat := 0
  /-- Last I/O SQ served (R80). -/
  rrSq : Nat := 0
  /-- Refill of each rate for this bolt in its base unit (messages, bytes, operations, clk, engine picks, chunks), in the
  order IRQ, HOST_RD, HOST_WR, FLASH_OPS, CORE_PICKS, TWC, TWD, DIG, KCK, SCN, REPAIR (R439); none: unlimited; the empty
  list before the first refill. -/
  refill : List (Option Nat) := []
  /-- Used of each rate in this bolt, what earlier bolts overspent included (R440). -/
  used : Tab Nat := []
  /-- Hamper bytes held from the guest pool (R437). -/
  hamUse : Nat := 0
  /-- Occupancy fields cut below use (R444), bits 0 to 5. -/
  pendingCut : BitVec 6 := 0
  /-- DRAM heap: base and size in 2 MiB units (R443). -/
  heapBase : Nat := 0
  heapSize : Nat := 0
  /-- Heddle group held, if any (R443). -/
  group : Option Nat := none
  /-- MSI-X vectors the host has unmasked, pending bits, vectors held for the budget, open coalescing windows by vector:
  entries accumulated and the pick of the opening (R104, R447, R448). -/
  unmasked : Tab Bool := []
  /-- Message address and data of the MSI-X table entries that the host has written (R58). -/
  msixTab : Tab (W64 × W32) := []
  pba : Tab Bool := []
  heldVecs : List Nat := []
  coal : Tab (Nat × Nat) := []
  /-- A function fence has acted (R457). -/
  fenced : Bool := false
  /-- Completion entries that wait for Bus Master Enable or for room in their CQ (R450). -/
  waitCpl : List Cpl := []
  /-- Bolts of program traps and of Portion Refused results within the last 256 (R456). -/
  trapBolts : List Nat := []
  refuseBolts : List Nat := []
  dlog : DirtyLog := {}
  /-- An FLR acts and its pick, while it is in progress (R449). -/
  flrAt : Option Nat := none
  /-- Data units, integrity errors of the controller's SMART page (R144). -/
  unitsRead : Nat := 0
  unitsWritten : Nat := 0
  mediaErrs : Nat := 0
  /-- Error log page entries, newest first, and their number so far (R76). -/
  errLog : List ErrEntry := []
  errCount : Nat := 0
deriving DecidableEq, Repr

/-! ### The queue engine -/

/-- One piece of a fetched command's data path: a unit of its extent. -/
structure UnitRead where
  midx : Nat := 0
  gmask : BitVec 4 := 0
deriving DecidableEq, Repr

/-- A granule of 4 KiB: its bytes (an empty list stands for 4,096 zeros) and poison. -/
structure Granule where
  bytes : Bytes := []
  poison : Bool := false
deriving DecidableEq, Repr

/-- A unit that a write stages: its map index, the granules it supplies, and the four granules (R155). -/
structure StageUnit where
  midx : Nat := 0
  gmask : BitVec 4 := 0
  gs : List Granule := []
  /-- A Twill frame starts in the unit (R151 CFS). -/
  cfs : Bool := false
  /-- Stripe ID of a unit of a local shard (R120). -/
  stripe : Nat := 0
deriving DecidableEq, Repr

/-- A transaction of a write (R159): its units still to stage, its STAGE record held back for the commit word, its slots,
and the runs of whole units it discards: first map index and count. -/
structure Tx where
  txid : Nat := 0
  units : List StageUnit := []
  last : Option (BitVec 128) := none
  slots : List Nat := []
  discards : List (Nat × Nat) := []
  /-- Its commit word has gone to the journal; the output extent of a run that it belongs to (R375). -/
  sent : Bool := false
  ext : Nat := 0
deriving DecidableEq, Repr

/-- A command context (R79). -/
structure Ctx where
  used : Bool := false
  fn : Nat := 0
  sq : Nat := 0
  cid : Nat := 0
  sqe : Sqe := 0
  /-- Namespace and fetch sequence number (R82); 0 where the command names no namespace. -/
  nsid : Nat := 0
  seq : Nat := 0
  /-- Order of fetch among all commands, and that of the entry fetched before it from the same admin SQ. -/
  order : Nat := 0
  prev : Nat := 0
  /-- Pick of the fetch. -/
  pick : Nat := 0
  /-- Extents in granules of the map (4 × map index + granule): first granule, granules; what the command is to the guard: 0
  not guarded, 1 read, 2 write (R84). A Run Program's inputs are apart. A Dataset Management or Run Program has `open_` until
  its ranges are known. -/
  extents : List (Nat × Nat) := []
  rextents : List (Nat × Nat) := []
  cls : Nat := 0
  open_ : Bool := false
  wide : Bool := false
  /-- The read has waited for an earlier write, so it is counted (R108 QEN_GUARD_WAITS). -/
  waited : Bool := false
  /-- The part was read-only at the fetch (R107 Media Read-Only). -/
  ro : Bool := false
  /-- Prior map entries of units that later writes changed (R86, R87); none: the current entry. -/
  view : Tab (Option (BitVec 40)) := []
  /-- The command's own row has run its checks; phase of commands that run in steps. -/
  started : Bool := false
  phase : Nat := 0
  claimed : Bool := false
  /-- Data, MPTR block and PRP or SGL list received from the host (R65). -/
  buf : Bytes := []
  mbuf : Bytes := []
  list : Bytes := []
  gotData : Bool := false
  gotMptr : Bool := false
  gotList : Bool := false
  /-- Host reads asked for, by kind: bit 0 data, 1 MPTR, 2 list. -/
  asked : BitVec 3 := 0
  /-- What went wrong on a host read: 1 completion timeout, 2 UR or CA, 3 poisoned TLP. -/
  badData : Nat := 0
  /-- The transactions of a write, once its data are there (R159). -/
  plan : List Tx := []
  planned : Bool := false
  /-- Granules read so far, by granule of the map: data and poison. -/
  got : Tab (Option Granule) := []
  /-- A granule failed: the command ends with this status once its transfers are over. -/
  ends : Option Status := none
  dw0 : W32 := 0
  dw1 : W32 := 0
  /-- Units already issued to the flash, so as not to issue them again. -/
  issued : List Nat := []
  /-- Deadline in bolts of a Party, Log Swap or Spread Write command. -/
  deadline : Option Nat := none
  /-- The run of a Run Program (R371). -/
  run : Option Nat := none
  /-- The tag was verified and its counter is on the way to the journal; the counter is durable, so the critical command may
  execute (R278). -/
  armed : Bool := false
  armOk : Bool := false
deriving DecidableEq, Repr

/-- A self-test that runs (R99). -/
structure SelfTest where
  running : Bool := false
  extended : Bool := false
  fn : Nat := 0
  nsid : Nat := 0
  /-- Steps made, steps in all, steps in this bolt, and the pick of the last one (R100). -/
  steps : Nat := 0
  total : Nat := 0
  stepsThisBolt : Nat := 0
  stepPick : Option Nat := none
  /-- Results, newest first: code, result, controller. -/
  results : List (Nat × Nat × Nat) := []
deriving DecidableEq, Repr

/-- The queue engine (R79 to R109). -/
structure Qe where
  ctxs : Tab Ctx := []
  /-- Fetches made: the order stamp of the next fetch. -/
  order : Nat := 1
  /-- The controller whose turn is next (R80, R81). -/
  turn : Nat := 0
  /-- Range-guard entries of tiles 0 to 23 (R85): 3 per context; unlisted: a hole. -/
  guard_ : Tab (Option (BitVec 96)) := []
  /-- Guard entries awaiting a rebuild (R285). -/
  guardLost : List Nat := []
  /-- `QEN_FETCH_CTL`.HELD. -/
  held : Bool := false
  /-- The Itinerary's back-pressure (R360). -/
  bp : Bool := false
  /-- Firmware activation: phase, context of the Commit, pick of the acting boundary, slot, pick of the drain's end (R97). -/
  actPhase : Nat := 0
  actCtx : Nat := 0
  actStart : Nat := 0
  actSlot : Nat := 0
  actDrain : Nat := 0
  selfTest : SelfTest := {}
  /-- A Sanitize runs (R88), and it has set off its erases. -/
  sanitizing : Bool := false
  sanErase : Bool := false
  /-- Part-wide SMART warnings beyond those kept elsewhere: bits 2 and 4 (R144). -/
  warn2 : Bool := false
  warn4 : Bool := false
  /-- F0's Power Management state and APST: enable and (idle ms, target state) per state (R101 to R103). -/
  pmState : Nat := 0
  apstOn : Bool := false
  apst : Tab (Nat × Nat) := []
  /-- Bolt of the last activity that ends idleness (R103). -/
  lastActive : Nat := 0
deriving DecidableEq, Repr

def Qe.reset : Qe := {}

/-- A namespace (R73, R150). -/
structure Namespace where
  base : Nat := 0
  units : Nat := 0
  /-- LBAF: 0 for 4 KiB, 1 for 16 KiB. -/
  lbaf : Nat := 0
  active : Bool := false
  attached : List Nat := []
  /-- Next fetch sequence number, and the end of the block reserved in the journal (R82, R162). -/
  nextSeq : Nat := 1
  seqEnd : Nat := 0
deriving DecidableEq, Repr

/-! ### The flash complex -/

/-- A programmed page (R119, R120): its 64 bytes of unit metadata (none stand for zeros) and its four granules. -/
structure Page where
  um : Bytes := []
  g0 : Granule := {}
  g1 : Granule := {}
  g2 : Granule := {}
  g3 : Granule := {}
deriving DecidableEq, Repr

/-- A superblock (R121): open in a stream, or closed. -/
structure Superblock where
  /-- none: free; some stream code: taken by that stream (R124). -/
  stream : Option Nat := none
  isOpen : Bool := false
  native : Bool := false
  sbSeq : Nat := 0
  closedBolt : Nat := 0
  erased : Bool := false
  /-- Units placed, in program order. -/
  placed : Nat := 0
  /-- Channels of its dies, as they stood when it was opened; empty: those that the row has now (R121). -/
  chans : List Nat := []
  /-- Dies left out (R121), by channel. -/
  out : List Nat := []
deriving DecidableEq, Repr

/-- Why an internal move runs. -/
inductive MoveKind where
  | fold | gc | refresh | rebuild | wear
deriving DecidableEq, Repr

/-- What an array read is for (R123, R128, R133, R134): a command, or the patrol or a self-test; the source of a copy; the mapped copy of
a staged unit; the read-back of a copy; a unit of the stripe of a unit that is being recovered. -/
inductive ReadWhy where
  | plain
  | copy (midx stream : Nat) (kind : MoveKind)
  | fill (midx : Nat)
  | verify (midx src : Nat) (kind : MoveKind)
  | mate (of_ : Nat)
deriving DecidableEq, Repr

/-- An array read of a unit: the command that wants it, if any, with the granules it wants. -/
structure FlashRead where
  pua : Nat := 0
  ctx : Option Nat := none
  want : UnitRead := {}
  why : ReadWhy := .plain
deriving DecidableEq, Repr

/-- A die (R112 to R114, R137). -/
structure Die where
  usable : Bool := false
  type : Nat := 0
  retired : Bool := false
  excluded : Bool := false
  timeoutBolt : Option Nat := none
  temp : Int := 0
  /-- Held at T_MAX (R494). -/
  hot : Bool := false
  /-- Blocks of its spare pool, lowest first (R121). -/
  spare : List Nat := []
  /-- A program runs on it, or is suspended for a read (R111, R117). -/
  busy : Bool := false
  /-- The read that runs on it, and the superblock whose block an erase on it clears, running or suspended (R111, R117). -/
  read : Option FlashRead := none
  erase : Option Nat := none
  /-- Times the program or erase that runs has been suspended (R117). -/
  suspends : Nat := 0
  /-- Pick plus 1 in which a host operation was last queued for it, and the operation time in picks that internal operations have
  taken in this bolt (R131, R129). -/
  hostPick : Nat := 0
  intPicks : Nat := 0
deriving DecidableEq, Repr

/-- A type record of the die parameter table (R113). -/
structure DieType where
  pageBytes : Nat := 0
  blocks : Nat := 0
  pagesNative : Nat := 0
  pagesSlc : Nat := 0
  planes : Nat := 0
  native : Nat := 0
  maxBin : Nat := 0
  flags : Nat := 0
  trSlc : Nat := 0
  trNative : Nat := 0
  tprogSlc : Nat := 0
  tprogNative : Nat := 0
  tbers : Nat := 0
  tsus : Nat := 0
  peSlc : Nat := 0
  peNative : Nat := 0
  sparePermille : Nat := 0
  retrySets : Nat := 0
  tempFeature : Nat := 0
  readDisturb : Nat := 0
  refreshBits : Nat := 0
  tMax : Int := 0
  onfiId : W32 := 0
deriving DecidableEq, Repr

/-- A flash channel (R115). -/
structure Channel where
  trained : Bool := false
  bin : Nat := 0
  /-- Highest temperature read, once one has been read (R146). -/
  highTemp : Option Int := none
deriving DecidableEq, Repr

/-- A copy that a move has to make (R128, R130): map index, source, stream and why. -/
structure Move where
  midx : Nat := 0
  src : Nat := 0
  stream : Nat := 4
  kind : MoveKind := .gc
deriving DecidableEq, Repr

/-- A unit placed in an open superblock whose program has not started (R123): its map index; for a copy its source and why it is
moved (R130); a stripe's parity (R122); a unit of a checkpoint, by its number (R165). -/
structure Placed where
  midx : Nat := 0
  move : Option (Nat × MoveKind) := none
  parity : Bool := false
  ckpt : Option Nat := none
deriving DecidableEq, Repr

/-- A unit that is being recovered from die parity (R134 step 4). -/
structure Rebuild where
  pua : Nat := 0
  /-- The other units of its stripe that are still to be read. -/
  left : List Nat := []
  /-- The reads that wait for the unit. -/
  reads : List FlashRead := []
deriving DecidableEq, Repr

/-- A checkpoint that is being written (R165): START and the address of its first unit. -/
structure CkptRun where
  start : Nat := 0
  /-- The segment's bytes as they were copied. -/
  copy : Tab (BitVec 40) := []
  first : Option Nat := none
  /-- The unit placed next, and the units not yet verified. -/
  next : Nat := 0
  left : Nat := 0
  /-- Records of the segment that START leaves behind. -/
  recs : Nat := 0
deriving DecidableEq, Repr

/-- A page under program: its address, its contents, its map index, the staging slots it holds, and its source if it is a
copy. -/
structure ProgUnit where
  pua : Nat := 0
  page : Page := {}
  midx : Nat := 0
  slots : List Nat := []
  /-- Fetch sequence number of the newest write in the unit. -/
  seq : Nat := 0
  move : Option (Nat × MoveKind) := none
  parity : Bool := false
  ckpt : Option Nat := none
deriving DecidableEq, Repr

/-- A program that runs on a die: the units it writes (R123). -/
structure Program where
  die : Nat := 0
  units : List ProgUnit := []
deriving DecidableEq, Repr

/-- The flash complex. -/
structure Media where
  /-- The die parameter table validated (R114). -/
  tableOk : Bool := false
  types : Tab DieType := []
  /-- Dies by channel × 16 + die. -/
  dies : Tab Die := []
  channels : Tab Channel := []
  /-- Superblocks by row × 4,096 + block. -/
  sbs : Tab Superblock := []
  /-- Native and SLC erases of each erase block, by die × 4,096 + block (R132). -/
  wear : Tab (Nat × Nat) := []
  /-- Reads of each erase block since its last erase, by die × 4,096 + block (R133). -/
  blockReads : Tab Nat := []
  /-- Retired erase blocks, by die × 4,096 + block, and their spare replacement (R121). -/
  retiredBlocks : Tab (Option Nat) := []
  /-- Programmed pages by physical unit address (R118). -/
  pages : Tab Page := []
  /-- XOR accumulators of open parity stripes, by superblock × 16,384 + page × 4 + plane: the number of the accumulator in the
  Hamper's firmware area, plus 1 (R122, R188); and those that the last dump has saved, with the address of their page plus 1 (R167). -/
  parity : Tab Nat := []
  accDump : Tab Nat := []
  /-- Array reads that wait for their die, oldest first (R111), and units under recovery from die parity (R134 step 4). -/
  reads : List FlashRead := []
  rebuilds : List Rebuild := []
  /-- Copies whose source has not been read yet, oldest first (R128). -/
  todo : List Move := []
  /-- Staged units whose mapped copy has been read, by map index: its address plus 1 (R123). -/
  fills : Tab Nat := []
  programs : List Program := []
  /-- Units placed and not yet under program, by physical unit address (R123). -/
  placed : Tab (Option Placed) := []
  /-- Superblocks to be erased as soon as R130 permits, by number, and the channels whose block of one is erased. -/
  erasing : List Nat := []
  erased : Tab (List Nat) := []
  /-- The DUMP stream's standby superblocks (R126). -/
  standby : List Nat := []
  nextSbSeq : Nat := 1
  /-- Erase blocks queued for refresh, by die × 4,096 + block; dies under rebuild (R133, R137). -/
  refreshQ : List Nat := []
  rebuildDie : List Nat := []
  /-- Units that entered SLC by the HOST stream in this bolt and the one before, and units read to be folded in this bolt (R127);
  patrol reads in this bolt (R133). -/
  slcIn : Nat := 0
  slcInWas : Nat := 0
  folded : Nat := 0
  patrolBolt : Nat := 0
  /-- SLC target T, the V it came from, host data per bolt of the last windows (R125). -/
  slcT : Nat := 4
  slcV : Nat := 0
  vWindow : List Nat := []
  vBolt : Nat := 0
  /-- Read-only (R140), direct mode (R127). -/
  ro : Bool := false
  direct : Bool := false
  spareWarned : Bool := false
  /-- TNVMCAP in GiB once fixed (R143). -/
  tnvmcap : Option Nat := none
  spareInit : Nat := 0
  spareLeft : Nat := 0
  diesRetired : Nat := 0
  /-- Poison ring, newest first: NSID, first LBA, granules (R146). -/
  poisonRing : List (Nat × Nat × Nat) := []
  /-- Temperature histogram, 16 bands (R146). -/
  tempHist : Tab Nat := []
  /-- Patrol: the map index read next, bolt the lap began (R133). -/
  patrolPos : Nat := 0
  patrolFrom : Nat := 0
  /-- Units programmed since first bring-up, and those of host data among them (R146). -/
  unitsAll : Nat := 0
  unitsHost : Nat := 0
deriving DecidableEq, Repr

def Media.reset : Media := {}

/-! ### Journal -/

/-- A staging slot (R155). -/
structure Slot where
  used : Bool := false
  midx : Nat := 0
  gmask : BitVec 4 := 0
  txid : Nat := 0
  seq : Nat := 0
  /-- Context of the write, while it is in flight. -/
  ctx : Option Nat := none
  /-- The data of the unit is complete (R159). -/
  full : Bool := false
  committed : Bool := false
  /-- Namespace and function of the write, and the fetch order at which its completion was posted; 0 before (R93). -/
  nsid : Nat := 0
  fn : Nat := 0
  posted : Nat := 0
  /-- The record that releases the slot is durable, at this fetch order; only reads fetched before it still use the slot. -/
  released : Option Nat := none
  /-- Journal position of its STAGE record (R161). -/
  pos : Nat := 0
  /-- A program that carries the slot runs, or has ended and its PLACE is not yet durable. -/
  busy : Bool := false
  dumped : Option Nat := none
  cfs : Bool := false
  stripe : Nat := 0
deriving DecidableEq, Repr

/-- State of a map segment (R175). -/
inductive SegState where
  | built | unbuilt | queued | building
deriving DecidableEq, Repr

/-- A unit that a committed write has discarded and whose map entry an earlier write's update still has to precede (R87). -/
structure Disc where
  midx : Nat := 0
  seq : Nat := 0
  nsid : Nat := 0
deriving DecidableEq, Repr

/-- A map update that waits for the rebuild of its segment (R174, R176): the entry, and the sequence number of its write, 0 for
a move; or the POISONED mark of a lost write. -/
structure Late where
  midx : Nat := 0
  entry : BitVec 40 := 0
  seq : Nat := 0
  poison : Bool := false
  /-- The slot of a lost staged write (R174). -/
  slot : Nat := 0
deriving DecidableEq, Repr

/-- What a durable journal word sets off (R157, R160). -/
inductive JAct where
  /-- Frees a staging slot. -/
  | freeSlot (slot : Nat)
  /-- The commit word of a transaction of a namespace's write with a sequence number; `last` posts the completion (R159). -/
  | commit (ctx txid nsid seq : Nat) (last : Bool)
  /-- The CKPT record of a segment: its START and its first unit (R165). -/
  | ckpt (seg start pua : Nat)
  /-- The counter of an Arm of a function is durable, so the critical command of the context may run (R278). -/
  | counter (ctx fn order : Nat) (value : W64)
  /-- A RELEASE record for a slot that holds no data any more (R155): the slot is free. -/
  | dropSlot (slot : Nat)
deriving DecidableEq, Repr

/-- A word issued to the die and not yet acknowledged. -/
structure JWord where
  recs : List (BitVec 128) := []
  acts : List JAct := []
deriving DecidableEq, Repr

/-- The power-fail sequence (R166, R167). -/
inductive PfPhase where
  | none | triggered | dumping | sealed
deriving DecidableEq, Repr

/-- Map, staging, journal and restart state that is lost with power. -/
structure Jnl where
  slots : Tab Slot := []
  nextTxid : Nat := 1
  /-- Map updates waiting for the journal window, oldest first (R160). -/
  window : List (BitVec 128 × List JAct) := []
  /-- Words issued, oldest first. -/
  issued : List JWord := []
  /-- Claims are held by the ring (R161). -/
  ringHold : Bool := false
  /-- Segment states; unlisted: built (R175). -/
  segs : Tab SegState := []
  promoQ : List Nat := []
  promoFrom : Tab Nat := []
  /-- Records of each segment since its START (R165). -/
  segRecs : Tab Nat := []
  /-- Discarded units whose map update waits (R87). -/
  disc : List Disc := []
  /-- Map updates of segments that are not built, oldest first; the journal position up to which a segment's rebuild
  replays the ring (R173, R154). -/
  late : List Late := []
  replayTo : Tab Nat := []
  /-- Map cache: set number to its lines with the way each stands in, most recent first (R153). -/
  cache : Tab (List (Nat × Nat)) := []
  /-- Checkpoints that are being written, by segment (R165). -/
  ckpts : Tab CkptRun := []
  pf : PfPhase := .none
  pfReason : Nat := 0
  pfAt : Nat := 0
  pfSlots : Nat := 0
  /-- The restart of R173 has indexed. -/
  indexed : Bool := false
  holdupFail : Bool := false
  readyPick : Nat := 0
deriving DecidableEq, Repr

def Jnl.reset : Jnl := {}

/-- State of a key slot (R268). -/
inductive KeyState where
  | empty | active | retired
deriving DecidableEq, Repr

/-- A key slot (R268, R269). -/
structure KeySlot where
  state : KeyState := .empty
  role : Nat := 0
  gen : Bool := false
  owner : Nat := 0
  limit : Nat := 0
  used : Nat := 0
  key : BitVec 256 := 0
deriving DecidableEq, Repr

/-- Where a function's carved resources lie (R443): `CXL_HDM_HAM`, `CXL_HDM_DRAM`, the heap, the Heddle group and its
`HED_GROUP_CFG`. -/
structure Carve where
  ham : W64 := 0
  dram : W64 := 0
  heapBase : Nat := 0
  heapSize : Nat := 0
  group : Option Nat := none
  cfg : W32 := 0
deriving DecidableEq, Repr

/-! ### Party: the roster -/

/-- State of a roster entry (R381, R382). -/
inductive MState where
  | free | active | away | lost | leaving
deriving DecidableEq, Repr

/-- A roster entry (R381). -/
structure Member where
  hpa : Nat := 0
  state : MState := .free
  freeGib : Nat := 0
deriving DecidableEq, Repr

/-- A roster (R381). -/
structure Roster where
  partyId : W64 := 0
  epoch : W32 := 0
  issuer : Nat := 0
  awayS : Nat := 0
  lossS : Nat := 0
  members : Tab Member := []
deriving DecidableEq, Repr

/-- What the control area keeps of the Party (R398): the boot count, the roster with the part's index and own HPA, and the
counters of each pair. -/
structure PartyRec where
  boot : Nat := 0
  index : Nat := 0
  selfHpa : Nat := 0
  roster : Roster := {}
  rx : Tab Nat := []
  rxMask : Tab Nat := []
  hbRx : Tab Nat := []
deriving DecidableEq, Repr

/-- The two copies of a record in the control area, each with its version (R162). -/
structure Copies (α : Type) where
  a : Option (Nat × α) := none
  b : Option (Nat × α) := none
deriving DecidableEq, Repr

/-- The persistent journal die: what survives every reset (R156, R162, R474). -/
structure JnlDie where
  /-- Ring records by ring index (R157, R158). -/
  ring : Tab (BitVec 128) := []
  /-- Symbol errors of the stored RS(36,32) word that holds records 2w and 2w + 1 (R156, R191). -/
  errs : Tab (List (Nat × Nat)) := []
  /-- Positions as record counts since manufacture: head, sealed tail; lap = position ÷ 4,063,232. -/
  head : Nat := 0
  tail : Nat := 0
  /-- The words of the two copies of the control area, by die word (R156, R162). -/
  ctl : Tab Bytes := []
  /-- Control values as the running part knows them: Arm counters, sequence blocks, read-only, DRAM training, SLC (R162). -/
  armCtr : Tab W64 := []
  seqEnd : Tab Nat := []
  ro : Bool := false
  ns : Tab Namespace := []
  ddrValid : Bool := false
  /-- DRAM training values and the identity of the modules they belong to (R162, R179). -/
  ddrVals : Nat := 0
  ddrModule : Nat := 0
  slcT : Nat := 0
  slcV : Nat := 0
  /-- Checkpoint directory: START position and first unit's address by segment. -/
  ckpt : Tab (Nat × Nat) := []
  sealReason : Nat := 0
  sealed : Bool := false
  /-- Portions, key slots with recorded USED, Party roster (R436, R270, R398). -/
  portions : Tab (Option Portion) := []
  carves : Tab Carve := []
  keys : Tab KeySlot := []
  usedRec : Tab Nat := []
  /-- The two copies of each of these records (R162). -/
  keyCopies : Tab (Copies KeySlot) := []
  usedCopies : Tab (Copies Nat) := []
  portionCopies : Tab (Copies (Option Portion)) := []
  carveCopies : Tab (Copies Carve) := []
  partyCopies : Copies PartyRec := {}
  failed : Bool := false
  /-- The Party's record (R398). -/
  party : PartyRec := {}
  /-- The CTRL values changed since the last fold, by field × 65,536 + index, plus 1; and its bolt (R162). -/
  ctrlDirty : Tab Nat := []
  foldBolt : Nat := 0
deriving DecidableEq, Repr

def JnlDie.reset : JnlDie := {}

/-- DRAM (R178 to R180). -/
structure Ddr where
  trained : Bool := false
  speed : Nat := 0
  fast : Bool := false
  failMask : BitVec 4 := 0
  doneMask : BitVec 4 := 0
  capGib : Nat := 16
  scrubPos : Nat := 0
  scrubFrom : Nat := 0
deriving DecidableEq, Repr

def Ddr.reset : Ddr := {}

/-! ### Hamper -/

/-- Who reaches the Hamper: a Warp port, 0 for Hamper A and 1 for Hamper B, or an Izkin core over its cluster's path (R185). -/
inductive HamBy where
  | port (p : Nat)
  | core (n : Nat)
deriving DecidableEq, Repr

/-- A repair candidate (R201). -/
structure Cand where
  ue : Bool := false
  count : Nat := 0
  bank : Nat := 0
  row : Nat := 0
deriving DecidableEq, Repr

/-- A fuse entry (R200): bank, row, whether its check is good. -/
structure Fuse where
  bank : Nat := 0
  row : Nat := 0
  good : Bool := true
deriving DecidableEq, Repr

/-- Spare rows, candidates and scrubbers. -/
structure HamperAux where
  factory : List Fuse := []
  field : List Fuse := []
  /-- Entries in effect since the last power-on reset. -/
  active : List Fuse := []
  cands : List Cand := []
  /-- Rows the scrubber corrected, by bank × 8,192 + row: the lap of the correction (R201). -/
  scrubbed : Tab Nat := []
  lap : Nat := 1
  lapFrom : Nat := 0
  scrubPos : Nat := 0
  /-- Distinct rows with uncorrectable words, and the bolt they belong to (R203). -/
  ueRows : List Nat := []
  ueBolt : Nat := 0
  /-- Scrub accesses made in a pick (R198, R199): the pick, Hamper beats, DRAM lines. -/
  stepPick : Nat := 0
  beats : Nat := 0
  lines : Nat := 0
  /-- Words whose writes by different masters meet in one clk of this pick, and who has written them in it so far (R190). -/
  ties : List Nat := []
  tied : List (Nat × HamBy) := []
deriving DecidableEq, Repr

def HamperAux.reset : HamperAux := {}

/-! ### Shuttles, lines, engines -/

/-- A pacing line's run-time state (R218, R219); its configuration is `SHU_LINE_CFG[L]`. -/
structure Line where
  fill : Nat := 0
  ended : Bool := false
  /-- END_LEN in 64-byte units. -/
  endLen : Nat := 0
  /-- Bursts posted and consumed since the line was enabled: p and c of R218. -/
  posted : Nat := 0
  taken : Nat := 0
  /-- The run that holds the line (R372). -/
  run : Option Nat := none
deriving DecidableEq, Repr

/-- The submitter of a SUBMIT (R329): its task, and the space and address of its own copy of the descriptor. Space 0 is the
Hamper, 1 the DRAM, 2 the task's frame. -/
structure Back where
  task : Nat := 0
  space : Nat := 0
  addr : Nat := 0
deriving DecidableEq, Repr

/-- The descriptor that a Shuttle runs (R208). -/
structure ShuJob where
  desc : Bytes := []
  index : Nat := 0
  moved : Nat := 0
  /-- CODE of R211, once the descriptor has ended. -/
  code : Option Nat := none
  prog : Option Back := none
deriving DecidableEq, Repr

/-- A Shuttle (R207). -/
structure Shuttle where
  job : Option ShuJob := none
  /-- The submitters of the descriptors in the ring that a SUBMIT queued, by ring index (R329). -/
  back : Tab (Option Back) := []
  /-- Ring indexes of queued descriptors that a squash has completed: the Shuttle passes over them (R222). -/
  dead : List Nat := []
  /-- A decrement the Itinerary holds back (R214). -/
  heldDec : Option Nat := none
  /-- The Shuttle waits on a line (2) or on a budget (3): the last burst could not start. -/
  wait : Nat := 0
deriving DecidableEq, Repr

/-- A requester's search state (R290). -/
structure Search where
  group : Nat := 0
  key : BitVec 384 := 0
  mask : BitVec 384 := 0
  index : Nat := 0
  gen : W32 := 0
  hit : Bool := false
deriving DecidableEq, Repr

/-- What a scan comes to (R298 to R301). -/
structure ScOut where
  /-- Output in pieces, newest first. -/
  out : List Bytes := []
  /-- Selected marks of the records, newest first. -/
  marks : List Bool := []
  selected : Nat := 0
  records : Nat := 0
  hits : Nat := 0
  lost : Bool := false
  /-- The lane's search state after its last probe (R290). -/
  last : Search := {}
deriving DecidableEq, Repr

/-- A job in an engine's slot (R249). -/
structure EngJob where
  slot : Nat := 0
  /-- Order of acceptance over all engines. -/
  order : Nat := 0
  desc : Bytes := []
  index : Nat := 0
  prog : Option Back := none
  /-- Input taken so far from a line or from memory, and whether it is complete. -/
  inp : Bytes := []
  inDone : Bool := false
  /-- A scan job's specification, read at acceptance (R303). -/
  spec : Bytes := []
  /-- Input bytes whose work has been taken up, and the clocks (of a keyed check, the blocks) counted for them (R242, R249). -/
  pos : Nat := 0
  clk : Nat := 0
  /-- Output that is certain so far and goes to a line (R247). -/
  made : Bytes := []
  /-- What a scan job has come to so far (R301). -/
  scan : ScOut := {}
  /-- Output still to be posted on a line when the work is done, and how much has been posted. -/
  out : Option Bytes := none
  posted : Nat := 0
  /-- Clocks still to run for the work taken up, once the job has begun. -/
  left : Option Nat := none
  /-- The digest context the job uses (R257). -/
  ctx : Option Nat := none
  /-- CODE, once the job has ended, and the 15 result bytes after it. -/
  code : Option Nat := none
  res : Bytes := []
deriving DecidableEq, Repr

/-- A stream engine: its accepted jobs in the order of acceptance, and the slot that runs (R249, R258). -/
structure Engine where
  jobs : List EngJob := []
  running : Option Nat := none
  /-- STOP has taken effect (R254). -/
  stopped : Bool := false
  back : Tab (Option Back) := []
  /-- Ring indexes of queued jobs that a squash has completed. -/
  dead : List Nat := []
deriving DecidableEq, Repr

/-- Who a digest context belongs to (R257). -/
inductive DigUser where
  | house
  | queue (fn : Nat)
  | run (run : Nat)
deriving DecidableEq, Repr

/-- A saved digest context (R257); the absorbed message stands for its chaining value. -/
structure DigCtx where
  alloc : Bool := false
  final : Bool := false
  sealed : Bool := false
  lenErr : Bool := false
  sha512 : Bool := false
  user : DigUser := .house
  func : Nat := 0
  msg : Bytes := []
  absorbed : Nat := 0
  lost : Bool := false
deriving DecidableEq, Repr

/-! ### Heddle -/

/-- A Heddle entry (R284): KEY and VALID as they were written, and the stored bits that have flipped since and that nothing has found yet
(R294): 0 to 95 of KEY, 96 VALID, 97 to 104 the check bits. -/
structure HedEntry where
  valid : Bool := false
  key : BitVec 96 := 0
  flips : List Nat := []
deriving DecidableEq, Repr

/-- KEY and VALID as the array holds them. -/
def HedEntry.seenKey (e : HedEntry) : Nat := e.flips.foldl (fun k b => if b < 96 then Nat.xor k (2 ^ b) else k) e.key.toNat
def HedEntry.seenValid (e : HedEntry) : Bool := e.flips.foldl (fun v b => if b = 96 then !v else v) e.valid

/-- One more stored bit flips; a bit that flips twice is as it was. -/
def HedEntry.flip (e : HedEntry) (b : Nat) : HedEntry :=
  { e with flips := if e.flips.contains b then e.flips.filter (· ≠ b) else b :: e.flips }

/-- Group state beside its registers (R290). -/
structure HedGroup where
  gen : W32 := 0
deriving DecidableEq, Repr

/-! ### Izkin cores, tasks, programs -/

/-- State of a task (R347). -/
inductive TState where
  | free | waiting | ready | slotted | running | ended
deriving DecidableEq, Repr

/-- A task with its saved state record (R312, R347). -/
structure Task where
  state : TState := .free
  prio : Nat := 0
  basePrio : Nat := 0
  house : Bool := false
  aged : Bool := false
  func : Nat := 0
  counter : W16 := 0
  run : Nat := 0
  lastCore : Nat := 0
  resident : Bool := false
  everRan : Bool := false
  clmask : Byte := 0
  refs : Nat := 0
  actClk : Nat := 0
  /-- Clocks that the activation had run at the last pick boundary (R24). -/
  edgeClk : Nat := 0
  activations : Nat := 0
  readyPick : Nat := 0
  /-- Pick of its last rise under ageing, or of its becoming READY (R356). -/
  agePick : Nat := 0
  /-- The cluster of the task's spawner, while the task has never run (R353). -/
  spawnCl : Option Nat := none
  /-- Hamper offset of the 512-byte state record (R347). -/
  statePtr : Nat := 0
  /-- Data stack, top first, and return stack, top first (R312). -/
  stack : List W64 := []
  rstack : List W64 := []
  pc : BitVec 24 := 0
  coll : Bool := false
  search : Search := {}
  frame : Tab Byte := []
  /-- A store of the task received an error response: it traps at the next instruction boundary (R335). -/
  storeErr : Bool := false
  /-- Clocks until each of the task's posted stores is visible (R318). -/
  stores : List Nat := []
deriving DecidableEq, Repr

/-- An Izkin core (R344, R355). -/
structure Core where
  task : Option Nat := none
  slot : Option Nat := none
  /-- Pick at which the task in the slot was placed there (R357). -/
  slotPick : Nat := 0
  /-- Frames resident, most recently run first (R357). -/
  frames : List Nat := []
  /-- Blocked in SPAWN or asking (R344). -/
  stat : Nat := 0
deriving DecidableEq, Repr

/-- A loaded or partly loaded program image (R362, R363): its place in the program store, the bytes received, the LENGTH of its
header and the bolt of its last piece. -/
structure Image where
  present : Bool := false
  loaded : Bool := false
  base : Nat := 0
  got : Nat := 0
  length : Nat := 0
  lastBolt : Nat := 0
deriving DecidableEq, Repr

/-- A window of a run (R315). -/
structure Win where
  space : Nat := 15
  base : Nat := 0
  size : Nat := 0
  rd : Bool := false
  wr : Bool := false
  atom : Bool := false
deriving DecidableEq, Repr

/-- Phase of a run (R371). -/
inductive RunPhase where
  | loading | live | done
deriving DecidableEq, Repr

/-- A line input of a run (R373): the line, the first granule of the map, granules, bytes streamed. -/
structure LineIn where
  line : Nat := 0
  first : Nat := 0
  count : Nat := 0
  done : Nat := 0
deriving DecidableEq, Repr

/-- A buffer of a run (R367): first granule of the map, granules, space and address. -/
structure Buf where
  first : Nat := 0
  count : Nat := 0
  space : Nat := 0
  addr : Nat := 0
deriving DecidableEq, Repr

/-- A program run (R371, R372); run 1,024 is the firmware image's. -/
structure Run where
  used : Bool := false
  phase : RunPhase := .loading
  ctx : Nat := 0
  fn : Nat := 0
  image : Nat := 0
  wins : Tab Win := []
  /-- The task entries of its reserve, MAXTASKS of them (R346). -/
  resv : List Nat := []
  prio : Nat := 0
  clmask : Byte := 0
  timeoutBolts : Nat := 0
  startBolt : Nat := 0
  resultLen : Nat := 0
  /-- The run page, the first state record, and every piece of the Hamper grant: offset and bytes (R369, R372). -/
  page : Nat := 0
  records : Nat := 0
  grants : List (Nat × Nat) := []
  lines : List Nat := []
  arg : W64 := 0
  entry : Nat := 0
  user : Bytes := []
  /-- Buffer inputs, line inputs and outputs; the buffer inputs are in memory (R371 step 6). -/
  ins : List Buf := []
  lineIns : List LineIn := []
  outs : List Buf := []
  inputsIn : Bool := false
  coreClk : Nat := 0
deriving DecidableEq, Repr

/-! ### Party: messages and the block -/

/-- A control message that no ACK covers yet (R389). -/
structure OutMsg where
  to_ : Nat := 0
  hpa : Nat := 0
  type : Nat := 0
  body : Bytes := []
  counter : Nat := 0
  /-- Pick of the last send, and sends so far; counter 0: not sent yet. -/
  pick : Nat := 0
  sends : Nat := 0
deriving DecidableEq, Repr

/-- A chunk slot granted to a sender (R399, R421). -/
structure ChunkSlot where
  granted : Bool := false
  sender : Nat := 0
  stream : Nat := 0
  written : Nat := 0
  /-- The writes since the grant or the last header, newest first: offset in the slot, bytes. -/
  parts : List (Nat × Bytes) := []
  poison : Bool := false
deriving DecidableEq, Repr

/-- A suspicion the collector counts (R393): who, about whom, reason. -/
structure Suspicion where
  from_ : Nat := 0
  about : Nat := 0
  reason : Nat := 0
deriving DecidableEq, Repr

/-- Where the part stands in a Party (R403). -/
inductive PState where
  | none | joining | active | away | leaving | lost
deriving DecidableEq, Repr

/-- The Party block. -/
structure Party where
  state : PState := .none
  index : Nat := 0
  /-- Bits [63:26] of the part's own BAR4 as peers reach it. -/
  selfHpa : Nat := 0
  roster : Roster := {}
  boot : Nat := 0
  /-- Party window bytes (R384): headers, mailboxes and heartbeat slots as written by peers; chunk slots apart. -/
  window : Tab Byte := []
  slots : Tab ChunkSlot := []
  /-- Items that have arrived and wait for a boundary (R385): heartbeat slot i as i, chunk header s as 1,024 + s, mailbox cell
  c as 2,048 + c; the pick of the arrival plus 1. -/
  arrived : Tab Nat := []
  /-- Last counter sent to and accepted from each member, and which of the last 16 were accepted; heartbeat counters (R389,
  R390). -/
  tx : Tab Nat := []
  rx : Tab Nat := []
  rxMask : Tab Nat := []
  hbTx : Nat := 0
  hbRx : Tab Nat := []
  /-- Bolt of the last valid heartbeat, or of the epoch that made the part a watcher (R392). -/
  lastHb : Tab Nat := []
  silent : Tab Bool := []
  /-- Bolts of the epochs that made a member AWAY or LOST; bolt plus 1 of the last SUSPECT about it (R393). -/
  awayBolt : Tab Nat := []
  lostBolt : Tab Nat := []
  suspectSent : Tab Nat := []
  suspicions : List Suspicion := []
  /-- Members for which 0x5188 was raised in this epoch. -/
  undeclared : List Nat := []
  /-- Changes the steward or collector holds, oldest first (R394). -/
  held : List (Nat × Member) := []
  out : List OutMsg := []
  /-- Messages dropped after their 16th send (R389), as far as a stripe command waits for them. -/
  dropped : List OutMsg := []
  /-- Messages of the part to itself (a steward or a lead that names itself): type and body. -/
  toSelf : List (Nat × Bytes) := []
  /-- Roster parts collected for a sync (R395): their common header, FIRST and entries of each. -/
  syncHead : Bytes := []
  syncParts : Tab Bytes := []
  /-- A steward that knows of a superseding roster issues nothing (R395). -/
  superseded : Bool := false
  /-- A heartbeat is due at the next bolt boundary; bolt plus 1 of the last one (R391). -/
  hbDue : Bool := false
  hbBolt : Nat := 0
  /-- BACK is due once the controllers may report ready (R396). -/
  backDue : Bool := false
  /-- Bolt of the AWAY of a removal request (R396). -/
  awaySent : Option Nat := none
  /-- Join or Leave command in progress: context, and the bolt of its deadline (R400, R401); Leave with FORCE. -/
  joinCtx : Option Nat := none
  joinLimit : Nat := 0
  leaveCtx : Option Nat := none
  leaveLimit : Nat := 0
  leaveForce : Bool := false
  /-- FREE_GIB of the last CAP or join, and the bolt of the last CAP (R381). -/
  capSent : Nat := 0
  capBolt : Nat := 0
  /-- Bolt in which each R388 event was last raised: malformed, stale, tag; and of the last hint to a LOST sender. -/
  evMal : Option Nat := none
  evStale : Option Nat := none
  evTag : Option Nat := none
  hintBolt : Tab Nat := []
deriving DecidableEq, Repr

def Party.reset : Party := {}

/-! ### Mender -/

/-- State of a stripe record (R410). -/
inductive StripeState where
  | open_ | sealed | repairing | damaged
deriving DecidableEq, Repr

/-- A stripe table entry (R410), and behind it what the part does with the stripe at present, which is lost at a restart. -/
structure Stripe where
  held : Bool := false
  id : Nat := 0
  k : Nat := 0
  m : Nat := 0
  shardLog2 : Nat := 0
  local_ : Nat := 0
  epoch : Nat := 0
  /-- Granule of the local shard in the shard store, whose offsets are those of the map (R406, R411). -/
  lba : Nat := 0
  state : StripeState := .open_
  members : List Nat := []
  digest : BitVec 256 := 0
  shardDigest : BitVec 256 := 0
  /-- Contiguous bytes of the shard that are committed; bolt of the last piece. -/
  done : Nat := 0
  lastBolt : Nat := 0
  /-- Spread Write: the stream, its issuer, and whether the part is the issuer (R414 to R417). -/
  stream : Nat := 0
  issuer : Nat := 0
  issued : Bool := false
  /-- Members that answered SPREAD_OPEN. -/
  acks : List Nat := []
  /-- What runs for the stripe: 0 nothing, 1 opening, 2 a piece, 3 digests for a seal, 4 a STRIPE_SET to be acknowledged, 5
  digests for Mend VERIFY, 6 digests for a repair, 7 a STRIPE_DROP to be acknowledged (R417, R420, R427). -/
  step : Nat := 0
  /-- Its command's context. -/
  ctx : Option Nat := none
  /-- Digests collected, by shard; a member could not read its shard. -/
  digests : Tab (BitVec 256) := []
  unread : Bool := false
  /-- Repair as lead (R424, R427): members excluded, rebuilt shards with their targets, attempt, the first attempt's helpers. -/
  excluded : List Nat := []
  rebuilt : List (Nat × Nat) := []
  attempt : Nat := 0
  firstHelpers : List Nat := []
deriving DecidableEq, Repr

/-- Role of the part in a relay plan (R422). -/
inductive PlanRole where
  | lead | helper | target
deriving DecidableEq, Repr

/-- A relay plan the part takes part in (R422, R425, R426). -/
structure Plan where
  stream : Nat := 0
  role : PlanRole := .helper
  stripe : Nat := 0
  offset : Nat := 0
  length : Nat := 0
  lost : Nat := 0
  flags : Nat := 0
  coef : Nat := 0
  shardLog2 : Nat := 0
  prev : Nat := 0x3FF
  next : Nat := 0x3FF
  hops : Nat := 0
  attempt : Nat := 0
  /-- Bytes from `offset` on that a helper has passed on or a target has committed; of a lead, as the target reports. -/
  done : Nat := 0
  /-- Bolt of the last progress. -/
  lastOk : Nat := 0
  /-- A helper's received chunks: slot, offset, bytes. -/
  inbox : List (Nat × Nat × Bytes) := []
  /-- A lead's view: the helpers' members in shard order with their coefficients, the target, who has accepted, whether the
  helpers were asked, and the member of the last HOP_FAIL. -/
  helpers : List Nat := []
  coefs : List Nat := []
  target : Nat := 0
  acked : List Nat := []
  asked : Bool := false
  started : Bool := false
deriving DecidableEq, Repr

/-- A chunk on its way to a member: slot, offset in the shard, bytes, sends so far, SEQ (R399), and its chunk buffer in the Hamper
(R188). -/
structure Fly where
  slot : Nat := 0
  off : Nat := 0
  data : Bytes := []
  tries : Nat := 1
  seq : Nat := 0
  buf : Nat := 0
deriving DecidableEq, Repr

/-- The sending side of a stream to one member (R399, R416, R426). -/
structure Hop where
  stream : Nat := 0
  to_ : Nat := 0
  kind : Nat := 1
  /-- Shard offset at which the stream ends: its last chunk carries LAST. -/
  end_ : Nat := 0
  slots : List Nat := []
  queue : List (Nat × Bytes) := []
  flying : List Fly := []
  /-- DONE of the last CHUNK_OK. -/
  done : Nat := 0
  seq : Nat := 0
deriving DecidableEq, Repr

/-- A chunk that is being committed to the shard store: its transaction, stream, slot and extent of the shard (R416, R426). -/
structure Commit where
  txid : Nat := 0
  stripe : Nat := 0
  stream : Nat := 0
  slot : Nat := 0
  off : Nat := 0
  len : Nat := 0
deriving DecidableEq, Repr

/-- The Mender's tables. -/
structure Mender where
  /-- 0 no table; 1 indexing; 2 ready (R430); the map range of the table in 1 GiB steps (R411). -/
  table : Nat := 0
  tableBase : Nat := 0
  /-- Stripe table entries by number (R411). -/
  stripes : Tab Stripe := []
  /-- Stripe IDs queued for repair as lead, head first (R423). -/
  queue : List Nat := []
  plans : List Plan := []
  hops : List Hop := []
  commits : List Commit := []
  /-- Streams named so far (R421). -/
  streams : Nat := 0
  /-- Shard store extents (base in 1 GiB steps) taken (R406). -/
  extents : List Nat := []
  /-- Members whose state changed since the Mender last looked (R423), and map indices of lost units of the store (R134). -/
  changed : List Nat := []
  lostUnits : List Nat := []
  /-- Repair chunks used in this bolt by Spread Write and by repair (R428). -/
  usedSpread : Nat := 0
  usedRelay : Nat := 0
  usedBolt : Nat := 0
  /-- DEPART was sent (R427). -/
  departed : Bool := false
deriving DecidableEq, Repr

def Mender.reset : Mender := {}

/-! ### Service panel and power -/

/-- Progress of a removal (R489, R495). -/
inductive Removal where
  | idle | draining | flushing | awaiting | ready | latch
deriving DecidableEq, Repr

/-- The service panel. -/
structure Svc where
  pressed : Option Nat := none
  latchOpen : Bool := false
  /-- PRSNT_N is high: the carrier connector is not mated (R488). -/
  absent : Bool := false
  removal : Removal := .idle
  /-- Pick at which a removal was requested, and bolt at which its drain began (R488, R489). -/
  reqPick : Nat := 0
  drainFrom : Nat := 0
  /-- The latch was opened while a removal was pending (R491). -/
  latchWarn : Bool := false
deriving DecidableEq, Repr

def Svc.reset : Svc := {}

/-- Temperatures and power states. -/
structure Pwr where
  ps : Nat := 0
  /-- Last operational state, to return to from PS3 and PS4 (R103), and the pick at which the exit from them is over. -/
  lastOp : Nat := 0
  wakeAt : Option Nat := none
  forced : Bool := false
  coolBolts : Nat := 0
  /-- Thermal factor t (R493) and the factor decided at the previous boundary. -/
  tf : Nat := 256
  tfUsed : Nat := 256
  thermtrip : Bool := false
  dramTemp : Int := 0
  /-- Bolt plus 1 of the last reading of the sensors (R493). -/
  thermBolt : Nat := 0
deriving DecidableEq, Repr

def Pwr.reset : Pwr := {}

end Sys2Proof.Machine
end

