-- ==== Sys2Proof/Machine/State.lean ====
section
/-!
DEFINITION. The state of the PRK-8832: every register (`regs`, over the static register map of Machine/Regs.lean),
memory, queue, engine, table and pin the spec names, as plain data, and the machine right after power-on reset.
-/
namespace Sys2Proof.Machine

/-- Why the machine stops. -/
inductive Fault where
  /-- Raised by a meaning whose operand names a unit the part does not have (Shuttle 64, core 128, function 128):
  R3 and R44 give the counts. Safe: the hardware has no such command. -/
  | noSuchUnit
  /-- Raised by an Izkin row whose immediate R322 to R332 do not define (SHLI by 64, a CALL of no function): the verifier
  refuses every image that holds one (R342 checks 0x0B and 0x10), so no core meets it. Safe. -/
  | undefinedImmediate
deriving DecidableEq, Repr

/-- Why the machine gives no answer. -/
inductive Refusal where
  /-- Raised by an arm of `exec` whose command has no meaning yet. Safe. -/
  | notModelled (mnemonic : String)
deriving DecidableEq, Repr

/-- The whole state of the part. -/
structure State where
  /-- Commands that are waiting, first in, first out: the block model's queue. -/
  pending : List Instr
  /-- Draws made of the free values so far: the model's own field, no statement rests on it (log entry 4). -/
  free : Nat
  /-- Messages the part has sent to its outside, oldest first. -/
  sent : List Sent
  /-- `GLB_PICK`, the pick counter (R21). -/
  pick : W64
  /-- Live register values by Weft address; unlisted: the reset value of the register map (R37, R44). -/
  regs : Tab W64
  /-- Captured set of the snapshot counters by Weft address; unlisted: 0 (R49). -/
  snaps : Tab W64
  /-- `GLB_SNAP_ALL` pending, weights and regions that take effect at the next pick boundary and other timed effects. -/
  due : List Due
  /-- Strobes by which a page's own copy of the pick counter lags behind the root's count, and strobes it has missed in a row (R22). -/
  lag : Tab Nat
  missed : Tab Nat
  /-- Arbitration weights in effect at each Warp output; unlisted: 0x1111_1111 (R30). -/
  weights : Tab Nat
  /-- Fences that SELV_REQ, an event or a crossing raised, by page base (R462): bolts of the fences of the last 256. -/
  fenceTimes : Tab (List Nat)
  /-- Pages whose fence a soft reset no longer lifts (R465). -/
  fenceHeld : Tab Bool
  /-- The event log, its root queue and the entries saved at the last seal (R468, R469). -/
  log : EventLog
  /-- Resets, power rails, straps, boot area and boot watchdog (R474 to R486). -/
  boot : Boot
  /-- The CXL link, decoders, mailbox and DOE (R53 to R70). -/
  cxl : Cxl
  /-- The 128 functions with their controllers and Portions (R432 to R458). -/
  fns : Tab Fn
  /-- The queue engine: contexts, guard, rotation, holds, activation, self-test, power states (R79 to R105). -/
  qe : Qe
  /-- Namespaces by NSID (R150, R162 field 0x04). -/
  nss : Tab Namespace
  /-- The flash complex (R110 to R149). -/
  media : Media
  /-- The map in DRAM: 40-bit entries by map index; unlisted: 0, not valid (R151). -/
  map : Tab (BitVec 40)
  /-- Write staging, segments, restart and power-fail (R155 to R177). -/
  jnl : Jnl
  /-- The journal die and its control area (R156 to R163). -/
  die : JnlDie
  /-- DRAM training and power (R178 to R182). -/
  ddr : Ddr
  /-- Hamper bytes by offset; unlisted: 0 (R194). -/
  ham : Tab Byte
  /-- Hamper words with a poison mark, or uncorrectable (R195, R196). -/
  hamPoison : Tab Bool
  /-- Symbol errors that the stored codeword of a Hamper word has: symbol and error value (R191, R193). -/
  hamErr : Tab (List (Nat × Nat))
  /-- DRAM bytes by address; unlisted: 0 (log entry 3). -/
  dram : Tab Byte
  /-- DRAM codewords of 16 bytes with a poison mark (R195). -/
  dramPoison : Tab Bool
  /-- Symbol errors of a stored DRAM codeword (R191, R193). -/
  dramErr : Tab (List (Nat × Nat))
  /-- Spare rows, repair candidates, scrubbers (R198 to R202). -/
  hamx : HamperAux
  /-- Shuttles 0 to 63 (R206 to R223). -/
  shus : Tab Shuttle
  /-- Pacing lines 0 to 31 (R217 to R220). -/
  lines : Tab Line
  /-- Stream engines by agent number 0x40 to 0x5F, and the Mender's engine 0x61 (R243 to R249). -/
  engs : Tab Engine
  /-- Jobs accepted so far by all engines. -/
  jobSeq : Nat
  /-- The 64 saved digest contexts (R257). -/
  digs : Tab DigCtx
  /-- The 32 key slots (R268). -/
  keys : Tab KeySlot
  /-- Heddle entries of tiles 24 to 47, by tile × 2,048 + row; unlisted: a hole (R284). -/
  hed : Tab HedEntry
  /-- Heddle groups 0 to 7: generation, search states of requesters are with them (R286 to R290). -/
  hgrp : Tab HedGroup
  /-- Search states of the scan lanes (R290). -/
  laneSearch : Tab Search
  /-- Code lines that a cluster's instruction cache holds, most recently used first (R15, R313). -/
  icache : Tab (List Nat)
  /-- Izkin cores 0 to 127 (R312, R344). -/
  cores : Tab Core
  /-- The task table (R346, R347). -/
  tasks : Tab Task
  /-- Ready lists of clusters 0 to 7, in the order tasks became READY (R353). -/
  ready : Tab (List Nat)
  /-- Program images by function × 16 + handle, partial loads among them (R362 to R364). -/
  progs : Tab Image
  /-- Runs by run ID (R371, R372). -/
  runs : Tab Run
  /-- The Party block (R380 to R403). -/
  party : Party
  /-- The Mender's stripe table, plans and queue (R405 to R430). -/
  mender : Mender
  /-- The service panel (R488 to R492). -/
  svc : Svc
  /-- Temperatures, power state and throttling (R101, R493, R494). -/
  pwr : Pwr
deriving DecidableEq, Repr

/-- The machine right after power-on reset is released (R486, pick 0): the pick counter 0 (R21), every register at its
reset value, the Hamper zeroed (R194), and everything else empty. The values that the spec does not give are named in
the assumption log (entries 1 to 3). -/
def State.reset : State where
  pending := []
  free := 0
  sent := []
  pick := 0
  regs := []
  snaps := []
  due := []
  lag := []
  missed := []
  weights := []
  fenceTimes := []
  fenceHeld := []
  log := EventLog.reset
  boot := Boot.reset
  cxl := Cxl.reset
  fns := []
  qe := Qe.reset
  nss := []
  media := Media.reset
  map := []
  jnl := Jnl.reset
  die := JnlDie.reset
  ddr := Ddr.reset
  ham := []
  hamPoison := []
  hamErr := []
  dram := []
  dramPoison := []
  dramErr := []
  hamx := HamperAux.reset
  shus := []
  lines := []
  engs := []
  jobSeq := 0
  digs := []
  keys := []
  hed := []
  hgrp := []
  laneSearch := []
  icache := []
  cores := []
  tasks := []
  ready := []
  progs := []
  runs := []
  party := Party.reset
  mender := Mender.reset
  svc := Svc.reset
  pwr := Pwr.reset

end Sys2Proof.Machine
end

