-- ==== Sys2Proof/Machine/Ops.lean ====
section
/-!
DEFINITION. The operations every chapter shares: registers and counters, the pick, budgets, dependence counters, interrupt
messages, events with their log and fences, completions and host data.
-/
namespace Sys2Proof.Machine

/-! ### Registers and counters -/

/-- The value held at a Weft address: what was written, else the static reset value. -/
def regGet (a : Nat) (s : State) : Nat := (tget (BitVec.ofNat 64 (regReset a)) s.regs a).toNat

/-- Puts a value at a Weft address. -/
def regSet (a v : Nat) (s : State) : State :=
  { s with regs := tset (BitVec.ofNat 64 (regReset a)) a (BitVec.ofNat 64 v) s.regs }

/-- Bits [hi:lo] of the register at `a`. -/
def regFld (a hi lo : Nat) (s : State) : Nat := bits (regGet a s) hi lo

/-- Replaces bits [hi:lo] of the register at `a`. -/
def regSetFld (a hi lo v : Nat) (s : State) : State := regSet a (setBits (regGet a s) hi lo v) s

/-- Advances a 64-bit counter. -/
def regAdd (a n : Nat) (s : State) : State := regSet a (regGet a s + n) s

/-- Advances a 32-bit counter, modulo 2^32. -/
def regAdd32 (a n : Nat) (s : State) : State := regSet a ((regGet a s + n) % 2 ^ 32) s

/-- Advances a 32-bit counter that saturates at 0xFFFF_FFFF (R37 ERR_COUNT). -/
def regSat (a n : Nat) (s : State) : State := regSet a (min 0xFFFFFFFF (regGet a s + n)) s

/-- Raises a register to at least `v`. -/
def regMax (a v : Nat) (s : State) : State := if regGet a s < v then regSet a v s else s

/-- Advances `s.free` and answers the draw's number. -/
def draw (s : State) : Nat × State := (s.free, { s with free := s.free + 1 })

/-! ### Time -/

/-- `GLB_PICK` as a number (R21). -/
def pickN (s : State) : Nat := s.pick.toNat

/-- The bolt number: the pick counter shifted right by 8 bits (R21). -/
def boltN (s : State) : Nat := s.pick.toNat / 256

/-- Puts an effect on the list that the next pick boundary works off. -/
def later (d : Due) (s : State) : State := { s with due := s.due ++ [d] }

/-- Emits a message to the outside. -/
def emit (m : Sent) (s : State) : State := { s with sent := s.sent ++ [m] }

/-! ### Functions and budgets -/

def fnGet (f : Nat) (s : State) : Fn := tget {} s.fns f
def fnSet (f : Nat) (x : Fn) (s : State) : State := { s with fns := tset {} f x s.fns }
def fnMod (f : Nat) (g : Fn → Fn) (s : State) : State := fnSet f (g (fnGet f s)) s

/-- Whether function `f` is present (R432). -/
def fnPresent (f : Nat) (s : State) : Bool := f = 0 || (s.cxl.vfEnable && f ≤ s.cxl.numVfs && f < 128)

/-- Rates of a Portion by number: the order of `Fn.refill`. -/
def rIrq := 0
def rHostRd := 1
def rHostWr := 2
def rFlash := 3
def rCore := 4
def rTwc := 5
def rTwd := 6
def rDig := 7
def rKck := 8
def rScn := 9
def rRepair := 10

/-- F0's Portion at first bring-up (R436); `guest` is the guest pool in 4 KiB units. -/
def f0Portion (guest : Nat) : Portion :=
  { policy := 0, trapLimit := 255, refuseLimit := 255, slots := 16256, irq := 0xFFFF, hostRd := 0xFFFFFFFF,
    hostWr := 0xFFFFFFFF, flashOps := 0xFFFFFFFF, corePicks := 24576, twc := 2048, twd := 2048, dig := 1024, kck := 512,
    scn := 2048, hamper := guest, repair := 1024 }

/-- The guest pool in 4 KiB units: `HAM_GUEST_CFG`.SIZE in 64 KiB units (R188, R204). -/
def guestPool (s : State) : Nat := regFld (pgHam + 0x108) 26 16 s * 16

/-- The Portion of a function: what Set Portion recorded, else the first bring-up's (R436). -/
def portionOf (f : Nat) (s : State) : Portion :=
  match tget none s.die.portions f with
  | some p => p
  | none => if f = 0 then f0Portion (guestPool s) else {}

/-- `floor(F × s ÷ 65,536)` of R439 for a field; all ones is unlimited, and under a factor below 65,536 an unlimited field
is scaled from the device capacity. -/
def scaled (ones cap f sc : Nat) : Option Nat :=
  if f = ones then (if sc < 65536 then some (cap * sc / 65536) else none) else some (f * sc / 65536)

/-- The refill of a Portion under factor `sc`, in base units (R439, R434): messages; 4 KiB units as bytes; operations;
core-picks as clk; engine picks; repair chunks. IRQ and REPAIR are never scaled. -/
def refillOf (p : Portion) (sc : Nat) : List (Option Nat) := [
  if p.irq = 0xFFFF then none else some p.irq,
  (scaled 0xFFFFFFFF 32000 p.hostRd sc).map (· * 4096), (scaled 0xFFFFFFFF 32000 p.hostWr sc).map (· * 4096),
  scaled 0xFFFFFFFF 131072 p.flashOps sc, (scaled 0xFFFF 24576 p.corePicks sc).map (· * 6400),
  scaled 0xFFFF 2048 p.twc sc, scaled 0xFFFF 2048 p.twd sc, scaled 0xFFFF 1024 p.dig sc, scaled 0xFFFF 512 p.kck sc,
  scaled 0xFFFF 2048 p.scn sc, if p.repair = 0xFFFFFFFF then none else some p.repair]

/-- This bolt's budget of rate `r`; before the first refill the Portion's own, unscaled. -/
def budget (f r : Nat) (s : State) : Option Nat :=
  let l := (fnGet f s).refill
  (if l.isEmpty then refillOf (portionOf f s) 65536 else l).getD r none

/-- What a function used of rate `r` in this bolt, debt included. -/
def usedOf (f r : Nat) (s : State) : Nat := tget 0 (fnGet f s).used r

/-- Whether the budget of rate `r` is spent: work that has not started waits (R440). -/
def spent (f r : Nat) (s : State) : Bool :=
  match budget f r s with
  | none => false
  | some b => b ≤ usedOf f r s

/-- Charges `n` base units of rate `r` to a function (R437). -/
def charge (f r n : Nat) (s : State) : State :=
  fnMod f (fun x => { x with used := tset 0 r (tget 0 x.used r + n) x.used }) s

/-! ### Fences as others see them -/

/-- A page's Selvage fence stands (R37 SELVAGE_STAT.FENCED). -/
def fenced (page : Nat) (s : State) : Bool := bit (regGet (page + 0x044) s) 0

/-- PAGE_CTL.EN of a page (R38). -/
def enabled (page : Nat) (s : State) : Bool := bit (regGet (page + 0x010) s) 0

/-- A soft reset of the page is in progress (R39). -/
def resetting (page : Nat) (s : State) : Bool :=
  s.due.any fun d => match d with
    | .softReset p _ => p = page
    | _ => false

/-- The block accepts work: enabled, not fenced and not resetting (R38, R39, R463). -/
def accepts (page : Nat) (s : State) : Bool := enabled page s && !fenced page s && !resetting page s

/-- The block goes on with the work it holds: not fenced and not resetting; EN stops new work only (R38, R39, R463). -/
def works (page : Nat) (s : State) : Bool := !fenced page s && !resetting page s

/-- The part runs: firmware is up and no device-fatal state or seal has stopped it (R466, R167). -/
def running (s : State) : Bool := s.boot.phase = .firmware || s.boot.phase = .ready

/-- The power-fail sequence has begun: from the first pick boundary after its trigger, the acting boundary, everything that R167 stops
stands still. -/
def pfOn (s : State) : Bool :=
  match s.jnl.pf with
  | .none => false
  | .triggered => s.jnl.pfAt < pickN s
  | .dumping | .sealed => true

/-! ### Dependence counters (the Itinerary's ready lists) -/

def taskGet (t : Nat) (s : State) : Task := tget {} s.tasks t
def taskSet (t : Nat) (x : Task) (s : State) : State := { s with tasks := tset {} t x s.tasks }
def taskMod (t : Nat) (g : Task → Task) (s : State) : State := taskSet t (g (taskGet t s)) s
def coreGet (n : Nat) (s : State) : Core := tget {} s.cores n
def coreSet (n : Nat) (x : Core) (s : State) : State := { s with cores := tset {} n x s.cores }
def coreMod (n : Nat) (g : Core → Core) (s : State) : State := coreSet n (g (coreGet n s)) s

/-- The ready list of cluster `k`, in the order the tasks became READY. -/
def readyOf (k : Nat) (s : State) : List Nat := tget [] s.ready k
def readySet (k : Nat) (l : List Nat) (s : State) : State := { s with ready := tset [] k l s.ready }

/-- Whether cluster `k` may run a task: firmware on clusters 0 and 1, programs on the clusters of CLMASK among 2 to 7, no
fenced cluster (R355, R361). -/
def clusterOk (x : Task) (k : Nat) (s : State) : Bool :=
  (if x.house then k < 2 else 2 ≤ k && k < 8 && bit x.clmask.toNat k) && !fenced (pgIzc k) s

/-- Whether a core may take a task: its cluster may run it, and the core and its cluster accept work (R38, R39). -/
def coreOk (x : Task) (n : Nat) (s : State) : Bool := clusterOk x (n / 16) s && accepts (pgIzc (n / 16)) s && accepts (pgIzk n) s

/-- A task is eligible: a firmware task, or its function has not spent its core-picks (R354, R359). -/
def eligible (x : Task) (s : State) : Bool := x.house || !spent x.func rCore s

/-- A ready list is full at 4,096 entries (R377 ITN_RL_COUNT). -/
def listFull (k : Nat) (s : State) : Bool := 4096 ≤ (readyOf k s).length

/-- Joins the list of cluster `k`; `front` puts the task ahead of the others of its level. -/
def joinList (t k : Nat) (front : Bool) (s : State) : State :=
  let l := readyOf k s
  let s := readySet k (if front then t :: l else l ++ [t]) s
  let s := taskMod t (fun x => { x with state := .ready }) s
  s |> regAdd (pgItnRl k + 0x110) 1 |> regMax (pgItnRl k + 0x108) (l.length + 1)

/-- Slots a task into a core (R353). -/
def slotTask (t n : Nat) (s : State) : State :=
  s |> taskMod t (fun x => { x with state := .slotted }) |> coreMod n (fun c => { c with slot := some t, slotPick := pickN s })

/-- The lowest-priority slotted task of cluster `k` that `prio` outranks, with its core (R353). -/
def worstSlot (k prio : Nat) (s : State) : Option (Nat × Nat) :=
  (List.range 16).foldl (fun best i =>
    let n := 16 * k + i
    match (coreGet n s).slot with
    | none => best
    | some v =>
      if prio < (taskGet v s).prio then
        match best with
        | some (_, w) => if (taskGet w s).prio < (taskGet v s).prio then some (n, v) else best
        | none => some (n, v)
      else best) none

/-- The cluster whose list a READY task joins (R353 rules 2 and 3). -/
def homeCluster (x : Task) (s : State) : Option Nat :=
  let cands := (List.range 8).filter fun k => clusterOk x k s
  let best := cands.foldl (fun b k => match b with
    | none => some k
    | some j => if (readyOf k s).length < (readyOf j s).length then some k else some j) none
  if x.everRan then (if clusterOk x (x.lastCore / 16) s then some (x.lastCore / 16) else best)
  else match x.spawnCl with
    | some k => if clusterOk x k s then some k else best
    | none => best

/-- Places a task that has become READY (R353). None: the list it would join is full, and its source holds the
decrement (R360). -/
def placeReady (t : Nat) (s : State) : Option State :=
  let x := taskGet t s
  let n := x.lastCore
  let s1 := taskMod t (fun x => { x with state := .ready, readyPick := pickN s % 2 ^ 32, agePick := pickN s }) s
  if x.everRan && coreOk x n s && (coreGet n s).slot.isNone &&
      !((readyOf (n / 16) s).any fun u => eligible (taskGet u s) s && (taskGet u s).prio < x.prio) then
    some (slotTask t n s1)
  else match homeCluster x s with
    | none => some (joinList t (if x.house then 0 else 2) false s1)
    | some k =>
      match worstSlot k x.prio s with
      | some (m, v) =>
        if coreOk x m s then some (s1 |> joinList v k true |> slotTask t m)
        else if listFull k s then none else some (joinList t k false s1)
      | none => if listFull k s then none else some (joinList t k false s1)

/-- Applies one decrement to a task by its state (R350). None: it would make the task READY into a full list. -/
def tryDec (t : Nat) (s : State) : Option State :=
  let x := taskGet t s
  let c := x.counter - 1
  match x.state with
  | .free | .ended => some (regAdd (pgItn + 0x168) 1 s)
  | .waiting =>
    let s1 := s |> taskMod t (fun x => { x with counter := c }) |> regAdd (pgItn + 0x160) 1
    if c = 0 then placeReady t s1 else some s1
  | _ => some (s |> taskMod t (fun x => { x with counter := c }) |> regAdd (pgItn + 0x160) 1)

/-- A decrement; one that the Itinerary holds back waits at its source for the next boundary (R360). -/
def decTask (t : Nat) (s : State) : State := (tryDec t s).getD (later (.dec t) s)

/-! ### Interrupt messages -/

/-- Sends the MSI-X message of a vector, or holds it: not present, nothing; masked or without bus mastering,
pending (R447, R450); budget spent on an I/O vector, held and merged (R448); the admin vector 0 is never held (R438). -/
def msix (f v : Nat) (s : State) : State :=
  let x := fnGet f s
  if !fnPresent f s then s
  else if !tget false x.unmasked v || !x.bme then fnSet f { x with pba := tset false v true x.pba } s
  else if v ≠ 0 && spent f rIrq s then
    s |> fnSet f { x with heldVecs := if x.heldVecs.contains v then x.heldVecs else x.heldVecs ++ [v] }
      |> regAdd (pgFun f + 0x228) 1 |> regAdd (pgQenP + 0x128) 1
  else s |> emit (.msix f v) |> charge f rIrq 1 |> regAdd (pgFun f + 0x220) 1

/-- The window of coalescing in picks: W, or 25 × TIME; 0 sets no time limit (R104). -/
def coalWindow (x : Fn) : Nat := if x.pickWin ≠ 0 then x.pickWin else 25 * x.coalTime

/-- A message on a vector of a function under its coalescing (R104): a vector with CD = 1 at once, else with the THR + 1st message or
at the end of the window that the first one opened. -/
def vecPost (f v : Nat) (s : State) : State :=
  let x := fnGet f s
  if tget false x.vecCd v then msix f v s
  else
    let (n, at_) := tget (0, 0) x.coal v
    let at_ := if n = 0 then pickN s else at_
    if x.coalThr + 1 ≤ n + 1 then
      s |> fnMod f (fun x => { x with coal := tset (0, 0) v (0, 0) x.coal }) |> msix f v
    else fnMod f (fun x => { x with coal := tset (0, 0) v (n + 1, at_) x.coal }) s

/-- Sends a page's interrupt message to IRQ_ROUTE (R41, R352): a message to a function counts against its budget and its
coalescing. A fenced function gets no message but those of its own completions (R457). -/
def irqMessage (page : Nat) (s : State) : State :=
  let r := regGet (page + 0x038) s
  match bits r 31 30 with
  | 1 => let m := regGet (pgItn + 0x10C) s
         if bit m 31 then decTask (bits m 15 0) s else regAdd (pgItn + 0x168) 1 s
  | 2 => if (fnGet (bits r 22 16) s).fenced then s else vecPost (bits r 22 16) (bits r 10 0) s
  | _ => s

/-- IRQ_STAT AND NOT IRQ_MASK of a page. -/
def irqLive (page : Nat) (s : State) : Nat := clearN (regGet (page + 0x030) s) (regGet (page + 0x034) s)

/-- ERR_STAT AND NOT ERR_MASK of a page. -/
def errLive (page : Nat) (s : State) : Nat := clearN (regGet (page + 0x018) s) (regGet (page + 0x01C) s)

/-- Sets interrupt causes of a page; one message when the unmasked causes go from zero to non-zero (R41). -/
def irqCause (page mask : Nat) (s : State) : State :=
  let before := irqLive page s
  let s := regSet (page + 0x030) (Nat.lor (regGet (page + 0x030) s) mask) s
  if before = 0 && irqLive page s ≠ 0 then irqMessage page s else s

/-! ### Events -/

/-- The events that a chapter marks fatal to their block (R109, R149, R183, R203, R225, R255, R283, R311, R345, R379,
R404, R431, R459). -/
def blockFatal (code : Nat) : Bool :=
  [0x1002, 0x1003, 0x1101, 0x2001, 0x2101, 0x2107, 0x3001, 0x3101, 0x3201, 0x3301, 0x3401, 0x3501, 0x3601, 0x4001, 0x4101,
   0x5001, 0x5101, 0x6001, 0x6101].contains code

/-- The device-fatal events, 0x8202 apart (R461). -/
def deviceFatal (code : Nat) : Bool := [0x0201, 0x0301, 0x0306, 0x1201, 0x8201].contains code

/-- Events that end a command or a job: the request class of R460. -/
def requestEvent (code : Nat) : Bool :=
  [0x2003, 0x2105, 0x3002, 0x3004, 0x4102, 0x4201, 0x5001, 0x6002, 0x6003, 0x7005, 0x7007, 0x7008, 0x7009, 0x700A, 0x8203,
   0x0303, 0x0304, 0x0305, 0x0307, 0x1005, 0x3604, 0x5104, 0x5103, 0x5102, 0x5105, 0x5106].contains code

/-- Uncorrectable data words: the deferred class of R460. -/
def deferredEvent (code : Nat) : Bool := [0x1001, 0x1102, 0x3602].contains code

/-- The class number of an event, in the table order of R460. -/
def eventClass (code : Nat) : Nat :=
  if deviceFatal code then 6
  else if [0x6101, 0x6102, 0x6103, 0x6104].contains code then 5
  else if blockFatal code || code = 0x8202 then 4
  else if 0x80 ≤ code % 256 then 0
  else if deferredEvent code then 2
  else if requestEvent code then 3
  else 1

/-- INST and INDEX of a page. -/
def pageInst (page : Nat) : Nat × Nat :=
  match pageAt page with
  | some p => (p.inst, p.index)
  | none => (0, 0)

/-- The newest entry of the page in a list of entries, newest first. -/
def sameEvent (e : LogEntry) (x : LogEntry) : Bool := x.code = e.code && x.inst = e.inst && x.index = e.index

/-- Merges `e` into the newest entry of its page when code and pick agree (R469); none: no merge. The entries are newest
first. -/
def mergeLog (e : LogEntry) : List LogEntry → Option (List LogEntry)
  | [] => none
  | x :: l =>
    if x.inst = e.inst && x.index = e.index && x.code.toNat / 256 = e.code.toNat / 256 then
      if x.code = e.code && x.pick = e.pick then some ({ x with repeats := min 255 (x.repeats + 1) } :: l) else none
    else (mergeLog e l).map (x :: ·)

/-- The ring's entries, newest first, at most `n`. -/
def ringNewest (g : EventLog) (n : Nat) : List LogEntry :=
  (List.range (min n (min 4096 g.head.toNat))).map fun i => tget {} g.ring ((g.head.toNat - 1 - i) % 4096)

/-- The ring's newest entries that carry a pick, from the `i`th newest on: only they can take a merge (R469). -/
def ringSame (g : EventLog) (pick : BitVec 48) : Nat → Nat → List LogEntry
  | 0, _ => []
  | n + 1, i =>
    let x := tget {} g.ring ((g.head.toNat - 1 - i) % 4096)
    if x.pick = pick then x :: ringSame g pick n (i + 1) else []

/-- Writes a list of newest entries back over the ring. -/
def ringPut (g : EventLog) (l : List LogEntry) : EventLog :=
  { g with ring := (l.zipIdx).foldl (fun r p => tset {} ((g.head.toNat - 1 - p.2) % 4096) p.1 r) g.ring }

/-- Enters an event into the log (R468, R469): merged, into the ring, or into the root queue of 64 while the Hamper is
fenced, whose oldest entry is dropped. Informational events only while `GLB_LOG_CFG`.INFO is 1. -/
def logEvent (e : LogEntry) (s : State) : State :=
  if e.cls = 0 && !bit (regGet (pgLog + 0x120) s) 0 then s
  else
    let g := s.log
    if fenced pgHam s then
      match mergeLog e g.queue with
      | some q => { s with log := { g with queue := q } }
      | none => { s with log := { g with queue := (e :: g.queue).take 64,
                                         dropped := g.dropped + (if 64 ≤ g.queue.length then 1 else 0) } }
    else
      match mergeLog e (ringSame g e.pick (min 4096 g.head.toNat) 0) with
      | some l => { s with log := ringPut g l }
      | none => { s with log := { g with ring := tset {} (g.head.toNat % 4096) e g.ring, head := g.head + 1 } }

/-- The ERR_STAT bit of an event number: its own up to 0x1F, bit 0 up to 0x7F, none from 0x80 (R43). -/
def errBit (code : Nat) : Option Nat :=
  let n := code % 256
  if n ≤ 0x1F then some n else if n ≤ 0x7F then some 0 else none

/-- Whether an event is masked in its page (R37 ERR_MASK). -/
def errMasked (code page : Nat) (s : State) : Bool :=
  match errBit code with
  | some b => bit (regGet (page + 0x01C) s) b
  | none => false

/-- Records an error event in the header of its page: ERR_STAT, ERR_FIRST (R40), ERR_COUNT and the ERR interrupt cause. -/
def errRecord (code page : Nat) (s : State) : State :=
  match errBit code with
  | none => s
  | some b =>
    let live := errLive page s
    let s1 := s |> regSet (page + 0x018) (Nat.lor (regGet (page + 0x018) s) (2 ^ b)) |> regSat (page + 0x028) 1
    if errMasked code page s then s1
    else
      let s2 := if live = 0 then regSet (page + 0x020) (code * 2 ^ 48 + pickN s % 2 ^ 48) s1 else s1
      if live = 0 then irqCause page 1 s2 else s2

/-- Raises an event that fences nothing: the header record and the log. -/
def note (code page detail : Nat) (s : State) : State :=
  let (i, x) := pageInst page
  let e : LogEntry := { code := BitVec.ofNat 16 code, inst := BitVec.ofNat 8 i, index := BitVec.ofNat 8 x,
                        cls := eventClass code, masked := errMasked code page s, pick := BitVec.ofNat 48 (pickN s),
                        detail := BitVec.ofNat 32 detail }
  s |> logEvent e |> errRecord code page

/-- The value that a write of `v` to bits [hi:lo] of the register at `a` gives its RW fields (R508): a field of these bits outside
its range keeps its old value, with event 0x0307. -/
def mergeRw (a hi lo v : Nat) (s : State) : Nat × State :=
  match regAt a with
  | none => (regGet a s, s)
  | some r =>
    let old := regGet a s
    let new := setBits old hi lo v
    let bad := r.ranges.filter fun g => lo ≤ g.2.1 && g.2.1 ≤ hi && (bits new g.1 g.2.1 < g.2.2.1 || g.2.2.2 < bits new g.1 g.2.1)
    (bad.foldl (fun x g => setBits x g.1 g.2.1 (bits old g.1 g.2.1)) (clearN old r.rw + andN new r.rw),
     if bad.isEmpty then s else note 0x0307 pgWeft a s)

/-- Fences of a page within the last 256 bolts, the new one included (R465). -/
def fenceCount (page : Nat) (s : State) : List Nat :=
  ((tget [] s.fenceTimes page).filter fun b => boltN s < b + 256) ++ [boltN s]

/-- Raises a Selvage fence (R462); a fence that stands is not raised again. The jobs of the block end at the next pick
boundary (R463), a function's fence acts there (R457). The third fence within 256 bolts raises 0x8204 and holds (R465). -/
def fencePage (page code : Nat) (byReq : Bool) (s : State) : State :=
  if fenced page s then s
  else
    let l := fenceCount page s
    let s1 := regSet (page + 0x044) (1 + (if byReq then 2 else 4) + code * 2 ^ 16) s
    let s2 := { s1 with fenceTimes := tset [] page l s1.fenceTimes }
    let s3 := if 3 ≤ l.length && !tget false s2.fenceHeld page
              then note 0x8204 pgClk page { s2 with fenceHeld := tset false page true s2.fenceHeld } else s2
    if 0x300000 ≤ page && page < 0x380000 then later (.fnFence ((page - 0x300000) / 0x1000)) s3
    else later (.fenceJobs page) s3

/-- The pages that a fatal event of a block fences: the queue engine has two, a guard tile fences the queue engine as well
(R109, R311), the Hamper, DRAM, Itinerary and CXL blocks their pages together, a quadrant of the flash has its eight channels (R137),
every other block its own page. -/
def fatalPages (page : Nat) : List Nat :=
  if page = pgQen || page = pgQenP then [pgQen, pgQenP]
  else if page = pgHam || page = pgHamS then [pgHam, pgHamS]
  else if pgDdr ≤ page && page ≤ pgDdrCh 3 then [pgDdr, pgDdrCh 0, pgDdrCh 1, pgDdrCh 2, pgDdrCh 3]
  else if pgCxl ≤ page && page ≤ pgDoe then [pgCxl, pgCxlT, pgCxlH, pgDoe]
  else if pgFlc 0 ≤ page && page ≤ pgFlc 3 then [page] ++ (List.range 8).map fun i => pgFch (8 * ((page - pgFlc 0) / 0x1000) + i)
  else if pgTile 0 ≤ page && page < pgTile 24 then [page, pgQen, pgQenP]
  else [page]

/-- The device-fatal handling of R466: fetch and every engine stop, CFS on every controller, `GLB_FATAL_STAT` with the
first CODE, event 0x8282, and the fatal reset's time unless the state lasts until power-on reset. -/
def goFatal (code statBit : Nat) (s : State) : State :=
  let st := regGet (pgGlb + 0x130) s
  let st1 := Nat.lor st (2 ^ statBit)
  let st2 := if bits st 31 16 = 0 then setBits st1 31 16 code else st1
  let again := match s.boot.lastFatalReset with
    | some b => boltN s < b + 256
    | none => false
  let stuck := s.boot.stuck || statBit = 3 || again
  let s1 := regSet (pgGlb + 0x130) st2 s
  let s2 := { s1 with boot := { s1.boot with phase := .fatal, stuck := stuck, wdogFrom := none } }
  let s3 := (List.range 128).foldl (fun s f => if fnPresent f s then fnMod f (fun x => { x with cfs := true }) s else s) s2
  let s4 := note 0x8282 pgClk code s3
  let cfg := regGet (pgClk + 0x184) s4
  if !stuck && bit cfg 0 then later (.reset 1 (pickN s + bits cfg 23 8)) s4 else s4

/-- The `GLB_FATAL_STAT` bit of a device-fatal event (R51). -/
def fatalBit (code : Nat) : Nat :=
  match code with
  | 0x0201 => 0
  | 0x0306 => 1
  | 0x1201 => 3
  | 0x8202 => 4
  | _ => 2

/-- Raises an event of a page (R40, R43, R460, R468): the record and the log, the fence of a block-fatal event with AUTO
set and bit 0 unmasked (R462), the device-fatal handling of R466. -/
def raise (code page detail : Nat) (s : State) : State :=
  let masked := errMasked code page s
  let s1 := note code page detail s
  if deviceFatal code then goFatal code (fatalBit code) s1
  else if blockFatal code && !masked && bit (regGet (page + 0x040) s) 0 then
    (fatalPages page).foldl (fun s p => fencePage p code false s) s1
  else s1

/-! ### Completions -/

/-- The CQ that a submission queue of a controller uses; the admin SQ uses CQ 0. -/
def cqOf (f sq : Nat) (s : State) : Nat := (tget {} (fnGet f s).sqs sq).cq

/-- A CQ is full when the next entry would reach the head. -/
def cqFull (c : Cq) : Bool := (c.tail + 1) % max 1 c.size = c.head

/-- Posts the interrupt of a CQ's new entry under coalescing (R104): the admin CQ's at once. -/
def cqInterrupt (f q : Nat) (c : Cq) (s : State) : State :=
  if !c.ien then s else if q = 0 then msix f c.vector s else vecPost f c.vector s

/-- Enters an entry into the Error log page of a controller: the newest 256 stay (R72 ELPE, R76). -/
def errPush (f : Nat) (e : ErrEntry) (s : State) : State :=
  fnMod f (fun x => { x with errLog := ({ e with count := x.errCount + 1 } :: x.errLog).take 256, errCount := x.errCount + 1 }) s

/-! ### Dirty-page logging -/

/-- Marks one page of a function's log (R453): inside the range its bit and its line, outside DLOG_OVF and event 0x6184. -/
def dlogPage (f page : Nat) (s : State) : State :=
  let d := (fnGet f s).dlog
  let first := d.base / 4096
  if first ≤ page && page < first + d.pages then
    let i := page - first
    if tget false d.bits i then s
    else
      let dirty := if (tget 0 d.dirty (i / 512)) = 0 then tput (i / 512) (boltN s + 1) d.dirty else d.dirty
      fnMod f (fun x => { x with dlog := { d with bits := tset false i true d.bits, dirty := dirty } }) s
  else
    s |> fnMod f (fun x => { x with dlog := { d with ovf := true } }) |> note 0x6184 (pgFun f) page

/-- Logs a write of `n` bytes at a bus address of a function (R453). -/
def dlogWrite (f addr n : Nat) (s : State) : State :=
  if (fnGet f s).dlog.active then (grains 4096 addr n).foldl (fun s p => dlogPage f p s) s else s

/-- From the entry of a write on, a Flush that is fetched covers the write's slots (R93). -/
def slotsPosted (e : Cpl) (s : State) : State :=
  if e.seq = 0 then s
  else
    let mark (x : Slot) : Slot := if x.used && x.nsid = e.nsid && x.seq = e.seq then { x with posted := s.qe.order } else x
    { s with jnl := { s.jnl with slots := s.jnl.slots.map fun p => (p.1, mark p.2) } }

/-- Writes a completion entry to its CQ in host memory (R90, R93, R108, R437, R453). -/
def writeCpl (f : Nat) (e : Cpl) (s : State) : State :=
  let q := cqOf f e.sq s
  let c := tget {} (fnGet f s).cqs q
  let hd := (tget {} (fnGet f s).sqs e.sq).head
  let c1 : Cq := { c with tail := (c.tail + 1) % max 1 c.size,
                          phase := if c.tail + 1 = c.size then !c.phase else c.phase }
  s |> emit (.cqe f q e.sq e.cid e.st e.dw0 e.dw1 hd c.phase)
    |> fnMod f (fun x => { x with cqs := tset {} q c1 x.cqs })
    |> dlogWrite f (c.base + 16 * c.tail) 16
    |> charge f rHostWr 16 |> regAdd (pgFun f + 0x208) 16 |> regAdd (pgQenP + 0x100) 1
    |> slotsPosted e |> cqInterrupt f q c1

/-- Posts a completion entry, or lets it wait for Bus Master Enable (R450) or for room in its CQ; its command holds its context until
then (R79). -/
def postCpl (f : Nat) (e : Cpl) (s : State) : State :=
  let x := fnGet f s
  let c := tget {} x.cqs (cqOf f e.sq s)
  if !x.bme || !x.waitCpl.isEmpty || cqFull c then fnSet f { x with waitCpl := x.waitCpl ++ [e] } s else writeCpl f e s

/-- Posts the waiting entries that can now go. -/
def drainCpl (f : Nat) : List Cpl → State → State
  | [], s => fnMod f (fun x => { x with waitCpl := [] }) s
  | e :: l, s =>
    if !(fnGet f s).bme || cqFull (tget {} (fnGet f s).cqs (cqOf f e.sq s)) then
      fnMod f (fun x => { x with waitCpl := e :: l }) s
    else drainCpl f l (writeCpl f e s)

/-- A write to a peer goes as a UIO write: 256-byte flits, UIO negotiated and `CXL_UIO_CTL`.EN (R67). -/
def uioOn (s : State) : Bool := s.cxl.flit256 && s.cxl.uio && bit (regGet (pgCxlT + 0x128) s) 0

/-- Bytes cross the Warp from input `i` to output `o` in beats of 128 (R11, R30). -/
def warpMove (i o n : Nat) (s : State) : State :=
  if n = 0 then s
  else s |> regAdd (pgWarp + 0x140 + 8 * i) (cdiv n 128) |> regAdd (pgWarp + 0x180 + 8 * o) (cdiv n 128)

/-- The state that a command run on behalf of another leaves: none of its own where it faults. -/
def stateOr (s : State) : Host.Outcome State Fault Refusal → State
  | .next t => t
  | _ => s

end Sys2Proof.Machine
end

