-- ==== Sys2Proof/Machine/Memory.lean ====
section
/-!
DEFINITION. The Hamper and the DRAM as every consumer reads and writes them: bytes, poison marks at each memory's
granularity (R195, R196), the banks and rows of the Hamper (R184) and the regions of R188.
-/
namespace Sys2Proof.Machine

/-- Size of the Hamper in bytes (R3). -/
def hamSize : Nat := 67108864

/-! ### Banks, rows, channels -/

/-- The row of a Hamper offset: bits [25:13] (R184). -/
def hamRow (off : Nat) : Nat := bits off 25 13
/-- The bank of a Hamper offset: bits [12:7] XOR bits [18:13] (R184). -/
def hamBank (off : Nat) : Nat := Nat.xor (bits off 12 7) (bits off 18 13)
/-- The DRAM channel of an address: lines are interleaved over 8 subchannels every 256 bytes (R178). Which channel carries which
subchannels is open: consecutive slices 2c and 2c + 1 lie on channel c (DESIGN CHOICE, log entry 126). -/
def dramChannel (a : Nat) : Nat := a / 256 % 8 / 2
/-- Channels that a range touches. -/
def dramChans (a n : Nat) : List Nat := (List.range 4).filter fun c => 2048 ≤ n || ((grains 256 a n).any fun g => g % 8 / 2 = c)

/-! ### Codewords (R191, R193) -/

/-- A Hamper word of 32 bytes with its check symbols, RS(36,32), or a DRAM codeword of 16 bytes, RS(20,16) (R191). -/
def codeword (bs : Bytes) : List Nat := rsWord (bs.map BitVec.toNat)

/-- What a read of a stored codeword comes to. -/
inductive CwFound where
  | clean | corrected | uncorrectable
deriving DecidableEq, Repr

/-- The XORs of symbol errors, as (symbol, error) pairs from `base`, laid on a codeword. -/
def withErrors (base : Nat) (syms : List (Nat × Nat)) (w : List Nat) : List Nat :=
  syms.foldl (fun w e => if base ≤ e.1 && e.1 < base + w.length then rsFlip w (e.1 - base) (e.2 % 256) else w) w

/-- Data, mark and outcome of reading a stored codeword with symbol errors (R193, R196): corrected on the fly, or passed on as it
stands with a mark. A poisoned codeword with errors reads as uncorrectable (R195). -/
def cwRead (errs : List (Nat × Nat)) (bs : Bytes) (poison : Bool) : Bytes × Bool × CwFound :=
  let good := codeword bs
  let cw := withErrors 0 errs good
  if cw = good then (bs, poison, .clean)
  else match (if poison then none else rsDecode cw) with
    | some (v, _) => ((v.take bs.length).map (BitVec.ofNat 8), false, .corrected)
    | none => ((cw.take bs.length).map (BitVec.ofNat 8), true, .uncorrectable)

/-! ### The two copies of a record in the control area (R162) -/

/-- First die word and number of words of copy A of the records that the control area keeps beside the CTRL values: key slots, recorded
USED, Portions, carved resources, the Party's record. Copy B lies 1 MiB above. The places are the model's (log entry 133). -/
def areaKey (k : Nat) : Nat × Nat := (0x5400 + 4 * k, 4)
def areaUsed (k : Nat) : Nat × Nat := (0x5600 + k, 1)
def areaPortion (f : Nat) : Nat × Nat := (0x5800 + 16 * f, 16)
def areaCarve (f : Nat) : Nat × Nat := (0x6000 + 4 * f, 4)
def areaParty : Nat × Nat := (0x6400, 0x1000)

/-- `n` die words from word `w` read back as they were written, so that the CRC of what they hold passes. -/
def areaOk (w n : Nat) (d : JnlDie) : Bool :=
  d.errs.all fun e => e.1 < w || w + n ≤ e.1 || (let r := cwRead e.2 (zeros 32) false; r.1 = zeros 32 && r.2.2 ≠ .uncorrectable)

/-- The newer copy that can be read, and whether it is copy B (R162). -/
def copyNewest {α : Type} (x : Nat × Nat) (c : Copies α) (d : JnlDie) : Option (Bool × Nat × α) :=
  match (if areaOk x.1 x.2 d then c.a else none), (if areaOk (32768 + x.1) x.2 d then c.b else none) with
  | some p, some q => if p.1 < q.1 then some (true, q) else some (false, p)
  | some p, none => some (false, p)
  | none, some q => some (true, q)
  | none, none => none

/-- Writes the copy with the older version: the copies, and the first word written (R162). -/
def copyStore {α : Type} (x : Nat × Nat) (v : α) (c : Copies α) (d : JnlDie) : Copies α × Nat :=
  match copyNewest x c d with
  | some (false, p) => ({ c with b := some (p.1 + 1, v) }, 32768 + x.1)
  | some (true, p) => ({ c with a := some (p.1 + 1, v) }, x.1)
  | none => ({ c with a := some (1, v) }, x.1)

/-- Words that are written hold no symbol error. -/
def areaClean (w n : Nat) (d : JnlDie) : JnlDie := { d with errs := d.errs.filter fun e => e.1 < w || w + n ≤ e.1 }

/-- The values of the readable records of a table (R162). -/
def copiesLoad {α : Type} [DecidableEq α] (dflt lost : α) (area : Nat → Nat × Nat) (t : Tab (Copies α)) (d : JnlDie) : Tab α :=
  t.foldl (fun q e => tset dflt e.1 ((copyNewest (area e.1) e.2 d).elim lost fun r => r.2.2) q) []

/-- Codewords of `z` bytes with errors that a byte range touches; a range of no bytes touches none. -/
def errsIn (z off n : Nat) (t : Tab (List (Nat × Nat))) : List Nat :=
  if n = 0 then [] else tfind (fun w _ => off < z * w + z && z * w < off + n) t

/-! ### Repair candidates (R201, R203) -/

/-- Puts a new candidate into the list of 16, oldest first (R201): in place of the oldest with UE = 0 when full, else of the
oldest. -/
def candInsert (c : Cand) (l : List Cand) : List Cand :=
  if l.length < 16 then l ++ [c]
  else match l.findIdx? (fun x => !x.ue) with
    | some i => l.eraseIdx i ++ [c]
    | none => l.drop 1 ++ [c]

/-- Makes a row a repair candidate or advances its entry (R201); a new candidate raises 0x1082. -/
def candidate (bank row : Nat) (ue : Bool) (s : State) : State :=
  let l := s.hamx.cands
  match l.findIdx? (fun x => x.bank = bank && x.row = row) with
  | some i =>
    let x := l.getD i {}
    let x := { x with ue := x.ue || ue, count := if ue then x.count else min 65535 (x.count + 1) }
    { s with hamx := { s.hamx with cands := l.set i x } }
  | none =>
    note 0x1082 pgHamS (bank + 64 * row)
      { s with hamx := { s.hamx with cands := candInsert { ue := ue, count := b2n (!ue), bank := bank, row := row } l } }

/-- An uncorrectable word in a row: at more than 8 distinct rows in one bolt, event 0x1003 (R203). -/
def ueRow (bank row : Nat) (s : State) : State :=
  let rows := if s.hamx.ueBolt = boltN s then s.hamx.ueRows else []
  let k := bank * 8192 + row
  let rows' := if rows.contains k then rows else rows ++ [k]
  let s1 := { s with hamx := { s.hamx with ueRows := rows', ueBolt := boltN s } }
  if rows.length ≤ 8 && 8 < rows'.length then raise 0x1003 pgHam (bank + 64 * row) s1 else s1

/-! ### The Hamper -/

/-- Word `w` as a reader meets it. -/
def hamWordRead (w : Nat) (s : State) : Bytes × Bool × CwFound :=
  cwRead (tget [] s.hamErr w) (tgetBytes s.ham (32 * w) 32) (tget false s.hamPoison w)

/-- Bytes of the Hamper as a consumer reads them, and whether any 32-byte word of them is poisoned (R193, R195, R196). -/
def hamRead (off n : Nat) (s : State) : Bytes × Bool :=
  if (errsIn 32 off n s.hamErr).isEmpty then
    (tgetBytes s.ham off n, (grains 32 off n).any fun w => tget false s.hamPoison w)
  else
    let ws := (grains 32 off n).map fun w => hamWordRead w s
    (((ws.flatMap fun x => x.1).drop (off % 32)).take n, ws.any fun x => x.2.1)

/-- What a read of word `w` by a master (0xF: the scrubber) leaves behind: a correction is counted (R193), an uncorrectable word is
counted, recorded and raised, and its row becomes a repair candidate (R196, R201, R203). -/
def hamWordMet (m w : Nat) (s : State) : State :=
  match (hamWordRead w s).2.2 with
  | .clean => s
  | .corrected => regAdd (pgHam + 0x118) 1 s
  | .uncorrectable =>
    s |> regAdd (pgHam + 0x120) 1 |> regSet (pgHam + 0x130) (w + m * 2 ^ 24) |> raise 0x1001 pgHam (32 * w)
      |> candidate (hamBank (32 * w)) (hamRow (32 * w)) true |> ueRow (hamBank (32 * w)) (hamRow (32 * w))

/-- The master number of R185. -/
def HamBy.master : HamBy → Nat
  | .port p => p
  | .core n => 2 + n / 16

/-- What a read of a Hamper range by a master leaves behind. -/
def hamMet (b : HamBy) (off n : Nat) (s : State) : State :=
  (errsIn 32 off n s.hamErr).foldl (fun s w => hamWordMet b.master w s) s

/-- The stored word takes what its reader saw, before a read-modify-write merges its bytes (R193, R196). -/
def hamMerge (m w : Nat) (s : State) : State :=
  let v := hamWordRead w s
  let s1 := hamWordMet m w s
  { s1 with ham := tsetBytes (32 * w) v.1 s1.ham, hamPoison := tset false w v.2.1 s1.hamPoison }

/-- Writes bytes to the Hamper for a master. A word covered whole takes the data's mark; a partial write is a read-modify-write, which
keeps an old mark and adds a new one (R186, R193, R195, R196). Every word written has good check symbols again. -/
def hamPut (m off : Nat) (bs : Bytes) (poison : Bool) (s : State) : State :=
  let ws := grains 32 off bs.length
  let whole (w : Nat) : Bool := off ≤ 32 * w && 32 * w + 32 ≤ off + bs.length
  let es := errsIn 32 off bs.length s.hamErr
  let s := (es.filter fun w => !whole w).foldl (fun s w => hamMerge m w s) s
  let mark (t : Tab Bool) (w : Nat) : Tab Bool := tset false w (poison || (!whole w && tget false t w)) t
  let s := { s with ham := tsetBytes off bs s.ham, hamPoison := ws.foldl mark s.hamPoison, hamErr := es.foldl (fun t w => tset [] w [] t) s.hamErr }
  if poison then regAdd (pgHam + 0x128) ws.length s else s

/-! ### Write collisions (R190) -/

/-- Order of precedence: the lower master number wins, within a cluster path the lower core number. -/
def HamBy.rank : HamBy → Nat
  | .port p => p
  | .core n => 2 + n

/-- The write of word `w` that meets this one in the same clk and wins over it. The winner's command stands first in the model. -/
def hamWinner (b : HamBy) (w : Nat) (s : State) : Option HamBy :=
  if s.hamx.ties.contains w then (s.hamx.tied.find? fun e => e.1 = w && e.2.rank < b.rank).map (·.2) else none

/-- A write of a range loses a collision on some word. -/
def hamLoses (b : HamBy) (off n : Nat) (s : State) : Bool :=
  !s.hamx.ties.isEmpty && (grains 32 off n).any fun w => (hamWinner b w s).isSome

/-- A losing write is counted and recorded; on an engine path with event 0x1004. -/
def hamCollide (b c : HamBy) (w : Nat) (s : State) : State :=
  let s1 := s |> regAdd (pgHam + 0x1D0 + 8 * b.master) 1 |> regSet (pgHam + 0x138) (w + c.master * 2 ^ 24 + b.master * 2 ^ 28)
  match b with
  | .port _ => note 0x1004 pgHam (32 * w) s1
  | .core _ => s1

/-- The part of a range that lies in word `w`: offset and bytes. -/
def wordPart (off : Nat) (bs : Bytes) (w : Nat) : Nat × Bytes :=
  let lo := max off (32 * w)
  (lo, (bs.drop (lo - off)).take (32 * w + 32 - lo))

/-- A word of a write: dropped where it loses a collision, else written and remembered while its word is tied. -/
def hamWordWrite (b : HamBy) (off : Nat) (bs : Bytes) (poison : Bool) (w : Nat) (s : State) : State :=
  match hamWinner b w s with
  | some c => hamCollide b c w s
  | none =>
    let p := wordPart off bs w
    let s1 := hamPut b.master p.1 p.2 poison s
    if s1.hamx.ties.contains w then { s1 with hamx := { s1.hamx with tied := s1.hamx.tied ++ [(w, b)] } } else s1

/-- A master writes bytes to the Hamper. -/
def hamWrite (b : HamBy) (off : Nat) (bs : Bytes) (poison : Bool) (s : State) : State :=
  if s.hamx.ties.isEmpty then hamPut b.master off bs poison s
  else (grains 32 off bs.length).foldl (fun s w => hamWordWrite b off bs poison w s) s

/-! ### The DRAM -/

/-- Bytes of the map in DRAM: the map region begins at DRAM address 0 (log entry 2), entry i at byte 5 × i (R151). -/
def mapBytes (s : State) : Nat := 5 * 65536 * (s.media.tnvmcap.getD 0)

/-- A byte of the DRAM: the map's bytes are the map entries' (R151). -/
def dramByte (a : Nat) (s : State) : Byte :=
  if a < mapBytes s then BitVec.ofNat 8 ((tget 0 s.map (a / 5)).toNat / 256 ^ (a % 5)) else tget 0 s.dram a

/-- Writes a byte of the DRAM, a map entry's byte included. -/
def dramPutByte (a : Nat) (b : Byte) (s : State) : State :=
  if a < mapBytes s then
    let v := (tget 0 s.map (a / 5)).toNat
    { s with map := tset 0 (a / 5) (BitVec.ofNat 40 (setBits v (8 * (a % 5) + 7) (8 * (a % 5)) b.toNat)) s.map }
  else { s with dram := tset 0 a b s.dram }

/-- Bytes as stored. -/
def dramBytes (a n : Nat) (s : State) : Bytes :=
  if a < mapBytes s then (List.range n).map fun i => dramByte (a + i) s else tgetBytes s.dram a n

/-- Stores bytes. -/
def dramPutBytes (a : Nat) (bs : Bytes) (s : State) : State :=
  if a < mapBytes s then iter bs.length (fun i s => dramPutByte (a + i) (bs.getD i 0) s) s
  else { s with dram := tsetBytes a bs s.dram }

/-- Codeword `w` as a reader meets it. -/
def dramWordRead (w : Nat) (s : State) : Bytes × Bool × CwFound :=
  cwRead (tget [] s.dramErr w) (dramBytes (16 * w) 16 s) (tget false s.dramPoison w)

/-- Bytes of the DRAM as a consumer reads them, and whether any 16-byte codeword of them is poisoned. -/
def dramRead (a n : Nat) (s : State) : Bytes × Bool :=
  if (errsIn 16 a n s.dramErr).isEmpty then (dramBytes a n s, (grains 16 a n).any fun w => tget false s.dramPoison w)
  else
    let ws := (grains 16 a n).map fun w => dramWordRead w s
    (((ws.flatMap fun x => x.1).drop (a % 16)).take n, ws.any fun x => x.2.1)

/-- What a read of codeword `w` leaves behind (R193, R196): `DDR_CORR` of the block and its channel, or the uncorrectable counters,
the address and event 0x1102. -/
def dramWordMet (w : Nat) (s : State) : State :=
  let ch := dramChannel (16 * w)
  match (dramWordRead w s).2.2 with
  | .clean => s
  | .corrected => s |> regAdd (pgDdr + 0x110) 1 |> regAdd (pgDdrCh ch + 0x108) 1
  | .uncorrectable =>
    s |> regAdd (pgDdr + 0x118) 1 |> regAdd (pgDdrCh ch + 0x110) 1 |> regSet (pgDdrCh ch + 0x118) (16 * w)
      |> raise 0x1102 (pgDdrCh ch) (16 * w)

/-- A range of the DRAM holds poison, or a codeword that a reader finds uncorrectable. -/
def dramBad (a n : Nat) (s : State) : Bool :=
  (s.dramPoison.any fun e => e.2 && a < 16 * e.1 + 16 && 16 * e.1 < a + n) ||
  (errsIn 16 a n s.dramErr).any fun w => (dramWordRead w s).2.1

/-- What a read of a DRAM range leaves behind. -/
def dramMet (a n : Nat) (s : State) : State := (errsIn 16 a n s.dramErr).foldl (fun s w => dramWordMet w s) s

/-- The stored codeword takes what its reader saw, before a read-modify-write merges its bytes. -/
def dramMerge (w : Nat) (s : State) : State :=
  let v := dramWordRead w s
  let s1 := dramPutBytes (16 * w) v.1 (dramWordMet w s)
  { s1 with dramPoison := tset false w v.2.1 s1.dramPoison }

/-- Writes bytes to the DRAM, as `hamPut` with 16-byte codewords. -/
def dramWrite (a : Nat) (bs : Bytes) (poison : Bool) (s : State) : State :=
  let whole (w : Nat) : Bool := a ≤ 16 * w && 16 * w + 16 ≤ a + bs.length
  let es := errsIn 16 a bs.length s.dramErr
  let s := (es.filter fun w => !whole w).foldl (fun s w => dramMerge w s) s
  let mark (t : Tab Bool) (w : Nat) : Tab Bool := tset false w (poison || (!whole w && tget false t w)) t
  let s := dramPutBytes a bs s
  { s with dramPoison := (grains 16 a bs.length).foldl mark s.dramPoison, dramErr := es.foldl (fun t w => tset [] w [] t) s.dramErr }

/-- Size of the DRAM in bytes: four channels of `capGib` (R178). -/
def dramSize (s : State) : Nat := 4 * s.ddr.capGib * 2 ^ 30

/-- The DRAM block serves requests: trained and not fenced (R179). -/
def dramUp (s : State) : Bool := s.ddr.trained && !fenced pgDdr s

/-- The channels of a range serve requests: none of their pages is fenced (R463). -/
def dramServes (a n : Nat) (s : State) : Bool :=
  dramUp s && a + n ≤ dramSize s && !((dramChans a n).any fun c => fenced (pgDdrCh c) s)

/-- The crossing to a channel of the range is closed, so that a request waits (R472): a soft reset of the DRAM page or of the channel's
is in progress. -/
def dramWaits (a n : Nat) (s : State) : Bool := resetting pgDdr s || ((dramChans a n).any fun c => resetting (pgDdrCh c) s)

/-! ### The two memories behind the Warp: space 0 Hamper, 1 DRAM -/

/-- A read; none where the leaf returns an error response: fenced, or outside the memory (R14, R463). -/
def memRead (space off n : Nat) (s : State) : Option (Bytes × Bool) :=
  if space = 0 then (if fenced pgHam s || hamSize < off + n then none else some (hamRead off n s))
  else (if dramServes off n s then some (dramRead off n s) else none)

/-- What a read that was served leaves behind. -/
def memMet (b : HamBy) (space off n : Nat) (s : State) : State := if space = 0 then hamMet b off n s else dramMet off n s

/-- A write to the Hamper or the DRAM; none where the leaf returns an error response. Words that lose a collision are not written. -/
def memWrite (b : HamBy) (space off : Nat) (bs : Bytes) (poison : Bool) (s : State) : Option State :=
  if space = 0 then (if fenced pgHam s || hamSize < off + bs.length then none else some (hamWrite b off bs poison s))
  else (if dramServes off bs.length s then some (dramWrite off bs poison s) else none)

/-- The write loses a collision on some word (R190). -/
def memLoses (b : HamBy) (space off n : Nat) (s : State) : Bool := space = 0 && hamLoses b off n s

/-! ### The Warp's ports (R10, R185) -/

/-- Counts an error response of a fenced leaf at a Warp port (R14, R30). -/
def errResp (port : Nat) (s : State) : State := regAdd (pgWarp + 0x200 + 8 * port) 1 s

/-- The Hamper port of Warp input `p`: 1 for Hamper B where `HAM_PORT_MAP` bit p is 1, else 0 for Hamper A (R185). -/
def hamPort (p : Nat) (s : State) : Nat := if bit (regGet (pgHam + 0x110) s) p then 1 else 0

/-- The Hamper master through which the endpoint at Warp port `p` reaches it. -/
def hamVia (p : Nat) (s : State) : HamBy := .port (hamPort p s)

/-- The Warp port of a memory as the endpoint at port `p` reaches it: 2 DRAM, 3 Hamper A, 4 Hamper B. -/
def memPort (space p : Nat) (s : State) : Nat := if space = 0 then 3 + hamPort p s else 2

/-! ### Regions -/

/-- Base and size in bytes of region `r`: 0 staging, 1 firmware area, 2 guest pool, 3 HDM pool (R188, R204). -/
def region (r : Nat) (s : State) : Nat × Nat :=
  let v := regGet (pgHam + 0x100 + 4 * r) s
  (65536 * bits v 9 0, 65536 * bits v 26 16)

/-- The map cache as a region: base and size in bytes (R153, R181). -/
def mapCache (s : State) : Nat × Nat :=
  let v := regGet (pgJnl + 0x160) s
  (65536 * bits v 25 16, 1048576 * bits v 4 0)

/-- Staging slots that the staging region holds, at most 3,072 (R155, R188). -/
def slotCount (s : State) : Nat := min 3072 ((region 0 s).2 / 16384)

/-- Hamper offset of staging slot `k` (R188). -/
def slotOffset (k : Nat) (s : State) : Nat := (region 0 s).1 + 16384 * k

/-- Two ranges share a byte. -/
def overlap (a b : Nat × Nat) : Bool := a.2 ≠ 0 && b.2 ≠ 0 && a.1 < b.1 + b.2 && b.1 < a.1 + a.2

/-- The values written to the register at `a` that wait for the next pick boundary. -/
def dueVals (a : Nat) (s : State) : List Nat :=
  s.due.filterMap fun d => match d with
    | .reg b v => if b = a then some v.toNat else none
    | _ => none

/-- Base and size in bytes of a region's register value, and of the map cache's. -/
def regionAt (v : Nat) : Nat × Nat := (65536 * bits v 9 0, 65536 * bits v 26 16)
def mapCacheAt (v : Nat) : Nat × Nat := (65536 * bits v 25 16, 1048576 * bits v 4 0)

/-- The places of the other regions, those that take effect at the next pick boundary among them (R189). -/
def otherRegions (r : Nat) (s : State) : List (Nat × Nat) :=
  ([0, 1, 2, 3].filter (· ≠ r)).flatMap fun q =>
    let a := pgHam + 0x100 + 4 * q
    (regGet a s :: dueVals a s).map regionAt

/-- The places of the map cache, a pending one among them. -/
def mapCaches (s : State) : List (Nat × Nat) := (regGet (pgJnl + 0x160) s :: dueVals (pgJnl + 0x160) s).map mapCacheAt

/-- Whether a value may be the new place of region `r` (R188, R189): inside the Hamper, clear of the other regions and of the
map cache, within the region's limits, and, where it changes anything, the region's contents not in use. -/
def regionOk (r v : Nat) (s : State) : Bool :=
  let new := regionAt v
  let size := bits v 26 16
  let changes := (regGet (pgHam + 0x100 + 4 * r) s :: dueVals (pgHam + 0x100 + 4 * r) s).any (· ≠ v)
  new.1 + new.2 ≤ hamSize && !((otherRegions r s).any (overlap new)) && !((mapCaches s).any (overlap new)) &&
  match r with
  | 0 => 16 ≤ size && size ≤ 768 && size % 16 = 0 && (!changes || (tfind (fun _ x => x.used) s.jnl.slots).isEmpty)
  | 1 => 32 ≤ size
  | 2 => !changes || (tfind (fun _ (x : Fn) => x.hamUse ≠ 0) s.fns).isEmpty
  | _ => size ≤ 128 && (!changes || (List.range 128).all fun f => !bit (regGet (pgCxlH + 0x100 + 8 * f) s) 63)

end Sys2Proof.Machine
end

