-- ==== Sys2Proof/Machine/HostIo.lean ====
section
/-!
DEFINITION. Writes to host memory with dirty-page logging (R453), the free bytes of undefined destinations, and the spaces
and permissions of a transfer (R209).
-/
namespace Sys2Proof.Machine

/-- `n` free bytes (log entry 5). -/
def freeBytes (n : Nat) (s : State) : Bytes × State :=
  ((List.range n).map fun i => Config.freeByte (s.free + i), { s with free := s.free + n })

/-- Writes bytes to a function's host memory: the TLP, the log (R453), HOST_WR (R437) and the Warp beats through port 0.
House work is charged to no function. -/
def hostWrite (f addr : Nat) (bs : Bytes) (poison house : Bool) (s : State) : State :=
  let s := s |> emit (.host f addr bs poison) |> dlogWrite f addr bs.length |> regAdd (pgWarp + 0x180) (cdiv bs.length 128)
  if house then s else s |> charge f rHostWr bs.length |> regAdd (pgFun f + 0x208) bs.length

/-- Charges bytes read from a function's host memory (R437). -/
def hostReadCharge (f n : Nat) (s : State) : State :=
  s |> charge f rHostRd n |> regAdd (pgFun f + 0x200) n

/-! ### Spaces (R209) -/

/-- The Hamper-carved window of a function: Hamper offset and size in bytes (R70). -/
def hamWindow (f : Nat) (s : State) : Nat × Nat :=
  let v := regGet (pgCxlH + 0x100 + 8 * f) s
  if bit v 63 then (bits v 9 0 * 65536, bits v 47 40 * 65536) else (0, 0)

/-- The DRAM-carved window of a function: DRAM address and size in bytes (R70). -/
def dramWindow (f : Nat) (s : State) : Nat × Nat :=
  let v := regGet (pgCxlH + 0x500 + 8 * f) s
  if bit v 63 then (bits v 16 0 * 2097152, bits v 61 48 * 2097152) else (0, 0)

/-- Where a range of a function's result window lies: memory space and address (R209 code 0x3). -/
def windowAt (f off n : Nat) (s : State) : Option (Nat × Nat) :=
  if off < 8388608 then
    let (b, z) := hamWindow f s
    if off + n ≤ z then some (0, b + off) else none
  else
    let (b, z) := dramWindow f s
    let o := off - 8388608
    if o + n ≤ z then some (1, b + o) else none

/-- A range lies in a grant that the function holds from the guest pool: a run's grant (R372). -/
def hamGranted (f off n : Nat) (s : State) : Bool :=
  s.runs.any fun r => r.2.used && r.2.fn = f && r.2.grants.any fun g => g.1 ≤ off && off + n ≤ g.1 + g.2

/-- A range lies in the function's DRAM heap (R443). -/
def inHeap (f a n : Nat) (s : State) : Bool :=
  let x := fnGet f s
  x.heapBase * 2097152 ≤ a && a + n ≤ (x.heapBase + x.heapSize) * 2097152

/-- A range lies in some roster member's Party window of 64 MiB (R66, R384). -/
def inPeer (a n : Nat) (s : State) : Bool :=
  s.party.roster.members.any fun m => m.2.state ≠ .free && m.2.hpa * 67108864 ≤ a && a + n ≤ (m.2.hpa + 1) * 67108864

/-- Whether a range of a space exists and is permitted to the submitter (R209, R210 step 4). -/
def spaceOk (space f a n : Nat) (house : Bool) (s : State) : Bool :=
  match space with
  | 0 => a + n ≤ hamSize && (house || hamGranted f a n s)
  | 1 => a + n ≤ dramSize s && (house || inHeap f a n s)
  | 2 => a + n ≤ 2 ^ 64
  | 3 => (windowAt f a n s).isSome
  | 4 => house && inPeer a n s
  | _ => false

/-- Reads a range of an on-part space; none where an endpoint answers with an error response. -/
def spaceRead (space f a n : Nat) (s : State) : Option (Bytes × Bool) :=
  match space with
  | 0 | 1 => memRead space a n s
  | 3 => (windowAt f a n s).bind fun w => memRead w.1 w.2 n s
  | _ => none

/-- Where a range of an on-part space lies: memory and address; host memory and the peers are 2. -/
def spaceAt (space f a n : Nat) (s : State) : Nat × Nat :=
  match space with
  | 0 | 1 => (space, a)
  | 3 => (windowAt f a n s).getD (2, a)
  | _ => (2, a)

/-- What a read of a range that was served leaves behind (R193, R196). -/
def spaceMet (b : HamBy) (space f a n : Nat) (s : State) : State :=
  let w := spaceAt space f a n s
  if w.1 < 2 then memMet b w.1 w.2 n s else s

/-- A master writes a range of an on-part space. -/
def spaceWrite (b : HamBy) (space f a : Nat) (bs : Bytes) (poison : Bool) (s : State) : Option State :=
  match space with
  | 0 | 1 => memWrite b space a bs poison s
  | 3 => (windowAt f a bs.length s).bind fun w => memWrite b w.1 w.2 bs poison s
  | _ => none

/-- A write of a range loses a collision (R190). -/
def spaceLoses (b : HamBy) (space f a n : Nat) (s : State) : Bool :=
  let w := spaceAt space f a n s
  memLoses b w.1 w.2 n s

/-- A descriptor comes from firmware: it was put into the ring by firmware's own stores, or by a SUBMIT of a firmware task, whose
numbers lie below 8,192 (R329, R346). -/
def fromFw (p : Option Back) : Bool :=
  match p with
  | none => true
  | some b => b.task < 8192

/-- Copies a completed job's bytes 0x30 to 0x3F to the submitter's own descriptor (R329), through the Hamper port of the Shuttle or
engine at Warp port `p`. -/
def copyBack (p : Nat) (b : Option Back) (bs : Bytes) (s : State) : State :=
  match b with
  | none => s
  | some k =>
    if k.space = 2 then
      let x := taskGet k.task s
      if x.house || x.resident then taskSet k.task { x with frame := tsetBytes (k.addr + 0x30) bs x.frame } s
      else hamWrite (hamVia p s) (x.statePtr + 512 + k.addr + 0x30) bs false s
    else (memWrite (hamVia p s) k.space (k.addr + 0x30) bs false s).getD s

/-- A job that a SUBMIT queued no longer refers to its task (R351). -/
def unref (t : Nat) (b : Option Back) (s : State) : State :=
  match b with
  | none => s
  | some _ => taskMod t (fun x => { x with refs := x.refs - 1 }) s

/-- A host read that ended in a completion timeout (1) or with a poisoned TLP (3): its event and its counter (R65, R70). -/
def readFault (result detail : Nat) (s : State) : State :=
  if result = 1 then s |> note 0x7008 pgCxlT detail |> regAdd (pgCxlT + 0x120) 1
  else if result = 3 then s |> note 0x7007 pgCxlT detail |> regAdd (pgCxlT + 0x118) 1
  else s

end Sys2Proof.Machine
end

