-- ==== Sys2Proof/Machine/Shuttle.lean ====
section
/-!
DEFINITION. Pacing lines and Shuttles (R206 to R225): posts and releases, descriptor checks, bursts, ring events and the end
of a descriptor.
-/
namespace Sys2Proof.Machine

/-! ### Pacing lines -/

def lineGet (l : Nat) (s : State) : Line := tget {} s.lines l
def lineSet (l : Nat) (x : Line) (s : State) : State := { s with lines := tset {} l x s.lines }

/-- `SHU_LINE_CFG[L]` (R224). -/
def lineCfg (l : Nat) (s : State) : Nat := regGet (pgShu 0 + 0x400 + 16 * l) s
def lineEn (l : Nat) (s : State) : Bool := bit (lineCfg l s) 0
def lineSpace (l : Nat) (s : State) : Nat := bits (lineCfg l s) 1 1
def lineSize (l : Nat) (s : State) : Nat := 2 ^ bits (lineCfg l s) 6 2
def lineBurst (l : Nat) (s : State) : Nat := 256 * 2 ^ bits (lineCfg l s) 11 8
def lineProducer (l : Nat) (s : State) : Nat := bits (lineCfg l s) 23 16
def lineConsumer (l : Nat) (s : State) : Nat := bits (lineCfg l s) 31 24
def lineBase (l : Nat) (s : State) : Nat := bits (lineCfg l s) 57 32 * 4096
/-- The depth in bursts (R217). -/
def lineDepth (l : Nat) (s : State) : Nat := lineSize l s / lineBurst l s

/-- A post by an agent (R218 to R220): an agent the line does not bind, a disabled line, or a line after END drops it with
0x3081; software at FILL = depth with 0x3005. `len` is the END length in 64-byte units. -/
def linePost (l agent : Nat) (last : Bool) (len : Nat) (s : State) : State :=
  let x := lineGet l s
  if !lineEn l s || lineProducer l s ≠ agent || x.ended then note 0x3081 (pgShu 0) l s
  else if lineDepth l s ≤ x.fill then (if agent = 0x70 then note 0x3005 (pgShu 0) l s else s)
  else lineSet l { x with fill := x.fill + 1, posted := x.posted + 1, ended := last,
                          endLen := if last then len else x.endLen } s

/-- A release by an agent (R218, R220). -/
def lineRelease (l agent : Nat) (s : State) : State :=
  let x := lineGet l s
  if !lineEn l s || lineConsumer l s ≠ agent then note 0x3081 (pgShu 0) l s
  else if x.fill = 0 then (if agent = 0x70 then note 0x3005 (pgShu 0) l s else s)
  else lineSet l { x with fill := x.fill - 1, taken := x.taken + 1 } s

/-- Address of the next burst to produce, and of the next to consume (R218). -/
def linePutAt (l : Nat) (s : State) : Nat := lineBase l s + (lineGet l s).posted * lineBurst l s % lineSize l s
def lineTakeAt (l : Nat) (s : State) : Nat := lineBase l s + (lineGet l s).taken * lineBurst l s % lineSize l s

/-- Bytes of the next burst to consume: END_LEN for the END request (R219). -/
def lineNextLen (l : Nat) (s : State) : Nat :=
  let x := lineGet l s
  if x.fill = 1 && x.ended then 64 * x.endLen else lineBurst l s

/-- The producer may begin a burst (R218). -/
def lineRoom (l : Nat) (s : State) : Bool := (lineGet l s).fill < lineDepth l s && !(lineGet l s).ended

/-- LINE_POST (R218): a hardware agent's or software's post; a length of 0 stands for a full burst (R224). -/
def execLinePost (line agent : Nat) (last : Bool) (len : Nat) (s : State) : Host.Outcome State Fault Refusal :=
  if line < 32 then .next (linePost line agent last (if len = 0 then lineBurst line s / 64 else len % 2048) s) else .fault .noSuchUnit

/-- LINE_RELEASE (R218). -/
def execLineRelease (line agent : Nat) (s : State) : Host.Outcome State Fault Refusal :=
  if line < 32 then .next (lineRelease line agent s) else .fault .noSuchUnit

/-- A write of `SHU_LINE_POST` (R220, R224): software posts or releases as agent 0x70. -/
def softLine (v : Nat) (s : State) : State :=
  let l := bits v 4 0
  if bit v 5 then lineRelease l 0x70 s
  else
    let len := if bits v 17 8 = 0 then lineBurst l s / 64 else bits v 17 8
    linePost l 0x70 (bit v 6) len s

/-! ### Descriptors -/

def shuGet (k : Nat) (s : State) : Shuttle := tget {} s.shus k
def shuSet (k : Nat) (x : Shuttle) (s : State) : State := { s with shus := tset {} k x s.shus }
def shuMod (k : Nat) (g : Shuttle → Shuttle) (s : State) : State := shuSet k (g (shuGet k s)) s

/-- Ring base and number of entries of a ring register (R223, R254). -/
def ringBase (page : Nat) (s : State) : Nat := regFld (page + 0x100) 25 12 s * 4096
def ringLen (page : Nat) (s : State) : Nat := 2 ^ regFld (page + 0x100) 31 28 s
def ringHead (page : Nat) (s : State) : Nat := regGet (page + 0x104) s
def ringTail (page : Nat) (s : State) : Nat := regFld (page + 0x108) 9 0 s
/-- Hamper offset of ring entry `i`. -/
def ringAt (page i : Nat) (s : State) : Nat := ringBase page s + 64 * i

/-- Fields of a Shuttle descriptor (R208). -/
def sdSrc (d : Bytes) : Nat := leAt d 0x00 8
def sdDst (d : Bytes) : Nat := leAt d 0x08 8
def sdLen (d : Bytes) : Nat := leAt d 0x10 5
def sdSrcSpace (d : Bytes) : Nat := leAt d 0x15 1 % 16
def sdDstSpace (d : Bytes) : Nat := leAt d 0x15 1 / 16
def sdFunc (d : Bytes) : Nat := leAt d 0x16 1 % 128
def sdFlag (d : Bytes) (i : Nat) : Bool := bit (leAt d 0x17 1) i
def sdSrcLog2 (d : Bytes) : Nat := leAt d 0x18 1
def sdDstLog2 (d : Bytes) : Nat := leAt d 0x19 1
/-- A line named by a descriptor byte: [4:0] line, [7] valid. -/
def lineField (b : Nat) : Option Nat := if bit b 7 then some (b % 32) else none
def sdIn (d : Bytes) : Option Nat := lineField (leAt d 0x1A 1)
def sdOut (d : Bytes) : Option Nat := lineField (leAt d 0x1B 1)
def sdTask (d : Bytes) : Nat := leAt d 0x1C 2

/-- A circular side's geometry (R210 step 2). -/
def circOk (circ : Bool) (space log2 : Nat) : Bool := !circ || (12 ≤ log2 && log2 ≤ 26 && space ≠ 4)

/-- A line side's rules (R210 step 3): enabled, bound, LENGTH a multiple of its burst, LOG2, CIRC and space 0. -/
def lineSideOk (l : Option Nat) (agent : Nat) (consume circ : Bool) (log2 space len : Nat) (s : State) : Bool :=
  match l with
  | none => circ || log2 = 0
  | some l => lineEn l s && (if consume then lineConsumer l s else lineProducer l s) = agent && len % lineBurst l s = 0
              && !circ && log2 = 0 && space = 0

/-- The range a side touches: the whole ring of a circular side, else its LENGTH. -/
def sideRange (circ : Bool) (addr log2 len : Nat) : Nat × Nat :=
  if circ then (addr / 2 ^ log2 * 2 ^ log2, 2 ^ log2) else (addr, len)

/-- The checks at acceptance, in order (R208, R210): 0 when all pass. -/
def sdCheck (k : Nat) (d : Bytes) (house : Bool) (s : State) : Nat :=
  let len := sdLen d
  let inL := sdIn d
  let outL := sdOut d
  let srcOk := inL.isSome || sdSrc d % 64 = 0
  let dstOk := outL.isSome || sdDst d % 64 = 0
  let (sa, sn) := sideRange (sdFlag d 0) (sdSrc d) (sdSrcLog2 d) len
  let (da, dn) := sideRange (sdFlag d 1) (sdDst d) (sdDstLog2 d) len
  if !srcOk || !dstOk || len % 64 ≠ 0 then 0x01
  else if !circOk (sdFlag d 0) (sdSrcSpace d) (sdSrcLog2 d) || !circOk (sdFlag d 1) (sdDstSpace d) (sdDstLog2 d) then 0x02
  else if len = 0 || (d.drop 0x1E).take 18 ≠ zeros 18 || bit (leAt d 0x16 1) 7 ||
      bits (leAt d 0x1A 1) 6 5 ≠ 0 || bits (leAt d 0x1B 1) 6 5 ≠ 0 ||
      !lineSideOk inL k true (sdFlag d 0) (sdSrcLog2 d) (sdSrcSpace d) len s ||
      !lineSideOk outL k false (sdFlag d 1) (sdDstLog2 d) (sdDstSpace d) len s ||
      (match inL, outL with
       | some a, some b => lineBurst a s ≠ lineBurst b s
       | _, _ => false) then 0x03
  else if (inL.isNone && !spaceOk (sdSrcSpace d) (sdFunc d) sa sn house s) ||
      (outL.isNone && !spaceOk (sdDstSpace d) (sdFunc d) da dn house s) then 0x04
  else 0

/-- Illegal DMA by a program (R210, R456): event 0x6102 on the function's page; it fences the function when FENCE_DMA is
set in the Portion's POLICY and AUTO in the page. -/
def illegalDma (f : Nat) (s : State) : State :=
  let s1 := s |> regAdd (pgFun f + 0x240) 1 |> note 0x6102 (pgFun f) f |> note 0x3002 (pgShu 0) f
  if bit (portionOf f s).policy 0 && bit (regGet (pgFun f + 0x040) s) 0 && !errMasked 0x6102 (pgFun f) s
  then fencePage (pgFun f) 0x6102 false s1 else s1

/-! ### Running and ending a descriptor -/

/-- The address of byte `off` of a side (R212). -/
def sideAddr (circ : Bool) (addr log2 off : Nat) : Nat :=
  if circ then let z := 2 ^ log2; addr / z * z + (addr % z + off) % z else addr + off

/-- A burst's pieces on a circular side: each piece ends at the wrap (R212). -/
def sidePieces (circ : Bool) (addr log2 : Nat) : Nat → Nat → Nat → List (Nat × Nat)
  | 0, _, _ => []
  | fuel + 1, off, n =>
    if n = 0 then []
    else if !circ then [(addr + off, n)]
    else
      let z := 2 ^ log2
      let k := min n (z - (addr % z + off) % z)
      (sideAddr true addr log2 off, k) :: sidePieces circ addr log2 fuel (off + k) (n - k)

/-- Reads pieces of an on-part space. -/
def readPieces (space f : Nat) (ps : List (Nat × Nat)) (s : State) : Option (Bytes × Bool) :=
  ps.foldl (fun acc p => acc.bind fun a => (spaceRead space f p.1 p.2 s).map fun b => (a.1 ++ b.1, a.2 || b.2)) (some ([], false))

/-- What reads of pieces leave behind. -/
def metPieces (b : HamBy) (space f : Nat) (ps : List (Nat × Nat)) (s : State) : State :=
  ps.foldl (fun s p => spaceMet b space f p.1 p.2 s) s

/-- Writes pieces of an on-part space. -/
def writePieces (b : HamBy) (space f : Nat) (poison : Bool) : List (Nat × Nat) → Bytes → State → Option State
  | [], _, s => some s
  | p :: ps, bs, s => (spaceWrite b space f p.1 (bs.take p.2) poison s).bind (writePieces b space f poison ps (bs.drop p.2))

/-- How often a pointer that moves from `p` to `p + n` passes a point `q` of a ring of `z` bytes, the end included. -/
def crossings (p n q z : Nat) : Nat := (p + n + z - q) / z - (p + z - q) / z

/-- Ring events of a burst (R213): IRQ_STAT.HALF and FULL, and the decrements of DEP_HALF and DEP_FULL. -/
def ringEvents (k : Nat) (d : Bytes) (moved n : Nat) (s : State) : State :=
  let dst := sdFlag d 1
  if !dst && !sdFlag d 0 then s
  else
    let z := 2 ^ (if dst then sdDstLog2 d else sdSrcLog2 d)
    let p := (if dst then sdDst d else sdSrc d) % z + moved
    let halves := crossings p n (z / 2) z
    let fulls := crossings p n z z
    let s1 := if halves ≠ 0 && sdFlag d 3 then irqCause (pgShu k) 4 s else s
    let s2 := if sdFlag d 5 then iter halves (fun _ s => decTask (sdTask d) s) s1 else s1
    let s3 := if fulls ≠ 0 && sdFlag d 4 then irqCause (pgShu k) 8 s2 else s2
    if sdFlag d 6 then iter fulls (fun _ s => decTask (sdTask d) s) s3 else s3

/-- Puts the running descriptor's new state. -/
def shuJobSet (k : Nat) (j : ShuJob) (wait : Nat) (s : State) : State :=
  shuMod k (fun x => { x with job := some j, wait := wait }) s

/-- A descriptor ends with a code. -/
def shuStop (k : Nat) (j : ShuJob) (code : Nat) (s : State) : State := shuJobSet k { j with code := some code } 0 s

/-- Where the bytes [at_, at_ + n) of a side lie: the space and its pieces; a line's side is the burst that its ring takes or gives
next. -/
def sideIn (d : Bytes) (at_ n : Nat) (s : State) : Nat × List (Nat × Nat) :=
  match sdIn d with
  | some l => (lineSpace l s, [(lineTakeAt l s, n)])
  | none => (sdSrcSpace d, sidePieces (sdFlag d 0) (sdSrc d) (sdSrcLog2 d) (n + 1) at_ n)
def sideOut (d : Bytes) (at_ n : Nat) (s : State) : Nat × List (Nat × Nat) :=
  match sdOut d with
  | some l => (lineSpace l s, [(linePutAt l s, n)])
  | none => (sdDstSpace d, sidePieces (sdFlag d 1) (sdDst d) (sdDstLog2 d) (n + 1) at_ n)

/-- The memory behind a side: 0 Hamper, 1 DRAM, 2 host or peer. -/
def sideMem (f : Nat) (q : Nat × List (Nat × Nat)) (s : State) : Nat :=
  match q.2 with
  | p :: _ => (spaceAt q.1 f p.1 p.2 s).1
  | [] => 2

/-- The Hamper masters by which a transfer from memory `a` to memory `b` reads and writes (R185): the port assigned to the endpoint at
the other end; a Hamper-to-Hamper copy reads through A and writes through B. -/
def readBy (b : Nat) (s : State) : HamBy := if b = 0 then .port 0 else hamVia (if b = 1 then 2 else 0) s
def writeBy (a : Nat) (s : State) : HamBy := if a = 0 then .port 1 else hamVia (if a = 1 then 2 else 0) s

/-- The Warp port of a side of a transfer: Hamper A or B, DRAM 2, host link 0 (R10). -/
def sidePort (mem : Nat) (b : HamBy) : Nat := if mem = 0 then 3 + b.master else if mem = 1 then 2 else 0

/-- A piece of a side crosses a closed crossing: the transfer waits (R472). -/
def sideWaits (f : Nat) (q : Nat × List (Nat × Nat)) (s : State) : Bool :=
  q.2.any fun p => let w := spaceAt q.1 f p.1 p.2 s; w.1 = 1 && dramWaits w.2 p.2 s

/-- The parts of a burst that carry one mark each: 32 bytes, the word of a Warp beat, where anything is poisoned (R195). -/
def burstParts (d : Bytes) (f at_ n : Nat) (bs : Bytes) (poison : Bool) (s : State) : List (Nat × Bytes × Bool) :=
  if !poison then [(0, bs, false)]
  else (List.range (cdiv n 32)).map fun k =>
    let m := min 32 (n - 32 * k)
    let q := sideIn d at_ n s
    let ps := if (sdIn d).isSome then (q.2.map fun p => (p.1 + 32 * k, m))
              else sidePieces (sdFlag d 0) (sdSrc d) (sdSrcLog2 d) (m + 1) (at_ + 32 * k) m
    (32 * k, (bs.drop (32 * k)).take m, ((readPieces q.1 f ps s).getD ([], false)).2)

/-- Writes one part of a burst, `k` bytes into it, on the output side (R207, R216, R219). None: the target answered with an error
response. -/
def partPut (d : Bytes) (f at_ n : Nat) (house : Bool) (b : HamBy) (x : Nat × Bytes × Bool) (s : State) : Option State :=
  match sdOut d with
  | some l => memWrite b (lineSpace l s) (linePutAt l s + x.1) x.2.1 x.2.2 s
  | none =>
    let pieces := sidePieces (sdFlag d 1) (sdDst d) (sdDstLog2 d) (n + 1) (at_ + x.1) x.2.1.length
    if sdDstSpace d = 2 then some (pieces.foldl (fun (q : Nat × State) p =>
        (q.1 + p.2, hostWrite f p.1 ((x.2.1.drop q.1).take p.2) x.2.2 house q.2)) (0, s)).2
    else if sdDstSpace d = 4 then some (emit (.peer (sideAddr (sdFlag d 1) (sdDst d) (sdDstLog2 d) (at_ + x.1)) x.2.1 (uioOn s)) s)
    else writePieces b (sdDstSpace d) f x.2.2 pieces x.2.1 s

/-- Puts the parts of a burst on the output side. -/
def shuPut (d : Bytes) (f at_ n : Nat) (house : Bool) (b : HamBy) : List (Nat × Bytes × Bool) → State → Option State
  | [], s => some s
  | x :: l, s => (partPut d f at_ n house b x s).bind (shuPut d f at_ n house b l)

/-- A burst of a host source asks for its pieces with the function's requester ID (R209, R212). -/
def shuAsk (k f : Nat) (q : Nat × List (Nat × Nat)) (s : State) : State := q.2.foldl (fun s p => emit (.ask f k 3 p.1 p.2) s) s

/-- Moves one burst of a running descriptor. Each 64 KiB that begin to go to a peer are a repair chunk of F0, and wait for its budget (R216,
R428, R435). `res` says what a host or peer access came to: 0 good, 1 completion timeout, 2
Unsupported Request or Completer Abort, 3 poisoned TLP; `data` are the bytes a host read returned. -/
def shuBurst (k : Nat) (j : ShuJob) (res : Nat) (data : Bytes) (s : State) : State :=
  let d := j.desc
  let f := sdFunc d
  let house := fromFw j.prog
  let left := sdLen d - j.moved
  let lim := match sdIn d, sdOut d with
    | some l, _ => lineBurst l s
    | none, some l => lineBurst l s
    | none, none => 65536
  let last := match sdIn d with
    | some l => let x := lineGet l s; x.fill = 1 && x.ended
    | none => false
  let n := match sdIn d with
    | some l => min left (lineNextLen l s)
    | none => min left lim
  let inWait := match sdIn d with
    | some l => (lineGet l s).fill = 0
    | none => false
  let outWait := match sdOut d with
    | some l => !lineRoom l s
    | none => false
  let hostRd := (sdIn d).isNone && sdSrcSpace d = 2
  let hostWr := (sdOut d).isNone && sdDstSpace d = 2
  let peerWr := (sdOut d).isNone && sdDstSpace d = 4
  let peers := if peerWr then cdiv (j.moved + n) 65536 - cdiv j.moved 65536 else 0
  let src := sideIn d j.moved n s
  let dst := sideOut d j.moved n s
  let rd := readBy (sideMem f dst s) s
  let wr := writeBy (sideMem f src s) s
  if inWait || outWait then shuJobSet k j 2 s
  else if (hostRd || hostWr) && !(fnGet f s).bme || sideWaits f src s || sideWaits f dst s then s
  else if (!house && ((hostRd && spent f rHostRd s) || (hostWr && spent f rHostWr s))) || (peers ≠ 0 && spent 0 rRepair s) then shuJobSet k j 3 s
  else
    let s := if hostRd then shuAsk k f src s else s
    if (hostRd || hostWr || peerWr) && res ≠ 0 then
      s |> note 0x3004 (pgShu k) (sdTask d)
        |> readFault res f
        |> shuStop k j 0x06
    else
      match (if hostRd then some (padTo n data, false) else readPieces src.1 f src.2 s) with
      | none => s |> errResp (sidePort (sideMem f src s) rd) |> shuStop k j 0x08
      | some (bs, poison) =>
        let s1 := if hostRd then (if house then s else hostReadCharge f n s) else metPieces rd src.1 f src.2 s
        let lost := dst.1 ≠ 2 && dst.1 ≠ 4 && dst.2.any fun p => spaceLoses wr dst.1 f p.1 p.2 s1
        match shuPut d f j.moved n house wr (burstParts d f j.moved n bs poison s) s1 with
        | none => s1 |> errResp (sidePort (sideMem f dst s) wr) |> shuStop k j 0x08
        | some s2 =>
          if lost then shuStop k j 0x07 s2
          else
            let s3 := match sdIn d with
              | some l => lineRelease l k s2
              | none => s2
            let s4 := match sdOut d with
              | some l => linePost l k last (n / 64) s3
              | none => s3
            let s5 := s4 |> warpMove (sidePort (sideMem f src s) rd) (sidePort (sideMem f dst s) wr) n |> regAdd (pgShu k + 0x118) n
                         |> ringEvents k d j.moved n |> charge 0 rRepair peers
            let j1 := { j with moved := j.moved + n }
            if poison && (hostWr || peerWr) then shuStop k j1 0x05 s5
            else if last || j1.moved = sdLen d then shuStop k j1 0x00 s5
            else shuJobSet k j1 0 s5

/-- STATUS of a descriptor (R208): CODE, DONE and BYTES. -/
def shuStatus (code moved : Nat) : Bytes := natLe 8 (code + 2 ^ 15 + (moved % 2 ^ 40) * 2 ^ 16)

/-- The end of a descriptor (R214): STATUS in the ring and in the submitter's copy, the decrement of DEP_DONE (held while the
Itinerary cannot take it), the interrupt causes. -/
def shuEnd (k : Nat) (j : ShuJob) (code : Nat) (s : State) : State :=
  let d := j.desc
  let tagStatus := (d.drop 0x30).take 8 ++ shuStatus code j.moved
  let s1 := (memWrite (hamVia 0 s) 0 (ringAt (pgShu k) j.index s + 0x38) (shuStatus code j.moved) false s).getD s
  let s2 := copyBack 0 j.prog tagStatus s1
  let s3 := s2 |> regAdd (pgShu k + 0x120) 1 |> shuMod k (fun x => { x with job := none, wait := 0 })
  let s4 := if code = 0 then s3 else regSet (pgShu k + 0x138) (code + j.index * 256) s3
  let named := sdFlag d 5 || sdFlag d 6 || sdFlag d 7
  let s5 := if named then unref (sdTask d) j.prog s4 else s4
  let s6 := if sdFlag d 7 then
      (match tryDec (sdTask d) s5 with
       | some t => t
       | none => shuMod k (fun x => { x with heldDec := some (sdTask d) }) s5)
    else s5
  if code ≠ 0 then irqCause (pgShu k) 0x10 (if sdFlag d 2 then irqCause (pgShu k) 2 s6 else s6)
  else if sdFlag d 2 then irqCause (pgShu k) 2 s6 else s6

/-- Passes over descriptors at the head of the ring that a squash has completed. -/
def shuSkip (k : Nat) : Nat → State → State
  | 0, s => s
  | fuel + 1, s =>
    let page := pgShu k
    let h := ringHead page s
    if h ≠ ringTail page s && (shuGet k s).dead.contains h then
      s |> regSet (page + 0x104) ((h + 1) % ringLen page s)
        |> shuMod k (fun x => { x with dead := x.dead.filter (· ≠ h) }) |> shuSkip k fuel
    else s

/-- The Shuttle reads the descriptor at the head of its ring and checks it (R207, R210). One that fails has moved no byte. -/
def shuAccept (k : Nat) (s : State) : State :=
  let page := pgShu k
  let h := ringHead page s
  let d := (hamRead (ringAt page h s) 64 s).1
  let prog := tget none (shuGet k s).back h
  let j : ShuJob := { desc := d, index := h, prog := prog }
  let s1 := s |> hamMet (hamVia 0 s) (ringAt page h s) 64 |> regSet (page + 0x104) ((h + 1) % ringLen page s)
              |> shuMod k (fun x => { x with back := tset none h none x.back })
  let c := sdCheck k d (fromFw prog) s
  if c = 0 then shuJobSet k j 0 s1
  else shuStop k j c (if c = 4 && !fromFw prog then illegalDma (sdFunc d) s1 else s1)

/-- SHUTTLE_DESCRIPTOR (R207, R210, R215): an idle Shuttle with a queued descriptor accepts it; a running one moves its next
burst. Nothing happens while the Shuttle is stopped, fenced, in reset, holds a decrement, or its descriptor has ended, nor from
the start of a power-fail sequence on (R167); with EN = 0 it accepts no new descriptor (R38). -/
def execShuttleDescriptor (sh res : Nat) (data : Bytes) (s : State) : Host.Outcome State Fault Refusal :=
  if sh < 64 then
    let x := shuGet sh s
    if !works (pgShu sh) s || !running s || pfOn s || bit (regGet (pgShu sh + 0x110) s) 0 || x.heldDec.isSome then .next s
    else match x.job with
      | none =>
        let s := shuSkip sh 1024 s
        .next (if !enabled (pgShu sh) s || ringHead (pgShu sh) s = ringTail (pgShu sh) s then s else shuAccept sh s)
      | some j => .next (if j.code.isSome then s else shuBurst sh j res data s)
  else .fault .noSuchUnit

/-- A decrement that a Shuttle holds is tried again at each pick boundary (R214, R360). -/
def shuHeld (s : State) : State :=
  (tkeys s.shus).foldl (fun s k => match (shuGet k s).heldDec with
    | some t => match tryDec t s with
      | some u => shuMod k (fun x => { x with heldDec := none }) u
      | none => s
    | none => s) s

/-- SHUTTLE_DESCRIPTOR_END (R214): the descriptor that has ended completes. -/
def execShuttleDescriptorEnd (sh : Nat) (s : State) : Host.Outcome State Fault Refusal :=
  if sh < 64 then
    match (shuGet sh s).job with
    | some j => match j.code with
      | some c => .next (shuEnd sh j c s)
      | none => .next s
    | none => .next s
  else .fault .noSuchUnit

/-- Completes the queued descriptors that `p` picks (by submitter and function) with a code, moving nothing (R222), from ring
index `h` on. -/
def shuDrain (k code : Nat) (p : Option Back → Nat → Bool) : Nat → Nat → State → State
  | 0, _, s => s
  | fuel + 1, h, s =>
    let page := pgShu k
    let next := (h + 1) % ringLen page s
    if h = ringTail page s then s
    else
      let x := shuGet k s
      let d := (hamRead (ringAt page h s) 64 s).1
      let prog := tget none x.back h
      if p prog (sdFunc d) && !x.dead.contains h then
        let s1 := shuSet k { x with back := tset none h none x.back, dead := x.dead ++ [h] } s
        let s2 := shuEnd k { desc := d, index := h, prog := prog } code s1
        shuDrain k code p fuel next (shuMod k (fun y => { y with job := x.job, wait := x.wait }) s2)
      else shuDrain k code p fuel next s

/-- Ends the running descriptor with a code if `p` picks it (R222). -/
def shuCut (k code : Nat) (p : Option Back → Nat → Bool) (s : State) : State :=
  match (shuGet k s).job with
  | some j => if p j.prog (sdFunc j.desc) then shuEnd k j (j.code.getD code) s else s
  | none => s

/-- FLUSH, a fence or a squash of a Shuttle: the running descriptor, then the queued ones (R222). -/
def shuSquash (k code : Nat) (p : Option Back → Nat → Bool) (s : State) : State :=
  let s1 := shuCut k code p s
  s1 |> shuDrain k code p 1024 (ringHead (pgShu k) s1) |> shuSkip k 1024

/-- A write of `SHU_TAIL` (R207): submits up to the new tail. -/
def shuTail (k v : Nat) (s : State) : State := regSetFld (pgShu k + 0x108) 9 0 v s

/-- A write of `SHU_CTL` (R222, R223): STOP is stored, FLUSH completes every descriptor with 0x09. -/
def shuCtl (k v : Nat) (s : State) : State :=
  let s1 := regSetFld (pgShu k + 0x110) 0 0 v s
  if bit v 1 then shuSquash k 0x09 (fun _ _ => true) s1 else s1

/-- SHU_TAIL_ADVANCE (R207); a fenced page drops the write (R463). -/
def execShuTailAdvance (sh : Nat) (value : W32) (s : State) : Host.Outcome State Fault Refusal :=
  if sh < 64 then .next (if fenced (pgShu sh) s then s else shuTail sh value.toNat s) else .fault .noSuchUnit

/-- SHU_STOP (R222): a write of `SHU_CTL` for its STOP bit. -/
def execShuStop (sh : Nat) (value : W32) (s : State) : Host.Outcome State Fault Refusal :=
  if sh < 64 then .next (if fenced (pgShu sh) s then s else shuCtl sh value.toNat s) else .fault .noSuchUnit

/-- SHU_FLUSH (R222): a write of `SHU_CTL` with FLUSH set. -/
def execShuFlush (sh : Nat) (value : W32) (s : State) : Host.Outcome State Fault Refusal :=
  if sh < 64 then .next (if fenced (pgShu sh) s then s else shuCtl sh (setBit value.toNat 1 true) s) else .fault .noSuchUnit

end Sys2Proof.Machine
end

