-- ==== Sys2Proof/Machine/Engine.lean ====
section
/-!
DEFINITION. What the stream engines share (R243 to R249, R258, R302, R412): rings and slots, the choice of the next slice,
input from memory or a line, output to memory or a line, and the end of a job. An engine is known by its agent number
(R217): 0x40 + i compressor, 0x48 + i decompressor, 0x50 + i digest, 0x54 + i keyed check, 0x58 + i scan lane, 0x61 Mender.
-/
namespace Sys2Proof.Machine

/-- The register page of an engine. -/
def engPage (a : Nat) : Nat :=
  if a < 0x48 then pgTwc (a - 0x40) else if a < 0x50 then pgTwd (a - 0x48) else if a < 0x54 then pgDig (a - 0x50)
  else if a < 0x56 then pgKck (a - 0x54) else if a < 0x60 then pgScn (a - 0x58) else pgMnd

/-- The rate of a Portion that an engine's slices count against (R249, R437). -/
def engRate (a : Nat) : Nat :=
  if a < 0x48 then rTwc else if a < 0x50 then rTwd else if a < 0x54 then rDig else if a < 0x56 then rKck
  else if a < 0x60 then rScn else rRepair

/-- The Warp input of an engine: 5 Twill, 6 match and integrity, 7 Mender (R10). -/
def engPort (a : Nat) : Nat := if a < 0x50 then 5 else if a < 0x60 then 6 else 7

/-- The Hamper master through which an engine reads and writes (R185). -/
def engBy (a : Nat) (s : State) : HamBy := hamVia (engPort a) s

/-- The Warp port of a memory as an engine reaches it. -/
def engMem (a space : Nat) (s : State) : Nat := memPort space (engPort a) s

/-- Offset of DEP_TASK in the engine's descriptors (R243, R259, R271, R302, R413). -/
def depOff (a : Nat) : Nat :=
  if a < 0x50 then 0x26 else if a < 0x54 then 0x28 else if a < 0x56 then 0x20 else if a < 0x60 then 0x26 else 0x32

/-- Offset of the result fields: CODE comes first (R243, R413). -/
def codeOff (a : Nat) : Nat := if a = 0x61 then 0x34 else 0x30

/-- Offsets of the counter of jobs and of LAST_ERR in the engine's page (R254, R282, R310, R430). -/
def jobsOff (a : Nat) : Nat := if 0x50 ≤ a && a < 0x56 then 0x120 else 0x128
def lastErrOff (a : Nat) : Nat := if 0x50 ≤ a && a < 0x56 then 0x138 else if a = 0x61 then 0x130 else 0x150

/-- Fields shared by the engines' descriptors. -/
def edFlag (d : Bytes) (i : Nat) : Bool := bit (leAt d 1 1) i
def edFunc (a : Nat) (d : Bytes) : Nat := if a = 0x61 then 0 else leAt d 2 1 % 128
def edHouse (a : Nat) (d : Bytes) : Bool := a ≠ 0x61 && edFlag d 4
def edTask (a : Nat) (d : Bytes) : Nat := leAt d (depOff a) 2
def edSrc (d : Bytes) : Nat := leAt d 0x08 8
def edDst (d : Bytes) : Nat := leAt d 0x10 8
def edSrcLen (d : Bytes) : Nat := leAt d 0x18 5
def edSrcSpace (d : Bytes) : Nat := leAt d 0x1D 1 % 16
def edDstSpace (d : Bytes) : Nat := leAt d 0x1D 1 / 16
def edIn (d : Bytes) : Option Nat := lineField (leAt d 0x1E 1)
/-- OUT_LINE of Twill and scan jobs. -/
def edOut (a : Nat) (d : Bytes) : Option Nat :=
  if a < 0x50 || (0x58 ≤ a && a < 0x60) then lineField (leAt d 0x1F 1) else none
def edCap (d : Bytes) : Nat := leAt d 0x20 5

/-- Fields of a Twill descriptor (R243). -/
def tdOp (d : Bytes) : Nat := leAt d 0 1
def tdPred (d : Bytes) : Nat := leAt d 3 1 % 16
def tdWcode (d : Bytes) : Nat := bits (leAt d 3 1) 5 4
def tdSave (d : Bytes) : Nat := leAt d 0x28 8
/-- Bytes of a Twill job's save area (R243). -/
def tdSaveLen (d : Bytes) : Nat :=
  if tdOp d ≠ 1 || tdPred d = 6 || (tdPred d = 0xF && tdWcode d = 0) then 65 * 1024 else 1024

def engGet (a : Nat) (s : State) : Engine := tget {} s.engs a
def engSet (a : Nat) (x : Engine) (s : State) : State := { s with engs := tset {} a x s.engs }
def engMod (a : Nat) (g : Engine → Engine) (s : State) : State := engSet a (g (engGet a s)) s

/-- Replaces the job of a slot. -/
def engJobSet (a : Nat) (j : EngJob) (s : State) : State :=
  engMod a (fun x => { x with jobs := x.jobs.map fun q => if q.slot = j.slot then j else q }) s

/-- A free digest context, lowest number: the spec names any (log entry 6). -/
def digFree (s : State) : List Nat := (List.range 64).filter fun c => !(tget {} s.digs c).alloc

/-- A whole burst that a job has made waits for room on its output line (R218, R247); one burst is kept back, since the last is END. -/
def lineBlocks (l : Nat) (j : EngJob) (s : State) : Bool :=
  lineEn l s && !lineRoom l s && lineBurst l s < j.made.length - j.posted && j.left.all (· = 0)

/-- A job may run its next slice: it has not ended, its function's budget is not spent or it is HOUSE work, no line holds it
up, and its digest context is to be had (R249, R258). -/
def runnable (a : Nat) (j : EngJob) (s : State) : Bool :=
  let d := j.desc
  let inReady := match edIn d with
    | some l => a = 0x61 || j.inDone || (lineGet l s).fill ≠ 0 || (lineGet l s).ended || !lineEn l s || j.left.any (0 < ·)
    | none => true
  let outReady := match edOut a d, j.out with
    | some l, some _ => lineRoom l s || !lineEn l s
    | some l, none => !lineBlocks l j s
    | none, _ => true
  let ctxReady := if 0x50 ≤ a && a < 0x54 then
      (match j.ctx with
       | some c => !(s.engs.any fun e => 0x50 ≤ e.1 && e.1 < 0x54 && e.2.jobs.any fun q =>
           q.ctx = some c && q.order < j.order)
       | none => leAt d 0 1 ∉ [1, 4] || !(digFree s).isEmpty)
    else true
  j.code.isNone && (edHouse a d || !spent (edFunc a d) (engRate a) s) && inReady && outReady && ctxReady

/-- U and B of a job's score 256 × U ÷ B (R249): a HOUSE job scores as if B were 256; no budget scores 0. -/
def score (a : Nat) (j : EngJob) (s : State) : Nat × Nat :=
  let u := usedOf (edFunc a j.desc) (engRate a) s
  if edHouse a j.desc then (u, 256)
  else match budget (edFunc a j.desc) (engRate a) s with
    | some b => (u, max 1 b)
    | none => (0, 1)

/-- A range of the DRAM that a job reads or writes lies behind a closed crossing: the job waits (R472). -/
def engWaits (a : Nat) (j : EngJob) (s : State) : Bool :=
  let d := j.desc
  ((edIn d).isNone && !j.inDone && a ≠ 0x61 && edSrcSpace d = 1 && dramWaits (edSrc d) (edSrcLen d) s) ||
  ((edOut a d).isNone && a ≠ 0x61 && edDstSpace d = 1 && dramWaits (edDst d) (edCap d) s) ||
  (match edIn d, edOut a d with
   | some l, _ | none, some l => a ≠ 0x61 && lineSpace l s = 1 && dramWaits (lineTakeAt l s) (lineBurst l s) s
   | none, none => false) ||
  (a = 0x61 && [bits (leAt d 0x30 1) 3 0, bits (leAt d 0x30 1) 7 4].contains 1 && dramWaits 0 2048 s)

/-- The runnable slot with the lowest score, the job accepted first on a tie (R249). -/
def bestSlot (a : Nat) (s : State) : Option Nat :=
  ((engGet a s).jobs.foldl (fun (b : Option (EngJob × Nat × Nat)) j =>
    if !runnable a j s then b
    else
      let (u, n) := score a j s
      match b with
      | none => some (j, u, n)
      | some (_, u', n') => if u * n' < u' * n then some (j, u, n) else b) none).map fun q => q.1.slot

/-- The save area of a Twill or scan job and its bytes: at SAVE_ADDR, or from +0x100 of the area at SPEC_ADDR (R243, R302). -/
def saveArea (a : Nat) (d : Bytes) : Nat × Nat := if a < 0x50 then (tdSave d, tdSaveLen d) else (leAt d 0x28 8 + 0x100, 4096 - 0x100)

/-- The state of a Twill or scan job that gives way goes to its save area (R249, R305): its layout is not stated, so the bytes are free
values (log entry 151). A digest's state stays in the context store (R257). -/
def engSave (a : Nat) (j : EngJob) (s : State) : State :=
  if a < 0x50 || (0x58 ≤ a && a < 0x60) then
    let (bs, s1) := freeBytes (saveArea a j.desc).2 s
    (memWrite (engBy a s) 0 (saveArea a j.desc).1 bs false s1).getD s1
  else s

/-- The engine turns to a slot. A job that has not ended and gives way to another is switched out (R249). -/
def engTurn (a : Nat) (b : Option Nat) (s : State) : State :=
  let x := engGet a s
  let s1 := engSet a { x with running := b } s
  match x.jobs.find? fun j => x.running = some j.slot && j.code.isNone, b with
  | some j, some k =>
    if j.slot = k then s1
    else
      let s2 := engSave a j s1
      if a < 0x50 || (0x58 ≤ a && a < 0x60) then regAdd (engPage a + 0x148) 1 s2
      else if a < 0x54 then regAdd (engPage a + 0x130) 1 s2 else s2
  | _, _ => s1

/-- The engine chooses the slot of its next slice (R25 step 2, R249); a stopped or fenced engine runs none. -/
def engPick (a : Nat) (s : State) : State :=
  if (engGet a s).stopped || !works (engPage a) s || !running s then engMod a (fun x => { x with running := none }) s
  else engTurn a (bestSlot a s) s

/-- Counts one slice of a job (R249): one pick of the function's class, none for HOUSE work, and the engine's PICKS; Mender
jobs are charged in repair chunks by their own meaning (R435). -/
def engCharge (a : Nat) (j : EngJob) (s : State) : State :=
  let s1 := if edHouse a j.desc || a = 0x61 then s else charge (edFunc a j.desc) (engRate a) 1 s
  if a < 0x50 || (0x58 ≤ a && a < 0x60) then regAdd (engPage a + 0x140) 1 s1
  else if a < 0x54 then regAdd (engPage a + 0x128) 1 s1 else s1

/-- Marks the job of a slot ended, with its code and the result bytes that follow CODE. -/
def engStop (a : Nat) (j : EngJob) (code : Nat) (res : Bytes) (s : State) : State :=
  engJobSet a { j with code := some code, res := res } s

/-- The result bytes of a job that ends without a result: DETAIL and DONE, then zeros. -/
def noResult (detail : Nat) : Bytes := natLe 1 (detail % 128 + 128) ++ zeros 14

/-- The event of a job that ended with a code (R253, R255, R283, R311). -/
def endEvent (a code index : Nat) (s : State) : State :=
  if code = 0 then s
  else if a < 0x48 then note 0x3181 (engPage a) index s
  else if a < 0x50 then note (if code = 2 then 0x3281 else if code = 3 then 0x3282 else 0x3283) (engPage a) index s
  else if a < 0x54 then (if code = 2 then s else note 0x3382 (engPage a) index s)
  else if a < 0x56 then s
  else if a < 0x60 then note 0x3581 (engPage a) index s
  else s

/-- The user that a digest job acts for (R257): firmware for HOUSE work, a run for a job of a program, else the function. -/
def digUserOf (j : EngJob) (s : State) : DigUser :=
  match j.prog, fromFw j.prog with
  | some b, false => .run (taskGet b.task s).run
  | _, _ => if edFlag j.desc 4 then .house else .queue (leAt j.desc 2 1 % 128)

/-- Releases a digest context (R262 to R264). -/
def digRelease (c : Nat) (s : State) : State := { s with digs := tset {} c {} s.digs }

/-- An engine's write: none for an error response, else with whether a word of it lost a collision (R190). -/
def engWrite (a space addr : Nat) (bs : Bytes) (s : State) : Option (Bool × State) :=
  match memWrite (engBy a s) space addr bs false s with
  | none => none
  | some t => some (memLoses (engBy a s) space addr bs.length s, t)

/-- The end of a job (R248): result fields in the ring and in the submitter's copy, then the decrement, then the interrupt
causes; the slot is free again. A digest job's context goes with poison, squash and loss (R263). -/
def engEnd (a : Nat) (j : EngJob) (code : Nat) (res : Bytes) (s : State) : State :=
  let page := engPage a
  let d := j.desc
  let tail := (d.drop 0x30).take (codeOff a - 0x30) ++ natLe 1 code ++ res
  let tail := padTo 16 tail
  let s1 := (memWrite (engBy a s) 0 (ringAt page j.index s + 0x30) tail false s).getD s
  let s2 := copyBack (engPort a) j.prog tail s1
  let s3 := s2 |> engMod a (fun x => { x with jobs := x.jobs.filter (·.slot ≠ j.slot),
                                              running := if x.running = some j.slot then none else x.running })
              |> regAdd (page + jobsOff a) 1
  let detail := leAt res 0 1 % 128
  let err := if a < 0x50 || (0x58 ≤ a && a < 0x60) then code + detail * 256 + j.index * 65536 else code + j.index * 256
  let s4 := if code = 0 then s3 else regSet (page + lastErrOff a) err s3
  let s5 := match j.ctx with
    | some c => if 0x50 ≤ a && a < 0x54 && [6, 9, 12].contains code && (tget {} s4.digs c).user = digUserOf j s4
                then digRelease c s4 else s4
    | none => s4
  let s6 := endEvent a code j.index s5
  let s7 := if edFlag d 3 then decTask (edTask a d) (unref (edTask a d) j.prog s6) else s6
  let causes := (if edFlag d 2 then 2 else 0) + (if code ≠ 0 then 4 else 0)
  if causes = 0 then s7 else irqCause page causes s7

/-! ### Input and output of a job -/

/-- Bytes read and written by a Twill engine or a scan lane (R254, R310). -/
def bytesIn (a n : Nat) (s : State) : State := if a < 0x50 || (0x58 ≤ a && a < 0x60) then regAdd (engPage a + 0x118) n s else s
def bytesOut (a n : Nat) (s : State) : State := if a < 0x50 || (0x58 ≤ a && a < 0x60) then regAdd (engPage a + 0x120) n s else s

/-- An engine's read of `n` bytes. Left: the code that the job ends with, an error response or poison, and the state behind the
access. -/
def engFetch (a space addr n : Nat) (s : State) : Except (Nat × State) (Bytes × State) :=
  match memRead space addr n s with
  | none => .error (0x08, errResp (engMem a space s) s)
  | some (bs, p) =>
    let s1 := s |> memMet (engBy a s) space addr n |> warpMove (engMem a space s) (engPort a) n |> bytesIn a n
    if p then .error (0x06, s1) else .ok (bs, s1)

/-- The line that a job reads has no burst for it now (R218). -/
def starved (j : EngJob) (s : State) : Bool :=
  match edIn j.desc with
  | some l => !j.inDone && lineEn l s && (lineGet l s).fill = 0 && !(lineGet l s).ended
  | none => false

/-- The next piece of a job's input, `want` bytes in all (R218, R219, R243): a burst of its line, released once it has been read, or all
that memory holds, of which 4 KiB at a time are worked on. -/
def engInput (a want : Nat) (j : EngJob) (s : State) : Except (Nat × State) (EngJob × State) :=
  if j.inDone then .ok ({ j with pos := min j.inp.length (j.pos + 4096) }, s)
  else match edIn j.desc with
    | some l =>
      let x := lineGet l s
      if !lineEn l s then .error (0x0A, s)
      else if x.fill = 0 then .ok ({ j with inDone := x.ended }, s)
      else match engFetch a (lineSpace l s) (lineTakeAt l s) (lineNextLen l s) s with
        | .error e => .error e
        | .ok (bs, s1) =>
          let inp := (j.inp ++ bs).take want
          .ok ({ j with inp := inp, pos := inp.length, inDone := want ≤ inp.length || (x.ended && x.fill = 1) }, lineRelease l a s1)
    | none => match engFetch a (edSrcSpace j.desc) (edSrc j.desc) (cdiv want 64 * 64) s with
      | .error e => .error e
      | .ok (bs, s1) => .ok ({ j with inp := bs.take want, inDone := true }, s1)

/-- Posts one request of `n` bytes of a job's output on a line (R247), its length rounded up to 64 bytes. Left: the code that the job
ends with: an error response, or a lost collision. -/
def givePiece (a l : Nat) (last : Bool) (bs : Bytes) (s : State) : Except (Nat × State) State :=
  let piece := padTo (cdiv bs.length 64 * 64) bs
  match engWrite a (lineSpace l s) (linePutAt l s) piece s with
  | none => .error (0x08, errResp (engMem a (lineSpace l s) s) s)
  | some (true, s1) => .error (0x07, s1)
  | some (false, s1) => .ok (s1 |> warpMove (engPort a) (engMem a (lineSpace l s) s) piece.length |> bytesOut a bs.length
                                |> linePost l a last (piece.length / 64))

/-- Posts output on a line while it has room (R247): whole bursts, and with `all` the rest, END last. True when END has been posted.
Left: the code that the job ends with; a line that has been disabled gives 0x0A. -/
def giveLine (a l : Nat) (all : Bool) : Nat → EngJob → Bytes → State → Except (Nat × State) (Bool × EngJob × State)
  | 0, j, _, s => .ok (false, j, s)
  | fuel + 1, j, out, s =>
    let b := lineBurst l s
    let left := out.length - j.posted
    let last := left ≤ b
    if !lineEn l s then .error (0x0A, s)
    else if !lineRoom l s || (last && !all) then .ok (false, j, s)
    else match givePiece a l last ((out.drop j.posted).take b) s with
      | .error e => .error e
      | .ok s1 =>
        let j1 := { j with posted := j.posted + min b left }
        if last then .ok (true, j1, s1) else giveLine a l all fuel j1 out s1

/-- Posts the whole bursts that a job has made so far (R247). -/
def giveMade (a : Nat) (j : EngJob) (s : State) : Except (Nat × State) (EngJob × State) :=
  match edOut a j.desc with
  | none => .ok (j, s)
  | some l => match giveLine a l false (lineDepth l s + 1) j j.made s with
    | .error e => .error e
    | .ok (_, q, t) => .ok (q, t)

/-- Delivers a job's output and ends it with code 0x00 and its result bytes once everything is out: to memory at once, on a
line as room comes (R247). -/
def engOutput (a : Nat) (j : EngJob) (out res : Bytes) (s : State) : State :=
  match edOut a j.desc with
  | some l =>
    match giveLine a l true (lineDepth l s + 1) { j with out := some out, res := res } out s with
    | .error (c, s1) => engStop a j c (noResult 0) s1
    | .ok (true, j1, s1) => engStop a { j1 with out := none } 0x00 res s1
    | .ok (false, j1, s1) => engJobSet a j1 s1
  | none =>
    let space := edDstSpace j.desc
    match engWrite a space (edDst j.desc) out s with
    | none => engStop a j 0x08 (noResult 0) (errResp (engMem a space s) s)
    | some (true, s1) => engStop a j 0x07 (noResult 0) s1
    | some (false, s1) => s1 |> warpMove (engPort a) (engMem a space s) out.length |> bytesOut a out.length |> engStop a j 0x00 res

/-- A failed job's destination bytes that were already written are undefined (R247): `n` free bytes. -/
def spoil (a : Nat) (j : EngJob) (n : Nat) (s : State) : State :=
  if (edOut a j.desc).isSome || n = 0 then s
  else
    let (bs, s1) := freeBytes n s
    (memWrite (engBy a s) (edDstSpace j.desc) (edDst j.desc) bs false s1).getD s1

/-! ### Ending jobs from outside -/

/-- Ends the accepted jobs that `p` picks (by submitter and function; 128 for a HOUSE job) with a code. -/
def engCut (a code : Nat) (p : Option Back → Nat → Bool) (s : State) : State :=
  ((engGet a s).jobs.filter fun j => p j.prog (if edHouse a j.desc then 128 else edFunc a j.desc)).foldl
    (fun s j => engEnd a j (j.code.getD code) (if j.code.isSome then j.res else noResult 0) s) s

/-- Completes the queued descriptors that `p` picks with a code, from ring index `h` on. -/
def engDrain (a code : Nat) (p : Option Back → Nat → Bool) : Nat → Nat → State → State
  | 0, _, s => s
  | fuel + 1, h, s =>
    let page := engPage a
    let next := (h + 1) % ringLen page s
    if h = ringTail page s then s
    else
      let x := engGet a s
      let d := (hamRead (ringAt page h s) 64 s).1
      let s := hamMet (engBy a s) (ringAt page h s) 64 s
      let prog := tget none x.back h
      if p prog (if edHouse a d then 128 else edFunc a d) && !x.dead.contains h then
        let s1 := engSet a { x with back := tset none h none x.back, dead := x.dead ++ [h] } s
        engDrain a code p fuel next (engEnd a { slot := 4, desc := d, index := h, prog := prog } code (noResult 0) s1)
      else engDrain a code p fuel next s

/-- Passes over jobs at the head of the ring that a squash has completed. -/
def engSkip (a : Nat) : Nat → State → State
  | 0, s => s
  | fuel + 1, s =>
    let page := engPage a
    let h := ringHead page s
    if h ≠ ringTail page s && (engGet a s).dead.contains h then
      s |> regSet (page + 0x104) ((h + 1) % ringLen page s)
        |> engMod a (fun x => { x with dead := x.dead.filter (· ≠ h) }) |> engSkip a fuel
    else s

/-- FLUSH, a fence or a squash of an engine: held and queued jobs end with a code (R222, R245, R254). -/
def engSquash (a code : Nat) (p : Option Back → Nat → Bool) (s : State) : State :=
  let s1 := engCut a code p s
  s1 |> engDrain a code p 1024 (ringHead (engPage a) s1) |> engSkip a 1024

/-! ### Acceptance and the ring registers -/

/-- A descriptor of the ring of an engine as a job of slot `k`. -/
def engHead (a k : Nat) (s : State) : EngJob :=
  let h := ringHead (engPage a) s
  let d := (hamRead (ringAt (engPage a) h s) 64 s).1
  { slot := k, order := s.jobSeq, desc := d, index := h, prog := tget none (engGet a s).back h,
    ctx := if 0x50 ≤ a && a < 0x54 && leAt d 0 1 ∉ [1, 4] then some (leAt d 3 1 % 64) else none,
    spec := if 0x58 ≤ a && a < 0x60 then (hamRead (leAt d 0x28 8) 256 s).1 else [] }

/-- The engine accepts the descriptor at the head of its ring into a free slot when it is one that `p` picks (R249, R258);
`check` is its class's acceptance check: 0 for a good descriptor, else CODE + 256 × DETAIL. One that fails completes at once (R244). -/
def engAccept (a : Nat) (p : Bytes → Bool) (check : EngJob → State → Nat) (s : State) : State :=
  let page := engPage a
  let s := engSkip a 1024 s
  let x := engGet a s
  match (List.range 4).find? fun k => !(x.jobs.any fun j => j.slot = k) with
  | none => s
  | some k =>
    let j := engHead a k s
    if !accepts page s || !running s || x.stopped || ringHead page s = ringTail page s || !p j.desc then s
    else
      let c := check j s
      let s := hamMet (engBy a s) (ringAt page j.index s) 64 s
      let s := if 0x58 ≤ a && a < 0x60 then hamMet (engBy a s) (leAt j.desc 0x28 8) 256 s else s
      let s1 := { s with jobSeq := s.jobSeq + 1 }
                  |> regSet (page + 0x104) ((j.index + 1) % ringLen page s)
                  |> engMod a (fun x => { x with back := tset none j.index none x.back, jobs := x.jobs ++ [j] })
      if c = 0 then s1
      else engEnd a j (c % 256) (noResult (c / 256)) (if c = 5 && !fromFw j.prog then illegalDma (edFunc a j.desc) s1 else s1)

/-- The Itinerary holds the decrement of a job back, and the engine its completion (R248, R360). -/
def engHeld (a : Nat) (j : EngJob) (s : State) : Bool := edFlag j.desc 3 && (tryDec (edTask a j.desc) s).isNone

/-- The accepted jobs that have ended complete, in the order of their acceptance (R248). -/
def engEnds (a : Nat) (s : State) : State :=
  (engGet a s).jobs.foldl (fun s j => match j.code with
    | some c => if engHeld a j s then s else engEnd a j c j.res s
    | none => s) s

/-- A write of an engine's TAIL register. -/
def engTail (a v : Nat) (s : State) : State := regSetFld (engPage a + 0x108) 9 0 v s

/-- A write of an engine's CTL register (R254): STOP acts at the next pick boundary, FLUSH completes the held and queued jobs
with 0x09. -/
def engCtl (a v : Nat) (s : State) : State :=
  let page := engPage a
  let s1 := regSetFld (page + 0x110) 0 0 v s
  let s2 := if bit v 0 then later (.hold page) s1 else engMod a (fun x => { x with stopped := false }) s1
  if bit v 1 then engSquash a 0x09 (fun _ _ => true) s2 else s2

/-- A row over an engine register: the write, which a fenced page drops (R463), or no such engine. -/
def engRow (a lo n : Nat) (f : Nat → State → State) (s : State) : Host.Outcome State Fault Refusal :=
  if a < n then .next (if fenced (engPage (lo + a)) s then s else f (lo + a) s) else .fault .noSuchUnit

/-- What a descriptor's line byte asks: bits 6:5 are 0, and a valid line is enabled and binds the engine to consume it, or to
produce into it (R217, R244). -/
def edLineOk (a b : Nat) (consume : Bool) (s : State) : Bool :=
  bits b 6 5 = 0 && match lineField b with
  | none => true
  | some l => lineEn l s && (if consume then lineConsumer l s else lineProducer l s) = a

/-- The submitter's right to a range (R209, R244 step 3). -/
def edRange (a : Nat) (j : EngJob) (space addr n : Nat) (s : State) : Bool :=
  n = 0 || spaceOk space (edFunc a j.desc) addr n (fromFw j.prog) s

/-- The agents of all stream engines. -/
def allEngines : List Nat := (List.range 32).map (· + 0x40) |>.filter (fun a => a < 0x56 || 0x58 ≤ a) |>.append [0x61]

/-- A line is released (R220): FILL and END return to 0; a Shuttle's descriptor and the engine jobs bound to it end with
0x0A. -/
def lineFree (l : Nat) (s : State) : State :=
  let s1 := lineSet l { run := (lineGet l s).run } (regSetFld (pgShu 0 + 0x400 + 16 * l) 0 0 0 s)
  let bound (d : Bytes) : Bool := sdIn d = some l || sdOut d = some l
  let s2 := (List.range 64).foldl (fun s k =>
    match (shuGet k s).job with
    | some j => if bound j.desc && j.code.isNone then shuStop k j 0x0A s else s
    | none => s) s1
  allEngines.foldl (fun s a =>
    ((engGet a s).jobs.filter fun j => a ≠ 0x61 && j.code.isNone && (edIn j.desc = some l || edOut a j.desc = some l)).foldl
      (fun s j => engStop a j 0x0A (noResult 0) s) s) s2

/-- A write of `SHU_LINE_CFG[L]` (R220): dropped while EN = 1 unless it clears EN, which releases the line. A line that is
enabled starts empty. -/
def lineCfgWrite (l hi lo v : Nat) (s : State) : State :=
  let a := pgShu 0 + 0x400 + 16 * l
  let old := lineEn l s
  let (v, s) := mergeRw a hi lo v s
  if old then
    if bit v 0 then s else regSet a v (lineFree l s)
  else
    let s1 := regSet a v s
    if bit v 0 then lineSet l { run := (lineGet l s).run } s1 else s1

/-- SHU_LINE_CFG_WRITE (R220). -/
def execShuLineCfgWrite (line : Nat) (value : W64) (s : State) : Host.Outcome State Fault Refusal :=
  if line < 32 then .next (if fenced (pgShu 0) s then s else lineCfgWrite line 63 0 value.toNat s) else .fault .noSuchUnit

/-- SOFTWARE_LINE_POST (R220): a write of `SHU_LINE_POST` with RELEASE = 0. -/
def execSoftwareLinePost (value : W32) (s : State) : Host.Outcome State Fault Refusal :=
  .next (if fenced (pgShu 0) s then s else softLine (setBit value.toNat 5 false) s)

/-- SOFTWARE_LINE_RELEASE (R220): a write of `SHU_LINE_POST` with RELEASE = 1. -/
def execSoftwareLineRelease (value : W32) (s : State) : Host.Outcome State Fault Refusal :=
  .next (if fenced (pgShu 0) s then s else softLine (setBit value.toNat 5 true) s)

end Sys2Proof.Machine
end

