-- ==== Sys2Proof/Machine/Flags.lean ====
section
/-!
DEFINITION. Status codes and status bits: the NVMe statuses the part reports (R106, R107 and NVMe's own) and the bits that
log pages and registers compute from the state.
-/
namespace Sys2Proof.Machine

/-! ### Generic and command-specific statuses -/

def stOk : Status := {}
def stOpcode : Status := { sct := 0, sc := 0x01, dnr := true }
def stField : Status := { sct := 0, sc := 0x02, dnr := true }
def stDataXfer : Status := { sct := 0, sc := 0x04 }
def stAbort : Status := { sct := 0, sc := 0x07 }
def stSqDeleted : Status := { sct := 0, sc := 0x08 }
def stNamespace : Status := { sct := 0, sc := 0x0B, dnr := true }
def stSequence : Status := { sct := 0, sc := 0x0C, dnr := true }
def stSglLength : Status := { sct := 0, sc := 0x0F, dnr := true }
def stPrpOffset : Status := { sct := 0, sc := 0x13, dnr := true }
def stSanitize : Status := { sct := 0, sc := 0x1D }
def stLba : Status := { sct := 0, sc := 0x80, dnr := true }
def stNsNotReady : Status := { sct := 0, sc := 0x82 }
def stNsNotReadyDnr : Status := { sct := 0, sc := 0x82, dnr := true }
def stCqInvalid : Status := { sct := 1, sc := 0x00, dnr := true }
def stQid : Status := { sct := 1, sc := 0x01, dnr := true }
def stQueueSize : Status := { sct := 1, sc := 0x02, dnr := true }
def stAbortLimit : Status := { sct := 1, sc := 0x03 }
def stAerLimit : Status := { sct := 1, sc := 0x05 }
def stFwSlot : Status := { sct := 1, sc := 0x06, dnr := true }
def stFwImage : Status := { sct := 1, sc := 0x07, dnr := true }
def stVector : Status := { sct := 1, sc := 0x08, dnr := true }
def stLogPage : Status := { sct := 1, sc := 0x09, dnr := true }
def stFormat : Status := { sct := 1, sc := 0x0A, dnr := true }
/-- Firmware Activation Requires Conventional Reset. -/
def stFwReset : Status := { sct := 1, sc := 0x0B }
def stQDelete : Status := { sct := 1, sc := 0x0C, dnr := true }
def stNotSaveable : Status := { sct := 1, sc := 0x0D, dnr := true }
def stNotChangeable : Status := { sct := 1, sc := 0x0E, dnr := true }
/-- Firmware Activation Requires Maximum Time Violation. -/
def stFwTime : Status := { sct := 1, sc := 0x12 }
/-- Overlapping Range of a Firmware Image Download. -/
def stOverlap : Status := { sct := 1, sc := 0x14, dnr := true }
def stNsCapacity : Status := { sct := 1, sc := 0x15, dnr := true }
def stNsIdent : Status := { sct := 1, sc := 0x16, dnr := true }
/-- Thin Provisioning Not Supported, and Controller List Invalid. -/
def stThin : Status := { sct := 1, sc := 0x1B, dnr := true }
def stCtrlList : Status := { sct := 1, sc := 0x1C, dnr := true }
def stNsAttached : Status := { sct := 1, sc := 0x18, dnr := true }
def stNsNotAttached : Status := { sct := 1, sc := 0x1A, dnr := true }
def stSelfTest : Status := { sct := 1, sc := 0x1D }
def stCtrlId : Status := { sct := 1, sc := 0x1F, dnr := true }
def stSecState : Status := { sct := 1, sc := 0x20, dnr := true }
def stResources : Status := { sct := 1, sc := 0x21, dnr := true }
def stResourceId : Status := { sct := 1, sc := 0x22, dnr := true }
def stReadError : Status := { sct := 2, sc := 0x81 }

/-! ### The part's own statuses (R107) -/

/-- A vendor status by its SC, with the DNR of R107. -/
def vendor (sc : Nat) : Status := { sct := 7, sc := sc, dnr := !([0x08, 0x11, 0x12].contains sc) }

def vsReadOnly := vendor 0x01
def vsNotPermitted := vendor 0x02
def vsArmRequired := vendor 0x03
def vsAuthFailed := vendor 0x04
def vsCounterStale := vendor 0x05
def vsArmExpired := vendor 0x06
def vsKeyRetired := vendor 0x07
def vsPortion := vendor 0x08
def vsLength := vendor 0x09
def vsImage := vendor 0x0A
def vsTrapped := vendor 0x0B
def vsTwFormat := vendor 0x0C
def vsTwSpace := vendor 0x0D
def vsTwCheck := vendor 0x0E
def vsDigLength := vendor 0x0F
def vsNotMember := vendor 0x10
def vsShard := vendor 0x11
def vsFenced := vendor 0x12
def vsFnFenced := vendor 0x13

/-! ### Bits that other blocks compute -/

/-- PAGE_STAT.ERR of a page (R37): ERR_STAT AND NOT ERR_MASK is non-zero. -/
def pageErr (page : Nat) (s : State) : Bool := errLive page s ≠ 0

/-- A quadrant is fenced: SMART critical warning bit 2 stands (R144). -/
def quadFenced (s : State) : Bool := (List.range 4).any fun q => fenced (pgFlc q) s

/-- SMART critical warning bits (R144): 0 spare, 1 temperature, 2 unit lost, quadrant fenced or degraded, 3 read-only, 4
backup failed. -/
def critWarn (temp : Bool) (s : State) : Nat :=
  b2n s.media.spareWarned + 2 * b2n temp + 4 * b2n (s.qe.warn2 || quadFenced s || s.boot.degraded) + 8 * b2n s.media.ro
    + 16 * b2n s.qe.warn4

end Sys2Proof.Machine
end

