-- ==== Sys2Proof/Machine/Operands.lean ====
section
/-!
DEFINITION. The operands of NVMe commands: the fields of a submission queue entry, its data pointer (PRPs and SGLs), its
logical block extent, and the command contexts that hold them (R79 to R87).
-/
namespace Sys2Proof.Machine

/-- Bits [hi:lo] of a submission queue entry. -/
def sqeBits (e : Sqe) (hi lo : Nat) : Nat := bits e.toNat hi lo
/-- Dword `k` of a submission queue entry. -/
def dword (e : Sqe) (k : Nat) : Nat := sqeBits e (32 * k + 31) (32 * k)
/-- Opcode, CID, PSDT and NSID. -/
def sqeOp (e : Sqe) : Nat := sqeBits e 7 0
def sqeCid (e : Sqe) : Nat := sqeBits e 31 16
def sqePsdt (e : Sqe) : Nat := sqeBits e 15 14
def sqeNsid (e : Sqe) : Nat := dword e 1
def sqeMptr (e : Sqe) : Nat := sqeBits e 191 128
def sqePrp1 (e : Sqe) : Nat := sqeBits e 255 192
def sqePrp2 (e : Sqe) : Nat := sqeBits e 319 256
/-- SLBA: CDW10 and CDW11. -/
def sqeSlba (e : Sqe) : Nat := sqeBits e 383 320
/-- NLB: CDW12 [15:0] plus 1. -/
def sqeNlb (e : Sqe) : Nat := dword e 12 % 65536 + 1

def ctxGet (c : Nat) (s : State) : Ctx := tget {} s.qe.ctxs c
def ctxSet (c : Nat) (x : Ctx) (s : State) : State := { s with qe := { s.qe with ctxs := tset {} c x s.qe.ctxs } }
def ctxMod (c : Nat) (g : Ctx → Ctx) (s : State) : State := ctxSet c (g (ctxGet c s)) s

/-- A command whose completion entry still waits holds its context (R79). -/
def ctxHeld (c : Nat) (s : State) : Bool := s.fns.any fun e => e.2.waitCpl.any (·.ctx = c)
/-- Contexts in use (R79, R108 QEN_INFLIGHT). -/
def inFlight (s : State) : Nat := s.qe.ctxs.length + (s.fns.map fun e => e.2.waitCpl.length).foldl (· + ·) 0
/-- Contexts that a function's commands hold; with `io`, its I/O commands only (R437 SLOTS). -/
def fnInFlight (f : Nat) (io : Bool) (s : State) : Nat :=
  (s.qe.ctxs.filter fun c => c.2.fn = f && (!io || c.2.sq ≠ 0)).length +
  ((fnGet f s).waitCpl.filter fun e => !io || e.sq ≠ 0).length

def nsGet (n : Nat) (s : State) : Namespace := tget {} s.nss n
def nsSet (n : Nat) (x : Namespace) (s : State) : State := { s with nss := tset {} n x s.nss }

/-- Bytes of a logical block of a namespace (R73). -/
def nsBlock (x : Namespace) : Nat := if x.lbaf = 0 then 4096 else 16384
/-- Granules of 4 KiB in a logical block. -/
def nsGran (x : Namespace) : Nat := nsBlock x / 4096
/-- Size of a namespace in logical blocks. -/
def nsBlocks (x : Namespace) : Nat := x.units * 16384 / nsBlock x
/-- The map index of granule `g` of a namespace (R150). -/
def nsUnit (x : Namespace) (g : Nat) : Nat := 65536 * x.base + g / 4

/-- A namespace is active and attached to a function's controller. -/
def nsVisible (f n : Nat) (s : State) : Bool := (nsGet n s).active && (nsGet n s).attached.contains f

/-- A Format NVM or a namespace delete that was fetched before order `order` on a namespace has not ended: later commands on the
namespace wait for it (R88), and find the namespace as it leaves it. -/
def nsHeld (n order : Nat) (s : State) : Bool :=
  s.qe.ctxs.any fun e => e.2.sq = 0 && e.2.order < order && (sqeNsid e.2.sqe = n || sqeNsid e.2.sqe = 0xFFFFFFFF) &&
    (sqeOp e.2.sqe = 0x80 || (sqeOp e.2.sqe = 0x0D && dword e.2.sqe 10 % 16 = 1))

/-- An extent of `nlb` blocks from `slba` in granules of the map (4 × map index + granule): first granule and granules. -/
def nsExtent (x : Namespace) (slba nlb : Nat) : Nat × Nat := (262144 * x.base + slba * nsGran x, nlb * nsGran x)

/-- Memory page size of a controller: CC.MPS (R72). -/
def pageSize (f : Nat) (s : State) : Nat := 2 ^ (12 + bits (fnGet f s).cc.toNat 10 7)

/-- What a data pointer comes to. -/
inductive Dptr where
  /-- Segments in data order: address and length. -/
  | segs (l : List (Nat × Nat))
  /-- The list in host memory has to be read first: its address. -/
  | list (addr : Nat)
  /-- The pointer is refused with a status. -/
  | bad (st : Status)
deriving DecidableEq, Repr

/-- Segments of `n` bytes over the pages of a PRP list. -/
def prpSegs (ps : Nat) : List Nat → Nat → List (Nat × Nat)
  | [], _ => []
  | p :: l, n => if n = 0 then [] else (p, min ps n) :: prpSegs ps l (n - min ps n)

/-- SGL data block descriptors of a list: type 0 data, type 1 bit bucket (skipped on writes to the host); segment
descriptors at the end only chain and are passed over. -/
def sglSegs : Nat → Bytes → List (Nat × Nat)
  | 0, _ => []
  | fuel + 1, b =>
    if b.length < 16 then []
    else
      let t := leAt b 15 1 / 16
      if t = 0 then (leAt b 0 8, leAt b 8 4) :: sglSegs fuel (b.drop 16) else sglSegs fuel (b.drop 16)

/-- Cuts segments to `n` bytes in all. -/
def cutSegs : List (Nat × Nat) → Nat → List (Nat × Nat)
  | [], _ => []
  | (a, k) :: l, n => if n = 0 then [] else (a, min k n) :: cutSegs l (n - min k n)

/-- The data pointer of a command for `n` bytes (R72: PRPs, and SGLs for I/O commands): PSDT 0 PRPs, 1 and 2 an SGL. Data
shorter than the command implies is refused (R106). -/
def dptr (c : Ctx) (n : Nat) (s : State) : Dptr :=
  let ps := pageSize c.fn s
  let e := c.sqe
  if n = 0 then .segs []
  else if sqePsdt e ≠ 0 then
    if c.sq = 0 then .bad stField
    else
      let t := sqeBits e 319 316
      let one := [(sqeBits e 255 192, sqeBits e 287 256)]
      if t = 0 then (if sqeBits e 287 256 < n then .bad stSglLength else .segs (cutSegs one n))
      else if t = 2 || t = 3 then
        if !c.gotList then .list (sqeBits e 255 192)
        else
          let l := sglSegs (c.list.length / 16 + 1) c.list
          if (l.map Prod.snd).foldl (· + ·) 0 < n then .bad stSglLength else .segs (cutSegs l n)
      else .bad stField
  else
    let p1 := sqePrp1 e
    let p2 := sqePrp2 e
    let k := min n (ps - p1 % ps)
    if p1 % 4 ≠ 0 then .bad stPrpOffset
    else if n ≤ k then .segs [(p1, n)]
    else if n - k ≤ ps then (if p2 % ps ≠ 0 then .bad stPrpOffset else .segs [(p1, k), (p2, n - k)])
    else if !c.gotList then .list p2
    else
      let l := (chunks 8 (c.list.length / 8 + 1) c.list).map leNat
      if l.any fun p => p % ps ≠ 0 then .bad stPrpOffset else .segs ((p1, k) :: prpSegs ps l (n - k))

/-- Pieces of the byte range [off, off + n) of a segment list: address and length. -/
def segPieces : List (Nat × Nat) → Nat → Nat → List (Nat × Nat)
  | [], _, _ => []
  | (a, k) :: l, off, n =>
    if n = 0 then []
    else if k ≤ off then segPieces l (off - k) n
    else
      let m := min (k - off) n
      (a + off, m) :: segPieces l 0 (n - m)

/-- Sends bytes of a command's data to its host buffer at offset `off` (R65, R437, R453). -/
def sendData (c : Ctx) (total off : Nat) (bs : Bytes) (poison : Bool) (s : State) : State :=
  match dptr c total s with
  | .segs l =>
    let ps := segPieces l off bs.length
    (ps.foldl (fun (q : Nat × State) p =>
      (q.1 + p.2, hostWrite c.fn p.1 ((bs.drop q.1).take p.2) poison false q.2)) (0, emit (.data c.fn c.sq c.cid off bs poison) s)).2
  | _ => s

/-- Releases a context's guard entries, 3c to 3c + 2 (R85). -/
def guardFree (c : Nat) (s : State) : State :=
  let t := s.qe.guard_
  { s with qe := { s.qe with guard_ := tset none (3 * c) none (tset none (3 * c + 1) none (tset none (3 * c + 2) none t)) } }

/-- The reads of a command that is over go with it: those in a die's queue are dropped, one that runs or is under recovery ends for
nobody. -/
def readsCut (c : Nat) (m : Media) : Media :=
  let cut (r : FlashRead) : FlashRead := if r.ctx = some c then { r with ctx := none } else r
  { m with reads := m.reads.filter fun r => r.ctx ≠ some c,
           dies := m.dies.map fun e => (e.1, { e.2 with read := e.2.read.map cut }),
           rebuilds := m.rebuilds.map fun b => { b with reads := b.reads.map cut } }

/-- Removes a context without a completion: a squash (R94), or the end of a finished command. -/
def ctxFree (c : Nat) (s : State) : State :=
  guardFree c { s with qe := { s.qe with ctxs := tdel c s.qe.ctxs }, media := readsCut c s.media }

/-- Counts what a status means to the controller's logs: Unrecovered Read Errors (R144), the Error log page (R76). -/
def countStatus (c : Ctx) (st : Status) (s : State) : State :=
  if st = stOk then s
  else
    let s1 := errPush c.fn { sq := c.sq, cid := c.cid, st := st, lba := if c.sq = 0 then 0 else sqeSlba c.sqe, nsid := sqeNsid c.sqe } s
    if st = stReadError then fnMod c.fn (fun x => { x with mediaErrs := x.mediaErrs + 1 }) s1 else s1

/-- Portion Refused results of a function within 256 bolts (R456): at REFUSE_LIMIT event 0x6104, and a fence when the POLICY
asks for one; the count starts afresh. -/
def countRefusal (f : Nat) (s : State) : State :=
  let p := portionOf f s
  let l := ((fnGet f s).refuseBolts.filter fun b => boltN s < b + 256) ++ [boltN s]
  let s1 := regAdd (pgFun f + 0x230) 1 s
  if l.length < p.refuseLimit then fnMod f (fun x => { x with refuseBolts := l }) s1
  else
    let s2 := s1 |> fnMod f (fun x => { x with refuseBolts := [] }) |> note 0x6104 (pgFun f) f
    if bit p.policy 2 && bit (regGet (pgFun f + 0x040) s2) 0 && !errMasked 0x6104 (pgFun f) s2
    then fencePage (pgFun f) 0x6104 false s2 else s2

/-- Ends a command: its completion entry with two result dwords; its context is free once that is written (R79, R90). -/
def finishDw (c : Nat) (st : Status) (dw0 dw1 : Nat) (s : State) : State :=
  let x := ctxGet c s
  if !x.used then s
  else
    let s1 := s |> ctxFree c |> countStatus x st
    let wrote := x.cls = 2 && st = stOk
    let s2 := postCpl x.fn { sq := x.sq, cid := x.cid, st := st, dw0 := BitVec.ofNat 32 dw0, dw1 := BitVec.ofNat 32 dw1, ctx := c,
                             nsid := if wrote then x.nsid else 0, seq := if wrote then x.seq else 0 } s1
    if st = vsPortion then countRefusal x.fn s2 else s2

/-- Ends a command with a status. -/
def finish (c : Nat) (st : Status) (s : State) : State := finishDw c st 0 0 s

/-- Posts an asynchronous event on a controller (R509): to an outstanding request, else held; a masked type is held, at most
one for each type and information. -/
def postAev (f : Nat) (e : Aev) (s : State) : State :=
  let x := fnGet f s
  let hold := if x.held.any fun h => h.type = e.type && h.info = e.info then x.held else x.held ++ [e]
  if x.maskedEvs.any fun m => m.type = e.type then fnSet f { x with held := hold } s
  else match x.aers with
    | [] => fnSet f { x with held := hold } s
    | c :: rest =>
      s |> fnSet f { x with aers := rest, maskedEvs := x.maskedEvs ++ [e] }
        |> finishDw c stOk (e.type + 256 * e.info + 65536 * e.page) 0

/-- Posts what can be posted of a controller's held events. -/
def drainAev (f : Nat) (s : State) : State :=
  let l := (fnGet f s).held
  l.foldl (fun s e => postAev f e s) (fnMod f (fun x => { x with held := [] }) s)

/-- A SMART/Health event of a critical warning bit, on every controller that enables it (R509): type 1, page 0x02. -/
def smartEvent (b info : Nat) (s : State) : State :=
  (List.range 128).foldl (fun s f =>
    let x := fnGet f s
    if fnPresent f s && x.rdy && bit x.aec.toNat b then postAev f { type := 1, info := info, page := 0x02 } s else s) s

/-- A Vendor Specific event (type 7) with an information value and a log page on a controller (R509). -/
def vendorEvent (f info page : Nat) (s : State) : State :=
  if fnPresent f s && (fnGet f s).rdy then postAev f { type := 7, info := info, page := page } s else s

end Sys2Proof.Machine
end

