-- ==== Sys2Proof/Machine/Keys.lean ====
section
/-!
DEFINITION. Key slots with their usage limits (R268 to R270) and the keyed-check engines (R267, R271, R272).
-/
namespace Sys2Proof.Machine

/-! ### Key slots -/

def keyGet (k : Nat) (s : State) : KeySlot := tget {} s.keys k

/-- Writes a key slot and its copy in the control area (R270). -/
def keyPut (k : Nat) (x : KeySlot) (s : State) : State :=
  let y : KeySlot := { x with used := 0 }
  let q := copyStore (areaKey k) y (tget {} s.die.keyCopies k) s.die
  let d := areaClean q.2 4 s.die
  { s with keys := tset {} k x s.keys, die := { d with keys := tset {} k y d.keys, keyCopies := tset {} k q.1 d.keyCopies } }

/-- Records USED in the control area: 0 or the last multiple of 2^16 crossed (R270). -/
def keyRecord (k used : Nat) (s : State) : State :=
  let n := used / 65536 * 65536
  let q := copyStore (areaUsed k) n (tget {} s.die.usedCopies k) s.die
  let d := areaClean q.2 1 s.die
  { s with die := { d with usedRec := tset 0 k n d.usedRec, usedCopies := tset {} k q.1 d.usedCopies } }

/-- What the control area says of the key slots (R162, R270): a slot of which no copy can be read is RETIRED, as one of whose recorded USED
none can (R281). -/
def keysStored (d : JnlDie) : JnlDie :=
  let bad (k : Nat) : Bool := let c := tget {} d.usedCopies k; c ≠ {} && (copyNewest (areaUsed k) c d).isNone
  let ks := copiesLoad {} { state := .retired } areaKey d.keyCopies d
  { d with keys := ks.foldl (fun q e => tset {} e.1 (if bad e.1 then { state := .retired } else e.2) q) [],
           usedRec := copiesLoad 0 0 areaUsed d.usedCopies d }

/-- Retires a key at its limit: the key is erased, event 0x3481 (R269). -/
def keyRetire (k : Nat) (s : State) : State :=
  s |> keyPut k { state := .retired } |> note 0x3481 (pgKck 0) k

/-- Uses a key for `n` CMAC blocks, if its limit allows (R269); a refusal retires it. USED reaching LIMIT − LIMIT ÷ 16
raises 0x3482 and the asynchronous event. -/
def keyUse (k n : Nat) (s : State) : Bool × State :=
  let x := keyGet k s
  if x.limit < x.used + n then (false, keyRetire k s)
  else
    let u := x.used + n
    let warn := x.limit - x.limit / 16
    let s1 := { s with keys := tset {} k { x with used := u } s.keys }
    let s2 := if u / 65536 ≠ x.used / 65536 then keyRecord k u s1 else s1
    (true, if x.used < warn && warn ≤ u then s2 |> note 0x3482 (pgKck 0) k |> vendorEvent 0 0x01 0xC1 else s2)

/-- The bytes of a key. -/
def keyBytes (x : KeySlot) : Bytes := natLe 32 x.key.toNat

/-- The ACTIVE key of a role and an owner. -/
def keyOf (role owner : Nat) (s : State) : Option Nat :=
  (List.range 32).find? fun k => let x := keyGet k s; x.state = .active && x.role = role && x.owner = owner

/-- Slots reload from the control area when firmware boots; USED resumes at the recorded value plus 2^16, a
multiple that it thereby crosses, so the control area records it (R270; DEDUCED, log entry 110). -/
def keyReload (s0 : State) : State :=
  let s := { s0 with die := keysStored s0.die }
  let next (k : Nat) : Nat := tget 0 s.die.usedRec k + 65536
  let s1 := { s with keys := s.die.keys.map fun e => (e.1, if e.2.state = .active then { e.2 with used := next e.1 } else e.2) }
  s.die.keys.foldl (fun t e => if e.2.state = .active then keyRecord e.1 (next e.1) t else t) s1

/-- An uncorrectable key slot (R281): reloaded from the control area, or erased and RETIRED when that copy fails too: `copyOk` tells of
the reading, beside what the stored words say. -/
def keyBad (k : Nat) (copyOk : Bool) (s : State) : State :=
  let x := keyGet k s
  let c := tget {} s.die.keyCopies k
  let s1 := if copyOk && (c = {} || (copyNewest (areaKey k) c s.die).isSome) then { s with keys := tset {} k { tget {} s.die.keys k with used := x.used } s.keys }
            else keyPut k { state := .retired } s
  note 0x3402 (pgKck 0) k s1

/-! ### Keyed-check engines -/

/-- Fields of a keyed-check descriptor (R271). -/
def kdOp (d : Bytes) : Nat := leAt d 0 1
def kdSlot (d : Bytes) : Nat := leAt d 3 1 % 32

/-- The acceptance checks of R272: alignment, the descriptor, the addresses. -/
def kdCheck (a : Nat) (j : EngJob) (s : State) : Nat :=
  let d := j.desc
  let inL := (edIn d).isSome
  if (!inL && edSrc d % 64 ≠ 0) || edDst d % 64 ≠ 0 then 0x01
  else if kdOp d = 0 || 2 < kdOp d || clearN (leAt d 1 1) 0x1C ≠ 0 || 128 ≤ leAt d 2 1 || 32 ≤ leAt d 3 1 ||
      leAt d 4 4 ≠ 0 || leAt d 0x1F 1 ≠ 0 || leAt d 0x22 14 ≠ 0 || 1 < edSrcSpace d || 1 < edDstSpace d ||
      !edLineOk a (leAt d 0x1E 1) true s || (inL && edSrcSpace d ≠ 0) then 0x0B
  else if (!inL && !edRange a j (edSrcSpace d) (edSrc d) (cdiv (edSrcLen d) 64 * 64) s) ||
      !edRange a j (edDstSpace d) (edDst d) 64 s then 0x05
  else 0

/-- The slot may serve the job (R268): PARTY keys firmware only, DATA keys firmware and the owner's programs, GENERATE under
DATA only with GEN; COMMAND keys no job. -/
def kdMayUse (j : EngJob) (s : State) : Bool :=
  let x := keyGet (kdSlot j.desc) s
  x.state = .active &&
  ((x.role = 1 && fromFw j.prog) ||
   (x.role = 2 && (fromFw j.prog || x.owner = leAt j.desc 2 1 % 128) && (kdOp j.desc = 2 || x.gen)))

/-- The job starts: its key is checked and its blocks are charged (R269). -/
def kdStart (a : Nat) (j : EngJob) (s : State) : State :=
  let n := cmacBlocks (edSrcLen j.desc)
  if !kdMayUse j s then engStop a j 0x04 (noResult 0) s
  else
    let (ok, s1) := keyUse (kdSlot j.desc) n s
    if !ok then engStop a j 0x04 (noResult 0) s1
    else engJobSet a { j with left := some 0 } (regAdd (engPage a + 0x118) n s1)

/-- Takes up the work on a keyed-check job's input up to its position: 32 to 40 clocks a block, as the random rounds fall (R267). -/
def kdWork (j : EngJob) (s : State) : EngJob × State :=
  let total := if j.inDone && j.pos = j.inp.length then cmacBlocks j.inp.length else j.pos / 16
  let n := total - j.clk
  let (k, s1) := draw s
  ({ j with left := some (32 * n + Config.freeChoice k % (8 * n + 1)), clk := total }, s1)

/-- A keyed-check job whose clocks have run (R271): GENERATE writes the tag and 48 zero bytes, VERIFY reports PASS. -/
def kckFinish (a : Nat) (j : EngJob) (s : State) : State :=
  let d := j.desc
  let x := keyGet (kdSlot d) s
  if (edIn d).isSome && j.inp.length ≠ edSrcLen d then engStop a j 0x02 (noResult 0) s
  else if x.state ≠ .active then engStop a j 0x04 (noResult 0) s
  else
    let tag := cmac (keyBytes x) (j.inp.take (edSrcLen d))
    if kdOp d = 1 then
      match engWrite a (edDstSpace d) (edDst d) (padTo 64 tag) s with
      | none => engStop a j 0x08 (noResult 0) (errResp (engMem a (edDstSpace d) s) s)
      | some (true, s1) => engStop a j 0x07 (noResult 0) s1
      | some (false, s1) => engStop a j 0x00 (noResult 0) (warpMove (engPort a) (engMem a (edDstSpace d) s) 64 s1)
    else
      match memRead (edDstSpace d) (edDst d) 16 s with
      | none => engStop a j 0x08 (noResult 0) (errResp (engMem a (edDstSpace d) s) s)
      | some (bs, poison) =>
        let s := s |> memMet (engBy a s) (edDstSpace d) (edDst d) 16 |> warpMove (engMem a (edDstSpace d) s) (engPort a) 16
        if poison then engStop a j 0x06 (noResult 0) s
        else
          let pass := bs = tag
          s |> regAdd (engPage a + (if pass then 0x128 else 0x130)) 1
            |> engStop a j 0x00 (natLe 1 (128 + b2n pass) ++ zeros 14)

/-- KCK_GENERATE (R271): engine `eng` accepts a GENERATE, or a descriptor with an undefined operation. -/
def execKckGenerate (eng : Nat) (s : State) : Host.Outcome State Fault Refusal :=
  if eng < 2 then .next (engAccept (0x54 + eng) (fun d => kdOp d ≠ 2) (kdCheck (0x54 + eng)) s) else .fault .noSuchUnit
/-- KCK_VERIFY (R271). -/
def execKckVerify (eng : Nat) (s : State) : Host.Outcome State Fault Refusal :=
  if eng < 2 then .next (engAccept (0x54 + eng) (fun d => kdOp d = 2) (kdCheck (0x54 + eng)) s) else .fault .noSuchUnit
/-- KCK_JOB_END (R272). -/
def execKckJobEnd (eng : Nat) (s : State) : Host.Outcome State Fault Refusal :=
  if eng < 2 then .next (engEnds (0x54 + eng) s) else .fault .noSuchUnit
/-- KCK_TAIL_ADVANCE (R271): a write of `KCK_TAIL`. -/
def execKckTailAdvance (eng : Nat) (value : W32) (s : State) : Host.Outcome State Fault Refusal :=
  engRow eng 0x54 2 (fun a => engTail a value.toNat) s
/-- KCK_STOP (R282): a write of `KCK_CTL`. -/
def execKckStop (eng : Nat) (value : W32) (s : State) : Host.Outcome State Fault Refusal :=
  engRow eng 0x54 2 (fun a => engCtl a value.toNat) s
/-- KCK_FLUSH (R282): a write of `KCK_CTL` with FLUSH set. -/
def execKckFlush (eng : Nat) (value : W32) (s : State) : Host.Outcome State Fault Refusal :=
  engRow eng 0x54 2 (fun a => engCtl a (setBit value.toNat 1 true)) s

end Sys2Proof.Machine
end

