-- ==== Sys2Proof/Machine/Crc.lean ====
section
/-!
DEFINITION. CRC-32C (Castagnoli, reflected polynomial 0x82F6_3B78, start and final XOR all ones): the check of the boot
area (R483), images, journal pages, checkpoints and rosters.
-/
namespace Sys2Proof.Machine

/-- One bit of the reflected CRC register. -/
def crcBit (c : Nat) : Nat := if c % 2 = 1 then Nat.xor (c / 2) 0x82F63B78 else c / 2

/-- One byte of the register, without the start and final XOR: the CRC32C step. -/
def crcByte (c : Nat) (b : Byte) : Nat :=
  (List.range 8).foldl (fun c _ => crcBit c) (Nat.xor c b.toNat)

/-- The register after a byte string. -/
def crcRun (c : Nat) : Bytes → Nat
  | [] => c
  | b :: bs => withNat (crcByte c b) fun d => crcRun d bs

/-- CRC-32C of a byte string. -/
def crc32c (bs : Bytes) : Nat := Nat.xor (crcRun 0xFFFFFFFF bs) 0xFFFFFFFF

end Sys2Proof.Machine
end

