-- ==== Sys2Proof/Machine/Unit.lean ====
section
/-!
DEFINITION. Units as they stand on the media (R118 to R120, R122): the 64 bytes of unit metadata, pages with four granules, the XOR of
units; and granules as they stand in the Hamper, in staging slots and in the accumulators of die parity (R188).
-/
namespace Sys2Proof.Machine

/-! ### Unit metadata (R120) -/

/-- What the metadata of a unit says. -/
structure UnitMeta where
  lun : Nat := 0
  nsIdx : Nat := 0
  seq : Nat := 0
  /-- Granule poison mask. -/
  mask : Nat := 0
  slc : Bool := false
  cfs : Bool := false
  stream : Nat := 0
  sbSeq : Nat := 0
  stripe : Nat := 0
deriving DecidableEq, Repr

/-- The 64 bytes of unit metadata. -/
def metaBytes (m : UnitMeta) : Bytes :=
  let b := natLe 8 (m.lun % 2 ^ 36 + m.nsIdx % 1024 * 2 ^ 36) ++ natLe 8 m.seq ++
    natLe 4 (m.mask % 16 + 16 * b2n m.slc + 32 * b2n m.cfs + 64 * (m.stream % 8)) ++ natLe 4 m.sbSeq ++ natLe 8 m.stripe ++ zeros 28
  b ++ natLe 4 (crc32c b)

/-- The metadata of a page; a page without bytes has all-zero metadata. -/
def Page.mbytes (p : Page) : Bytes := padTo 64 p.um
/-- The metadata's CRC is right (R120): the unit counts as written in a rebuild of the map. A pad unit's fails (R123). -/
def Page.metaOk (p : Page) : Bool := !p.um.isEmpty && leAt p.mbytes 0x3C 4 = crc32c (p.mbytes.take 0x3C)
def Page.lun (p : Page) : Nat := bits (leAt p.um 0 8) 35 0
def Page.nsIdx (p : Page) : Nat := bits (leAt p.um 0 8) 45 36
def Page.seq (p : Page) : Nat := leAt p.um 8 8
def Page.flags (p : Page) : Nat := leAt p.um 0x10 4
def Page.slc (p : Page) : Bool := bit p.flags 4
def Page.cfs (p : Page) : Bool := bit p.flags 5
def Page.stream (p : Page) : Nat := bits p.flags 8 6
def Page.sbSeq (p : Page) : Nat := leAt p.um 0x14 4
def Page.stripe (p : Page) : Nat := leAt p.um 0x18 8
/-- A pad unit: all-zero metadata (R123). -/
def Page.pad (p : Page) : Bool := p.um.all (· = 0)

/-- What the metadata of a page says. -/
def Page.info (p : Page) : UnitMeta :=
  { lun := p.lun, nsIdx := p.nsIdx, seq := p.seq, mask := p.flags % 16, slc := p.slc, cfs := p.cfs, stream := p.stream, sbSeq := p.sbSeq,
    stripe := p.stripe }

/-- Granule `g` of a page. -/
def Page.granule (p : Page) (g : Nat) : Granule := if g = 0 then p.g0 else if g = 1 then p.g1 else if g = 2 then p.g2 else p.g3
/-- The granules of a page. -/
def Page.granules (p : Page) : List Granule := [p.g0, p.g1, p.g2, p.g3]
/-- Granules of a page that carry a poison mark. -/
def pagePoison (p : Page) : Nat := b2n p.g0.poison + b2n p.g1.poison + b2n p.g2.poison + b2n p.g3.poison

/-- The poison mask of four granules. -/
def poisonMask (gs : List Granule) : Nat := (gs.take 4).zipIdx.foldl (fun m g => m + b2n g.1.poison * 2 ^ g.2) 0

/-- A page with its granules under metadata bytes: the marks are those of the metadata's poison mask. -/
def pageUnder (m : Bytes) (gs : List Granule) : Page :=
  let k := leAt m 0x10 4
  let g (i : Nat) : Granule := { bytes := (gs.getD i {}).bytes, poison := bit k i }
  { um := m, g0 := g 0, g1 := g 1, g2 := g 2, g3 := g 3 }

/-- A unit's page: the metadata takes the poison mask from the granules (R134). -/
def mkPage (m : UnitMeta) (gs : List Granule) : Page := pageUnder (metaBytes { m with mask := poisonMask gs }) gs

/-! ### Stripes (R122) -/

/-- XOR of two byte strings; an empty one stands for zeros. -/
def xorBytes (a b : Bytes) : Bytes := if a.isEmpty then b else if b.isEmpty then a else List.zipWith (· ^^^ ·) a b

/-- XOR of the data of two units and of their metadata (R122). -/
def xorPage (a b : Page) : Page :=
  let g (i : Nat) : Granule := { bytes := xorBytes (a.granule i).bytes (b.granule i).bytes }
  pageUnder (xorBytes a.um b.um) [g 0, g 1, g 2, g 3]

/-! ### Granules in the Hamper -/

/-- Stores zeros over a range of whole words. -/
def hamZero (off n : Nat) (poison : Bool) (s : State) : State :=
  let out (k z : Nat) : Bool := k * z + z ≤ off || off + n ≤ k * z
  let marks := if poison then (grains 32 off n).foldl (fun t w => tset false w true t) (s.hamPoison.filter fun e => out e.1 32)
               else s.hamPoison.filter fun e => out e.1 32
  let s1 := { s with ham := s.ham.filter fun e => out e.1 1, hamPoison := marks, hamErr := s.hamErr.filter fun e => out e.1 32 }
  if poison then regAdd (pgHam + 0x128) (n / 32) s1 else s1

/-- Stores a granule; one of zeros is cleared at once, unless its words meet other writes. -/
def hamPutGranule (b : HamBy) (off : Nat) (g : Granule) (s : State) : State :=
  if g.bytes.isEmpty && s.hamx.ties.isEmpty then hamZero off 4096 g.poison s else hamWrite b off (padTo 4096 g.bytes) g.poison s

/-- A granule as a reader finds it: a poisoned word poisons it (R195, R197). -/
def hamGranule (off : Nat) (s : State) : Granule :=
  if (s.ham.any fun e => off ≤ e.1 && e.1 < off + 4096) || !(errsIn 32 off 4096 s.hamErr).isEmpty then
    let r := hamRead off 4096 s
    { bytes := r.1, poison := r.2 }
  else { poison := (grains 32 off 4096).any fun w => tget false s.hamPoison w }

/-- Granule `g` of staging slot `k` (R188). -/
def slotGranule (k g : Nat) (s : State) : Granule := hamGranule (slotOffset k s + 4096 * g) s
/-- The four granules of a slot. -/
def slotGranules (k : Nat) (s : State) : List Granule := (List.range 4).map fun g => slotGranule k g s
/-- Stores the granules of a slot that a mask selects. -/
def slotStore (k : Nat) (m : BitVec 4) (gs : List Granule) (s : State) : State :=
  (List.range 4).foldl (fun s g =>
    if bit m.toNat g then hamPutGranule (hamVia 0 s) (slotOffset k s + 4096 * g) (gs.getD g {}) s else s) s

/-! ### The firmware area (R188): its layout is the model's choice (log entry 131) -/

/-- Base of the firmware area. -/
def fwArea (s : State) : Nat := (region 1 s).1
/-- Accumulator `j` of 48: data, and metadata. -/
def accOffset (j : Nat) (s : State) : Nat := fwArea s + 16384 * j
def accMeta (j : Nat) (s : State) : Nat := fwArea s + 786432 + 64 * j
/-- Record `i` of the 64 of the journal record buffer (R160). -/
def winOffset (i : Nat) (s : State) : Nat := fwArea s + 790528 + 16 * i
/-- Chunk buffers, by stripe stream and slot (R197). -/
def chunkOffset (k : Nat) (s : State) : Nat := fwArea s + 1048576 + 65536 * k

/-- An accumulator as it is read. -/
def accPage (j : Nat) (s : State) : Page :=
  let m := hamRead (accMeta j s) 64 s
  pageUnder (if m.1.all (· = 0) then [] else m.1) ((List.range 4).map fun g => hamGranule (accOffset j s + 4096 * g) s)
/-- Some word of an accumulator is poisoned. -/
def accBad (j : Nat) (s : State) : Bool :=
  (hamRead (accMeta j s) 64 s).2 || ((List.range 4).any fun g => (hamGranule (accOffset j s + 4096 * g) s).poison)
/-- Stores an accumulator. -/
def accPut (j : Nat) (p : Page) (s : State) : State :=
  (List.range 4).foldl (fun s g => hamPutGranule (hamVia 1 s) (accOffset j s + 4096 * g) { bytes := (p.granule g).bytes } s)
    (hamWrite (hamVia 1 s) (accMeta j s) p.mbytes false s)

end Sys2Proof.Machine
end

