-- ==== Sys2Proof/Machine/Journal.lean ====
section
/-!
DEFINITION. The map, write staging and the journal (R150 to R165): map entries and updates, journal records and words, the
ring, control fields, and what a durable word sets off.
-/
namespace Sys2Proof.Machine

/-! ### The map -/

/-- A map entry (R151). -/
def mkEntry (pua : Nat) (valid disc poisoned slc cfs : Bool) : BitVec 40 :=
  BitVec.ofNat 40 (pua % 2 ^ 34 + b2n valid * 2 ^ 34 + b2n disc * 2 ^ 35 + b2n poisoned * 2 ^ 36 + b2n slc * 2 ^ 37 +
    b2n cfs * 2 ^ 38)
def ePua (e : BitVec 40) : Nat := bits e.toNat 33 0
def eValid (e : BitVec 40) : Bool := bit e.toNat 34
def eDisc (e : BitVec 40) : Bool := bit e.toNat 35
def ePoisoned (e : BitVec 40) : Bool := bit e.toNat 36
def eSlc (e : BitVec 40) : Bool := bit e.toNat 37
def eCfs (e : BitVec 40) : Bool := bit e.toNat 38

def mapGet (i : Nat) (s : State) : BitVec 40 := tget 0 s.map i

/-- MAP_ENTRIES: TNVMCAP ÷ 16 KiB (R150). -/
def mapEntries (s : State) : Nat := s.media.tnvmcap.getD 0 * 65536
/-- The segment of an entry (R164). -/
def segOf (i : Nat) : Nat := 5 * i / 33554432
/-- Segments of the map. -/
def segTotal (s : State) : Nat := cdiv (5 * mapEntries s) 33554432
/-- Entries whose first byte lies in a segment: first and count. -/
def segRange (g : Nat) : Nat × Nat :=
  let a := cdiv (33554432 * g) 5
  (a, cdiv (33554432 * (g + 1)) 5 - a)

def segState (g : Nat) (s : State) : SegState := tget .built s.jnl.segs g
def segBuilt (i : Nat) (s : State) : Bool := segState (segOf i) s = .built

/-- Segments in the state BUILDING: at most 4 (R175). -/
def buildingN (s : State) : Nat := (tfind (fun _ x => x = .building) s.jnl.segs).length

/-- Segments begin to be built, promoted ones first, then in ascending order, as long as fewer than 4 are (R173 step 7, R175). -/
def buildNext : Nat → State → State
  | 0, s => s
  | n + 1, s =>
    if !s.jnl.indexed || 4 ≤ buildingN s then s
    else match s.jnl.promoQ with
      | g :: l => buildNext n { s with jnl := { s.jnl with segs := tset .built g .building s.jnl.segs, promoQ := l } }
      | [] => match (tfind (fun _ x => x = .unbuilt) s.jnl.segs).head? with
        | some g => buildNext n { s with jnl := { s.jnl with segs := tset .built g .building s.jnl.segs } }
        | none => s

/-- A command needs a segment that is not built: it joins the promotion queue (R175). -/
def promote (g : Nat) (s : State) : State :=
  if segState g s = .unbuilt then
    buildNext 4 { s with jnl := { s.jnl with segs := tset .built g .queued s.jnl.segs, promoQ := s.jnl.promoQ ++ [g],
                                             promoFrom := tput g (pickN s) s.jnl.promoFrom } }
  else s

/-- NSID of the shard store: namespace index 0x3FD (R150, R406). -/
def storeNsid : Nat := 0x3FE

/-- The namespace that a map index belongs to; the extents of the shard store are namespace index 0x3FD, whose units number
from 0 over the whole map (R406, R411). -/
def nsAt (i : Nat) (s : State) : Option (Nat × Namespace) :=
  if s.mender.extents.contains (i / 65536) then some (storeNsid, tget {} s.nss storeNsid)
  else s.nss.find? fun e => e.2.active && 65536 * e.2.base ≤ i && i < 65536 * e.2.base + e.2.units

/-- A set of extents in granules touches unit `i`. -/
def touches (l : List (Nat × Nat)) (i : Nat) : Bool := l.any fun e => e.2 ≠ 0 && e.1 < 4 * i + 4 && 4 * i < e.1 + e.2
/-- A set of extents in granules holds granule `a`. -/
def holds (l : List (Nat × Nat)) (a : Nat) : Bool := l.any fun e => e.1 ≤ a && a < e.1 + e.2
/-- What a guarded command reads, and what it writes (R84). -/
def readExtents (c : Ctx) : List (Nat × Nat) := if c.cls = 1 then c.extents else c.rextents
def writeExtents (c : Ctx) : List (Nat × Nat) := if c.cls = 2 then c.extents else []

/-- Command `c` writes unit `i`, or may do so: its extents are not known yet (R83, R86). -/
def mayWrite (c : Ctx) (i : Nat) : Bool := c.cls = 2 && (c.open_ || touches c.extents i)
/-- Command `c` reads unit `i`, or may do so. -/
def mayRead (c : Ctx) (i : Nat) : Bool := c.cls ≠ 0 && (c.open_ || touches (readExtents c) i)

/-- Reads in flight that were fetched before sequence number `seq` keep their view of unit `i` (R86, R87). -/
def saveViews (i seq : Nat) (s : State) : State :=
  let e := mapGet i s
  let n := (nsAt i s).elim 0 Prod.fst
  let keep (c : Ctx) : Ctx :=
    if c.used && c.nsid = n && c.seq < seq && mayRead c i && (tget none c.view i).isNone
    then { c with view := tput i (some e) c.view } else c
  { s with qe := { s.qe with ctxs := s.qe.ctxs.map fun p => (p.1, keep p.2) } }

/-! ### The map cache (R153) -/

/-- Sets of 8 lines of 64 bytes, 2,048 a MiB; the cache is on: it has lines, and the Hamper serves (R203). -/
def cacheSets (s : State) : Nat := 2048 * bits (regGet (pgJnl + 0x160) s) 4 0
def cacheOn (s : State) : Bool := cacheSets s ≠ 0 && !fenced pgHam s

/-- Hamper offset of the line that stands in way `w` of set `k`: 8 entries and a tag of 24 bytes. -/
def lineOffset (k w : Nat) (s : State) : Nat := (mapCache s).1 + 64 * (8 * k + w)

/-- The way in which the line of entry `i` stands. -/
def cacheWay (i : Nat) (s : State) : Option Nat :=
  if cacheOn s then ((tget [] s.jnl.cache (i / 8 % cacheSets s)).find? fun e => e.1 = i / 8).map Prod.snd else none

/-- The bytes of a line: 8 entries, and the line's number as its tag (log entry 132). -/
def lineBytes (line : Nat) (s : State) : Bytes :=
  ((List.range 8).flatMap fun k => natLe 5 (mapGet (8 * line + k) s).toNat) ++ natLe 24 line

/-- Drops the line of entry `i`. -/
def cacheDrop (i : Nat) (s : State) : State :=
  let k := i / 8 % cacheSets s
  { s with jnl := { s.jnl with cache := tset [] k ((tget [] s.jnl.cache k).filter fun e => e.1 ≠ i / 8) s.jnl.cache } }

/-- Fetches the line of entry `i` from DRAM into a free way, or into that of the least recently used line. -/
def cacheFill (i : Nat) (s : State) : State :=
  let k := i / 8 % cacheSets s
  let l := tget [] s.jnl.cache k
  let w := ((List.range 8).find? fun w => !(l.any fun e => e.2 = w)).getD (l.getLastD (0, 0)).2
  let s1 := { s with jnl := { s.jnl with cache := tset [] k ((i / 8, w) :: l.filter fun e => e.2 ≠ w) s.jnl.cache } }
  hamWrite (hamVia 1 s) (lineOffset k w s) (lineBytes (i / 8) s) false s1

/-- A lookup that finds its line: the line becomes the most recently used. -/
def cacheHit (i w : Nat) (s : State) : State :=
  let k := i / 8 % cacheSets s
  let l := tget [] s.jnl.cache k
  { s with jnl := { s.jnl with cache := tset [] k ((i / 8, w) :: l.filter fun e => e.1 ≠ i / 8) s.jnl.cache } }
    |> hamMet (hamVia 1 s) (lineOffset k w s) 40 |> regAdd (pgJnl + 0x168) 1

/-- The entry as its cached line holds it. -/
def cachedEntry (i w : Nat) (s : State) : BitVec 40 :=
  BitVec.ofNat 40 (leNat (hamRead (lineOffset (i / 8 % cacheSets s) w s + 5 * (i % 8)) 5 s).1)

/-- A cached line reads as poisoned: it is dropped (R153, R197). -/
def cachePoisoned (i w : Nat) (s : State) : Bool := (hamRead (lineOffset (i / 8 % cacheSets s) w s) 40 s).2

/-- The DRAM holds poison in a range of map entries. -/
def mapPoisoned (a n : Nat) (s : State) : Bool := dramBad (5 * a) (5 * n) s

/-- Reads entry `i` from the DRAM: a miss. None: it is poisoned (R154). -/
def mapFetch (i : Nat) (s : State) : Option (BitVec 40) × State :=
  let s1 := s |> dramMet (5 * i) 5 |> regAdd (pgJnl + 0x170) 1
  if mapPoisoned i 1 s then (none, s1)
  else (some (mapGet i s1), if cacheOn s1 && !mapPoisoned (i / 8 * 8) 8 s1 then cacheFill i s1 else s1)

/-- Reads entry `i`: from its cached line, else from the DRAM. None: the DRAM's copy is poisoned (R153, R154). -/
def mapRead (i : Nat) (s : State) : Option (BitVec 40) × State :=
  match cacheWay i s with
  | none => mapFetch i s
  | some w =>
    if cachePoisoned i w s
    then mapFetch i (cacheDrop i (hamMet (hamVia 1 s) (lineOffset (i / 8 % cacheSets s) w s) 40 s))
    else (some (cachedEntry i w s), cacheHit i w s)

/-- Puts an entry into the DRAM map and into its cached copy (R153). -/
def mapPut (i : Nat) (e : BitVec 40) (s : State) : State :=
  let s1 := { s with map := tset 0 i e s.map }
  match cacheWay i s with
  | none => s1
  | some w => hamWrite (hamVia 1 s) (lineOffset (i / 8 % cacheSets s) w s + 5 * (i % 8)) (natLe 5 e.toNat) false s1

/-! ### Records and words (R157, R158) -/

/-- Records of the ring. -/
def ringN : Nat := 4063232

/-- A record: TYPE, byte 1, bytes 2 and 3, and the rest from byte 4. -/
def jrec (ty b1 h2 rest : Nat) : BitVec 128 :=
  BitVec.ofNat 128 (ty + b1 % 256 * 2 ^ 8 + h2 % 65536 * 2 ^ 16 + rest % 2 ^ 96 * 2 ^ 32)
def recNop : BitVec 128 := jrec 0x00 0 0 0
def recStage (gmask slot txid midx : Nat) : BitVec 128 := jrec 0x01 gmask slot (txid % 2 ^ 32 + midx * 2 ^ 32)
def recDiscard (count txid midx : Nat) : BitVec 128 := jrec 0x02 count 0 (txid % 2 ^ 32 + midx * 2 ^ 32)
def recCommit (recs nsidx txid seq : Nat) : BitVec 128 := jrec 0x03 recs nsidx (txid % 2 ^ 32 + seq * 2 ^ 32)
def recPlace (slot : Option Nat) (entry : BitVec 40) (midx : Nat) : BitVec 128 :=
  jrec 0x04 0 (slot.elim 0 (· + 2 ^ 15)) (entry.toNat + midx * 2 ^ 40)
def recRelease (slot : Nat) : BitVec 128 := jrec 0x05 0 slot 0
def recDump (gmask slot pua : Nat) : BitVec 128 := jrec 0x06 gmask slot pua
def recCkpt (seg start pua : Nat) : BitVec 128 := jrec 0x07 0 seg (start % 2 ^ 32 + pua * 2 ^ 32)
def recSbopen (stream sb seq : Nat) : BitVec 128 := jrec 0x08 stream sb seq
def recSeal (reason slots pick : Nat) : BitVec 128 := jrec 0x09 reason slots (pick * 2 ^ 32)
def recCtrl (field index value : Nat) : BitVec 128 := jrec 0x0A field index (value * 2 ^ 32)

/-- TYPE of a record. -/
def recType (r : BitVec 128) : Nat := r.toNat % 128

/-- Records issued and not yet durable. -/
def jPending (s : State) : Nat := (s.jnl.issued.map fun w => w.recs.length).foldl (· + ·) 0
/-- Position of the next record, as a count since manufacture. -/
def jHead (s : State) : Nat := s.die.head + jPending s
/-- A position as its 32-bit value (R157). -/
def position (n : Nat) : Nat := n % ringN + n / ringN % 1024 * 2 ^ 22
/-- The last position at or before `n` whose 32-bit value is `p`. -/
def positionBefore (n p : Nat) : Nat :=
  let num (q : Nat) : Nat := q % 2 ^ 22 + ringN * (q / 2 ^ 22)
  n - (ringN * 1024 + num (position n) - num p) % (ringN * 1024)
/-- A record as written at position `n`: its LAP bit (R157). -/
def withLap (n : Nat) (r : BitVec 128) : BitVec 128 :=
  if n / ringN % 2 = 1 then BitVec.ofNat 128 (setBit r.toNat 7 true) else r
/-- The record at position `n`, durable or issued. -/
def ringRec (n : Nat) (s : State) : BitVec 128 :=
  if n < s.die.head then tget 0 s.die.ring (n % ringN)
  else (s.jnl.issued.flatMap JWord.recs).getD (n - s.die.head) 0

/-- The ring's tail (R161): the oldest START of any segment's checkpoint and the oldest STAGE of an occupied slot. -/
def jTail (s : State) : Nat :=
  let t := (List.range (segTotal s)).foldl (fun t g => min t (tget (0, 0) s.die.ckpt g).1) (jHead s)
  s.jnl.slots.foldl (fun t e => if e.2.used then min t e.2.pos else t) t

/-- Records between tail and head. -/
def jUsed (s : State) : Nat := jHead s - jTail s

/-- Claims are held at 90 % of the ring until it falls below 85 % (R161). -/
def ringCheck (s : State) : State :=
  if !s.jnl.ringHold && ringN * 90 ≤ jUsed s * 100 then note 0x1287 pgJnl 0 { s with jnl := { s.jnl with ringHold := true } }
  else if s.jnl.ringHold && jUsed s * 100 < ringN * 85 then { s with jnl := { s.jnl with ringHold := false } } else s

/-- Issues one word: two records, a NOP where the second is not needed. New records follow a SEAL record, and `JNL_STATE`.SEALED clears
(R490). -/
def jIssue (recs : List (BitVec 128)) (acts : List JAct) (s : State) : State :=
  let n := jHead s
  let rs := match recs with
    | [a] => [withLap n a, withLap (n + 1) recNop]
    | l => l.zipIdx.map fun p => withLap (n + p.2) p.1
  { s with jnl := { s.jnl with issued := s.jnl.issued ++ [{ recs := rs, acts := acts }] },
           die := { s.die with sealed := s.die.sealed && !s.jnl.indexed } }
    |> regAdd (pgJnl + 0x110) recs.length |> ringCheck

/-- Issues records two to a word; the actions go with the words of their records. -/
def jIssueAll : List (BitVec 128 × List JAct) → State → State
  | [], s => s
  | [a], s => jIssue [a.1] a.2 s
  | a :: b :: l, s => jIssueAll l (jIssue [a.1, b.1] (a.2 ++ b.2) s)

/-- The journal record buffer is read: a record that is poisoned there is built again from the operation it belongs to (R197). -/
def windowMet (n : Nat) (s : State) : State :=
  if n = 0 || fenced pgHam s then s
  else
    let s1 := hamMet (hamVia 1 s) (winOffset 0 s) (16 * n) s
    { s1 with hamPoison := s1.hamPoison.filter fun e => 32 * e.1 + 32 ≤ winOffset 0 s || winOffset 0 s + 16 * n ≤ 32 * e.1,
              hamErr := s1.hamErr.filter fun e => 32 * e.1 + 32 ≤ winOffset 0 s || winOffset 0 s + 16 * n ≤ 32 * e.1 }

/-- Writes the waiting map updates (R160). -/
def jFlush (s : State) : State :=
  let w := s.jnl.window
  windowMet w.length s |> fun s => jIssueAll w { s with jnl := { s.jnl with window := [] } }

/-- A map update's record waits in the Hamper's buffer of at most 64 records (R160). -/
def jWindow (r : BitVec 128) (acts : List JAct) (s : State) : State :=
  let n := s.jnl.window.length
  let s0 := if fenced pgHam s then s else hamWrite (hamVia 1 s) (winOffset n s) (natLe 16 r.toNat) false s
  let s1 := { s0 with jnl := { s0.jnl with window := s0.jnl.window ++ [(r, acts)] } }
  if 64 ≤ n + 1 then jFlush s1 else s1

/-- Counts the records of a segment since its START (R165). -/
def segCount (g n : Nat) (s : State) : State := { s with jnl := { s.jnl with segRecs := tmod 0 g (· + n) s.jnl.segRecs } }

/-- A control value waits to be folded into the control area (R162). -/
def ctlDirty (field index : Nat) (s : State) : State :=
  { s with die := { s.die with ctrlDirty := tput (65536 * field + index) 1 s.die.ctrlDirty } }

/-- Writes a control value that changes often as a CTRL record (R162). -/
def jCtrl (field index value : Nat) (s : State) : State :=
  jIssue [recCtrl field index value] [] (ctlDirty field index s)

/-! ### The control area (R156, R162) -/

/-- The die word of a field's copy A; copy B lies 1 MiB above. The order of the fields is the model's (log entry 133). -/
def ctlWord (field index : Nat) : Nat := 1024 * field + index

/-- A stored word of the journal die as a reader finds it: RS(36,32) (R156, R191). -/
def dieWord (w : Nat) (d : JnlDie) : Bytes × Bool × CwFound := cwRead (tget [] d.errs w) (padTo 32 (tget [] d.ctl w)) false

/-- A field of the control area: version, value, CRC-32C. -/
def ctlBytes (version value : Nat) : Bytes :=
  let b := natLe 4 version ++ natLe 24 value
  b ++ natLe 4 (crc32c b)

/-- Version and value of a copy whose CRC passes. -/
def ctlCopy (w : Nat) (d : JnlDie) : Option (Nat × Nat) :=
  let r := dieWord w d
  if (tget [] d.ctl w).isEmpty || r.2.2 = .uncorrectable || leAt r.1 28 4 ≠ crc32c (r.1.take 28) then none
  else some (leAt r.1 0 4, leAt r.1 4 24)

/-- The newer valid copy of a field: its value and where it stands (R162). -/
def ctlNewest (w : Nat) (d : JnlDie) : Option (Nat × Nat × Nat) :=
  match ctlCopy w d, ctlCopy (32768 + w) d with
  | some a, some b => if a.1 < b.1 then some (32768 + w, b) else some (w, a)
  | some a, none => some (w, a)
  | none, some b => some (32768 + w, b)
  | none, none => none

/-- Updates a field: the copy with the older version is written (R162). -/
def ctlStore (field index value : Nat) (s : State) : State :=
  let w := ctlWord field index
  let (k, v) := match ctlNewest w s.die with
    | some q => (if q.1 = w then 32768 + w else w, q.2.1 + 1)
    | none => (w, 1)
  { s with die := { s.die with ctl := tset [] k (ctlBytes v value) s.die.ctl, errs := tset [] k [] s.die.errs } }

/-- Field 0x04 of a namespace (R162). -/
def ctlNs (x : Namespace) : Nat := if x.active then x.base + x.units * 2 ^ 17 + 2 ^ 53 else 0

/-- The value of a field as the running part knows it: R162's fields, 0x10 the DRAM training values and module identity, 0x11 the
checkpoint directory. -/
def ctlValue (field index : Nat) (d : JnlDie) : Nat :=
  match field with
  | 1 => (tget 0 d.armCtr index).toNat
  | 2 => tget 0 d.seqEnd (index + 1)
  | 3 => b2n d.ro
  | 4 => ctlNs (tget {} d.ns (index + 1))
  | 5 => b2n d.ddrValid
  | 6 => d.slcT + d.slcV * 65536
  | 0x10 => if index = 0 then d.ddrVals else d.ddrModule
  | _ => (tget (0, 0) d.ckpt index).1 + (tget (0, 0) d.ckpt index).2 * 2 ^ 64

/-- The ring head, the tail and the laps at a seal (R162). -/
def ctlSeal (s : State) : State :=
  s |> ctlStore 0x13 0 (s.die.head % 2 ^ 64 + s.die.tail * 2 ^ 64) |> ctlStore 0x14 0 (s.die.head / ringN)

/-- Folds the changed control values into the control area (R162). -/
def ctlFold (s : State) : State :=
  let s1 := s.die.ctrlDirty.foldl (fun s e => ctlStore (e.1 / 65536) (e.1 % 65536) (ctlValue (e.1 / 65536) (e.1 % 65536) s.die) s) s
  { s1 with die := { s1.die with ctrlDirty := [] } }

/-! ### The ring as it is read (R157, R173) -/

/-- A word of the ring cannot be read. -/
def ringBad (n : Nat) (d : JnlDie) : Bool :=
  let w := n % ringN / 2
  match tget [] d.errs (65536 + w) with
  | [] => false
  | l => (cwRead l (natLe 16 (tget 0 d.ring (2 * w)).toNat ++ natLe 16 (tget 0 d.ring (2 * w + 1)).toNat) false).2.2 = .uncorrectable

/-- The record at a durable position ends the scan: uncorrectable, a stale LAP, or a reserved TYPE (R158, R173). -/
def scanStops (n : Nat) (d : JnlDie) : Bool :=
  let r := tget 0 d.ring (n % ringN)
  ringBad n d || (r.toNat / 128 % 2 ≠ n / ringN % 2) || 0x0A < recType r

/-- Where a scan of the ring from position `n` ends: at a record that stops it, at the latest at the last durable word (log entry 134);
the word of a record that stops it is not used. -/
def scanEnd (d : JnlDie) : Nat → Nat → Nat
  | 0, n => n
  | k + 1, n => if scanStops n d then n / 2 * 2 else scanEnd d k (n + 1)

/-- Where a scan of the ring starts: at the sealed tail, as far as the ring still holds it (log entry 134). -/
def scanFrom (d : JnlDie) : Nat := max d.tail (d.head - ringN)

/-- What the control area and the CTRL and CKPT records behind the sealed tail say, by field × 65,536 + index (R162, R173). -/
def ctlTable (d : JnlDie) : Tab Nat :=
  let area := d.ctl.foldl (fun (t : Tab Nat) e =>
    let w := e.1 % 32768
    let f := min 0x11 (w / 1024)
    if 0x13 * 1024 ≤ w then t
    else match ctlNewest w d with
      | some q => tput (65536 * f + (w - 1024 * f)) q.2.2 t
      | none => t) []
  let a := scanFrom d
  (List.range (scanEnd d (d.head - a) a - a)).foldl (fun t k =>
    let v := (tget 0 d.ring ((a + k) % ringN)).toNat
    match v % 128 with
    | 0x0A => tput (65536 * bits v 15 8 + bits v 31 16) (bits v 127 64) t
    | 0x07 => tput (65536 * 0x11 + bits v 31 16) (positionBefore (a + k) (bits v 63 32) + bits v 97 64 * 2 ^ 64) t
    | _ => t) area

/-- The control values that the part finds when it starts with its volatile state lost (R162, R173 steps 1 and 2). -/
def ctlLoad (d0 : JnlDie) : JnlDie :=
  let d := { d0 with tail := ((ctlNewest (ctlWord 0x13 0) d0).elim 0 fun q => q.2.2) / 2 ^ 64 }
  let t := ctlTable d
  let of_ (f : Nat) : List (Nat × Nat) := (t.filter fun e => e.1 / 65536 = f).map fun e => (e.1 % 65536, e.2)
  let one (f i : Nat) : Nat := tget 0 t (65536 * f + i)
  { d with
    armCtr := (of_ 1).foldl (fun q e => tset 0 e.1 (BitVec.ofNat 64 e.2) q) [],
    seqEnd := (of_ 2).foldl (fun q e => tset 0 (e.1 + 1) e.2 q) [],
    ro := one 3 0 % 2 = 1,
    ns := (of_ 4).foldl (fun q e => tset {} (e.1 + 1)
      (if bit e.2 53 then { tget {} d.ns (e.1 + 1) with base := bits e.2 16 0, units := bits e.2 52 17, active := true } else {}) q) [],
    ddrValid := one 5 0 % 2 = 1, slcT := one 6 0 % 65536, slcV := one 6 0 / 65536, ddrVals := one 0x10 0, ddrModule := one 0x10 1,
    ckpt := (of_ 0x11).foldl (fun q e => tset (0, 0) e.1 (e.2 % 2 ^ 64, e.2 / 2 ^ 64) q) [],
    portions := copiesLoad none none areaPortion d.portionCopies d, carves := copiesLoad {} {} areaCarve d.carveCopies d,
    party := (copyNewest areaParty d.partyCopies d).elim {} fun q => q.2.2 }

/-! ### Map updates -/

/-- Applies an update of a map entry, or lets it wait for the rebuild of its segment; `seq` is the sequence number of the
write behind it, 0 for a copy, whose contents no view needs to keep (R86, R160, R176). -/
def mapUpdate (i : Nat) (e : BitVec 40) (seq : Nat) (s : State) : State :=
  if segBuilt i s then
    mapPut i e (if seq = 0 then s else saveViews i seq s)
  else { s with jnl := { s.jnl with late := s.jnl.late ++ [{ midx := i, entry := e, seq := seq }] } }

/-- Records lost granules of a unit, from granule `g` on, in the Error log of the attached controllers and in the Hokuron health log
(R134, R146, R197). -/
def logLost (i g granules : Nat) (s : State) : State :=
  match nsAt i s with
  | none => s
  | some (n, x) =>
    let lba := ((i - 65536 * x.base) * 16384 + 4096 * g) / nsBlock x
    let s1 := { s with media := { s.media with poisonRing := ((n, lba, granules) :: s.media.poisonRing).take 16 } }
    x.attached.foldl (fun s f => errPush f { st := stReadError, lba := lba, nsid := n } s) s1

/-- A segment is to be rebuilt from its checkpoint and the ring up to this moment (R154, R173). -/
def segLose (g : Nat) (s : State) : State :=
  let s1 := jFlush s
  let (a, n) := segRange g
  let keep (e : Nat × Nat) : Bool := segOf (8 * e.1) ≠ g && segOf (8 * e.1 + 7) ≠ g
  { s1 with map := s1.map.filter (fun e => !(a ≤ e.1 && e.1 < a + n)),
            jnl := { s1.jnl with cache := s1.jnl.cache.foldl (fun t e => tset [] e.1 (e.2.filter keep) t) [], segs := tput g .unbuilt s1.jnl.segs, replayTo := tput g (jHead s1) s1.jnl.replayTo, ckpts := tdel g s1.jnl.ckpts } }

/-- A map read from the DRAM that returned poison (R154): the segment is unbuilt and promoted, event 0x1182. Its rebuild writes its
codewords afresh; a checkpoint that copies it is abandoned (R165). -/
def mapPoisonFound (g : Nat) (s : State) : State :=
  let (a, n) := segRange g
  let out (w : Nat) : Bool := 16 * w + 16 ≤ 5 * a || 5 * (a + n) ≤ 16 * w
  { s with dramPoison := s.dramPoison.filter fun e => out e.1, dramErr := s.dramErr.filter fun e => out e.1 }
    |> segLose g |> promote g |> note 0x1182 pgJnl g

/-- Reads entry `i` of a built segment; DRAM poison loses the segment (R153, R154). -/
def mapSeek (i : Nat) (s : State) : Option (BitVec 40) × State :=
  match mapRead i s with
  | (some e, t) => (some e, t)
  | (none, t) => (none, mapPoisonFound (segOf i) t)

/-- Looks an entry up for a command (R153, R154): its segment has to be built. None: the command waits. -/
def mapLook (i : Nat) (s : State) : Option (BitVec 40) × State :=
  if segBuilt i s then mapSeek i s else (none, promote (segOf i) s)

/-- Marks a unit poisoned in the map (R134, R174): the delta is journaled. Of an entry that cannot be read the mark alone is kept. -/
def poisonUnit (i : Nat) (s : State) : State :=
  let (q, t) := if segBuilt i s then mapSeek i s else (none, s)
  let e := BitVec.ofNat 40 (setBit (q.getD 0).toNat 36 true)
  t |> mapUpdate i e 0 |> jWindow (recPlace none e i) [] |> segCount (segOf i) 1 |> regAdd (pgFlc 0 + 0x270) 1

/-- Some earlier write still has to update unit `i`: a slot that is not released, or a write in flight on the same namespace, whose
extents need not be known yet. -/
def earlierWrite (i seq : Nat) (s : State) : Bool :=
  let n := (nsAt i s).elim 0 Prod.fst
  (s.jnl.slots.any fun e => e.2.used && e.2.released.isNone && e.2.midx = i && e.2.seq < seq) ||
  s.qe.ctxs.any fun e => e.2.used && e.2.seq < seq && e.2.nsid = n && mayWrite e.2 i

/-- Applies the discarded units that no earlier write holds up any more, in sequence order (R87, R142). An update that had to
wait is journaled as a PLACE, so that a replay in ring order gives the same map. -/
def applyDiscs : List Disc → State → State
  | [], s => s
  | d :: l, s =>
    if earlierWrite d.midx d.seq s then applyDiscs l s
    else
      let e := mkEntry 0 false true false false false
      applyDiscs l (mapUpdate d.midx e d.seq { s with jnl := { s.jnl with disc := s.jnl.disc.filter (· ≠ d) } }
        |> jWindow (recPlace none e d.midx) [] |> segCount (segOf d.midx) 1)

def discSweep (s : State) : State := applyDiscs s.jnl.disc s

/-! ### Staging slots -/

def slotGet (k : Nat) (s : State) : Slot := tget {} s.jnl.slots k
def slotSet (k : Nat) (x : Slot) (s : State) : State := { s with jnl := { s.jnl with slots := tset {} k x s.jnl.slots } }
def slotMod (k : Nat) (g : Slot → Slot) (s : State) : State := slotSet k (g (slotGet k s)) s

/-- A free slot, the lowest (log entry 6); none while staging is full or unusable. -/
def slotFree (s : State) : Option Nat := (List.range (slotCount s)).find? fun k => !(slotGet k s).used

/-- A read in flight that was fetched before the release still uses a released slot (R87). -/
def slotNeeded (x : Slot) (s : State) : Bool :=
  match x.released with
  | none => true
  | some o => s.qe.ctxs.any fun e => e.2.used && e.2.nsid = x.nsid && e.2.order < o && x.seq < e.2.seq && mayRead e.2 x.midx

/-- Frees the released slots that no read needs. -/
def slotSweep (s : State) : State :=
  { s with jnl := { s.jnl with slots := s.jnl.slots.filter fun e => !(e.2.released.isSome && !slotNeeded e.2 s) } }

/-- The commit word of a transaction has gone to the journal and is not yet acknowledged. -/
def commitIssued (txid : Nat) (s : State) : Bool :=
  s.jnl.issued.any fun w => w.acts.any fun a => match a with
    | .commit _ t _ _ _ => t = txid
    | _ => false

/-- A map index that no unit has: a slot whose data are given up holds it until its RELEASE record is durable (R155). -/
def noUnit : Nat := 2 ^ 33

/-- Discards the staging slots of a write that has not been committed (R90, R91). A transaction whose commit record is already
written is kept. -/
def slotDrop (c : Nat) (s : State) : State :=
  let keep (e : Nat × Slot) : Option (Nat × Slot) :=
    if e.2.ctx = some c && !e.2.committed then
      (if commitIssued e.2.txid s then some (e.1, { e.2 with ctx := none }) else none)
    else some e
  { s with jnl := { s.jnl with slots := s.jnl.slots.filterMap keep } }

/-! ### Durable words -/

/-- What a durable word sets off. -/
def jAct (a : JAct) (s : State) : State :=
  match a with
  | .freeSlot k => s |> slotMod k (fun x => { x with released := some s.qe.order }) |> slotSweep |> discSweep
  | .commit c txid nsid seq last =>
    let mark (x : Slot) : Slot :=
      if x.used && x.txid = txid then { x with committed := true, ctx := none } else x
    let s1 := { s with jnl := { s.jnl with slots := s.jnl.slots.map fun e => (e.1, mark e.2) } }
    let x := ctxGet c s1
    if last && x.used && x.nsid = nsid && x.seq = seq then
      if x.run.isSome || sqeOp x.sqe = 0x91 || sqeOp x.sqe = 0x94 then discSweep (ctxSet c { x with phase := 90 } s1)
      else s1 |> fnMod x.fn (fun q => { q with unitsWritten := q.unitsWritten + x.buf.length })
              |> finishDw c stOk x.dw0.toNat x.dw1.toNat |> discSweep
    else discSweep s1
  | .ckpt g start pua => s |> (fun s => { s with die := { s.die with ckpt := tset (0, 0) g (start, pua) s.die.ckpt } })
      |> ctlDirty 0x11 g |> regAdd (pgJnl + 0x118) 1 |> ringCheck
  | .counter c f o v =>
    { s with die := { s.die with armCtr := tset 0 f v s.die.armCtr } }
      |> ctlDirty 1 f |> ctxMod c (fun x => if x.used && x.armed && x.order = o then { x with armOk := true } else x)
  | .dropSlot k => { s with jnl := { s.jnl with slots := tdel k s.jnl.slots } }

/-- The oldest issued word is durable (R157): its records stand in the ring. -/
def jDurable (s : State) : State :=
  match s.jnl.issued with
  | [] => s
  | w :: rest =>
    let n := s.die.head
    let ring := w.recs.zipIdx.foldl (fun r p => tset 0 ((n + p.2) % ringN) p.1 r) s.die.ring
    let s1 := { s with jnl := { s.jnl with issued := rest },
                       die := { s.die with ring := ring, head := n + w.recs.length, errs := tset [] (65536 + n % ringN / 2) [] s.die.errs } }
    let s2 := if n / ringN < 9000000000 && 9000000000 ≤ (n + w.recs.length) / ringN then note 0x1288 pgJnl 0 s1 else s1
    w.acts.foldl (fun s a => jAct a s) s2

/-- Every issued word becomes durable. -/
def jDrain (s : State) : State := iter s.jnl.issued.length (fun _ s => jDurable s) s

/-- JOURNAL_WORD_DURABLE (R157): the die acknowledges the oldest word; a die that fails is device-fatal (R163). -/
def execJournalWordDurable (ok : Bool) (s : State) : Host.Outcome State Fault Refusal :=
  if s.die.failed || s.jnl.issued.isEmpty || s.jnl.pf = .sealed then .next s
  else if ok then .next (jDurable s)
  else .next (raise 0x1201 pgJnl 0 { s with die := { s.die with failed := true } })

/-- CTRL_FIELD_FOLD (R162): the changed control values are folded into the control area, at most once per 256 bolts; no journal I/O
follows a seal (R167). -/
def execCtrlFieldFold (s : State) : Host.Outcome State Fault Refusal :=
  if !s.die.ctrlDirty.isEmpty && s.die.foldBolt + 256 ≤ boltN s && !s.die.failed && s.jnl.pf ≠ .sealed then
    .next (ctlFold { s with die := { s.die with foldBolt := boltN s } })
  else .next s

/-- A write of `JNL_MAPC_CFG` (R181): the map cache's size and base, from the next pick boundary. -/
def mapcWrite (v : Nat) (s : State) : State :=
  let (m, s1) := mergeRw (pgJnl + 0x160) 31 0 v s
  later (.reg (pgJnl + 0x160) (BitVec.ofNat 64 m)) s1

/-- JNL_MAPC_CFG_WRITE (R181). -/
def execJnlMapcCfgWrite (value : W32) (s : State) : Host.Outcome State Fault Refusal := .next (mapcWrite value.toNat s)

end Sys2Proof.Machine
end

