-- ==== Sys2Proof/Machine/Dies.lean ====
section
/-!
DEFINITION. The flash complex, first part (R112 to R115, R121, R124 to R126, R129, R131, R132, R138 to R140): the die parameter table,
channels, superblocks, spare blocks, streams and the places of units.
-/
namespace Sys2Proof.Machine

/-! ### Dies and the die parameter table -/

/-- The number of die `r` of channel `c`. -/
def dieNo (c r : Nat) : Nat := 16 * c + r
def dieGet (k : Nat) (s : State) : Die := tget {} s.media.dies k
def dieSet (k : Nat) (x : Die) (s : State) : State := { s with media := { s.media with dies := tset {} k x s.media.dies } }
def dieMod (k : Nat) (g : Die → Die) (s : State) : State := dieSet k (g (dieGet k s)) s
def dieType (k : Nat) (s : State) : DieType := tget {} s.media.types (dieGet k s).type
def chanGet (c : Nat) (s : State) : Channel := tget {} s.media.channels c
def chanMod (c : Nat) (g : Channel → Channel) (s : State) : State :=
  { s with media := { s.media with channels := tset {} c (g (chanGet c s)) s.media.channels } }

/-- A die can take part: listed, neither excluded nor retired (R121). -/
def dieOk (k : Nat) (s : State) : Bool := let d := dieGet k s; d.usable && !d.retired && !d.excluded

/-- A channel is fenced, or its quadrant is. -/
def chanFenced (c : Nat) (s : State) : Bool := fenced (pgFch c) s || fenced (pgFlc (c / 8)) s
/-- A channel starts operations: trained, and it and its quadrant accept work (R38, R39). -/
def chanUp (c : Nat) (s : State) : Bool := (chanGet c s).trained && accepts (pgFch c) s && accepts (pgFlc (c / 8)) s

/-- A removal has written its SEAL: until a cancel the part adds nothing to the journal (R489, R490; DEDUCED, log entry 142). -/
def removalSealed (s : State) : Bool := s.svc.removal = .awaiting || s.svc.removal = .ready

/-- The media serves operations: the table is valid, firmware runs, no power-fail sequence, no power state without flash or on its way
out of one, no removal about to happen (R103, R114, R167, R489). -/
def mediaUp (s : State) : Bool :=
  s.media.tableOk && running s && !pfOn s && s.pwr.ps ≠ 4 && s.pwr.wakeAt.isNone && !removalSealed s

/-- A type record (R113). -/
def parseType (b : Bytes) : DieType :=
  { pageBytes := leAt b 0 2, blocks := leAt b 2 2, pagesNative := leAt b 4 2, pagesSlc := leAt b 6 2, planes := leAt b 8 1,
    native := leAt b 9 1, maxBin := leAt b 0xA 1, flags := leAt b 0xB 1, trSlc := leAt b 0xC 2, trNative := leAt b 0xE 2,
    tprogSlc := leAt b 0x10 2, tprogNative := leAt b 0x12 2, tbers := leAt b 0x14 2, tsus := leAt b 0x16 2,
    peSlc := leAt b 0x18 4, peNative := leAt b 0x1C 4, sparePermille := leAt b 0x20 2, retrySets := leAt b 0x22 1,
    tempFeature := leAt b 0x23 1, readDisturb := leAt b 0x24 4, refreshBits := leAt b 0x28 2, tMax := sgn 16 (leAt b 0x2A 2),
    onfiId := BitVec.ofNat 32 (leAt b 0x2C 4) }

/-- A copy of the table passes MAGIC, VERSION, LENGTH and CRC (R112, R114). -/
def tableOk (b : Bytes) : Bool :=
  let n := 0x110 + 128 * leAt b 8 1
  leAt b 0 2 = 0x5044 && leAt b 2 2 = 1 && leAt b 4 4 = n + 4 && n + 4 ≤ b.length && leAt b n 4 = crc32c (b.take n)

/-- The map's nibble of a die (R112). -/
def dieNibble (b : Bytes) (k : Nat) : Nat :=
  let c := k / 16
  let r := k % 16
  bits (leAt b (0x010 + 8 * c + r / 2) 1) (3 + 4 * (r % 2)) (4 * (r % 2))

/-- Spare blocks a die sets aside, and the blocks it contributes to superblocks (R121). -/
def spareBlocks (t : DieType) : Nat := cdiv (t.blocks * t.sparePermille) 1000
def contributed (t : DieType) : Nat := t.blocks - spareBlocks t

/-- A block of the contributed range is replaced from the die's pool; with an empty pool the superblock leaves the die out (R121). -/
def replaceBlock (die block : Nat) (s : State) : State :=
  let d := dieGet die s
  match d.spare with
  | [] =>
    let sb := 4096 * (die % 16) + block
    let x := tget {} s.media.sbs sb
    { s with media := { s.media with retiredBlocks := tput (die * 4096 + block) none s.media.retiredBlocks,
                                     sbs := tset {} sb { x with out := x.out ++ [die / 16] } s.media.sbs } }
  | r :: l =>
    dieSet die { d with spare := l }
      { s with media := { s.media with retiredBlocks := tput (die * 4096 + block) (some r) s.media.retiredBlocks } }

/-- A die that the table lists comes up for the first time: its pool of good spare blocks, and its factory-bad blocks replaced (R121). -/
def dieFirst (k nib : Nat) (t : DieType) (bad : List Nat) (s : State) : State :=
  let mine := (bad.filter fun b => b / 4096 = k).map (· % 4096)
  let pool := (List.range (spareBlocks t)).map (contributed t + ·) |>.filter fun b => !mine.contains b
  (mine.filter (· < contributed t)).foldl (fun s b => replaceBlock k b s)
    (dieMod k (fun d => { d with usable := true, excluded := false, type := nib, spare := pool }) s)

/-- Unused spare blocks of the dies that take part (R138). -/
def spareNow (s : State) : Nat := (s.media.dies.map fun d => if dieOk d.1 s then d.2.spare.length else 0).foldl (· + ·) 0

/-- Takes a valid table: types, dies, OP_PCT, SPARE_THR and the retry sets (R112 to R114, R147, R148). `agree` tells for each
die number whether the die's ID and parameter page agree with the table; `bad` the factory-bad erase blocks, by die × 4,096 + block. A
channel whose dies differ in type takes the RETRY_TABLE of its lowest usable die's type (DESIGN CHOICE, log entry 135). -/
def takeTable (b : Bytes) (agree : List Bool) (bad : List Nat) (s : State) : State :=
  let types := (List.range (min 8 (leAt b 8 1))).map fun i => parseType ((b.drop (0x110 + 128 * i)).take 128)
  let tab := types.zipIdx.foldl (fun t p => tset {} p.2 p.1 t) []
  let first := s.media.dies.isEmpty
  let s1 := { s with media := { s.media with tableOk := true, types := tab } }
  let s2 := (List.range 512).foldl (fun s k =>
    let nib := dieNibble b k
    if nib = 0xF then s
    else if agree.getD k false then
      if first then dieFirst k nib (types.getD nib {}) bad s
      else dieMod k (fun d => { d with usable := true, excluded := false, type := nib }) s
    else note 0x2106 (pgFch (k / 16)) k (dieMod k (fun d => { d with usable := true, excluded := true, type := nib }) s)) s1
  let s3 := if first then { s2 with media := { s2.media with spareInit := spareNow s2, spareLeft := spareNow s2 } } else s2
  let s4 := s3 |> regSetFld (pgFlc 0 + 0x200) 7 0 (leAt b 9 1) |> regSetFld (pgFlc 0 + 0x200) 15 8 (leAt b 0xA 1)
  (List.range 32).foldl (fun s c =>
    match (List.range 16).find? fun r => dieOk (dieNo c r) s with
    | none => s
    | some r =>
      let rec_ := (b.drop (0x110 + 128 * (dieGet (dieNo c r) s).type + 0x30)).take 64
      (List.range 16).foldl (fun s i => regSet (pgFch c + 0x200 + 4 * i) (leAt rec_ (4 * i) 4) s) s) s4

/-- Degraded bring-up (R487): the controllers may report ready, `PWR_BOOT`.DEGRADED reads 1, event 0x8188. -/
def degrade (s : State) : State :=
  if s.boot.phase ≠ .firmware then s
  else { s with boot := { s.boot with phase := .ready, degraded := true } }
    |> regSetFld (pgPwr + 0x10C) 9 9 1 |> note 0x8188 pgPwr 0

/-- DIE_TABLE_VALIDATION (R114): copy A, else copy B, else event 0x2002, no flash complex and degraded mode (R487). Flash power is
on from here (R499). -/
def execDieTableValidation (agree : List Bool) (s : State) (bad : List Nat := []) : Host.Outcome State Fault Refusal :=
  if s.boot.phase ≠ .firmware || s.media.tableOk || fenced pgDdr s || pfOn s then .next s
  else
    let s1 := { s with boot := { s.boot with flPwrEn := true } }
    if tableOk s.boot.dieTableA then .next (takeTable s.boot.dieTableA agree bad s1)
    else if tableOk s.boot.dieTableB then .next (takeTable s.boot.dieTableB agree bad s1)
    else .next (s |> note 0x2002 (pgFlc 0) 0 |> degrade)

/-- The bin a channel trains at first (R115). -/
def binTarget (c : Nat) (s : State) : Nat :=
  let dies := (List.range 16).filter fun r => dieOk (dieNo c r) s
  let bins := dies.map fun r => (dieType (dieNo c r) s).maxBin
  let table := if tableOk s.boot.dieTableA then s.boot.dieTableA else s.boot.dieTableB
  if bit (leAt table 0xB 1) 0 && bit (regGet (pgFch c + 0x100) s) 3 && bins.all (6 ≤ ·) then 6 else bins.foldl min 5

/-- CHANNEL_TRAINING (R115): `bin` is the highest bin at which training succeeds, 0 where none does. -/
def execChannelTraining (chan bin : Nat) (s : State) : Host.Outcome State Fault Refusal :=
  if chan < 32 then
    let t := binTarget chan s
    let b := min bin t
    if !s.media.tableOk || s.boot.phase ≠ .firmware || pfOn s || fenced (pgFch chan) s || !((List.range 16).any fun r => dieOk (dieNo chan r) s) then .next s
    else
      let s1 := if t = 6 && b < 6 then note 0x2089 (pgFch chan) chan s else s
      .next (if b = 0 then raise 0x2101 (pgFch chan) chan (chanMod chan (fun x => { x with trained := false, bin := 0 }) s1)
             else chanMod chan (fun x => { x with trained := true, bin := b }) s1)
  else .fault .noSuchUnit

/-! ### Superblocks -/

/-- Superblock (row, block) by number. -/
def sbRow (sb : Nat) : Nat := sb / 4096
def sbBlock (sb : Nat) : Nat := sb % 4096
def sbGet (sb : Nat) (s : State) : Superblock := tget {} s.media.sbs sb
def sbSet (sb : Nat) (x : Superblock) (s : State) : State := { s with media := { s.media with sbs := tset {} sb x s.media.sbs } }
def sbMod (sb : Nat) (g : Superblock → Superblock) (s : State) : State := sbSet sb (g (sbGet sb s)) s

/-- Channels with a usable die in row `r`. -/
def rowChans (r : Nat) (s : State) : List Nat := (List.range 32).filter fun c => dieOk (dieNo c r) s

/-- Blocks that a row's superblocks use; 0 with fewer than 4 usable dies (R121). Where the dies contribute different numbers, a
superblock has the dies that contribute its block, at least 4 of them (DESIGN CHOICE, log entry 136). -/
def rowBlocks (r : Nat) (s : State) : Nat :=
  (sortBy (fun a b => b ≤ a) ((rowChans r s).map fun c => contributed (dieType (dieNo c r) s))).getD 3 0

/-- All superblocks. -/
def sbList (s : State) : List Nat := (List.range 16).flatMap fun r => (List.range (rowBlocks r s)).map fun b => 4096 * r + b

/-- Channels of a superblock's dies, ascending: the dies left out are not among them (R121), nor those that are fenced. Those of
a superblock in use are those it was opened with. -/
def sbChans (sb : Nat) (s : State) : List Nat :=
  let x := sbGet sb s
  if x.chans.isEmpty then (rowChans (sbRow sb) s).filter fun c =>
    !x.out.contains c && !chanFenced c s && sbBlock sb < contributed (dieType (dieNo c (sbRow sb)) s)
  else x.chans
/-- Planes of a superblock: with dies of several types the least of theirs, and so with the pages (DESIGN CHOICE, log entry 136). -/
def sbPlanes (sb : Nat) (s : State) : Nat :=
  max 1 ((sbChans sb s).foldl (fun m c => min m (dieType (dieNo c (sbRow sb)) s).planes) 4)
/-- Pages per block in the superblock's cell mode. -/
def sbPages (sb : Nat) (native : Bool) (s : State) : Nat :=
  (sbChans sb s).foldl (fun m c =>
    let t := dieType (dieNo c (sbRow sb)) s
    min m (if native then t.pagesNative else t.pagesSlc)) 2048
/-- The channel whose die holds parity, and those that hold data (R122). -/
def sbParity (sb : Nat) (s : State) : Nat := let l := sbChans sb s; l.getD (sbBlock sb % max 1 l.length) 0
def sbData (sb : Nat) (s : State) : List Nat := (sbChans sb s).filter (· ≠ sbParity sb s)
/-- Data units of a superblock. -/
def sbUnitsN (sb : Nat) (native : Bool) (s : State) : Nat := sbPages sb native s * sbPlanes sb s * (sbData sb s).length

/-- A physical unit address (R118). -/
def mkPua (c r plane block page : Nat) : Nat := c * 2 ^ 29 + r * 2 ^ 25 + plane * 2 ^ 23 + block * 2 ^ 11 + page
def puaChan (p : Nat) : Nat := bits p 33 29
def puaDie (p : Nat) : Nat := dieNo (bits p 33 29) (bits p 28 25)
def puaPlane (p : Nat) : Nat := bits p 24 23
def puaBlock (p : Nat) : Nat := bits p 22 11
def puaPage (p : Nat) : Nat := bits p 10 0
def puaSb (p : Nat) : Nat := 4096 * bits p 28 25 + bits p 22 11
/-- The accumulator of a unit's stripe. -/
def puaStripe (p : Nat) : Nat := puaSb p * 16384 + puaPage p * 4 + puaPlane p

/-- The k-th unit of a superblock in program order: page, plane, data die (R123, R165). -/
def sbPua (sb k : Nat) (s : State) : Nat :=
  let ds := sbData sb s
  let n := max 1 ds.length
  let p := sbPlanes sb s
  mkPua (ds.getD (k % n) 0) (sbRow sb) (k / n % p) (sbBlock sb) (k / (n * p))

/-- Map entries whose unit lies where `p` says: index and address. -/
def validUnits (p : Nat → Bool) (s : State) : List (Nat × Nat) :=
  (s.map.filter fun e => eValid e.2 && !eDisc e.2 && !ePoisoned e.2 && p (ePua e.2)).map fun e => (e.1, ePua e.2)
/-- Valid units of a superblock. -/
def sbValid (sb : Nat) (s : State) : List (Nat × Nat) := validUnits (fun p => puaSb p = sb) s

/-- No segment is unbuilt, so background work may run (R176). -/
def allBuilt (s : State) : Bool := s.jnl.indexed && s.jnl.segs.isEmpty

/-- A page of a current checkpoint (R165). -/
def ckptLive (p : Page) (s : State) : Bool :=
  p.nsIdx = 0x3FF && ((tget (0, 0) s.die.ckpt (p.lun / 2048)).1 = p.seq || (tget {} s.jnl.ckpts (p.lun / 2048)).left ≠ 0)

/-- A superblock in use is empty: closed, with no valid unit in the map, none under way to it, no page of a current checkpoint, and no
page that staging still needs (R125, R165, R173). -/
def sbEmpty (sb : Nat) (s : State) : Bool :=
  let x := sbGet sb s
  x.stream.isSome && !x.isOpen && !s.media.standby.contains sb && allBuilt s && (sbValid sb s).isEmpty &&
  !(s.media.placed.any fun e => puaSb e.1 = sb) && !(s.media.programs.any fun g => g.units.any fun u => puaSb u.pua = sb) &&
  !(s.media.pages.any fun e => puaSb e.1 = sb && x.stream = some 1 && ckptLive e.2 s) &&
  !(s.jnl.slots.any fun e => e.2.dumped.any fun p => puaSb p = sb)

/-- Superblocks that a stream can take at once: erased, and no stream holds them. -/
def freeSbs (s : State) : List Nat := (sbList s).filter fun sb => (sbGet sb s).stream.isNone && !s.media.erasing.contains sb
/-- Free superblocks, F of R125: erased, or empty and outside the SLC region. -/
def freeN (s : State) : Nat :=
  (freeSbs s).length + (s.media.sbs.filter fun e => e.2.stream ≠ some 0 && (s.media.erasing.contains e.1 || sbEmpty e.1 s)).length
/-- The raw reserve of R139. -/
def reserveN (s : State) : Nat := cdiv (sbList s).length 100
/-- SLC superblocks held by the HOST stream. -/
def slcHeld (s : State) : Nat := (s.media.sbs.filter fun e => e.2.stream = some 0).length

/-- The erase block of a die that stands for block `b`: the block itself, or the spare that replaced it (R121), by
die × 4,096 + block. -/
def eraseBlock (die b : Nat) (s : State) : Nat := die * 4096 + (tget none s.media.retiredBlocks (die * 4096 + b)).getD b

/-- Erase blocks of a superblock, with the type of each one's die. -/
def sbEraseBlocks (sb : Nat) (s : State) : List (Nat × DieType) :=
  ((sbChans sb s).map fun c => dieNo c (sbRow sb)).map fun k => (eraseBlock k (sbBlock sb) s, dieType k s)

/-- The common denominator of wear: the product of the types' PE_SLC. -/
def wearScale (s : State) : Nat := (s.media.types.map fun t => max 1 t.2.peSlc).foldl (· * ·) 1

/-- Wear of an erase block in wear units times `wearScale` (R132): 1 for a native erase, PE_NATIVE ÷ PE_SLC for an SLC erase. -/
def blockWear (b : Nat × DieType) (s : State) : Nat :=
  let n := tget (0, 0) s.media.wear b.1
  let l := wearScale s
  n.1 * l + n.2 * b.2.peNative * (l / max 1 b.2.peSlc)

/-- Wear of a superblock, the average of its erase blocks', as a fraction. -/
def sbWear (sb : Nat) (s : State) : Nat × Nat :=
  let bs := sbEraseBlocks sb s
  ((bs.map fun b => blockWear b s).foldl (· + ·) 0, max 1 bs.length * wearScale s)

/-- One fraction is less than another. -/
def fracLt (a b : Nat × Nat) : Bool := a.1 * b.2 < b.1 * a.2

/-- The first superblock of a list of which none is `before` another. -/
def sbBest (before : Nat → Nat → Bool) (l : List Nat) : Option Nat :=
  l.foldl (fun (b : Option Nat) sb => match b with
    | none => some sb
    | some q => if before sb q then some sb else b) none

/-- The free superblock with the lowest average wear, the lowest number on a tie (R132). -/
def leastWorn (s : State) : Option Nat := sbBest (fun a b => fracLt (sbWear a s) (sbWear b s)) (freeSbs s)

/-- The most-worn free superblock, the lowest number on a tie (R132). -/
def mostWorn (s : State) : Option Nat := sbBest (fun a b => fracLt (sbWear b s) (sbWear a s)) (freeSbs s)

/-- The part goes read-only (R140, R141). -/
def goReadOnly (s : State) : State :=
  if s.media.ro then s
  else { s with media := { s.media with ro := true }, die := { s.die with ro := true } }
    |> jCtrl 0x03 0 1 |> note 0x6083 pgQen 0 |> smartEvent 3 0x00

/-- No closed native superblock holds an invalid unit (R140). -/
def noInvalid (s : State) : Bool :=
  s.media.sbs.all fun e => !(e.2.native && !e.2.isOpen && e.2.stream.isSome) || (sbValid e.1 s).length = sbUnitsN e.1 true s

/-- Whether a stream may take a superblock now (R125, R129, R139). In read-only state the host data that is still in staging goes
into the reserve (R93, R140). -/
def mayTake (k : Nat) (s : State) : Bool :=
  let f := freeN s
  let urgent := regFld (pgFlc 0 + 0x214) 15 0 s
  let low := regFld (pgFlc 0 + 0x210) 15 0 s
  if k = 1 || k = 2 || k = 4 || (s.media.ro && k ≠ 3) then 0 < f
  else reserveN s < f && urgent < f && (k ≠ 0 || (slcHeld s < s.media.slcT && low ≤ f))

/-- Opens superblock `sb` in a stream (R124, R158 SBOPEN). -/
def openAs (k sb : Nat) (s : State) : State :=
  let n := s.media.nextSbSeq
  let s1 := sbSet sb { stream := some k, isOpen := true, native := 3 ≤ k, sbSeq := n, erased := true, chans := sbChans sb s,
                       out := (sbGet sb s).out } s
  { s1 with media := { s1.media with nextSbSeq := n + 1, standby := s1.media.standby.filter (· ≠ sb) } }
    |> jIssue [recSbopen k sb n] []

/-- Opens a superblock in a stream (R124, R125); the DUMP stream takes a standby one first (R126). -/
def takeSb (k : Nat) (s : State) : Option Nat × State :=
  let pick := if k = 2 then (match s.media.standby with
    | sb :: _ => some sb
    | [] => if mayTake k s then leastWorn s else none)
    else if mayTake k s then leastWorn s else none
  match pick with
  | some sb => (some sb, openAs k sb s)
  | none =>
    if (k = 0 || k = 5 || k = 3) && freeN s ≤ reserveN s && noInvalid s then (none, goReadOnly s)
    else if k = 4 && freeN s = 0 then (none, goReadOnly s) else (none, s)

/-- The open superblock of a stream. -/
def openSb (k : Nat) (s : State) : Option Nat :=
  (s.media.sbs.find? fun e => e.2.stream = some k && e.2.isOpen).map Prod.fst

/-- A unit address is taken: placed, under program or programmed. -/
def puaTaken (p : Nat) (s : State) : Bool :=
  (tget none s.media.placed p).isSome || s.media.pages.any (·.1 = p) ||
  s.media.programs.any fun g => g.units.any (·.pua = p)

/-- The next free position of an open superblock at `k` or above. -/
def nextPlace (sb : Nat) (s : State) : Nat → Nat → Nat
  | 0, k => k
  | fuel + 1, k => if puaTaken (sbPua sb k s) s then nextPlace sb s fuel (k + 1) else k

/-- Page indices of a stream that are open: superblock and page with units under way, or with an accumulator (R122). -/
def openPages (k : Nat) (s : State) : List (Nat × Nat) :=
  let of_ (sb : Nat) : Bool := (sbGet sb s).stream = some k
  let accs := s.media.parity.map fun e => (e.1 / 16384, e.1 % 16384 / 4)
  let placed := s.media.placed.map fun e => (puaSb e.1, puaPage e.1)
  let running := s.media.programs.flatMap fun g => g.units.map fun u => (puaSb u.pua, puaPage u.pua)
  ((accs ++ placed ++ running).filter fun q => of_ q.1).eraseDups

/-- What an attempt to place a unit in an open superblock comes to. -/
inductive Placing where
  /-- It is placed. -/
  | done (t : State)
  /-- The superblock has no room: another one is opened. -/
  | full
  /-- A third page index would open: the unit waits (R122). -/
  | wait
deriving DecidableEq

/-- Places a unit in an open superblock, in program order (R123); the superblock closes when its last unit is placed. -/
def placeIn (sb : Nat) (p : Placed) (s : State) : Placing :=
  let x := sbGet sb s
  let cap := sbUnitsN sb x.native s
  let k := nextPlace sb s (cap - x.placed) x.placed
  let pua := sbPua sb k s
  let l := openPages (x.stream.getD 0) s
  if cap ≤ k then .full
  else if 2 ≤ l.length && !l.contains (sb, puaPage pua) then .wait
  else
    let full := cap ≤ k + 1
    .done ({ s with media := { s.media with placed := tset none pua (some p) s.media.placed } }
      |> sbSet sb { x with placed := k + 1, isOpen := !full, closedBolt := if full then boltN s else x.closedBolt })

/-- A stream's open superblock closes. -/
def closeStream (k : Nat) (s : State) : State :=
  match openSb k s with
  | some sb => sbMod sb (fun x => { x with isOpen := false, closedBolt := boltN s }) s
  | none => s

/-- Places a unit in a superblock that a stream opens for it. -/
def placeFresh (k : Nat) (p : Placed) (s : State) : Option State × State :=
  match takeSb k (closeStream k s) with
  | (some sb, t) => (match placeIn sb p t with
    | .done u => (some u, u)
    | _ => (none, t))
  | (none, t) => (none, t)

/-- Places a unit in a stream, opening a superblock where needed. None: no superblock is to be had, or the unit waits. -/
def placeUnit (k : Nat) (p : Placed) (s : State) : Option State × State :=
  match openSb k s with
  | none => placeFresh k p s
  | some sb => match placeIn sb p s with
    | .done t => (some t, t)
    | .wait => (none, s)
    | .full => placeFresh k p s

/-- The stream cannot place a unit now only because two of its page indices are open. -/
def placeWaits (k : Nat) (s : State) : Bool :=
  match openSb k s with
  | some sb => (match placeIn sb {} s with
    | .wait => true
    | _ => false)
  | none => false

/-! ### Time of a die (R129, R131, R137) -/

/-- A host operation has been queued for the die in this pick, or one waits or runs there: the pick is not idle for it (R131). -/
def dieIdle (k : Nat) (s : State) : Bool :=
  let d := dieGet k s
  d.hostPick ≠ pickN s + 1 && !(d.read.any fun r => r.ctx.isSome) &&
  !(s.media.reads.any fun r => puaDie r.pua = k && r.ctx.isSome) &&
  !(s.media.placed.any fun e => puaDie e.1 = k && (match e.2 with
    | some p => p.move.isNone && !p.parity && p.ckpt.isNone
    | none => false)) &&
  !(s.media.programs.any fun g => g.die = k && g.units.any fun u => !u.slots.isEmpty)

/-- Data of `n` granules and `m` units' metadata cross the switch of a channel's quadrant: 32 beats of 128 bytes for a granule, one for the
metadata (R147; DESIGN CHOICE, log entry 139). -/
def quadBeats (c n m : Nat) (s : State) : State := regAdd (pgFlc (c / 8) + 0x108) (32 * n + m) s

/-- A host operation is queued for a die. -/
def dieHost (k : Nat) (s : State) : State := dieMod k (fun d => { d with hostPick := pickN s + 1 }) s
/-- An internal operation of `n` picks starts on a die. -/
def dieInternal (k n : Nat) (s : State) : State := dieMod k (fun d => { d with intPicks := d.intPicks + n }) s

/-- Fill of the SLC region in percent of T × K (R127): the unfolded SLC data, valid units of the HOST stream's superblocks. -/
def slcFill (s : State) : Nat :=
  let l := s.media.sbs.filter fun e => e.2.stream = some 0
  let used := (l.map fun e => (sbValid e.1 s).length).foldl (· + ·) 0
  let cap := (l.map fun e => sbUnitsN e.1 false s).foldl max 1
  100 * used / max 1 (s.media.slcT * cap)

/-- Picks of a die's time per bolt that a move may take although the die is not idle (R127, R129, R137). -/
def floorPicks (w : MoveKind) (s : State) : Nat :=
  let f := freeN s
  let urgent := regFld (pgFlc 0 + 0x214) 15 0 s
  let low := regFld (pgFlc 0 + 0x210) 15 0 s
  match w with
  | .fold => if 75 ≤ slcFill s && s.media.folded < s.media.slcInWas then 256 else 0
  | .rebuild => 192
  | _ => if f ≤ urgent then 192 else if f < low then 64 else 0

/-- A move may use a die now: it is idle, or its floor is not used up (R131). -/
def dieMayMove (k : Nat) (w : MoveKind) (s : State) : Bool := dieIdle k s || (dieGet k s).intPicks < floorPicks w s

end Sys2Proof.Machine
end

