-- ==== Sys2Proof/Machine/Media.lean ====
section
/-!
DEFINITION. The flash complex, second part (R119 to R128, R130, R135): units that leave staging, copies and checkpoints on their way to a
page, programs and their ends, die parity, retired blocks.
-/
namespace Sys2Proof.Machine

/-! ### Stripes (R122, R134) -/

/-- The parity position of a stripe. -/
def stripeParity (k : Nat) (s : State) : Nat :=
  let sb := k / 16384
  mkPua (sbParity sb s) (sbRow sb) (k % 4) (sbBlock sb) (k % 16384 / 4)
/-- The data positions of a stripe. -/
def stripeData (k : Nat) (s : State) : List Nat :=
  let sb := k / 16384
  (sbData sb s).map fun c => mkPua c (sbRow sb) (k % 4) (sbBlock sb) (k % 16384 / 4)

def pageAtPua (p : Nat) (s : State) : Page := tget {} s.media.pages p
def pageThere (p : Nat) (s : State) : Bool := s.media.pages.any (·.1 = p)

/-- XOR of units. -/
def xorAll (l : List Page) : Page := l.foldl xorPage {}

/-- The accumulator of an open stripe: its number. -/
def accOf (k : Nat) (s : State) : Option Nat := (s.media.parity.find? (·.1 = k)).map fun e => e.2 - 1

/-- An accumulator that reads as poisoned is recomputed from the stripe's programmed units (R197). -/
def accRepair (k : Nat) (s : State) : State :=
  match accOf k s with
  | none => s
  | some j =>
    if !accBad j s then s
    else
      let l := (stripeData k s).filter fun p => pageThere p s
      s |> hamMet (hamVia 1 s) (accMeta j s) 64 |> hamMet (hamVia 1 s) (accOffset j s) 16384
        |> accPut j (xorAll (l.map fun p => pageAtPua p s)) |> regAdd (pgFlc 0 + 0x250) l.length

/-- What die parity gives for a unit: the XOR of the stripe's other units (R134 step 4), its accumulator standing for a parity unit that
is not programmed yet. -/
def rebuiltPage (pua : Nat) (s : State) : Page :=
  let k := puaStripe pua
  let data := ((stripeData k s).filter (· ≠ pua)).map fun p => pageAtPua p s
  if pua = stripeParity k s then xorAll data
  else
    let parity := match accOf k s with
      | some j => accPage j s
      | none => pageAtPua (stripeParity k s) s
    xorAll (parity :: data)

/-- A die's units can be read: the die takes part, and neither its channel nor its quadrant is fenced. -/
def dieReads (die : Nat) (s : State) : Bool := dieOk die s && !chanFenced (die / 16) s

/-- What a unit holds, as it was read or recovered. -/
def unitContents (pua : Nat) (s : State) : Page := if dieReads (puaDie pua) s then pageAtPua pua s else rebuiltPage pua s

/-! ### Units leaving staging -/

/-- Contents of a unit as its mapped copy gives them (R123): zeros where nothing is mapped; a lost unit's granules stay marked
(DEDUCED, log entry 25). -/
def mappedGranules (i : Nat) (s : State) : List Granule :=
  let e := mapGet i s
  if ePoisoned e then List.replicate 4 { poison := true }
  else if eDisc e || !eValid e then List.replicate 4 {}
  else (unitContents (ePua e) s).granules

/-- Committed slots of a unit that a program may take now, in sequence order: none while an earlier write is in flight (R87). -/
def unitSlots (i : Nat) (s : State) : List (Nat × Slot) :=
  let l := s.jnl.slots.filter fun e => e.2.used && e.2.committed && e.2.midx = i && e.2.released.isNone && !e.2.busy
  let n := (nsAt i s).elim 0 Prod.fst
  let flying := (s.qe.ctxs.filter fun e => e.2.used && e.2.nsid = n && mayWrite e.2 i).map fun e => e.2.seq
  sortBy (fun a b => a.2.seq ≤ b.2.seq) (l.filter fun e => flying.all (e.2.seq ≤ ·))

/-- Overlays a staged write on four granules. -/
def overlay (gs : List Granule) (m : BitVec 4) (new : List Granule) : List Granule :=
  (List.range 4).map fun g => if bit m.toNat g then new.getD g {} else gs.getD g {}

/-- The combined contents of a unit's slots and discards over its mapped copy, in sequence order (R123). -/
def combine (i : Nat) (slots : List (Nat × Slot)) (s : State) : List Granule :=
  let ds := (s.jnl.disc.filter fun d => d.midx = i).map fun d => (d.seq, (0xF : BitVec 4), List.replicate 4 ({} : Granule))
  let ws := slots.map fun e => (e.2.seq, e.2.gmask, slotGranules e.1 s)
  let all := sortBy (fun a b => a.1 ≤ b.1) (ds ++ ws)
  let top := (slots.map fun e => e.2.seq).foldl max 0
  (all.filter fun a => a.1 ≤ top).foldl (fun gs a => overlay gs a.2.1 a.2.2) (mappedGranules i s)

/-- A unit's granules are all supplied, so its program needs no fill (R123). -/
def coveredWhole (i : Nat) (slots : List (Nat × Slot)) (s : State) : Bool :=
  (s.jnl.disc.any fun d => d.midx = i) ||
  (slots.foldl (fun m e => m ||| e.2.gmask) (0 : BitVec 4)) = 0xF

/-- Map indices of staged units that may be placed, in the order of their STAGE records. -/
def stagedUnits (s : State) : List Nat :=
  let l := sortBy (fun a b => a.2.pos ≤ b.2.pos)
    (s.jnl.slots.filter fun e => e.2.used && e.2.committed && e.2.released.isNone && !e.2.busy)
  (l.map fun e => e.2.midx).eraseDups.filter fun i =>
    !(s.media.placed.any fun e => match e.2 with
      | some p => p.midx = i && p.move.isNone
      | none => false) && !(s.media.programs.any fun g => g.units.any fun u => u.midx = i && u.move.isNone) &&
    !(unitSlots i s).isEmpty

/-- A Flush in flight covers a slot: its write's completion was posted before the Flush was fetched (R93). -/
def flushCovers (x : Slot) (s : State) : Bool :=
  x.posted ≠ 0 && s.qe.ctxs.any fun e => sqeOp e.2.sqe = 0 && e.2.sq ≠ 0 && x.posted ≤ e.2.order &&
    (sqeNsid e.2.sqe = x.nsid || (sqeNsid e.2.sqe = 0xFFFFFFFF && (nsGet x.nsid s).attached.contains e.2.fn))

/-- The idle time, in bolts, and the state that APST enters after it from the present state (R103); none: APST enters none. -/
def apstNext (s : State) : Option (Nat × Nat) :=
  let e := tget (0, 0) s.qe.apst s.pwr.ps
  if s.qe.apstOn && e.1 ≠ 0 && s.pwr.ps < e.2 then some (cdiv (e.1 * 1000) 1024, e.2) else none

/-- The state that the part should enter for want of work: APST's after its idle time, or the one F0 has set (R102, R103). -/
def lowTarget (s : State) : Option Nat :=
  match apstNext s with
  | some (n, k) => if s.qe.lastActive + n ≤ boltN s then some k else if 3 ≤ s.qe.pmState then some s.qe.pmState else none
  | none => if 3 ≤ s.qe.pmState then some s.qe.pmState else none

/-- Staging has to be emptied: a removal, PS4 entry or a shutdown in progress (R123). -/
def emptyStaging (s : State) : Bool :=
  s.svc.removal = .flushing || s.svc.removal = .draining || lowTarget s = some 4 || s.fns.any fun e => e.2.draining

/-- A placed unit cannot wait for the other planes of its page (R123): a Flush covers it, staging has to be empty, or it is the last unit
of a checkpoint, which nothing would follow (DEDUCED, log entry 137). -/
def mustGo (p : Placed) (s : State) : Bool :=
  emptyStaging s || (match p.ckpt with
    | some k => (tget {} s.jnl.ckpts (k / 2048)).next = 2048
    | none => p.move.isNone && !p.parity && s.jnl.slots.any fun e => e.2.used && e.2.midx = p.midx && flushCovers e.2 s)

/-- Positions of an open superblock that are not taken. -/
def sbLeft (sb : Nat) (s : State) : Nat :=
  let n := sbUnitsN sb (sbGet sb s).native s
  ((List.range n).filter fun k => !puaTaken (sbPua sb k s) s).length

/-- Erased SLC pages of the DUMP stream in units (R126). -/
def dumpReady (s : State) : Nat :=
  let own := (s.media.sbs.filter fun e => e.2.stream = some 2 && e.2.isOpen).map fun e => sbLeft e.1 s
  ((s.media.standby.map fun sb => sbUnitsN sb false s) ++ own).foldl (· + ·) 0

/-- The unit goes to the DIRECT stream, and the part leaves SLC buffering (R127, event 0x2081). -/
def placeDirect (p : Placed) (s : State) : State :=
  let t1 := note 0x2081 (pgFlc 0) 0 { s with media := { s.media with direct := true } }
  let (r, t2) := placeUnit 5 p t1
  r.getD t2

/-- The read-only state has just begun: the HOST stream may take the reserve (R139, R141). -/
def placeRetry (p : Placed) (s : State) : State :=
  match placeUnit 0 p s with
  | (some t, _) => t
  | (none, t) => if placeWaits 0 t then t else placeDirect p t

/-- Places one staged unit whose contents are at hand (R124 to R127): HOST, or in direct mode DIRECT, or DUMP for a unit that a Flush
covers while more than 128 MiB of DUMP pages would remain. Where HOST has just found the part read-only, the reserve takes the unit
(R140). -/
def placeNow (i : Nat) (s : State) : State :=
  let p : Placed := { midx := i }
  let s := { s with media := { s.media with fills := tdel i s.media.fills } }
  if s.media.direct then
    let k := if ((unitSlots i s).any fun e => flushCovers e.2 s) && 8193 < dumpReady s then 2 else 5
    let (r, t) := placeUnit k p s
    r.getD t
  else if placeWaits 0 s then s
  else match placeUnit 0 p s with
    | (some t, _) => t
    | (none, t) => if t.media.ro then placeRetry p t else placeDirect p t

/-- An internal read of a kind is queued, runs or is under recovery. -/
def readBusy (why : ReadWhy) (s : State) : Bool :=
  (s.media.reads.any fun r => r.why = why) || (s.media.dies.any fun d => d.2.read.any fun r => r.why = why) ||
  s.media.rebuilds.any fun b => b.reads.any fun r => r.why = why

/-- A read joins the queue of its die (R111). -/
def queueRead (r : FlashRead) (s : State) : State :=
  let s1 := { s with media := { s.media with reads := s.media.reads ++ [r] } }
  if r.ctx.isSome then dieHost (puaDie r.pua) s1 else s1

/-- The granules that no staged write covers are read from the unit's mapped copy first (R123); poison in the DRAM map makes the unit
wait for its segment (R154). -/
def placeFill (i : Nat) (s : State) : State :=
  match mapSeek i s with
  | (none, t) => t
  | (some e, t) =>
    if ePoisoned e || eDisc e || !eValid e || tget 0 t.media.fills i = ePua e + 1 then placeNow i t
    else if readBusy (.fill i) t then t else queueRead { pua := ePua e, want := { midx := i, gmask := 0xF }, why := .fill i } t

/-- Places one staged unit. One that needs fill from a segment that is not built promotes it (R176). -/
def placeStaged (i : Nat) (s : State) : State :=
  if coveredWhole i (unitSlots i s) s then placeNow i s
  else if segBuilt i s then placeFill i s else promote (segOf i) s

/-! ### What a page is programmed with -/

/-- The metadata that says where a unit belongs and stands (R120). -/
def unitMeta (i : Nat) (sb : Superblock) (s : State) : UnitMeta :=
  let ns := nsAt i s
  { lun := i - 65536 * (ns.elim 0 fun e => e.2.base), nsIdx := (ns.elim 1 Prod.fst) - 1, slc := !sb.native, stream := sb.stream.getD 0,
    sbSeq := sb.sbSeq }

/-- Bytes of granule `gr` of unit `k` of a checkpoint of segment `g` (R165); the empty list where all are zero. -/
def ckptGranule (g k gr : Nat) (copy : Tab (BitVec 40)) : Granule :=
  let a := 33554432 * g + 16384 * k + 4096 * gr
  if copy.any fun e => a < 5 * e.1 + 5 && 5 * e.1 < a + 4096 then
    { bytes := (List.range 4096).map fun o => BitVec.ofNat 8 ((tget 0 copy ((a + o) / 5)).toNat / 256 ^ ((a + o) % 5)) }
  else {}

/-- A unit of a checkpoint as it is programmed: STREAM 1, namespace index 0x3FF, unit number 2,048 × segment + `k`. Its SEQ is START
(DESIGN CHOICE, log entry 138). -/
def ckptPage (g k : Nat) (sb : Superblock) (s : State) : Page :=
  let r := tget {} s.jnl.ckpts g
  mkPage { lun := 2048 * g + k, nsIdx := 0x3FF, seq := r.start, slc := true, stream := 1, sbSeq := sb.sbSeq }
    ((List.range 4).map fun gr => ckptGranule g k gr r.copy)

/-- A placed unit as it goes to its page (R120, R122, R123). -/
def progUnit (pua : Nat) (p : Placed) (s : State) : ProgUnit :=
  let sb := sbGet (puaSb pua) s
  let base := unitMeta p.midx sb s
  if p.parity then { pua := pua, midx := p.midx, parity := true, page := ((accOf (puaStripe pua) s).map fun j => accPage j s).getD {} }
  else match p.ckpt, p.move with
    | some k, _ => { pua := pua, midx := p.midx, ckpt := some k, page := ckptPage (k / 2048) (k % 2048) sb s }
    | none, some (src, k) =>
      let q := unitContents src s
      { pua := pua, midx := p.midx, move := some (src, k), seq := q.seq,
        page := mkPage { q.info with lun := base.lun, nsIdx := base.nsIdx, slc := base.slc, stream := base.stream, sbSeq := base.sbSeq } q.granules }
    | none, none =>
      let slots := unitSlots p.midx s
      let top := slots.getLastD (0, {})
      { pua := pua, midx := p.midx, slots := (slots.map Prod.fst).reverse, seq := top.2.seq,
        page := mkPage { base with seq := top.2.seq, cfs := top.2.cfs, stripe := top.2.stripe } (combine p.midx slots s) }

/-- A pad unit (R123): zeros, and all-zero metadata, whose CRC fails. -/
def padUnit (pua : Nat) : ProgUnit := { pua := pua }
def ProgUnit.isPad (u : ProgUnit) : Bool := u.page.pad && !u.parity

/-! ### Data given up (R88, R155, R203) -/

/-- A map index lies in the range of `n` from `a`. -/
def inRange (a n i : Nat) : Bool := a ≤ i && i < a + n

/-- The data of a slot are given up; the slot is free once its RELEASE record is durable (R155, R158). -/
def slotRelease (k : Nat) (s : State) : State :=
  jWindow (recRelease k) [.dropSlot k] (slotSet k { used := true, midx := noUnit, pos := (slotGet k s).pos } s)

/-- Units of a range that wait for a program, or are in one, are no longer of use: a page under program takes pads for them. -/
def placedClear (a n : Nat) (s : State) : State :=
  let keep (e : Nat × Option Placed) : Bool := match e.2 with
    | some p => !inRange a n p.midx
    | none => false
  let cut (u : ProgUnit) : ProgUnit := if !u.page.pad && inRange a n u.midx then padUnit u.pua else u
  { s with media := { s.media with
    placed := s.media.placed.filter keep,
    programs := s.media.programs.map fun g => { g with units := g.units.map cut } } }

/-! ### Programs -/

/-- The pages of a die that hold placed units: superblock, page. -/
def diePages (k : Nat) (s : State) : List (Nat × Nat) :=
  ((s.media.placed.filter fun e => puaDie e.1 = k).map fun e => (puaSb e.1, puaPage e.1)).eraseDups

/-- The places of a page of a die, with what is placed there. -/
def pagePlaces (k sb page : Nat) (s : State) : List (Nat × Option Placed) :=
  ((List.range (sbPlanes sb s)).map fun pl => mkPua (k / 16) (k % 16) pl (sbBlock sb) page).map fun p => (p, tget none s.media.placed p)

/-- The program of a page of a die, if it may start: every plane placed, or a unit that cannot wait, or a superblock that is closed, with
pads for the rest; a page of copies alone has to find the die idle or within the copies' share of its time (R131). -/
def pageProgram (k sb page : Nat) (s : State) : Option Program :=
  let units := pagePlaces k sb page s
  let here := units.filterMap (·.2)
  let share := here.all fun p => match p.move with
    | some (_, w) => dieMayMove k w s
    | none => true
  if share && (units.all (·.2.isSome) || (here.any fun p => mustGo p s) || !(sbGet sb s).isOpen) then
    some { die := k, units := units.map fun u => match u.2 with
      | some p => progUnit u.1 p s
      | none => padUnit u.1 }
  else none

/-- The time of a program on a die in picks. -/
def progPicks (g : Program) (s : State) : Nat :=
  let t := dieType g.die s
  if (sbGet (puaSb (g.units.headD {}).pua) s).native then t.tprogNative else t.tprogSlc

/-- The unit is charged, and its slots are read (R131, R137): HOST and DIRECT units count for the function of the newest write. -/
def startUnit (s : State) (u : ProgUnit) : State :=
  let s1 := u.slots.foldl (fun s k => s |> hamMet (hamVia 1 s) (slotOffset k s) 16384 |> slotMod k (fun x => { x with busy := true })) s
  match u.slots with
  | k :: _ =>
    if (sbGet (puaSb u.pua) s).stream = some 0 || (sbGet (puaSb u.pua) s).stream = some 5 then charge (slotGet k s).fn rFlash 1
      (regAdd (pgFun (slotGet k s).fn + 0x210) 1 s1) else s1
  | [] => s1

/-- Starts a program (R111, R123): its units leave the placed ones, its slots are busy; FCH_OPS counts it. -/
def startProgram (g : Program) (s : State) : State :=
  let s1 := { s with media := { s.media with
    programs := s.media.programs ++ [g],
    placed := s.media.placed.filter fun e => !(g.units.any fun u => u.pua = e.1) } }
  let s2 := g.units.foldl startUnit s1 |> dieMod g.die (fun d => { d with busy := true, suspends := 0 }) |> regAdd (pgFch (g.die / 16) + 0x110) 1
              |> quadBeats (g.die / 16) (4 * g.units.length) g.units.length
  if g.units.any fun u => !u.slots.isEmpty then dieHost g.die s2 else dieInternal g.die (progPicks g s) s2

/-- A native program may start on a die (R168): in the row of an open or standby DUMP superblock only where its type has program
suspend and a suspend takes no longer than an SLC program. -/
def nativeOk (die : Nat) (s : State) : Bool :=
  let t := dieType die s
  let row := s.media.standby.any (fun sb => sbRow sb = die % 16) ||
    s.media.sbs.any fun e => e.2.stream = some 2 && e.2.isOpen && sbRow e.1 = die % 16
  !row || (bit t.flags 0 && t.tsus ≤ t.tprogSlc)

/-- The first page of a die that may be programmed (R123, R168). -/
def nextProgram (die : Nat) (s : State) : Option Program :=
  (diePages die s).findSome? fun q => if (sbGet q.1 s).native && !nativeOk die s then none else pageProgram die q.1 q.2 s

/-- Places the next units of the checkpoints that are being written, as far as the stream has room (R122, R165). -/
def ckptPlace (g : Nat) : Nat → State → State
  | 0, s => s
  | fuel + 1, s =>
    let r := tget {} s.jnl.ckpts g
    if 2048 ≤ r.next || r.left = 0 then s
    else match placeUnit 1 { midx := noUnit, ckpt := some (2048 * g + r.next) } s with
      | (some t, _) => ckptPlace g fuel { t with jnl := { t.jnl with ckpts := tset {} g { r with next := r.next + 1 } t.jnl.ckpts } }
      | (none, t) => t

/-- Every data unit of a stripe is programmed, or its superblock is closed and none is on its way (R122, R135). -/
def stripeDone (k : Nat) (s : State) : Bool :=
  let l := stripeData k s
  l.all (fun p => pageThere p s) ||
  (!(sbGet (k / 16384) s).isOpen && !(l.any fun p => puaTaken p s && !pageThere p s))

/-- Places the parity unit of a stripe whose data units are programmed (R122). -/
def placeParity (k : Nat) (s : State) : State :=
  let p := stripeParity k s
  if stripeDone k s && !puaTaken p s
  then { s with media := { s.media with placed := tset none p (some { midx := noUnit, parity := true }) s.media.placed } } else s

def placeParities (s : State) : State := s.media.parity.foldl (fun s e => placeParity e.1 (accRepair e.1 s)) s

/-- Places what waits: staged units, checkpoints, parity. -/
def placeAll (s : State) : State :=
  let s1 := (stagedUnits s).foldl (fun s i => placeStaged i s) s
  placeParities (s1.jnl.ckpts.foldl (fun s e => ckptPlace e.1 2048 s) s1)

/-- A program may start on a die: nothing runs there, and no read waits for it (R111). -/
def dieFree (die : Nat) (s : State) : Bool :=
  let d := dieGet die s
  dieOk die s && chanUp (die / 16) s && !d.busy && !d.hot && d.read.isNone && d.erase.isNone && !(s.media.reads.any fun r => puaDie r.pua = die)

/-! ### Ends of programs -/

/-- Adds a unit to its stripe's accumulator (R122); a pad unit adds nothing. -/
def addParity (pua : Nat) (p : Page) (s : State) : State :=
  let k := puaStripe pua
  match accOf k s with
  | some j => accPut j (xorPage (accPage j s) p) (accRepair k s)
  | none =>
    match (List.range 48).find? fun j => !(s.media.parity.any fun e => e.2 = j + 1) with
    | some j => accPut j p { s with media := { s.media with parity := tput k (j + 1) s.media.parity } }
    | none => s

/-- The accumulator of a stripe is free. -/
def accFree (k : Nat) (s : State) : State := { s with media := { s.media with parity := tdel k s.media.parity } }

/-- The counter of a program by its stream (R147); parity and checkpoint units have none. -/
def unitCounter (u : ProgUnit) : Option Nat :=
  match u.move with
  | some (_, .fold) => some 0x238
  | some (_, .gc) | some (_, .wear) => some 0x240
  | some (_, _) => some 0x248
  | none => if u.parity || u.ckpt.isSome then none else some 0x230

/-- A unit that holds part of a local shard is lost: the Mender is asked for it (R134, R197, R424). -/
def shardLost (i : Nat) (s : State) : State :=
  if s.mender.lostUnits.contains i then s else { s with mender := { s.mender with lostUnits := s.mender.lostUnits ++ [i] } }

/-- Runs of poisoned granules of a page: first and number. -/
def poisonRuns (p : Page) : List (Nat × Nat) :=
  p.granules.zipIdx.foldl (fun l g =>
    if !g.1.poison then l
    else match l.getLast? with
      | some (a, n) => if a + n = g.2 then l.dropLast ++ [(a, n + 1)] else l ++ [(g.2, 1)]
      | none => [(g.2, 1)]) []

/-- A unit of host data is programmed: its map update, with the PLACE and RELEASE records in one window (R160); poison is
recorded (R197). -/
def hostPlaced (u : ProgUnit) (s : State) : State :=
  let e := mkEntry u.pua true false false u.page.slc u.page.cfs
  let s0 := if 64 < s.jnl.window.length + u.slots.length then jFlush s else s
  let s1 := { s0 with jnl := { s0.jnl with disc := s0.jnl.disc.filter fun d => !(d.midx = u.midx && d.seq < u.seq) } }
              |> mapUpdate u.midx e u.seq |> segCount (segOf u.midx) u.slots.length
  let s2 := match u.slots with
    | [] => s1
    | k :: rest => rest.foldl (fun s q => jWindow (recRelease q) [.freeSlot q] s)
        (jWindow (recPlace (some k) e u.midx) [.freeSlot k] s1)
  let runs := poisonRuns u.page
  if runs.isEmpty then s2
  else
    let s3 := runs.foldl (fun s r => logLost u.midx r.1 r.2 s) s2 |> note 0x1084 pgHam u.midx
    if u.page.stripe ≠ 0 then note 0x2087 (pgFlc 0) u.midx (shardLost u.midx s3) else s3

/-- A copy is verified: the entry moves if it still holds the source (R130). An entry that cannot be read keeps the source. -/
def movePlaced (i pua src : Nat) (s : State) : State :=
  if !segBuilt i s then s
  else match mapSeek i s with
    | (none, t) => t
    | (some e, t) =>
      if eValid e && !ePoisoned e && !eDisc e && ePua e = src then
        let p := pageAtPua pua t
        let e1 := mkEntry pua true false false p.slc p.cfs
        t |> mapUpdate i e1 0 |> jWindow (recPlace none e1 i) [] |> segCount (segOf i) 1
      else t

/-- A unit of a checkpoint is verified (R165): the CKPT record follows the last of the 2,048. -/
def ckptDone (k pua : Nat) (s : State) : State :=
  let g := k / 2048
  let r := tget {} s.jnl.ckpts g
  if r.left = 0 then s
  else
    let first := if k % 2048 = 0 then some pua else r.first
    if r.left = 1 then
      { s with jnl := { s.jnl with ckpts := tdel g s.jnl.ckpts, segRecs := tset 0 g (tget 0 s.jnl.segRecs g - r.recs) s.jnl.segRecs } } |> jIssue [recCkpt g (position r.start) (first.getD 0)] [.ckpt g r.start (first.getD 0)]
    else { s with jnl := { s.jnl with ckpts := tset {} g { r with first := first, left := r.left - 1 } s.jnl.ckpts } }

/-- A native copy on a die type with read-back verify is verified by a read (R128). -/
def needsVerify (u : ProgUnit) (s : State) : Bool := (sbGet (puaSb u.pua) s).native && bit (dieType (puaDie u.pua) s).flags 2

/-- A unit of a program that succeeded. -/
def unitDone (s : State) (u : ProgUnit) : State :=
  let s1 := { s with media := { s.media with pages := tput u.pua u.page s.media.pages, unitsAll := s.media.unitsAll + 1 } }
  if u.parity then accFree (puaStripe u.pua) s1
  else if u.isPad then s1
  else
    let s2 := (unitCounter u).elim id (fun a => regAdd (pgFlc 0 + a) 1) (addParity u.pua u.page s1)
    match u.ckpt, u.move with
    | some k, _ => ckptDone k u.pua s2
    | none, some (src, w) =>
      if needsVerify u s2 then queueRead { pua := u.pua, want := { midx := u.midx, gmask := 0xF }, why := .verify u.midx src w } s2
      else movePlaced u.midx u.pua src s2
    | none, none =>
      let hostSlc := (sbGet (puaSb u.pua) s2).stream = some 0
      hostPlaced u { s2 with media := { s2.media with unitsHost := s2.media.unitsHost + 1, slcIn := s2.media.slcIn + b2n hostSlc } }

/-- Available Spare in percent (R138). -/
def spareAvail (s : State) : Nat := if s.media.spareInit = 0 then 100 else 100 * s.media.spareLeft / s.media.spareInit

/-- Available Spare first falls below its threshold (R138). -/
def spareCheck (s : State) : State :=
  if !s.media.spareWarned && spareAvail s < regFld (pgFlc 0 + 0x200) 15 8 s then
    { s with media := { s.media with spareWarned := true } } |> note 0x2082 (pgFlc 0) 0 |> smartEvent 0 0x02
  else s

/-- Retires an erase block (R121, R135): replaced from the die's pool, or its superblock leaves the die out. -/
def retireBlock (die block : Nat) (s : State) : State :=
  let s1 := s |> note 0x2085 (pgFch (die / 16)) (die * 4096 + block) |> replaceBlock die block
  { s1 with media := { s1.media with spareLeft := spareNow s1 } } |> spareCheck

/-! ### Copies -/

/-- A copy of a unit, given by index and source, is under way. -/
def moveBusy (i src : Nat) (s : State) : Bool :=
  let same (w : ReadWhy) : Bool := match w with
    | .verify j q _ => j = i && q = src
    | .copy j _ _ => j = i
    | _ => false
  let mine (m : Option (Nat × MoveKind)) : Bool := m.map Prod.fst = some src
  (s.media.todo.any fun m => m.midx = i && m.src = src) ||
  (s.media.reads.any fun r => same r.why) || (s.media.dies.any fun d => d.2.read.any fun r => same r.why) ||
  (s.media.rebuilds.any fun b => b.reads.any fun r => same r.why) ||
  (s.media.placed.any fun e => match e.2 with
    | some p => p.midx = i && mine p.move
    | none => false) || s.media.programs.any fun g => g.units.any fun q => q.midx = i && mine q.move

/-- A copy of a unit is to be made (R130). -/
def addMove (stream : Nat) (w : MoveKind) (u : Nat × Nat) (s : State) : State :=
  if moveBusy u.1 u.2 s then s
  else { s with media := { s.media with todo := s.media.todo ++ [{ midx := u.1, src := u.2, stream := stream, kind := w }] } }

def addMoves (stream : Nat) (w : MoveKind) (l : List (Nat × Nat)) (s : State) : State := l.foldl (fun s u => addMove stream w u s) s

/-! ### Failures of programs (R135, R136) -/

/-- Places a unit once more, in the stream it had: where that stream finds no place, host data waits in staging, and a copy begins
again at its source. -/
def placeAgain (k : Nat) (p : Placed) (s : State) : State :=
  match placeUnit k p s, p.move with
  | (some t, _), _ => t
  | (none, t), some (src, w) => addMove k w (p.midx, src) t
  | (none, t), none => t

/-- A unit of a program that failed goes to a new superblock of the same stream (R135 step 2, R136). -/
def unitFailed (k : Nat) (s : State) (u : ProgUnit) : State :=
  if u.isPad || u.parity then s
  else
    let s1 := if u.move.isSome then note 0x2088 (pgFlc 0) u.midx s else s
    let s2 := u.slots.foldl (fun s k => slotMod k (fun x => { x with busy := false }) s) s1
    placeAgain k { midx := u.midx, move := u.move, ckpt := u.ckpt } s2

/-- A superblock closes before its time (R135 step 1): units of `l`, whose program has failed, and units that are placed in it and not
under program yet, go elsewhere. The parity of its open stripes is programmed; with its parity block gone (`lost`), the units of these
stripes are programmed again. -/
def abandonSb (sb : Nat) (lost : Bool) (l : List ProgUnit) (s : State) : State :=
  let k := (sbGet sb s).stream.getD 4
  let again := (s.media.placed.filter fun e => puaSb e.1 = sb).filterMap Prod.snd
  let s1 := sbMod sb (fun x => { x with isOpen := false, closedBolt := boltN s })
    { s with media := { s.media with placed := s.media.placed.filter fun e => puaSb e.1 ≠ sb } }
  let s2 := (again.filter fun p => !p.parity).foldl (fun s p => placeAgain k p s) (l.foldl (unitFailed k) s1)
  let mine := (s2.media.parity.filter fun e => e.1 / 16384 = sb).map Prod.fst
  if lost then
    mine.foldl (fun s q => accFree q (addMoves k .refresh (validUnits (fun p => puaStripe p = q) s) s)) s2
  else mine.foldl (fun s q => placeParity q s) s2

/-- A program reports failure (R135): the superblock closes, its placed units and the failed ones go elsewhere, the valid
units of the erase block move, and the block is retired. -/
def programFailed (g : Program) (s : State) : State :=
  let sb := puaSb (g.units.headD {}).pua
  s |> regAdd (pgFlc 0 + 0x258) 1 |> note 0x2103 (pgFch (g.die / 16)) g.die
    |> abandonSb sb (sbParity sb s = g.die / 16) g.units
    |> fun s => addMoves 4 .refresh (validUnits (fun p => puaDie p = g.die && puaBlock p = sbBlock sb) s) s
    |> retireBlock g.die (sbBlock sb)

end Sys2Proof.Machine
end

