-- ==== Sys2Proof/Machine/Reads.lean ====
section
/-!
DEFINITION. The flash complex, third part (R111, R117, R128, R130, R131, R133, R134): the queues of the dies, reads with their
escalation and die parity, copies on their way, erases that start.
-/
namespace Sys2Proof.Machine

/-! ### The channel sequencer (R111, R117) -/

/-- The read that a die serves next: host reads before internal ones. -/
def nextRead (die : Nat) (s : State) : Option FlashRead :=
  let l := s.media.reads.filter fun r => puaDie r.pua = die
  match l.find? fun r => r.ctx.isSome with
  | some r => some r
  | none => l.head?

/-- A program or an erase holds the die; it can be suspended for a read: its type permits it, and it has been fewer than 8 times. -/
def dieHeld (die : Nat) (s : State) : Bool := let d := dieGet die s; d.busy || d.erase.isSome
def suspendable (die : Nat) (s : State) : Bool :=
  let d := dieGet die s
  d.suspends < 8 && bit (dieType die s).flags (if d.busy then 0 else 1)

/-- The time of an array read of a unit in picks. -/
def readPicks (pua : Nat) (s : State) : Nat :=
  let t := dieType (puaDie pua) s
  if (sbGet (puaSb pua) s).native then t.trNative else t.trSlc

/-- Starts a read on its die; a program or erase there is suspended and resumed. -/
def startRead (die : Nat) (r : FlashRead) (s : State) : State :=
  let held := dieHeld die s
  let s1 := { s with media := { s.media with reads := s.media.reads.erase r } }
    |> dieMod die (fun d => { d with read := some r, suspends := d.suspends + b2n held })
    |> regAdd (pgFch (die / 16) + 0x110) 1 |> regAdd (pgFch (die / 16) + 0x138) (b2n held)
  if r.ctx.isSome then s1 else dieInternal die (readPicks r.pua s) s1

/-- No read in flight needs a superblock: none is queued, runs or is under recovery there, and no view of a command lies in it (R130). -/
def sbUnread (sb : Nat) (s : State) : Bool :=
  let at_ (r : FlashRead) : Bool := puaSb r.pua = sb
  !(s.media.reads.any at_) && !(s.media.dies.any fun d => d.2.read.any at_) &&
  !(s.media.rebuilds.any fun b => puaSb b.pua = sb || b.left.any fun p => puaSb p = sb) &&
  !(s.qe.ctxs.any fun e => e.2.view.any fun v => match v.2 with
    | some x => eValid x && puaSb (ePua x) = sb
    | none => false)

/-- R130's conditions for an erase: no valid unit, its deltas durable, no read that took a mapping into it. -/
def eraseReady (sb : Nat) (s : State) : Bool :=
  ((sbGet sb s).stream.isNone || sbEmpty sb s) && allBuilt s && s.jnl.window.isEmpty && s.jnl.issued.isEmpty && sbUnread sb s

/-- The superblock whose block a die erases next. -/
def nextErase (die : Nat) (s : State) : Option Nat :=
  s.media.erasing.find? fun sb => sbRow sb = die % 16 && (sbChans sb s).contains (die / 16) &&
    !(tget [] s.media.erased sb).contains (die / 16) && eraseReady sb s

/-- Starts the erase of a superblock's block on a die. -/
def startErase (die sb : Nat) (s : State) : State :=
  s |> dieMod die (fun d => { d with erase := some sb, suspends := 0 }) |> dieInternal die (dieType die s).tbers
    |> regAdd (pgFch (die / 16) + 0x110) 1

/-- A die that is free takes up what waits for it: host reads, internal reads, and an erase when no program could start (R111); an erase
is an internal operation (R131). -/
def dieServe (die : Nat) (s : State) : State :=
  let d := dieGet die s
  if d.read.isSome || !dieOk die s || !chanUp (die / 16) s || d.hot || !mediaUp s then s
  else match nextRead die s with
    | some r => if dieHeld die s && !suspendable die s then s else startRead die r s
    | none =>
      if dieHeld die s || (nextProgram die s).isSome || !(dieMayMove die .gc s || dieMayMove die .fold s) then s
      else match nextErase die s with
        | some sb => startErase die sb s
        | none => s

/-! ### Loss and recovery of units (R133, R134, R144) -/

/-- A unit outside any stripe is lost, or a quadrant is fenced: critical warning bit 2 (R144). -/
def warnLost (s : State) : State := smartEvent 2 0x00 { s with qe := { s.qe with warn2 := true } }

/-- Handles a unit that is lost (the last rows of R134): poisoned in the map, with events and logs; a unit of a local shard
asks the Party. -/
def loseUnit (i pua : Nat) (s : State) : State :=
  let p := unitContents pua s
  let s1 := s |> note 0x2105 (pgFch (puaChan pua)) i |> note 0x2003 (pgFlc (puaChan pua / 8)) i |> poisonUnit i
  if p.stripe ≠ 0 then note 0x2087 (pgFlc (puaChan pua / 8)) i (shardLost i s1) else s1 |> logLost i 0 4 |> warnLost

/-- Queues an erase block for refresh (R133). -/
def queueRefresh (b : Nat) (s : State) : State :=
  if s.media.refreshQ.contains b then s else { s with media := { s.media with refreshQ := s.media.refreshQ ++ [b] } }

/-- The erase block of a unit (R133). -/
def puaEraseBlock (p : Nat) (s : State) : Nat := eraseBlock (puaDie p) (puaBlock p) s

/-- Gives a read's granules to the command that waits for them (R134); none: the unit is lost. A poison-marked granule fails the command. -/
def giveCtx (r : FlashRead) (p : Option Page) (c : Nat) (s : State) : State :=
  let put (x : Ctx) : Ctx :=
    (List.range 4).foldl (fun (q : Ctx) g =>
      if bit r.want.gmask.toNat g then
        let gr : Granule := match p with
          | some p => p.granule g
          | none => { poison := true }
        { q with got := tset none (4 * r.want.midx + g) (some gr) q.got, ends := if gr.poison then some stReadError else q.ends }
      else q) x
  ctxMod c (fun x => if x.used then put x else x) s

/-- A copy whose source has been read is placed (R130); without a place it begins again. -/
def placeCopy (i src stream : Nat) (w : MoveKind) (s : State) : State :=
  let s1 := if w = .fold then { s with media := { s.media with folded := s.media.folded + 1 } } else s
  placeAgain stream { midx := i, move := some (src, w) } s1

/-- A read has ended with the unit's contents, or with none: its command or its purpose goes on. -/
def giveRead (p : Option Page) (s : State) (r : FlashRead) : State :=
  match r.ctx, r.why, p with
  | some c, _, _ => giveCtx r p c s
  | none, .copy i stream w, some _ => placeCopy i r.pua stream w s
  | none, .fill i, _ => { s with media := { s.media with fills := tput i (r.pua + 1) s.media.fills } }
  | none, _, _ => s

/-- The unit is recovered (R134 step 4): it is returned and rewritten through MOVE, and its block is queued for refresh. -/
def rebuildDone (b : Rebuild) (s : State) : State :=
  let s1 := { s with media := { s.media with rebuilds := s.media.rebuilds.filter (·.pua ≠ b.pua) } }
    |> note 0x2086 (pgFlc (puaChan b.pua / 8)) b.pua |> regAdd (pgFlc 0 + 0x268) 1 |> queueRefresh (puaEraseBlock b.pua s)
  let w : MoveKind := if s.media.rebuildDie.contains (puaDie b.pua) then .rebuild else .refresh
  b.reads.foldl (giveRead (some (rebuiltPage b.pua s1))) (addMoves 4 w (validUnits (· = b.pua) s1) s1)

/-- The unit cannot be recovered: it is lost. -/
def rebuildFailed (b : Rebuild) (s : State) : State :=
  let drop (r : FlashRead) : Bool := r.why = .mate b.pua
  let s1 := { s with media := { s.media with rebuilds := s.media.rebuilds.filter (·.pua ≠ b.pua), reads := s.media.reads.filter fun r => !drop r } }
  b.reads.foldl (giveRead none) ((validUnits (· = b.pua) s1).foldl (fun s u => loseUnit u.1 b.pua s) s1)

/-- The programmed units of a stripe that recover one of it: data units, pads apart, and the parity unit; none where no parity stands. -/
def stripeMates (pua : Nat) (s : State) : Option (List Nat) :=
  let k := puaStripe pua
  let data := (stripeData k s).filter fun p => p ≠ pua && pageThere p s && !(pageAtPua p s).pad
  let par := stripeParity k s
  if pua = par || (accOf k s).isSome then some data else if pageThere par s then some (data ++ [par]) else none

/-- Step 4 of R134 for a read: the stripe's other units are read. -/
def startRebuild (r : FlashRead) (s : State) : State :=
  if s.media.rebuilds.any (·.pua = r.pua) then
    { s with media := { s.media with rebuilds := s.media.rebuilds.map fun b =>
      if b.pua = r.pua then { b with reads := b.reads ++ [r] } else b } }
  else
    let b : Rebuild := { pua := r.pua, reads := [r] }
    match stripeMates r.pua s with
    | none => rebuildFailed b s
    | some [] => rebuildDone b s
    | some l =>
      if l.all fun p => dieReads (puaDie p) s then
        l.foldl (fun s p => queueRead { pua := p, want := { gmask := 0xF }, why := .mate r.pua } s)
          { s with media := { s.media with rebuilds := s.media.rebuilds ++ [{ b with left := l }] } }
      else rebuildFailed b s

/-- A unit that a recovery needs has been read, or cannot be. -/
def mateRead (of_ pua : Nat) (ok : Bool) (s : State) : State :=
  match s.media.rebuilds.find? (·.pua = of_) with
  | none => s
  | some b =>
    let b1 := { b with left := b.left.filter (· ≠ pua) }
    if !ok then rebuildFailed b s
    else if b1.left.isEmpty then rebuildDone b1 s
    else { s with media := { s.media with rebuilds := s.media.rebuilds.map fun x => if x.pua = of_ then b1 else x } }

/-- What a read that fails its steps 1 to 3, or whose die cannot be read, goes on with. -/
def readFailed (s : State) (r : FlashRead) : State :=
  match r.ctx, r.why with
  | none, .mate p => mateRead p r.pua false s
  | none, .verify i src w => addMove ((sbGet (puaSb r.pua) s).stream.getD 4) w (i, src) (note 0x2088 (pgFlc 0) i s)
  | _, _ => startRebuild r s

/-! ### Copies on their way (R127 to R131) -/

/-- Folding, garbage collection, refresh and wear levelling may run: every segment is built (R176), and the Hamper is not fenced
(R203). -/
def mayMove (s : State) : Bool := mediaUp s && allBuilt s && !fenced pgHam s

/-- The copies that wait, those of refresh and rebuild first (R133, R137). -/
def moveOrder (s : State) : List Move :=
  let first (m : Move) : Bool := m.kind = .refresh || m.kind = .rebuild
  s.media.todo.filter first ++ s.media.todo.filter fun m => !first m

/-- A copy's source read is queued, where its die may be used for it (R131) and its stream has room (R122); a copy whose unit has gone
elsewhere is dropped (R130). -/
def issueMove (s : State) (m : Move) : State :=
  let die := puaDie m.src
  let gone := { s with media := { s.media with todo := s.media.todo.erase m } }
  if !((validUnits (· = m.src) s).any fun u => u.1 = m.midx) then gone
  else if !dieMayMove die m.kind s || placeWaits m.stream s || (s.media.reads.any fun r => puaDie r.pua = die) then s
  else queueRead { pua := m.src, want := { midx := m.midx, gmask := 0xF }, why := .copy m.midx m.stream m.kind } gone

def issueMoves (s : State) : State := if mayMove s then (moveOrder s).foldl issueMove s else s

/-- Direct mode ends when fill falls to 50 % (R127). -/
def directCheck (s : State) : State :=
  if s.media.direct && slcFill s ≤ 50 then { s with media := { s.media with direct := false } } else s

/-- Reads whose die has failed or is fenced go on with step 4 (R137). -/
def serveDead (s : State) : State :=
  let dead := s.media.reads.filter fun r => !dieReads (puaDie r.pua) s
  dead.foldl readFailed { s with media := { s.media with reads := s.media.reads.filter fun r => dieReads (puaDie r.pua) s } }

/-- Dies that have something to take up. -/
def dieCalls (s : State) : List Nat :=
  ((s.media.reads.map fun r => puaDie r.pua) ++
   s.media.erasing.flatMap fun sb => (sbChans sb s).map fun c => dieNo c (sbRow sb)).eraseDups

/-- The flash complex goes on: copies are issued, and free dies take up what waits for them. -/
def mediaTurn (s : State) : State :=
  if !mediaUp s then s
  else
    let s1 := serveDead (issueMoves (directCheck s))
    (dieCalls s1).foldl (fun s k => dieServe k s) s1

/-! ### Ends of reads -/

/-- A completed array operation reaches the Itinerary: at once when the house clusters' ready lists are empty, else at the next pick
boundary (R27, R349). -/
def arrayDone (task : Option Nat) (s : State) : State :=
  match task with
  | none => s
  | some t => if (readyOf 0 s).isEmpty && (readyOf 1 s).isEmpty then decTask t s else later (.dec t) s

/-- The codewords that a read transfers (R119): the granules that a command wants; of an internal read, the patrol's among them, all four
and the metadata (DESIGN CHOICE, log entry 139). -/
def readWords (r : FlashRead) : List Nat :=
  if r.ctx.isSome then (List.range 4).filter fun g => bit r.want.gmask.toNat g else List.range 5

/-- How the decode of a codeword went: a retry with a voltage set that the die type does not use is a soft decode (R134). -/
def cwOutcome (die : Nat) (l : List CwOut) (g : Nat) (s : State) : CwOut :=
  match l.getD g (.hard 0) with
  | .retry n => if n < (dieType die s).retrySets then .retry n else .soft
  | o => o

/-- What the decode of one codeword counts (R134, R148), and whether its block is to be refreshed (R133). -/
def countCw (c : Nat) (o : CwOut) (s : State) : State :=
  match o with
  | .hard _ => regAdd (pgFch c + 0x118) 1 s
  | .retry _ => regAdd (pgFch c + 0x120) 1 s
  | .soft => regAdd (pgFch c + 0x128) 1 s
  | .fail => s |> regAdd (pgFch c + 0x130) 1
def cwRefresh (t : DieType) : CwOut → Bool
  | .hard n => t.refreshBits ≤ n
  | .retry _ | .soft => true
  | .fail => false

/-- What one read of a unit counts and sets off (R133, R134, R147, R148). -/
def countRead1 (pua : Nat) (ws : List Nat) (os : List CwOut) (s0 : State) : State :=
  let c := puaChan pua
  let s := quadBeats c (ws.filter (· < 4)).length (b2n (ws.contains 4)) s0
  let t := dieType (puaDie pua) s
  let blk := puaEraseBlock pua s
  let n := tget 0 s.media.blockReads blk + 1
  let s1 := os.foldl (fun s o => countCw c o s)
    (regAdd (pgFlc 0 + 0x250) 1 { s with media := { s.media with blockReads := tset 0 blk n s.media.blockReads } })
  let s2 := if os.contains .soft then note 0x2181 (pgFch c) pua s1 else s1
  if t.readDisturb < n || os.any (cwRefresh t) then queueRefresh blk s2 else s2

/-- A read that its channel has decoded. -/
def readGood (r : FlashRead) (hard : Bool) (s : State) : State :=
  match r.ctx, r.why with
  | none, .mate p => mateRead p r.pua true s
  | none, .verify i src _ => if hard then movePlaced i r.pua src s else readFailed s r
  | _, _ => giveRead (some (pageAtPua r.pua s)) s r

/-- The read that runs on the die of a unit, if it reads that unit. -/
def runningRead (pua : Nat) (s : State) : Option FlashRead :=
  if pua < 2 ^ 34 then (dieGet (puaDie pua) s).read.filter fun r => r.pua = pua else none

/-- FLASH_READ_DONE (R111, R117, R119, R134): the read of a unit that runs on its die ends, with the outcome of each codeword, 0 to 3 the
granules, 4 the metadata; `task` is the task that the flash request names (R349). -/
def execFlashReadDone (pua : Nat) (outcomes : List CwOut) (s : State) (task : Option Nat := none) : Host.Outcome State Fault Refusal :=
  match runningRead pua s with
  | none => .next s
  | some r =>
    let die := puaDie pua
    let os := (readWords r).map fun g => cwOutcome die outcomes g s
    let s1 := countRead1 pua (readWords r) os (dieMod die (fun d => { d with read := none }) s)
    let hard := os.all fun o => match o with
      | .hard _ => true
      | _ => false
    .next (arrayDone task (mediaTurn (if os.contains .fail then readFailed s1 r else readGood r hard s1)))

/-- UNIT_PROGRAM_START (R123): staged units are placed; a page of the die that may be programmed starts. -/
def execUnitProgramStart (die : Nat) (s : State) : Host.Outcome State Fault Refusal :=
  if die < 512 then
    if !mediaUp s then .next s
    else
      let s1 := placeAll s
      if !dieFree die s1 then .next (mediaTurn s1)
      else match nextProgram die s1 with
        | some g => .next (mediaTurn (startProgram g s1))
        | none => .next (mediaTurn s1)
  else .fault .noSuchUnit

/-- FLASH_PROGRAM_DONE (R123, R130, R135): the program on a die ends; `task` is the task that the flash request names (R349). -/
def execFlashProgramDone (die : Nat) (ok : Bool) (s : State) (task : Option Nat := none) : Host.Outcome State Fault Refusal :=
  if die < 512 then
    match s.media.programs.find? (·.die = die) with
    | none => .next s
    | some g =>
      let s1 := { s with media := { s.media with programs := s.media.programs.filter (·.die ≠ die) } }
                  |> dieMod die (fun d => { d with busy := false })
      .next (arrayDone task (mediaTurn (placeParities (if ok then g.units.foldl unitDone s1 else programFailed g s1))))
  else .fault .noSuchUnit

end Sys2Proof.Machine
end

