-- ==== Sys2Proof/Machine/Moves.lean ====
section
/-!
DEFINITION. The flash complex, fourth part (R125 to R133, R135 to R139, R143, R145): folding, garbage collection, refresh, wear
levelling, patrol, erases, failures of dies, temperatures, capacity.
-/
namespace Sys2Proof.Machine

/-! ### Moves -/

/-- Copies a superblock's valid units into a native stream and marks it for its erase (R127, R129, R130). -/
def vacate (sb stream : Nat) (why : MoveKind) (s : State) : State :=
  let s1 := addMoves stream why (sbValid sb s) s
  if s1.media.erasing.contains sb then s1 else { s1 with media := { s1.media with erasing := s1.media.erasing ++ [sb] } }

/-- The oldest closed SLC superblock of the HOST stream that is not folded yet (R127). -/
def oldestSlc (s : State) : Option Nat :=
  sbBest (fun a b => (sbGet a s).sbSeq < (sbGet b s).sbSeq) ((s.media.sbs.filter fun e =>
    e.2.stream = some 0 && !e.2.isOpen && !s.media.erasing.contains e.1).map Prod.fst)

/-- FOLD (R127): the oldest closed SLC superblock of the HOST stream is folded; below 25 % fill none is. From 75 % on its units are read
at least at the rate at which host data entered SLC in the previous bolt, below that on idle dies only (`floorPicks`). -/
def execFold (sb : Nat) (s : State) : Host.Outcome State Fault Refusal :=
  if mayMove s && 25 ≤ slcFill s && oldestSlc s = some sb then
    .next (mediaTurn (vacate sb 3 .fold s))
  else .next s

/-- Score of a victim as a fraction (R129): (units − valid) × age over (units + valid). -/
def gcScore (sb : Nat) (s : State) : Nat × Nat :=
  let n := sbUnitsN sb true s
  let v := (sbValid sb s).length
  ((n - v) * (boltN s - (sbGet sb s).closedBolt), n + v)

/-- The victim of garbage collection: the closed native superblock with the highest score, the lower number on a tie (R129). -/
def gcVictim (s : State) : Option Nat :=
  s.media.sbs.foldl (fun (b : Option Nat) e =>
    if !(e.2.native && !e.2.isOpen && e.2.stream.isSome) || s.media.erasing.contains e.1 then b
    else match b with
      | none => some e.1
      | some q =>
        let (n, d) := gcScore e.1 s
        let (n', d') := gcScore q s
        if n' * d < n * d' then some e.1 else b) none

/-- GARBAGE_COLLECTION (R129): below HIGH free superblocks the victim's units move, on idle dies or within the share of their time that
F gives (`floorPicks`). -/
def execGarbageCollection (s : State) : Host.Outcome State Fault Refusal :=
  let high := regFld (pgFlc 0 + 0x210) 31 16 s
  if mayMove s && freeN s < high then
    match gcVictim s with
    | some sb => .next (mediaTurn (vacate sb 4 .gc s))
    | none => .next s
  else .next s

/-- REFRESH (R133): the valid units of a queued erase block move through MOVE; those of an open superblock wait. -/
def execRefresh (blk : Nat) (s : State) : Host.Outcome State Fault Refusal :=
  let l := validUnits (fun p => puaEraseBlock p s = blk) s
  if mayMove s && s.media.refreshQ.contains blk && l.all (fun u => !(sbGet (puaSb u.2) s).isOpen) then
    .next (mediaTurn (addMoves 4 .refresh l { s with media := { s.media with refreshQ := s.media.refreshQ.filter (· ≠ blk) } }))
  else .next s

/-- The lowest PE_NATIVE among the types in use (R146). -/
def peNative (s : State) : Nat :=
  ((s.media.dies.filter fun d => d.2.usable && !d.2.retired && !d.2.excluded).map fun d => (dieType d.1 s).peNative).foldl
    (fun m v => if m = 0 then v else min m v) 0

/-- Wear of all superblocks: least and most, as fractions (R132). -/
def wearRange (s : State) : (Nat × Nat) × (Nat × Nat) :=
  let l := (sbList s).map fun sb => sbWear sb s
  (l.foldl (fun a b => if fracLt b a then b else a) (l.headD (0, 1)), l.foldl (fun a b => if fracLt a b then b else a) (0, 1))

/-- The highest and the lowest superblock wear differ by more than WL_DELTA percent of PE_NATIVE (R132). -/
def wearUneven (s : State) : Bool :=
  let (lo, hi) := wearRange s
  regFld (pgFlc 0 + 0x200) 23 16 s * peNative s * (lo.2 * hi.2) < 100 * (hi.1 * lo.2 - lo.1 * hi.2)

/-- The average wear of all erase blocks, as a fraction. -/
def wearMean (s : State) : Nat × Nat :=
  let l := (sbList s).flatMap fun sb => sbEraseBlocks sb s
  ((l.map fun b => blockWear b s).foldl (· + ·) 0, max 1 l.length * wearScale s)

/-- STATIC_WEAR_LEVELLING (R132): when the wear differs by more than WL_DELTA percent of PE_NATIVE, the longest-closed superblock moves
into the most-worn free one, which the MOVE stream opens for it. Superblocks of CKPT and DUMP hold nothing that the map maps and are no
choice (DEDUCED, log entry 140). -/
def execStaticWearLevelling (s : State) : Host.Outcome State Fault Refusal :=
  let oldest := s.media.sbs.foldl (fun (b : Option (Nat × Nat)) e =>
    if e.2.isOpen || e.2.stream.isNone || e.2.stream = some 1 || e.2.stream = some 2 || s.media.erasing.contains e.1 then b
    else match b with
      | none => some (e.1, e.2.closedBolt)
      | some (_, t) => if e.2.closedBolt < t then some (e.1, e.2.closedBolt) else b) none
  if mayMove s && wearUneven s then
    match oldest, mostWorn s with
    | some (sb, _), some d => .next (s |> closeStream 4 |> openAs 4 d |> vacate sb 4 .wear |> mediaTurn)
    | some (sb, _), none => .next (mediaTurn (vacate sb 4 .wear s))
    | none, _ => .next s
  else .next s

/-- Bolts of a patrol lap (R133): `FLC_PATROL_CFG`.DAYS days of 84,375,000 bolts each (a bolt is 1.024 ms). -/
def patrolBolts (s : State) : Nat := regFld (pgFlc 0 + 0x284) 7 0 s * 84375000

/-- Reads that the patrol issues in a bolt at least: what is left of the lap over the time left of it (R133). -/
def patrolLeast (s : State) : Nat :=
  let left := ((validUnits (fun _ => true) s).filter fun u => s.media.patrolPos ≤ u.1).length
  cdiv left (max 1 (s.media.patrolFrom + patrolBolts s - boltN s))

/-- PATROL_READ (R133): the next valid unit of the lap is read, on a die that is idle or while the bolt's least number of reads is not
reached; a lap that ends records its length. -/
def execPatrolRead (s : State) : Host.Outcome State Fault Refusal :=
  if mediaUp s && allBuilt s then
    match (validUnits (fun _ => true) s).find? fun u => s.media.patrolPos ≤ u.1 with
    | some u =>
      if dieIdle (puaDie u.2) s || s.media.patrolBolt < patrolLeast s then
        .next (mediaTurn (queueRead { pua := u.2, want := { midx := u.1, gmask := 0xF } }
          { s with media := { s.media with patrolPos := u.1 + 1, patrolBolt := s.media.patrolBolt + 1 } }))
      else .next s
    | none => .next (regSet (pgFlc 0 + 0x280) (boltN s - s.media.patrolFrom)
        { s with media := { s.media with patrolPos := 0, patrolFrom := boltN s } })
  else .next s

/-- DUMP_STANDBY_ERASE (R126): below 192 MiB of ready DUMP pages another superblock is assigned to the stream. -/
def execDumpStandbyErase (s : State) : Host.Outcome State Fault Refusal :=
  if mediaUp s && dumpReady s < 12288 && mayTake 2 s then
    match leastWorn s with
    | some sb => .next (sbMod sb (fun x => { x with stream := some 2, erased := true, closedBolt := boltN s })
        { s with media := { s.media with standby := s.media.standby ++ [sb] } })
    | none => .next s
  else .next s

/-- T of R125 from V in 4 KiB units. -/
def slcTarget (v : Nat) (s : State) : Nat :=
  let k := 4 * ((freeSbs s).headD 0 |> fun sb => sbUnitsN sb false s)
  let lo := regFld (pgFlc 0 + 0x204) 15 0 s
  let hi := regFld (pgFlc 0 + 0x204) 31 16 s
  let top := max lo (min hi (freeN s / 2))
  max lo (min top (cdiv (4 * v) (max 1 k)))

/-- SLC_TARGET_UPDATE (R125): at a boundary of 64 bolts V and T are set and recorded in control field 0x06. The window list
holds the staged host data of each bolt in 4 KiB units, newest first. -/
def execSlcTargetUpdate (s : State) : Host.Outcome State Fault Refusal :=
  let w := s.media.vWindow
  let sums := (List.range (max 1 (w.length - 63))).map fun i => ((w.drop i).take 64).foldl (· + ·) 0
  let v0 := sums.foldl max 0
  let v := if w.length < 4096 then max v0 s.die.slcV else v0
  if boltN s % 64 = 0 && s.media.tableOk && boltN s ≠ s.media.vBolt then
    let t := slcTarget v s
    .next ({ s with media := { s.media with slcT := t, slcV := v, vBolt := boltN s },
                    die := { s.die with slcT := t, slcV := v } } |> jCtrl 0x06 0 (t + v * 65536) |> directCheck)
  else .next s

/-- Counts an erase of a superblock's block on a die, by its cell mode (R132). -/
def countErase (sb die : Nat) (s : State) : State :=
  let b := eraseBlock die (sbBlock sb) s
  let n := tget (0, 0) s.media.wear b
  let m := if (sbGet sb s).native then (n.1 + 1, n.2) else (n.1, n.2 + 1)
  { s with media := { s.media with wear := tset (0, 0) b m s.media.wear, blockReads := tset 0 b 0 s.media.blockReads,
                                   refreshQ := s.media.refreshQ.filter (· ≠ b) } }

/-- Every block of a superblock on a die that can be used is erased: the superblock is free. -/
def eraseOver (sb : Nat) (s : State) : State :=
  let l := tget [] s.media.erased sb
  if (sbChans sb s).all fun c => l.contains c || !dieReads (dieNo c (sbRow sb)) s then
    directCheck { s with media := { s.media with
      erasing := s.media.erasing.filter (· ≠ sb), erased := tdel sb s.media.erased, sbs := tset {} sb { out := (sbGet sb s).out } s.media.sbs,
      pages := s.media.pages.filter fun e => puaSb e.1 ≠ sb, parity := s.media.parity.filter fun e => e.1 / 16384 ≠ sb } }
  else s

/-- FLASH_ERASE_DONE (R130, R132, R135): the erase of a superblock's block on the die of a channel ends; a block that fails it is
retired. -/
def execFlashEraseDone (sb : Nat) (ok : Bool) (chan : Nat) (s : State) (task : Option Nat := none) : Host.Outcome State Fault Refusal :=
  let die := dieNo chan (sbRow sb)
  if chan < 32 && (dieGet die s).erase = some sb then
    let s1 := s |> dieMod die (fun d => { d with erase := none }) |> countErase sb die
    let s2 := { s1 with media := { s1.media with erased := tset [] sb (tget [] s1.media.erased sb ++ [chan]) s1.media.erased } }
    let s3 := if ok then s2
      else s2 |> regAdd (pgFlc 0 + 0x260) 1 |> note 0x2104 (pgFch chan) sb |> retireBlock die (sbBlock sb)
    .next (arrayDone task (mediaTurn (eraseOver sb s3)))
  else .next s

/-- Superblocks that have become empty are to be erased (R125, R130). Those whose erase a power cycle has cut off are found the same
way. -/
def sweepEmpty (s : State) : State :=
  if !mediaUp s || !allBuilt s then s
  else
    let l := (s.media.sbs.filter fun e => !s.media.erasing.contains e.1 && sbEmpty e.1 s).map Prod.fst
    if l.isEmpty then s else { s with media := { s.media with erasing := s.media.erasing ++ l } }

/-! ### Failures of dies (R137) -/

/-- A die's units whose stripe also holds a unit of a die under rebuild: both are lost (R137). -/
def doubleLoss (die : Nat) (s : State) : State :=
  (validUnits (fun p => puaDie p = die) s).foldl (fun s u =>
    match validUnits (fun p => p ≠ u.2 && puaStripe p = puaStripe u.2 && s.media.rebuildDie.contains (puaDie p)) s with
    | [] => s
    | m :: _ => s |> loseUnit u.1 u.2 |> loseUnit m.1 m.2) s

/-- What was to go to a failed die goes elsewhere: the program that runs on it, and the open superblocks with a block on it close. Its read
is served another way. -/
def dieAbandon (die : Nat) (s : State) : State :=
  let units := (s.media.programs.filter (·.die = die)).flatMap (·.units)
  let s1 := { s with media := { s.media with programs := s.media.programs.filter (·.die ≠ die),
                                             reads := (dieGet die s).read.toList ++ s.media.reads } }
            |> dieMod die (fun d => { d with busy := false, read := none, erase := none })
  let mine (sb : Nat) : Bool := sbRow sb = die % 16 && (sbChans sb s1).contains (die / 16)
  let sbs := (((s1.media.sbs.filter fun e => e.2.isOpen).map Prod.fst ++ s1.media.placed.map (fun e => puaSb e.1) ++
    units.map (fun u => puaSb u.pua)).filter mine).eraseDups
  sbs.foldl (fun s sb => abandonSb sb (sbParity sb s = die / 16) (units.filter fun u => puaSb u.pua = sb) s) s1

/-- A die fails (R137): retired, its units are rebuilt through MOVE. Its unused spare blocks count no longer as left (DESIGN CHOICE, log
entry 141). -/
def dieFail (die : Nat) (s : State) : State :=
  if (dieGet die s).retired then s
  else
    let s1 := if s.media.rebuildDie.isEmpty then s else doubleLoss die s
    let s2 := s1 |> dieMod die (fun d => { d with retired := true }) |> note 0x2084 (pgFch (die / 16)) die |> dieAbandon die
    { s2 with media := { s2.media with diesRetired := s2.media.diesRetired + 1, rebuildDie := s2.media.rebuildDie ++ [die],
                                       spareLeft := spareNow s2 } } |> spareCheck

/-- DIE_READY_TIMEOUT (R137): a die times out and is reset; one that does not complete the reset, or times out again within
256 bolts, has failed. A running program fails under R135; reads and erases are issued again. -/
def execDieReadyTimeout (die : Nat) (resetOk : Bool) (s : State) : Host.Outcome State Fault Refusal :=
  if die < 512 then
    let d := dieGet die s
    if !dieOk die s || !mediaUp s then .next s
    else
      let again := match d.timeoutBolt with
        | some b => boltN s < b + 256
        | none => false
      let s1 := { s with media := { s.media with programs := s.media.programs.filter (·.die ≠ die), reads := d.read.toList ++ s.media.reads } }
                  |> dieMod die (fun d => { d with busy := false, read := none, erase := none, timeoutBolt := some (boltN s) })
                  |> note 0x2102 (pgFch (die / 16)) die
      let s2 := match s.media.programs.find? (·.die = die) with
        | some p => programFailed p s1
        | none => s1
      .next (mediaTurn (if again || !resetOk then dieFail die s2 else s2))
  else .fault .noSuchUnit

/-- DIE_REBUILD (R137): the valid units of a failed die move, each recovered from die parity; when none is left the rebuild of the die is
over. -/
def execDieRebuild (die : Nat) (s : State) : Host.Outcome State Fault Refusal :=
  if die < 512 then
    let us := validUnits (fun p => puaDie p = die) s
    if !mediaUp s || !allBuilt s || !s.media.rebuildDie.contains die then .next s
    else if us.isEmpty then .next { s with media := { s.media with rebuildDie := s.media.rebuildDie.filter (· ≠ die) } }
    else .next (mediaTurn (addMoves 4 .rebuild us s))
  else .fault .noSuchUnit

/-- The dies that a temperature reading stands for: the die read, or all those of its channel without a sensor (R145). -/
def tempDies (die : Nat) (s : State) : List Nat :=
  if bit (dieType die s).flags 3 then [die]
  else ((List.range 16).map fun r => dieNo (die / 16) r).filter fun k => dieOk k s && !bit (dieType k s).flags 3

/-- A die's temperature is `temp`: one at its T_MAX is held, with event 0x8185, until it reads T_MAX − 5 °C or below (R494). -/
def dieHeat (temp : Int) (s : State) (die : Nat) : State :=
  let top := (dieType die s).tMax
  let was := (dieGet die s).hot
  let hot := top ≤ temp || (was && top - 5 < temp)
  let s1 := dieMod die (fun d => { d with temp := temp, hot := hot }) s
  if hot && !was then note 0x8185 pgPwr die s1 else s1

/-- DIE_TEMPERATURE_READ (R145): every 256 bolts a die's temperature is read, or the controller sensor of its channel; between operations,
and never after the seal (R171). -/
def execDieTemperatureRead (die : Nat) (temp : Int) (s : State) : Host.Outcome State Fault Refusal :=
  if die < 512 then
    if !dieOk die s || !mediaUp s || dieHeld die s || (dieGet die s).read.isSome then .next s
    else .next (mediaTurn ((tempDies die s).foldl (dieHeat temp)
      (chanMod (die / 16) (fun x => { x with highTemp := some (max (x.highTemp.getD temp) temp) }) s)))
  else .fault .noSuchUnit

/-! ### Capacity -/

/-- TNVMCAP in GiB (R143). -/
def tnvmcapNow (s : State) : Nat :=
  let rows := (List.range 16).filter fun r => rowBlocks r s ≠ 0
  let c := (rows.flatMap fun r => (rowChans r s).map fun ch =>
    let t := dieType (dieNo ch r) s
    contributed t * t.pagesNative * t.planes * 16384).foldl (· + ·) 0
  let d := (rows.map fun r => rowBlocks r s).foldl (· + ·) 0
  let n := (rows.map fun r => rowBlocks r s * (rowChans r s).length).foldl (· + ·) 0
  let op := regFld (pgFlc 0 + 0x200) 7 0 s
  c * (n - d) * (99 - op) / (max 1 n * 100) / 2 ^ 30

end Sys2Proof.Machine
end

