-- ==== Sys2Proof/Machine/Restart.lean ====
section
/-!
DEFINITION. Checkpoints, the power-fail dump and the restart (R164, R165, R169, R173 to R177).
-/
namespace Sys2Proof.Machine

/-! ### Segments rebuilt -/

/-- Transactions that the ring commits up to a position: TXID, namespace index, SEQ. RECS has to be the number of the transaction's
records before its COMMIT (R159); they are looked for in all of the ring that is still there. -/
def ringCommits (from_ to_ : Nat) (s : State) : List (Nat × Nat × Nat) :=
  let first := to_ - ringN
  ((List.range (to_ - first)).foldl (fun (q : Tab Nat × List (Nat × Nat × Nat)) k =>
    let v := (ringRec (first + k) s).toNat
    let tx := bits v 63 32
    match v % 128 with
    | 1 => (tmod 0 tx (· + 1) q.1, q.2)
    | 2 => (tmod 0 tx (· + 1) q.1, q.2)
    | 3 => if from_ ≤ first + k && tget 0 q.1 tx = bits v 15 8 then (q.1, q.2 ++ [(tx, bits v 25 16, bits v 127 64)]) else q
    | _ => q) ([], [])).2

/-- Replays one record on a segment's entries (R165, R173 step 7): PLACE, and DISCARD of a committed transaction. -/
def replayRec (g : Nat) (commits : List (Nat × Nat × Nat)) (m : Tab (BitVec 40)) (r : BitVec 128) : Tab (BitVec 40) :=
  let v := r.toNat
  if recType r = 4 then
    let i := bits v 104 72
    if segOf i = g then tset 0 i (BitVec.ofNat 40 (bits v 71 32)) m else m
  else if recType r = 2 && (commits.any fun c => c.1 = bits v 63 32) then
    (List.range (bits v 15 8)).foldl (fun m k =>
      let i := bits v 96 64 + k
      if segOf i = g then tset 0 i (mkEntry 0 false true false false false) m else m) m
  else m

/-- The unit at a page address is a parity unit. -/
def isParity (p : Nat) (s : State) : Bool := p = stripeParity (puaStripe p) s

/-- The metadata of a page says what it holds: its CRC passes, and it is of the superblock that it stands in. Parity units, pads and the
accumulators that a dump has saved say nothing of the kind (R120, R123, R167). -/
def ownUnit (e : Nat × Page) (s : State) : Bool := e.2.metaOk && !isParity e.1 s && e.2.sbSeq = (sbGet (puaSb e.1) s).sbSeq

/-- The map entries of a segment as flash metadata gives them (R176): the highest SEQ wins, then the highest SB_SEQ; a unit whose
metadata CRC fails counts as unwritten (R120). -/
def scanSegment (g : Nat) (s : State) : Tab (BitVec 40) :=
  let better (a b : Page) : Bool := b.seq < a.seq || (a.seq = b.seq && b.sbSeq < a.sbSeq)
  let found := s.media.pages.foldl (fun (t : Tab (Nat × Page)) e =>
    let p := e.2
    if !ownUnit e s || p.nsIdx = 0x3FF then t
    else match (if p.nsIdx + 1 = storeNsid then some (storeNsid, tget {} s.nss storeNsid)
        else s.nss.find? fun n => n.1 = p.nsIdx + 1 && n.2.active && p.lun < n.2.units) with
    | none => t
    | some n =>
      let i := 65536 * n.2.base + p.lun
      if segOf i ≠ g then t
      else match t.find? (·.1 = i) with
        | some q => if better p q.2.2 then tput i (e.1, p) t else t
        | none => tput i (e.1, p) t) []
  found.map fun e => (e.1, mkEntry e.2.1 true false false e.2.2.slc e.2.2.cfs)

/-- The granules of a segment's current checkpoint that hold a byte other than 0: byte of the map, bytes (R165). -/
def ckptBytes (g : Nat) (s : State) : List (Nat × Bytes) :=
  let d := tget (0, 0) s.die.ckpt g
  if d = (0, 0) then []
  else (s.media.pages.filter fun e => ownUnit e s && e.2.nsIdx = 0x3FF && e.2.lun / 2048 = g && e.2.seq = d.1).flatMap fun e =>
    ((List.range 4).map fun k => (33554432 * g + 16384 * (e.2.lun % 2048) + 4096 * k, (e.2.granule k).bytes)).filter fun b => !b.2.isEmpty

/-- Map entries from bytes of the map. -/
def entriesOf (l : List (Nat × Bytes)) : Tab (BitVec 40) :=
  l.foldl (fun t b => (b.2.zipIdx).foldl (fun t x =>
    tmod 0 ((b.1 + x.2) / 5) (· + BitVec.ofNat 40 (x.1.toNat * 256 ^ ((b.1 + x.2) % 5))) t) t) []

/-- The entries of a segment as its checkpoint holds them. The last bytes of an entry that straddles its end stand in the next segment's
(R164). -/
def ckptEntries (g : Nat) (s : State) : Tab (BitVec 40) :=
  let next := (ckptBytes (g + 1) s).filterMap fun b => if b.1 = 33554432 * (g + 1) then some (b.1, b.2.take 4) else none
  (entriesOf (ckptBytes g s ++ next)).filter fun e => segOf e.1 = g

/-- A segment's entries: from its checkpoint (`ok`), or from unit metadata, with the ring's records on top. An entry that straddles the
segment's end is replayed from the older of the two checkpoints. -/
def segBuild (g : Nat) (ok : Bool) (s : State) : Tab (BitVec 40) :=
  let start := (tget (0, 0) s.die.ckpt g).1
  let other := (tget (0, 0) s.die.ckpt (g + 1)).1
  let upto := tget 0 s.jnl.replayTo g
  let commits := ringCommits (min start other) upto s
  let last := 33554432 * (g + 1) / 5
  let run (a : Nat) (m : Tab (BitVec 40)) : Tab (BitVec 40) :=
    (List.range (upto - a)).foldl (fun m k => replayRec g commits m (ringRec (a + k) s)) m
  let base := if ok then ckptEntries g s else scanSegment g s
  let m := run start base
  if other < start && 33554432 * (g + 1) % 5 ≠ 0 then tset 0 last (tget 0 (run other base) last) m else m

/-- A lost acknowledged write is marked in the built map (R174). The delta is journaled, and a RELEASE for its slot, if no later
write holds it, so that the next restart does not find the loss again. -/
def applyLoss (x : Late) (s : State) : State :=
  let e := BitVec.ofNat 40 (setBit (mapGet x.midx s).toNat 36 true)
  let s1 := mapPut x.midx e s |> jWindow (recPlace none e x.midx) [] |> segCount (segOf x.midx) 1
              |> regAdd (pgFlc 0 + 0x270) 1
  if (slotGet x.slot s1).used then s1 else jWindow (recRelease x.slot) [] s1

/-- The updates that came while the segment was not built, in order (R174, R176). -/
def applyLate (g : Nat) (s : State) : State :=
  let mine := s.jnl.late.filter fun x => segOf x.midx = g
  let s1 := { s with jnl := { s.jnl with late := s.jnl.late.filter fun x => segOf x.midx ≠ g } }
  mine.foldl (fun s x =>
    if x.poison then applyLoss x s
    else mapUpdate x.midx x.entry x.seq s) s1

/-- A word of the ring that a running part needs cannot be read (R163). -/
def ringBadIn (a b : Nat) (s : State) : Bool := (List.range (min b s.die.head - a)).any fun k => ringBad (a + k) s.die

/-- SEGMENT_REBUILD (R173 step 7, R175, R176): one of the segments that are building is built from its checkpoint and the
ring; `ok` false: the checkpoint cannot be read, even with die parity, so the metadata of the units stands for it, event 0x1204. An
uncorrectable word of the ring is device-fatal (R163). -/
def execSegmentRebuild (seg : Nat) (ok : Bool) (s : State) : Host.Outcome State Fault Refusal :=
  let start := (tget (0, 0) s.die.ckpt seg).1
  if !s.jnl.indexed || !mediaUp s || segState seg s ≠ .building then .next s
  else if ringBadIn start (tget 0 s.jnl.replayTo seg) s then .next (raise 0x1201 pgJnl 0 s)
  else
    let waited := match s.jnl.promoFrom.find? (·.1 = seg) with
      | some e => pickN s - e.2
      | none => 0
    let s1 := { s with map := (segBuild seg ok s).foldl (fun t e => tset 0 e.1 e.2 t) s.map,
                       jnl := { s.jnl with segs := tdel seg s.jnl.segs, promoFrom := tdel seg s.jnl.promoFrom } }
                |> regAdd (pgFlc 0 + 0x250) (if tget (0, 0) s.die.ckpt seg = (0, 0) then 0 else 2048)
                |> applyLate seg |> regMax (pgJnl + 0x150) (min 65535 waited) |> buildNext 4
    let s2 := if ok then s1 else note 0x1204 pgJnl seg s1
    .next (if s2.jnl.segs.isEmpty
      then s2 |> note 0x1286 pgJnl 0 |> regSet (pgJnl + 0x14C) ((pickN s - s.jnl.readyPick) % 2 ^ 32) else s2)

/-! ### Checkpoints -/

/-- A segment's checkpoint begins (R165): START, a copy of the segment, an entry of its neighbour that reaches into it included; its 2,048
units are placed and programmed in the CKPT stream. A copy that meets DRAM poison is abandoned (R154). -/
def checkpoint (g : Nat) (s : State) : State :=
  let (a, n) := segRange g
  if segState g s ≠ .built || segTotal s ≤ g || (tget {} s.jnl.ckpts g).left ≠ 0 then s
  else if mapPoisoned a n s then s |> dramMet (5 * a) (5 * n) |> mapPoisonFound g
  else
    let copy := s.map.filter fun e => 33554432 * g < 5 * e.1 + 5 && 5 * e.1 < 33554432 * (g + 1)
    { s with jnl := { s.jnl with ckpts := tset {} g { start := jHead s, copy := copy, left := 2048, recs := tget 0 s.jnl.segRecs g } s.jnl.ckpts } }

/-- Every controller that was enabled has been shut down: a clean shutdown of the part (R177; DEDUCED, log entry 142). -/
def shutAll (s : State) : Bool :=
  (s.fns.any fun e => e.2.shst = 2) && !(s.fns.any fun e => e.2.rdy && e.2.shst ≠ 2) && s.boot.phase = .ready

/-- CHECKPOINT_START (R161, R165, R177): the segment is checkpointed when 65,536 records have accumulated for it, when the ring
is fuller than RING_PCT and its START is the oldest, and at a shutdown. -/
def execCheckpointStart (seg : Nat) (s : State) : Host.Outcome State Fault Refusal :=
  let start (g : Nat) : Nat := (tget (0, 0) s.die.ckpt g).1
  let full := regFld (pgJnl + 0x138) 7 0 s * ringN < jUsed s * 100
  let oldest := (List.range (segTotal s)).all fun g => start seg ≤ start g
  let wanted := 65536 ≤ tget 0 s.jnl.segRecs seg || (full && oldest) || ((emptyStaging s || shutAll s) && tget 0 s.jnl.segRecs seg ≠ 0)
  if mediaUp s && s.jnl.indexed && wanted then .next (mediaTurn (placeAll (checkpoint seg s))) else .next s

/-! ### The power-fail dump -/

/-- The parity unit of a stripe is programmed from its accumulator at once: in the dump, and on the way to PS4 (R167, R177). -/
def parityNow (k : Nat) (s : State) : State :=
  match accOf k s with
  | none => s
  | some j =>
    let t := accRepair k s
    { t with media := { t.media with pages := tput (stripeParity k t) (accPage j t) t.media.pages, unitsAll := t.media.unitsAll + 1 } }
      |> accFree k

/-- Programs one page in the DUMP stream: its address. The stripe's parity follows its last data unit (R167). -/
def dumpPage (f : Superblock → Page) (s : State) : Option Nat × State :=
  let (sb, s) := match openSb 2 s with
    | some b => (some b, s)
    | none => takeSb 2 s
  match sb with
  | none => (none, s)
  | some b =>
    let x := sbGet b s
    let cap := sbUnitsN b false s
    let n := nextPlace b s (cap - x.placed) x.placed
    if cap ≤ n then (none, sbMod b (fun x => { x with isOpen := false }) s)
    else
      let pua := sbPua b n s
      let t := { s with media := { s.media with pages := tput pua (f x) s.media.pages, unitsAll := s.media.unitsAll + 1, unitsHost := s.media.unitsHost + 1 } }
        |> regAdd (pgFlc 0 + 0x230) 1 |> regAdd (pgFch (puaChan pua) + 0x110) (b2n (puaPlane pua = 0))
        |> quadBeats (puaChan pua) 4 1 |> addParity pua (f x)
        |> sbMod b (fun x => { x with placed := n + 1, isOpen := n + 1 < cap })
      (some pua, if stripeDone (puaStripe pua) t then parityNow (puaStripe pua) t else t)

/-- As `dumpPage`, with a second try in the next superblock. -/
def dumpPage2 (f : Superblock → Page) (s : State) : Option Nat × State :=
  match dumpPage f s with
  | (some a, t) => (some a, t)
  | (none, t) => dumpPage f t

/-- The positions of a page index that its stripes' parity no longer covers are left out: the stream goes on at the next page (R122,
R177). -/
def pageClose (sb : Nat) (s : State) : State :=
  let x := sbGet sb s
  let n := (sbData sb s).length * sbPlanes sb s
  let k := cdiv x.placed (max 1 n) * n
  sbSet sb { x with placed := k, isOpen := x.isOpen && k < sbUnitsN sb x.native s } s

/-- The parity of every open stripe is programmed from its accumulator (R177). -/
def paritiesNow (s : State) : State :=
  let sbs := (s.media.parity.map fun e => e.1 / 16384).eraseDups
  sbs.foldl (fun s sb => pageClose sb s) (s.media.parity.foldl (fun s e => parityNow e.1 s) s)

/-- A slot that the dump has to save: of a committed transaction, without a DUMP record (R167, R172). -/
def slotToDump (x : Slot) : Bool := x.used && x.committed && x.dumped.isNone && x.released.isNone

/-- Occupied slots of committed transactions that no DUMP record covers yet, in ascending order. -/
def dumpSet (s : State) : Tab Slot := s.jnl.slots.filter fun e => slotToDump e.2

/-- Dumps a slot, with a DUMP record after the program (R167); counts it. -/
def dumpSlot (q : Nat × State) (e : Nat × Slot) : Nat × State :=
  let x := e.2
  let t := hamMet (hamVia 1 q.2) (slotOffset e.1 q.2) 16384 q.2
  let gs := slotGranules e.1 t
  let page (b : Superblock) : Page :=
    mkPage { unitMeta x.midx b t with slc := true, stream := 2, seq := x.seq, cfs := x.cfs, stripe := x.stripe } gs
  match dumpPage2 page t with
  | (some pua, u) => (q.1 + 1, u |> slotMod e.1 (fun x => { x with dumped := some pua })
                                 |> jIssue [recDump x.gmask.toNat e.1 pua] [] |> jDrain)
  | (none, u) => (q.1, u)

/-- Dumps the first `n` of the slots that have to be saved; answers how many it has dumped. -/
def dumpSlots (n : Nat) (s : State) : Nat × State := ((dumpSet s).take n).foldl dumpSlot (0, s)

/-- Dumps the die-parity accumulators of the open stripes (R167), data and metadata as they stand (DESIGN CHOICE, log entry 143). The
DUMP stream's own stripes get their parity. -/
def dumpParity (s : State) : State :=
  (s.media.parity.filter fun e => (sbGet (e.1 / 16384) s).stream ≠ some 2).foldl (fun s e =>
    match dumpPage2 (fun _ => accPage (e.2 - 1) s) (accRepair e.1 s) with
    | (some pua, t) => { t with media := { t.media with accDump := tput e.1 (pua + 1) t.media.accDump } }
    | (none, t) => t) { s with media := { s.media with accDump := [] } }

/-- Units that fill the planes left out of the last pages of the DUMP superblock (R123). -/
def dumpPads (sb : Nat) (s : State) : State :=
  let x := sbGet sb s
  let n := (sbData sb s).length * sbPlanes sb s
  let page := x.placed / max 1 n
  let pads := ((List.range n).map fun k => sbPua sb (page * n + k) s).filter fun p =>
    !pageThere p s && (List.range (sbPlanes sb s)).any fun pl => pageThere (mkPua (puaChan p) (sbRow sb) pl (sbBlock sb) page) s
  if x.placed % max 1 n = 0 then s
  else sbSet sb { x with placed := (page + 1) * n, isOpen := (page + 1) * n < sbUnitsN sb false s }
    { s with media := { s.media with pages := pads.foldl (fun t p => tput p {} t) s.media.pages, unitsAll := s.media.unitsAll + pads.length } }

/-- The end of the dump: pad units, and the parity of the last stripes (R122, R123, R167). -/
def dumpEnd (s : State) : State :=
  let mine := (s.media.parity.filter fun e => (sbGet (e.1 / 16384) s).stream = some 2).map Prod.fst
  let sbs := ((s.media.sbs.filter fun e => e.2.stream = some 2 && e.2.isOpen && e.2.placed ≠ 0).map Prod.fst)
  mine.foldl (fun s k => parityNow k s) (sbs.foldl (fun s sb => dumpPads sb s) s)

/-- Staging can be dumped: the Hamper, the flash, the crossbar and the journal have survived (R203, R467). -/
def mayDump (s : State) : Bool :=
  let st := regGet (pgGlb + 0x130) s
  !fenced pgHam s && s.media.tableOk && !s.die.failed && !bit st 0 && !bit st 3

/-- The dump as far as it gets: `n` slots, and once all are saved the accumulators and the end of the stripes (R167, R172). -/
def dumpRun (n : Nat) (s : State) : Nat × State :=
  if !mayDump s then (0, s)
  else
    let r := dumpSlots n s
    if (dumpSet s).length < n then (r.1, dumpEnd (dumpParity r.2)) else r

/-- D of R169 for `u` units and accumulators, in picks: n is the smallest die count among the open and standby DUMP superblocks. -/
def dumpPicks (u : Nat) (s : State) : Nat :=
  let mine := (openSb 2 s).toList ++ s.media.standby
  let sb := mine.headD 0
  let chans := sbChans sb s
  let n := mine.foldl (fun m b => min m (sbChans b s).length) chans.length
  let p := sbPlanes sb s
  let t := dieType (dieNo (chans.headD 0) (sbRow sb)) s
  let rate := match (chanGet (chans.headD 0) s).bin with
    | 1 => 800 | 2 => 1600 | 3 => 2400 | 4 => 3200 | 5 => 3600 | _ => 4800
  let tUnit := cdiv (18560 * 1600) rate
  let w := cdiv u (max 1 ((n - 1) * p))
  2 + (w + 2) * (t.tprogSlc + cdiv (p * tUnit) 6400) + 4

/-! ### The restart -/

/-- A committed STAGE record whose slot no later record releases, with its DUMP page. -/
structure Staged where
  slot : Nat := 0
  gmask : Nat := 0
  midx : Nat := 0
  txid : Nat := 0
  pos : Nat := 0
  dump : Option Nat := none
deriving DecidableEq, Repr

/-- One ring record's effect on the staging directory (R159, R160, R173). -/
def indexRec (pos : Nat) (r : BitVec 128) (l : List Staged) : List Staged :=
  let v := r.toNat
  let slot := bits v 27 16
  match recType r with
  | 1 => l.filter (·.slot ≠ slot) ++ [{ slot := slot, gmask := bits v 11 8, midx := bits v 96 64, txid := bits v 63 32, pos := pos }]
  | 4 => if bit v 31 then l.filter (·.slot ≠ slot) else l
  | 5 => l.filter (·.slot ≠ slot)
  | 6 => l.map fun x => if x.slot = slot then { x with dump := some (bits v 65 32) } else x
  | _ => l

/-- The address in the last DUMP record from a position on. -/
def lastDump (from_ : Nat) (s : State) : Option Nat :=
  (List.range (s.die.head - from_)).foldl (fun q k =>
    let r := ringRec (from_ + k) s
    if recType r = 6 then some (bits r.toNat 65 32) else q) none

/-- A page was programmed after another one of the DUMP stream (R165, R173 step 4). -/
def pageAfter (p q : Nat) (s : State) : Bool :=
  let a := (sbGet (puaSb p) s).sbSeq
  let b := (sbGet (puaSb q) s).sbSeq
  let key (x : Nat) : Nat := (puaPage x * 4 + puaPlane x) * 32 + puaChan x
  b < a || (a = b && key q < key p)

/-- The staging directory that the ring spells from a position on (R173 steps 2, 3, 5). -/
def indexRing (from_ : Nat) (s : State) : List Staged :=
  (List.range (s.die.head - from_)).foldl (fun l k => indexRec (from_ + k) (ringRec (from_ + k) s) l) []

/-- The page that holds a committed STAGE's data: its DUMP page, else a page of a DUMP superblock with its unit and SEQ that was
programmed after the last DUMP record (R173 step 4). -/
def dumpedPage (x : Staged) (nsIdx seq : Nat) (last : Option Nat) (s : State) : Option (Nat × Page) :=
  let base := 65536 * (nsGet (nsIdx + 1) s).base
  match x.dump with
  | some p => s.media.pages.find? (·.1 = p)
  | none => s.media.pages.find? fun e => ownUnit e s && (sbGet (puaSb e.1) s).stream = some 2 && e.2.nsIdx = nsIdx &&
      base + e.2.lun = x.midx && e.2.seq = seq && last.all fun q => pageAfter e.1 q s

/-- A lost acknowledged write (R174). -/
def loseStaged (i slot : Nat) (s : State) : State :=
  { s with jnl := { s.jnl with late := s.jnl.late ++ [{ midx := i, poison := true, slot := slot }], holdupFail := true },
           qe := { s.qe with warn4 := true } }
    |> logLost i 0 4 |> note 0x1203 pgJnl i

/-- Brings one committed STAGE back (R173 step 5), or marks its unit lost (R174). -/
def restoreSlot (commits : List (Nat × Nat × Nat)) (last : Option Nat) (x : Staged) (s : State) : State :=
  match commits.find? fun c => c.1 = x.txid with
  | none => s
  | some (_, nsIdx, seq) =>
    match dumpedPage x nsIdx seq last s with
    | some (pua, p) =>
      slotSet x.slot { used := true, midx := x.midx, gmask := BitVec.ofNat 4 x.gmask, txid := x.txid, seq := seq, full := true,
                       committed := true, nsid := nsIdx + 1, posted := 1, pos := x.pos, dumped := some pua, cfs := p.cfs,
                       stripe := p.stripe } (slotStore x.slot 0xF p.granules s)
    | none => loseStaged x.midx x.slot s

/-- Discarded units whose earlier write is in staging again (R87). -/
def restoreDiscs (from_ : Nat) (commits : List (Nat × Nat × Nat)) (s : State) : State :=
  (List.range (s.die.head - from_)).foldl (fun s k =>
    let v := (ringRec (from_ + k) s).toNat
    match commits.find? fun c => c.1 = bits v 63 32 with
    | some (_, nsIdx, seq) =>
      if v % 128 ≠ 2 then s
      else (List.range (bits v 15 8)).foldl (fun s q =>
        let i := bits v 96 64 + q
        if earlierWrite i seq s then
          { s with jnl := { s.jnl with disc := s.jnl.disc ++ [{ midx := i, seq := seq, nsid := nsIdx + 1 }] } }
        else s) s
    | none => s) s

/-- The highest TXID that the ring still shows: transactions are numbered on from it (R159). -/
def lastTxid (s : State) : Nat :=
  let first := s.die.head - ringN
  (List.range (s.die.head - first)).foldl (fun m k =>
    let r := ringRec (first + k) s
    if recType r = 1 || recType r = 2 || recType r = 3 then max m (bits r.toNat 63 32) else m) 0

/-- Records of each segment since its START: PLACE and DISCARD (R165). -/
def segRecsNow (from_ : Nat) (s : State) : Tab Nat :=
  (List.range (s.die.head - from_)).foldl (fun t k =>
    let v := (ringRec (from_ + k) s).toNat
    let g := if v % 128 = 4 then some (segOf (bits v 104 72)) else if v % 128 = 2 then some (segOf (bits v 96 64)) else none
    match g with
    | some g => if (tget (0, 0) s.die.ckpt g).1 ≤ from_ + k then tmod 0 g (· + 1) t else t
    | none => t) []

/-- The accumulators of open stripes come back: from their dumped pages, else from the stripe's programmed units; open superblocks with a
position that was taken and never programmed are closed (DEDUCED, log entry 144). -/
def accLoad (s : State) : State :=
  let s1 := s.media.accDump.foldl (fun s e => addParity (stripeParity e.1 s) (pageAtPua (e.2 - 1) s) s) s
  let open_ := (s1.media.pages.filter fun e => !e.2.pad && !isParity e.1 s1 && (sbGet (puaSb e.1) s1).stream.isSome &&
    (accOf (puaStripe e.1) s1).isNone && !pageThere (stripeParity (puaStripe e.1) s1) s1)
  let s2 := open_.foldl (fun s e => addParity e.1 e.2 s) s1
  let holes := (s2.media.sbs.filter fun e => e.2.isOpen && (List.range e.2.placed).any fun k => !pageThere (sbPua e.1 k s2) s2).map Prod.fst
  holes.foldl (fun s sb => sbMod sb (fun x => { x with isOpen := false, closedBolt := boltN s }) s)
    { s2 with media := { s2.media with accDump := [] } }

end Sys2Proof.Machine
end

