-- ==== Sys2Proof/Machine/Sha.lean ====
section
/-!
DEFINITION. SHA-256 and SHA-512 per FIPS 180-4, over byte strings (R256, R260).
-/
namespace Sys2Proof.Machine

/-- What SHA-256 and SHA-512 differ in: the word width, the rounds, the constants and the shifts of the four functions. -/
structure ShaKind where
  /-- Bits of a word. -/
  bits : Nat
  /-- The round constants, one a round. -/
  consts : List Nat
  /-- The initial hash value. -/
  start : List Nat
  /-- Σ0, Σ1: three rotations each. -/
  big0 : Nat × Nat × Nat
  big1 : Nat × Nat × Nat
  /-- σ0, σ1: two rotations and a shift each. -/
  small0 : Nat × Nat × Nat
  small1 : Nat × Nat × Nat
  deriving DecidableEq, Repr

/-- The 64 round constants of SHA-256. -/
def sha256K : List Nat :=
  [0x428a2f98, 0x71374491, 0xb5c0fbcf, 0xe9b5dba5, 0x3956c25b, 0x59f111f1, 0x923f82a4, 0xab1c5ed5] ++
  [0xd807aa98, 0x12835b01, 0x243185be, 0x550c7dc3, 0x72be5d74, 0x80deb1fe, 0x9bdc06a7, 0xc19bf174] ++
  [0xe49b69c1, 0xefbe4786, 0x0fc19dc6, 0x240ca1cc, 0x2de92c6f, 0x4a7484aa, 0x5cb0a9dc, 0x76f988da] ++
  [0x983e5152, 0xa831c66d, 0xb00327c8, 0xbf597fc7, 0xc6e00bf3, 0xd5a79147, 0x06ca6351, 0x14292967] ++
  [0x27b70a85, 0x2e1b2138, 0x4d2c6dfc, 0x53380d13, 0x650a7354, 0x766a0abb, 0x81c2c92e, 0x92722c85] ++
  [0xa2bfe8a1, 0xa81a664b, 0xc24b8b70, 0xc76c51a3, 0xd192e819, 0xd6990624, 0xf40e3585, 0x106aa070] ++
  [0x19a4c116, 0x1e376c08, 0x2748774c, 0x34b0bcb5, 0x391c0cb3, 0x4ed8aa4a, 0x5b9cca4f, 0x682e6ff3] ++
  [0x748f82ee, 0x78a5636f, 0x84c87814, 0x8cc70208, 0x90befffa, 0xa4506ceb, 0xbef9a3f7, 0xc67178f2]

/-- The initial hash value of SHA-256. -/
def sha256H : List Nat :=
  [0x6a09e667, 0xbb67ae85, 0x3c6ef372, 0xa54ff53a, 0x510e527f, 0x9b05688c, 0x1f83d9ab, 0x5be0cd19]

/-- The 80 round constants of SHA-512. -/
def sha512K : List Nat :=
  [0x428a2f98d728ae22, 0x7137449123ef65cd, 0xb5c0fbcfec4d3b2f, 0xe9b5dba58189dbbc] ++
  [0x3956c25bf348b538, 0x59f111f1b605d019, 0x923f82a4af194f9b, 0xab1c5ed5da6d8118] ++
  [0xd807aa98a3030242, 0x12835b0145706fbe, 0x243185be4ee4b28c, 0x550c7dc3d5ffb4e2] ++
  [0x72be5d74f27b896f, 0x80deb1fe3b1696b1, 0x9bdc06a725c71235, 0xc19bf174cf692694] ++
  [0xe49b69c19ef14ad2, 0xefbe4786384f25e3, 0x0fc19dc68b8cd5b5, 0x240ca1cc77ac9c65] ++
  [0x2de92c6f592b0275, 0x4a7484aa6ea6e483, 0x5cb0a9dcbd41fbd4, 0x76f988da831153b5] ++
  [0x983e5152ee66dfab, 0xa831c66d2db43210, 0xb00327c898fb213f, 0xbf597fc7beef0ee4] ++
  [0xc6e00bf33da88fc2, 0xd5a79147930aa725, 0x06ca6351e003826f, 0x142929670a0e6e70] ++
  [0x27b70a8546d22ffc, 0x2e1b21385c26c926, 0x4d2c6dfc5ac42aed, 0x53380d139d95b3df] ++
  [0x650a73548baf63de, 0x766a0abb3c77b2a8, 0x81c2c92e47edaee6, 0x92722c851482353b] ++
  [0xa2bfe8a14cf10364, 0xa81a664bbc423001, 0xc24b8b70d0f89791, 0xc76c51a30654be30] ++
  [0xd192e819d6ef5218, 0xd69906245565a910, 0xf40e35855771202a, 0x106aa07032bbd1b8] ++
  [0x19a4c116b8d2d0c8, 0x1e376c085141ab53, 0x2748774cdf8eeb99, 0x34b0bcb5e19b48a8] ++
  [0x391c0cb3c5c95a63, 0x4ed8aa4ae3418acb, 0x5b9cca4f7763e373, 0x682e6ff3d6b2b8a3] ++
  [0x748f82ee5defb2fc, 0x78a5636f43172f60, 0x84c87814a1f0ab72, 0x8cc702081a6439ec] ++
  [0x90befffa23631e28, 0xa4506cebde82bde9, 0xbef9a3f7b2c67915, 0xc67178f2e372532b] ++
  [0xca273eceea26619c, 0xd186b8c721c0c207, 0xeada7dd6cde0eb1e, 0xf57d4f7fee6ed178] ++
  [0x06f067aa72176fba, 0x0a637dc5a2c898a6, 0x113f9804bef90dae, 0x1b710b35131c471b] ++
  [0x28db77f523047d84, 0x32caab7b40c72493, 0x3c9ebe0a15c9bebc, 0x431d67c49c100d4c] ++
  [0x4cc5d4becb3e42b6, 0x597f299cfc657e2a, 0x5fcb6fab3ad6faec, 0x6c44198c4a475817]

/-- The initial hash value of SHA-512. -/
def sha512H : List Nat :=
  [0x6a09e667f3bcc908, 0xbb67ae8584caa73b, 0x3c6ef372fe94f82b, 0xa54ff53a5f1d36f1] ++
  [0x510e527fade682d1, 0x9b05688c2b3e6c1f, 0x1f83d9abfb41bd6b, 0x5be0cd19137e2179]

/-- The message padded to whole blocks of `blk` bytes with a length field of `len` bytes (FIPS 180-4, section 5.1). -/
def shaPad (blk len : Nat) (m : Bytes) : Bytes :=
  let z := (2 * blk - 1 - len - m.length % blk) % blk
  m ++ [0x80] ++ zeros z ++ natBe len (8 * m.length)

/-- The parameters of SHA-256 (FIPS 180-4, section 4.1.2). -/
def sha256Kind : ShaKind :=
  { bits := 32, consts := sha256K, start := sha256H, big0 := (2, 13, 22), big1 := (6, 11, 25), small0 := (7, 18, 3)
    small1 := (17, 19, 10) }

/-- The parameters of SHA-512 (FIPS 180-4, section 4.1.3). -/
def sha512Kind : ShaKind :=
  { bits := 64, consts := sha512K, start := sha512H, big0 := (28, 34, 39), big1 := (14, 18, 41), small0 := (1, 8, 7)
    small1 := (19, 61, 6) }

/-- A word rotated right. -/
def shaRot (bits x n : Nat) : Nat := (x / 2 ^ n + x * 2 ^ (bits - n)) % 2 ^ bits

/-- Σ0 or Σ1 of a word. -/
def shaBig (bits : Nat) (r : Nat × Nat × Nat) (x : Nat) : Nat :=
  Nat.xor (Nat.xor (shaRot bits x r.1) (shaRot bits x r.2.1)) (shaRot bits x r.2.2)

/-- σ0 or σ1 of a word. -/
def shaSmall (bits : Nat) (r : Nat × Nat × Nat) (x : Nat) : Nat :=
  Nat.xor (Nat.xor (shaRot bits x r.1) (shaRot bits x r.2.1)) (x / 2 ^ r.2.2)

/-- Word `i` of a string of words held as one number, word 0 lowest. -/
def wordOf (bits w i : Nat) : Nat := w / 2 ^ (bits * i) % 2 ^ bits

/-- Words as one number, the first lowest. -/
def packWords (bits : Nat) : List Nat → Nat
  | [] => 0
  | x :: l => x + 2 ^ bits * packWords bits l

/-- The message schedule of a block: its 16 words, then one more for each later round. -/
def shaSchedule (k : ShaKind) (blk : Bytes) : Nat :=
  let n := k.bits / 8
  foldNat (fun w i =>
      w + 2 ^ (k.bits * (i + 16)) * ((wordOf k.bits w i + shaSmall k.bits k.small0 (wordOf k.bits w (i + 1))
        + wordOf k.bits w (i + 9) + shaSmall k.bits k.small1 (wordOf k.bits w (i + 14))) % 2 ^ k.bits))
    (packWords k.bits ((List.range 16).map fun i => beNat ((blk.drop (n * i)).take n))) (List.range (k.consts.length - 16))

/-- One round on the eight working variables a to h, held as one number with a lowest. -/
def shaRound (k : ShaKind) (w consts r i : Nat) : Nat :=
  let v (j : Nat) := wordOf k.bits r j
  withNat (v 7 + shaBig k.bits k.big1 (v 4) + Nat.xor (Nat.land (v 4) (v 5)) (Nat.land (2 ^ k.bits - 1 - v 4) (v 6))
      + wordOf k.bits consts i + wordOf k.bits w i) fun t1 =>
  withNat (shaBig k.bits k.big0 (v 0)
      + Nat.xor (Nat.xor (Nat.land (v 0) (v 1)) (Nat.land (v 0) (v 2))) (Nat.land (v 1) (v 2))) fun t2 =>
  packWords k.bits [(t1 + t2) % 2 ^ k.bits, v 0, v 1, v 2, (v 3 + t1) % 2 ^ k.bits, v 4, v 5, v 6]

/-- The hash value after one more block. -/
def shaBlock (k : ShaKind) (h : Nat) (blk : Bytes) : Nat :=
  withNat (shaSchedule k blk) fun w => withNat (packWords k.bits k.consts) fun consts =>
  withNat (foldNat (shaRound k w consts) h (List.range k.consts.length)) fun r =>
  packWords k.bits ((List.range 8).map fun i => (wordOf k.bits h i + wordOf k.bits r i) % 2 ^ k.bits)

/-- The digest of a message, in the standard's byte order. -/
def shaRun (k : ShaKind) (m : Bytes) : Bytes :=
  let p := shaPad (2 * k.bits) (k.bits / 4) m
  withNat (foldNat (shaBlock k) (packWords k.bits k.start) (chunks (2 * k.bits) p.length p)) fun h =>
  (List.range 8).flatMap fun i => natBe (k.bits / 8) (wordOf k.bits h i)

/-- SHA-256 of a message: 32 bytes. -/
def sha256 (m : Bytes) : Bytes := shaRun sha256Kind m

/-- SHA-512 of a message: 64 bytes. -/
def sha512 (m : Bytes) : Bytes := shaRun sha512Kind m

end Sys2Proof.Machine
end

