-- ==== Sys2Proof/Machine/Cmd.lean ====
section
/-!
DEFINITION. What NVMe commands share (R78 to R91, R152, R159): the range guard, host data, the resolution of reads, the
staging and transactions of writes, and the gate of critical commands.
-/
namespace Sys2Proof.Machine

/-! ### The range guard (R84 to R86) -/

/-- Guard regions that extents in granules touch, ascending, each with the units it touches in it. -/
def guardRegions (l : List (Nat × Nat)) : Tab Nat :=
  l.foldl (fun t e =>
    if e.2 = 0 then t
    else
      let u0 := e.1 / 4
      let u1 := (e.1 + e.2 - 1) / 4
      (List.range (u1 / 64 - u0 / 64 + 1)).foldl (fun t k =>
        let r := u0 / 64 + k
        let lo := max u0 (64 * r)
        let hi := min u1 (64 * r + 63)
        tput r (Nat.lor (tget 0 t r) (2 ^ (lo % 64) * (2 ^ (hi - lo + 1) - 1))) t) t) []

/-- The KEY of a guard entry (R85). -/
def guardKey (region cls units : Nat) : BitVec 96 := BitVec.ofNat 96 (region % 2 ^ 27 + cls * 2 ^ 27 + units * 2 ^ 32)

/-- The entries that a command's extents ask for: a region with input and output units is one write (R85). -/
def guardKeys (x : Ctx) : List (BitVec 96) :=
  let w := guardRegions (writeExtents x)
  (guardRegions (readExtents x ++ writeExtents x)).map fun e => guardKey e.1 (b2n (w.any (·.1 = e.1))) e.2

/-- Gives a command its extents and its guard entries 3c to 3c + 2; a command over more than 3 regions is wide and holds
none (R85, R86). -/
def guardTake (c : Nat) (x : Ctx) (s : State) : State :=
  let ks := guardKeys x
  let x := { x with wide := 3 < ks.length }
  let s1 := ctxSet c x (guardFree c s)
  if x.wide then s1
  else
    let t := ks.zipIdx.foldl (fun t k => tset none (3 * c + k.2) (some k.1) t) s1.qe.guard_
    { s1 with qe := { s1.qe with guard_ := t } } |> regMax (pgQen + 0x120) t.length

/-- Wide commands in flight (R108 QEN_WIDE_INFLIGHT): at most 256. -/
def wideInFlight (s : State) : Nat := min 256 (s.qe.ctxs.filter fun e => e.2.wide).length

/-- The commands that R84 guards and that were fetched before one on its namespace. -/
def guardMates (x : Ctx) (s : State) : List Ctx :=
  (s.qe.ctxs.filter fun e => e.2.cls ≠ 0 && e.2.nsid = x.nsid && e.2.order < x.order).map Prod.snd

/-- A command waits at the guard (R86, R285): behind an earlier wide write, or one whose extents are not known yet and may prove wide
(DEDUCED, log entry 145); as a wide command behind earlier ones, beyond 256 wide commands, or while an entry of its namespace is
rebuilt. -/
def guardWait (x : Ctx) (s : State) : Bool :=
  let mine := guardMates x s
  x.cls ≠ 0 &&
  (mine.any (fun e => (e.wide || e.open_) && e.cls = 2) || (x.wide && x.cls = 1 && mine.any (·.cls = 2)) ||
   (x.wide && x.cls = 2 && !mine.isEmpty) ||
   (x.wide && 256 ≤ (s.qe.ctxs.filter fun e => e.2.wide && e.2.order < x.order).length) ||
   s.qe.guardLost.any fun k => (ctxGet (k / 3) s).nsid = x.nsid)

/-! ### Host data (R65, R72, R440) -/

/-- Asks the host for a part of a command's data: kind 0 data, 1 MPTR, 2 list. An I/O command waits while the function's read
budget is spent. -/
def askHost (c kind : Nat) (l : List (Nat × Nat)) (s : State) : State :=
  let x := ctxGet c s
  if bit x.asked.toNat kind || (x.sq ≠ 0 && spent x.fn rHostRd s) || !(fnGet x.fn s).bme then s
  else
    let s1 := l.foldl (fun s p => hostReadCharge x.fn p.2 (emit (.ask x.fn c kind p.1 p.2) s)) s
    ctxMod c (fun x => { x with asked := BitVec.ofNat 3 (setBit x.asked.toNat kind true) }) s1

/-- Bytes of the list that a data pointer needs: 8 for each further page, or the length of the SGL segment. -/
def listLen (x : Ctx) (n : Nat) (s : State) : Nat :=
  if sqePsdt x.sqe ≠ 0 then sqeBits x.sqe 287 256
  else 8 * cdiv (n - min n (pageSize x.fn s - sqePrp1 x.sqe % pageSize x.fn s)) (pageSize x.fn s)

/-- The segments of a command's data buffer of `n` bytes. None: the command has ended, or waits for its list. -/
def bufferOf (c n : Nat) (s : State) : Option (List (Nat × Nat)) × State :=
  let x := ctxGet c s
  if x.badData ≠ 0 then (none, finish c stDataXfer s)
  else match dptr x n s with
    | .bad st => (none, finish c st s)
    | .list a => (none, askHost c 2 [(a, listLen x n s)] s)
    | .segs l => (some l, s)

/-- The `n` bytes of data that a command takes from the host. None: it has ended, or waits for them. -/
def hostData (c n : Nat) (s : State) : Option Bytes × State :=
  match bufferOf c n s with
  | (none, t) => (none, t)
  | (some l, t) =>
    let x := ctxGet c t
    if n = 0 then (some [], t)
    else if x.gotData then (some (padTo n x.buf), t) else (none, askHost c 0 l t)

/-- HOST_READ_COMPLETION (R65): the answer to a read of host memory for a command: data, MPTR or list bytes, or a result of
1 completion timeout, 2 UR or CA, 3 poisoned TLP. -/
def execHostReadCompletion (ctx kind result : Nat) (bytes : Bytes) (s : State) : Host.Outcome State Fault Refusal :=
  let x := ctxGet ctx s
  if !x.used || !bit x.asked.toNat kind then .next s
  else
    let s1 := readFault result ctx s
    .next (ctxMod ctx (fun x =>
      if result ≠ 0 then { x with badData := result }
      else match kind with
        | 0 => { x with buf := bytes, gotData := true }
        | 1 => { x with mbuf := bytes, gotMptr := true }
        | _ => { x with list := bytes, gotList := true }) s1)

/-! ### Reads (R83, R87, R152) -/

/-- What a granule of a read resolves to. -/
inductive Found where
  /-- An earlier write's data is not in staging yet. -/
  | wait
  | zeros
  /-- The data stands in a staging slot. -/
  | slot (k : Nat)
  /-- Nothing staged: the map decides. -/
  | map
deriving DecidableEq, Repr

/-- The newest of what earlier writes hold of granule `a` (R83 rule 2, R152 step 1): slots, discarded units, and writes
whose data is still to come, each with its sequence number. -/
def newest (l : List (Nat × Found)) : Found :=
  (l.foldl (fun (b : Nat × Found) e => if b.1 < e.1 then e else b) (0, .map)).2

/-- Data of a transaction may be read: it is claimed, or everything that is claimed with it is in staging, so that a read takes all of
a piece or nothing of it (R87, R89). -/
def txReady (w : Ctx) (t : Tx) : Bool := t.sent || (w.plan.filter (·.ext = t.ext)).all fun u => u.units.isEmpty

/-- A transaction supplies granule `a`: a unit still to stage, or a slot. -/
def txSupplies (t : Tx) (a : Nat) (s : State) : Bool :=
  (t.units.any fun u => u.midx = a / 4 && bit u.gmask.toNat (a % 4)) ||
  t.slots.any fun k => (slotGet k s).midx = a / 4 && bit (slotGet k s).gmask.toNat (a % 4)

/-- An earlier write in flight whose data of granule `a` cannot be read yet; its planned discards read as zeros. -/
def flying (a : Nat) (w : Ctx) (s : State) : Option Found :=
  let disc (t : Tx) : Bool := t.discards.any fun d => d.1 ≤ a / 4 && a / 4 < d.1 + d.2
  if w.open_ then some .wait
  else if !holds (writeExtents w) a then none
  else if !w.planned then some .wait
  else if w.plan.any fun t => !txReady w t && (disc t || txSupplies t a s) then some .wait
  else if w.plan.any fun t => !t.sent && disc t then some .zeros
  else none

/-- A slot's data may be read: it is committed, or its write has come far enough. -/
def slotReady (x : Slot) (s : State) : Bool :=
  x.committed || (match x.ctx with
    | none => true
    | some c => (ctxGet c s).plan.any fun t => t.txid = x.txid && txReady (ctxGet c s) t)

/-- What staging and the writes in flight say of granule `a` for a read (R83, R87, R152 step 1). -/
def stagedFor (x : Ctx) (a : Nat) (s : State) : Found :=
  let slots := (s.jnl.slots.filter fun e => e.2.used && e.2.midx = a / 4 && bit e.2.gmask.toNat (a % 4) && e.2.nsid = x.nsid &&
    e.2.seq < x.seq && slotReady e.2 s && (match e.2.released with
      | none => true
      | some o => x.order < o)).map fun e => (e.2.seq, Found.slot e.1)
  let discs := (s.jnl.disc.filter fun d => d.midx = a / 4 && d.nsid = x.nsid && d.seq < x.seq).map fun d => (d.seq, Found.zeros)
  let fly := (s.qe.ctxs.filter fun e => e.2.used && e.2.cls = 2 && e.2.nsid = x.nsid && e.2.seq < x.seq).filterMap fun e =>
    (flying a e.2 s).map fun f => (e.2.seq, f)
  newest (slots ++ discs ++ fly)

/-- Puts a granule among those a command has read; poison fails the command (R65, R197). -/
def gotGranule (c a : Nat) (g : Granule) (s : State) : State :=
  ctxMod c (fun x => { x with got := tset none a (some g) x.got, ends := if g.poison then some stReadError else x.ends }) s

/-- A command takes granule `a` from a staging slot; poison there is found by the read (R196, R197). -/
def gotSlot (c a k : Nat) (s : State) : State :=
  gotGranule c a (slotGranule k (a % 4) s) (hamMet (hamVia 0 s) (slotOffset k s + 4096 * (a % 4)) 4096 s)

/-- A flash read of unit `i` for a command is queued, runs or is under recovery. -/
def readOf (c i : Nat) (s : State) : Bool :=
  let mine (r : FlashRead) : Bool := r.ctx = some c && r.want.midx = i
  s.media.reads.any mine || (s.media.dies.any fun d => d.2.read.any mine) || s.media.rebuilds.any fun b => b.reads.any mine

/-- A read that waits for an earlier write counts once (R108 QEN_GUARD_WAITS). -/
def countWait (c : Nat) (s : State) : State :=
  if (ctxGet c s).waited then s else ctxMod c (fun x => { x with waited := true }) (regAdd (pgQen + 0x118) 1 s)

/-- The granules of unit `i` that a read wants. -/
def wanted (x : Ctx) (i : Nat) : List Nat := (List.range 4).map (4 * i + ·) |>.filter fun a => holds (readExtents x) a

/-- Resolves the granules `l` of unit `i` by the read's view of the map (R152 steps 2 to 4, R87). -/
def resolveMap (c i : Nat) (l : List Nat) (s : State) : State :=
  let x := ctxGet c s
  let (e, s1) := match tget none x.view i with
    | some e => (some e, s)
    | none => mapLook i s
  match e with
  | none => s1
  | some e =>
    if ePoisoned e then l.foldl (fun s a => gotGranule c a { poison := true } s) s1
    else if eDisc e || !eValid e then l.foldl (fun s a => gotGranule c a {} s) s1
    else if readOf c i s1 || spent x.fn rFlash s1 then s1
    else
      let m := l.foldl (fun m a => m + 2 ^ (a % 4)) 0
      s1 |> queueRead { pua := ePua e, ctx := some c, want := { midx := i, gmask := BitVec.ofNat 4 m } }
        |> charge x.fn rFlash 1 |> regAdd (pgFun x.fn + 0x210) 1

/-- Resolves what is still missing of unit `i` of a read. -/
def resolveUnit (c i : Nat) (s : State) : State :=
  let x := ctxGet c s
  let miss := (wanted x i).filter fun a => (tget none x.got a).isNone
  let found := miss.map fun a => (a, stagedFor x a s)
  let s1 := found.foldl (fun s f => match f.2 with
    | .slot k => gotSlot c f.1 k s
    | .zeros => gotGranule c f.1 {} s
    | _ => s) s
  let s2 := if found.any fun f => f.2 = .wait then countWait c s1 else s1
  match (found.filter fun f => f.2 = .map).map Prod.fst with
  | [] => s2
  | l => resolveMap c i l s2

/-- Units of a list of extents in granules. -/
def unitsOf (l : List (Nat × Nat)) : List Nat :=
  l.flatMap fun e => if e.2 = 0 then [] else (List.range ((e.1 + e.2 - 1) / 4 - e.1 / 4 + 1)).map (e.1 / 4 + ·)

/-- Granules of a list of extents, in data order. -/
def granulesOf (l : List (Nat × Nat)) : List Nat := l.flatMap fun e => (List.range e.2).map (e.1 + ·)

/-- Advances a command's reads: what is at hand is taken, flash reads are started (R152). Answers all granules in data order,
once they are there. -/
def gather (c : Nat) (s : State) : Option (List Granule) × State :=
  let s1 := mediaTurn ((unitsOf (readExtents (ctxGet c s))).foldl (fun s i => resolveUnit c i s) s)
  let x := ctxGet c s1
  let l := (granulesOf (readExtents x)).map fun a => tget none x.got a
  if l.all Option.isSome then (some (l.filterMap id), s1) else (none, s1)

/-- The bytes of granules. -/
def granuleBytes (l : List Granule) : Bytes := l.flatMap fun g => padTo 4096 g.bytes

/-! ### Writes (R89, R142, R155, R159) -/

/-- The units that granules `gs` from granule `a` of the map supply. -/
def stageUnits (a : Nat) (gs : List Granule) (cfs : Bool) (stripe : Nat) : List StageUnit :=
  let n := gs.length
  (unitsOf [(a, n)]).map fun i =>
    let inside (k : Nat) : Bool := a ≤ 4 * i + k && 4 * i + k < a + n
    { midx := i, gmask := BitVec.ofNat 4 (((List.range 4).filter inside).foldl (fun m k => m + 2 ^ k) 0),
      gs := (List.range 4).map fun k => if inside k then gs.getD (4 * i + k - a) {} else {},
      cfs := cfs && i = a / 4, stripe := stripe }

/-- Data as granules of 4 KiB, the last one zero-filled. -/
def toGranules (bs : Bytes) : List Granule :=
  (chunks 4096 (bs.length / 4096 + 1) bs).map fun p => { bytes := padTo 4096 p }

/-- The transactions of a write of granules from granule `a`: pieces of 1 MiB in order of data offset (R89). -/
def writePlan (a : Nat) (gs : List Granule) (cfs : Bool) (stripe : Nat) : List Tx :=
  (chunks 256 (gs.length / 256 + 1) gs).zipIdx.map fun p =>
    { units := stageUnits (a + 256 * p.2) p.1 (cfs && p.2 = 0) stripe }

/-- `n` units from `u` in runs of at most 64, the COUNT of a DISCARD record (R158). -/
def discardRuns (u n : Nat) : List (Nat × Nat) := (List.range (cdiv n 64)).map fun k => (u + 64 * k, min 64 (n - 64 * k))

/-- The transaction of a deallocated range of granules [a, a + n): whole units are discarded, the others staged with zeros
(R142). -/
def discardTx (a n : Nat) : Tx :=
  let u0 := cdiv a 4
  let u1 := (a + n) / 4
  if u1 ≤ u0 then { units := stageUnits a (List.replicate n {}) false 0 }
  else
    { units := stageUnits a (List.replicate (4 * u0 - a) {}) false 0 ++
               stageUnits (4 * u1) (List.replicate (a + n - 4 * u1) {}) false 0,
      discards := discardRuns u0 (u1 - u0) }

/-- The transactions of a deallocated range: one, as far as its records are no more than the 65 that RECS counts; a longer range is cut
between whole units (R142, R158, R159; DESIGN CHOICE, log entry 26). -/
def discardPlan (a n : Nat) : List Tx :=
  let t := discardTx a n
  let u0 := cdiv a 4
  let head := t.units.filter (·.midx < u0)
  let tail := t.units.filter (u0 ≤ ·.midx)
  let l := chunks 63 (t.discards.length / 63 + 1) t.discards
  if t.discards.isEmpty then [t]
  else l.zipIdx.map fun p => { units := (if p.2 = 0 then head else []) ++ (if p.2 + 1 = l.length then tail else []), discards := p.1 }

/-- Gives a command its transactions, numbered in order (R159). -/
def setPlan (c : Nat) (l : List Tx) (s : State) : State :=
  let l := l.filter fun t => !(t.units.isEmpty && t.discards.isEmpty)
  let n := s.jnl.nextTxid
  ctxMod c (fun x => { x with plan := l.zipIdx.map (fun t => { t.1 with txid := n + t.2 }), planned := true })
    { s with jnl := { s.jnl with nextTxid := n + l.length } }

/-- Counts host data that is staged, in 4 KiB units, for V of R125. -/
def countStaged (n : Nat) (s : State) : State :=
  { s with media := { s.media with vWindow := match s.media.vWindow with
      | [] => [n]
      | h :: t => (h + n) :: t } }

/-- Stages the next unit of a command's transactions in a fresh slot (R155): its STAGE record is written at once, that of the
transaction's last unit goes with the COMMIT (R159). -/
def stageNext (c : Nat) (s : State) : State :=
  let x := ctxGet c s
  match x.plan.findIdx? (fun t => !t.units.isEmpty), slotFree s with
  | some i, some k =>
    let t := x.plan.getD i {}
    match t.units with
    | [] => s
    | u :: rest =>
      let slot : Slot := { used := true, midx := u.midx, gmask := u.gmask, txid := t.txid, seq := x.seq, ctx := some c, full := true,
                           nsid := x.nsid, fn := x.fn, pos := jHead s, cfs := u.cfs, stripe := u.stripe }
      let r := recStage u.gmask.toNat k t.txid u.midx
      let t1 : Tx := { t with units := rest, slots := t.slots ++ [k], last := if rest.isEmpty then some r else none }
      let s1 := s |> slotSet k slot |> slotStore k u.gmask u.gs |> countStaged (((List.range 4).filter fun g => bit u.gmask.toNat g).length)
                  |> ctxSet c { x with plan := x.plan.set i t1 }
      if rest.isEmpty then s1 else jIssue [r] [] s1
  | _, _ => s

/-- STAGING_UNIT_COMPLETE (R155, R159): the data of the command's next unit is complete in staging. With no free slot the
data waits. -/
def execStagingUnitComplete (ctx : Nat) (s : State) : Host.Outcome State Fault Refusal :=
  if !(ctxGet ctx s).used || !running s || fenced pgHam s || pfOn s then .next s
  else .next (stageNext ctx s)

/-- A unit that a claimed write discards (R142): its entry is updated, or waits for the updates of earlier writes (R87). -/
def discardUnit (nsid seq i : Nat) (s : State) : State :=
  if earlierWrite i seq s then
    { s with jnl := { s.jnl with disc := s.jnl.disc ++ [{ midx := i, seq := seq, nsid := nsid }] } }
  else mapUpdate i (mkEntry 0 false true false false false) seq s

/-- A run of units that a claimed write discards. -/
def discardRun (nsid seq : Nat) (d : Nat × Nat) (s : State) : State :=
  (List.range d.2).foldl (fun s k => discardUnit nsid seq (d.1 + k) s) (segCount (segOf d.1) 1 s)

/-- The words of one transaction (R159): its discards, and the last record with the COMMIT. The map updates that wait in the window go
before those of the discards, so that the ring has the order of the map (R160). -/
def commitTx (c : Nat) (last : Bool) (t : Tx) (s : State) : State :=
  let x := ctxGet c s
  let ds := t.discards.map fun d => recDiscard d.2 t.txid d.1
  let com := recCommit (t.slots.length + ds.length) (x.nsid - 1) t.txid x.seq
  let act := JAct.commit c t.txid x.nsid x.seq last
  let s0 := if ds.isEmpty then s else jFlush s
  let s1 := match t.last, ds.getLast? with
    | some r, _ => s0 |> jIssueAll (ds.map fun d => (d, [])) |> jIssue [r, com] [act]
    | none, some d => s0 |> jIssueAll (ds.dropLast.map fun d => (d, [])) |> jIssue [d, com] [act]
    | none, none => jIssue [com] [act] s0
  t.discards.foldl (fun s d => discardRun x.nsid x.seq d s) s1

/-- The journal and the poster accept claims (R90, R161). -/
def mayClaim (s : State) : Bool := !s.jnl.ringHold && !pfOn s && running s && !fenced pgQen s

/-- The poster may claim a write (R90): all of its data is in staging. -/
def claimable (x : Ctx) (s : State) : Bool :=
  x.used && x.planned && !x.claimed && (x.plan.all fun t => t.units.isEmpty) && mayClaim s

/-- Claims transactions of a write, given by number: their commit words go to the journal, in order (R90). -/
def claimTxs (c : Nat) (l : List Nat) (s : State) : State :=
  l.foldl (fun s i =>
    let x := ctxGet c s
    let t := x.plan.getD i {}
    commitTx c (i + 1 = x.plan.length) t (ctxSet c { x with claimed := true, plan := x.plan.set i { t with sent := true } } s)) s

/-- Claims a write: every commit word goes to the journal, in order (R90). -/
def claimWrite (c : Nat) (s : State) : State := claimTxs c (List.range (ctxGet c s).plan.length) s

/-- The transactions of an output extent of a run, by number, and the slots that they take in all. -/
def extTxs (x : Ctx) (ext : Nat) : List Nat := (List.range x.plan.length).filter fun i => (x.plan.getD i {}).ext = ext
def extSlots (x : Ctx) (ext : Nat) : Nat :=
  ((extTxs x ext).map fun i => let t := x.plan.getD i {}; t.units.length + t.slots.length).foldl (· + ·) 0

/-- A run claims its outputs extent by extent, each when all of its data is in staging (R90, R375); of an extent that staging cannot
hold, piece by piece (DESIGN CHOICE, log entry 146). -/
def claimPiece (c : Nat) (s : State) : State :=
  let x := ctxGet c s
  match x.plan.findIdx? (fun t => !t.sent) with
  | none => s
  | some i =>
    let t := x.plan.getD i {}
    if slotCount s < extSlots x t.ext then (if t.units.isEmpty then claimTxs c [i] s else s)
    else if (extTxs x t.ext).all fun k => (x.plan.getD k {}).units.isEmpty then claimTxs c (extTxs x t.ext) s else s

/-- A run is to be killed at the next pick boundary (R92, R376): it is no longer claimed, and it does not end by itself. -/
def killDue (r : Nat) (s : State) : Bool :=
  s.due.any fun d => match d with
    | .killRun k _ _ _ => k = r
    | _ => false

/-- WRITE_CLAIM (R90, R159). A write that has nothing to commit completes at once. -/
def execWriteClaim (ctx : Nat) (s : State) : Host.Outcome State Fault Refusal :=
  let x := ctxGet ctx s
  if x.run.any fun r => !x.claimed && killDue r s then .next s
  else if x.used && x.planned && x.run.isSome && !x.plan.isEmpty && mayClaim s then .next (claimPiece ctx s)
  else if !claimable x s then .next s
  else if x.plan.isEmpty then
    .next (if x.run.isSome || sqeOp x.sqe = 0x91 || sqeOp x.sqe = 0x94 then ctxSet ctx { x with claimed := true, phase := 90 } s
           else finishDw ctx stOk x.dw0.toNat x.dw1.toNat s)
  else .next (claimWrite ctx s)

/-- Ends a command without a completion entry: a squash (R94). Its staged, unclaimed data is discarded (R91). -/
def squash (c : Nat) (s : State) : State :=
  s |> slotDrop c |> ctxFree c |> regAdd (pgQenP + 0x118) 1 |> slotSweep |> discSweep

/-! ### The gate of critical commands (R78, R276 to R280) -/

/-- A command is critical (R77, R78). -/
def critical (e : Sqe) : Bool :=
  [0x10, 0x80, 0x84, 0x1C, 0xC5, 0xD1, 0xD5, 0xD8, 0xE0].contains (sqeOp e) || (sqeOp e = 0x0D && dword e 10 % 16 = 1)

/-- Discards a pending Arm because another command followed, with event 0x6085 (R78). -/
def armDrop (f : Nat) (s : State) : State :=
  if (fnGet f s).arm.isSome then note 0x6085 pgQen f (fnMod f (fun x => { x with arm := none }) s) else s

/-- The message of an Arm's tag (R276). -/
def armMessage (counter : W64) (e : Sqe) : Bytes :=
  natLe 8 counter.toNat ++ sha256 (natLe 64 (setBits e.toNat 31 16 0))

/-- An Authentication Failed result of a critical command (R280): the eighth in a row locks the function out for 1,024
bolts. -/
def authFail (f : Nat) (s : State) : State :=
  let n := (fnGet f s).authFails + 1
  let s1 := s |> note 0x3483 (pgKck 0) f |> regAdd (pgKck 0 + 0x600) 1
  if 8 ≤ n then note 0x3484 (pgKck 0) f (fnMod f (fun x => { x with authFails := 0, lockUntil := some (boltN s + 1024) }) s1)
  else fnMod f (fun x => { x with authFails := n }) s1

/-- The gate of a critical command (R78, R278). None: it may execute; else it has ended or waits. -/
def critGate (c : Nat) (s : State) : Option State :=
  let x := ctxGet c s
  let f := x.fn
  let drop (s : State) : State := fnMod f (fun q => { q with arm := none }) s
  if x.armOk then none
  else if x.armed then some s
  else if (s.qe.ctxs.any fun e => e.2.fn = f && e.2.sq = 0 && e.2.order = x.prev && sqeOp e.2.sqe = 0xC0) then some s
  else if fenced (pgKck 0) s && fenced (pgKck 1) s then some (finish c vsFenced s)
  else match (fnGet f s).arm with
    | none => some (finish c vsArmRequired s)
    | some a =>
      if a.order ≠ x.prev then some (finish c vsArmRequired s)
      else if a.pick + 16384 < x.pick then some (finish c vsArmExpired (drop s))
      else match keyOf 0 f s with
        | none => some (finish c vsKeyRetired (drop s))
        | some k =>
          let key := keyBytes (keyGet k s)
          match keyUse k 3 (drop s) with
          | (false, t) => some (finish c vsKeyRetired t)
          | (true, t0) =>
            let e := if fenced (pgKck 0) s then pgKck 1 else pgKck 0
            let good := natLe 16 a.tag.toNat = cmac key (armMessage a.counter x.sqe)
            let t := t0 |> regAdd (e + 0x118) 3 |> regAdd (e + (if good then 0x128 else 0x130)) 1
            if good then
              some (t |> fnMod f (fun q => { q with authFails := 0 }) |> ctxSet c { x with armed := true }
                      |> jIssue [recCtrl 0x01 f a.counter.toNat] [.counter c f x.order a.counter])
            else some (finish c vsAuthFailed (authFail f t))

/-- LOCKOUT_END (R280): a lockout that has lasted 1,024 bolts ends. -/
def execLockoutEnd (fn : Nat) (s : State) : Host.Outcome State Fault Refusal :=
  if fn < 128 then
    match (fnGet fn s).lockUntil with
    | some b => .next (if b ≤ boltN s then fnMod fn (fun x => { x with lockUntil := none }) s else s)
    | none => .next s
  else .fault .noSuchUnit

/-! ### Gates of every command -/

/-- Commands are served: firmware runs, or the boot ROM in recovery mode (R485). -/
def serving (s : State) : Bool := running s || s.boot.phase = .recovery

/-- The context holds a fetched command of opcode `op`, admin or I/O, that may go on; an admin command on a namespace waits for a Format
NVM or a delete fetched before it (R88). -/
def holdsCmd (c op : Nat) (io : Bool) (s : State) : Bool :=
  let x := ctxGet c s
  x.used && sqeOp x.sqe = op && (x.sq ≠ 0) = io && serving s && !(fnGet x.fn s).fenced && works pgQen s && works pgQenP s &&
  !pfOn s && (io || x.nsid = 0 || !nsHeld x.nsid x.order s)

/-- The gate of an I/O command (R86, R88, R487): none: it proceeds; else it has ended or waits. -/
def ioGate (c : Nat) (s : State) : Option State :=
  let x := ctxGet c s
  let n := nsGet x.nsid s
  if s.boot.degraded then some (finish c stNsNotReadyDnr s)
  else if s.qe.sanitizing then some (finish c stSanitize s)
  else if nsHeld x.nsid x.order s then some s
  else if !n.active then some (finish c stNamespace s)
  else if guardWait x s then some (if x.cls = 1 && (guardMates x s).any (·.cls = 2) then countWait c s else s)
  else none

/-- No command that was fetched before one on its namespace is still in flight (R88). -/
def earlierOnNs (n order : Nat) (s : State) : Bool :=
  s.qe.ctxs.any fun e => e.2.nsid = n && e.2.order < order

/-- The reads of a command have failed: it ends with its status. -/
def endFailed (c : Nat) (s : State) : State :=
  match (ctxGet c s).ends with
  | some st => finish c st s
  | none => s

/-- Work that firmware gives to an engine class for a command (R251, R266, R306): the first engine that accepts work (R38, R39). -/
def fwEngine (base n : Nat) (s : State) : Option Nat :=
  (List.range n).map (base + ·) |>.find? fun a => accepts (engPage a) s

/-- With no engine of a class to take a command it is refused when all are fenced (R463), and waits while one is disabled or in
reset. -/
def noEngine (c base n : Nat) (s : State) : State :=
  if (List.range n).all fun i => fenced (engPage (base + i)) s then finish c vsFenced s else s

/-- Charges an engine's slices for `clk` clocks of a function's command (R249, R437) and counts the job. -/
def fwCharge (a f clk : Nat) (s : State) : State :=
  let n := cdiv clk 6400
  let s1 := s |> charge f (engRate a) n |> regAdd (engPage a + jobsOff a) 1
  if a < 0x50 || 0x58 ≤ a then regAdd (engPage a + 0x140) n s1 else regAdd (engPage a + 0x128) n s1

end Sys2Proof.Machine
end

