-- ==== Sys2Proof/Machine/Digest.lean ====
section
/-!
DEFINITION. The digest engines (R256 to R264): descriptor checks, contexts, and what each operation does.
-/
namespace Sys2Proof.Machine

/-- Fields of a digest descriptor (R259). -/
def ddOp (d : Bytes) : Nat := leAt d 0 1
def ddRes (d : Bytes) : Nat := leAt d 0x10 8
def ddLastValid (d : Bytes) : Nat := leAt d 0x1F 1
def ddMsgLen (d : Bytes) : Nat := leAt d 0x20 8

/-- The operation absorbs input: INIT, UPDATE, FINAL and ONESHOT. -/
def ddAbsorbs (d : Bytes) : Bool := 1 ≤ ddOp d && ddOp d ≤ 4
/-- The operation finishes a message: FINAL and ONESHOT. -/
def ddFinal (d : Bytes) : Bool := ddOp d = 3 || ddOp d = 4

/-- The job uses RES_ADDR: a digest written out, or a value to compare with. -/
def ddUsesRes (d : Bytes) : Bool := (ddFinal d && !edFlag d 1) || ddOp d = 5

/-- The acceptance checks of R263: alignment, the descriptor, the addresses. SRC_LEN 0 outside FINAL and a LAST_VALID
outside its range make the descriptor invalid (DEDUCED, log entry 20). -/
def ddCheck (a : Nat) (j : EngJob) (s : State) : Nat :=
  let d := j.desc
  let inL := (edIn d).isSome
  let abs := ddAbsorbs d
  let lvOk := !ddFinal d || (if inL || edSrcLen d ≠ 0 then 1 ≤ ddLastValid d && ddLastValid d ≤ 64 else ddLastValid d = 0)
  if (abs && !inL && (edSrc d % 64 ≠ 0 || edSrcLen d % 64 ≠ 0)) || (ddUsesRes d && ddRes d % 64 ≠ 0) then 0x01
  else if ddOp d = 0 || 6 < ddOp d || leAt d 1 1 / 64 ≠ 0 || 128 ≤ leAt d 2 1 || leAt d 4 4 ≠ 0 || leAt d 0x2A 6 ≠ 0 ||
      ([1, 4].contains (ddOp d) && leAt d 3 1 ≠ 0) || 64 ≤ leAt d 3 1 || 1 < edSrcSpace d || 1 < edDstSpace d ||
      (abs && !edLineOk a (leAt d 0x1E 1) true s) || (abs && inL && edSrcSpace d ≠ 0) ||
      (abs && !inL && edSrcLen d = 0 && ddOp d ≠ 3) || !lvOk then 0x0B
  else if (abs && !inL && !edRange a j (edSrcSpace d) (edSrc d) (edSrcLen d) s) ||
      (ddUsesRes d && !edRange a j (edDstSpace d) (ddRes d) 64 s) then 0x05
  else 0

/-- The state of the context a job names, checked as the job starts (R257, R263): 0 when the job may use it. -/
def ddCtxCode (j : EngJob) (s : State) : Nat :=
  match j.ctx with
  | none => 0
  | some c =>
    let x := tget {} s.digs c
    if [1, 4].contains (ddOp j.desc) then 0
    else if !x.alloc then 0x03
    else if x.user ≠ digUserOf j s then 0x05
    else if x.lost then 0x0C
    else if ([2, 3].contains (ddOp j.desc) && x.final) || (ddOp j.desc = 5 && !x.final) then 0x03
    else 0

/-- INIT and ONESHOT take a free context, the lowest (log entry 6), as the job starts. -/
def ddTake (j : EngJob) (s : State) : EngJob × State :=
  match j.ctx, [1, 4].contains (ddOp j.desc), digFree s with
  | none, true, c :: _ =>
    ({ j with ctx := some c },
     { s with digs := tset {} c { alloc := true, sha512 := edFlag j.desc 0, user := digUserOf j s,
                                  func := leAt j.desc 2 1 % 128 } s.digs })
  | _, _, _ => (j, s)

/-- The digest of a context's message in the byte order of FIPS 180-4 (R261). -/
def digOf (x : DigCtx) : Bytes := if x.sha512 then sha512 x.msg else sha256 x.msg

/-- Bytes of a context's digest. -/
def digLen (x : DigCtx) : Nat := if x.sha512 then 64 else 32

/-- What a context's result reads as: the digest, or zeros after a length error (R260). -/
def digResult (x : DigCtx) : Bytes := if x.lenErr then zeros (digLen x) else digOf x

/-- The result bytes after CODE: RESULT, CTX_OUT, zeros, ABSORBED (R259). -/
def ddResult (isMatch lenErr : Bool) (c absorbed : Nat) : Bytes :=
  natLe 1 (128 + b2n isMatch + 2 * b2n lenErr) ++ natLe 1 c ++ zeros 5 ++ natLe 8 absorbed

/-- Clocks of a digest job's input up to its position (R256): 16 for each SHA-256 block of 64 bytes that it completes, 20 for each SHA-512 block of 128, those of the
padding included; COMPARE 8 (R262). -/
def ddClocks (j : EngJob) (s : State) : Nat :=
  let x := tget {} s.digs (j.ctx.getD 0)
  let z := if x.sha512 then 128 else 64
  let total := if ddFinal j.desc && j.inDone && j.pos = j.inp.length then
      cdiv ((if j.inp.isEmpty then x.absorbed else x.absorbed + j.inp.length - 64 + ddLastValid j.desc) + 1 + z / 8) z
    else (x.absorbed + j.pos) / z
  if ddOp j.desc = 5 then 8 else (if x.sha512 then 20 else 16) * (total - x.absorbed / z)

/-- Puts a context back, or releases it. -/
def digPut (c : Nat) (x : DigCtx) (keep : Bool) (s : State) : State :=
  if keep then { s with digs := tset {} c x s.digs } else digRelease c s

/-- A digest goes to RES_ADDR, but for a sealed one (R259, R262). None: the memory answered with an error response; with it, whether
the write lost a collision. -/
def ddDeliver (a : Nat) (d : Bytes) (sealed : Bool) (out : Bytes) (s : State) : Option (Bool × State) :=
  if sealed then some (false, s)
  else (engWrite a (edDstSpace d) (ddRes d) out s).map fun q => (q.1, warpMove (engPort a) (engMem a (edDstSpace d) s) out.length q.2)

/-- FINAL and ONESHOT (R260 to R262). -/
def ddFinish (a c : Nat) (j : EngJob) (x : DigCtx) (s : State) : State :=
  let d := j.desc
  let n := j.inp.length
  let len := if n = 0 then x.absorbed else x.absorbed + n - 64 + ddLastValid d
  let sl := edFlag d 1
  let keep := edFlag d 5 || sl
  let bad := len ≠ ddMsgLen d
  let x1 : DigCtx := { x with final := true, sealed := sl, lenErr := bad, absorbed := len,
                              msg := if bad then [] else x.msg ++ j.inp.take (len - x.absorbed) }
  let s1 := if bad then s |> note 0x3381 (engPage a) j.index |> regAdd (pgDig 0 + 0x608) 1 else s
  let out := if bad then zeros (digLen x) else padTo 64 (digOf x1)
  match ddDeliver a d sl out s1 with
  | none => engStop a j 0x08 (noResult 0) (errResp (engMem a (edDstSpace d) s) s)
  | some (true, s2) => engStop a j 0x07 (noResult 0) s2
  | some (false, s2) => s2 |> digPut c x1 keep |> engStop a j (if bad then 0x02 else 0x00) (ddResult false bad c len)

/-- COMPARE (R261, R262): every byte is compared; the context is released unless KEEP is set. -/
def ddCompare (a c : Nat) (j : EngJob) (x : DigCtx) (s : State) : State :=
  match memRead (edDstSpace j.desc) (ddRes j.desc) (digLen x) s with
  | none => engStop a j 0x08 (noResult 0) (errResp (engMem a (edDstSpace j.desc) s) s)
  | some (bs, poison) =>
    let s := s |> memMet (engBy a s) (edDstSpace j.desc) (ddRes j.desc) (digLen x)
               |> warpMove (engMem a (edDstSpace j.desc) s) (engPort a) (digLen x)
    if poison then engStop a j 0x06 (noResult 0) s
    else s |> digPut c x (edFlag j.desc 5)
           |> engStop a j 0x00 (ddResult (!x.lenErr && bs = digResult x) false c x.absorbed)

/-- What a digest job whose clocks have run does, its context checked once more. -/
def digFinish (a : Nat) (j : EngJob) (s : State) : State :=
  let c := j.ctx.getD 0
  let x := tget {} s.digs c
  let code := ddCtxCode j s
  if code ≠ 0 then
    let s1 := if code = 5 && !fromFw j.prog then illegalDma (edFunc a j.desc) s else s
    engStop a j code (noResult 0) (if code = 0x0C then note 0x3302 (engPage a) c s1 else s1)
  else
    let s1 := regAdd (engPage a + 0x118) j.inp.length s
    match ddOp j.desc with
    | 1 | 2 =>
      let x1 := { x with msg := x.msg ++ j.inp, absorbed := x.absorbed + j.inp.length }
      s1 |> digPut c x1 true |> engStop a j 0x00 (ddResult false false c x1.absorbed)
    | 3 | 4 => ddFinish a c j x s1
    | 5 => ddCompare a c j x s1
    | _ => s1 |> digRelease c |> engStop a j 0x00 (ddResult false false c x.absorbed)

/-- A digest engine's acceptance of the descriptors with one operation. `lost` tells that the saved context it names has been
found uncorrectable (R263 code 0x0C). -/
def digRow (eng : Nat) (p : Nat → Bool) (lost : Bool) (s : State) : Host.Outcome State Fault Refusal :=
  if eng < 4 then
    let a := 0x50 + eng
    let c := leAt (engHead a 0 s).desc 3 1 % 64
    let s1 := if lost && (tget {} s.digs c).alloc && accepts (engPage a) s && p (ddOp (engHead a 0 s).desc)
              then { s with digs := tmod {} c (fun x => { x with lost := true }) s.digs } else s
    .next (engAccept a (fun d => p (ddOp d)) (ddCheck a) s1)
  else .fault .noSuchUnit

/-- DIGEST_INIT (R259): the engine accepts an INIT, or a descriptor with an undefined operation. -/
def execDigestInit (eng : Nat) (s : State) : Host.Outcome State Fault Refusal :=
  digRow eng (fun op => op = 1 || op = 0 || 6 < op) false s
/-- DIGEST_UPDATE (R259). -/
def execDigestUpdate (eng : Nat) (lost : Bool) (s : State) : Host.Outcome State Fault Refusal := digRow eng (· = 2) lost s
/-- DIGEST_FINAL (R260). -/
def execDigestFinal (eng : Nat) (lost : Bool) (s : State) : Host.Outcome State Fault Refusal := digRow eng (· = 3) lost s
/-- DIGEST_ONESHOT (R260). -/
def execDigestOneshot (eng : Nat) (s : State) : Host.Outcome State Fault Refusal := digRow eng (· = 4) false s
/-- DIGEST_COMPARE (R262). -/
def execDigestCompare (eng : Nat) (lost : Bool) (s : State) : Host.Outcome State Fault Refusal := digRow eng (· = 5) lost s
/-- DIGEST_RELEASE (R262). -/
def execDigestRelease (eng : Nat) (s : State) : Host.Outcome State Fault Refusal := digRow eng (· = 6) false s

/-- DIGEST_JOB_END (R263): the ended jobs of a digest engine complete. -/
def execDigestJobEnd (eng : Nat) (s : State) : Host.Outcome State Fault Refusal :=
  if eng < 4 then .next (engEnds (0x50 + eng) s) else .fault .noSuchUnit

/-- DIG_TAIL_ADVANCE (R259): a write of `DIG_TAIL`. -/
def execDigTailAdvance (eng : Nat) (value : W32) (s : State) : Host.Outcome State Fault Refusal :=
  engRow eng 0x50 4 (fun a => engTail a value.toNat) s
/-- DIG_STOP (R282): a write of `DIG_CTL`. -/
def execDigStop (eng : Nat) (value : W32) (s : State) : Host.Outcome State Fault Refusal :=
  engRow eng 0x50 4 (fun a => engCtl a value.toNat) s
/-- DIG_FLUSH (R282): a write of `DIG_CTL` with FLUSH set. -/
def execDigFlush (eng : Nat) (value : W32) (s : State) : Host.Outcome State Fault Refusal :=
  engRow eng 0x50 4 (fun a => engCtl a (setBit value.toNat 1 true)) s

/-- Releases the contexts of users that `p` picks (R264). -/
def digReleaseAll (p : DigUser → Bool) (s : State) : State :=
  { s with digs := s.digs.filter fun e => !(e.2.alloc && p e.2.user) }

end Sys2Proof.Machine
end

