-- ==== Sys2Proof/Machine/Heddle.lean ====
section
/-!
DEFINITION. The Heddle groups (R284 to R294): configuration, search, insertion, deletion, compaction and the checker.
-/
namespace Sys2Proof.Machine

/-- `HED_GROUP_CFG` and its fields (R309). -/
def grpCfg (g : Nat) (s : State) : Nat := regGet (pgGrp g + 0x100) s
def cfgW (v : Nat) : Nat := 2 ^ bits v 2 1
def cfgBase (v : Nat) : Nat := bits v 13 8
def cfgTiles (v : Nat) : Nat := bits v 20 16
def grpEn (g : Nat) (s : State) : Bool := bit (grpCfg g s) 0
/-- Width W in tiles. -/
def grpW (g : Nat) (s : State) : Nat := cfgW (grpCfg g s)
/-- Entries E of a group. -/
def grpE (g : Nat) (s : State) : Nat := 2048 * (cfgTiles (grpCfg g s) / grpW g s)
/-- The tiles of a configuration value. -/
def cfgTileList (v : Nat) : List Nat := (List.range (cfgTiles v)).map (· + cfgBase v)

/-- The geometry of R286. -/
def grpGeometry (v : Nat) : Bool :=
  let w := cfgW v
  bits v 2 1 ≠ 3 && 24 ≤ cfgBase v && cfgBase v % w = 0 && cfgTiles v % w = 0 && 1 ≤ cfgTiles v &&
  cfgBase v + cfgTiles v ≤ 48

/-- A group is fenced with any of its tiles (R307, R311). -/
def grpFenced (g : Nat) (s : State) : Bool :=
  fenced (pgGrp g) s || (cfgTileList (grpCfg g s)).any fun t => fenced (pgTile t) s

/-- Who may use a group: firmware any, a function its own (R287). -/
def grpOwned (g f : Nat) (house : Bool) (s : State) : Bool :=
  house || (!bit (grpCfg g s) 31 && bits (grpCfg g s) 30 24 = f)

/-- The key of tile `j` of the column that holds entry `i`, as a place of the array (R286). -/
def hedAt (g i j : Nat) (s : State) : Nat :=
  (cfgBase (grpCfg g s) + grpW g s * (i / 2048) + j) * 2048 + i % 2048

/-- Entry `i` of a group as the array holds it: its key over W tiles, none for a hole (R284, R286). -/
def hedGet (g i : Nat) (s : State) : Option Nat :=
  let es := (List.range (grpW g s)).map fun j => tget {} s.hed (hedAt g i j s)
  if es.all (·.seenValid) then some (es.foldr (fun e a => e.seenKey + 2 ^ 96 * a) 0) else none

/-- The places of entry `i` of a group with at least `n` flipped bits: with two or more its check bits cannot correct it (R284). -/
def hedFlipped (n g i : Nat) (s : State) : List Nat :=
  ((List.range (grpW g s)).map fun j => hedAt g i j s).filter fun k => n ≤ (tget {} s.hed k).flips.length

/-- Puts an entry, or a hole. -/
def hedPut (g i : Nat) (k : Option Nat) (s : State) : State :=
  { s with hed := (List.range (grpW g s)).foldl (fun t j =>
      let e : HedEntry := match k with
        | some v => { valid := true, key := BitVec.ofNat 96 (v / 2 ^ (96 * j)) }
        | none => {}
      tset {} (hedAt g i j s) e t) s.hed }

/-- Entry `i` moves to index `t` as the array holds it, its check bits with it, and leaves a hole. -/
def hedMove (g i t : Nat) (s : State) : State :=
  if i = t then s
  else
    let h := (List.range (grpW g s)).foldl (fun h j => tset {} (hedAt g t j s) (tget {} s.hed (hedAt g i j s)) h) s.hed
    hedPut g i none { s with hed := h }

/-- The indices of a group's valid entries, ascending. -/
def hedValid (g : Nat) (s : State) : List Nat :=
  let b := cfgBase (grpCfg g s)
  let w := grpW g s
  (tkeys s.hed).filterMap fun k =>
    let t := k / 2048
    if b ≤ t && t < b + cfgTiles (grpCfg g s) && (t - b) % w = 0 then
      let i := (t - b) / w * 2048 + k % 2048
      if (hedGet g i s).isSome then some i else none
    else none

/-- The group's mask over its width, `HED_GROUP_MASK` (R289, R309). -/
def grpMask (g : Nat) (s : State) : Nat :=
  (List.range (3 * grpW g s)).foldr (fun j a => regGet (pgGrp g + 0x110 + 4 * j) s + 2 ^ 32 * a) 0

def hgrpGen (g : Nat) (s : State) : W32 := (tget {} s.hgrp g).gen
/-- One more change of a group (R290). -/
def genStep (g n : Nat) (s : State) : State :=
  { s with hgrp := tmod {} g (fun x => { x with gen := x.gen + BitVec.ofNat 32 n }) s.hgrp }

/-- What an operation returns (R288). -/
structure HedRes where
  hit : Bool := false
  multi : Bool := false
  stale : Bool := false
  full : Bool := false
  lost : Bool := false
  fenced : Bool := false
  index : Nat := 0
  entry : Nat := 0
deriving DecidableEq, Repr

/-- Counts an operation in every tile of the group (R308 HED_TILE_OPS; log entry 21). -/
def tileOps (g n : Nat) (s : State) : State :=
  (cfgTileList (grpCfg g s)).foldl (fun s t => regAdd (pgTile t + 0x108) n s) s

/-- An entry is lost (R294), found in tile `t`: a hole, LOST in `HED_GROUP_STAT`, event 0x3602. -/
def hedLose (g i t : Nat) (s : State) : State :=
  s |> hedPut g i none |> regSet (pgGrp g + 0x108) (setBit (regGet (pgGrp g + 0x108) s) 18 true)
    |> regAdd (pgTile t + 0x118) 1 |> note 0x3602 (pgGrp g) i

/-- A single-bit error at a place of the array is rewritten corrected, with event 0x3681 (R294). -/
def hedCorrect (k : Nat) (s : State) : State :=
  { s with hed := tmod {} k (fun e => { e with flips := [] }) s.hed }
    |> regAdd (pgTile (k / 2048) + 0x110) 1 |> note 0x3681 (pgTile (k / 2048)) k

/-- Looks for the first match at index `from_` or above under an effective mask (R288, R289). A hit reads the entry's check bits: an
uncorrectable entry is lost, a correctable one is corrected and the search repeated (R294). -/
def hedLook (g key mask from_ : Nat) : Nat → State → HedRes × State
  | 0, s => ({}, s)
  | fuel + 1, s =>
    let ms := (hedValid g s).filter fun i => from_ ≤ i && Nat.land (Nat.xor ((hedGet g i s).getD 0) key) mask = 0
    match ms with
    | [] => ({}, s)
    | i :: rest =>
      match hedFlipped 2 g i s, hedFlipped 1 g i s with
      | k :: _, _ => ({ lost := true }, hedLose g i (k / 2048) s)
      | [], k :: l => hedLook g key mask from_ fuel ((k :: l).foldl (fun s k => hedCorrect k s) s)
      | [], [] => ({ hit := true, multi := !rest.isEmpty, index := i, entry := (hedGet g i s).getD 0 }, regAdd (pgGrp g + 0x148) 1 s)

/-- One search or NEXT, counted (R308, R309). -/
def hedFind (g key mask from_ : Nat) (s : State) : HedRes × State :=
  hedLook g key mask from_ ((hedValid g s).length + 1) (s |> regAdd (pgGrp g + 0x140) 1 |> tileOps g 1)

/-- SEARCH (R288 to R290): the result and the requester's new search state. -/
def hedSearch (g key reqMask : Nat) (s : State) : HedRes × Search × State :=
  if grpFenced g s then ({ fenced := true }, { group := g }, s)
  else
    let mask := Nat.land (grpMask g s) reqMask
    let (r, s1) := hedFind g key mask 0 s
    (r, { group := g, key := BitVec.ofNat 384 key, mask := BitVec.ofNat 384 mask, index := r.index, gen := hgrpGen g s,
          hit := r.hit }, s1)

/-- NEXT (R288, R290). -/
def hedNext (q : Search) (s : State) : HedRes × Search × State :=
  let g := q.group
  if grpFenced g s then ({ fenced := true }, q, s)
  else if q.gen ≠ hgrpGen g s then
    ({ stale := true }, { q with hit := false }, s |> regAdd (pgGrp g + 0x140) 1 |> tileOps g 1)
  else if !q.hit then ({}, q, s |> regAdd (pgGrp g + 0x140) 1 |> tileOps g 1)
  else
    let (r, s1) := hedFind g q.key.toNat q.mask.toNat (q.index + 1) s
    (r, { q with index := r.index, hit := r.hit }, s1)

/-- The lowest hole at `p` or above, `E` where there is none. -/
def holeUp (p : Nat) : List Nat → Nat
  | [] => p
  | i :: l => if i < p then holeUp p l else if i = p then holeUp (p + 1) l else p

/-- The largest hole below `p`, from the valid indices in descending order. -/
def holeDown : Nat → List Nat → Option Nat
  | 0, _ => none
  | p + 1, l => match l with
    | [] => some p
    | i :: rest => if p < i then holeDown (p + 1) rest else if i = p then holeDown p rest else some p
  termination_by structural _ l => l

/-- INSERT (R291): at position `p`, or at the lowest hole (ANY). -/
def hedInsert (g key : Nat) (p : Option Nat) (s : State) : HedRes × State :=
  if grpFenced g s then ({ fenced := true }, s)
  else
    let e := grpE g s
    let l := hedValid g s
    let s0 := tileOps g 1 s
    let done (i m : Nat) (s : State) : HedRes × State :=
      ({ index := i }, s |> hedPut g i (some key) |> genStep g 1 |> regAdd (pgGrp g + 0x150) 1 |> regAdd (pgGrp g + 0x160) m)
    let full : HedRes × State := ({ full := true }, regAdd (pgGrp g + 0x158) 1 s0)
    match p with
    | none => let h := holeUp 0 l; if h < e then done h 0 s0 else full
    | some p =>
      let h := holeUp p l
      if h < e then
        done p (h - p) ((List.range (h - p)).foldl (fun s k => hedMove g (h - k - 1) (h - k) s) s0)
      else match holeDown p l.reverse with
        | some h => done (p - 1) (p - 1 - h)
            ((List.range (p - 1 - h)).foldl (fun s k => hedMove g (h + k + 1) (h + k) s) s0)
        | none => full

/-- DELETE (R288, R290). -/
def hedDelete (g i : Nat) (s : State) : HedRes × State :=
  if grpFenced g s then ({ fenced := true }, s)
  else ({ index := i }, s |> tileOps g 1 |> hedPut g i none |> genStep g 1)

/-- Every entry of a group becomes a hole (R287, R309 CLEAR). -/
def hedClear (g : Nat) (s : State) : State :=
  let ts := cfgTileList (grpCfg g s)
  { s with hed := s.hed.filter fun e => !ts.contains (e.1 / 2048) } |> genStep g 1

/-- Compaction (R293): the k-th valid entry goes to `place k`; every step of 16 moves is one operation. -/
def hedCompact (g : Nat) (spread : Bool) (s : State) : State :=
  let l := hedValid g s
  let n := l.length
  let place (k : Nat) : Nat := if spread then k * grpE g s / n else k
  let moved := (l.zipIdx.filter fun p => p.1 ≠ place p.2).length
  if !grpEn g s || grpFenced g s then s
  else
    let down := (l.zipIdx.filter fun p => place p.2 < p.1).foldl (fun s p => hedMove g p.1 (place p.2) s) s
    (l.zipIdx.reverse.filter fun p => p.1 < place p.2).foldl (fun s p => hedMove g p.1 (place p.2) s) down |> genStep g (cdiv moved 16) |> tileOps g (cdiv moved 16) |> regAdd (pgGrp g + 0x160) moved

/-- A write of `HED_GROUP_CFG` (R287). While EN is 1 only EN may change. An enabling that breaks the geometry or shares a
tile is refused with 0x3604 and changes nothing (DEDUCED, log entry 22); one that succeeds empties the group. -/
def grpCfgWrite (g v : Nat) (s : State) : State :=
  let v := Nat.land v 0xFF1F3F07
  let old := grpCfg g s
  let a := pgGrp g + 0x100
  if bit old 0 then (if v = setBit old 0 false then regSet a v s else s)
  else if !bit v 0 then regSet a v s
  else
    let shared := (List.range 8).any fun q => q ≠ g && grpEn q s &&
      (cfgTileList v).any fun t => (cfgTileList (grpCfg q s)).contains t
    if !grpGeometry v || shared then note 0x3604 (pgGrp g) g s else s |> regSet a v |> hedClear g

/-- A write of `HED_GROUP_CTL` (R293, R309). -/
def grpCtlWrite (g v : Nat) (s : State) : State :=
  let s1 := regSetFld (pgGrp g + 0x104) 1 1 (bits v 1 1) s
  let s2 := if bit v 2 && grpEn g s then hedClear g s1 else s1
  if bit v 0 then hedCompact g (bit v 1) s2 else s2

/-- A row over a group's register. -/
def grpRow (g : Nat) (f : State → State) (s : State) : Host.Outcome State Fault Refusal :=
  if g < 8 then .next (if fenced (pgGrp g) s then s else f s) else .fault .noSuchUnit

/-- HED_GROUP_CFG_WRITE (R287). -/
def execHedGroupCfgWrite (grp : Nat) (value : W32) (s : State) : Host.Outcome State Fault Refusal :=
  grpRow grp (grpCfgWrite grp value.toNat) s
/-- HED_COMPACT_PACK (R293): COMPACT with MODE 0. -/
def execHedCompactPack (grp : Nat) (s : State) : Host.Outcome State Fault Refusal := grpRow grp (grpCtlWrite grp 1) s
/-- HED_COMPACT_SPREAD (R293): COMPACT with MODE 1. -/
def execHedCompactSpread (grp : Nat) (s : State) : Host.Outcome State Fault Refusal := grpRow grp (grpCtlWrite grp 3) s
/-- HED_GROUP_CLEAR (R309): CLEAR; MODE keeps its value. -/
def execHedGroupClear (grp : Nat) (s : State) : Host.Outcome State Fault Refusal :=
  grpRow grp (grpCtlWrite grp (4 + 2 * regFld (pgGrp grp + 0x104) 1 1 s)) s

/-- The group that holds an allocatable tile (R308 GROUP, IN_GROUP). -/
def tileGroup (t : Nat) (s : State) : Option Nat :=
  (List.range 8).find? fun g => grpEn g s && (cfgTileList (grpCfg g s)).contains t

/-- HEDDLE_CHECK (R285, R294): the checker reads a row of a tile. It finds the bits that have flipped, and with `kind` 1 or 2 as many
more: one is corrected; two or more are an uncorrectable entry, which becomes a hole with LOST, or is rebuilt from its context for a
guard tile. With `kind` 3 two check bits of the row flip and the checker does not read it yet, so that a search that hits finds them. -/
def execHeddleCheck (tile row kind : Nat) (s : State) : Host.Outcome State Fault Refusal :=
  if tile < 48 && row < 2048 then
    let k := tile * 2048 + row
    let n := (tget {} s.hed k).flips.length + (if kind = 1 || kind = 2 then kind else 0)
    if kind = 3 then
      .next (if 24 ≤ tile then { s with hed := tmod {} k (fun e => { e with flips := 97 :: 98 :: e.flips }) s.hed } else s)
    else if n = 0 then .next s
    else if n = 1 then .next (hedCorrect k s)
    else
      if tile < 24 then
        .next ({ s with qe := { s.qe with guardLost := s.qe.guardLost ++ [k] } }
                |> regAdd (pgTile tile + 0x118) 1 |> note 0x3603 (pgTile tile) k)
      else match tileGroup tile s with
        | some g =>
          let v := grpCfg g s
          .next (hedLose g ((tile - cfgBase v) / cfgW v * 2048 + row) tile s)
        | none => .next (regAdd (pgTile tile + 0x118) 1 { s with hed := tset {} k {} s.hed })
  else .fault .noSuchUnit

end Sys2Proof.Machine
end

