-- ==== Sys2Proof/Machine/Scan.lean ====
section
/-!
DEFINITION. The scan lanes (R295 to R305): the specification and its checks, the evaluation of records, and scan jobs.
-/
namespace Sys2Proof.Machine

/-! ### The specification (R296, R297) -/

def scRlen (p : Bytes) : Nat := leAt p 0 2
def scForm (p : Bytes) : Nat := leAt p 2 1
def scNterms (p : Bytes) : Nat := leAt p 3 1
def scAppend (p : Bytes) : Bool := bit (leAt p 4 1) 0
def scNproj (p : Bytes) : Nat := leAt p 5 1

/-- A term. -/
structure ScTerm where
  off : Nat
  op : Nat
  wt : Nat
  a : Nat
  b : Nat
deriving DecidableEq, Repr

/-- Term `k` of a specification. -/
def scTerm (p : Bytes) (k : Nat) : ScTerm :=
  let o := 0x28 + 24 * k
  ⟨leAt p o 2, leAt p (o + 2) 1, leAt p (o + 3) 1, leAt p (o + 8) 8, leAt p (o + 16) 8⟩

/-- The terms used. -/
def scTerms (p : Bytes) : List ScTerm := (List.range (min 8 (scNterms p))).map (scTerm p)

/-- The projection ranges used. -/
def scProjs (p : Bytes) : List (Nat × Nat) :=
  (List.range (min 6 (scNproj p))).map fun i => (leAt p (0xE8 + 4 * i) 2, leAt p (0xEA + 4 * i) 2)

/-- Bytes of a term's field: its width, or the key length of IN_SET (R297, R300). -/
def ScTerm.len (t : ScTerm) : Nat := if t.op = 8 then t.a % 64 else 2 ^ (t.wt % 4)

/-- The IN_SET term, if any. -/
def scSet (p : Bytes) : Option ScTerm := (scTerms p).find? (·.op = 8)

/-- DETAIL of a specification (R303): the lowest failing value, 0 when it passes. `w` is the width of the job's group, 0 where
the job has no usable group. The reserved bytes of all eight terms count (DEDUCED, log entry 23). -/
def scDetail (p : Bytes) (w : Nat) : Nat :=
  let ts := scTerms p
  let sets := ts.filter (·.op = 8)
  if scRlen p = 0 || 1024 < scRlen p then 0x01
  else if 4 < scForm p then 0x02
  else if 8 < scNterms p then 0x03
  else if ts.any fun t => scRlen p < t.off + t.len || (t.op ≠ 8 && 16 ≤ t.wt) then 0x04
  else if ts.any fun t => 8 < t.op then 0x05
  else if 1 < sets.length || sets.any fun t => w = 0 || t.len = 0 || 12 * w < t.len then 0x06
  else if (if scForm p = 1 then scNproj p = 0 || 6 < scNproj p else scNproj p ≠ 0) ||
      (scProjs p).any fun r => scRlen p < r.1 + r.2 then 0x07
  else if leAt p 6 2 ≠ 0 || 2 ≤ leAt p 4 1 || (List.range 8).any fun k => leAt p (0x2C + 24 * k) 4 ≠ 0 then 0x08
  else 0

/-! ### Evaluating records (R297 to R301) -/

/-- A term other than IN_SET on a record. -/
def scTest (t : ScTerm) (r : Bytes) : Bool :=
  let w := t.len
  let bs := (r.drop t.off).take w
  let raw := if bit t.wt 3 then beNat bs else leNat bs
  let m := 2 ^ (8 * w)
  let val (v : Nat) : Int := if bit t.wt 2 then sgn (8 * w) v else (v % m : Nat)
  let f := val raw
  let a := val t.a
  let b := val t.b
  match t.op with
  | 0 => raw = t.a % m
  | 1 => raw ≠ t.a % m
  | 2 => f < a
  | 3 => f ≤ a
  | 4 => f > a
  | 5 => f ≥ a
  | 6 => a ≤ f && f ≤ b
  | 7 => Nat.land raw (t.b % m) = t.a % m
  | _ => false

/-- One record (R298 to R300): its probe, its terms, its output. -/
def scRecord (p : Bytes) (g w : Nat) (r : Bytes) (q : ScOut × State) : ScOut × State :=
  let (o, s) := q
  if o.lost then q
  else
    let (res, q1, s1) : HedRes × Search × State := match scSet p with
      | some t => hedSearch g (leNat ((r.drop t.off).take t.len)) (2 ^ 384 - 1) s
      | none => ({}, o.last, s)
    if res.lost || res.fenced then ({ o with lost := true }, s1)
    else
      let bitsOf := ((scTerms p).zipIdx.map fun t =>
        if (if t.1.op = 8 then res.hit else scTest t.1 r) then 2 ^ t.2 else 0).foldl (· + ·) 0
      let sel := bit (leAt p (0x08 + bitsOf / 8) 1) (bitsOf % 8)
      let app := if scAppend p && (scSet p).isSome then natLe (12 * w) res.entry else []
      let piece : Bytes := if !sel then [] else match scForm p with
        | 0 => r ++ app
        | 1 => (scProjs p).flatMap (fun x => (r.drop x.1).take x.2) ++ app
        | 3 => natLe 4 o.records
        | _ => []
      ({ o with out := piece :: o.out, marks := sel :: o.marks, selected := o.selected + b2n sel,
                records := o.records + 1, hits := o.hits + b2n res.hit, last := q1 }, s1)

/-- Bits packed least significant first. -/
def packMarks (l : List Bool) : Bytes :=
  (chunks 8 (l.length / 8 + 1) l).map fun c => BitVec.ofNat 8 ((c.zipIdx.map fun b => b2n b.1 * 2 ^ b.2).foldl (· + ·) 0)

/-- A whole scan (R301): the output, the totals, the ignored remainder, and whether it is a length error. -/
def scRun (p : Bytes) (g w nrec : Nat) (inp : Bytes) (s : State) : Bytes × ScOut × Nat × Bool × State :=
  let rl := max 1 (scRlen p)
  let n := if nrec = 0 then inp.length / rl else min nrec (inp.length / rl)
  let recs := chunks rl n (inp.take (n * rl))
  let (o, s1) := recs.foldl (fun q r => scRecord p g w r q) (({} : ScOut), s)
  let rest := inp.drop (n * rl)
  let bad := if nrec = 0 then rest.any (· ≠ 0) else n < nrec
  let out := if scForm p = 2 then packMarks o.marks.reverse else o.out.reverse.flatten
  (out, o, if nrec = 0 && !bad then rest.length else 0, bad, s1)

/-! ### Scan jobs (R302 to R305) -/

/-- The group a job names. -/
def sjGroup (d : Bytes) : Option Nat := if bit (leAt d 3 1) 7 then some (leAt d 3 1 % 8) else none

/-- The width of a job's usable group, 0 without one (R303 DETAIL 0x06). -/
def groupWidth (g : Option Nat) (f : Nat) (house : Bool) (s : State) : Nat :=
  match g with
  | some g => if grpEn g s && grpOwned g f house s then grpW g s else 0
  | none => 0

/-- The checks of R303: CODE + 256 × DETAIL. -/
def sjCheck (a : Nat) (j : EngJob) (s : State) : Nat :=
  let d := j.desc
  let inL := (edIn d).isSome
  let outL := (edOut a d).isSome
  let at_ := leAt d 0x28 8
  let det := scDetail j.spec (groupWidth (sjGroup d) (edFunc a d) (edHouse a d) s)
  if (!inL && edSrc d % 64 ≠ 0) || (!outL && edDst d % 64 ≠ 0) || at_ % 64 ≠ 0 || edCap d % 64 ≠ 0 then 0x01
  else if leAt d 0 1 ≠ 1 || clearN (leAt d 1 1) 0x1C ≠ 0 || 128 ≤ leAt d 2 1 || bits (leAt d 3 1) 6 3 ≠ 0 ||
      leAt d 0x25 1 ≠ 0 || 1 < edSrcSpace d || 1 < edDstSpace d || !edLineOk a (leAt d 0x1E 1) true s ||
      !edLineOk a (leAt d 0x1F 1) false s || (inL && edSrcSpace d ≠ 0) || (outL && edDstSpace d ≠ 0) then 0x0B
  else if det ≠ 0 then 0x0B + 256 * det
  else if (!inL && !edRange a j (edSrcSpace d) (edSrc d) (cdiv (edSrcLen d) 64 * 64) s) ||
      (!outL && !edRange a j (edDstSpace d) (edDst d) (edCap d) s) || !edRange a j 0 at_ 4096 s then 0x05
  else 0

/-- Clocks of `n` records of `r` bytes that give `out` bytes (R295): 16 bytes in, 16 bytes out and one record a clock. -/
def scClocks (n r out : Nat) : Nat := max (cdiv (n * r) 16) (max n (cdiv out 16))

/-- The output of a scan: all of it, or with `part` what is certain before the end. -/
def scBytes (p : Bytes) (part : Bool) (o : ScOut) : Bytes :=
  if scForm p = 2 then packMarks (if part then o.marks.reverse.take (o.marks.length / 8 * 8) else o.marks.reverse) else o.out.reverse.flatten

/-- Takes up the work on a scan job's input up to its position (R295, R301): the records that are whole now, each with its probe. A job
with NREC records scanned, or one that cannot go on, is done with its input. -/
def sjWork (a : Nat) (j : EngJob) (s : State) : EngJob × State :=
  let p := j.spec
  let rl := max 1 (scRlen p)
  let g := (sjGroup j.desc).getD 0
  let nrec := leAt j.desc 4 4
  let n := if nrec = 0 then j.pos / rl else min nrec (j.pos / rl)
  let recs := chunks rl (n - j.scan.records) ((j.inp.drop (j.scan.records * rl)).take ((n - j.scan.records) * rl))
  let (o, s1) := recs.foldl (fun q r => scRecord p g (grpW g s) r q) (j.scan, s)
  let total := scClocks o.records rl (scBytes p false o).length
  let stop := o.lost || ((scSet p).isSome && grpFenced g s1) || (nrec ≠ 0 && o.records = nrec)
  let k := o.records - j.scan.records
  let s2 := s1 |> regAdd (engPage a + 0x130) k |> regAdd (engPage a + 0x138) (o.selected - j.scan.selected)
               |> regAdd (engPage a + 0x158) (if (scSet p).isSome then k else 0)
  let s3 := if (scSet p).isSome then { s2 with laneSearch := tset {} (a - 0x58) o.last s2.laneSearch } else s2
  ({ j with scan := o, left := some (total - j.clk), clk := total, inDone := j.inDone || stop, pos := if stop then j.inp.length else j.pos,
            made := if (edOut a j.desc).isSome then (scBytes p true o).take (edCap j.desc) else [] }, s3)

/-- The result bytes from DETAIL on (R302). -/
def sjResult (tail sel out : Nat) : Bytes :=
  natLe 1 128 ++ natLe 2 tail ++ natLe 4 (min sel 0xFFFFFFFF) ++ natLe 5 out ++ zeros 3

/-- A scan job whose records have been scanned (R304). -/
def sjFinish (a : Nat) (j : EngJob) (s : State) : State :=
  let d := j.desc
  let o := j.scan
  let out := scBytes j.spec false o
  let rest := j.inp.drop (o.records * max 1 (scRlen j.spec))
  let nrec := leAt d 4 4
  let bad := if nrec = 0 then rest.any (· ≠ 0) else o.records < nrec
  let n := min out.length (edCap d)
  if (scSet j.spec).isSome && grpFenced ((sjGroup d).getD 0) s then engStop a j 0x08 (noResult 0) (spoil a j n s)
  else if o.lost then engStop a j 0x0D (noResult 0) (spoil a j n s)
  else if bad then engStop a j 0x02 (sjResult 0 o.selected out.length) (spoil a j n s)
  else
    let tail := if nrec = 0 then rest.length else 0
    if edCap d < out.length then engStop a j 0x04 (sjResult tail o.selected out.length) (spoil a j n s)
    else engOutput a j out (sjResult tail o.selected out.length) s

/-- SCAN_JOB (R302, R303): lane `eng` accepts the descriptor at the head of its ring. -/
def execScanJob (eng : Nat) (s : State) : Host.Outcome State Fault Refusal :=
  if eng < 8 then .next (engAccept (0x58 + eng) (fun _ => true) (sjCheck (0x58 + eng)) s) else .fault .noSuchUnit
/-- SCAN_JOB_END (R304). -/
def execScanJobEnd (eng : Nat) (s : State) : Host.Outcome State Fault Refusal :=
  if eng < 8 then .next (engEnds (0x58 + eng) s) else .fault .noSuchUnit
/-- SCN_TAIL_ADVANCE (R302): a write of `SCN_TAIL`. -/
def execScnTailAdvance (eng : Nat) (value : W32) (s : State) : Host.Outcome State Fault Refusal :=
  engRow eng 0x58 8 (fun a => engTail a value.toNat) s
/-- SCN_STOP (R310): a write of `SCN_CTL`. -/
def execScnStop (eng : Nat) (value : W32) (s : State) : Host.Outcome State Fault Refusal :=
  engRow eng 0x58 8 (fun a => engCtl a value.toNat) s
/-- SCN_FLUSH (R310): a write of `SCN_CTL` with FLUSH set. -/
def execScnFlush (eng : Nat) (value : W32) (s : State) : Host.Outcome State Fault Refusal :=
  engRow eng 0x58 8 (fun a => engCtl a (setBit value.toNat 1 true)) s

end Sys2Proof.Machine
end

