-- ==== Sys2Proof/Machine/Twill.lean ====
section
/-!
DEFINITION. The Twill frame format, bit for bit (R226 to R241): prediction, contexts, adaptive Rice coding, the compressor's
choices and the decoder's checks.
-/
namespace Sys2Proof.Machine

/-- A block header (R231). -/
structure TwHdr where
  pred : Nat := 0
  wcode : Nat := 0
  mode : Nat := 0
  raw : Bool := false
  k0 : Nat := 0
  stride : Nat := 1
  blen : Nat := 0
deriving DecidableEq, Repr

/-- The bytes of a block header. -/
def TwHdr.bytes (h : TwHdr) : Bytes :=
  natLe 1 (h.pred + 8 * h.wcode + 32 * h.mode + 128 * b2n h.raw) ++ natLe 1 h.k0 ++ natLe 2 (h.stride - 1) ++ natLe 4 h.blen

/-- Floor of the base-2 logarithm plus 1; 0 for 0 (R235). -/
def bitlen (y : Nat) : Nat := if y = 0 then 0 else Nat.log2 y + 1

/-- A neighbour of element `i`, `d` elements back; 0 outside the block (R233). -/
def twAt (xs : Array Nat) (i d : Nat) : Nat := if i < d then 0 else xs.getD (i - d) 0

/-- The prediction of element `i` (R233), modulo `m`. -/
def twPredict (pred m st : Nat) (xs : Array Nat) (i : Nat) : Nat :=
  let a := twAt xs i 1
  let b := twAt xs i st
  let c := twAt xs i (st + 1)
  let d := (a + b + (m - c)) % m
  match pred with
  | 1 => a
  | 2 => b
  | 3 => d
  | 4 => max (min a b) (min (max a b) d)
  | 5 => (2 * a + (m - twAt xs i 2)) % m
  | 7 => (a + b) / 2
  | _ => 0

/-- The residue `(x − p) mod M` as an unsigned value (R234). -/
def twMap (m r : Nat) : Nat := if r < m / 2 then 2 * r else 2 * (m - r) - 1

/-- The element that a coded value gives over prediction `p` (put of R238). -/
def twUnmap (m p u : Nat) : Nat :=
  if u % 2 = 0 then (p + u / 2) % m else (p + (m - (u + 1) / 2 % m)) % m

/-- The magnitude of a difference read as signed modulo `m` (R235). -/
def twMag (m x y : Nat) : Nat :=
  let d := (x + (m - y)) % m
  if d < m / 2 then d else m - d

/-- The context of an element (R235); `u` is the coded value of the element before, for PRED 6. -/
def twCtx (pred m st : Nat) (xs : Array Nat) (i u : Nat) : Nat :=
  if pred = 6 then (if i = 0 then 0 else min 7 (bitlen u))
  else min 7 (bitlen (twMag m (twAt xs i 1) (twAt xs i (st + 1)) + twMag m (twAt xs i st) (twAt xs i (st + 1))))

/-- The move-to-front lists (R234), by left byte. -/
abbrev TwLists := Tab (List Nat)

/-- The list of a left byte; at the start 0 to 255. -/
def twList (ls : TwLists) (a : Nat) : List Nat := tget (List.range 256) ls a

/-- Moves a value to the front of a list. -/
def twFront (ls : TwLists) (a x : Nat) : TwLists := tput a (x :: (twList ls a).filter (· ≠ x)) ls

/-- The position of a value in a list. -/
def twRankOf (x : Nat) : List Nat → Nat
  | [] => 0
  | y :: l => if x = y then 0 else twRankOf x l + 1

/-- The elements of a block: w-byte little-endian values (R232). -/
def twElems (w : Nat) (bs : Bytes) : Array Nat :=
  let n := bs.length / w
  ((chunks w n bs).map leNat).toArray

/-- The coded values of the first `cnt` elements under a predictor (R234). -/
def twCoded (pred m st : Nat) (xs : Array Nat) (cnt : Nat) : Array Nat :=
  if pred = 6 then
    ((List.range cnt).foldl (fun (q : Array Nat × TwLists) i =>
      let a := twAt xs i 1
      let x := xs.getD i 0
      (q.1.push (twRankOf x (twList q.2 a)), twFront q.2 a x)) (#[], [])).1
  else
    (List.range cnt).foldl (fun (q : Array Nat) i =>
      q.push (twMap m ((xs.getD i 0 + (m - twPredict pred m st xs i)) % m))) #[]

/-- The adaptive states: A and N of contexts 0 to 7, and of RUN at index 8 (R236). -/
abbrev TwCtxs := List (Nat × Nat)

/-- The states at the start of a block. -/
def twCtxs (k0 : Nat) : TwCtxs := List.replicate 8 (2 ^ k0, 1) ++ [(1, 1)]

/-- The Rice parameter of state `j` with escape width `e` (R236). -/
def twK (mode k0 e : Nat) (cs : TwCtxs) (j : Nat) : Nat :=
  if mode = 2 then min k0 e
  else
    let (a, n) := cs.getD j (1, 1)
    min e (clog2 (cdiv a n))

/-- Updates state `j` after value `y` (R236). -/
def twUpdate (cs : TwCtxs) (j y : Nat) : TwCtxs :=
  let (a, n) := cs.getD j (1, 1)
  cs.set j (if n + 1 = 64 then ((a + y) / 2, 32) else (a + y, n + 1))

/-- `n` bits of a number, least significant first (R232). -/
def bitsOf : Nat → Nat → List Bool
  | 0, _ => []
  | n + 1, v => (v % 2 = 1) :: bitsOf n (v / 2)

/-- The code of `y` with parameter `k` and escape width `e` (R237). -/
def twCode (y k e : Nat) : List Bool :=
  let q := y / 2 ^ k
  if q < 32 then List.replicate q false ++ [true] ++ bitsOf k y else List.replicate 32 false ++ bitsOf e y

/-- Packs bits into bytes, least significant bit first, zero bits up to the byte boundary (R232). -/
def packBits (bs : List Bool) : Bytes :=
  (chunks 8 bs.length bs).map fun c => BitVec.ofNat 8 (c.zipIdx.foldl (fun v p => v + b2n p.1 * 2 ^ p.2) 0)

/-- The number of consecutive zeros from index `i` (R238). -/
def twRun (us : Array Nat) : Nat → Nat → Nat
  | 0, _ => 0
  | fuel + 1, i => if us.getD i 1 = 0 then twRun us fuel (i + 1) + 1 else 0

/-- Codes the elements from `i` on (R236 to R238); `fuel` bounds the elements left. The pieces come out last first. -/
def twEncode (h : TwHdr) (m : Nat) (xs us : Array Nat) (n : Nat) :
    Nat → Nat → TwCtxs → List (List Bool) → List (List Bool)
  | 0, _, _, acc => acc
  | fuel + 1, i, cs, acc =>
    if n ≤ i then acc
    else
      let e := 8 * 2 ^ h.wcode
      let ctx (i : Nat) := twCtx h.pred m h.stride xs i (if i = 0 then 0 else us.getD (i - 1) 0)
      if h.mode = 0 && ctx i = 0 then
        let r := twRun us (n - i) i
        let acc := twCode r (twK 0 h.k0 17 cs 8) 17 :: acc
        let cs := twUpdate cs 8 r
        let i := i + r
        if n ≤ i then acc
        else
          let j := ctx i
          let u := us.getD i 0
          twEncode h m xs us n fuel (i + 1) (twUpdate cs j u) (twCode (u - 1) (twK 0 h.k0 e cs j) e :: acc)
      else
        let j := ctx i
        let u := us.getD i 0
        twEncode h m xs us n fuel (i + 1) (if h.mode = 2 then cs else twUpdate cs j u)
          (twCode u (twK h.mode h.k0 e cs j) e :: acc)

/-- The parameters of a compression (R241, R243). -/
structure TwParams where
  pred : Nat := 0xF
  wcode : Nat := 0
  mode : Nat := 0
  k0 : Nat := 0
  k0Auto : Bool := true
  blockLog2 : Nat := 12
  stride : Nat := 1
  pad64 : Bool := true
deriving DecidableEq, Repr

/-- The cost of a trial of a predictor over the first `t` elements (R241 step 2). -/
def twCost (pred m st : Nat) (xs : Array Nat) (t : Nat) : Nat :=
  (twCoded pred m st xs t).foldl (fun c u => c + bitlen u) 0

/-- The predictor with the lowest cost, the lower number on a tie (R241 step 2). -/
def twChoose (w m st : Nat) (xs : Array Nat) (t : Nat) : Nat :=
  let cands := [0, 1, 2, 3, 4, 5] ++ (if w = 1 then [6] else []) ++ [7]
  (cands.foldl (fun (b : Option (Nat × Nat)) p =>
    let c := twCost p m st xs t
    match b with
    | none => some (p, c)
    | some (_, c') => if c < c' then some (p, c) else b) none).elim 0 Prod.fst

/-- One coded block and whether it is raw (R232, R241). -/
def twBlock (q : TwParams) (bs : Bytes) : Bytes × Bool :=
  let w := 2 ^ q.wcode
  let m := 2 ^ (8 * w)
  let n := bs.length / w
  let xs := twElems w bs
  let t := min n 1024
  let pred := if q.pred = 0xF then twChoose w m q.stride xs t else q.pred
  let us := twCoded pred m q.stride xs n
  let sum := (us.toList.take t).foldl (· + ·) 0
  let k0 := if q.k0Auto then bitlen (sum / t) - 1 else q.k0
  let h : TwHdr := { pred := pred, wcode := q.wcode, mode := q.mode, k0 := k0, stride := q.stride }
  let payload := packBits (twEncode h m xs us n n 0 (twCtxs k0) []).reverse.flatten ++ bs.drop (n * w)
  if payload.length < bs.length then ({ h with blen := payload.length }.bytes ++ payload, false)
  else ({ raw := true, blen := bs.length : TwHdr }.bytes ++ bs, true)

/-- The clocks that the compressor spends on a block of `n` bytes that came out as `b` (R242): 8 bytes a clk, 4 with PRED 6, a raw block
at the full rate; PRED 0xF adds 256. -/
def twcBlockClk (q : TwParams) (n : Nat) (b : Bytes) : Nat :=
  cdiv n (if leAt b 0 1 % 8 = 6 && leAt b 0 1 < 128 then 4 else 8) + (if q.pred = 0xF then 256 else 0)

/-- The clocks of a compression (R242). -/
def twcClocks (q : TwParams) (data : Bytes) : Nat :=
  ((chunks (2 ^ q.blockLog2) data.length data).map fun c => twcBlockClk q c.length (twBlock q c).1).foldl (· + ·) 0

/-- The header of a frame of `n` uncompressed bytes (R226). -/
def twHead (q : TwParams) (n : Nat) : Bytes :=
  let hd := natLe 2 0x5754 ++ [1] ++ natLe 1 (b2n q.pad64) ++ natLe 4 (cdiv n (2 ^ q.blockLog2)) ++ natLe 8 n ++ natLe 1 q.blockLog2 ++ zeros 11
  hd ++ natLe 4 (crc32c hd)

/-- The blocks of an input, each coded, and whether it is raw. -/
def twBlocks (q : TwParams) (data : Bytes) : List (Bytes × Bool) := (chunks (2 ^ q.blockLog2) data.length data).map (twBlock q)

/-- The frame of an input (R226 to R229, R241), and how many blocks were written raw. -/
def twCompress (q : TwParams) (data : Bytes) : Bytes × Nat :=
  let bl := twBlocks q data
  let body := twHead q data.length ++ (bl.map Prod.fst).flatten
  let pad := if q.pad64 then (64 - (body.length + 8) % 64) % 64 else 0
  (body ++ zeros pad ++ natLe 4 (crc32c data) ++ natLe 4 (body.length + pad + 8), (bl.filter Prod.snd).length)

/-- What the bit reader of a block reports. -/
inductive TwGet where
  /-- A value and the bit position after it. -/
  | val (y pos : Nat)
  /-- The bits ran out. -/
  | short
deriving DecidableEq, Repr

/-- Bit `p` of a payload. -/
def twBit (pl : Array Nat) (p : Nat) : Nat := (pl.getD (p / 8) 0 / 2 ^ (p % 8)) % 2

/-- Zero bits from position `p`, at most `fuel`. -/
def twZeros (pl : Array Nat) (lim : Nat) : Nat → Nat → Nat
  | 0, _ => 0
  | fuel + 1, p => if p < lim && twBit pl p = 0 then twZeros pl lim fuel (p + 1) + 1 else 0

/-- `n` bits from position `p`, least significant first. -/
def twBits (pl : Array Nat) (p : Nat) : Nat → Nat
  | 0 => 0
  | n + 1 => twBit pl p + 2 * twBits pl (p + 1) n

/-- Reads one value (R237) from bit `p` of `lim` bits. -/
def twGet (pl : Array Nat) (lim p k e : Nat) : TwGet :=
  let q := twZeros pl lim 32 p
  if q = 32 then (if p + 32 + e ≤ lim then .val (twBits pl (p + 32) e) (p + 32 + e) else .short)
  else if p + q + 1 + k ≤ lim then .val (q * 2 ^ k + twBits pl (p + q + 1) k) (p + q + 1 + k) else .short

/-- The decoder's running state: elements, coded value of the last one, lists, contexts, bit position. -/
structure TwDec where
  xs : Array Nat := #[]
  u : Nat := 0
  ls : TwLists := []
  cs : TwCtxs := []
  pos : Nat := 0
  /-- Escapes read so far: each costs 1 clk (R242). -/
  esc : Nat := 0

/-- The value at bit `p` is escaped (R237): 1, else 0. -/
def twEsc (pl : Array Nat) (lim p : Nat) : Nat := b2n (twZeros pl lim 32 p = 32)

/-- Puts an element (R238). A PRED 6 rank of 256 or more has no stated value (log entry 9). -/
def twPut (h : TwHdr) (m : Nat) (d : TwDec) (u : Nat) : TwDec :=
  let i := d.xs.size
  if h.pred = 6 then
    let a := twAt d.xs i 1
    let x := if u < 256 then (twList d.ls a).getD u 0 else (Config.twillRank a u).toNat
    { d with xs := d.xs.push x, u := u, ls := twFront d.ls a x }
  else { d with xs := d.xs.push (twUnmap m (twPredict h.pred m h.stride d.xs i) u), u := u }

/-- Why a block's bit stream fails. -/
inductive TwStop where
  | detail (n : Nat)
  | short
deriving DecidableEq, Repr

/-- The loop of decode_block (R238). -/
def twDecode (h : TwHdr) (pl : Array Nat) (lim n m : Nat) : Nat → TwDec → Except TwStop TwDec
  | 0, d => .ok d
  | fuel + 1, d =>
    let i := d.xs.size
    if n ≤ i then .ok d
    else
      let e := 8 * 2 ^ h.wcode
      let j := twCtx h.pred m h.stride d.xs i d.u
      if h.mode = 0 && j = 0 then
        match twGet pl lim d.pos (twK 0 h.k0 17 d.cs 8) 17 with
        | .short => .error .short
        | .val r p =>
          if n - i < r then .error (.detail 0x0A)
          else
            let d := (List.range r).foldl (fun d _ => twPut h m d 0) { d with pos := p, cs := twUpdate d.cs 8 r, esc := d.esc + twEsc pl lim d.pos }
            let i := d.xs.size
            if n ≤ i then .ok d
            else
              let j := twCtx h.pred m h.stride d.xs i d.u
              match twGet pl lim d.pos (twK 0 h.k0 e d.cs j) e with
              | .short => .error .short
              | .val y p =>
                if y + 1 = m then .error (.detail 0x0A)
                else
                  let d := twPut h m { d with pos := p, esc := d.esc + twEsc pl lim d.pos } (y + 1)
                  twDecode h pl lim n m fuel { d with cs := twUpdate d.cs j (y + 1) }
      else
        match twGet pl lim d.pos (twK h.mode h.k0 e d.cs j) e with
        | .short => .error .short
        | .val u p =>
          let d := twPut h m { d with pos := p, esc := d.esc + twEsc pl lim d.pos } u
          twDecode h pl lim n m fuel { d with cs := if h.mode = 2 then d.cs else twUpdate d.cs j u }

/-- The bytes of decoded elements. -/
def twBytes (w : Nat) (xs : Array Nat) : Bytes := xs.toList.flatMap (natLe w)

/-- A block header; none where check 0x08 fails, which needs its first 4 bytes (R231, R239). -/
def twReadHdr (b : Bytes) : Option TwHdr :=
  let v := leAt b 0 1
  let h : TwHdr := { pred := v % 8, wcode := v / 8 % 4, mode := v / 32 % 4, raw := 128 ≤ v, k0 := leAt b 1 1 % 64,
                     stride := leAt b 2 2 % 4096 + 1, blen := leAt b 4 4 }
  if leAt b 1 1 / 64 ≠ 0 || leAt b 2 2 / 4096 ≠ 0 || h.mode = 3 || (h.pred = 6 && h.wcode ≠ 0)
    || (h.raw && (v % 128 ≠ 0 || h.k0 ≠ 0 || h.stride ≠ 1)) then none else some h

/-- Decodes one block of `len` bytes at the start of `inp` (R238, R239): its bytes, the input after it and the clocks it took (R242),
or the detail code. -/
def twReadBlock (len : Nat) (inp : Bytes) : Except Nat (Bytes × Bytes × Nat) :=
  if inp.length < 4 then .error 0x0E
  else match twReadHdr inp with
    | none => .error 0x08
    | some h =>
      let rest := inp.drop 8
      if inp.length < 8 then .error 0x0E
      else if h.raw then
        if h.blen ≠ len then .error 0x09
        else if rest.length < len then .error 0x0E else .ok (rest.take len, rest.drop len, cdiv len 16)
      else
        let w := 2 ^ h.wcode
        let m := 2 ^ (8 * w)
        let n := len / w
        let tail := len % w
        let pl := (rest.take h.blen)
        let arr := (pl.map BitVec.toNat).toArray
        let start : TwDec := { cs := twCtxs h.k0 }
        match twDecode h arr (8 * pl.length) n m n start with
        | .error (.detail x) => .error x
        | .error .short => .error (if rest.length < h.blen then 0x0E else 0x0B)
        | .ok d =>
          let used := cdiv d.pos 8
          if rest.length < h.blen then .error 0x0E
          else if used + tail ≠ h.blen || twBits arr d.pos (8 * used - d.pos) ≠ 0 then .error 0x0B
          else .ok (twBytes w d.xs ++ (pl.drop used).take tail, rest.drop h.blen, cdiv len (if h.pred = 6 then 8 else 16) + d.esc)

/-- What a frame's blocks come to: the error, if a check failed, the bytes decoded, the input left, clocks and blocks. -/
structure TwBlocks where
  err : Option Nat := none
  out : Bytes := []
  rest : Bytes := []
  clk : Nat := 0
  blocks : Nat := 0

/-- Decodes the blocks of a frame; `left` is the uncompressed length still to come. -/
def twReadBlocks (bsz : Nat) : Nat → Nat → TwBlocks → TwBlocks
  | 0, _, b => b
  | fuel + 1, left, b =>
    if left = 0 then b
    else match twReadBlock (min bsz left) b.rest with
      | .error x => { b with err := some x }
      | .ok (o, rest, k) =>
        twReadBlocks bsz fuel (left - min bsz left) { out := b.out ++ o, rest := rest, clk := b.clk + k, blocks := b.blocks + 1 }

/-- What a frame comes to. -/
inductive TwFrame where
  /-- A format error with its detail (R239), and what had been decoded before it. -/
  | format (detail : Nat) (b : TwBlocks)
  /-- The declared length exceeds the output space; nothing was decoded (R253). -/
  | space
  /-- The trailer's CRC differs (R240). -/
  | mismatch (b : TwBlocks)
  /-- The decoded blocks, the CRC of their data and the frame's length. -/
  | good (b : TwBlocks) (crc len : Nat)

/-- The header checks of R239, in order; `none` when all pass. -/
def twHeaderFault (inp : Bytes) : Option Nat :=
  if inp.length < 2 then some 0x0E
  else if leAt inp 0 2 ≠ 0x5754 then some 0x01
  else if inp.length < 3 then some 0x0E
  else if leAt inp 2 1 ≠ 1 then some 0x02
  else if inp.length < 32 then some 0x0E
  else if crc32c (inp.take 28) ≠ leAt inp 28 4 then some 0x03
  else if leAt inp 3 1 / 2 ≠ 0 || leAt inp 17 11 ≠ 0 then some 0x04
  else if leAt inp 16 1 < 12 || 16 < leAt inp 16 1 then some 0x05
  else if 2 ^ 30 < leAt inp 8 8 then some 0x06
  else if leAt inp 4 4 ≠ cdiv (leAt inp 8 8) (2 ^ leAt inp 16 1) then some 0x07
  else none

/-- Decodes the frame at the start of `inp` into at most `cap` bytes (R239, R240). -/
def twFrame (cap : Nat) (inp : Bytes) : TwFrame :=
  match twHeaderFault inp with
  | some d => .format d {}
  | none =>
    let ulen := leAt inp 8 8
    if cap < ulen then .space
    else
      let b := twReadBlocks (2 ^ leAt inp 16 1) (leAt inp 4 4) ulen { rest := inp.drop 32 }
      match b.err with
      | some d => .format d b
      | none =>
        let used := inp.length - b.rest.length
        let pad := if leAt inp 3 1 % 2 = 1 then (64 - (used + 8) % 64) % 64 else 0
        if (b.rest.take pad).any (· ≠ 0) then .format 0x0C b
        else if b.rest.length < pad + 8 then .format 0x0E b
        else if leAt b.rest (pad + 4) 4 ≠ used + pad + 8 then .format 0x0D b
        else if leAt b.rest pad 4 ≠ crc32c b.out then .mismatch b
        else .good b (crc32c b.out) (used + pad + 8)

/-- What a decompress job's frames come to: the output, the last frame's CRC, frames, blocks and clocks (R242, R246). -/
structure TwOut where
  data : Bytes := []
  crc : Nat := 0
  frames : Nat := 0
  blocks : Nat := 0
  clk : Nat := 0
  /-- The bytes of a frame that were decoded before it failed. -/
  tried : Bytes := []
deriving DecidableEq, Repr

/-- Counts the blocks of a frame, good or not. -/
def TwOut.took (o : TwOut) (b : TwBlocks) : TwOut := { o with blocks := o.blocks + b.blocks, clk := o.clk + b.clk }

/-- Skips the zero 64-byte words after a trailer (R246): the input left, or none where a zero remainder ends the stream. -/
def twSkip : Nat → Bytes → Option Bytes
  | 0, inp => if inp.all (· = 0) then none else some inp
  | fuel + 1, inp =>
    if inp.isEmpty then none
    else if (inp.take 64).all (· = 0) then (if inp.length < 64 then none else twSkip fuel (inp.drop 64))
    else some inp

/-- Decodes the frames of a job (R246): the output so far with code 0x00, or the code and the detail. -/
def twFrames (multi : Bool) (cap : Nat) : Nat → TwOut → Bytes → Nat × Nat × TwOut
  | 0, o, _ => (0, 0, o)
  | fuel + 1, o, inp =>
    match twFrame (cap - o.data.length) inp with
    | .format d b => (2, d, { o.took b with tried := b.out })
    | .space => (4, 0, o)
    | .mismatch b => (3, 0, { o.took b with tried := b.out })
    | .good b crc len =>
      let o : TwOut := { o.took b with data := o.data ++ b.out, crc := crc, frames := o.frames + 1 }
      if !multi then (0, 0, o)
      else match twSkip (inp.length / 64 + 1) (inp.drop len) with
        | none => (0, 0, o)
        | some rest => twFrames multi cap fuel o rest

end Sys2Proof.Machine
end

