-- ==== Sys2Proof/Machine/TwillEng.lean ====
section
/-!
DEFINITION. The compressors and decompressors as engines (R242 to R255): the descriptor checks, the clocks of a job, and what
a finished job delivers.
-/
namespace Sys2Proof.Machine

/-- Fields of a Twill descriptor (R243). -/
def tdMode (d : Bytes) : Nat := bits (leAt d 3 1) 7 6
def tdStride (d : Bytes) : Nat := leAt d 6 2
def tdLog2 (d : Bytes) : Nat := leAt d 5 1

/-- The job's compressor parameters. -/
def tdParams (d : Bytes) : TwParams :=
  { pred := tdPred d, wcode := tdWcode d, mode := tdMode d, k0 := leAt d 4 1 % 64, k0Auto := bit (leAt d 4 1) 6,
    blockLog2 := tdLog2 d, stride := tdStride d, pad64 := edFlag d 0 }

/-- The parameters of a compress job lie in their ranges: PRED 0 to 7 or 0xF, PRED 6 only with w = 1, MODE not 3, the
reserved bit of K0, BLOCK_LOG2, STRIDE and ULEN (R231, R243, R244 step 2). -/
def tdCompressOk (d : Bytes) : Bool :=
  (tdPred d ≤ 7 || tdPred d = 0xF) && !(tdPred d = 6 && tdWcode d ≠ 0) && tdMode d ≠ 3 && !bit (leAt d 4 1) 7 &&
  12 ≤ tdLog2 d && tdLog2 d ≤ 16 && 1 ≤ tdStride d && tdStride d ≤ 4096 && 1 ≤ edSrcLen d && edSrcLen d ≤ 2 ^ 30

/-- The checks of R244 in order. -/
def tdCheck (a : Nat) (j : EngJob) (s : State) : Nat :=
  let d := j.desc
  let inL := (edIn d).isSome
  let verify := tdOp d = 3
  let outL := (edOut a d).isSome
  if (!inL && edSrc d % 64 ≠ 0) || (!outL && !verify && edDst d % 64 ≠ 0) || tdSave d % 64 ≠ 0 ||
      (!verify && edCap d % 64 ≠ 0) then 0x01
  else if (if a < 0x48 then tdOp d ≠ 1 else tdOp d ≠ 2 && tdOp d ≠ 3) || leAt d 1 1 / 32 ≠ 0 || 128 ≤ leAt d 2 1 ||
      leAt d 0x25 1 ≠ 0 || (a < 0x48 && !tdCompressOk d) || 1 < edSrcSpace d || 1 < edDstSpace d ||
      !edLineOk a (leAt d 0x1E 1) true s || !edLineOk a (leAt d 0x1F 1) false s ||
      (inL && edSrcSpace d ≠ 0) || (outL && edDstSpace d ≠ 0) then 0x0B
  else if (!inL && !edRange a j (edSrcSpace d) (edSrc d) (cdiv (edSrcLen d) 64 * 64) s) ||
      (!outL && !verify && !edRange a j (edDstSpace d) (edDst d) (edCap d) s) ||
      !edRange a j 0 (tdSave d) (tdSaveLen d) s then 0x05
  else 0

/-- The destination room of a job: a verify job writes nothing, so no room bounds it. -/
def tdRoom (d : Bytes) : Nat := if tdOp d = 3 then 2 ^ 40 else edCap d

/-- What a decompress or verify job's input comes to: code, detail and output (R239, R240, R246). -/
def tdDecode (j : EngJob) : Nat × Nat × TwOut :=
  twFrames (edFlag j.desc 1) (tdRoom j.desc) (j.inp.length + 1) {} j.inp

/-- A decompress job needs no more input: its one frame is complete, or a check has failed (R239, R246). -/
def tdEarly (a : Nat) (j : EngJob) : Bool :=
  0x48 ≤ a && match tdDecode j with
  | (2, 0x0E, _) => false
  | (0, _, _) => !edFlag j.desc 1
  | _ => true

/-- The input of a compress job whose blocks are complete. -/
def tcWhole (j : EngJob) : Bytes :=
  let z := 2 ^ tdLog2 j.desc
  j.inp.take (if j.pos = edSrcLen j.desc then j.pos else j.pos / z * z)

/-- The part of its frame that a compress job has made. -/
def tcMade (j : EngJob) : Bytes := twHead (tdParams j.desc) (edSrcLen j.desc) ++ ((twBlocks (tdParams j.desc) (tcWhole j)).map Prod.fst).flatten

/-- Takes up the work on a Twill job's input up to its position (R242, R247): the clocks of the blocks that are complete now, and what
goes to an output line. A job whose output passes DST_CAP (R253), or whose input needs no more, is done with its input. -/
def twWork (a : Nat) (j : EngJob) : EngJob :=
  if a < 0x48 then
    let n := twcClocks (tdParams j.desc) (tcWhole j)
    let made := tcMade j
    { j with left := some (n - j.clk), clk := n, made := if (edOut a j.desc).isSome then made.take (edCap j.desc) else [],
             inDone := j.inDone || edCap j.desc < made.length, pos := if edCap j.desc < made.length then j.inp.length else j.pos }
  else
    let early := tdEarly a { j with inp := j.inp.take j.pos }
    let q : EngJob := if early then { j with inp := j.inp.take j.pos, inDone := true } else j
    let o := (tdDecode { q with inp := q.inp.take q.pos }).2.2
    { q with left := some (o.clk - q.clk), clk := o.clk, made := if (edOut a q.desc).isSome then o.data ++ o.tried else [] }

/-- The result bytes from DETAIL on: DONE, FRAMES, CRC, OUT_BYTES, RAW_BLOCKS (R243). -/
def tdResult (frames crc out raw : Nat) : Bytes :=
  natLe 1 128 ++ natLe 2 frames ++ natLe 4 crc ++ natLe 5 out ++ natLe 3 raw

/-- A finished compress job: its frame, or 0x0C when the line ended short, or 0x04 when the frame passes DST_CAP, whose
destination is then undefined (R247, R253). -/
def twcFinish (a : Nat) (j : EngJob) (s : State) : State :=
  let d := j.desc
  let page := engPage a
  if j.inp.length < edSrcLen d then
    if edCap d < (tcMade j).length then engStop a j 0x04 (noResult 0) s else engStop a j 0x0C (noResult 0) s
  else
    let (out, raw) := twCompress (tdParams d) j.inp
    let blocks := cdiv j.inp.length (2 ^ tdLog2 d)
    let s2 := s |> regAdd (page + 0x130) blocks |> regAdd (page + 0x138) raw
    if edCap d < out.length then engStop a j 0x04 (noResult 0) (spoil a j (edCap d) s2)
    else engOutput a j out (tdResult 1 (crc32c j.inp) out.length raw) s2

/-- A finished decompress or verify job: everything decoded goes out only when every check passes (R247). The bytes written
before a failure are undefined. -/
def twdFinish (a : Nat) (j : EngJob) (s : State) : State :=
  let d := j.desc
  let page := engPage a
  let (code, detail, o) := tdDecode j
  let s1 := regAdd (page + 0x130) o.blocks s
  let s2 := if code = 2 then regAdd (page + 0x138) 1 s1 else if code = 3 then regAdd (page + 0x158) 1 s1 else s1
  if code ≠ 0 then
    let n := if tdOp d = 3 then 0 else min (edCap d) (o.data.length + o.tried.length)
    engStop a j code (noResult detail) (spoil a j n s2)
  else if tdOp d = 3 then engStop a j 0x00 (tdResult o.frames o.crc 0 0) s2
  else engOutput a j o.data (tdResult o.frames o.crc o.data.length 0) s2

/-- What a Twill job whose clocks have run delivers. -/
def twFinish (a : Nat) (j : EngJob) (s : State) : State := if a < 0x48 then twcFinish a j s else twdFinish a j s

/-- TWILL_COMPRESS (R243, R244, R249): compressor `eng` accepts the descriptor at the head of its ring. -/
def execTwillCompress (eng : Nat) (s : State) : Host.Outcome State Fault Refusal :=
  if eng < 8 then .next (engAccept (0x40 + eng) (fun _ => true) (tdCheck (0x40 + eng)) s) else .fault .noSuchUnit

/-- TWILL_DECOMPRESS (R243, R244, R249): decompressor `eng` accepts a descriptor that is no verify job. -/
def execTwillDecompress (eng : Nat) (s : State) : Host.Outcome State Fault Refusal :=
  if eng < 8 then .next (engAccept (0x48 + eng) (fun d => tdOp d ≠ 3) (tdCheck (0x48 + eng)) s) else .fault .noSuchUnit

/-- TWILL_VERIFY (R243): decompressor `eng` accepts a verify job. -/
def execTwillVerify (eng : Nat) (s : State) : Host.Outcome State Fault Refusal :=
  if eng < 8 then .next (engAccept (0x48 + eng) (fun d => tdOp d = 3) (tdCheck (0x48 + eng)) s) else .fault .noSuchUnit

/-- TWILL_JOB_END (R248): the ended jobs of a Twill engine complete; engines 0 to 7 compress, 8 to 15 decompress. -/
def execTwillJobEnd (eng : Nat) (s : State) : Host.Outcome State Fault Refusal :=
  if eng < 16 then .next (engEnds (0x40 + eng) s) else .fault .noSuchUnit

/-- TWILL_TAIL_ADVANCE (R243): a write of `TWC_TAIL` or `TWD_TAIL`. -/
def execTwillTailAdvance (eng : Nat) (value : W32) (s : State) : Host.Outcome State Fault Refusal :=
  engRow eng 0x40 16 (fun a => engTail a value.toNat) s

/-- TWILL_STOP (R254): a write of `TWC_CTL` or `TWD_CTL`. -/
def execTwillStop (eng : Nat) (value : W32) (s : State) : Host.Outcome State Fault Refusal :=
  engRow eng 0x40 16 (fun a => engCtl a value.toNat) s

/-- TWILL_FLUSH (R254): a write of `TWC_CTL` or `TWD_CTL` with FLUSH set. -/
def execTwillFlush (eng : Nat) (value : W32) (s : State) : Host.Outcome State Fault Refusal :=
  engRow eng 0x40 16 (fun a => engCtl a (setBit value.toNat 1 true)) s

end Sys2Proof.Machine
end

