-- ==== Sys2Proof/Machine/Io.lean ====
section
/-!
DEFINITION. The I/O commands on logical blocks: Read, Write, Flush and Dataset Management (R83 to R93, R142, R152), Compress
Write and Decompress Read (R250 to R253), Digest Read (R265, R266) and Scan Read (R306, R307). A row is one step of its
command: it waits, moves on, or ends it.
-/
namespace Sys2Proof.Machine

/-- The greatest data length of a command: MDTS 9 (R72). -/
def mdts : Nat := 2097152

/-- Reserved bits from `lo` up of a dword are 0. -/
def zeroFrom (e : Sqe) (k lo : Nat) : Bool := dword e k / 2 ^ lo = 0

/-- A range of blocks lies in the namespace (R106). -/
def inNs (n : Namespace) (slba nlb : Nat) : Bool := slba + nlb ≤ nsBlocks n

/-- The command's I/O to the host waits for the write budget (R440). -/
def outWait (x : Ctx) (s : State) : Bool := spent x.fn rHostWr s || !(fnGet x.fn s).bme

/-- Sends granules to the host, poisoned ones as poisoned TLPs (R65). -/
def sendGranules (x : Ctx) (total : Nat) (l : List Granule) (s : State) : State :=
  l.zipIdx.foldl (fun s g => sendData x total (4096 * g.2) (padTo 4096 g.1.bytes) g.1.poison s) s

/-- Counts data that a command's controller read (R144). -/
def countRead (f n : Nat) (s : State) : State := fnMod f (fun q => { q with unitsRead := q.unitsRead + n }) s

/-! ### Read and Write -/

/-- READ (R83, R87, R152). -/
def readCmd (c : Nat) (s : State) : State :=
  match ioGate c s with
  | some t => t
  | none =>
    let x := ctxGet c s
    let n := nsGet x.nsid s
    let len := sqeNlb x.sqe * nsBlock n
    if !inNs n (sqeSlba x.sqe) (sqeNlb x.sqe) then finish c stLba s
    else if mdts < len then finish c stField s
    else match bufferOf c len s with
      | (none, t) => t
      | (some _, t) =>
        match gather c t with
        | (none, u) => u
        | (some l, u) =>
          if outWait x u then u
          else
            let v := u |> sendGranules x len l |> countRead x.fn len
            if (ctxGet c v).ends.isSome then endFailed c v else finish c stOk v

def execRead (ctx : Nat) (s : State) : Host.Outcome State Fault Refusal :=
  .next (if holdsCmd ctx 0x02 true s then readCmd ctx s else s)

/-- WRITE (R89, R90, R155): the data becomes one or more transactions. -/
def writeCmd (c : Nat) (s : State) : State :=
  if (ctxGet c s).planned then s
  else match ioGate c s with
  | some t => t
  | none =>
    let x := ctxGet c s
    let n := nsGet x.nsid s
    let len := sqeNlb x.sqe * nsBlock n
    if x.ro then finish c vsReadOnly s
    else if fenced pgHam s then finish c vsFenced s
    else if !inNs n (sqeSlba x.sqe) (sqeNlb x.sqe) then finish c stLba s
    else if mdts < len then finish c stField s
    else match hostData c len s with
      | (none, t) => t
      | (some bs, t) => setPlan c (writePlan (nsExtent n (sqeSlba x.sqe) 1).1 (toGranules bs) false 0) t

def execWrite (ctx : Nat) (s : State) : Host.Outcome State Fault Refusal :=
  .next (if holdsCmd ctx 0x01 true s then writeCmd ctx s else s)

/-- Acknowledged writes that a Flush covers are still in staging (R93). -/
def flushPending (x : Ctx) (s : State) : Bool :=
  s.jnl.slots.any fun e => e.2.used && e.2.released.isNone && e.2.posted ≠ 0 && e.2.posted ≤ x.order &&
    (sqeNsid x.sqe = e.2.nsid || (sqeNsid x.sqe = 0xFFFFFFFF && (nsGet e.2.nsid s).attached.contains x.fn))

/-- FLUSH (R93): it ends when no covered write is left in staging. -/
def execFlush (ctx : Nat) (s : State) : Host.Outcome State Fault Refusal :=
  let x := ctxGet ctx s
  if !holdsCmd ctx 0x00 true s then .next s
  else if s.boot.degraded then .next (finish ctx stNsNotReadyDnr s)
  else if s.qe.sanitizing then .next (finish ctx stSanitize s)
  else if x.nsid ≠ 0 && nsHeld x.nsid x.order s then .next s
  else if x.nsid ≠ 0 && !(nsGet x.nsid s).active then .next (finish ctx stNamespace s)
  else if flushPending x s then .next s
  else .next (finish ctx stOk s)

/-- The ranges of a Dataset Management: first block and blocks. -/
def dsmRanges (bs : Bytes) : List (Nat × Nat) := (chunks 16 256 bs).map fun r => (leAt r 8 8, leAt r 4 4)

/-- Once a command's ranges are known the guard takes them (R84): what it writes and what it reads. One that turns out to write nothing
is a read. -/
def openExtents (c : Nat) (l r : List (Nat × Nat)) (s : State) : State :=
  let x := ctxGet c s
  guardTake c (if l.isEmpty then { x with cls := 1, extents := r, rextents := [], open_ := false }
    else { x with extents := l, rextents := r, open_ := false }) s

/-- DATASET_MANAGEMENT (R75, R142): only AD acts; each range is its own transactions. -/
def dsmCmd (c : Nat) (s : State) : State :=
  if (ctxGet c s).planned then s
  else match ioGate c s with
  | some t => t
  | none =>
    let x := ctxGet c s
    let n := nsGet x.nsid s
    let ad := bit (dword x.sqe 11) 2
    if ad && x.ro then finish c vsReadOnly s
    else if ad && fenced pgHam s then finish c vsFenced s
    else match hostData c (16 * (dword x.sqe 10 % 256 + 1)) s with
      | (none, t) => t
      | (some bs, t) =>
        let rs := dsmRanges bs
        if !ad then finish c stOk t
        else if rs.any fun r => !inNs n r.1 r.2 then finish c stLba t
        else
          let es := rs.map fun r => nsExtent n r.1 r.2
          let t1 := if x.open_ then openExtents c es [] t else t
          if guardWait (ctxGet c t1) t1 then t1
          else setPlan c (es.flatMap fun e => discardPlan e.1 e.2) t1

def execDatasetManagement (ctx : Nat) (s : State) : Host.Outcome State Fault Refusal :=
  .next (if holdsCmd ctx 0x09 true s then dsmCmd ctx s else s)

/-! ### Compress Write and Decompress Read -/

/-- The parameters of a Compress Write (R250, R251). -/
def cwParams (e : Sqe) : TwParams :=
  let d := dword e 13
  { pred := bits d 19 16, wcode := bits d 21 20, mode := bits d 23 22, k0 := 0, k0Auto := true, blockLog2 := 12 + bits d 26 24,
    stride := dword e 14 % 4096 + 1, pad64 := true }

/-- The fields of a Compress Write are in range and its reserved bits 0 (R250; PRED 6 as in R231). -/
def cwFieldsOk (e : Sqe) : Bool :=
  let q := cwParams e
  zeroFrom e 12 16 && zeroFrom e 13 27 && zeroFrom e 14 12 && dword e 15 = 0 && (q.pred ≤ 7 || q.pred = 0xF) &&
  !(q.pred = 6 && q.wcode ≠ 0) && q.mode ≤ 2 && q.blockLog2 ≤ 16

/-- Blocks that a Compress Write reserves. -/
def cwRlb (e : Sqe) : Nat := dword e 13 % 65536 + 1

/-- The transactions of a Compress Write (R251): `d` granules of frame from granule `a` of a reserved extent of `n`; the rest
of the last unit is zeros, and what follows is deallocated. -/
def cwPlan (a n : Nat) (gs : List Granule) : List Tx :=
  let d := gs.length
  let e := min n (cdiv (a + d) 4 * 4 - a)
  let gs := gs ++ List.replicate (e - d) ({} : Granule)
  (List.range (cdiv n 256)).map fun k =>
    let p0 := 256 * k
    let p1 := min n (p0 + 256)
    let mine := (gs.drop p0).take (min (p1 - p0) (e - p0))
    let z := max p0 (min e p1)
    let rest := discardTx (a + z) (p1 - z)
    { units := stageUnits (a + p0) mine (k = 0) 0 ++ rest.units, discards := rest.discards }

/-- COMPRESS_WRITE (R250, R251, R253). -/
def compressWrite (c : Nat) (s : State) : State :=
  if (ctxGet c s).planned then s
  else match ioGate c s with
  | some t => t
  | none =>
    let x := ctxGet c s
    let e := x.sqe
    let n := nsGet x.nsid s
    let len := sqeNlb e * nsBlock n
    if x.ro then finish c vsReadOnly s
    else if !cwFieldsOk e || mdts < len then finish c stField s
    else if !inNs n (sqeSlba e) (cwRlb e) then finish c stLba s
    else match fwEngine 0x40 8 s with
      | none => noEngine c 0x40 8 s
      | some a =>
        if fenced pgHam s then finish c vsFenced s
        else match hostData c len s with
          | (none, t) => t
          | (some bs, t) =>
            if spent x.fn rTwc t then t
            else
              let (out, raw) := twCompress (cwParams e) bs
              let g := cdiv out.length (nsBlock n)
              let blocks := cdiv len (2 ^ (cwParams e).blockLog2)
              let u := t |> fwCharge a x.fn (twcClocks (cwParams e) bs) |> regAdd (engPage a + 0x118) len |> regAdd (engPage a + 0x120) out.length
                         |> regAdd (engPage a + 0x130) blocks |> regAdd (engPage a + 0x138) raw
              if cwRlb e < g then finish c vsTwSpace u
              else
                let ext := nsExtent n (sqeSlba e) (cwRlb e)
                u |> setPlan c (cwPlan ext.1 ext.2 (toGranules (padTo (g * nsBlock n) out)))
                  |> ctxMod c (fun q => { q with dw0 := BitVec.ofNat 32 out.length, dw1 := BitVec.ofNat 32 (crc32c bs) })

def execCompressWrite (ctx : Nat) (s : State) : Host.Outcome State Fault Refusal :=
  .next (if holdsCmd ctx 0x85 true s then compressWrite ctx s else s)

/-- The status of a decompression that failed with a code (R253). -/
def twStatus (code : Nat) : Status :=
  match code with
  | 2 => vsTwFormat
  | 3 => vsTwCheck
  | _ => vsTwSpace

/-- Counts a decompression that firmware ran for a command in engine `a`, with its event if it failed (R253, R254). -/
def twdCount (a f inLen code : Nat) (o : TwOut) (s : State) : State :=
  let s1 := s |> fwCharge a f o.clk |> regAdd (engPage a + 0x118) inLen
              |> regAdd (engPage a + 0x130) o.blocks
  let s2 := if code = 2 then regAdd (engPage a + 0x138) 1 s1 else if code = 3 then regAdd (engPage a + 0x158) 1 s1 else s1
  endEvent a code 0 s2

/-- The host buffer of a command; a command that delivers nothing to the host needs none. -/
def bufferUnless (none_ : Bool) (c n : Nat) (s : State) : Option (List (Nat × Nat)) × State :=
  if none_ then (some [], s) else bufferOf c n s

/-- DECOMPRESS_READ (R250, R252, R253). Before a failure any number of bytes, of any value, may have gone to the buffer (R252, log
entry 5). OUT bounds ULEN for a VERIFY too (DEDUCED, log entry 27). -/
def decompressRead (c : Nat) (s : State) : State :=
  match ioGate c s with
  | some t => t
  | none =>
    let x := ctxGet c s
    let e := x.sqe
    let n := nsGet x.nsid s
    let cap := (dword e 13 % 1024 + 1) * 4096
    let verify := bit (dword e 13) 10
    if !zeroFrom e 12 16 || !zeroFrom e 13 11 || dword e 14 ≠ 0 || dword e 15 ≠ 0 || 512 * 4096 < cap ||
        mdts < sqeNlb e * nsBlock n then finish c stField s
    else if !inNs n (sqeSlba e) (sqeNlb e) then finish c stLba s
    else if fenced pgHam s then finish c vsFenced s
    else match fwEngine 0x48 8 s, bufferUnless verify c cap s with
      | none, _ => noEngine c 0x48 8 s
      | _, (none, t) => t
      | some a, (some _, t) =>
        match gather c t with
        | (none, u) => u
        | (some l, u) =>
          if (ctxGet c u).ends.isSome then endFailed c u
          else if spent x.fn rTwd u || outWait x u then u
          else
            let inp := granuleBytes l
            let (code, _, o) := twFrames false cap (inp.length + 1) {} inp
            let v := twdCount a x.fn inp.length code o u
            if code ≠ 0 then
              let (k, v1) := draw v
              let (fb, v2) := freeBytes (if verify then 0 else Config.freeChoice k % (min cap o.tried.length + 1)) v1
              v2 |> sendData x cap 0 fb false |> finish c (twStatus code)
            else
              let w := if verify then v else v |> regAdd (engPage a + 0x120) o.data.length |> sendData x cap 0 o.data false
              w |> countRead x.fn o.data.length |> finishDw c stOk o.data.length o.crc

def execDecompressRead (ctx : Nat) (s : State) : Host.Outcome State Fault Refusal :=
  .next (if holdsCmd ctx 0x86 true s then decompressRead ctx s else s)

/-! ### Digest Read -/

/-- DIGEST_READ (R265, R266). -/
def digestReadCmd (c : Nat) (s : State) : State :=
  match ioGate c s with
  | some t => t
  | none =>
    let x := ctxGet c s
    let e := x.sqe
    let n := nsGet x.nsid s
    let long := bit (dword e 13) 0
    let mlen := sqeBits e 511 448
    let dlen := if long then 64 else 32
    if !zeroFrom e 12 16 || !zeroFrom e 13 1 then finish c stField s
    else if mlen = 0 || cdiv mlen (nsBlock n) ≠ sqeNlb e then finish c vsDigLength s
    else if !inNs n (sqeSlba e) (sqeNlb e) then finish c stLba s
    else if fenced pgHam s then finish c vsFenced s
    else match fwEngine 0x50 4 s, bufferOf c dlen s with
      | none, _ => noEngine c 0x50 4 s
      | _, (none, t) => t
      | some a, (some _, t) =>
        match gather c t with
        | (none, u) => u
        | (some l, u) =>
          if (ctxGet c u).ends.isSome then endFailed c u
          else if spent x.fn rDig u || outWait x u then u
          else
            let m := (granuleBytes l).take mlen
            let clk := if long then 20 * cdiv mlen 128 else 16 * cdiv mlen 64
            u |> fwCharge a x.fn clk |> regAdd (engPage a + 0x118) mlen
              |> sendData x dlen 0 (if long then sha512 m else sha256 m) false |> countRead x.fn dlen |> finish c stOk

def execDigestRead (ctx : Nat) (s : State) : Host.Outcome State Fault Refusal :=
  .next (if holdsCmd ctx 0x8E true s then digestReadCmd ctx s else s)

/-! ### Scan Read -/

/-- Fields of a Scan Read (R306). -/
def srDecomp (e : Sqe) : Bool := bit (dword e 13) 0
def srGroup (e : Sqe) : Nat := bits (dword e 13) 3 1
def srToWindow (e : Sqe) : Bool := bit (dword e 13) 4
def srCap (e : Sqe) : Nat := (dword e 14 % 1024 + 1) * 4096
def srWinOff (e : Sqe) : Nat := dword e 15 * 4096

/-- The output of a Scan Read goes to its buffer or to the function's result window (R63, R306). -/
def srDeliver (x : Ctx) (bs : Bytes) (s : State) : State :=
  if srToWindow x.sqe then (spaceWrite (hamVia 1 s) 3 x.fn (srWinOff x.sqe) bs false s).getD s
  else sendData x (srCap x.sqe) 0 bs false s

/-- The input of a Scan Read, decoded when DECOMP is 1: a code and the stream. -/
def srInput (e : Sqe) (inp : Bytes) : Nat × TwOut :=
  if srDecomp e then
    let (code, _, o) := twFrames true (2 ^ 40) (inp.length + 1) {} inp
    (code, o)
  else (0, { data := inp })

/-- A Scan Read with its specification and all of its input there (R301, R306, R307). -/
def scanRun (c a : Nat) (l : List Granule) (s : State) : State :=
  let x := ctxGet c s
  let e := x.sqe
  let raw := granuleBytes l
  let (code, i) := srInput e raw
  let s0 := match srDecomp e, fwEngine 0x48 8 s with
    | true, some d => twdCount d x.fn raw.length code i s
    | _, _ => s
  if code ≠ 0 then finish c (twStatus code) s0
  else
    let inp := i.data
    let g := srGroup e
    let w := groupWidth (some g) x.fn false s
    let (out, o, _, bad, s1) := scRun x.mbuf g w 0 inp s0
    let clk := scClocks o.records (scRlen x.mbuf) out.length
    let s2 := { s1 with laneSearch := tset {} (a - 0x58) o.last s1.laneSearch }
      |> fwCharge a x.fn clk |> regAdd (engPage a + 0x118) inp.length |> regAdd (engPage a + 0x130) o.records
      |> regAdd (engPage a + 0x138) o.selected |> regAdd (engPage a + 0x158) (if (scSet x.mbuf).isSome then o.records else 0)
    if o.lost then finish c stReadError s2
    else if bad then finishDw c vsLength (min o.selected 0xFFFFFFFF) out.length s2
    else if srCap e < out.length then
      let (fb, s3) := freeBytes (srCap e) s2
      s3 |> srDeliver x fb |> finishDw c vsLength (min o.selected 0xFFFFFFFF) out.length
    else
      s2 |> regAdd (engPage a + 0x120) out.length |> srDeliver x out |> countRead x.fn out.length
         |> finishDw c stOk (min o.selected 0xFFFFFFFF) out.length

/-- SCAN_READ (R306, R307): an offset outside the window is an out-of-range field (DEDUCED, log entry 28). -/
def scanReadCmd (c : Nat) (s : State) : State :=
  match ioGate c s with
  | some t => t
  | none =>
    let x := ctxGet c s
    let e := x.sqe
    let n := nsGet x.nsid s
    let win := srToWindow e
    if !zeroFrom e 12 16 || !zeroFrom e 13 5 || !zeroFrom e 14 10 || 512 * 4096 < srCap e || sqeMptr e % 64 ≠ 0 ||
        (win && (windowAt x.fn (srWinOff e) (srCap e) s).isNone) then finish c stField s
    else if !inNs n (sqeSlba e) (sqeNlb e) then finish c stLba s
    else if fenced pgHam s then finish c vsFenced s
    else if srDecomp e && (fwEngine 0x48 8 s).isNone then noEngine c 0x48 8 s
    else match fwEngine 0x58 8 s, bufferUnless win c (srCap e) s with
      | none, _ => noEngine c 0x58 8 s
      | _, (none, t) => t
      | some a, (some _, t) =>
        if x.badData ≠ 0 then finish c stDataXfer t
        else if !x.gotMptr then askHost c 1 [(sqeMptr e, 256)] t
        else if (scSet x.mbuf).isSome && grpFenced (srGroup e) t then finish c vsFenced t
        else if scDetail x.mbuf (groupWidth (some (srGroup e)) x.fn false t) ≠ 0 then finish c stField t
        else match gather c t with
          | (none, u) => u
          | (some l, u) =>
            if (ctxGet c u).ends.isSome then endFailed c u
            else if spent x.fn rScn u || (srDecomp e && spent x.fn rTwd u) || outWait x u then u
            else scanRun c a l u

def execScanRead (ctx : Nat) (s : State) : Host.Outcome State Fault Refusal :=
  .next (if holdsCmd ctx 0x8A true s then scanReadCmd ctx s else s)

end Sys2Proof.Machine
end

