-- ==== Sys2Proof/Machine/MenderEng.lean ====
section
/-!
DEFINITION. The Mender's coding engine, agent 0x61 (R412, R413): its descriptor, checks, arithmetic in GF(2^8) and rows.
-/
namespace Sys2Proof.Machine

/-- Fields of a Mender descriptor (R413). -/
def mdNin (d : Bytes) : Nat := leAt d 2 1
def mdNout (d : Bytes) : Nat := leAt d 3 1
def mdLen (d : Bytes) : Nat := leAt d 4 4
def mdSrc (d : Bytes) (i : Nat) : Nat := leAt d 0x08 8 + i * leAt d 0x10 8
def mdDst (d : Bytes) (o : Nat) : Nat := leAt d 0x18 8 + o * leAt d 0x20 8
def mdCoef (d : Bytes) : Nat := leAt d 0x28 8
def mdInSpace (d : Bytes) : Nat := leAt d 0x30 1 % 16
def mdOutSpace (d : Bytes) : Nat := leAt d 0x30 1 / 16

/-- The acceptance checks: alignment (0x01), then the descriptor (0x0B). A LEN that is no multiple of 64 is out of its range
(log entry 30). -/
def mdCheck (_a : Nat) (j : EngJob) (_s : State) : Nat :=
  let d := j.desc
  if [0x08, 0x10, 0x18, 0x20, 0x28].any fun o => leAt d o 8 % 64 ≠ 0 then 0x01
  else if leAt d 0 1 ≠ 1 || clearN (leAt d 1 1) 0x0D ≠ 0 || mdNin d = 0 || 32 < mdNin d || mdNout d = 0 || 8 < mdNout d ||
      mdLen d % 64 ≠ 0 || mdLen d = 0 || 2097152 < mdLen d || 1 < mdInSpace d || 1 < mdOutSpace d || leAt d 0x31 1 ≠ 0 ||
      leAt d 0x34 12 ≠ 0 then 0x0B
  else 0

/-- Clocks of a job (R412). -/
def mdClocks (j : EngJob) : Nat := mdNin j.desc * mdLen j.desc / 64 + 40

/-- Repair chunks of a job's input (R435). -/
def mdChunks (j : EngJob) : Nat := cdiv (mdNin j.desc * mdLen j.desc) 65536

/-- Adds `c` × `src` to `acc`, byte by byte, in GF(2^8). -/
def macRow (c : Nat) (acc src : Bytes) : Bytes :=
  List.zipWith (fun a b => BitVec.ofNat 8 (Nat.xor a.toNat (gfMul c b.toNat))) acc src

/-- Reads a list of ranges of `n` bytes; none where an endpoint answers with an error response. -/
def mdReads (space n : Nat) : List Nat → State → Option (List Bytes × Bool)
  | [], _ => some ([], false)
  | a :: l, s =>
    match memRead space a n s, mdReads space n l s with
    | some (b, p), some (bs, q) => some (b :: bs, p || q)
    | _, _ => none

/-- Writes the outputs in order, with whether one lost a collision (R190). -/
def mdWrites (space : Nat) (d : Bytes) : Nat → List Bytes → State → Option (Bool × State)
  | _, [], s => some (false, s)
  | o, b :: l, s => match engWrite 0x61 space (mdDst d o) b s with
    | none => none
    | some (x, t) => (mdWrites space d (o + 1) l t).map fun q => (x || q.1, q.2)

/-- What the reads of a job that were served leave behind. -/
def mdMet (space n : Nat) (l : List Nat) (s : State) : State := l.foldl (fun s a => memMet (engBy 0x61 s) space a n s) s

/-- A job whose clocks have run (R412): every output is its old value under ACC, or 0, plus the coefficients times the inputs. -/
def mdFinish (j : EngJob) (s : State) : State :=
  let d := j.desc
  let n := mdLen d
  let ins := (List.range (mdNin d)).map (mdSrc d)
  let outs := (List.range (mdNout d)).map (mdDst d)
  let inp := engMem 0x61 (mdInSpace d) s
  let outp := engMem 0x61 (mdOutSpace d) s
  match mdReads (mdInSpace d) n ins s, memRead 0 (mdCoef d) (32 * mdNout d) s,
      (if edFlag d 0 then mdReads (mdOutSpace d) n outs s else some (outs.map fun _ => zeros n, false)) with
  | some (x, p), some (co, q), some (y, r) =>
    let s := s |> mdMet (mdInSpace d) n ins |> mdMet 0 (32 * mdNout d) [mdCoef d] |> mdMet (mdOutSpace d) n (if edFlag d 0 then outs else [])
    if p || q || r then engStop 0x61 j 0x06 (noResult 0) s
    else
      let z := y.zipIdx.map fun e => x.zipIdx.foldl (fun acc i => macRow (leAt co (32 * e.2 + i.2) 1) acc i.1) e.1
      match mdWrites (mdOutSpace d) d 0 z s with
      | some (true, t) => engStop 0x61 j 0x07 (noResult 0) t
      | some (false, t) => t |> regAdd (pgMnd + 0x118) (mdNin d * n) |> regAdd (pgMnd + 0x120) (mdNout d * n)
                    |> warpMove inp 7 (mdNin d * n) |> warpMove 7 outp (mdNout d * n)
                    |> engStop 0x61 j 0x00 (noResult 0)
      | none => engStop 0x61 j 0x08 (noResult 0) (errResp outp s)
  | _, _, _ => engStop 0x61 j 0x08 (noResult 0) (errResp inp s)

/-- MENDER_MAC (R412): the Mender's engine accepts the descriptor at the head of its ring. -/
def execMenderMac (s : State) : Host.Outcome State Fault Refusal :=
  .next (engAccept 0x61 (fun _ => true) (mdCheck 0x61) s)

/-- MENDER_JOB_END (R413): the ended jobs complete. -/
def execMenderJobEnd (s : State) : Host.Outcome State Fault Refusal := .next (engEnds 0x61 s)

/-- MND_TAIL_ADVANCE (R430): a write of `MND_TAIL`. -/
def execMndTailAdvance (value : W32) (s : State) : Host.Outcome State Fault Refusal :=
  .next (if fenced pgMnd s then s else engTail 0x61 value.toNat s)

/-- MND_STOP (R430): a write of `MND_CTL`. -/
def execMndStop (value : W32) (s : State) : Host.Outcome State Fault Refusal :=
  .next (if fenced pgMnd s then s else engCtl 0x61 value.toNat s)

/-- MND_FLUSH (R430): a write of `MND_CTL` with FLUSH set. -/
def execMndFlush (value : W32) (s : State) : Host.Outcome State Fault Refusal :=
  .next (if fenced pgMnd s then s else engCtl 0x61 (setBit value.toNat 1 true) s)

end Sys2Proof.Machine
end

