-- ==== Sys2Proof/Machine/Auth.lean ====
section
/-!
DEFINITION. Arm, and the loading and erasing of keys (R273 to R277).
-/
namespace Sys2Proof.Machine

/-- The entry that followed an admin command from its SQ, if one has been fetched, is critical (R78). -/
def nextIsCritical (x : Ctx) (s : State) : Bool :=
  (fnGet x.fn s).lastAdmin = x.order ||
  s.qe.ctxs.any fun e => e.2.fn = x.fn && e.2.sq = 0 && e.2.prev = x.order && critical e.2.sqe

/-- A function is locked out (R280). -/
def lockedOut (f : Nat) (s : State) : Bool :=
  match (fnGet f s).lockUntil with
  | some b => boltN s < b
  | none => false

/-- ARM (R276, R277): the checks in order, then one pending Arm; a non-critical command that was fetched meanwhile discards
it (R78). -/
def armCmd (c : Nat) (s : State) : State :=
  let x := ctxGet c s
  let f := x.fn
  let counter := BitVec.ofNat 64 (sqeBits x.sqe 383 320)
  match keyOf 0 f s with
  | none => finish c vsKeyRetired s
  | some k =>
    let key := keyGet k s
    if key.limit < key.used + 3 then finish c vsKeyRetired (keyRetire k s)
    else if counter.toNat ≤ (tget 0 s.die.armCtr f).toNat then finish c vsCounterStale s
    else if lockedOut f s then finish c vsAuthFailed (regAdd (pgKck 0 + 0x600) 1 s)
    else
      let a : Arm := { counter := counter, tag := BitVec.ofNat 128 (sqeBits x.sqe 511 384), pick := pickN s, order := x.order }
      let s1 := s |> armDrop f |> fnMod f (fun q => { q with arm := some a })
      finish c stOk (if nextIsCritical x s then s1 else armDrop f s1)

def execArm (ctx : Nat) (s : State) : Host.Outcome State Fault Refusal :=
  .next (if holdsCmd ctx 0xC0 false s then armCmd ctx s else s)

/-! ### Key Load (R273 to R275) -/

def klSlot (e : Sqe) : Nat := bits (dword e 10) 4 0
def klRole (e : Sqe) : Nat := bits (dword e 10) 9 8
def klGen (e : Sqe) : Bool := bit (dword e 10) 10
def klErase (e : Sqe) : Bool := bit (dword e 10) 11
def klOwner (e : Sqe) : Nat := bits (dword e 10) 22 16
def klLimit (e : Sqe) : Nat := if dword e 11 = 0 then 2 ^ 32 else dword e 11

/-- The fields are in range and the reserved bits 0 (R273). -/
def klFieldsOk (e : Sqe) : Bool :=
  let d := dword e 10
  bits d 7 5 = 0 && bits d 15 12 = 0 && bits d 31 23 = 0 && klRole e ≤ 2 && (!klGen e || klRole e = 2) &&
  (klRole e ≠ 1 || klOwner e = 0)

/-- A Key Load that needs no Arm (R274). -/
def klExempt (e : Sqe) (s : State) : Bool :=
  (keyGet (klSlot e) s).state ≠ .active &&
  (if klRole e = 1 then (List.range 32).all fun k => !((keyGet k s).state = .active && (keyGet k s).role = 1)
   else (keyOf (klRole e) (klOwner e) s).isNone)

/-- The gate of a Key Load: one that needs no Arm is no critical command, and discards a pending Arm (R78, R274). -/
def klGate (c : Nat) (s : State) : Option State × State :=
  let x := ctxGet c s
  if x.armOk || x.armed || !klExempt x.sqe s then (critGate c s, s)
  else (none, armDrop x.fn s)

/-- The checks that both rows share, then `act` (R273, R274). -/
def keyCmd (c : Nat) (act : State → State) (s : State) : State :=
  if !klFieldsOk (ctxGet c s).sqe then finish c stField s
  else match klGate c s with
    | (some t, _) => t
    | (none, t) => act t

/-- Erases other keys of a role: COMMAND of the owner, PARTY of anyone (R275 step 3). -/
def keyReplace (slot role owner : Nat) (s : State) : State :=
  (List.range 32).foldl (fun s k =>
    let x := keyGet k s
    if k ≠ slot && x.state = .active && x.role = role && (role = 1 || (role = 0 && x.owner = owner)) then keyPut k {} s else s) s

/-- Loads a key whose check value agrees (R275). -/
def keyLoadAct (c : Nat) (s : State) : State :=
  let x := ctxGet c s
  let e := x.sqe
  match hostData c 64 s with
  | (none, t) => t
  | (some bs, t) =>
    let key := bs.take 32
    if (bs.drop 0x24).any (· ≠ 0) || (cmac key (zeros 16)).take 4 ≠ (bs.drop 0x20).take 4 then finish c stField t
    else
      t |> keyPut (klSlot e) { state := .active, role := klRole e, gen := klGen e, owner := klOwner e, limit := klLimit e,
                               key := BitVec.ofNat 256 (leNat key) }
        |> keyRecord (klSlot e) 0 |> keyReplace (klSlot e) (klRole e) (klOwner e)
        |> note 0x3485 (pgKck 0) (klSlot e) |> finishDw c stOk (klSlot e) 0

/-- KEY_LOAD (R273 to R275). -/
def execKeyLoad (ctx : Nat) (s : State) : Host.Outcome State Fault Refusal :=
  .next (if holdsCmd ctx 0xD1 false s && !klErase (ctxGet ctx s).sqe then keyCmd ctx (keyLoadAct ctx) s else s)

/-- Empties a slot (R275). -/
def keyEraseAct (c : Nat) (s : State) : State :=
  let k := klSlot (ctxGet c s).sqe
  let s1 := if (keyGet k s).state = .empty then s else s |> keyPut k {} |> keyRecord k 0 |> note 0x3485 (pgKck 0) k
  finishDw c stOk k 0 s1

/-- KEY_ERASE (R273 to R275): a Key Load with ERASE = 1. -/
def execKeyErase (ctx : Nat) (s : State) : Host.Outcome State Fault Refusal :=
  .next (if holdsCmd ctx 0xD1 false s && klErase (ctxGet ctx s).sqe then keyCmd ctx (keyEraseAct ctx) s else s)

end Sys2Proof.Machine
end

