-- ==== Sys2Proof/Machine/Queue.lean ====
section
/-!
DEFINITION. The queue engine (R72 to R82, R90 to R93, R104, R108): doorbells, the fetch of a controller's turn, I/O queues,
Abort, the features, Asynchronous Event Request and coalescing.
-/
namespace Sys2Proof.Machine

/-! ### Activity and doorbells -/

/-- Activity ends idleness, and begins the return from PS3 or PS4 to the last operational state, which takes that state's exit latency
(R101, R103): 500 µs and 15 ms. -/
def wake (s : State) : State :=
  let s1 := { s with qe := { s.qe with lastActive := boltN s } }
  if s.pwr.ps < 3 || s.pwr.wakeAt.isSome then s1
  else { s1 with pwr := { s1.pwr with wakeAt := some (pickN s + if s.pwr.ps = 4 then 3750 else 125) },
                   boot := { s1.boot with flPwrEn := s1.media.tableOk } }

/-- The exit latency is over: the part is back in its last operational state (R103). -/
def wakeEnd (s : State) : State :=
  if s.pwr.wakeAt.any fun p => p ≤ pickN s then
    regAdd (pgPwr + 0x140) 1 { s with pwr := { s.pwr with ps := s.pwr.lastOp, wakeAt := none } }
  else s

/-- I/O queues that a controller may create (R74). -/
def sqAllot (f : Nat) (s : State) : Nat := min 1024 ((if f = 0 then 64 else 0) + (fnGet f s).flexSq)
def cqAllot (f : Nat) (s : State) : Nat := min 1024 ((if f = 0 then 64 else 0) + (fnGet f s).flexCq)

/-- An Error status event on a controller (R74, R509). -/
def errorEvent (f info : Nat) (s : State) : State :=
  if (fnGet f s).rdy then postAev f { type := 0, info := info, page := 0x01 } s else s

/-- A function's configuration space answers: the link is up and the function is present (R69, R432). -/
def cfgUp (f : Nat) (s : State) : Bool := s.cxl.up && fnPresent f s

/-- BAR0 of a function answers: its configuration space does, and its Memory Space Enable is set (R432, R449). -/
def bar0 (f : Nat) (s : State) : Bool := cfgUp f s && (fnGet f s).mse

/-- DOORBELL_WRITE (R74): a new SQ tail or CQ head. A queue that does not exist, or a value that is no entry index, is reported
by an asynchronous event and dropped. -/
def doorbell (f q : Nat) (cq : Bool) (v : Nat) (s : State) : State :=
  let x := fnGet f s
  let s := wake s
  if cq then
    let c := tget {} x.cqs q
    if c.size = 0 || cqAllot f s < q then errorEvent f 0x00 s
    else if c.size ≤ v then errorEvent f 0x01 s
    else
      let s1 := fnMod f (fun x => { x with cqs := tset {} q { c with head := v } x.cqs }) s
      drainCpl f (fnGet f s1).waitCpl s1
  else
    let y := tget {} x.sqs q
    if y.size = 0 || sqAllot f s < q then errorEvent f 0x00 s
    else if y.size ≤ v then errorEvent f 0x01 s
    else if y.deleting.isSome then s
    else fnMod f (fun x => { x with sqs := tset {} q { y with tail := v } x.sqs }) s

def execDoorbellWrite (fn q : Nat) (cq : Bool) (value : Nat) (s : State) : Host.Outcome State Fault Refusal :=
  if fn < 128 then .next (if bar0 fn s then doorbell fn q cq value s else s) else .fault .noSuchUnit

/-! ### Fetch -/

/-- A free context: shared ones from 0, and an admin command's reserved one when the pool is empty (R79). -/
@[irreducible] def freeCtx (f : Nat) (admin : Bool) (s : State) : Option Nat :=
  match (List.range 16256).find? fun c => !(ctxGet c s).used && !ctxHeld c s with
  | some c => some c
  | none => if admin && !(ctxGet (16256 + f) s).used && !ctxHeld (16256 + f) s then some (16256 + f) else none

/-- Fetch may go on (R69, R81, R108, R166, R489): the link is up, and nothing holds it. -/
def mayFetch (s : State) : Bool :=
  s.cxl.up && (s.boot.phase = .ready || s.boot.phase = .recovery) && accepts pgQen s && accepts pgQenP s && s.qe.actPhase = 0 && !s.qe.bp &&
  !s.qe.held && !pfOn s && s.pwr.ps < 3

/-- A controller is enabled, reachable and not stopped: its SQEs can be fetched (R80, R94, R450, R457). -/
def ctlFetches (f : Nat) (s : State) : Bool :=
  let x := fnGet f s
  fnPresent f s && x.bme && x.rdy && !x.cfs && x.shst = 0 && !x.draining && !x.fenced && accepts (pgFun f) s && x.flrAt.isNone &&
  (f = 0 || s.boot.phase ≠ .recovery)

/-- Entries of an SQ that wait. -/
def sqCount (y : Sq) : Nat := if y.size = 0 || y.deleting.isSome then 0 else (y.tail + y.size - y.head) % y.size

/-- The I/O SQ whose turn it is in the controller's round robin: the first after the last one served that has entries (R80). -/
def nextIoSq (f : Nat) (s : State) : Option Nat :=
  let x := fnGet f s
  let l := (tfind (fun k y => k ≠ 0 && sqCount y ≠ 0) x.sqs)
  match l.find? (x.rrSq < ·) with
  | some q => some q
  | none => l.head?

/-- The I/O part of a controller's turn is skipped (R80, R438). -/
def ioSkipped (f : Nat) (s : State) : Bool := (portionOf f s).slots ≤ fnInFlight f true s || spent f rHostRd s

/-- A controller has an entry to fetch in its turn, and a context for it: with the shared pool empty fetch goes on for the admin SQs alone
whose reserved context is free (R79, R81; DEDUCED, log entry 147). -/
def hasTurn (f : Nat) (s : State) : Bool :=
  ctlFetches f s && ((sqCount (tget {} (fnGet f s).sqs 0) ≠ 0 && (freeCtx f true s).isSome) ||
    (!ioSkipped f s && (nextIoSq f s).isSome && (freeCtx f false s).isSome))

/-- The controller whose turn comes, in rotation from F0 to F127 (R80, R81). -/
def nextTurn (s : State) : Option Nat := ((List.range 128).map fun k => (s.qe.turn + k) % 128).find? fun f => hasTurn f s

/-- Opcodes of the part (R75, R77): implemented, and for F0 alone. -/
def adminOps : List Nat :=
  [0x00, 0x01, 0x02, 0x04, 0x05, 0x06, 0x08, 0x09, 0x0A, 0x0C, 0x0D, 0x10, 0x11, 0x14, 0x15, 0x1C, 0x80, 0x84, 0xC0, 0xC5, 0xC6,
   0xC9, 0xCC, 0xD1, 0xD5, 0xD8, 0xDA, 0xDC, 0xE0]
def ioOps : List Nat := [0x00, 0x01, 0x02, 0x09, 0x83, 0x85, 0x86, 0x8A, 0x8E, 0x91, 0x92, 0x94]
def f0Standard : List Nat := [0x0D, 0x10, 0x11, 0x15, 0x1C, 0x80, 0x84]
def f0Vendor : List Nat := [0xC5, 0xD1, 0xD5, 0xD8, 0xDA, 0xDC, 0xE0, 0x91, 0x92, 0x94]
/-- The opcodes of recovery mode; Get Log Page only for four pages (R485). -/
def recoveryOk (e : Sqe) : Bool :=
  [0x06, 0xC0, 0x11, 0x10].contains (sqeOp e) ||
  (sqeOp e = 0x02 && [0x01, 0x02, 0x03, 0xC1].contains (dword e 10 % 256))

/-- A fetched entry that is refused by its opcode or its issuer (R75, R77, R485). -/
def refusedOp (f : Nat) (io : Bool) (e : Sqe) (s : State) : Option Status :=
  let op := sqeOp e
  if !(if io then ioOps else adminOps).contains op then some stOpcode
  else if s.boot.phase = .recovery && !(recoveryOk e && !io) then some stOpcode
  else if f ≠ 0 && !io && f0Standard.contains op then some stOpcode
  else if f ≠ 0 && f0Vendor.contains op then some vsNotPermitted
  else none

/-- The extents that an I/O command asks the guard for (R84); a range outside the namespace asks for none. Spread Write, Shard
Read and Mend, which count on the shard store (R406), name theirs by the stripe table, in their own meanings. -/
def fetchExtents (x : Ctx) (n : Namespace) : Ctx :=
  let e := x.sqe
  let ext (nlb : Nat) : List (Nat × Nat) := if sqeSlba e + nlb ≤ nsBlocks n then [nsExtent n (sqeSlba e) nlb] else []
  match sqeOp e with
  | 0x01 => { x with cls := 2, extents := ext (sqeNlb e) }
  | 0x85 => { x with cls := 2, extents := ext (dword e 13 % 65536 + 1) }
  | 0x02 | 0x86 | 0x8A | 0x8E => { x with cls := 1, extents := ext (sqeNlb e) }
  | 0x09 => if bit (dword e 11) 2 then { x with cls := 2, open_ := true } else x
  | 0x83 => { x with cls := 2, open_ := true }
  | _ => x

/-- A fetch sequence number of a namespace (R82); a new block of 2^20 is reserved in the journal ahead of use (R162). -/
def takeSeq (n : Nat) (s : State) : Nat × State :=
  let x := nsGet n s
  let s1 := if x.nextSeq < x.seqEnd then s
    else
      let e := x.nextSeq + 2 ^ 20
      jCtrl 0x02 (n - 1) e { nsSet n { x with seqEnd := e } s with die := { s.die with seqEnd := tset 0 n e s.die.seqEnd } }
  (x.nextSeq, nsSet n { nsGet n s1 with nextSeq := x.nextSeq + 1 } s1)

/-- A fetched command takes its place: the refusals that need nothing else, its sequence number and its guard entries. -/
def seat (c : Nat) (s : State) : State :=
  let x := ctxGet c s
  let io := x.sq ≠ 0
  let nsid := sqeNsid x.sqe
  match refusedOp x.fn io x.sqe s with
  | some st => finish c st s
  | none =>
    let wide := nsid = 0xFFFFFFFF && (!io || sqeOp x.sqe = 0)
    if io && (sqeOp x.sqe = 0x91 || sqeOp x.sqe = 0x92 || sqeOp x.sqe = 0x94) then
      let (q, s1) := takeSeq storeNsid s
      ctxSet c { x with nsid := storeNsid, seq := q, cls := if sqeOp x.sqe = 0x92 then 1 else 2, open_ := true } s1
    else
    if io && !wide && !nsVisible x.fn nsid s then
      finish c (if s.boot.degraded then stNsNotReadyDnr else if s.qe.sanitizing then stSanitize else stNamespace) s
    else if (nsGet nsid s).active then
      let (q, s1) := takeSeq nsid s
      let x := { x with nsid := nsid, seq := q }
      guardTake c (if io then fetchExtents x (nsGet nsid s1) else x) s1
    else s

/-- Fetches one entry of a controller's SQ into a context (R79, R80). -/
def fetchOne (f q c : Nat) (e : Sqe) (s : State) : State :=
  let x := fnGet f s
  let y := tget {} x.sqs q
  let o := s.qe.order
  let ctx : Ctx := { used := true, fn := f, sq := q, cid := sqeCid e, sqe := e, order := o, prev := if q = 0 then x.lastAdmin else 0,
                     pick := pickN s, ro := s.media.ro }
  let s1 := fnSet f { x with sqs := tset {} q { y with head := (y.head + 1) % max 1 y.size } x.sqs,
                             lastAdmin := if q = 0 then o else x.lastAdmin } s
  let s2 := { s1 with qe := { s1.qe with order := o + 1, ctxs := tset {} c ctx s1.qe.ctxs } }
              |> hostReadCharge f 64 |> regAdd (pgQen + 0x110) 1
  seat c (if q = 0 && !critical e then armDrop f s2 else s2)

/-- Fetches entries of one SQ until they are over, no context is free, or the slot limit is reached. -/
def fetchSome (f q : Nat) : List Sqe → State → State
  | [], s => s
  | e :: l, s =>
    if q ≠ 0 && (portionOf f s).slots ≤ fnInFlight f true s then s
    else match freeCtx f (q = 0) s with
      | none => s
      | some c => fetchSome f q l (fetchOne f q c e s)

/-- SQE_FETCH (R80): one controller's turn. `sqes` are the entries that host memory holds, those of the admin SQ first; `ok`
false: the fetch fails (R109 event 0x6003). -/
def fetchTurn (sqes : List Sqe) (ok : Bool) (s : State) : State :=
  match nextTurn s with
  | none => s
  | some f =>
    let x := fnGet f s
    let s0 := { s with qe := { s.qe with turn := (f + 1) % 128, lastActive := boltN s } }
    if !ok then note 0x6003 pgQen f (fnMod f (fun q => { q with cfs := true }) s0)
    else
      let burst := 2 ^ x.ab
      let a := min burst (sqCount (tget {} x.sqs 0))
      let s1 := fetchSome f 0 (sqes.take a) s0
      if ioSkipped f s || (freeCtx f false s1).isNone then s1
      else match nextIoSq f s with
        | none => s1
        | some q =>
          let n := min burst (sqCount (tget {} x.sqs q))
          s1 |> fnMod f (fun y => { y with rrSq := q }) |> fetchSome f q ((sqes.drop a).take n)

def execSqeFetch (sqes : List Sqe) (ok : Bool) (s : State) : Host.Outcome State Fault Refusal :=
  .next (if mayFetch s then fetchTurn sqes ok s else s)

/-- A write of `QEN_FETCH_CTL` (R108): HOLD acts from the next pick boundary. -/
def fetchCtl (v : Nat) (s : State) : State := later .fetchHold (regSetFld (pgQen + 0x104) 0 0 v s)

/-- QEN_FETCH_HOLD (R108). -/
def execQenFetchHold (value : W32) (s : State) : Host.Outcome State Fault Refusal :=
  .next (if fenced pgQen s then s else fetchCtl value.toNat s)

/-! ### I/O queues (R74, R92) -/

/-- CREATE_IO_CQ (R74). -/
def createCq (c : Nat) (s : State) : State :=
  let x := ctxGet c s
  let e := x.sqe
  let q := dword e 10 % 65536
  let n := dword e 10 / 65536
  let v := dword e 11 / 65536
  if q = 0 || cqAllot x.fn s < q || (tget {} (fnGet x.fn s).cqs q).size ≠ 0 then finish c stQid s
  else if n = 0 then finish c stQueueSize s
  else if !bit (dword e 11) 0 then finish c stField s
  else if 2048 ≤ v then finish c stVector s
  else if sqePrp1 e % pageSize x.fn s ≠ 0 then finish c stPrpOffset s
  else s |> fnMod x.fn (fun y => { y with cqs := tset {} q { base := sqePrp1 e, size := n + 1, vector := v, ien := bit (dword e 11) 1 } y.cqs })
         |> finish c stOk

def execCreateIoCq (ctx : Nat) (s : State) : Host.Outcome State Fault Refusal :=
  .next (if holdsCmd ctx 0x05 false s then createCq ctx s else s)

/-- CREATE_IO_SQ (R74). -/
def createSq (c : Nat) (s : State) : State :=
  let x := ctxGet c s
  let e := x.sqe
  let q := dword e 10 % 65536
  let n := dword e 10 / 65536
  let k := dword e 11 / 65536
  if q = 0 || sqAllot x.fn s < q || (tget {} (fnGet x.fn s).sqs q).size ≠ 0 then finish c stQid s
  else if n = 0 then finish c stQueueSize s
  else if k = 0 || (tget {} (fnGet x.fn s).cqs k).size = 0 then finish c stCqInvalid s
  else if !bit (dword e 11) 0 then finish c stField s
  else if sqePrp1 e % pageSize x.fn s ≠ 0 then finish c stPrpOffset s
  else s |> fnMod x.fn (fun y => { y with sqs := tset {} q { base := sqePrp1 e, size := n + 1, cq := k } y.sqs }) |> finish c stOk

def execCreateIoSq (ctx : Nat) (s : State) : Host.Outcome State Fault Refusal :=
  .next (if holdsCmd ctx 0x01 false s then createSq ctx s else s)

/-- DELETE_IO_CQ (R75): not while an SQ uses it. -/
def deleteCq (c : Nat) (s : State) : State :=
  let x := ctxGet c s
  let q := dword x.sqe 10 % 65536
  let y := fnGet x.fn s
  if q = 0 || (tget {} y.cqs q).size = 0 then finish c stQid s
  else if y.sqs.any fun e => e.1 ≠ 0 && e.2.cq = q then finish c stQDelete s
  else s |> fnMod x.fn (fun y => { y with cqs := tdel q y.cqs }) |> finish c stOk

def execDeleteIoCq (ctx : Nat) (s : State) : Host.Outcome State Fault Refusal :=
  .next (if holdsCmd ctx 0x04 false s then deleteCq ctx s else s)

/-- Ends a fetched I/O command at the poster (R90 to R92): a claimed one goes on; the tasks of a run are killed at the next
pick; else the command ends with the status and its staged data is discarded. -/
def abortCtx (c : Nat) (st : Status) (s : State) : State :=
  let x := ctxGet c s
  if !x.used || x.claimed then s
  else match x.run with
    | some r => later (.killRun r st 0 0) s
    | none => s |> slotDrop c |> finish c st |> slotSweep |> discSweep

/-- DELETE_IO_SQ (R92): unfetched entries go, fetched commands are aborted, and the SQ and the Delete end once they have. -/
def deleteSq (c : Nat) (s : State) : State :=
  let x := ctxGet c s
  let q := dword x.sqe 10 % 65536
  let y := tget {} (fnGet x.fn s).sqs q
  if q = 0 || y.size = 0 || y.deleting.any (· ≠ c) then finish c stQid s
  else
    let mine (s : State) : List Nat := tfind (fun _ e => e.used && e.fn = x.fn && e.sq = q) s.qe.ctxs ++
      ((fnGet x.fn s).waitCpl.filter (·.sq = q)).map (·.ctx)
    let s1 := if y.deleting.isSome then s
      else (mine s).foldl (fun s k => abortCtx k stSqDeleted s)
        (fnMod x.fn (fun z => { z with sqs := tset {} q { y with head := y.tail, deleting := some c } z.sqs }) s)
    if (mine s1).isEmpty then s1 |> finish c stOk |> fnMod x.fn (fun z => { z with sqs := tdel q z.sqs }) else s1

def execDeleteIoSq (ctx : Nat) (s : State) : Host.Outcome State Fault Refusal :=
  .next (if holdsCmd ctx 0x00 false s then deleteSq ctx s else s)

/-- A fetched I/O command of a controller that has ended, whose completion entry still waits. -/
def cplWaits (f sq cid : Nat) (s : State) : Bool := (fnGet f s).waitCpl.any fun e => e.sq = sq && e.cid = cid && sq ≠ 0

/-- ABORT (R92): Dword0 bit 0 is 0 when the Abort won; a command that was claimed for completion first has won. -/
def abortCmd (c : Nat) (s : State) : State :=
  let x := ctxGet c s
  let sq := dword x.sqe 10 % 65536
  let cid := dword x.sqe 10 / 65536
  let before := s.qe.ctxs.filter fun e => e.2.fn = x.fn && e.2.sq = 0 && sqeOp e.2.sqe = 0x08 && e.2.order < x.order
  if 8 ≤ before.length then finish c stAbortLimit s
  else match (tfind (fun _ e => e.used && e.fn = x.fn && e.sq = sq && e.cid = cid && sq ≠ 0) s.qe.ctxs).head? with
    | none => s |> regAdd (pgQenP + 0x110) (b2n (cplWaits x.fn sq cid s)) |> finishDw c stOk 1 0
    | some t =>
      if (ctxGet t s).claimed then s |> regAdd (pgQenP + 0x110) 1 |> finishDw c stOk 1 0
      else s |> regAdd (pgQenP + 0x108) 1 |> abortCtx t stAbort |> finishDw c stOk 0 0

def execAbort (ctx : Nat) (s : State) : Host.Outcome State Fault Refusal :=
  .next (if holdsCmd ctx 0x08 false s then abortCmd ctx s else s)

/-! ### Features (R76, R101 to R104) -/

/-- WCTEMP in kelvin (R494). -/
def wctemp : Nat := if Config.gradeX then 370 else 365

/-- Reads the 32 APST entries of 8 bytes: idle time in ms and target state (R76, R103). -/
def apstTable (bs : Bytes) : Tab (Nat × Nat) :=
  (List.range 32).foldl (fun t i => let v := leAt bs (8 * i) 4
                                    tset (0, 0) i (bits v 31 8, bits v 7 3) t) []

/-- SET_FEATURES (R76, R101 to R104). -/
def setFeatures (c : Nat) (s : State) : State :=
  let x := ctxGet c s
  let f := x.fn
  let d := dword x.sqe 10
  let v := dword x.sqe 11
  let done (g : Fn → Fn) : State := s |> fnMod f g |> finish c stOk
  if bit d 31 then finish c stNotSaveable s
  else match d % 256 with
    | 0x01 => done fun y => { y with ab := v % 8 }
    | 0x02 =>
      if f ≠ 0 then finish c stNotChangeable s
      else if 4 < v % 32 then finish c stField s
      else finish c stOk { s with qe := { s.qe with pmState := v % 32 } }
    | 0x04 =>
      let sel := bits v 19 16
      if sel ≠ 0 && sel ≠ 0xF || 1 < bits v 21 20 then finish c stField s
      else if bits v 21 20 = 0 then done fun y => { y with tempOver := some (v % 65536) }
      else done fun y => { y with tempUnder := v % 65536 }
    | 0x07 =>
      let y := fnGet f s
      if y.sqs.any (fun e => e.1 ≠ 0) || y.cqs.any (fun e => e.1 ≠ 0) then finish c stSequence s
      else if v % 65536 = 65535 || v / 65536 = 65535 then finish c stField s
      else
        let a := min (v % 65536 + 1) (sqAllot f s) - 1
        let b := min (v / 65536 + 1) (cqAllot f s) - 1
        s |> fnMod f (fun y => { y with nsqReq := a, ncqReq := b }) |> finishDw c stOk (a + 65536 * b) 0
    | 0x08 => done fun y => { y with coalThr := v % 256, coalTime := bits v 15 8 }
    | 0x09 =>
      if 2048 ≤ v % 65536 then finish c stField s
      else done fun y => { y with vecCd := tset false (v % 65536) (bit v 16) y.vecCd }
    | 0x0B => drainAev f (done fun y => { y with aec := BitVec.ofNat 32 v })
    | 0x0C =>
      if f ≠ 0 then finish c stNotChangeable s
      else match hostData c 256 s with
        | (none, t) => t
        | (some bs, t) =>
          if (apstTable bs).any (fun e => 4 < e.2.2) then finish c stField t
          else finish c stOk { t with qe := { t.qe with apstOn := bit v 0, apst := apstTable bs } }
    | 0xC0 => done fun y => { y with pickWin := v % 65536 }
    | _ => finish c stField s

def execSetFeatures (ctx : Nat) (s : State) : Host.Outcome State Fault Refusal :=
  .next (if holdsCmd ctx 0x09 false s then setFeatures ctx s else s)

/-- The power state that Power Management reads (R102, R494): a VF reads the part's current state. -/
def pmReads (f : Nat) (s : State) : Nat := if f ≠ 0 then s.pwr.ps else if s.pwr.forced then 2 else s.qe.pmState

/-- The 256 bytes of the APST table. -/
def apstBytes (s : State) : Bytes :=
  (List.range 32).flatMap fun i =>
    let e := tget (0, 0) s.qe.apst i
    natLe 8 (e.2 * 8 + e.1 * 256)

/-- GET_FEATURES (R76): the current value. -/
def getFeatures (c : Nat) (s : State) : State :=
  let x := ctxGet c s
  let f := x.fn
  let y := fnGet f s
  let v := dword x.sqe 11
  let ok (n : Nat) : State := finishDw c stOk n 0 s
  match dword x.sqe 10 % 256 with
  | 0x01 => ok y.ab
  | 0x02 => ok (pmReads f s)
  | 0x04 =>
    if bits v 19 16 ≠ 0 || 1 < bits v 21 20 then finish c stField s
    else ok (if bits v 21 20 = 0 then y.tempOver.getD wctemp else y.tempUnder)
  | 0x07 => ok (y.nsqReq + 65536 * y.ncqReq)
  | 0x08 => ok (y.coalThr + 256 * y.coalTime)
  | 0x09 => if 2048 ≤ v % 65536 then finish c stField s else ok (v % 65536 + 65536 * b2n (tget false y.vecCd (v % 65536)))
  | 0x0B => ok y.aec.toNat
  | 0x0C =>
    match bufferOf c 256 s with
    | (none, t) => t
    | (some _, t) => t |> sendData x 256 0 (apstBytes s) false |> finishDw c stOk (b2n s.qe.apstOn) 0
  | 0xC0 => ok y.pickWin
  | _ => finish c stField s

def execGetFeatures (ctx : Nat) (s : State) : Host.Outcome State Fault Refusal :=
  .next (if holdsCmd ctx 0x0A false s then getFeatures ctx s else s)

/-- ASYNCHRONOUS_EVENT_REQUEST (R72 AERL, R509): at most 16 wait on a controller; a held event answers at once. -/
def execAsynchronousEventRequest (ctx : Nat) (s : State) : Host.Outcome State Fault Refusal :=
  let x := ctxGet ctx s
  let y := fnGet x.fn s
  if !holdsCmd ctx 0x0C false s || y.aers.contains ctx then .next s
  else if 16 ≤ y.aers.length then .next (finish ctx stAerLimit s)
  else .next (drainAev x.fn (fnSet x.fn { y with aers := y.aers ++ [ctx] } s))

/-! ### Coalescing and vectors -/

/-- A coalescing window has ended (R104): its interrupt is posted. -/
def coalEnd (f v : Nat) (s : State) : State :=
  let x := fnGet f s
  let (n, from_) := tget (0, 0) x.coal v
  if n = 0 || coalWindow x = 0 || pickN s < from_ + coalWindow x then s
  else s |> fnSet f { x with coal := tset (0, 0) v (0, 0) x.coal } |> msix f v

/-- COALESCING_WINDOW_END (R104). -/
def execCoalescingWindowEnd (fn vec : Nat) (s : State) : Host.Outcome State Fault Refusal :=
  if fn < 128 then .next (coalEnd fn vec s) else .fault .noSuchUnit

/-- MSIX_VECTOR_UNMASK (R447): a pending message is sent. -/
def execMsixVectorUnmask (fn vec : Nat) (s : State) : Host.Outcome State Fault Refusal :=
  if fn < 128 && vec < 2048 then
    if !bar0 fn s then .next s
    else
      let x := fnGet fn s
      let s1 := fnSet fn { x with unmasked := tset false vec true x.unmasked } s
      .next (if tget false x.pba vec && x.bme then msix fn vec (fnMod fn (fun y => { y with pba := tset false vec false y.pba }) s1)
             else s1)
  else .fault .noSuchUnit

end Sys2Proof.Machine
end

