-- ==== Sys2Proof/Machine/Hamper.lean ====
section
/-!
DEFINITION. The Hamper's own commands: the two scrubbers (R198, R199), repair candidates (R201) and the region registers
(R189).
-/
namespace Sys2Proof.Machine

/-- A corrected word in a row, found by the scrubber in this lap: a candidate from the second lap on (R201). -/
def scrubCorrected (bank row : Nat) (s : State) : State :=
  let k := bank * 8192 + row
  let seen := tget 0 s.hamx.scrubbed k
  let known := s.hamx.cands.any fun x => x.bank = bank && x.row = row
  let s1 := { s with hamx := { s.hamx with scrubbed := tset 0 k s.hamx.lap s.hamx.scrubbed } }
  if known || (seen ≠ 0 && seen ≠ s.hamx.lap) then candidate bank row false s1 else s1

/-- Symbol errors that strike the codeword `w` of a memory's table. -/
def strike (w : Nat) (syms : List (Nat × Nat)) (t : Tab (List (Nat × Nat))) : Tab (List (Nat × Nat)) :=
  tmod [] w (· ++ syms) t

/-- The errors among `syms` that lie in the codeword of `z` symbols from `base`, by symbol of that codeword. -/
def symsOf (base z : Nat) (syms : List (Nat × Nat)) : List (Nat × Nat) :=
  (syms.filter fun e => base ≤ e.1 && e.1 < base + z).map fun e => (e.1 - base, e.2 % 256)

/-- The scrubber reads word `w` (R198): a correctable word is rewritten corrected, an uncorrectable one rewritten poisoned. -/
def scrubWord (w : Nat) (s : State) : State :=
  let v := hamWordRead w s
  let s1 := hamWordMet 0xF w s
  match v.2.2 with
  | .clean => s1
  | .corrected =>
    s1 |> hamPut 0xF (32 * w) v.1 false |> regAdd (pgHamS + 0x110) 1 |> scrubCorrected (hamBank (32 * w)) (hamRow (32 * w))
  | .uncorrectable => hamPut 0xF (32 * w) v.1 true s1

/-- Scrub steps of this pick so far: the counts restart at each pick. -/
def scrubPick (s : State) : State :=
  if s.hamx.stepPick = pickN s then s
  else { s with hamx := { s.hamx with stepPick := pickN s, beats := 0, lines := 0 } }

/-- The scrubbers pause in PS3 and PS4 and during the power-fail sequence (R199). -/
def scrubPaused (s : State) : Bool := 3 ≤ s.pwr.ps || pfOn s

/-- HAMPER_SCRUB_STEP (R198): one beat of four words at the scrubber's position; `syms` are the symbol errors the beat
holds beside those known, by symbol 0 to 143 of its codewords. At most RATE beats per pick. -/
def hamperScrub (syms : List (Nat × Nat)) (s : State) : State :=
  let s := scrubPick s
  let cfg := regGet (pgHamS + 0x100) s
  if !bit cfg 0 || scrubPaused s || fenced pgHam s || bits cfg 15 4 ≤ s.hamx.beats then s
  else
    let pos := s.hamx.scrubPos
    let s1 := iter 4 (fun j s =>
      scrubWord (4 * pos + j) { s with hamErr := strike (4 * pos + j) (symsOf (36 * j) 36 syms) s.hamErr }) s
    let x := s1.hamx
    if pos + 1 = 524288 then
      { s1 with hamx := { x with scrubPos := 0, beats := x.beats + 1, lap := x.lap + 1, lapFrom := pickN s } }
        |> regSet (pgHamS + 0x108) (pickN s - x.lapFrom)
    else { s1 with hamx := { x with scrubPos := pos + 1, beats := x.beats + 1 } }

def execHamperScrubStep (syms : List (Nat × Nat)) (s : State) : Host.Outcome State Fault Refusal :=
  .next (hamperScrub syms s)

/-- The DRAM scrubber reads codeword `w` (R199): corrected and rewritten, or rewritten poisoned. -/
def dscrubWord (w : Nat) (s : State) : State :=
  let v := dramWordRead w s
  let s1 := dramWordMet w s
  match v.2.2 with
  | .clean => s1
  | .corrected => s1 |> dramWrite (16 * w) v.1 false |> regAdd (pgHamS + 0x128) 1
  | .uncorrectable => dramWrite (16 * w) v.1 true s1

/-- DRAM_SCRUB_STEP (R199): one 64-byte line of four codewords at the scrubber's position; `syms` are the symbol errors of
the line beside those known, by symbol 0 to 79. At most RATE × 16 lines per pick. -/
def dramScrub (syms : List (Nat × Nat)) (s : State) : State :=
  let s := scrubPick s
  let cfg := regGet (pgHamS + 0x118) s
  if !bit cfg 0 || scrubPaused s || !dramUp s || 16 * bits cfg 15 4 ≤ s.hamx.lines then s
  else
    let pos := s.ddr.scrubPos
    let s1 := iter 4 (fun j s =>
      dscrubWord (4 * pos + j) { s with dramErr := strike (4 * pos + j) (symsOf (20 * j) 20 syms) s.dramErr }) s
    let s2 := { s1 with hamx := { s1.hamx with lines := s1.hamx.lines + 1 } }
    if (pos + 1) * 64 = dramSize s then
      { s2 with ddr := { s2.ddr with scrubPos := 0, scrubFrom := pickN s } }
        |> regSet (pgHamS + 0x11C) (pickN s - s2.ddr.scrubFrom)
    else { s2 with ddr := { s2.ddr with scrubPos := pos + 1 } }

def execDramScrubStep (syms : List (Nat × Nat)) (s : State) : Host.Outcome State Fault Refusal :=
  .next (dramScrub syms s)

/-- A write to a `HAM_*_CFG` register (R189): refused with event 0x1005, or in effect at the next pick boundary. -/
def regionWrite (r v : Nat) (s : State) : State :=
  let v := andN v 0x07FF03FF
  let a := pgHam + 0x100 + 4 * r
  if regionOk r v s then later (.reg a (BitVec.ofNat 64 v)) s else raise 0x1005 pgHam a s

/-- HAMPER_REGION_CFG (R189): region 0 staging, 1 firmware, 2 guest pool, 3 HDM pool; the Hamper page's block registers drop
writes while it is fenced (R463). -/
def execHamperRegionCfg (r : Nat) (value : W32) (s : State) : Host.Outcome State Fault Refusal :=
  if r < 4 then .next (if fenced pgHam s then s else regionWrite r value.toNat s) else .fault .noSuchUnit

end Sys2Proof.Machine
end

