-- ==== Sys2Proof/Machine/Verifier.lean ====
section
/-!
DEFINITION. The .izp image (R338 to R340) and the verifier (R341 to R343): the opcode table of R322 to R333 as immediates and
stack effects, the header, the function table, and the checks in their order.
-/
namespace Sys2Proof.Machine

/-- An opcode of the tables: bytes of its immediate, entries it pops and pushes on the data stack, entries it needs on the
return stack and what it leaves of them. A two-byte opcode is 0xFE00 + its second byte. -/
structure IzOp where
  op : Nat
  imm : Nat := 0
  pop : Nat := 0
  push : Nat := 0
  rpop : Nat := 0
  rpush : Nat := 0

/-- Opcodes `l`, all with the same immediate and effect. -/
def izRows (l : List Nat) (imm pop push : Nat) : List IzOp := l.map fun o => { op := o, imm := imm, pop := pop, push := push }

/-- The stack group (R322). -/
def izStackOps : List IzOp :=
  izRows [0x00] 0 0 0 ++ izRows [0x01] 1 0 1 ++ izRows [0x02] 2 0 1 ++ izRows [0x03] 4 0 1 ++ izRows [0x04] 8 0 1 ++
  izRows [0x05] 0 1 2 ++ izRows [0x06] 0 1 0 ++ izRows [0x07] 0 2 2 ++ izRows [0x08] 0 2 3 ++ izRows [0x09] 0 3 3 ++
  izRows [0x0A] 0 2 1 ++ izRows [0x0B] 0 2 3 ++ izRows [0x0C] 1 0 1 ++ izRows [0x0D] 1 1 0 ++ izRows [0x0E] 1 0 0 ++
  izRows [0x0F] 0 2 4 ++ [{ op := 0x10, pop := 1, rpush := 1 }, { op := 0x11, push := 1, rpop := 1 },
    { op := 0x12, push := 1, rpop := 1, rpush := 1 }] ++ izRows [0x13] 0 0 1 ++ izRows [0x14] 1 0 1
/-- The arithmetic, bit and compare groups (R323 to R325). -/
def izAluOps : List IzOp :=
  izRows [0x20, 0x21, 0x22, 0x23, 0x24, 0x25, 0x26, 0x27, 0x28, 0x2A, 0x2B, 0x2C, 0x2E, 0x2F, 0x30, 0x31, 0x32, 0x39, 0x3A,
    0x3B, 0x3C, 0x46] 0 2 1 ++ izRows [0x29, 0x2D, 0x40, 0x41, 0x42, 0x47, 0x5A, 0x5B] 0 1 1 ++
  izRows [0x33, 0x36, 0x37, 0x38, 0x3D, 0x3E] 1 1 1 ++ izRows [0x34, 0x35] 4 1 1 ++ izRows [0x43, 0x44] 2 1 1 ++
  izRows [0x45] 2 2 1 ++ izRows [0x48, 0x5C] 0 3 1 ++ izRows [0x49] 0 4 1 ++ izRows [0x4A] 8 1 1 ++
  izRows ((List.range 10).map (0x50 + ·)) 0 2 1
/-- The control, memory, engine, Heddle, system and two-byte groups (R326 to R333). -/
def izOtherOps : List IzOp :=
  izRows [0x60, 0x66] 2 0 0 ++ izRows [0x61, 0x62] 2 1 0 ++ izRows [0x63] 4 0 0 ++ izRows [0x64, 0x65] 4 1 0 ++
  izRows [0x67] 0 0 0 ++ [{ op := 0x68, imm := 2, rpop := 1, rpush := 1 }] ++ izRows [0x69] 1 0 0 ++
  izRows ((List.range 7).map (0x70 + ·)) 0 1 1 ++ izRows [0x77, 0x78, 0x79, 0x7A] 0 2 0 ++ izRows [0x7B] 0 2 1 ++
  izRows [0x7C] 0 3 1 ++ izRows [0x7D] 0 0 1 ++ izRows [0x7E] 0 3 0 ++ izRows [0x7F] 0 0 0 ++
  izRows [0x80] 0 2 1 ++ izRows [0x81, 0x83] 0 1 0 ++ izRows [0x82] 0 3 1 ++ izRows [0x84, 0x85] 0 0 0 ++
  izRows [0x86, 0x87] 0 0 1 ++ izRows [0x90, 0x93] 0 3 2 ++ izRows [0x91] 0 4 2 ++ izRows [0x92] 0 1 2 ++ izRows [0x94] 0 2 1 ++
  izRows [0xA0] 1 0 1 ++ izRows [0xA1, 0xA2] 0 0 1 ++ izRows [0xA3, 0xA5] 0 1 1 ++ izRows [0xA4, 0xA6] 0 2 0 ++
  izRows [0xA7] 0 1 0 ++ izRows [0xFE00] 0 3 1 ++ izRows [0xFE01, 0xFE02, 0xFE03] 0 2 1

/-- The opcode tables. -/
def izOps : List IzOp := izStackOps ++ izAluOps ++ izOtherOps

/-- An instruction at a code offset: its opcode row, immediate and length. -/
structure IzIns where
  off : Nat
  op : IzOp
  imm : Nat
  len : Nat

/-- Decodes the instruction at the head of `code` (R313); none where the bytes are no instruction. -/
def izDecode (off : Nat) (code : Bytes) : Option IzIns :=
  let b := leAt code 0 1
  let (o, n) := if b = 0xFE then (0xFE00 + leAt code 1 1, 2) else (b, 1)
  match izOps.find? (·.op = o) with
  | none => none
  | some x => if code.length < n + x.imm then none else some { off := off, op := x, imm := leAt code n x.imm, len := n + x.imm }

/-! ### The image -/

/-- The next multiple of 64. -/
def round64 (n : Nat) : Nat := cdiv n 64 * 64

/-- Header fields (R338). -/
def izMagic := 0x504B5A49
def hdLength (b : Bytes) : Nat := leAt b 0x08 4
def hdCode (b : Bytes) : Nat := leAt b 0x0C 4
def hdConst (b : Bytes) : Nat := leAt b 0x10 4
def hdNfunc (b : Bytes) : Nat := leAt b 0x14 2
def hdLocal (b : Bytes) : Nat := leAt b 0x16 2
def hdWindows (b : Bytes) : Nat := leAt b 0x18 2
def hdEngines (b : Bytes) : Nat := leAt b 0x1C 4
/-- Offsets of the code and the constants. -/
def codeAt (b : Bytes) : Nat := round64 (64 + 16 * hdNfunc b)
def constAt (b : Bytes) : Nat := codeAt b + round64 (hdCode b)
def izLength (b : Bytes) : Nat := constAt b + round64 (hdConst b) + 8

/-- A function-table entry (R339). -/
structure IzFun where
  off : Nat
  size : Nat
  ins : Nat
  outs : Nat
  entry : Bool
  raw : Bytes

/-- Entry `i` of the function table. -/
def izFun (b : Bytes) (i : Nat) : IzFun :=
  let e := (b.drop (0x40 + 16 * i)).take 16
  { off := leAt e 0 4, size := leAt e 4 4, ins := leAt e 8 1, outs := leAt e 9 1, entry := bit (leAt e 10 1) 0, raw := e }
def izFuns (b : Bytes) : List IzFun := (List.range (hdNfunc b)).map (izFun b)

/-- The instructions of a function, in order; the last is none where the bytes are no instruction, or one runs past its end. -/
def izSweep : Nat → Nat → Bytes → List (Nat × Option IzIns)
  | 0, _, _ => []
  | fuel + 1, off, code =>
    if code.isEmpty then []
    else match izDecode off code with
      | none => [(off, none)]
      | some x => (off, some x) :: izSweep fuel (off + x.len) (code.drop x.len)

/-- The instructions of every function. -/
def izCode (b : Bytes) : List (IzFun × List (Nat × Option IzIns)) :=
  (izFuns b).map fun f => (f, izSweep (f.size + 1) f.off (((b.drop (codeAt b)).drop f.off).take f.size))

/-! ### Depths (R343) -/

/-- Target of a branch: signed bytes from the next instruction (R313). -/
def izTarget (x : IzIns) : Option Int :=
  if [0x60, 0x61, 0x62, 0x68].contains x.op.op then some ((x.off + x.len : Nat) + sgn 16 x.imm)
  else if [0x63, 0x64, 0x65].contains x.op.op then some ((x.off + x.len : Nat) + sgn 32 x.imm)
  else none

/-- Data and return depth after an instruction that falls through; CALL's as R343 step 1. -/
def izAfter (fs : List IzFun) (x : IzIns) (d : Int × Int) : Int × Int :=
  match x.op.op with
  | 0x0E => (d.1 - x.imm, d.2)
  | 0x66 => match fs[x.imm]? with
    | some g => (d.1 - g.ins + g.outs, d.2)
    | none => d
  | 0x68 => (d.1, d.2 - 1)
  | _ => (d.1 - x.op.pop + x.op.push, d.2 - x.op.rpop + x.op.rpush)

/-- The successors of an instruction with their depths: the fall-through and the branch target. -/
def izSuccs (fs : List IzFun) (x : IzIns) (d : Int × Int) : List (Nat × Int × Int) :=
  let o := x.op.op
  let through := if [0x60, 0x63, 0x67, 0x69, 0x85].contains o then [] else [(x.off + x.len, izAfter fs x d)]
  let taken := match izTarget x with
    | some t => [(t.toNat, if o = 0x68 then d else izAfter fs x d)]
    | none => []
  through ++ taken

/-- Depths by code offset. -/
abbrev IzDepths := Tab (Int × Int)

/-- One pass over a function's instructions: known depths flow to successors that have none. -/
def izPass (fs : List IzFun) (l : List IzIns) (t : Tab (Option (Int × Int))) : Tab (Option (Int × Int)) :=
  l.foldl (fun t x => match tget none t x.off with
    | none => t
    | some d => (izSuccs fs x d).foldl (fun t q => if (tget none t q.1).isSome then t else tput q.1 (some q.2) t) t) t

/-- Passes until nothing changes. -/
def izFlow (fs : List IzFun) (l : List IzIns) : Nat → Tab (Option (Int × Int)) → Tab (Option (Int × Int))
  | 0, t => t
  | fuel + 1, t =>
    let t' := izPass fs l t
    if t'.length = t.length then t else izFlow fs l fuel t'

/-- The depths of a function's instructions. -/
def izDepth (fs : List IzFun) (f : IzFun) (l : List IzIns) : Tab (Option (Int × Int)) :=
  izFlow fs l (l.length + 1) [(f.off, some ((f.ins : Int), (0 : Int)))]

/-- The decoded instructions of a function. -/
def izIns (l : List (Nat × Option IzIns)) : List IzIns := l.filterMap Prod.snd

/-! ### The call graph -/

/-- Functions that a function calls. -/
def izCalls (l : List IzIns) : List Nat := (l.filter (·.op.op = 0x66)).map (·.imm)

/-- Functions that can be reached from a set in some number of calls. -/
def izReach (calls : List (List Nat)) : Nat → List Nat → List Nat
  | 0, l => l
  | fuel + 1, l =>
    let new := (l.flatMap fun i => calls.getD i []).filter (!l.contains ·)
    if new.isEmpty then l else izReach calls fuel (l ++ new.eraseDups)

/-- The greatest depths above a function's own at which it is entered from an ENTRY function: relaxed over the acyclic call
graph (R343 step 3). -/
def izBases (fs : List IzFun) (code : List (List IzIns × Tab (Option (Int × Int)))) : Nat → List (Option (Int × Int)) →
    List (Option (Int × Int))
  | 0, t => t
  | fuel + 1, t =>
    let t' := code.zipIdx.foldl (fun t p => match t.getD p.2 none with
      | none => t
      | some (bd, br) => p.1.1.foldl (fun t x =>
          if x.op.op ≠ 0x66 then t
          else match tget none p.1.2 x.off, fs[x.imm]? with
            | some d, some g =>
              let nd := bd + d.1 - g.ins
              let nr := br + d.2 + 1
              t.set x.imm (match t.getD x.imm none with
                | none => some (nd, nr)
                | some (od, or) => some (max od nd, max or nr))
            | _, _ => t) t) t
    if t' = t then t else izBases fs code fuel t'

/-! ### The checks (R342) -/

/-- The failing check: DETAIL and the code offset, 0xFFFFFF where no instruction is concerned. -/
abbrev Verdict := Option (Nat × Nat)

/-- An offset that concerns no instruction. -/
def noIns := 0xFFFFFF

/-- The first of a list of verdicts that fails. -/
def firstFail : List (Unit → Verdict) → Verdict
  | [] => none
  | c :: l => match c () with
    | some v => some v
    | none => firstFail l

/-- A check without an instruction. -/
def plainCheck (detail : Nat) (ok : Bool) : Verdict := if ok then none else some (detail, noIns)

/-- A check over instructions in code order: the first that fails. -/
def insCheck (detail : Nat) (l : List IzIns) (ok : IzIns → Bool) : Verdict :=
  (l.find? (fun x => !ok x)).map fun x => (detail, x.off)

/-- Reserved fields and gap bytes are 0 (check 0x03). -/
def izReserved (b : Bytes) (house : Bool) : Bool :=
  let zeroAt (o n : Nat) : Bool := leAt b o n = 0
  (leAt b 6 2 ≤ (if house then 1 else 0)) && zeroAt 0x1A 2 && leAt b 0x1C 4 < 128 && zeroAt 0x38 4 &&
  ((izFuns b).all fun f => leAt f.raw 10 1 < 2 && leAt f.raw 11 5 = 0) &&
  zeroAt (64 + 16 * hdNfunc b) (codeAt b - (64 + 16 * hdNfunc b)) &&
  zeroAt (codeAt b + hdCode b) (constAt b - (codeAt b + hdCode b)) &&
  zeroAt (constAt b + hdConst b) (izLength b - 8 - (constAt b + hdConst b))

/-- The function table covers the code in order, with an ENTRY function (check 0x07). -/
def izTable (b : Bytes) : Bool :=
  let fs := izFuns b
  (fs.foldl (fun (q : Bool × Nat) f => (q.1 && f.off = q.2 && 1 ≤ f.size, f.off + f.size)) (true, 0)) = (true, hdCode b) &&
  fs.any (·.entry) && fs.all fun f => f.ins ≤ 32 && f.outs ≤ 32 && (!f.entry || (f.ins = 1 && f.outs = 0))

/-- An immediate is in its range; `d` is the data depth where the instruction is reached (check 0x10). -/
def izImmOk (b : Bytes) (x : IzIns) (d : Option (Int × Int)) : Bool :=
  let i := x.imm
  match x.op.op with
  | 0x0C => i ≤ 30 && d.all fun e => (i : Int) < e.1
  | 0x0D => i ≤ 30 && d.all fun e => (i : Int) < e.1 - 1
  | 0x0E => 1 ≤ i && i ≤ 32 && d.all fun e => (i : Int) ≤ e.1
  | 0x36 | 0x37 | 0x38 => i ≤ 63
  | 0x43 | 0x44 | 0x45 => 1 ≤ i / 256 && i % 256 + i / 256 ≤ 64
  | 0x14 => i ≤ 15 && bit (hdWindows b) i
  | 0xA0 => i ≤ 3
  | 0x3D | 0x3E => i = 1 || i = 2 || i = 4
  | _ => true

/-- The function that holds a code offset. -/
def izHome (fs : List IzFun) (o : Nat) : Option IzFun := fs.find? fun f => f.off ≤ o && o < f.off + f.size

/-- The verifier (R341, R342) on an image whose byte count is its LENGTH; `house` permits HOUSE = 1. -/
def izVerify (b : Bytes) (house : Bool) : Verdict :=
  let fs := izFuns b
  let code := izCode b
  let all := code.flatMap fun p => izIns p.2
  let offs := all.map (·.off)
  let deps := code.map fun p => (izIns p.2, izDepth fs p.1 (izIns p.2))
  let depths := deps.flatMap (·.2)
  let at_ (o : Nat) : Option (Int × Int) := ((depths.find? (·.1 = o)).map Prod.snd).join
  let calls := code.map fun p => izCalls (izIns p.2)
  let n := fs.length
  let bases := izBases fs deps (n + 1) (fs.map fun f => if f.entry then some ((0 : Int), (0 : Int)) else none)
  let baseAt (o : Nat) : Option (Int × Int) := ((fs.zipIdx.find? fun f => f.1.off ≤ o && o < f.1.off + f.1.size).map
    fun f => bases.getD f.2 none).join
  firstFail [
    fun _ => plainCheck 0x01 (leAt b 0 4 = izMagic && leAt b 4 2 = 1),
    fun _ => plainCheck 0x02 (leAt b 0x3C 4 = crc32c (b.take 0x3C) && leAt b (b.length - 8) 4 = crc32c (b.take (b.length - 8))),
    fun _ => plainCheck 0x03 (izReserved b house),
    fun _ => plainCheck 0x04 (hdLength b = izLength b && leAt b (b.length - 4) 4 = hdLength b),
    fun _ => plainCheck 0x05 (1 ≤ hdCode b && hdCode b ≤ 262144 && hdConst b ≤ 16777216 && 1 ≤ hdNfunc b && hdNfunc b ≤ 1024 &&
      hdLocal b ≤ 256 && hdWindows b % 4 = 3),
    fun _ => plainCheck 0x06 (leAt b 0x20 8 < 32),
    fun _ => plainCheck 0x07 (izTable b),
    fun _ => ((code.flatMap (·.2)).find? (·.2.isNone)).map fun p => (0x08, p.1),
    fun _ => if bit (leAt b 6 2) 0 then none else insCheck 0x09 all fun x => !(0xA3 ≤ x.op.op && x.op.op ≤ 0xA7),
    fun _ => insCheck 0x0A all fun x => match izTarget x with
      | none => true
      | some t => 0 ≤ t && offs.contains t.toNat && (match izHome fs x.off with
        | some f => f.off ≤ t.toNat && t.toNat < f.off + f.size
        | none => false),
    fun _ => insCheck 0x0B all fun x => x.op.op ≠ 0x66 || (match fs[x.imm]? with
      | none => false
      | some g => !g.entry && !((izHome fs x.off).any fun f => (izReach calls (n + 1) [x.imm]).any fun k =>
          fs[k]?.any fun h => h.off = f.off)),
    fun _ => (code.filterMap fun p => match (izIns p.2).getLast? with
      | some x => if [0x60, 0x63, 0x67, 0x85, 0x69].contains x.op.op then none else some (0x0C, x.off)
      | none => some (0x0C, noIns)).head?,
    fun _ => insCheck 0x0D all fun y => all.all fun x => match at_ x.off with
      | none => true
      | some d => (izSuccs fs x d).all fun q => q.1 ≠ y.off || at_ y.off = some q.2,
    fun _ => insCheck 0x0E all fun x => match at_ x.off, baseAt x.off with
      | some d, some e =>
        let a := izAfter fs x d
        max d.1 a.1 + e.1 ≤ 32 && max d.2 (if x.op.op = 0x66 then d.2 + 1 else a.2) + e.2 ≤ 16
      | _, _ => true,
    fun _ => insCheck 0x0F all fun x => match at_ x.off with
      | none => true
      | some d =>
        let f := izHome fs x.off
        (x.op.pop : Int) ≤ d.1 && (x.op.rpop : Int) ≤ d.2 &&
        (x.op.op ≠ 0x66 || fs[x.imm]?.all fun g => (g.ins : Int) ≤ d.1) &&
        (x.op.op ≠ 0x67 || f.all fun f => d.1 = f.outs && d.2 = 0 && !f.entry),
    fun _ => insCheck 0x10 all fun x => izImmOk b x (at_ x.off),
    fun _ => insCheck 0x11 all fun x =>
      (!(0x90 ≤ x.op.op && x.op.op ≤ 0x94) || bit (hdEngines b) 6) && (x.op.op ≠ 0x80 || hdEngines b % 64 ≠ 0)]

end Sys2Proof.Machine
end

