-- ==== Sys2Proof/Machine/Task.lean ====
section
/-!
DEFINITION. Tasks, activations and program images as cores and runs share them (R312, R336, R346 to R361): where images and
frames lie, the dispatch and the end of activations, traps.
-/
namespace Sys2Proof.Machine

/-! ### Runs and images -/

/-- The number under which the firmware image's tasks are kept. -/
def fwRun : Nat := 1024

def runGet (r : Nat) (s : State) : Run := tget {} s.runs r
def runSet (r : Nat) (x : Run) (s : State) : State := { s with runs := tset {} r x s.runs }
def runMod (r : Nat) (g : Run → Run) (s : State) : State := runSet r (g (runGet r s)) s

/-- The number of the firmware image among the program images. -/
def fwImage : Nat := 2048

def imgGet (k : Nat) (s : State) : Image := tget {} s.progs k
def imgSet (k : Nat) (x : Image) (s : State) : State := { s with progs := tset {} k x s.progs }

/-- The working space of the DRAM begins after the map, at a multiple of 2 MiB; its first GiB is the program store (R178, R363;
the place: log entry 2). -/
def storeBase (s : State) : Nat := cdiv (mapBytes s) 2097152 * 2097152
/-- Where heaps and DRAM-carved windows may lie: after the 8 GiB of working space (R178; log entry 2). -/
def carveBase (s : State) : Nat := storeBase s + 8589934592

/-- Bytes of an image: a program's from the store, the firmware's from the slot that booted. -/
def imgBytes (k off n : Nat) (s : State) : Bytes :=
  if k = fwImage then padTo n (((tget {} s.boot.slots s.boot.lastSlot).image).drop off)
  else tgetBytes s.dram (storeBase s + (imgGet k s).base + off) n

/-- The header and function table of an image: 64 bytes and `NFUNC` entries. -/
def imgHead (k : Nat) (s : State) : Bytes := imgBytes k 0 64 s
/-- Function-table entry `i` of an image; none beyond NFUNC. -/
def imgFun (k i : Nat) (s : State) : Option IzFun :=
  if i < hdNfunc (imgHead k s) then some (izFun (zeros 64 ++ imgBytes k (64 + 16 * i) 16 s) 0) else none

/-- The image of a task. -/
def taskImage (x : Task) (s : State) : Nat := if x.house then fwImage else (runGet x.run s).image
/-- Bytes of a task's frame: LOCAL_SIZE × 64 (R338). -/
def frameSize (x : Task) (s : State) : Nat := 64 * hdLocal (imgHead (taskImage x s) s)

/-! ### Task entries -/

/-- A task entry can be used again: FREE, or ENDED with no reference left (R351). -/
def taskUsable (t : Nat) (s : State) : Bool :=
  let x := taskGet t s
  x.state = .free || (x.state = .ended && x.refs = 0)

/-- The task entries of a run's reserve: firmware's 0 to 8,191, a program's own (R346). -/
def reserve (r : Nat) (s : State) : List Nat := if r = fwRun then List.range 8192 else (runGet r s).resv

/-- Two tasks are of the same run; for firmware, of the firmware image (R328). -/
def sameRun (x : Task) (t : Nat) (s : State) : Bool := if x.house then t < 8192 else (runGet x.run s).resv.contains t

/-- Hamper offset of the state record of entry `t` of a run (R347, R372): a program's in its grant, in the order of its reserve;
the firmware's 512 bytes apart in the firmware area (log entry 2). -/
def recordAt (r t : Nat) (s : State) : Nat :=
  if r = fwRun then (region 1 s).1 + 512 * t
  else
    let x := runGet r s
    x.records + x.resv.idxOf t * (512 + 64 * hdLocal (imgHead x.image s))

/-- Creates a task at function `f` with its one stack entry and its counter; counter 0 makes it READY at once (R328, R350).
None: it would join a full list (R360). -/
def newTask (r t : Nat) (f : IzFun) (arg : W64) (counter : W16) (spawnCl : Option Nat) (s : State) : Option State :=
  let q := runGet r s
  let house := r = fwRun
  let x : Task := { state := .waiting, prio := q.prio, basePrio := q.prio, house := house, func := if house then 0 else q.fn,
                    counter := counter, run := r % 1024, clmask := if house then 3 else q.clmask, spawnCl := spawnCl,
                    statePtr := recordAt r t s, stack := [arg], pc := BitVec.ofNat 24 f.off }
  let s1 := taskSet t x s
  if counter = 0 then placeReady t s1 else some s1

/-! ### Core time -/

/-- Adds `clk` clocks of a task to its core, its activation, its function and its run (R359). -/
def chargeClk (n t clk : Nat) (s : State) : State :=
  let x := taskGet t s
  let s1 := s |> taskSet t { x with actClk := x.actClk + clk } |> regAdd (pgIzk n + 0x128) clk
  if x.house then s1
  else s1 |> charge x.func rCore clk |> regAdd (pgFun x.func + 0x218) clk
          |> runMod x.run (fun q => { q with coreClk := q.coreClk + clk })

/-! ### Code fetch (R15, R313) -/

/-- The code line of 64 bytes that holds byte `pc` of image `k`, as the instruction caches know it. -/
def codeLine (k pc : Nat) : Nat := k * 2 ^ 18 + pc / 64

/-- The core fetches the instruction at its task's pc through the instruction cache of its cluster: 2,048 lines of 64 bytes, the least
recently used replaced (DESIGN CHOICE, log entry 128). A miss adds 264 clk (R313). -/
def codeFetch (n : Nat) (s : State) : State :=
  match (coreGet n s).task with
  | none => s
  | some t =>
    let x := taskGet t s
    let k := n / 16
    let key := codeLine (taskImage x s) x.pc.toNat
    let l := tget [] s.icache k
    let put (m : List Nat) (s : State) : State := { s with icache := tset [] k m s.icache }
    if l.contains key then s |> put (key :: l.filter (· ≠ key)) |> regAdd (pgIzc k + 0x108) 1
    else s |> put ((key :: l).take 2048) |> regAdd (pgIzc k + 0x110) 1 |> chargeClk n t 264

/-- The caches keep only the lines that `p` picks. -/
def codeKeep (p : Nat → Bool) (s : State) : State :=
  { s with icache := s.icache.filterMap fun e =>
      let l := e.2.filter p
      if l.isEmpty then none else some (e.1, l) }

/-- The caches hold no line of image `k` any more. -/
def codeDrop (k : Nat) (s : State) : State := codeKeep (fun q => q / 2 ^ 18 ≠ k) s

/-! ### Frames (R357) -/

/-- Writes a resident frame to its spill area; a firmware frame's bytes stay with the task. -/
def spillFrame (k t : Nat) (s : State) : State :=
  let x := taskGet t s
  let s1 := if x.house then s else hamWrite (.core x.lastCore) (x.statePtr + 512) (tgetBytes x.frame 0 (frameSize x s)) false s
  s1 |> taskSet t { x with resident := false, frame := if x.house then x.frame else [] } |> regAdd (pgIzc k + 0x130) 1

/-- Takes task `t` out of a core's frame slots. -/
def dropFrame (n t : Nat) (s : State) : State := coreMod n (fun c => { c with frames := c.frames.filter (· ≠ t) }) s

/-- Brings a task's frame to core `n`: the clocks that the move adds (R357). A frame that has never run starts with what its
spill area holds, a firmware frame with free bytes (log entry 5). -/
def placeFrame (n t : Nat) (s : State) : Nat × State :=
  let x := taskGet t s
  let f := frameSize x s
  let c := coreGet n s
  if f = 0 then (0, s)
  else if x.resident && x.lastCore = n then (0, coreSet n { c with frames := t :: c.frames.filter (· ≠ t) } s)
  else
    let (clk, s1) := if c.frames.length < 4 then (0, s)
      else match c.frames.getLast? with
        | none => (0, s)
        | some v => (2 + frameSize (taskGet v s) s / 64, s |> spillFrame (n / 16) v |> dropFrame n v)
    let src := if !x.resident then 24 + f / 64
      else if x.lastCore / 16 = n / 16 then 8 + f / 64 else 26 + 2 * f / 64
    let s2 := if x.resident then dropFrame x.lastCore t s1 else s1
    let (bs, s3) : Bytes × State := if x.resident || (x.house && x.everRan) then (tgetBytes x.frame 0 f, s2)
      else if x.house then
        ((List.range f).map fun i => Config.freeByte (s2.free + i), { s2 with free := s2.free + f })
      else ((hamRead (x.statePtr + 512) f s2).1, hamMet (.core n) (x.statePtr + 512) f s2)
    (clk + src, s3 |> taskMod t (fun y => { y with frame := tsetBytes 0 bs [], resident := true })
      |> coreMod n (fun c => { c with frames := t :: c.frames }) |> regAdd (pgItn + 0x170) 1)

/-! ### Dispatch (R353 to R358) -/

/-- U and B of a function's score for core time; 0 of 1 without a budget, and for firmware. -/
def coreScore (x : Task) (s : State) : Nat × Nat :=
  if x.house then (0, 1)
  else match budget x.func rCore s with
    | some b => (usedOf x.func rCore s, max 1 b)
    | none => (0, 1)

/-- Task `a` goes before task `b`, which became READY earlier, on core `n` (R354 rules 2 to 4). -/
def goesBefore (n : Nat) (a b : Task) (s : State) : Bool :=
  let here (x : Task) : Bool := x.everRan && x.lastCore = n
  let (u, c) := coreScore a s
  let (v, d) := coreScore b s
  if a.prio ≠ b.prio then a.prio < b.prio
  else if here a ≠ here b then here a
  else u * d < v * c

/-- The task of a list that core `n` takes (R354). -/
def pickTask (n : Nat) (l : List Nat) (s : State) : Option Nat :=
  (l.filter fun t => eligible (taskGet t s) s && coreOk (taskGet t s) n s).foldl (fun b t => match b with
    | none => some t
    | some u => if goesBefore n (taskGet t s) (taskGet u s) s then some t else some u) none

/-- Takes a task out of every ready list. -/
def unlist (t : Nat) (s : State) : State :=
  (List.range 8).foldl (fun s k => if (readyOf k s).contains t then readySet k ((readyOf k s).filter (· ≠ t)) s else s) s

/-- Fills the empty slot of a core from its cluster's list (R355). -/
def fillSlot (n : Nat) (s : State) : State :=
  if (coreGet n s).slot.isSome then s
  else match pickTask n (readyOf (n / 16) s) s with
    | some t => s |> unlist t |> slotTask t n
    | none => s

/-- The cluster to steal from: the list with the most eligible tasks that permit cluster `k`, the lowest number on a tie (R355,
log entry 32). -/
def stealFrom (n : Nat) (s : State) : Option Nat :=
  let count (j : Nat) : Nat := ((readyOf j s).filter fun t => eligible (taskGet t s) s && coreOk (taskGet t s) n s).length
  (List.range 8).foldl (fun b j => if j = n / 16 || count j = 0 then b else match b with
    | none => some j
    | some i => if count i < count j then some j else some i) none

/-- An activation begins on core `n` (R353 to R358): frame, counters, and the priority that ageing had raised returns. The move of a frame
runs while its task waits in the slot, and has finished where that began in an earlier pick (R357; DEDUCED, log entry 160). -/
def startTask (n t : Nat) (slot : Bool) (s : State) : State :=
  let x := taskGet t s
  let wait := min 0xFFFFFFFF ((pickN s % 2 ^ 32 + 2 ^ 32 - x.readyPick) % 2 ^ 32 * 6400)
  let (move, s1) := placeFrame n t s
  let clk := if slot && (coreGet n s).slotPick < pickN s then 0 else move
  s1 |> coreMod n (fun c => { c with task := some t, stat := 1, slot := if slot then none else c.slot })
     |> taskMod t (fun y => { y with state := .running, prio := if y.aged then y.basePrio else y.prio, aged := false, lastCore := n, stores := [],
                                     everRan := true, actClk := 0, edgeClk := 0, activations := y.activations + 1 })
     |> chargeClk n t clk |> regAdd (pgItn + 0x148) 1 |> regAdd (pgIzc (n / 16) + (if slot then 0x118 else 0x120)) 1
     |> regMax (pgItnRl (n / 16) + 0x120) wait |> codeFetch n |> fillSlot n

/-- A core goes on with its task: it, its cluster and the Itinerary are unfenced and not resetting, and firmware is up; no core runs
once the power-fail sequence has begun (R167). -/
def coreRuns (n : Nat) (s : State) : Bool :=
  works (pgIzk n) s && works (pgIzc (n / 16)) s && works pgItn s && running s && !pfOn s

/-- A core takes a new task: it runs, and EN of its page, its cluster's and the Itinerary's is set (R38). -/
def coreUp (n : Nat) (s : State) : Bool :=
  coreRuns n s && enabled (pgIzk n) s && enabled (pgIzc (n / 16)) s && enabled pgItn s

/-- TASK_DISPATCH (R355): an idle core takes the task in its slot, else asks its list, else steals, else goes on asking. -/
def execTaskDispatch (core : Nat) (s : State) : Host.Outcome State Fault Refusal :=
  if core < 128 then
    let c := coreGet core s
    if !coreUp core s || c.task.isSome then .next s
    else match c.slot with
      | some t => .next (startTask core t true s)
      | none => match pickTask core (readyOf (core / 16) s) s with
        | some t => .next (s |> unlist t |> startTask core t false)
        | none => match (stealFrom core s).bind fun j => pickTask core (readyOf j s) s with
          | some t => .next (s |> unlist t |> regAdd (pgItn + 0x150) 1 |> startTask core t false)
          | none => .next (coreSet core { c with stat := 4 } s)
  else .fault .noSuchUnit

/-! ### The end of an activation -/

/-- The core is free of its task. -/
def coreIdle (n : Nat) (s : State) : State := coreMod n (fun c => { c with task := none, stat := 0 }) s

/-- A task that stays runnable is requeued at the tail of its level (R25 step 5, R328 YIELD). -/
def requeue (t : Nat) (s : State) : State :=
  let x := taskGet t s
  let k := if clusterOk x (x.lastCore / 16) s then x.lastCore / 16 else (homeCluster x s).getD (if x.house then 0 else 2)
  s |> taskMod t (fun y => { y with readyPick := pickN s % 2 ^ 32, agePick := pickN s }) |> joinList t k false

/-- The task has ended; its frame slot is free. -/
def taskEnd (n t : Nat) (s : State) : State :=
  s |> taskMod t (fun x => { x with state := .ended, resident := false, frame := [] }) |> dropFrame n t |> coreIdle n

/-- An activation that had run 6,400 clk at the last pick boundary is preempted (R24, R337, R359). -/
def preempt (n : Nat) (s : State) : State :=
  match (coreGet n s).task with
  | none => s
  | some t =>
    if (taskGet t s).edgeClk < 6400 then s
    else s |> coreIdle n |> requeue t |> regAdd (pgIzk n + 0x148) 1 |> regAdd (pgItn + 0x158) 1

/-- ACTIVATION_PREEMPT (R24): what the sweep of PICK_BOUNDARY does for every core, for one core. -/
def execActivationPreempt (core : Nat) (s : State) : Host.Outcome State Fault Refusal :=
  if core < 128 then .next (if coreRuns core s then preempt core s else s) else .fault .noSuchUnit

/-! ### Traps (R335, R336, R376, R456) -/

/-- A program trap of a function within 256 bolts (R456): at TRAP_LIMIT event 0x6103, and a fence when the POLICY asks for one. -/
def countTrap (f : Nat) (s : State) : State :=
  let p := portionOf f s
  let l := ((fnGet f s).trapBolts.filter fun b => boltN s < b + 256) ++ [boltN s]
  let s1 := regAdd (pgFun f + 0x238) 1 s
  if l.length < p.trapLimit then fnMod f (fun x => { x with trapBolts := l }) s1
  else
    let s2 := s1 |> fnMod f (fun x => { x with trapBolts := [] }) |> note 0x6103 (pgFun f) f
    if bit p.policy 1 && bit (regGet (pgFun f + 0x040) s2) 0 && !errMasked 0x6103 (pgFun f) s2
    then fencePage (pgFun f) 0x6103 false s2 else s2

/-- A task traps (R336): the trap registers, IRQ_STAT.TRAP, the event, the end of the task; a program's run is killed at the
next pick boundary (R376). -/
def trapTask (n t code user addr : Nat) (s : State) : State :=
  let x := taskGet t s
  let dw0 := code + user * 256 + t * 65536
  let s1 := s |> regSet (pgIzk n + 0x110) dw0 |> regSet (pgIzk n + 0x114) x.pc.toNat |> regSet (pgIzk n + 0x118) addr
              |> regAdd (pgIzk n + 0x138) 1 |> irqCause (pgIzk n) 2 |> note (if x.house then 0x4102 else 0x4181) (pgIzk n) t
              |> taskEnd n t
  if x.house then s1
  else s1 |> later (.killRun x.run vsTrapped (BitVec.ofNat 32 dw0) (x.pc.zeroExtend 32)) |> countTrap x.func

/-! ### Decrements and ageing -/

/-- DEPENDENCE_DECREMENT (R350, R360). -/
def execDependenceDecrement (task : Nat) (s : State) : Host.Outcome State Fault Refusal :=
  if task < 65536 then .next (decTask task s) else .fault .noSuchUnit

/-- TASK_AGEING (R356): a READY task that has waited PICKS picks rises one level. -/
def execTaskAgeing (task : Nat) (s : State) : Host.Outcome State Fault Refusal :=
  if task < 65536 then
    let x := taskGet task s
    let p := regFld (pgItn + 0x114) 15 0 s
    .next (if x.state = .ready && p ≠ 0 && x.prio ≠ 0 && x.agePick + p ≤ pickN s then
      taskSet task { x with prio := x.prio - 1, aged := true, agePick := pickN s } s else s)
  else .fault .noSuchUnit

/-- ITN_DEC (R349, R377): firmware's write decrements the named task; the fenced page drops it. -/
def execItnDec (value : W32) (s : State) : Host.Outcome State Fault Refusal :=
  .next (if fenced pgItn s then s else decTask (value.toNat % 65536) s)

/-- The code of a task's STATE (R347). -/
def TState.code : TState → Nat
  | .free => 0 | .waiting => 1 | .ready => 2 | .slotted => 3 | .running => 4 | .ended => 5

/-- The next task in the ready list after `t`; 0 where there is none. -/
def nextReady (t : Nat) (s : State) : Nat :=
  (List.range 8).foldl (fun a k => let l := readyOf k s
                                   if l.contains t then (l.drop (l.idxOf t + 1)).headD 0 else a) 0

/-- The 32 bytes of a task table entry (R347). -/
def taskEntry (t : Nat) (s : State) : Bytes :=
  let x := taskGet t s
  natLe 1 (x.state.code + x.prio % 8 * 8 + b2n x.house * 64 + b2n x.aged * 128) ++ natLe 1 (x.func % 128) ++
  natLe 2 x.counter.toNat ++ natLe 2 (x.run % 1024) ++ natLe 1 (x.lastCore % 128 + b2n x.resident * 128) ++ [x.clmask] ++
  natLe 2 x.refs ++ natLe 2 (nextReady t s) ++ natLe 4 (x.statePtr / 64) ++ natLe 4 x.actClk ++ natLe 4 x.activations ++
  natLe 4 x.readyPick ++ zeros 4

/-- A write of `ITN_QUERY_CTL` (R347, R377): captures a task's entry. -/
def itnQuery (v : Nat) (s : State) : State :=
  let b := taskEntry (v % 65536) s
  (List.range 4).foldl (fun s j => regSet (pgItn + 0x120 + 8 * j) (leAt b (8 * j) 8) s) s

/-- ITN_QUERY (R347, R377). -/
def execItnQuery (value : W32) (s : State) : Host.Outcome State Fault Refusal :=
  .next (if fenced pgItn s then s else itnQuery value.toNat s)

end Sys2Proof.Machine
end

