-- ==== Sys2Proof/Machine/Program.lean ====
section
/-!
DEFINITION. Programs and runs (R362 to R376): Load, Unload and Run Program, the resources, inputs and outputs of a run, its end
and its kill.
-/
namespace Sys2Proof.Machine

/-! ### Load and unload (R362 to R364) -/

/-- Handles that a function holds, loaded or partial. -/
def handles (f : Nat) (s : State) : List Nat := (List.range 16).filter fun h => (imgGet (16 * f + h) s).present
/-- The handle of a function's partial load. -/
def partialOf (f : Nat) (s : State) : Option Nat :=
  (List.range 16).find? fun h => let x := imgGet (16 * f + h) s; x.present && !x.loaded

/-- The lowest place in the program store, at a multiple of 64, that leaves `n` bytes free (R363, log entry 2). -/
def storePlace (n : Nat) (s : State) : Option Nat :=
  let taken := s.progs.map fun e => (e.2.base, e.2.length)
  let spots := (0 :: taken.map fun t => round64 (t.1 + t.2)).filter fun b =>
    b + n ≤ 1073741824 && !(taken.any fun t => overlap t (b, n))
  spots.foldl (fun b x => match b with
    | none => some x
    | some y => some (min x y)) none

/-- A piece of an image: it is stored, and at FINAL the image is verified (R341, R362). -/
def loadPiece (c k : Nat) (final : Bool) (bs : Bytes) (s : State) : State :=
  let x := imgGet k s
  let keep := bs.take (x.length - x.got)
  let s1 := s |> dramWrite (storeBase s + x.base + x.got) keep false
              |> imgSet k { x with got := x.got + bs.length, lastBolt := boltN s }
  if !final then finishDw c stOk (k % 16) 0 s1
  else
    let img := imgBytes k 0 x.length s1
    if x.got + bs.length ≠ x.length then s1 |> imgSet k {} |> finish c vsLength
    else match izVerify img false with
      | some (d, o) => s1 |> imgSet k {} |> finishDw c vsImage (d + o * 256) 0
      | none => s1 |> imgSet k { x with got := x.length, loaded := true } |> finishDw c stOk (k % 16) 0

/-- LOAD_PROGRAM (R362). -/
def loadProgram (c : Nat) (s : State) : State :=
  let x := ctxGet c s
  let f := x.fn
  let n := dword x.sqe 10
  let off := dword x.sqe 11
  let v := dword x.sqe 12
  let first := bit v 0
  let final := bit v 1
  if bits v 15 2 ≠ 0 || bits v 31 20 ≠ 0 || n = 0 || mdts < n || (!final && n % 64 ≠ 0) then finish c stField s
  else if first && (off ≠ 0 || n < 64) then finish c stField s
  else if !first && (partialOf f s ≠ some (bits v 19 16) || (imgGet (16 * f + bits v 19 16) s).got ≠ off) then finish c stField s
  else if !dramUp s then finish c vsFenced s
  else
    let s0 := if first then (match partialOf f s with
      | some h => imgSet (16 * f + h) {} s
      | none => s) else s
    if first && 16 ≤ (handles f s0).length then finish c vsPortion s0
    else match hostData c n s0 with
      | (none, t) => t
      | (some bs, t) =>
        if !first then loadPiece c (16 * f + bits v 19 16) final bs t
        else
          let len := hdLength bs
          match storePlace len t, (List.range 16).find? fun h => !(imgGet (16 * f + h) t).present with
          | some b, some h =>
            loadPiece c (16 * f + h) final bs (imgSet (16 * f + h) { present := true, base := b, length := len } t)
          | _, _ => finish c vsPortion t

def execLoadProgram (ctx : Nat) (s : State) : Host.Outcome State Fault Refusal :=
  .next (if holdsCmd ctx 0xC9 false s then loadProgram ctx s else s)

/-- PARTIAL_LOAD_DISCARD (R362): a partial load that has had no piece for 64 bolts goes. -/
def execPartialLoadDiscard (fn handle : Nat) (s : State) : Host.Outcome State Fault Refusal :=
  if fn < 128 && handle < 16 then
    let x := imgGet (16 * fn + handle) s
    .next (if x.present && !x.loaded && x.lastBolt + 64 ≤ boltN s then imgSet (16 * fn + handle) {} s else s)
  else .fault .noSuchUnit

/-- UNLOAD_PROGRAM (R364). -/
def unloadProgram (c : Nat) (s : State) : State :=
  let x := ctxGet c s
  let k := 16 * x.fn + bits (dword x.sqe 10) 3 0
  if !(imgGet k s).present then finish c stField s
  else if s.runs.any fun r => r.2.used && r.1 ≠ fwRun && r.2.image = k then finish c stSequence s
  else s |> imgSet k {} |> codeDrop k |> finish c stOk

def execUnloadProgram (ctx : Nat) (s : State) : Host.Outcome State Fault Refusal :=
  .next (if holdsCmd ctx 0xCC false s then unloadProgram ctx s else s)

/-- A function's images go with an FLR or a link-down (R364). -/
def unloadAll (f : Nat) (s : State) : State := (List.range 16).foldl (fun s h => codeDrop (16 * f + h) (imgSet (16 * f + h) {} s)) s

/-! ### The argument block (R366 to R368) -/

def raHandle (a : Bytes) : Nat := leAt a 0 2
def raEntry (a : Bytes) : Nat := leAt a 2 2
def raNin (a : Bytes) : Nat := leAt a 6 1
def raNout (a : Bytes) : Nat := leAt a 7 1
def raNlines (a : Bytes) : Nat := leAt a 8 1
def raRunWin (a : Bytes) : Nat := leAt a 9 1
def raMaxTasks (a : Bytes) : Nat := leAt a 0x0A 2
def raScratchH (a : Bytes) : Nat := leAt a 0x18 4
def raScratchHWin (a : Bytes) : Nat := leAt a 0x1C 1
def raScratchDWin (a : Bytes) : Nat := leAt a 0x1D 1
def raHdmWin (a : Bytes) : Nat := leAt a 0x1E 1
def raUserLen (a : Bytes) : Nat := leAt a 0x30 2
def raResultLen (a : Bytes) : Nat := leAt a 0x32 2
/-- The clusters permitted: 0x00 means 2 to 7. -/
def raClmask (a : Bytes) : Nat := if leAt a 5 1 = 0 then 0xFC else leAt a 5 1

/-- An extent descriptor (R367). -/
structure ExtDesc where
  slba : Nat
  mode : Nat
  win : Nat
  nlb : Nat
  heap : Nat
/-- Descriptor `i` of the block, in extent form. -/
def raExt (a : Bytes) (i : Nat) : ExtDesc :=
  let d := a.drop (0x40 + 16 * i)
  { slba := leAt d 0 6, mode := leAt d 6 1, win := leAt d 7 1, nlb := leAt d 8 4, heap := leAt d 12 4 }
def raIns (a : Bytes) : List ExtDesc := (List.range (raNin a)).map (raExt a)
def raOuts (a : Bytes) : List ExtDesc := (List.range (raNout a)).map fun i => raExt a (raNin a + i)
/-- Line descriptor `i` (R368). -/
def raLine (a : Bytes) (i : Nat) : Bytes := (a.drop (0x40 + 16 * (raNin a + raNout a + i))).take 16
def raLines (a : Bytes) : List Bytes := (List.range (raNlines a)).map (raLine a)
def raUser (a : Bytes) : Bytes := (a.drop (0x40 + 16 * (raNin a + raNout a + raNlines a))).take (raUserLen a)

/-- Buffer extents of a list. -/
def raBufs (l : List ExtDesc) : List ExtDesc := l.filter (·.mode ≠ 2)

/-- Windows that a block names. -/
def raWins (a : Bytes) : List Nat :=
  raRunWin a :: (raBufs (raIns a) ++ raBufs (raOuts a)).map (·.win) ++
  [raScratchHWin a, raScratchDWin a, raHdmWin a].filter (· ≠ 0)

/-- An optional window's number. -/
def optWin (w : Nat) : Bool := w = 0 || (2 ≤ w && w ≤ 15)

/-- The fixed fields of an argument block are in range and its reserved bits 0. -/
def raFixedOk (a : Bytes) : Bool :=
  raHandle a < 16 && leAt a 4 1 < 8 && leAt a 5 1 % 4 = 0 && 2 ≤ raRunWin a && raRunWin a ≤ 15 && 1 ≤ raMaxTasks a &&
  raMaxTasks a ≤ 4096 && raScratchH a % 4096 = 0 && optWin (raScratchHWin a) && optWin (raScratchDWin a) && optWin (raHdmWin a) &&
  leAt a 0x1F 1 = 0 && leAt a 0x20 8 % 64 = 0 && raResultLen a ≤ 4096 && leAt a 0x34 12 = 0

/-- An extent descriptor is in range (R367); `input` permits a line. An extent of no blocks is out of range (log entry 37). -/
def raExtOk (a : Bytes) (blk : Nat) (input : Bool) (e : ExtDesc) : Bool :=
  e.nlb ≠ 0 && (if e.mode = 2 then input && e.win < raNlines a && e.nlb ≤ 2 ^ 24
    else e.mode ≤ 1 && 2 ≤ e.win && e.win ≤ 15 && e.nlb * blk ≤ 67108864) && (e.mode = 1 || e.heap = 0)

/-- An agent may end a line of a run (R368). -/
def raAgentOk (a : Bytes) (g : Nat) : Bool :=
  if g < 0x40 then 40 ≤ g && bit (raClmask a) (2 + (g - 40) / 4)
  else (0x40 ≤ g && g < 0x56) || (0x58 ≤ g && g < 0x60)

/-- Line descriptor `i` is in range (R217, R368): agent 0x60 only as the producer of a line that an input names. -/
def raLineOk (a : Bytes) (i : Nat) : Bool :=
  let d := raLine a i
  let named := (raIns a).any fun e => e.mode = 2 && e.win = i
  12 ≤ leAt d 0 1 && leAt d 0 1 ≤ 26 && leAt d 1 1 ≤ 8 && 9 + leAt d 1 1 ≤ leAt d 0 1 && leAt d 4 12 = 0 &&
  (if named then leAt d 2 1 = 0x60 else raAgentOk a (leAt d 2 1)) && raAgentOk a (leAt d 3 1)

/-- The address of a DRAM range in the function's heap. -/
def heapAddr (f off : Nat) (s : State) : Nat := (fnGet f s).heapBase * 2097152 + off

/-- What refuses a Run Program before any logical block is read (R365 to R371 step 1). -/
def runRefusal (x : Ctx) (a : Bytes) (s : State) : Option Status :=
  let n := nsGet x.nsid s
  let blk := nsBlock n
  let k := 16 * x.fn + raHandle a
  let img := imgGet k s
  let hd := imgHead k s
  let exts := raIns a ++ raOuts a
  if 8 < raNin a || 8 < raNout a || 8 < raNlines a || 3072 < raUserLen a then some stField
  else if dword x.sqe 10 ≠ 64 + 16 * (raNin a + raNout a + raNlines a) + raUserLen a then some vsLength
  else if !raFixedOk a || !((raIns a).all (raExtOk a blk true)) || !((raOuts a).all (raExtOk a blk false)) ||
      !((List.range (raNlines a)).all (raLineOk a)) then some stField
  else if !(img.present && img.loaded) then some stField
  else if !((imgFun k (raEntry a) s).any (·.entry)) then some stField
  else if !(raWins a).Nodup || (raWins a).any (fun w => !bit (hdWindows hd) w) then some stField
  else if (raBufs exts).any (fun e => e.mode = 1 && !inHeap x.fn (heapAddr x.fn (e.heap * 4096) s) (e.nlb * blk) s) ||
      (raScratchDWin a ≠ 0 && !inHeap x.fn (heapAddr x.fn (leAt a 0x20 8) s) (leAt a 0x28 8) s) then some stField
  else if exts.any fun e => !inNs n e.slba e.nlb then some stLba
  else if (raOuts a).zipIdx.any (fun p => (raOuts a).zipIdx.any fun q => p.2 < q.2 && overlap (p.1.slba, p.1.nlb) (q.1.slba, q.1.nlb))
    then some stField
  else if (List.range 8).all (fun c => !bit (raClmask a) c || fenced (pgIzc c) s) then some vsFenced
  else none

/-! ### Resources (R372) -/

/-- Rounds up to a multiple of `n`. -/
def roundTo (n a : Nat) : Nat := cdiv a n * n

/-- The lowest place of `n` bytes in a pool of (base, size) at an alignment, clear of what is taken. -/
def findSpot (pool : Nat × Nat) (taken : List (Nat × Nat)) (align n : Nat) : Option Nat :=
  let spots := ((pool.1 :: taken.map fun t => t.1 + t.2).map (roundTo align)).filter fun b =>
    pool.1 ≤ b && b + n ≤ pool.1 + pool.2 && !(taken.any fun t => overlap t (b, n))
  spots.foldl (fun b x => match b with
    | none => some x
    | some y => some (min x y)) none

/-- Pieces of the guest pool that runs hold. -/
def poolTaken (s : State) : List (Nat × Nat) := s.runs.flatMap fun r => r.2.grants

/-- Bytes of the main piece of a run's grant: run page, Hamper buffers, scratch, state records with their spill areas. -/
def runMain (x : Ctx) (a : Bytes) (s : State) : Nat :=
  let blk := nsBlock (nsGet x.nsid s)
  let bufs := ((raBufs (raIns a ++ raOuts a)).filter (·.mode = 0)).foldl (fun t e => t + e.nlb * blk) 0
  8192 + bufs + raScratchH a + raMaxTasks a * (512 + 64 * hdLocal (imgHead (16 * x.fn + raHandle a) s))

/-- Places the main piece and the line rings, each ring at a multiple of its size. -/
def runGrants (x : Ctx) (a : Bytes) (s : State) : Option (List (Nat × Nat)) :=
  let pieces := (4096, runMain x a s) :: (raLines a).map fun d => (2 ^ leAt d 0 1, 2 ^ leAt d 0 1)
  pieces.foldl (fun acc p => acc.bind fun l =>
    (findSpot (region 2 s) (poolTaken s ++ l) p.1 p.2).map fun b => l ++ [(b, p.2)]) (some [])

/-- Lines 8 to 31 that are free. -/
def freeLines (s : State) : List Nat :=
  ((List.range 24).map (· + 8)).filter fun l => (lineGet l s).run.isNone && !lineEn l s

/-- Task entries that no run has reserved (R346). -/
def freeTasks (s : State) : List Nat :=
  let taken := s.runs.flatMap fun r => r.2.resv
  ((List.range 57344).map (· + 8192)).filter fun t => !taken.contains t

/-- The lowest free run ID. -/
def freeRun (s : State) : Option Nat := (List.range 1024).find? fun r => !(runGet r s).used

/-- A run must wait: an earlier one waits, no run ID is free, or too few lines are. -/
def runMustWait (c : Nat) (a : Bytes) (s : State) : Bool :=
  let x := ctxGet c s
  (s.qe.ctxs.any fun e => e.2.used && e.2.sq ≠ 0 && sqeOp e.2.sqe = 0x83 && e.2.phase = 1 && e.2.order < x.order) ||
  (freeRun s).isNone || (freeLines s).length < raNlines a

/-- A buffer descriptor laid out at Hamper offset `h`; answers the buffer with the next free offset. -/
def layBuf (x : Ctx) (e : ExtDesc) (h : Nat) (s : State) : Buf × Nat :=
  let n := nsGet x.nsid s
  let ext := nsExtent n e.slba e.nlb
  if e.mode = 0 then ({ first := ext.1, count := ext.2, space := 0, addr := h }, h + e.nlb * nsBlock n)
  else ({ first := ext.1, count := ext.2, space := 1, addr := heapAddr x.fn (e.heap * 4096) s }, h)

/-- Lays out buffers one after the other. -/
def layBufs (x : Ctx) (s : State) : List ExtDesc → Nat → List Buf × Nat
  | [], h => ([], h)
  | e :: l, h =>
    let (b, h1) := layBuf x e h s
    let (bs, h2) := layBufs x s l h1
    (b :: bs, h2)

/-- Size of the window over a function's result windows (R370). -/
def hdmSize (f : Nat) (s : State) : Nat :=
  if (dramWindow f s).2 ≠ 0 then 8388608 + (dramWindow f s).2 else (hamWindow f s).2

/-- The windows of a run (R370) over its page at `page`, buffers, and scratch at `sc`. -/
def runWins (x : Ctx) (a : Bytes) (page sc : Nat) (ins outs : List Buf) (s : State) : Tab Win :=
  let buf (wr : Bool) (b : Buf) : Win := { space := if b.space = 0 then 1 else 2, base := b.addr, size := b.count * 4096, rd := true, wr := wr }
  let t0 : Tab Win := [(raRunWin a, { space := 1, base := page, size := 8192, rd := true, wr := true })]
  let t1 := ((raBufs (raIns a)).zip ins).foldl (fun t p => tput p.1.win (buf false p.2) t) t0
  let t2 := ((raBufs (raOuts a)).zip outs).foldl (fun t p => tput p.1.win (buf true p.2) t) t1
  let t3 := if raScratchHWin a = 0 then t2
    else tput (raScratchHWin a) { space := 1, base := sc, size := raScratchH a, rd := true, wr := true, atom := true } t2
  let t4 := if raScratchDWin a = 0 then t3
    else tput (raScratchDWin a) { space := 2, base := heapAddr x.fn (leAt a 0x20 8) s, size := leAt a 0x28 8, rd := true, wr := true } t3
  if raHdmWin a = 0 then t4
  else tput (raHdmWin a) { space := 3, base := 0, size := hdmSize x.fn s, rd := true, wr := true } t4

/-- Grants line `l` for line descriptor `d` with its ring at `base` (R368): it is configured and enabled. -/
def grantLine (r l : Nat) (d : Bytes) (base : Nat) (s : State) : State :=
  let v := 1 + leAt d 0 1 * 4 + leAt d 1 1 * 2 ^ 8 + leAt d 2 1 * 2 ^ 16 + leAt d 3 1 * 2 ^ 24 + base / 4096 * 2 ^ 32
  s |> regSet (pgShu 0 + 0x400 + 16 * l) v |> lineSet l { run := some r }

/-- Zeroes an output buffer (R371 step 5). -/
def zeroBuf (b : Buf) (s : State) : State := (memWrite (hamVia 1 s) b.space b.addr (zeros (b.count * 4096)) false s).getD s

/-- Step 4 and 5 of R371: the run gets its resources; an occupancy refusal ends the command. -/
def acquire (c : Nat) (a : Bytes) (s : State) : State :=
  let x := ctxGet c s
  let tasks := (freeTasks s).take (raMaxTasks a)
  match freeRun s, runGrants x a s with
  | some r, some gs =>
    let bytes := gs.foldl (fun t g => t + g.2) 0
    if tasks.length < raMaxTasks a || (portionOf x.fn s).hamper * 4096 < (fnGet x.fn s).hamUse + bytes then finish c vsPortion s
    else
      let main := (gs.headD (0, 0)).1
      let (ins, h1) := layBufs x s (raBufs (raIns a)) (main + 8192)
      let (outs, h2) := layBufs x s (raBufs (raOuts a)) h1
      let ls := (freeLines s).take (raNlines a)
      let n := nsGet x.nsid s
      let streams : List LineIn := ((raIns a).filter (·.mode = 2)).map fun e =>
        { line := ls.getD e.win 0, first := (nsExtent n e.slba e.nlb).1, count := (nsExtent n e.slba e.nlb).2 }
      let run : Run := {
        used := true, ctx := c, fn := x.fn, image := 16 * x.fn + raHandle a,
        wins := runWins x a main h2 ins outs s, resv := tasks, prio := leAt a 4 1, clmask := BitVec.ofNat 8 (raClmask a),
        timeoutBolts := leAt a 0x0C 4, resultLen := raResultLen a, page := main, records := h2 + raScratchH a, grants := gs,
        lines := ls, arg := BitVec.ofNat 64 (leAt a 0x10 8), entry := raEntry a, user := raUser a, ins := ins, outs := outs,
        lineIns := streams }
      let s1 := s |> runSet r run |> fnMod x.fn (fun q => { q with hamUse := q.hamUse + bytes })
                  |> ctxMod c (fun q => { q with run := some r, phase := 2 })
      let s2 := (ls.zip ((raLines a).zip (gs.drop 1))).foldl (fun s p => grantLine r p.1 p.2.1 p.2.2.1 s) s1
      outs.foldl (fun s b => zeroBuf b s) s2
  | _, _ => finish c vsPortion s

/-! ### Inputs and the entry task (R371 steps 5 and 6, R373) -/

/-- The granules of a buffer or stream, once all of them are read. -/
def gathered (c first count : Nat) (s : State) : Option (List Granule) :=
  let l := (List.range count).map fun k => tget none (ctxGet c s).got (first + k)
  if l.all Option.isSome then some (l.filterMap id) else none

/-- Asks for the granules of an extent that are not read yet. -/
def seek (c first count : Nat) (s : State) : State :=
  mediaTurn ((unitsOf [(first, count)]).foldl (fun s i => resolveUnit c i s) s)

/-- Puts a buffer input's granules into memory with their marks (R373). -/
def fillBuf (c : Nat) (b : Buf) (s : State) : State :=
  ((gathered c b.first b.count s).getD []).zipIdx.foldl (fun s g =>
    match memWrite (hamVia 1 s) b.space (b.addr + 4096 * g.2) (padTo 4096 g.1.bytes) g.1.poison s with
    | some t => warpMove 1 (memPort b.space 1 s) 4096 t
    | none => errResp (memPort b.space 1 s) s) s

/-- The run page (R369). -/
def runPage (r : Nat) (s : State) : Bytes :=
  let q := runGet r s
  let x := ctxGet q.ctx s
  zeros 4096 ++ natLe 2 r ++ natLe 1 q.fn ++ zeros 5 ++ padTo 8 (q.lines.map (BitVec.ofNat 8)) ++ natLe 4 x.nsid ++ zeros 4 ++
  natLe 8 x.seq ++ zeros 32 ++ padTo 4032 q.user

/-- Creates the entry task of a run whose inputs are in memory (R371 step 6). Into a full list it waits for the next boundary. -/
def entryTask (r : Nat) (s : State) : State :=
  let q := runGet r s
  if !q.used || q.phase ≠ .loading || !q.inputsIn then s
  else match imgFun q.image q.entry s with
    | none => s
    | some f =>
      let s1 := hamWrite (.core 0) q.page (runPage r s) false s
      match newTask r (q.resv.headD 0) f q.arg 0 none (runSet r { q with phase := .live, startBolt := boltN s } s1) with
      | some u => u
      | none => later (.entryTask r) s

/-- RUN_ENTRY_TASK_CREATE (R371 step 6). -/
def execRunEntryTaskCreate (run : Nat) (s : State) : Host.Outcome State Fault Refusal :=
  if run < 1024 then .next (if running s && accepts pgItn s && !pfOn s then entryTask run s else s) else .fault .noSuchUnit

/-- The buffer inputs: reads are started, and once every granule is there the buffers are filled. The entry task follows at once
when the house clusters' lists are empty, else at the next pick boundary (R27, R371). -/
def feedBufs (c r : Nat) (s : State) : State :=
  let q := runGet r s
  if q.inputsIn then s
  else
    let s1 := q.ins.foldl (fun s b => seek c b.first b.count s) s
    if q.ins.any fun b => (gathered c b.first b.count s1).isNone then s1
    else
      let s2 := q.ins.foldl (fun s b => fillBuf c b s) s1
      let s3 := runMod r (fun q => { q with inputsIn := true }) s2
      if (readyOf 0 s3).isEmpty && (readyOf 1 s3).isEmpty then entryTask r s3 else later (.entryTask r) s3

/-- Writes bytes [off, off + n) of granules to a memory at `a`, each part with its granule's mark (R197). -/
def writeMarked (space a : Nat) (l : List Granule) (off n : Nat) (s : State) : Option State :=
  l.zipIdx.foldl (fun q g => q.bind fun t =>
    let lo := max off (4096 * g.2)
    let hi := min (off + n) (4096 * g.2 + 4096)
    if hi ≤ lo then some t
    else memWrite (hamVia 1 t) space (a + (lo - off)) (((padTo 4096 g.1.bytes).drop (lo - 4096 * g.2)).take (hi - lo)) g.1.poison t) (some s)

/-- The next burst of line input `i` of a run (R373): read, written to the ring with its marks, and posted; the last is END. -/
def feedLine (c r i : Nat) (s : State) : State :=
  let q := runGet r s
  let e := q.lineIns.getD i {}
  let total := e.count * 4096
  if total ≤ e.done || !lineEn e.line s || !lineRoom e.line s then s
  else
    let n := min (lineBurst e.line s) (total - e.done)
    let g0 := e.done / 4096
    let gn := (e.done + n - 1) / 4096 + 1 - g0
    let s1 := seek c (e.first + g0) gn s
    match gathered c (e.first + g0) gn s1 with
    | none => s1
    | some l =>
      match writeMarked 0 (linePutAt e.line s1) l (e.done % 4096) n s1 with
      | none => errResp (memPort 0 1 s1) s1
      | some s2 =>
        s2 |> warpMove 1 (memPort 0 1 s1) n |> linePost e.line 0x60 (e.done + n = total) (n / 64)
           |> runMod r (fun q => { q with lineIns := q.lineIns.set i { e with done := e.done + n } })

/-- One step of a started run's inputs. -/
def feedRun (c r : Nat) (s : State) : State :=
  let s1 := feedBufs c r s
  if (runGet r s1).phase = .live then
    (List.range (runGet r s1).lineIns.length).foldl (fun s i => feedLine c r i s) s1
  else s1

/-! ### Run Program (R365, R371) -/

/-- Steps 1 to 4 of R371, with the argument block there. -/
def startRun (c : Nat) (a : Bytes) (s : State) : State :=
  let x := ctxGet c s
  let n := nsGet x.nsid s
  let ext (e : ExtDesc) := nsExtent n e.slba e.nlb
  if !x.started then
    match runRefusal x a s with
    | some st => finish c st s
    | none =>
      if x.ro && raNout a ≠ 0 then finish c vsReadOnly s
      else openExtents c ((raOuts a).map ext) ((raIns a).map ext) (ctxMod c (fun q => { q with started := true }) s)
  else if guardWait x s then s
  else if runMustWait c a s then ctxMod c (fun q => { q with phase := 1 }) s
  else acquire c a s

/-- RUN_PROGRAM (R365, R371): asks for the argument block, starts the run, and feeds its inputs. -/
def runProgram (c : Nat) (s : State) : State :=
  let x := ctxGet c s
  match x.run with
  | some r => feedRun c r s
  | none =>
    if x.phase = 1 then s
    else match ioGate c s with
      | some t => t
      | none =>
        let v := dword x.sqe 10
        if 4096 ≤ v || v < 64 || 3520 < v || sqeMptr x.sqe % 64 ≠ 0 || ([11, 12, 13, 14, 15].any fun k => dword x.sqe k ≠ 0)
        then finish c stField s
        else if fenced pgHam s then finish c vsFenced s
        else if x.badData ≠ 0 then finish c stDataXfer s
        else if !x.gotMptr then askHost c 1 [(sqeMptr x.sqe, v)] s
        else
          let s1 := startRun c (padTo v x.mbuf) s
          if (ctxGet c s1).used && !x.started then startRun c (padTo v x.mbuf) s1 else s1

def execRunProgram (ctx : Nat) (s : State) : Host.Outcome State Fault Refusal :=
  .next (if holdsCmd ctx 0x83 true s then runProgram ctx s else s)

/-- RUN_RESOURCE_ACQUIRE (R372): a run that waits acquires its resources when its turn has come. -/
def execRunResourceAcquire (ctx : Nat) (s : State) : Host.Outcome State Fault Refusal :=
  let x := ctxGet ctx s
  if !holdsCmd ctx 0x83 true s || x.phase ≠ 1 || x.run.isSome then .next s
  else
    let a := padTo (dword x.sqe 10) x.mbuf
    .next (if runMustWait ctx a s then s else acquire ctx a s)

/-! ### The end of a run (R375) -/

/-- A job of a program belongs to run `r`. -/
def runOwns (r : Nat) (s : State) (p : Option Back) (_f : Nat) : Bool :=
  p.any fun b => (runGet r s).resv.contains b.task

/-- Jobs and descriptors that the tasks of a run have submitted and that have not completed. -/
def runBusy (r : Nat) (s : State) : Bool :=
  (s.shus.any fun e => (e.2.job.any fun j => runOwns r s j.prog 0) || e.2.back.any fun b => runOwns r s b.2 0) ||
  s.engs.any fun e => (e.2.jobs.any fun j => runOwns r s j.prog 0) || e.2.back.any fun b => runOwns r s b.2 0

/-- Releases what a run holds (R372, R257): lines, digest contexts, task entries, Hamper grant, run ID. -/
def runRelease (r : Nat) (s : State) : State :=
  let q := runGet r s
  let bytes := q.grants.foldl (fun t g => t + g.2) 0
  let s1 := q.lines.foldl (fun s l => lineSet l {} (lineFree l s)) s
  let s2 := { s1 with digs := s1.digs.filter fun e => e.2.user ≠ .run r,
                      tasks := s1.tasks.filter fun e => !q.resv.contains e.1 }
  s2 |> fnMod q.fn (fun x => { x with hamUse := x.hamUse - bytes }) |> runSet r {}

/-- The granules of an output buffer, a granule poisoned with any of its words (R195, R197, R375). -/
def outGranules (b : Buf) (s : State) : List Granule :=
  (List.range b.count).map fun k => match memRead b.space (b.addr + 4096 * k) 4096 s with
    | some (bs, p) => { bytes := bs, poison := p }
    | none => { poison := true }

/-- The result goes to the host, the resources are released and the completion is posted (R375 steps 2 to 4, R365). -/
def runFinish (r : Nat) (s : State) : State :=
  let q := runGet r s
  let c := q.ctx
  match bufferOf c q.resultLen s with
  | (none, t) => if (ctxGet c t).used then t else runRelease r t
  | (some _, t) =>
    let x := ctxGet c t
    if q.resultLen ≠ 0 && outWait x t then t
    else
      let (bs, p) := (memRead 0 q.page q.resultLen t).getD (zeros q.resultLen, true)
      let t := hamMet (hamVia 0 t) q.page q.resultLen t
      let t1 := if q.resultLen = 0 then t else sendData x q.resultLen 0 bs p t
      let bytes := q.outs.foldl (fun n b => n + b.count * 4096) 0
      t1 |> runRelease r |> fnMod x.fn (fun y => { y with unitsWritten := y.unitsWritten + bytes })
         |> finishDw c stOk (min 0xFFFFFFFF (cdiv (q.coreClk * 256) 6400)) (pickN s - x.pick)

/-- RUN_END (R375): when every task and job of a live run has ended, its outputs become writes; once they are durable the run
finishes. A run that is to be killed, because a task trapped or an Abort won, does not end here (R92, R376). -/
def execRunEnd (run : Nat) (s : State) : Host.Outcome State Fault Refusal :=
  if run < 1024 then
    let q := runGet run s
    let doomed := killDue run s && !(ctxGet q.ctx s).claimed
    if !q.used || doomed || !running s || pfOn s || fenced pgQen s || fenced pgItn s then .next s
    else match q.phase with
      | .loading => .next s
      | .live =>
        if !(q.resv.all fun t => taskUsable t s) || runBusy run s then .next s
        else if q.outs.isEmpty then .next (runFinish run s)
        else .next (q.outs.foldl (fun s b => memMet (hamVia 1 s) b.space b.addr (4096 * b.count) s) s |> runSet run { q with phase := .done }
                      |> setPlan q.ctx (q.outs.zipIdx.flatMap fun b => (writePlan b.1.first (outGranules b.1 s) false 0).map fun t => { t with ext := b.2 }))
      | .done => .next (if (ctxGet q.ctx s).phase = 90 then runFinish run s else s)
  else .fault .noSuchUnit

/-! ### Kills (R361, R376) -/

/-- Takes a task off its core, slot, list and frame slot. -/
def evict (t : Nat) (s : State) : State :=
  unlist t { s with cores := s.cores.map fun e =>
    (e.1, { e.2 with task := if e.2.task = some t then none else e.2.task, slot := if e.2.slot = some t then none else e.2.slot,
                     stat := if e.2.task = some t then 0 else e.2.stat, frames := e.2.frames.filter (· ≠ t) }) }

/-- Kills a run (R376): its tasks stop, its jobs and descriptors are squashed, everything is released and no output is committed;
the command ends with a status, or without a completion. -/
def runKill (r : Nat) (e : Option (Status × W32 × W32)) (s : State) : State :=
  let q := runGet r s
  if !q.used || r = fwRun then s
  else
    let s1 := (q.resv.filter fun t => (taskGet t s).state ≠ .free).foldl (fun s t => evict t s) s
    let s2 := (List.range 64).foldl (fun s k => shuSquash k 0x09 (runOwns r s) s) s1
    let s3 := allEngines.foldl (fun s a => engSquash a 0x09 (runOwns r s) s) s2
    let s4 := s3 |> runRelease r |> note 0x4282 pgItn r
    match e with
    | some (st, d0, d1) => s4 |> slotDrop q.ctx |> finishDw q.ctx st d0.toNat d1.toNat |> slotSweep |> discSweep
    | none => squash q.ctx s4

/-- The kill of a run whose tasks or outputs cannot go on: Program Trapped with a cause (R376). -/
def trapKill (r cause : Nat) (s : State) : State := runKill r (some (vsTrapped, BitVec.ofNat 32 cause, 0)) s

/-- RUN_TIMEOUT (R376): the run is killed at the next pick boundary. -/
def execRunTimeout (run : Nat) (s : State) : Host.Outcome State Fault Refusal :=
  if run < 1024 then
    let q := runGet run s
    .next (if q.used && q.phase = .live && q.timeoutBolts ≠ 0 && q.startBolt + q.timeoutBolts ≤ boltN s then
      s |> note 0x4283 pgItn run |> later (.killRun run vsTrapped 0x80 0) else s)
  else .fault .noSuchUnit

/-- Runs with a task running or slotted on a core, or a frame resident there (R361). -/
def runsOnCore (n : Nat) (s : State) : List Nat :=
  let c := coreGet n s
  let ts := c.task.toList ++ c.slot.toList ++ c.frames
  tfind (fun r q => r ≠ fwRun && q.used && ts.any fun t => q.resv.contains t) s.runs

/-- A house core is fenced (R361): the service that ran there ends, to be started again by firmware, and the task in the core's slot goes
back to a list. -/
def houseFenced (n : Nat) (s : State) : State :=
  let s1 := match (coreGet n s).task with
    | some t => note 0x4102 (pgIzk n) t (taskEnd n t s)
    | none => s
  match (coreGet n s1).slot with
  | some t => s1 |> coreMod n (fun c => { c with slot := none }) |> joinList t ((homeCluster (taskGet t s1) s1).getD 0) true
  | none => s1

/-- A core's fence has taken effect (R361). -/
def coreFenced (n : Nat) (s : State) : State :=
  if n < 32 then houseFenced n s
  else (runsOnCore n s).foldl (fun s r => trapKill r 0x81 s) s

/-- A cluster's fence has taken effect (R361): its cores' runs, and the runs that no cluster is left to, are killed; with both
house clusters fenced every controller stops. -/
def clusterFenced (k : Nat) (s : State) : State :=
  if k < 2 then
    let s1 := (List.range 16).foldl (fun s i => houseFenced (16 * k + i) s) s
    if fenced (pgIzc 0) s && fenced (pgIzc 1) s then
      (List.range 128).foldl (fun s f => if fnPresent f s then fnMod f (fun x => { x with cfs := true }) s else s) s1
    else s1
  else
    let s1 := (List.range 16).foldl (fun s i => coreFenced (16 * k + i) s) s
    (tfind (fun r q => r ≠ fwRun && q.used && (List.range 8).all fun c => !bit q.clmask.toNat c || fenced (pgIzc c) s1) s1.runs).foldl
      (fun s r => trapKill r 0x81 s) s1

/-! ### Back-pressure (R360) -/

/-- Free firmware task entries (R377 ITN_FREE). -/
def freeFw (s : State) : Nat := 8192 - (s.tasks.filter fun e => e.1 < 8192 && !taskUsable e.1 s).length

/-- Asserts or releases back-pressure to the queue engine (R81, R360). -/
def backPressure (s : State) : State :=
  let hi := regFld (pgItn + 0x108) 11 0 s
  let lo := regFld (pgItn + 0x108) 27 16 s
  let a := (readyOf 0 s).length
  let b := (readyOf 1 s).length
  if !s.qe.bp && (hi < a || hi < b || freeFw s < 256) then note 0x4281 pgItn 0 { s with qe := { s.qe with bp := true } }
  else if s.qe.bp && a ≤ lo && b ≤ lo && 512 ≤ freeFw s then { s with qe := { s.qe with bp := false } }
  else s

end Sys2Proof.Machine
end

