-- ==== Sys2Proof/Machine/Portion.lean ====
section
/-!
DEFINITION. Portions (R434 to R446): the record, its checks, the placing and the shrinking of carved resources, Set Portion and
Get Portion.
-/
namespace Sys2Proof.Machine

/-! ### The record (R434) -/

/-- The Portion that a record of 64 bytes spells. -/
def ptParse (b : Bytes) : Portion :=
  { policy := leAt b 3 1, trapLimit := leAt b 4 1, refuseLimit := leAt b 5 1, slots := leAt b 8 2, irq := leAt b 0xA 2,
    hostRd := leAt b 0xC 4, hostWr := leAt b 0x10 4, flashOps := leAt b 0x14 4, corePicks := leAt b 0x18 2,
    twc := leAt b 0x1A 2, twd := leAt b 0x1C 2, dig := leAt b 0x1E 2, kck := leAt b 0x20 2, scn := leAt b 0x22 2,
    hamper := leAt b 0x24 4, hedTiles := leAt b 0x28 1, hedWcode := leAt b 0x29 1, hdmHam := leAt b 0x2A 2,
    hdmDram := leAt b 0x2C 2, heap := leAt b 0x30 4, repair := leAt b 0x34 4 }

/-- The record of a function's Portion. -/
def ptBytes (f : Nat) (p : Portion) : Bytes :=
  natLe 2 1 ++ natLe 1 f ++ natLe 1 p.policy ++ natLe 1 p.trapLimit ++ natLe 1 p.refuseLimit ++ natLe 2 0 ++
  natLe 2 p.slots ++ natLe 2 p.irq ++ natLe 4 p.hostRd ++ natLe 4 p.hostWr ++ natLe 4 p.flashOps ++ natLe 2 p.corePicks ++
  natLe 2 p.twc ++ natLe 2 p.twd ++ natLe 2 p.dig ++ natLe 2 p.kck ++ natLe 2 p.scn ++ natLe 4 p.hamper ++
  natLe 1 p.hedTiles ++ natLe 1 p.hedWcode ++ natLe 2 p.hdmHam ++ natLe 2 p.hdmDram ++ natLe 2 0 ++ natLe 4 p.heap ++
  natLe 4 p.repair ++ zeros 8

/-- A rate field of two bytes is within its ceiling, or unlimited (R434). -/
def rateOk (cap v : Nat) : Bool := v ≤ cap || v = 0xFFFF

/-- The checks of a record for function `f` (R434, R442): version, function, reserved bits and bytes, ranges. -/
def ptOk (f : Nat) (b : Bytes) : Bool :=
  let p := ptParse b
  leAt b 0 2 = 1 && leAt b 2 1 = f && p.policy < 8 && 1 ≤ p.trapLimit && 1 ≤ p.refuseLimit && leAt b 6 2 = 0 &&
  leAt b 0x2E 2 = 0 && leAt b 0x38 8 = 0 && p.slots ≤ 16256 && rateOk 24576 p.corePicks && rateOk 2048 p.twc &&
  rateOk 2048 p.twd && rateOk 1024 p.dig && rateOk 512 p.kck && rateOk 2048 p.scn && p.hedTiles ≤ 24 && p.hedWcode ≤ 2 &&
  p.hedTiles % 2 ^ p.hedWcode = 0 && p.hdmHam ≤ 128 && p.hdmDram ≤ 8192 && (f = 0 || p.repair = 0)

/-! ### Carved resources (R443) -/

def hamCarve (f : Nat) (s : State) : Nat := regGet (pgCxlH + 0x100 + 8 * f) s
def dramCarve (f : Nat) (s : State) : Nat := regGet (pgCxlH + 0x500 + 8 * f) s
/-- Size held of the Hamper-carved window, 64 KiB units. -/
def hamHeld (f : Nat) (s : State) : Nat := let v := hamCarve f s; if bit v 63 then bits v 47 40 else 0
/-- Size held of the DRAM-carved window, 2 MiB units. -/
def dramHeld (f : Nat) (s : State) : Nat := let v := dramCarve f s; if bit v 63 then bits v 61 48 else 0
/-- Tiles of the group that a function holds. -/
def tilesHeld (f : Nat) (s : State) : Nat :=
  match (fnGet f s).group with
  | some g => cfgTiles (grpCfg g s)
  | none => 0

/-- Drops the keys of [lo, lo + n) from a table. -/
def tabClear {α : Type} (lo n : Nat) (t : Tab α) : Tab α := t.filter fun e => e.1 < lo || lo + n ≤ e.1

/-- Zeroes a range of the DRAM, whole codewords. -/
def dramZero (a n : Nat) (s : State) : State :=
  { s with dram := tabClear a n s.dram, dramPoison := tabClear (a / 16) (n / 16) s.dramPoison, dramErr := tabClear (a / 16) (n / 16) s.dramErr }

/-- The control area records where a function's carved resources lie (R443). -/
def recordCarve (f : Nat) (s : State) : State :=
  let x := fnGet f s
  let c : Carve :=
    { ham := BitVec.ofNat 64 (hamCarve f s), dram := BitVec.ofNat 64 (dramCarve f s), heapBase := x.heapBase,
      heapSize := x.heapSize, group := x.group,
      cfg := match x.group with
        | some g => BitVec.ofNat 32 (grpCfg g s)
        | none => 0 }
  let q := copyStore (areaCarve f) c (tget {} s.die.carveCopies f) s.die
  let d := areaClean q.2 4 s.die
  { s with die := { d with carves := tset {} f c d.carves, carveCopies := tset {} f q.1 d.carveCopies } }

/-- A function's Portion becomes durable in the control area (R436). -/
def recordPortion (f : Nat) (p : Portion) (s : State) : State :=
  let q := copyStore (areaPortion f) (some p) (tget {} s.die.portionCopies f) s.die
  let d := areaClean q.2 16 s.die
  { s with die := { d with portions := tset none f (some p) d.portions, portionCopies := tset {} f q.1 d.portionCopies } }

/-- Tiles of enabled groups other than `g`. -/
def tilesTaken (g : Nat) (s : State) : List Nat :=
  ((List.range 8).filter fun q => q ≠ g && grpEn q s).flatMap fun q => cfgTileList (grpCfg q s)

/-- A group number that is taken: enabled, or held by a function. -/
def groupTaken (g : Nat) (s : State) : Bool := grpEn g s || s.fns.any fun e => e.2.group = some g

/-- The Heddle group of a Portion: granted, or grown into the free tiles above it, with its new tiles empty (R443). None:
refused, with the record offset of the field that failed. -/
def placeGroup (f : Nat) (p : Portion) (s : State) : Except Nat State :=
  let w := 2 ^ p.hedWcode
  match (fnGet f s).group with
  | none =>
    if p.hedTiles = 0 then .ok s
    else
      let g? := (List.range 8).find? fun g => !groupTaken g s
      let b? := (List.range 24).map (· + 24) |>.find? fun b =>
        b % w = 0 && b + p.hedTiles ≤ 48 && (List.range p.hedTiles).all fun i => !(tilesTaken 8 s).contains (b + i)
      match g?, b? with
      | some g, some b =>
        let v := 1 + p.hedWcode * 2 + b * 256 + p.hedTiles * 65536 + f * 16777216
        .ok (s |> regSet (pgGrp g + 0x100) v |> hedClear g |> fnMod f (fun x => { x with group := some g }))
      | _, _ => .error 0x28
  | some g =>
    let v := grpCfg g s
    let t := cfgTiles v
    let more := (List.range (p.hedTiles - t)).map (· + cfgBase v + t)
    if t < p.hedTiles && (48 < cfgBase v + p.hedTiles || more.any fun i => (tilesTaken g s).contains i) then .error 0x28
    else if p.hedTiles ≠ 0 && p.hedWcode ≠ bits v 2 1 then .error 0x29
    else if t < p.hedTiles then
      .ok (regSet (pgGrp g + 0x100) (setBits v 20 16 p.hedTiles)
        { s with hed := s.hed.filter fun e => !more.contains (e.1 / 2048) })
    else .ok s

/-- DPA extents of the other functions' windows, in units from the first of their kind. -/
def hamDpas (f : Nat) (s : State) : List (Nat × Nat) :=
  ((List.range 128).filter fun q => q ≠ f && hamHeld q s ≠ 0).map fun q => (bits (hamCarve q s) 30 24, hamHeld q s)
def dramDpas (f : Nat) (s : State) : List (Nat × Nat) :=
  ((List.range 128).filter fun q => q ≠ f && dramHeld q s ≠ 0).map fun q => (bits (dramCarve q s) 44 32, dramHeld q s)
/-- Hamper extents of the other windows, 64 KiB units. -/
def hamPlaces (f : Nat) (s : State) : List (Nat × Nat) :=
  ((List.range 128).filter fun q => q ≠ f && hamHeld q s ≠ 0).map fun q => (bits (hamCarve q s) 9 0, hamHeld q s)
/-- DRAM ranges of windows and heaps, 2 MiB units; the window of `f` and the heap of `h` left out. -/
def dramPlaces (f h : Nat) (s : State) : List (Nat × Nat) :=
  (((List.range 128).filter fun q => q ≠ f && dramHeld q s ≠ 0).map fun q => (bits (dramCarve q s) 16 0, dramHeld q s)) ++
  (((List.range 128).filter fun q => q ≠ h && (fnGet q s).heapSize ≠ 0).map fun q => ((fnGet q s).heapBase, (fnGet q s).heapSize))

/-- The DRAM that windows and heaps may take, 2 MiB units (R178; log entry 2). -/
def carvePool (s : State) : Nat × Nat := (carveBase s / 2097152, dramSize s / 2097152 - carveBase s / 2097152)

/-- Whether a range lies in a pool, clear of what is taken. -/
def spotOk (pool : Nat × Nat) (taken : List (Nat × Nat)) (b n : Nat) : Bool :=
  pool.1 ≤ b && b + n ≤ pool.1 + pool.2 && !(taken.any fun t => overlap t (b, n))

/-- The Hamper-carved window: granted at the lowest free DPA, or grown in place; what is new reads as zeros (R443). -/
def placeHam (f n : Nat) (s : State) : Except Nat State :=
  let h := hamHeld f s
  let pool := ((region 3 s).1 / 65536, (region 3 s).2 / 65536)
  if n ≤ h then .ok s
  else if h = 0 then
    match findSpot (0, 128) (hamDpas f s) 1 n, findSpot pool (hamPlaces f s) 1 n with
    | some d, some b =>
      .ok (s |> regSet (pgCxlH + 0x100 + 8 * f) (2 ^ 63 + n * 2 ^ 40 + d * 2 ^ 24 + b) |> hamZero (b * 65536) (n * 65536) false)
    | _, _ => .error 0x2A
  else
    let v := hamCarve f s
    let b := bits v 9 0
    if spotOk (0, 128) (hamDpas f s) (bits v 30 24) n && spotOk pool (hamPlaces f s) b n then
      .ok (s |> regSet (pgCxlH + 0x100 + 8 * f) (setBits v 47 40 n) |> hamZero ((b + h) * 65536) ((n - h) * 65536) false)
    else .error 0x2A

/-- The DRAM-carved window, as `placeHam`. -/
def placeDram (f n : Nat) (s : State) : Except Nat State :=
  let h := dramHeld f s
  if n ≤ h then .ok s
  else if h = 0 then
    match findSpot (0, 8192) (dramDpas f s) 1 n, findSpot (carvePool s) (dramPlaces f 128 s) 1 n with
    | some d, some b =>
      .ok (s |> regSet (pgCxlH + 0x500 + 8 * f) (2 ^ 63 + n * 2 ^ 48 + d * 2 ^ 32 + b) |> dramZero (b * 2097152) (n * 2097152))
    | _, _ => .error 0x2C
  else
    let v := dramCarve f s
    let b := bits v 16 0
    if spotOk (0, 8192) (dramDpas f s) (bits v 44 32) n && spotOk (carvePool s) (dramPlaces f 128 s) b n then
      .ok (s |> regSet (pgCxlH + 0x500 + 8 * f) (setBits v 61 48 n) |> dramZero ((b + h) * 2097152) ((n - h) * 2097152))
    else .error 0x2C

/-- The heap: granted at the lowest free DRAM range, or grown in place (R443). -/
def placeHeap (f n : Nat) (s : State) : Except Nat State :=
  let x := fnGet f s
  if n ≤ x.heapSize then .ok s
  else if x.heapSize = 0 then
    match findSpot (carvePool s) (dramPlaces 128 f s) 1 n with
    | some b => .ok (fnSet f { x with heapBase := b, heapSize := n } s)
    | none => .error 0x30
  else if spotOk (carvePool s) (dramPlaces 128 f s) x.heapBase n then .ok (fnSet f { x with heapSize := n } s)
  else .error 0x30

/-- Every carved resource of a Portion, in the order of the record. -/
def carveAll (f : Nat) (p : Portion) (s : State) : Except Nat State :=
  match placeGroup f p s with
  | .error e => .error e
  | .ok s1 => match placeHam f p.hdmHam s1 with
    | .error e => .error e
    | .ok s2 => match placeDram f p.hdmDram s2 with
      | .error e => .error e
      | .ok s3 => placeHeap f p.heap s3

/-! ### Cuts (R444) -/

/-- The function uses more than a Portion's occupancy fields allow, by bit of `FUN_STAT`.PENDING. -/
def overUse (f : Nat) (p : Portion) (s : State) : List Bool :=
  [p.slots < fnInFlight f true s, p.hamper * 4096 < (fnGet f s).hamUse, p.hedTiles < tilesHeld f s, p.hdmHam < hamHeld f s,
   p.hdmDram < dramHeld f s, p.heap < (fnGet f s).heapSize]

/-- The mask that a list of six flags spells. -/
def maskOf (l : List Bool) : Nat := l.foldr (fun b m => b2n b + 2 * m) 0

/-- `FUN_STAT`.PENDING: a cut of R444 whose use does not fit yet. -/
def pendingMask (f : Nat) (s : State) : Nat := Nat.land (fnGet f s).pendingCut.toNat (maskOf (overUse f (portionOf f s) s))

/-- Releases the top tiles of a group that was cut, once its valid entries fit below them: a PACK brings down those that lie above (R293),
GEN advances, and a group of no tiles is disabled (R444). -/
def groupShrink (f : Nat) (s : State) : State :=
  match (fnGet f s).group with
  | none => s
  | some g =>
    let v := grpCfg g s
    let t := (portionOf f s).hedTiles
    let n := (hedValid g s).length
    if cfgTiles v ≤ t || grpFenced g s || 2048 * t / grpW g s < n then s
    else
      let gone := (List.range (cfgTiles v - t)).map (· + cfgBase v + t)
      let s := if (hedValid g s).any fun i => 2048 * t / grpW g s ≤ i then hedCompact g false s else s
      let s1 := genStep g 1 { s with hed := s.hed.filter fun e => !gone.contains (e.1 / 2048) }
      if t = 0 then s1 |> regSet (pgGrp g + 0x100) 0x1800 |> fnMod f (fun x => { x with group := none }) |> recordCarve f
      else s1 |> regSet (pgGrp g + 0x100) (setBits v 20 16 t) |> recordCarve f

/-- A command or a run of the function in flight addresses its result window (R444). -/
def windowUsed (f : Nat) (s : State) : Bool :=
  (s.qe.ctxs.any fun e => e.2.used && e.2.fn = f && e.2.sq ≠ 0 && sqeOp e.2.sqe = 0x8A && srToWindow e.2.sqe) ||
  s.runs.any fun e => e.2.used && e.2.fn = f && e.2.wins.any fun w => w.2.space = 3

/-- Shrinks the windows and the heap that were cut, at a bolt boundary (R444). -/
def carveShrink (f : Nat) (s : State) : State :=
  let p := portionOf f s
  let runs := s.runs.any fun e => e.1 ≠ fwRun && e.2.used && e.2.fn = f
  let cut (a hi lo n : Nat) (s : State) : State :=
    regSet a (if n = 0 then 0 else setBits (regGet a s) hi lo n) s
  let s1 := if p.hdmHam < hamHeld f s && !windowUsed f s then cut (pgCxlH + 0x100 + 8 * f) 47 40 p.hdmHam s else s
  let s2 := if p.hdmDram < dramHeld f s1 && !windowUsed f s1 then cut (pgCxlH + 0x500 + 8 * f) 61 48 p.hdmDram s1 else s1
  let s3 := if p.heap < (fnGet f s2).heapSize && !runs then fnMod f (fun x => { x with heapSize := p.heap }) s2 else s2
  if pendingMask f s = pendingMask f s3 then s3 else recordCarve f s3

/-! ### Set Portion and Get Portion -/

/-- The commit point of a Set Portion (R441, R444, R445): the record is durable, cuts are pending, and the events go out. -/
def setPortionAct (c f : Nat) (p : Portion) (s : State) : State :=
  let old := portionOf f s
  match carveAll f p s with
  | .error off => finishDw c vsPortion off 0 s
  | .ok s1 =>
    let keep (x : Fn) : Fn := if x.refill.isEmpty then { x with refill := refillOf old 65536 } else x
    let s2 := fnMod f keep (recordPortion f p s1)
    let mask := maskOf (overUse f p s2)
    let s3 := s2 |> fnMod f (fun x => { x with pendingCut := BitVec.ofNat 6 mask }) |> recordCarve f
    let s4 := match (fnGet f s3).group with
      | some g => if p.hedTiles < tilesHeld f s3 then groupShrink f (hedCompact g false s3) else s3
      | none => s3
    let s5 := if old = p then s4
      else
        let s5 := note 0x6181 (pgFun f) f s4
        vendorEvent f 0x02 0xC2 (if mask = 0 then s5 else note 0x6182 (pgFun f) mask s5)
    finishDw c stOk mask 0 s5

/-- SET_PORTION (R442). -/
def setPortion (c : Nat) (s : State) : State :=
  match critGate c s with
  | some t => t
  | none =>
    let x := ctxGet c s
    let f := dword x.sqe 10 % 128
    match hostData c 64 s with
    | (none, t) => t
    | (some b, t) => if 128 ≤ dword x.sqe 10 || !ptOk f b then finish c stField t else setPortionAct c f (ptParse b) t

def execSetPortion (ctx : Nat) (s : State) : Host.Outcome State Fault Refusal :=
  .next (if holdsCmd ctx 0xC5 false s then setPortion ctx s else s)

/-- Units of `n` rounded up. -/
def upTo (u n : Nat) : Nat := cdiv n u

/-- Bytes 0x40 to 0x7F of R446: the usage. -/
def usageBytes (f : Nat) (s : State) : Bytes :=
  let u (r : Nat) : Nat := usedOf f r s
  let x := fnGet f s
  natLe 2 (fnInFlight f true s) ++ natLe 2 (u rIrq) ++ natLe 4 (upTo 4096 (u rHostRd)) ++ natLe 4 (upTo 4096 (u rHostWr)) ++
  natLe 4 (u rFlash) ++ natLe 2 (upTo 6400 (u rCore)) ++ natLe 2 (u rTwc) ++ natLe 2 (u rTwd) ++ natLe 2 (u rDig) ++
  natLe 2 (u rKck) ++ natLe 2 (u rScn) ++ natLe 4 (upTo 4096 x.hamUse) ++ natLe 4 (u rRepair) ++
  natLe 4 (b2n (fenced (pgFun f) s) + 2 * b2n x.dlog.active + 256 * pendingMask f s) ++ zeros 24

/-- The 256 bytes of Get Portion and of log page 0xC2 (R446). -/
def portionEntry (f : Nat) (s : State) : Bytes :=
  let x := fnGet f s
  let h := hamCarve f s
  let d := dramCarve f s
  let grp := match x.group with
    | some g => let v := grpCfg g s; natLe 1 g ++ natLe 1 (cfgBase v) ++ natLe 1 (cfgTiles v) ++ natLe 1 (bits v 2 1)
    | none => natLe 1 0xFF ++ zeros 3
  ptBytes f (portionOf f s) ++ usageBytes f s ++ natLe 2 (bits h 30 24) ++ natLe 2 (hamHeld f s) ++ natLe 2 (bits d 44 32) ++
  natLe 2 (dramHeld f s) ++ grp ++ natLe 4 x.heapSize ++ zeros 112

/-- Delivers the data of an admin command and completes it; its transfer waits for Bus Master Enable (R450). -/
def adminData (c : Nat) (bs : Bytes) (s : State) : State :=
  match bufferOf c bs.length s with
  | (none, t) => t
  | (some _, t) => if !(fnGet (ctxGet c t).fn t).bme then t else t |> sendData (ctxGet c t) bs.length 0 bs false |> finish c stOk

/-- GET_PORTION (R446): a VF reads its own. -/
def execGetPortion (ctx : Nat) (s : State) : Host.Outcome State Fault Refusal :=
  .next (if holdsCmd ctx 0xC6 false s then
    let x := ctxGet ctx s
    adminData ctx (portionEntry (if x.fn = 0 then dword x.sqe 10 % 128 else x.fn) s) s
  else s)

end Sys2Proof.Machine
end

