-- ==== Sys2Proof/Machine/Function.lean ====
section
/-!
DEFINITION. Functions and their controllers from outside: enabling and shutting down a controller (R94, R95), FLR, VF Enable, Bus
Master Enable and Memory Space Enable (R432, R449 to R451), function fences (R457), killing runs (R445), dirty-page logging (R452
to R455).
-/
namespace Sys2Proof.Machine

/-! ### Squashing a function's work (R94) -/

/-- Ends a self-test with a result (R94, R99). -/
def selfTestStop (result : Nat) (s : State) : State :=
  let t := s.qe.selfTest
  if !t.running then s
  else { s with qe := { s.qe with selfTest :=
    { t with running := false, results := ((if t.extended then 2 else 1, result, t.fn) :: t.results).take 20 } } }

/-- Completion entries that wait are not posted any more: their commands are squashed (R94 step 6, R450). -/
def cplDrop (f : Nat) (s : State) : State :=
  let n := (fnGet f s).waitCpl.length
  if n = 0 then s else regAdd (pgQenP + 0x118) n (fnMod f (fun x => { x with waitCpl := [] }) s)

/-- Stops a function's work (R94 steps 2 to 6): its runs, Shuttle descriptors, engine jobs and commands. With a status the
commands end with it, those claimed at the poster apart (R457); without one they are squashed. -/
def fnStop (f : Nat) (st : Option Status) (s : State) : State :=
  let kept (c : Nat) (s : State) : Bool := st.isSome && (ctxGet c s).claimed
  let own (_ : Option Back) (g : Nat) : Bool := g = f
  let runs := tfind (fun r q => r ≠ fwRun && q.used && q.fn = f) s.runs
  let s1 := runs.foldl (fun s r => if kept (runGet r s).ctx s then s else runKill r (st.map fun e => (e, 0, 0)) s) s
  let s2 := (List.range 64).foldl (fun s k => shuSquash k 0x09 own s) s1
  let s3 := allEngines.foldl (fun s a => engSquash a 0x09 own s) s2
  let s4 := (tfind (fun _ x => x.used && x.fn = f) s3.qe.ctxs).foldl (fun s c => match st with
    | none => squash c s
    | some e => if kept c s then s else s |> slotDrop c |> finish c e |> slotSweep |> discSweep) s3
  digReleaseAll (fun u => u = .queue f) (if st.isNone then cplDrop f s4 else s4)

/-- A fatal state or the loss of both house clusters keeps CSTS.CFS set (R361, R466). -/
def cfsStands (f : Nat) (s : State) : Bool :=
  s.boot.phase = .fatal || (fnGet f s).fenced || (fenced (pgIzc 0) s && fenced (pgIzc 1) s)

/-- The controller's registers, queues and features at their reset values (R69, R76, R94); what the function keeps stays. -/
def ctlClear (f : Nat) (shst : Nat) (s : State) : State :=
  let s1 := fnMod f (fun x => {
    x with cc := 0, aqa := 0, asq := 0, acq := 0, rdy := false, cfs := cfsStands f s, shst := shst, enabling := none,
           draining := false, shutFlush := none, sqs := [], cqs := [], ab := 7, tempOver := none, tempUnder := 0, nsqReq := 0, ncqReq := 0,
           coalThr := 0, coalTime := 0, vecCd := [], aec := 0, pickWin := 0, aers := [], held := [], maskedEvs := [], arm := none,
           rrSq := 0, coal := [] }) s
  let s2 := if s1.qe.selfTest.running && s1.qe.selfTest.fn = f then selfTestStop 2 s1 else s1
  if f = 0 then { s2 with qe := { s2.qe with pmState := 0, apstOn := false, apst := [] } } else s2

/-- A controller reset acts (R94, R95): the admin queue registers are kept (R464). -/
def ctlReset (f : Nat) (shst : Bool) (s : State) : State :=
  let x := fnGet f s
  s |> fnStop f none |> ctlClear f (if shst then 2 else 0)
    |> fnMod f (fun y => { y with aqa := x.aqa, asq := x.asq, acq := x.acq })

/-- CC_EN_CLEAR (R95): CC.EN 1 to 0; the reset acts at the next pick boundary. -/
def execCcEnClear (fn : Nat) (s : State) : Host.Outcome State Fault Refusal :=
  if fn < 128 then
    .next (if bar0 fn s && bit (fnGet fn s).cc.toNat 0 then
      later (.ctlReset fn false) (fnMod fn (fun x => { x with cc := BitVec.ofNat 32 (setBit x.cc.toNat 0 false) }) s) else s)
  else .fault .noSuchUnit

/-- CC_EN_SET (R95): CC.EN 0 to 1 with the admin queues that AQA, ASQ and ACQ name; CSTS.RDY follows at a pick boundary. -/
def execCcEnSet (fn : Nat) (cc aqa : W32) (asq acq : W64) (s : State) : Host.Outcome State Fault Refusal :=
  if fn < 128 then
    .next (if bar0 fn s && !bit (fnGet fn s).cc.toNat 0 && bit cc.toNat 0 then
      fnMod fn (fun x => {
        x with cc := cc, aqa := aqa, asq := asq, acq := acq, enabling := some (pickN s), shst := 0,
               sqs := tset {} 0 { base := asq.toNat, size := bits aqa.toNat 11 0 + 1 } x.sqs,
               cqs := tset {} 0 { base := acq.toNat, size := bits aqa.toNat 27 16 + 1, ien := true } x.cqs }) s else s)
  else .fault .noSuchUnit

/-- NORMAL_SHUTDOWN (R95): CC.SHN = 0b01. Fetch stops; SHST reads 0b01 until the commands in flight and a Flush have ended. -/
def execNormalShutdown (fn : Nat) (s : State) : Host.Outcome State Fault Refusal :=
  if fn < 128 then
    .next (if bar0 fn s && (fnGet fn s).rdy && (fnGet fn s).shst = 0 then
      fnMod fn (fun x => { x with draining := true, shutFlush := none, shst := 1, cc := BitVec.ofNat 32 (setBits x.cc.toNat 15 14 1) }) s else s)
  else .fault .noSuchUnit

/-- Commands of a controller in flight, outstanding Asynchronous Event Requests apart. -/
def liveCmds (f : Nat) (s : State) : List Nat :=
  tfind (fun c x => x.used && x.fn = f && !(fnGet f s).aers.contains c) s.qe.ctxs

/-- The commands of a draining controller have ended, their completion entries written: the Flush of its namespaces is taken, in the
fetch order of this moment (R93, R95). -/
def shutdownFlush (f : Nat) (s : State) : State :=
  let x := fnGet f s
  if x.draining && x.shutFlush.isNone && (liveCmds f s).isEmpty && x.waitCpl.isEmpty
  then fnMod f (fun y => { y with shutFlush := some s.qe.order }) s else s

/-- The Flush of a draining controller has ended: no write that it covers is left in staging (R93). -/
def drained (f : Nat) (s : State) : Bool :=
  match (fnGet f s).shutFlush with
  | some o => !(s.jnl.slots.any fun e => e.2.used && e.2.released.isNone && e.2.posted ≠ 0 && e.2.posted ≤ o &&
      (nsGet e.2.nsid s).attached.contains f)
  | none => false

/-- CSTS.SHST = 0b10 once the shutdown is over. -/
def shutdownEnd (f : Nat) (s0 : State) : State :=
  let s := shutdownFlush f s0
  if (fnGet f s).draining && drained f s then fnMod f (fun x => { x with draining := false, shst := 2 }) s else s

/-- ABRUPT_SHUTDOWN (R95): CC.SHN = 0b10, as CC.EN 1 to 0. -/
def execAbruptShutdown (fn : Nat) (s : State) : Host.Outcome State Fault Refusal :=
  if fn < 128 then .next (if bar0 fn s && bit (fnGet fn s).cc.toNat 0 then later (.ctlReset fn true) s else s)
  else .fault .noSuchUnit

/-! ### FLR, VF Enable (R449, R451) -/

/-- Ends all dirty-page logging; the shadows are discarded (R455). -/
def dlogEndAll (s : State) : State :=
  (tkeys s.fns).foldl (fun s f => fnMod f (fun x => { x with dlog := { x.dlog with active := false, ovf := false, bits := [], dirty := [] } }) s) s

/-- A function returns to reset state: work squashed, images unloaded, interrupts and configuration cleared, its fence released
(R69, R364, R451, R457). -/
def fnReset (f : Nat) (s : State) : State :=
  let s1 := s |> fnStop f none |> unloadAll f
  let s2 := if fenced (pgFun f) s1 && (fnGet f s1).fenced then regSet (pgFun f + 0x044) 0 s1 else s1
  s2 |> fnMod f (fun x => { x with fenced := false, bme := false, mse := false, unmasked := [], msixTab := [], pba := [], heldVecs := [] })
     |> ctlClear f 0

/-- The FLR of one function is complete: `FUN_FLRS` and event 0x6185 (R458, R459). -/
def flrDone (f : Nat) (s : State) : State :=
  s |> fnReset f |> fnMod f (fun x => { x with flrAt := none }) |> regAdd32 (pgFun f + 0x250) 1 |> note 0x6185 (pgFun f) f

/-- An FLR acts; that of F0 takes every VF with it, clears VF Enable and ends all logging (R449, R455). -/
def flrAct (f : Nat) (s : State) : State :=
  if f = 0 then
    let vfs := (List.range 128).filter fun v => v ≠ 0 && fnPresent v s
    let s1 := flrDone 0 (vfs.foldl (fun s v => flrDone v s) s)
    dlogEndAll { s1 with cxl := { s1.cxl with vfEnable := false } }
  else flrDone f s

/-- FLR (R94, R449): it acts at the next pick boundary. -/
def execFlr (fn : Nat) (s : State) : Host.Outcome State Fault Refusal :=
  if fn < 128 then
    .next (if cfgUp fn s then later (.flr fn) (fnMod fn (fun x => { x with flrAt := some (pickN s) }) s) else s)
  else .fault .noSuchUnit

/-- VF_ENABLE_CLEAR (R432, R449): no VF is present any more; each is reset as by its FLR. -/
def execVfEnableClear (s : State) : Host.Outcome State Fault Refusal :=
  .next (if s.cxl.up && s.cxl.vfEnable then
    let vfs := (List.range 128).filter fun v => v ≠ 0 && fnPresent v s
    vfs.foldl (fun s v => later (.flr v) s) { s with cxl := { s.cxl with vfEnable := false } } else s)

/-- VF_ENABLE_SET (R432): VF Enable 0 to 1 with NumVFs. -/
def execVfEnableSet (num : Nat) (s : State) : Host.Outcome State Fault Refusal :=
  .next (if !s.cxl.up || s.cxl.vfEnable || 127 < num then s else { s with cxl := { s.cxl with vfEnable := true, numVfs := num } })

/-! ### Bus Master Enable and Memory Space Enable (R449, R450) -/

/-- BUS_MASTER_ENABLE_CLEAR (R450). -/
def execBusMasterEnableClear (fn : Nat) (s : State) : Host.Outcome State Fault Refusal :=
  if fn < 128 then .next (if cfgUp fn s then fnMod fn (fun x => { x with bme := false }) s else s) else .fault .noSuchUnit

/-- Sends the messages whose pending bits waited for Bus Master Enable. -/
def sendPending (f : Nat) (s : State) : State :=
  let l := (tkeys (fnGet f s).pba).filter fun v => tget false (fnGet f s).unmasked v
  l.foldl (fun s v => s |> fnMod f (fun x => { x with pba := tset false v false x.pba }) |> msix f v) s

/-- BUS_MASTER_ENABLE_SET (R450): the waiting work resumes. The host sets Memory Space Enable in the same write of the Command
register: the table has no command of its own for it (DESIGN CHOICE, log entry 38). -/
def execBusMasterEnableSet (fn : Nat) (s : State) : Host.Outcome State Fault Refusal :=
  if fn < 128 then
    .next (if cfgUp fn s then
      let s1 := fnMod fn (fun x => { x with bme := true, mse := true }) s
      sendPending fn (drainCpl fn (fnGet fn s1).waitCpl s1) else s)
  else .fault .noSuchUnit

/-- MEMORY_SPACE_ENABLE_CLEAR (R449). -/
def execMemorySpaceEnableClear (fn : Nat) (s : State) : Host.Outcome State Fault Refusal :=
  if fn < 128 then .next (if cfgUp fn s then fnMod fn (fun x => { x with mse := false }) s else s) else .fault .noSuchUnit

/-! ### Function fences and the killing of runs -/

/-- A function fence acts (R457). -/
def fnFenceAct (f : Nat) (s : State) : State :=
  if !fenced (pgFun f) s || (fnGet f s).fenced then s
  else s |> fnStop f (some vsFnFenced) |> fnMod f (fun x => { x with fenced := true, cfs := true })

/-- A write of `FUN_CTL` (R445): KILL_RUNS kills every run of the function at the next pick boundary. -/
def killRuns (f v : Nat) (s : State) : State :=
  let runs := tfind (fun r q => r ≠ fwRun && q.used && q.fn = f) s.runs
  if bit v 0 && !runs.isEmpty then note 0x6186 (pgFun f) f (runs.foldl (fun s r => later (.killRun r stAbort 0 0) s) s) else s

def execKillRuns (fn : Nat) (value : W32) (s : State) : Host.Outcome State Fault Refusal :=
  if fn < 128 then .next (if fenced (pgFun fn) s then s else killRuns fn value.toNat s) else .fault .noSuchUnit

/-- Sends the held messages of a function, lowest vector first, as far as the new budget goes (R448). -/
def heldSend (f : Nat) (s : State) : State :=
  let l := ((List.range 2048).filter (fnGet f s).heldVecs.contains)
  l.foldl (fun s v => if spent f rIrq s then s
    else s |> fnMod f (fun x => { x with heldVecs := x.heldVecs.filter (· ≠ v) }) |> msix f v) s

/-! ### Dirty-page logging (R452 to R455) -/

/-- The 64 bytes of a line of a function's active bitmap. -/
def dlogLine (f line : Nat) (s : State) : Bytes :=
  (List.range 64).map fun i =>
    BitVec.ofNat 8 (((List.range 8).filter fun b => tget false (fnGet f s).dlog.bits (512 * line + 8 * i + b)).foldl (fun v b => v + 2 ^ b) 0)

/-- Writes a changed line to the host, with F0's requester ID, charged to no function and not logged (R453). -/
def dlogPut (f line : Nat) (s : State) : State :=
  let d := (fnGet f s).dlog
  if tget 0 d.dirty line = 0 then s
  else s |> emit (.host 0 (d.addr + 64 * line) (dlogLine f line s) false)
         |> fnMod f (fun x => { x with dlog := { d with dirty := tdel line d.dirty } }) |> regAdd (pgFun f + 0x320) 1

/-- Writes every changed line. -/
def dlogFlush (f : Nat) (s : State) : State := (tkeys (fnGet f s).dlog.dirty).foldl (fun s l => dlogPut f l s) s

/-- DIRTY_LINE_WRITE (R453). -/
def execDirtyLineWrite (fn line : Nat) (s : State) : Host.Outcome State Fault Refusal :=
  if fn < 128 then .next (if (fnGet fn s).dlog.active && (fnGet 0 s).bme then dlogPut fn line s else s) else .fault .noSuchUnit

/-- Operation of a Log Swap: 0 START, 1 SWAP, 2 STOP (R452). -/
def lsOp (e : Sqe) : Nat := bits (dword e 10) 9 8
def lsFunc (e : Sqe) : Nat := dword e 10 % 128
def lsAddr (e : Sqe) : Nat := dword e 11 + 2 ^ 32 * dword e 12
def lsBase (e : Sqe) : Nat := dword e 13 + 2 ^ 32 * dword e 14

/-- The fields of a Log Swap are in range (R452). -/
def lsOk (e : Sqe) : Bool :=
  lsOp e < 3 && (lsOp e = 2 || lsAddr e % 64 = 0) &&
  (lsOp e ≠ 0 || (lsBase e % 4096 = 0 && 1 ≤ dword e 15 && dword e 15 ≤ 2 ^ 28))

/-- Functions that log, or whose START waits for its boundary. -/
def loggers (s : State) : List Nat :=
  let on := tfind (fun _ x => x.dlog.active) s.fns
  on ++ s.due.filterMap fun d => match d with
    | .logSwap c => let x := ctxGet c s
                    if x.used && lsOp x.sqe = 0 && !on.contains (lsFunc x.sqe) then some (lsFunc x.sqe) else none
    | _ => none

/-- The checks of a Log Swap; a good one acts at the next pick boundary (R452, R454). -/
def logSwap (c : Nat) (s : State) : State :=
  let x := ctxGet c s
  let e := x.sqe
  let on := (loggers s).contains (lsFunc e)
  if x.started then s
  else if !lsOk e then finish c stField s
  else if (lsOp e = 0 && (on || 8 ≤ (loggers s).length)) || (lsOp e ≠ 0 && !on) then finish c stSequence s
  else later (.logSwap c) (ctxSet c { x with started := true } s)

/-- A Log Swap acts at pick boundary P (R454). -/
def logSwapAct (c : Nat) (s : State) : State :=
  let x := ctxGet c s
  let e := x.sqe
  let f := lsFunc e
  if !x.used || sqeOp e ≠ 0xDC || !x.started then s
  else if lsOp e = 0 then
    s |> fnMod f (fun y => { y with dlog := { active := true, addr := lsAddr e, base := lsBase e, pages := dword e 15 } }) |> finish c stOk
  else
    let p := pickN s
    let s1 := dlogFlush f s
    let d := (fnGet f s1).dlog
    let d1 : DirtyLog := { d with active := lsOp e = 1, addr := if lsOp e = 1 then lsAddr e else d.addr, ovf := false, bits := [] }
    s1 |> fnMod f (fun y => { y with dlog := d1 }) |> regSet (pgFun f + 0x318) p |> note 0x6183 (pgFun f) f
       |> finishDw c stOk (p % 2 ^ 32) (b2n d.ovf)

/-- A Log Swap of an operation; codes that name none are refused with the START row. -/
def logRow (c op : Nat) (s : State) : State :=
  let e := (ctxGet c s).sqe
  if holdsCmd c 0xDC false s && (lsOp e = op || (op = 0 && lsOp e = 3)) then logSwap c s else s

/-- LOG_SWAP_START (R452). -/
def execLogSwapStart (ctx : Nat) (s : State) : Host.Outcome State Fault Refusal := .next (logRow ctx 0 s)
/-- LOG_SWAP_SWAP (R454). -/
def execLogSwapSwap (ctx : Nat) (s : State) : Host.Outcome State Fault Refusal := .next (logRow ctx 1 s)
/-- LOG_SWAP_STOP (R454). -/
def execLogSwapStop (ctx : Nat) (s : State) : Host.Outcome State Fault Refusal := .next (logRow ctx 2 s)

end Sys2Proof.Machine
end

