-- ==== Sys2Proof/Machine/Cxl.lean ====
section
/-!
DEFINITION. The CXL attachment (R53 to R71): link training and loss, HDM decoders and result windows, CXL.mem, the mailbox and
DOE.
-/
namespace Sys2Proof.Machine

def cxlMod (g : Cxl → Cxl) (s : State) : State := { s with cxl := g s.cxl }

/-! ### The link (R55, R57, R69) -/

/-- The part may train the link: it is out of power-on reset, PERST_N is high, and the power-fail sequence has not begun (R69). -/
def mayTrain (s : State) : Bool := s.boot.phase ≠ .held && s.boot.holdUntil ≤ pickN s && !s.boot.perstLow && s.jnl.pf = .none

/-- Every function returns to reset state, all logging ends, VF Enable clears and the decoders become uncommitted (R69, R455). -/
def fnsReset (s : State) : State :=
  let s1 := (List.range 128).foldl (fun s f => if fnPresent f s then fnReset f s else s) s
  cxlMod (fun x => { x with vfEnable := false, numVfs := 0, dec0 := {}, dec1 := {}, irqPolicy := 0, mboxCmd := 0, mboxCode := 0, mboxData := [] })
    (dlogEndAll s1)

/-- READY_TO_REMOVE is lit (R489, R492). -/
def removalReady (s : State) : Bool := s.svc.removal = .ready

/-- The link is lost: the count advances at once, the rest acts at the next pick boundary (R69). `detect` holds the link in Detect
below four lanes (R55). -/
def linkLost (detect : Bool) (s : State) : State :=
  s |> cxlMod (fun x => { x with up := false, width := 0, speed := 0, flit256 := false, uio := false, retraining := false, memWait := [],
                                 detectFrom := if detect then some (boltN s) else none })
    |> regAdd32 (pgCxl + 0x108) 1 |> later .linkDown

/-- A link-down acts (R69): with the power-fail sequence triggered, it leaves everything to the sequence. -/
def linkDownAct (s : State) : State :=
  if s.jnl.pf ≠ .none then s
  else note (if removalReady s then 0x7081 else 0x7001) pgCxl 0 (fnsReset s)

/-- LINK_DOWN (R69). -/
def execLinkDown (s : State) : Host.Outcome State Fault Refusal := .next (if s.cxl.up then linkLost false s else s)

/-- LINK_UP (R55, R69): training ends with `width` usable lanes at speed code `speed`, and the lanes of mask `lanes` excluded. -/
def execLinkUp (width speed : Nat) (flit uio : Bool) (lanes : Nat) (s : State) : Host.Outcome State Fault Refusal :=
  if s.cxl.up || !mayTrain s || s.cxl.detectFrom.isSome then .next s
  else if width < 4 then
    .next (note 0x7003 pgCxl width (cxlMod (fun x => { x with detectFrom := some (boltN s), retraining := false }) s))
  else
    let w := if 16 ≤ width then 16 else if 8 ≤ width then 8 else 4
    let v := min speed (regFld (pgCxl + 0x104) 7 4 s)
    .next (note 0x7082 pgCxl w (cxlMod (fun x => {
      x with up := true, width := w, speed := v, flit256 := flit || v = 6, uio := uio && (flit || v = 6),
             laneFail := BitVec.ofNat 16 lanes, retraining := false })
      { s with party := { s.party with hbDue := true } }))

/-- LINK_RECOVERY (R57): Recovery ends with `width` usable lanes at speed code `speed`; below four lanes the link goes down. -/
def execLinkRecovery (width speed : Nat) (s : State) : Host.Outcome State Fault Refusal :=
  if !s.cxl.up then .next s
  else
    let s1 := regAdd (pgCxl + 0x110) 1 (cxlMod (fun x => { x with retraining := false }) s)
    if width < 4 then .next (note 0x7003 pgCxl width (linkLost true s1))
    else
      let w := if 16 ≤ width then 16 else if 8 ≤ width then 8 else 4
      let v := min speed (regFld (pgCxl + 0x104) 7 4 s)
      let s2 := if w < s.cxl.width then note 0x7002 pgCxl w s1 else s1
      let s3 := if v < s.cxl.speed then note 0x7004 pgCxl v s2 else s2
      .next (cxlMod (fun x => { x with width := w, speed := v }) s3)

/-- LINK_TRAINING_RETRY (R55): 64 bolts after it was held in Detect the link trains again. -/
def execLinkTrainingRetry (s : State) : Host.Outcome State Fault Refusal :=
  .next (match s.cxl.detectFrom with
    | some b => if b + 64 ≤ boltN s && mayTrain s then cxlMod (fun x => { x with detectFrom := none }) s else s
    | none => s)

/-- A write of `CXL_LINK_CTL` (R70): MAX_SPEED, and RETRAIN, which also ends the wait in Detect. -/
def linkCtl (v : Nat) (s : State) : State :=
  let (m, s1) := mergeRw (pgCxl + 0x104) 31 0 v s
  let s2 := regSet (pgCxl + 0x104) m s1
  if bit v 0 && mayTrain s then cxlMod (fun x => { x with retraining := true, detectFrom := none }) s2 else s2

/-- RETRAIN (R70). -/
def execRetrain (value : W32) (s : State) : Host.Outcome State Fault Refusal :=
  .next (if fenced pgCxl s then s else linkCtl value.toNat s)

/-- PERST_ASSERT (R474): the fundamental reset; as a link-down, or, when `RST_CFG`.PERST_FULL is 1, a reset that acts as a device reset
and leaves PERST as its cause (R51). -/
def execPerstAssert (s : State) : Host.Outcome State Fault Refusal :=
  if s.boot.perstLow || s.boot.phase = .held then .next s
  else
    let s1 := regSet (pgGlb + 0x11C) (setBit (regGet (pgGlb + 0x11C) s) 1 true) { s with boot := { s.boot with perstLow := true } }
    let s2 := if s1.cxl.up then linkLost false s1 else s1
    .next (if regFld (pgClk + 0x184) 1 1 s = 1 && !s.boot.stuck then later (.reset 3 (pickN s + 1)) s2 else s2)

/-- PERST_DEASSERT (R474): link training may begin. -/
def execPerstDeassert (s : State) : Host.Outcome State Fault Refusal :=
  .next { s with boot := { s.boot with perstLow := false } }

/-! ### Decoders and windows (R60 to R62) -/

/-- HDM_DECODER_COMMIT (R60): decoder 0 over the first 256 MiB of DPA, decoder 1 over the 16 GiB that follow it, one way. -/
def execHdmDecoderCommit (dec base size ways : Nat) (commit : Bool) (s : State) : Host.Outcome State Fault Refusal :=
  if 2 ≤ dec then .fault .noSuchUnit
  else
    let put (d : Decoder) (s : State) : State := cxlMod (fun x => if dec = 0 then { x with dec0 := d } else { x with dec1 := d }) s
    let old := if dec = 0 then s.cxl.dec0 else s.cxl.dec1
    let good := ways = 1 && (if dec = 0 then size = 2 ^ 28 else size = 2 ^ 34 && s.cxl.dec0.committed)
    if !bar0 0 s then .next s
    else if !commit then .next (put {} s)
    else if good then .next (put { hpa := base, committed := true } s)
    else .next (note 0x700A pgCxlH dec (put { old with err := true } s))

/-- The DPA of a host physical address; none outside the committed decoders. -/
def dpaOf (hpa : Nat) (s : State) : Option Nat :=
  let a := s.cxl.dec0
  let b := s.cxl.dec1
  if a.committed && a.hpa ≤ hpa && hpa < a.hpa + 2 ^ 28 then some (hpa - a.hpa)
  else if b.committed && b.hpa ≤ hpa && hpa < b.hpa + 2 ^ 34 then some (2 ^ 28 + (hpa - b.hpa))
  else none

/-- Where a DPA lies: memory space and address; none outside every valid window (R60, R62). -/
def windowOf (dpa : Nat) (s : State) : Option (Nat × Nat) :=
  (List.range 128).findSome? fun f =>
    let h := hamWindow f s
    let d := dramWindow f s
    let hb := bits (hamCarve f s) 30 24 * 65536
    let db := 2 ^ 28 + bits (dramCarve f s) 44 32 * 2097152
    if hb ≤ dpa && dpa < hb + h.2 then some (0, h.1 + (dpa - hb))
    else if db ≤ dpa && dpa < db + d.2 then some (1, d.1 + (dpa - db))
    else none

/-- Zeroes every window: the restart, before CXL.mem is served (R61). -/
def windowsZero (s : State) : State :=
  (List.range 128).foldl (fun s f =>
    let h := hamWindow f s
    let d := dramWindow f s
    s |> hamZero h.1 h.2 false |> dramZero d.1 d.2) s

/-! ### CXL.mem (R62 to R65) -/

/-- The part serves CXL.mem: the restart is over and the power-fail sequence has not begun (R61, R167). Before that, and while the CXL
traffic page is fenced, a read is answered with zeros and poison and a write is dropped (DEDUCED, log entry 66). -/
def memServed (s : State) : Bool := s.jnl.indexed && !pfOn s && !fenced pgCxlT s

/-- A line that is answered with zeros and poison. -/
def memPoison (s : State) : State := s |> emit (.memData (zeros 64) true) |> regAdd (pgCxlT + 0x110) 1

/-- A request waits: its line of the DRAM lies behind a closed crossing (R472), or the part is in PS3 or PS4 or on its way out
(R103). -/
def memHeld (hpa : Nat) (s : State) : Bool :=
  memServed s && (3 ≤ s.pwr.ps || match (dpaOf (hpa / 64 * 64) s).bind fun d => windowOf d s with
  | some (1, a) => dramWaits a 64 s
  | _ => false)

/-- The mailbox timestamp: nanoseconds, from the value set and the picks since (R59, R21). -/
def mboxTime (s : State) : W64 :=
  match s.cxl.timestampSet with
  | some p => s.cxl.timestamp + BitVec.ofNat 64 (4000 * (pickN s - p))
  | none => 0

/-- Adds a General Media Event record (R65); its interrupt goes out as the policy of the failure log asks (R59). -/
def addRecord (dpa : Nat) (s : State) : State :=
  let x := s.cxl
  let e : EventRecord := { handle := x.nextHandle, dpa := dpa, time := mboxTime s }
  let pol := bits x.irqPolicy.toNat 23 16
  let s1 := { s with cxl := { x with events := x.events ++ [e], nextHandle := x.nextHandle % 65535 + 1 } }
  if pol % 4 = 1 && !(fnGet 0 s1).fenced then msix 0 (pol / 16) s1 else s1

/-- A read that the part serves (R62, R64, R65). A request outside every window is noted on the HDM page, whose
`CXL_HDM_OOR_DPA` records it (DEDUCED, log entry 96). -/
def memReadLine (hpa : Nat) (s : State) : State :=
  let s := wake s
  match dpaOf (hpa / 64 * 64) s with
  | none => s
  | some dpa =>
    if !memServed s then memPoison s
    else match windowOf dpa s with
      | none => s |> regSet (pgCxlH + 0x908) dpa |> note 0x7005 pgCxlH dpa |> memPoison
      | some (space, a) =>
        match memRead space a 64 s with
        | none => memPoison (errResp (if space = 0 then 3 else 2) s)
        | some (bs, poison) =>
          let s1 := s |> memMet (.port 0) space a 64 |> regAdd (pgCxlT + 0x100) 1 |> warpMove (if space = 0 then 3 else 2) 0 64
                      |> emit (.memData bs poison)
          if poison then s1 |> regAdd (pgCxlT + 0x110) 1 |> addRecord dpa |> note 0x7086 pgCxlT dpa else s1

/-- A request joins those that wait; it wakes the part. -/
def memQueue (q : MemReq) (s : State) : State := cxlMod (fun x => { x with memWait := x.memWait ++ [q] }) (wake s)

/-- CXL_MEM_READ (R62, R64, R65); a request that has to wait is answered later (R103, R472). -/
def execCxlMemRead (hpa : Nat) (s : State) : Host.Outcome State Fault Refusal :=
  .next (if !s.cxl.up then s
    else if memHeld hpa s then memQueue { hpa := hpa } s else memReadLine hpa s)

/-- Writes the bytes of one codeword that the mask selects: a codeword covered whole takes the line's mark, a partial one keeps
an old mark (R65, R195); poison marks every codeword of the line. -/
def memWordWrite (space a n : Nat) (bs : Bytes) (mask : Nat) (poison : Bool) (s : State) : State :=
  let old := ((memRead space a n s).getD (zeros n, false))
  let all := mask % 2 ^ n = 2 ^ n - 1
  if mask % 2 ^ n = 0 && !poison then s
  else
    let new := (List.range n).map fun i => if bit mask i then bs.getD i 0 else old.1.getD i 0
    let s := if all then s else memMet (.port 0) space a n s
    (memWrite (.port 0) space a new (poison || (!all && old.2)) s).getD s

/-- A write of a line of 64 bytes with a byte mask that the part serves (R62, R63, R65). -/
def memWriteLine (hpa : Nat) (data : Bytes) (mask : Nat) (poison : Bool) (s : State) : State :=
  let s := wake s
  match dpaOf (hpa / 64 * 64) s with
  | none => s
  | some dpa =>
    let s := emit .memDone (if poison then regAdd (pgCxlT + 0x118) 1 s else s)
    if !memServed s then s
    else match windowOf dpa s with
      | none => s |> regSet (pgCxlH + 0x908) dpa |> note 0x7005 pgCxlH dpa
      | some (space, a) =>
        if (memRead space a 64 s).isNone then errResp (if space = 0 then 3 else 2) s
        else
          let n := if space = 0 then 32 else 16
          let s1 := s |> regAdd (pgCxlT + 0x108) 1 |> warpMove 0 (if space = 0 then 3 else 2) 64
          (List.range (64 / n)).foldl (fun s k => memWordWrite space (a + n * k) n ((data.drop (n * k)).take n) (mask / 2 ^ (n * k)) poison s) s1

/-- CXL_MEM_WRITE (R62, R63, R65). -/
def execCxlMemWrite (hpa : Nat) (data : Bytes) (mask : Nat) (poison : Bool) (s : State) : Host.Outcome State Fault Refusal :=
  .next (if !s.cxl.up then s
    else if memHeld hpa s then memQueue { hpa := hpa, write := some (data, mask, poison) } s
    else memWriteLine hpa data mask poison s)

/-- A crossing has reopened, or the part is awake: the requests that wait are served in their order. -/
def memResume (s : State) : State :=
  s.cxl.memWait.foldl (fun s q =>
    if memHeld q.hpa s then memQueue q s
    else match q.write with
      | none => memReadLine q.hpa s
      | some (data, mask, poison) => memWriteLine q.hpa data mask poison s) (cxlMod (fun x => { x with memWait := [] }) s)

/-! ### The mailbox (R59); opcodes, layouts and return codes are CXL 3.1's (PRESUMED, log entry 39) -/

/-- The mailbox answers while BAR0 of F0 does (R58). -/
def mbox (code : Nat) (payload : Bytes) (s : State) : State :=
  if bar0 0 s then emit (.mailbox code payload) (cxlMod (fun x => { x with mboxCode := code, mboxData := tsetBytes 0 payload [] }) s) else s

/-- IDENTIFY_MEMORY_DEVICE: 65 units of 256 MiB, all volatile. The firmware revision and the sizes of the event logs are not
stated: free values. -/
def execIdentifyMemoryDevice (s : State) : Host.Outcome State Fault Refusal :=
  let (rev, s1) := freeBytes 16 s
  let (logs, s2) := freeBytes 8 s1
  .next (mbox 0 (rev ++ natLe 8 65 ++ natLe 8 65 ++ natLe 8 0 ++ natLe 8 0 ++ logs ++ zeros 11) s2)

/-- The identifier of the Command Effects Log. -/
def celUuid : Bytes :=
  [0x0d, 0xa9, 0xc0, 0xb5, 0xbf, 0x41, 0x4b, 0x78, 0x8f, 0x79, 0x96, 0xb1, 0x62, 0x3b, 0x3f, 0x17].map fun v => BitVec.ofNat 8 v
/-- The Command Effects Log: opcode and effects of each supported command. -/
def celLog : Bytes :=
  ([(0x0100, 0), (0x0101, 0x10), (0x0102, 0), (0x0103, 0x08), (0x0300, 0), (0x0301, 0x08), (0x0400, 0), (0x0401, 0), (0x4000, 0)]
    ).flatMap fun e => natLe 2 e.1 ++ natLe 2 e.2

/-- GET_SUPPORTED_LOGS: the Command Effects Log alone. -/
def execGetSupportedLogs (s : State) : Host.Outcome State Fault Refusal :=
  .next (mbox 0 (natLe 2 1 ++ zeros 6 ++ celUuid ++ natLe 4 celLog.length) s)

/-- GET_LOG: a part of the Command Effects Log. -/
def execGetLog (payload : Bytes) (s : State) : Host.Outcome State Fault Refusal :=
  let off := leAt payload 16 4
  let n := leAt payload 20 4
  .next (if payload.take 16 ≠ celUuid then mbox 0x17 [] s
         else if celLog.length < off + n then mbox 0x02 [] s
         else mbox 0 ((celLog.drop off).take n) s)

/-- The identifier of a General Media Event record. -/
def gmeUuid : Bytes :=
  [0xfb, 0xcd, 0x0a, 0x77, 0xc2, 0x60, 0x41, 0x7f, 0x85, 0xa9, 0x08, 0x8b, 0x16, 0x21, 0xeb, 0xa6].map fun v => BitVec.ofNat 8 v
/-- A record of 128 bytes: an uncorrectable event of a host read. -/
def recordBytes (e : EventRecord) : Bytes :=
  gmeUuid ++ natLe 1 128 ++ zeros 3 ++ natLe 2 e.handle ++ zeros 2 ++ natLe 8 e.time.toNat ++ zeros 16 ++
  natLe 8 (e.dpa / 64 * 64 + 1) ++ natLe 1 1 ++ natLe 1 0 ++ natLe 1 1 ++ zeros 69

/-- GET_EVENT_RECORDS: the records lie in the failure log, 2; the other three are empty (DESIGN CHOICE, log entry 39). -/
def execGetEventRecords (payload : Bytes) (s : State) : Host.Outcome State Fault Refusal :=
  let k := leAt payload 0 1
  let l := if k = 2 then s.cxl.events else []
  .next (if 4 ≤ k then mbox 0x02 [] s else mbox 0 (zeros 20 ++ natLe 2 l.length ++ zeros 10 ++ l.flatMap recordBytes) s)

/-- CLEAR_EVENT_RECORDS: all, or the oldest ones by handle in order. -/
def execClearEventRecords (payload : Bytes) (s : State) : Host.Outcome State Fault Refusal :=
  let k := leAt payload 0 1
  let l := if k = 2 then s.cxl.events else []
  let hs := (List.range (leAt payload 2 1)).map fun i => leAt payload (6 + 2 * i) 2
  let keep (n : Nat) : State := if k = 2 && bar0 0 s then cxlMod (fun x => { x with events := l.drop n }) s else s
  .next (if 4 ≤ k then mbox 0x02 [] s
         else if bit (leAt payload 1 1) 0 then mbox 0 [] (keep l.length)
         else if (l.take hs.length).map (·.handle) = hs then mbox 0 [] (keep hs.length)
         else mbox 0x0E [] s)

/-- GET_EVENT_INTERRUPT_POLICY: informational, warning, failure and fatal settings. -/
def execGetEventInterruptPolicy (s : State) : Host.Outcome State Fault Refusal := .next (mbox 0 (natLe 4 s.cxl.irqPolicy.toNat) s)
/-- SET_EVENT_INTERRUPT_POLICY. -/
def execSetEventInterruptPolicy (payload : Bytes) (s : State) : Host.Outcome State Fault Refusal :=
  .next (mbox 0 [] (if bar0 0 s then cxlMod (fun x => { x with irqPolicy := BitVec.ofNat 32 (leAt payload 0 4) }) s else s))
/-- GET_TIMESTAMP: 0 until it has been set. -/
def execGetTimestamp (s : State) : Host.Outcome State Fault Refusal := .next (mbox 0 (natLe 8 (mboxTime s).toNat) s)
/-- SET_TIMESTAMP. -/
def execSetTimestamp (payload : Bytes) (s : State) : Host.Outcome State Fault Refusal :=
  .next (mbox 0 [] (if bar0 0 s then
    cxlMod (fun x => { x with timestamp := BitVec.ofNat 64 (leAt payload 0 8), timestampSet := some (pickN s) }) s else s))

/-- A command of the primary mailbox by its opcode (R59): every opcode beside the nine completes with Unsupported. -/
def mboxRun (op : Nat) (payload : Bytes) (s : State) : State :=
  stateOr s (match op with
    | 0x4000 => execIdentifyMemoryDevice s
    | 0x0400 => execGetSupportedLogs s
    | 0x0401 => execGetLog payload s
    | 0x0100 => execGetEventRecords payload s
    | 0x0101 => execClearEventRecords payload s
    | 0x0102 => execGetEventInterruptPolicy s
    | 0x0103 => execSetEventInterruptPolicy payload s
    | 0x0300 => execGetTimestamp s
    | 0x0301 => execSetTimestamp payload s
    | _ => .next (mbox 0x03 [] s))

/-! ### DOE (R68); object layouts are those of the PCIe and CDAT specifications (PRESUMED, log entry 39) -/

/-- A DOE data object: vendor, type, length in dwords, body. -/
def doeObject (vendor type : Nat) (body : Bytes) : Bytes :=
  natLe 2 vendor ++ natLe 2 type ++ natLe 4 (2 + body.length / 4) ++ body

/-- DOE_DISCOVERY: index 0 is Discovery itself, 1 CDAT Table Access. -/
def execDoeDiscovery (index : Nat) (s : State) : Host.Outcome State Fault Refusal :=
  let body := match index with
    | 0 => natLe 2 0x0001 ++ natLe 1 0 ++ natLe 1 1
    | 1 => natLe 2 0x1E98 ++ natLe 1 2 ++ natLe 1 0
    | _ => natLe 2 0xFFFF ++ natLe 1 0 ++ natLe 1 0
  .next (if s.cxl.up && !fenced pgDoe s then s |> emit (.doe (doeObject 0x0001 0 body)) |> regAdd32 (pgDoe + 0x100) 1 else s)

/-- A DSMAS structure: handle, DPA base, length; volatile. -/
def dsmas (h base len : Nat) : Bytes := natLe 2 0 ++ natLe 2 24 ++ natLe 1 h ++ zeros 3 ++ natLe 8 base ++ natLe 8 len
/-- A DSLBIS structure: handle, data type, base unit, entry. -/
def dslbis (h type unit entry : Nat) : Bytes :=
  natLe 2 1 ++ natLe 2 24 ++ natLe 1 h ++ natLe 1 0 ++ natLe 1 type ++ natLe 1 0 ++ natLe 8 unit ++ natLe 2 entry ++ zeros 6
/-- The structures of the CDAT, in the order of R68; latencies in units of 1,000 ps, bandwidths in units of 1,000 MB/s. -/
def cdatEntries : List Bytes :=
  [dsmas 0 0 (2 ^ 28), dsmas 1 (2 ^ 28) (2 ^ 34)] ++
  ([(0, 25), (1, 175)].flatMap fun h => [dslbis h.1 1 1000 h.2, dslbis h.1 2 1000 h.2, dslbis h.1 4 1000 121, dslbis h.1 5 1000 121])
/-- The CDAT header with its checksum. -/
def cdatHeader : Bytes :=
  let h (c : Nat) : Bytes := natLe 4 (16 + (cdatEntries.map List.length).foldl (· + ·) 0) ++ natLe 1 1 ++ natLe 1 c ++ zeros 10
  let sum := ((h 0 ++ cdatEntries.flatten).map BitVec.toNat).foldl (· + ·) 0
  h ((256 - sum % 256) % 256)

/-- CDAT_TABLE_ACCESS: entry 0 is the header. -/
def execCdatTableAccess (handle : Nat) (s : State) : Host.Outcome State Fault Refusal :=
  .next (if s.cxl.up && !fenced pgDoe s then
    match (cdatHeader :: cdatEntries)[handle]? with
    | some e =>
      let next := if handle < cdatEntries.length then handle + 1 else 0xFFFF
      s |> emit (.doe (doeObject 0x1E98 2 (natLe 1 0 ++ natLe 1 0 ++ natLe 2 next ++ e))) |> regAdd32 (pgDoe + 0x100) 1
    | none => s |> emit (.doe []) |> regAdd32 (pgDoe + 0x100) 1
  else s)

/-- DOE_ABORT (R68): no request is left in progress. -/
def execDoeAbort (s : State) : Host.Outcome State Fault Refusal :=
  .next (if s.cxl.up && !fenced pgDoe s then regAdd32 (pgDoe + 0x104) 1 s else s)

end Sys2Proof.Machine
end

