-- ==== Sys2Proof/Machine/Party.lean ====
section
/-!
DEFINITION. Party membership (R380 to R404): the roster, the Party window, control messages with their checks and resends,
heartbeats, watching, epochs, and the Party commands.
-/
namespace Sys2Proof.Machine

def ptyMod (g : Party → Party) (s : State) : State := { s with party := g s.party }

/-! ### The roster (R381 to R383) -/

/-- STATE of a roster entry (R381). -/
def MState.code : MState → Nat
  | .free => 0 | .active => 1 | .away => 2 | .lost => 3 | .leaving => 4

def mstateOf (n : Nat) : MState :=
  match n with
  | 1 => .active
  | 2 => .away
  | 3 => .lost
  | 4 => .leaving
  | _ => .free

def rMember (r : Roster) (x : Nat) : Member := tget {} r.members x

/-- A roster entry as 64 bits, and back (R381). -/
def entryNat (m : Member) : Nat := m.hpa % 2 ^ 38 + m.state.code * 2 ^ 38 + m.freeGib % 2 ^ 18 * 2 ^ 41
def entryOf (n : Nat) : Member := { hpa := bits n 37 0, state := mstateOf (bits n 40 38), freeGib := bits n 58 41 }
def entryOk (n : Nat) : Bool := bits n 40 38 < 5 && bits n 63 59 = 0

/-- Members in a state. -/
def rosterIn (p : MState → Bool) (r : Roster) : List Nat := tfind (fun _ m => p m.state) r.members
def rosterSize (r : Roster) : Nat := (rosterIn (· ≠ .free) r).length

/-- Header bytes 0x00 to 0x1B, the entries, and ROSTER_CRC (R381). -/
def headBytes (r : Roster) : Bytes :=
  natLe 8 r.partyId.toNat ++ natLe 4 r.epoch.toNat ++ natLe 2 r.issuer ++ natLe 2 r.awayS ++ natLe 4 r.lossS ++
  natLe 2 (rosterSize r) ++ zeros 6
def entryBytes (r : Roster) (first n : Nat) : Bytes := (List.range n).flatMap fun i => natLe 8 (entryNat (rMember r (first + i)))
def rosterCrc (r : Roster) : Nat := crc32c (headBytes r ++ entryBytes r 0 1024)
def rosterHeader (r : Roster) : Bytes := headBytes r ++ natLe 4 (rosterCrc r)

/-- The steward: the ACTIVE member with the lowest index (R383). -/
def steward (r : Roster) : Option Nat := (rosterIn (· = .active) r).head?

/-- The collector for member x: the lowest-indexed ACTIVE member other than x (R393). -/
def collector (r : Roster) (x : Nat) : Option Nat := (rosterIn (· = .active) r).find? (· ≠ x)

/-- W(x, y) of R383. -/
def watchWeight (r : Roster) (x y : Nat) : Nat := crc32c (natLe 8 r.partyId.toNat ++ natLe 2 x ++ natLe 2 y)

/-- The watchers of member x: the 4 ACTIVE or LEAVING members of highest weight, ties to the lower index (R383). -/
def watchers (r : Roster) (x : Nat) : List Nat :=
  let l := ((rosterIn (fun m => m = .active || m = .leaving) r).filter (· ≠ x)).map fun y => (watchWeight r x y, y)
  ((sortBy (fun a b => b.1 < a.1 || (a.1 = b.1 && a.2 ≤ b.2)) l).take 4).map Prod.snd

/-- The part watches member x: LOST and FREE members send nothing to watch (DEDUCED, log entry 41). -/
def watches (s : State) (r : Roster) (x : Nat) : Bool :=
  let st := (rMember r x).state
  st ≠ .free && st ≠ .lost && (watchers r x).contains s.party.index

/-- Members the part watches, and of those the silent ones. -/
def watched (s : State) : List Nat :=
  (rosterIn (fun m => m ≠ .free && m ≠ .lost) s.party.roster).filter (watches s s.party.roster)
def watchedSilent (s : State) : List Nat := (watched s).filter fun x => tget false s.party.silent x

/-- Bolts of a number of seconds (R393). -/
def secBolts (n : Nat) : Nat := cdiv (n * 1000000) 1024

/-- 1 GiB units that the stripe table takes (R411). -/
def tableGib (s : State) : Nat := cdiv (cdiv (cdiv (mapEntries s) 64 * 128) 16384) 65536

/-- FREE_GIB of the part (R381, R406). -/
def freeGib (s : State) : Nat :=
  if s.media.ro || bit (regGet (pgPty + 0x128) s) 0 then 0
  else
    let ns := (s.nss.map fun e => cdiv e.2.units 65536).foldl (· + ·) 0
    let table := if s.mender.table = 0 then 0 else tableGib s
    min (2 ^ 18 - 1) (s.media.tnvmcap.getD 0 - ns - s.mender.extents.length - table)

/-! ### Sending (R385, R386, R389) -/

/-- The Party logic runs: firmware is up, no power-fail sequence, the block enabled and not fenced (R404). -/
def ptyUp (s : State) : Bool := accepts pgPty s && running s && !pfOn s && s.party.state ≠ .none

/-- The tag of a message under the PARTY key, which is charged (R380, R386); none where no key may serve. -/
def ptyTag (m : Bytes) (s : State) : Option Bytes × State :=
  match keyOf 1 0 s with
  | none => (none, s)
  | some k =>
    let key := keyBytes (keyGet k s)
    match keyUse k (cmacBlocks m.length) s with
    | (true, t) => (some (cmac key m), t)
    | (false, t) => (none, t)

/-- Bytes 0x00 to 0x1F + BODY_LEN of a cell (R386). -/
def cellBytes (type sender receiver : Nat) (id : W64) (epoch counter : Nat) (body : Bytes) : Bytes :=
  natLe 2 0x5041 ++ natLe 1 type ++ natLe 1 body.length ++ natLe 2 sender ++ natLe 2 receiver ++ natLe 8 id.toNat ++
  natLe 4 epoch ++ zeros 4 ++ natLe 8 counter ++ body

/-- The next counter of the part to a member (R389). -/
def nextCounter (x : Nat) (s : State) : Nat := max (s.party.boot * 2 ^ 32) (tget 0 s.party.tx x) + 1

/-- Writes one message into the receiver's window, the tag last (R385). None: the link is down or no key serves. -/
def cellSend (to_ hpa type : Nat) (body : Bytes) (s : State) : Option Nat × State :=
  if !s.cxl.up then (none, s)
  else
    let p := s.party
    let n := nextCounter to_ s
    let m := cellBytes type p.index to_ p.roster.partyId p.roster.epoch.toNat n body
    match ptyTag m s with
    | (none, t) => (none, t)
    | (some tag, t) =>
      let a := hpa * 2 ^ 26 + 0x20000 + 4096 * p.index + 256 * (n % 16)
      (some n, t |> ptyMod (fun p => { p with tx := tset 0 to_ n p.tx })
                 |> emit (.peer a (padTo 0xF0 m) (uioOn s)) |> emit (.peer (a + 0xF0) tag (uioOn s)) |> regAdd (pgPty + 0x140) 1)

/-- Sends the waiting messages to a member, at most 16 unacknowledged (R389). -/
def ptyPump (s : State) : State :=
  let one (q : List OutMsg × State) (m : OutMsg) : List OutMsg × State :=
    if m.counter ≠ 0 || 16 ≤ ((q.1.filter fun o => o.to_ = m.to_ && o.counter ≠ 0).length) then (q.1 ++ [m], q.2)
    else match cellSend m.to_ m.hpa m.type m.body q.2 with
      | (none, t) => (q.1 ++ [m], t)
      | (some n, t) => (q.1 ++ [{ m with counter := n, pick := pickN t, sends := m.sends + 1 }], t)
  if !ptyUp s then s
  else
    let (l, t) := s.party.out.foldl one ([], s)
    ptyMod (fun p => { p with out := l }) t

/-- Queues a message to a member, at a given HPA; one to the part itself is handled at the next pick boundary. A LOST part
sends nothing but SYNC_REQ (R397). -/
def ptySendAt (to_ hpa type : Nat) (body : Bytes) (s : State) : State :=
  if s.party.state = .none || (s.party.state = .lost && type ≠ 0x13) then s
  else if to_ = s.party.index && s.party.state ≠ .joining then
    ptyMod (fun p => { p with toSelf := p.toSelf ++ [(type, body)] }) s
  else ptyPump (ptyMod (fun p => { p with out := p.out ++ [{ to_ := to_, hpa := hpa, type := type, body := body }] }) s)

/-- Queues a message to a member of the roster. -/
def ptySend (to_ type : Nat) (body : Bytes) (s : State) : State := ptySendAt to_ (rMember s.party.roster to_).hpa type body s

/-- Sends a message to the steward, if there is one. -/
def ptySteward (type : Nat) (body : Bytes) (s : State) : State :=
  match steward s.party.roster with
  | some x => ptySend x type body s
  | none => s

/-! ### Changes of the roster (R393 to R397) -/

/-- The part is the steward. -/
def isSteward (s : State) : Bool := s.party.state = .active && steward s.party.roster = some s.party.index

/-- The roster with the held changes applied, for which the table of R393 decides. -/
def heldView (s : State) : Roster :=
  { s.party.roster with members := s.party.held.foldl (fun t c => tset {} c.1 c.2 t) s.party.roster.members }

/-- Holds a change of a member's state (R393, R394). -/
def holdChange (x : Nat) (g : Member → Member) (s : State) : State :=
  ptyMod (fun p => { p with held := p.held ++ [(x, g (rMember (heldView s) x))] }) s

/-- Holds a change of state if the table allows it from the member's state. -/
def holdState (x : Nat) (from_ : List MState) (to_ : MState) (s : State) : State :=
  if from_.contains (rMember (heldView s) x).state then holdChange x (fun m => { m with state := to_ }) s else s

/-- Writes the Party's record to the control area (R162, R398). -/
def ptyDurable (x : PartyRec) (s : State) : State :=
  let q := copyStore areaParty x s.die.partyCopies s.die
  let d := areaClean q.2 areaParty.2 s.die
  { s with die := { d with party := x, partyCopies := q.1 } }

/-- Clears the part's Party state (R401). The boot count and the counters already sent stay, so that no counter is used twice
(log entry 42). -/
def ptyClear (s : State) : State :=
  let p := s.party
  let q : Party := { boot := p.boot, tx := p.tx, window := p.window, hbTx := p.hbTx }
  ptyDurable { boot := p.boot } { s with party := q }

/-- Records the roster and the counters in the control area (R398). -/
def ptyRecord (s : State) : State :=
  let p := s.party
  ptyDurable { boot := p.boot, index := p.index, selfHpa := p.selfHpa, roster := p.roster, rx := p.rx, rxMask := p.rxMask, hbRx := p.hbRx } s

/-- Completes the Join in progress with a result (R400). -/
def joinEnd (result : Nat) (s : State) : State :=
  match s.party.joinCtx with
  | none => s
  | some c =>
    let s1 := ptyMod (fun p => { p with joinCtx := none }) s
    let x := ctxGet c s1
    if x.used && sqeOp x.sqe = 0xD5 && x.phase = 10 then finishDw c stOk result 0 s1 else s1

/-- Completes the Leave in progress with a result (R401). -/
def leaveEnd (result : Nat) (s : State) : State :=
  match s.party.leaveCtx with
  | none => s
  | some c =>
    let s1 := ptyMod (fun p => { p with leaveCtx := none }) s
    let x := ctxGet c s1
    if x.used && sqeOp x.sqe = 0xD8 && x.phase = 10 then finishDw c stOk result 0 s1 else s1

/-- Notes one member's change (R404) and its bolts (R393, R396). -/
def memberChange (old new : Roster) (s : State) (x : Nat) : State :=
  let a := (rMember old x).state
  let b := (rMember new x).state
  let s1 := if a = b then s
    else match b with
      | .lost => note 0x5182 pgPty x (ptyMod (fun p => { p with lostBolt := tset 0 x (boltN s) p.lostBolt }) s)
      | .away => note 0x5184 pgPty x (ptyMod (fun p => { p with awayBolt := tset 0 x (boltN s) p.awayBolt }) s)
      | .active => if a = .away then note 0x5185 pgPty x s else s
      | _ => s
  let was := watches s1 old x
  let is := watches s1 new x
  if is && !was then ptyMod (fun p => { p with lastHb := tset 0 x (boltN s) p.lastHb }) s1
  else if was && !is then
    ptyMod (fun p => { p with silent := tset false x false p.silent, suspectSent := tset 0 x 0 p.suspectSent }) s1
  else s1

/-- What the part's own entry means for it (R397, R400, R401). -/
def ownChange (s : State) : State :=
  let p := s.party
  match (rMember p.roster p.index).state with
  | .active =>
    if p.state = .joining then
      s |> ptyMod (fun p => { p with state := .active, hbDue := true }) |> note 0x5186 pgPty p.index |> joinEnd 0
    else ptyMod (fun p => { p with state := .active }) s
  | .away => if p.state = .joining then s else ptyMod (fun p => { p with state := .away }) s
  | .leaving =>
    let s1 := ptyMod (fun p => { p with state := .leaving }) s
    if p.leaveForce then s1 else leaveEnd 0 s1
  | .lost =>
    let s1 := ptyMod (fun p => { p with state := .lost, out := p.out.filter (·.type = 0x13), held := [] }) s
    let s2 := if p.state = .lost then s1 else note 0x5183 pgPty p.index s1
    if p.leaveForce then ptyClear (leaveEnd 0 s2) else s2
  | .free => if p.state = .joining || p.state = .none then s else note 0x5187 pgPty p.index (ptyClear (leaveEnd 0 s))

/-- The part takes a new roster: durable before anything else follows (R394, R398), then events, watchers and its own
state; what was suspected of a member that is LOST or FREE now is settled. The Mender looks at the members that changed at the
next pick boundary (R423). -/
def applyRoster (new : Roster) (s : State) : State :=
  let old := s.party.roster
  let xs := (tkeys old.members ++ tkeys new.members).eraseDups
  let changed := xs.filter fun x => (rMember old x).state ≠ (rMember new x).state
  let gone := changed.filter fun x => [MState.lost, .free].contains (rMember new x).state
  let s1 := ptyRecord (ptyMod (fun p => { p with roster := new, undeclared := [], superseded := false,
                                                 suspicions := p.suspicions.filter fun q => !(gone.contains q.about) }) s)
  let s2 := xs.foldl (memberChange old new) s1
  ownChange { s2 with mender := { s2.mender with changed := (s2.mender.changed ++ changed).eraseDups } }

/-- A roster with epoch `e` and issuer `i` supersedes the part's own (R395). -/
def supersedes (e i : Nat) (s : State) : Bool :=
  let r := s.party.roster
  r.epoch.toNat < e || (r.epoch.toNat = e && i < r.issuer)

/-- Asks a member for its roster (R392, R395). -/
def syncReq (x : Nat) (s : State) : State := ptySend x 0x13 (natLe 4 s.party.roster.epoch.toNat) s

/-- Hints a member at the part's epoch (R387, R392). -/
def syncHint (x : Nat) (s : State) : State :=
  ptySend x 0x1C (natLe 4 s.party.roster.epoch.toNat ++ natLe 2 s.party.roster.issuer) s

/-- Sends the whole roster in 64 parts (R387, R395). -/
def sendRoster (x hpa : Nat) (s : State) : State :=
  let r := s.party.roster
  (List.range 64).foldl (fun s i =>
    ptySendAt x hpa 0x14 (rosterHeader r ++ natLe 2 (16 * i) ++ zeros 2 ++ entryBytes r (16 * i) 16) s) s

/-! ### Arrived items and their checks (R385, R388, R392) -/

/-- BODY_LEN of a message type, and its reserved body bytes as offset and length (R387, R421, R422). None: undefined. -/
def msgForm (type : Nat) (b : Bytes) : Option (Nat × List (Nat × Nat)) :=
  match type with
  | 0x02 => some (10, [])
  | 0x03 => some (16, [(3, 1)])
  | 0x10 => some (16, [(3, 1)])
  | 0x11 => some (1, [])
  | 0x12 => let n := leAt b 8 1
            if 1 ≤ n && n ≤ 16 then some (16 + 12 * n, [(9, 7)] ++ (List.range n).map fun i => (16 + 12 * i + 10, 2)) else none
  | 0x13 => some (4, [])
  | 0x14 => some (164, [(0x22, 2)])
  | 0x15 => some (8, [(3, 1)])
  | 0x16 => some (2, [])
  | 0x17 => some (1, [])
  | 0x18 => some (0, [])
  | 0x19 => some (1, [])
  | 0x1A => some (0, [])
  | 0x1B => some (4, [])
  | 0x1C => some (6, [])
  | 0x40 => some (42, [])
  | 0x41 => some (24, [(9, 7)])
  | 0x42 => let n := leAt b 8 1
            if 1 ≤ n && n ≤ 16 then some (10 + 2 * n, [(9, 1)]) else none
  | 0x43 => some (16, [])
  | 0x44 => some (24, [(11, 5)])
  | 0x45 => some (8, [])
  | 0x46 => some (8, [])
  | 0x47 => some (48, [(10, 6)])
  | 0x48 => some (96, [])
  | 0x49 => some (8, [])
  | 0x4A => some (104, [])
  | 0x4B => some (8, [])
  | 0x4C => some (96, [])
  | _ => none

/-- The body of a defined message is well-formed. -/
def bodyOk (type : Nat) (b : Bytes) : Bool :=
  match msgForm type b with
  | none => false
  | some (n, z) => b.length = n && z.all fun r => leAt b r.1 r.2 = 0

/-- Raises an event of R388 at most once per bolt. -/
def ptyEvent (code x : Nat) (s : State) : State :=
  let b := some (boltN s)
  let p := s.party
  let seen := if code = 0x5104 then p.evMal else if code = 0x5103 then p.evStale else p.evTag
  if seen = b then s
  else
    let set (p : Party) : Party :=
      if code = 0x5104 then { p with evMal := b } else if code = 0x5103 then { p with evStale := b } else { p with evTag := b }
    note code pgPty x (ptyMod set s)

/-- An item that has arrived before this pick's boundary (R385). -/
def itemReady (k : Nat) (s : State) : Bool := let n := tget 0 s.party.arrived k; n ≠ 0 && n ≤ pickN s
def itemTaken (k : Nat) (s : State) : State := ptyMod (fun p => { p with arrived := tset 0 k 0 p.arrived }) s

/-- The 256 bytes of mailbox cell `c`, and its TYPE and body. -/
def cellAt (c : Nat) (s : State) : Bytes := tgetBytes s.party.window (0x20000 + 256 * c) 256
def cellType (m : Bytes) : Nat := leAt m 2 1
def cellBody (m : Bytes) : Bytes := (m.drop 0x20).take (min 208 (leAt m 3 1))

/-- Step 1 of R388 for a cell of mailbox `x`. -/
def cellFormOk (x : Nat) (m : Bytes) (s : State) : Bool :=
  s.party.state ≠ .none && leAt m 0 2 = 0x5041 && leAt m 3 1 ≤ 208 && bodyOk (cellType m) (cellBody m) && leAt m 4 2 = x &&
  leAt m 6 2 = s.party.index && leAt m 8 8 = s.party.roster.partyId.toNat && leAt m 0x14 4 = 0

/-- Step 2 of R388. A joining part, which has no roster yet, takes the message of any sender (DEDUCED, log entry 43). -/
def senderOk (x type : Nat) (body : Bytes) (s : State) : Bool :=
  let st := (rMember s.party.roster x).state
  type = 0x13 || (s.party.state = .joining && s.party.roster.members.isEmpty) ||
  (if type = 0x10 && leAt body 2 1 = 0 then st = .free else [MState.active, .away, .leaving].contains st)

/-- Records a counter as accepted (R389): the highest one, and a mask of the last 16. -/
def takeCounter (x n : Nat) (s : State) : State :=
  let p := s.party
  let old := tget 0 p.rx x
  let mask := (tget 0 p.rxMask x * 2 ^ (min 16 (n - old)) + 1) % 65536
  ptyMod (fun p => { p with rx := tset 0 x n p.rx, rxMask := tset 0 x mask p.rxMask }) s

/-- Checks an arrived cell (R388). None: it is dropped. -/
def cellCheck (c : Nat) (s : State) : Option (Nat × Nat × Bytes) × State :=
  let x := c / 16
  let m := cellAt c s
  let type := cellType m
  let body := cellBody m
  let s := itemTaken (2048 + c) s
  if !cellFormOk x m s then (none, s |> regAdd (pgPty + 0x160) 1 |> ptyEvent 0x5104 x)
  else if !senderOk x type body s then
    let s1 := regAdd (pgPty + 0x160) 1 s
    let last := tget 0 s1.party.hintBolt x
    if (rMember s1.party.roster x).state = .lost && (last = 0 || last + 64 ≤ boltN s1 + 1) then
      (none, syncHint x (ptyMod (fun p => { p with hintBolt := tset 0 x (boltN s1 + 1) p.hintBolt }) s1))
    else (none, s1)
  else if leAt m 0x18 8 ≤ tget 0 s.party.rx x then (none, s |> regAdd (pgPty + 0x158) 1 |> ptyEvent 0x5103 x)
  else match ptyTag (m.take (32 + body.length)) s with
    | (some tag, t) =>
      if tag = m.drop 0xF0 then
        let t1 := t |> takeCounter x (leAt m 0x18 8) |> regAdd (pgPty + 0x148) 1
        let t2 := if type = 0x02 || (t1.due.contains (.partyAck x)) then t1 else later (.partyAck x) t1
        (some (x, leAt m 0x10 4, body), t2)
      else (none, t |> regAdd (pgPty + 0x150) 1 |> ptyEvent 0x5102 x)
    | (none, t) => (none, t |> regAdd (pgPty + 0x150) 1 |> ptyEvent 0x5102 x)

/-- An epoch seen in a valid heartbeat or message differs (R392): a hint to the one behind, a request to the issuer ahead.
Messages that carry a roster or a sync themselves, and those of a part without a roster, are not looked at (DEDUCED, log
entry 44). -/
def sawEpoch (x e issuer : Nat) (crc : Option Nat) (s : State) : State :=
  let r := s.party.roster
  if e < r.epoch.toNat then syncHint x s
  else if r.epoch.toNat < e || (crc.any (· ≠ rosterCrc r) && issuer < r.issuer) then
    syncReq issuer (ptyMod (fun p => { p with superseded := true }) s)
  else s

/-- A message row: the cell of `slot` holds a message of the row's type that has arrived; the checks of R388, then `act` with
the sender and the body. In PS3 or PS4 it is Party work that wakes the part, and waits (R103). -/
def msgRow (slot type : Nat) (act : Nat → Bytes → State → State) (s : State) : Host.Outcome State Fault Refusal :=
  if 16384 ≤ slot then .fault .noSuchUnit
  else if !itemReady (2048 + slot) s || cellType (cellAt slot s) ≠ type || !accepts pgPty s || !running s || pfOn s then .next s
  else if 3 ≤ s.pwr.ps then .next (wake s)
  else match cellCheck slot s with
    | (none, t) => .next t
    | (some (x, e, b), t) =>
      let t1 := if [0x10, 0x11, 0x12, 0x13, 0x14, 0x1C].contains type || t.party.state = .joining then t else sawEpoch x e x none t
      .next (act x b t1)

/-! ### What the messages do (R387, R393 to R401) -/

/-- ACK (R389). -/
def hAck (x : Nat) (b : Bytes) (s : State) : State :=
  let high := leAt b 0 8
  let mask := leAt b 8 2
  ptyPump (ptyMod (fun p => { p with out := p.out.filter fun m =>
    !(m.to_ = x && m.counter ≠ 0 && m.counter ≤ high && high < m.counter + 16 && bit mask (high - m.counter)) }) s)

/-- JOIN_REQ (R393, R400): the steward holds the new member, or answers JOIN_NAK at the HPA of the request; another member
passes the request on once. -/
def hJoinReq (_x : Nat) (b : Bytes) (s : State) : State :=
  let i := leAt b 0 2 % 1024
  let hpa := bits (leAt b 8 8) 63 26
  if isSteward s then
    if (rMember (heldView s) i).state = .free then
      holdChange i (fun _ => { hpa := hpa, state := .active, freeGib := leAt b 4 4 % 2 ^ 18 }) s
    else ptySendAt i hpa 0x11 (natLe 1 1) s
  else if leAt b 2 1 = 0 then ptySteward 0x10 (b.set 2 1) s
  else s

/-- JOIN_NAK (R400). -/
def hJoinNak (_x : Nat) (_b : Bytes) (s : State) : State :=
  if s.party.state = .joining then ptyClear (joinEnd 3 s) else s

/-- The roster that an EPOCH message describes (R394). -/
def epochRoster (x : Nat) (b : Bytes) (s : State) : Roster :=
  let r := s.party.roster
  let recs := (List.range (leAt b 8 1)).map fun i => (leAt b (16 + 12 * i) 2 % 1024, entryOf (leAt b (16 + 12 * i + 2) 8))
  { r with epoch := BitVec.ofNat 32 (leAt b 0 4), issuer := x, members := recs.foldl (fun t c => tset {} c.1 c.2 t) r.members }

/-- EPOCH (R394). -/
def hEpoch (x : Nat) (b : Bytes) (s : State) : State :=
  let new := epochRoster x b s
  let good := (List.range (leAt b 8 1)).all fun i => entryOk (leAt b (16 + 12 * i + 2) 8)
  if s.party.state = .joining then s
  else if good && leAt b 0 4 = s.party.roster.epoch.toNat + 1 && rosterCrc new = leAt b 4 4 then
    note 0x5181 pgPty (leAt b 0 4) (applyRoster new s)
  else syncReq x s

/-- SYNC_REQ (R395). -/
def hSyncReq (x : Nat) (_b : Bytes) (s : State) : State :=
  if s.party.state = .joining then s else sendRoster x (rMember s.party.roster x).hpa s

/-- The roster that 64 collected parts spell. -/
def syncRoster (head : Bytes) (parts : Tab Bytes) : Roster :=
  let e := parts.flatMap Prod.snd
  { partyId := BitVec.ofNat 64 (leAt head 0 8), epoch := BitVec.ofNat 32 (leAt head 8 4), issuer := leAt head 12 2,
    awayS := leAt head 14 2, lossS := leAt head 16 4,
    members := (List.range 1024).foldl (fun t i => tset {} i (entryOf (leAt e (8 * i) 8)) t) [] }

/-- ROSTER_PART (R395): with all 64 parts under one header, the roster is adopted if its CRC checks and it supersedes the
part's own. -/
def hRosterPart (_x : Nat) (b : Bytes) (s : State) : State :=
  let head := b.take 32
  let first := leAt b 0x20 2
  if 1008 < first || first % 16 ≠ 0 then s
  else
    let old := if s.party.syncHead = head then s.party.syncParts else []
    let parts := tput first (b.drop 0x24) old
    if parts.length < 64 then ptyMod (fun p => { p with syncHead := head, syncParts := parts }) s
    else
      let new := syncRoster head parts
      let s1 := ptyMod (fun p => { p with syncHead := [], syncParts := [] }) s
      if crc32c (head.take 28 ++ parts.flatMap Prod.snd) = leAt head 28 4 && supersedes new.epoch.toNat new.issuer s1 &&
          new.partyId = s1.party.roster.partyId then
        note 0x5189 pgPty new.epoch.toNat (applyRoster new s1)
      else s1

/-- The collector weighs the suspicions of a member (R393). -/
def weighLoss (x : Nat) (s : State) : State :=
  let r := s.party.roster
  let w := watchers r x
  let count (reason : Nat) : Nat :=
    ((s.party.suspicions.filter fun q => q.about = x && q.reason = reason && w.contains q.from_).map (·.from_)).eraseDups.length
  if w.length < 3 then
    if s.party.undeclared.contains x then s
    else note 0x5188 pgPty x (ptyMod (fun p => { p with undeclared := x :: p.undeclared }) s)
  else if 3 ≤ count 1 then holdState x [.active] .lost s
  else if 3 ≤ count 2 then holdState x [.away] .lost s
  else s

/-- SUSPECT (R393). -/
def hSuspect (x : Nat) (b : Bytes) (s : State) : State :=
  let about := leAt b 0 2
  let q : Suspicion := { from_ := x, about := about, reason := leAt b 2 1 }
  if collector s.party.roster about = some s.party.index && (watchers s.party.roster about).contains x then
    weighLoss about (ptyMod (fun p => { p with suspicions := if p.suspicions.contains q then p.suspicions else p.suspicions ++ [q] }) s)
  else s

/-- RETRACT (R393). -/
def hRetract (x : Nat) (b : Bytes) (s : State) : State :=
  ptyMod (fun p => { p with suspicions := p.suspicions.filter fun q => !(q.from_ = x && q.about = leAt b 0 2) }) s

/-- AWAY, BACK, LEAVE, DEPART and CAP to the steward (R393). -/
def hAway (x : Nat) (_b : Bytes) (s : State) : State := if isSteward s then holdState x [.active] .away s else s
def hBack (x : Nat) (_b : Bytes) (s : State) : State := if isSteward s then holdState x [.away] .active s else s
def hLeave (x : Nat) (b : Bytes) (s : State) : State :=
  if isSteward s then holdState x [.active, .away] (if bit (leAt b 0 1) 0 then .lost else .leaving) s else s
def hDepart (x : Nat) (_b : Bytes) (s : State) : State := if isSteward s then holdState x [.leaving] .free s else s
def hCap (x : Nat) (b : Bytes) (s : State) : State :=
  if isSteward s then holdChange x (fun m => { m with freeGib := leAt b 0 4 % 2 ^ 18 }) s else s

/-- SYNC_HINT (R392, R395): a superseding roster is asked of its issuer. -/
def hSyncHint (_x : Nat) (b : Bytes) (s : State) : State :=
  if supersedes (leAt b 0 4) (leAt b 4 2) s then syncReq (leAt b 4 2 % 1024) (ptyMod (fun p => { p with superseded := true }) s) else s

/-! ### Rows of received messages -/

/-- ACK (R389). -/
def execMsgAck (slot : Nat) (s : State) : Host.Outcome State Fault Refusal := msgRow slot 0x02 hAck s
/-- JOIN_REQ (R393, R400). -/
def execMsgJoinReq (slot : Nat) (s : State) : Host.Outcome State Fault Refusal := msgRow slot 0x10 hJoinReq s
/-- JOIN_NAK (R400). -/
def execMsgJoinNak (slot : Nat) (s : State) : Host.Outcome State Fault Refusal := msgRow slot 0x11 hJoinNak s
/-- EPOCH (R394). -/
def execMsgEpoch (slot : Nat) (s : State) : Host.Outcome State Fault Refusal := msgRow slot 0x12 hEpoch s
/-- SYNC_REQ (R395). -/
def execMsgSyncReq (slot : Nat) (s : State) : Host.Outcome State Fault Refusal := msgRow slot 0x13 hSyncReq s
/-- ROSTER_PART (R395). -/
def execMsgRosterPart (slot : Nat) (s : State) : Host.Outcome State Fault Refusal := msgRow slot 0x14 hRosterPart s
/-- SUSPECT (R393). -/
def execMsgSuspect (slot : Nat) (s : State) : Host.Outcome State Fault Refusal := msgRow slot 0x15 hSuspect s
/-- RETRACT (R393). -/
def execMsgRetract (slot : Nat) (s : State) : Host.Outcome State Fault Refusal := msgRow slot 0x16 hRetract s
/-- AWAY (R393, R396). -/
def execMsgAway (slot : Nat) (s : State) : Host.Outcome State Fault Refusal := msgRow slot 0x17 hAway s
/-- BACK (R393, R396). -/
def execMsgBack (slot : Nat) (s : State) : Host.Outcome State Fault Refusal := msgRow slot 0x18 hBack s
/-- LEAVE (R393, R401). -/
def execMsgLeave (slot : Nat) (s : State) : Host.Outcome State Fault Refusal := msgRow slot 0x19 hLeave s
/-- DEPART (R393, R401). -/
def execMsgDepart (slot : Nat) (s : State) : Host.Outcome State Fault Refusal := msgRow slot 0x1A hDepart s
/-- CAP (R381, R393). -/
def execMsgCap (slot : Nat) (s : State) : Host.Outcome State Fault Refusal := msgRow slot 0x1B hCap s
/-- SYNC_HINT (R392). -/
def execMsgSyncHint (slot : Nat) (s : State) : Host.Outcome State Fault Refusal := msgRow slot 0x1C hSyncHint s

/-! ### The window (R384, R385) -/

/-- Items whose last byte a write [a, a + n) of the window covers: their number and their offset in `arrived` (R385). -/
def itemsEnded (a n : Nat) : List Nat :=
  let within (base size : Nat) (k : Nat) : List Nat :=
    (grains size (a - base) n).filter (fun i => a ≤ base + size * i + size - 1 && base + size * i + size ≤ a + n) |>.map (k + ·)
  if a < 0x10000 then within 0 64 0 else if a < 0x20000 then within 0x10000 64 1024 else within 0x20000 256 2048

/-- The area of the window that holds a write whole (R384): 0 none, 1 headers, mailboxes and heartbeats, 2 chunk slots. -/
def windowArea (a n : Nat) : Nat :=
  if a + n ≤ 0x10000 || (0x10000 ≤ a && a + n ≤ 0x1E000) || (0x20000 ≤ a && a + n ≤ 0x420000) then 1
  else if 0x800000 ≤ a && a + n ≤ 0x4000000 then 2
  else 0

/-- The pieces of a write by chunk slot: slot, offset in it, bytes. -/
def slotPieces (a : Nat) (bs : Bytes) : List (Nat × Nat × Bytes) :=
  (grains 65536 (a - 0x800000) bs.length).map fun k =>
    let lo := max (a - 0x800000) (65536 * k)
    let hi := min (a - 0x800000 + bs.length) (65536 * (k + 1))
    (k, lo - 65536 * k, (bs.drop (lo + 0x800000 - a)).take (hi - lo))

def slotOf (k : Nat) (s : State) : ChunkSlot := tget {} s.party.slots k
def slotPut (k : Nat) (x : ChunkSlot) (s : State) : State := ptyMod (fun p => { p with slots := tset {} k x p.slots }) s

/-- BAR4_WRITE (R384, R385, R399): a peer's write into the Party window. A poisoned write of a header, a mailbox or a heartbeat
leaves nothing there (DEDUCED, log entry 45). -/
def execBar4Write (off : Nat) (data : Bytes) (poison : Bool) (s : State) : Host.Outcome State Fault Refusal :=
  let n := data.length
  if !s.cxl.up || !(fnGet 0 s).mse || n = 0 || 0x4000000 < off + n || !running s then .next s
  else match windowArea off n with
    | 0 => .next (note 0x5106 pgPty off s)
    | 1 =>
      if poison then .next s
      else
        let items := itemsEnded off n
        .next (ptyMod (fun p => { p with window := tsetBytes off data p.window,
                                         arrived := items.foldl (fun t k => tset 0 k (pickN s + 1) t) p.arrived }) s)
    | _ => .next ((slotPieces off data).foldl (fun s q =>
        let x := slotOf q.1 s
        slotPut q.1 { x with written := x.written + q.2.2.length, poison := x.poison || poison,
                             parts := (q.2.1, q.2.2) :: x.parts } s) s)

/-! ### Heartbeats and watching (R390 to R393) -/

/-- Bytes 0x00 to 0x1F of a heartbeat of the part (R390). -/
def heartbeatHead (n : Nat) (s : State) : Bytes :=
  let p := s.party
  natLe 2 0x5041 ++ natLe 1 1 ++ natLe 1 (b2n (p.state = .away)) ++ natLe 2 p.index ++ natLe 2 p.roster.issuer ++
  natLe 4 p.roster.epoch.toNat ++ natLe 4 (rosterCrc p.roster) ++ natLe 8 n ++ natLe 8 p.roster.partyId.toNat

/-- A heartbeat is due at this bolt boundary (R391). -/
def hbTime (s : State) : Bool :=
  let p := s.party
  ptyUp s && s.cxl.up && [PState.active, .away, .leaving].contains p.state && pickN s % 256 = 0 && p.hbBolt ≠ boltN s + 1 &&
  s.qe.actPhase = 0 && s.pwr.ps ≤ 3 && (p.hbDue || boltN s % 16 = p.index % 16)

/-- HEARTBEAT_SEND (R390, R391): the same heartbeat to every watcher of the part. -/
def execHeartbeatSend (s : State) : Host.Outcome State Fault Refusal :=
  if !hbTime s then .next s
  else
    let p := s.party
    let n := max (p.boot * 2 ^ 32) p.hbTx + 1
    let m := heartbeatHead n s
    match ptyTag m s with
    | (none, t) => .next t
    | (some tag, t) =>
      let t1 := ptyMod (fun p => { p with hbTx := n, hbDue := false, hbBolt := boltN t + 1 }) t
      .next ((watchers p.roster p.index).foldl (fun s y =>
        let a := (rMember p.roster y).hpa * 2 ^ 26 + 64 * p.index
        s |> emit (.peer a (m ++ zeros 16) (uioOn s)) |> emit (.peer (a + 0x30) tag (uioOn s)) |> regAdd (pgPty + 0x140) 1) t1)

/-- HEARTBEAT (R390, R392): a heartbeat has arrived in the slot of a member. -/
def execHeartbeat (member : Nat) (s : State) : Host.Outcome State Fault Refusal :=
  if 1024 ≤ member then .fault .noSuchUnit
  else if !itemReady member s || !accepts pgPty s || !running s || pfOn s then .next s
  else
    let m := tgetBytes s.party.window (64 * member) 64
    let s := itemTaken member s
    let p := s.party
    let r := p.roster
    if p.state = .none || leAt m 0 2 ≠ 0x5041 || leAt m 2 1 ≠ 1 || 1 < leAt m 3 1 || leAt m 4 2 ≠ member || leAt m 0x20 16 ≠ 0 ||
        leAt m 0x18 8 ≠ r.partyId.toNat then .next (s |> regAdd (pgPty + 0x160) 1 |> ptyEvent 0x5104 member)
    else if !([MState.active, .away, .leaving].contains (rMember r member).state) then
      let s1 := regAdd (pgPty + 0x160) 1 s
      let last := tget 0 p.hintBolt member
      .next (if (rMember r member).state = .lost && (last = 0 || last + 64 ≤ boltN s + 1)
             then syncHint member (ptyMod (fun p => { p with hintBolt := tset 0 member (boltN s + 1) p.hintBolt }) s1) else s1)
    else if leAt m 0x10 8 ≤ tget 0 p.hbRx member then .next (s |> regAdd (pgPty + 0x158) 1 |> ptyEvent 0x5103 member)
    else match ptyTag (m.take 32) s with
      | (some tag, t) =>
        if tag = m.drop 0x30 then
          let t1 := t |> regAdd (pgPty + 0x148) 1 |> ptyMod (fun p =>
            { p with hbRx := tset 0 member (leAt m 0x10 8) p.hbRx, lastHb := tset 0 member (boltN t) p.lastHb,
                     silent := tset false member false p.silent, suspectSent := tset 0 member 0 p.suspectSent })
          let t2 := if tget 0 p.suspectSent member = 0 then t1
            else match collector r member with
              | some y => ptySend y 0x16 (natLe 2 member) t1
              | none => t1
          .next (sawEpoch member (leAt m 8 4) (leAt m 6 2 % 1024) (some (leAt m 0xC 4)) t2)
        else .next (t |> regAdd (pgPty + 0x150) 1 |> ptyEvent 0x5102 member)
      | (none, t) => .next (t |> regAdd (pgPty + 0x150) 1 |> ptyEvent 0x5102 member)

/-- SILENT_MARK (R392): 64 bolts without a valid heartbeat. -/
def execSilentMark (member : Nat) (s : State) : Host.Outcome State Fault Refusal :=
  if 1024 ≤ member then .fault .noSuchUnit
  else if ptyUp s && watches s s.party.roster member && tget 0 s.party.lastHb member + 64 ≤ boltN s then
    .next (ptyMod (fun p => { p with silent := tset false member true p.silent }) s)
  else .next s

/-- The REASON for which the part suspects a member now (R393). -/
def suspectReason (x : Nat) (s : State) : Option Nat :=
  let p := s.party
  let last := tget 0 p.lastHb x
  match (rMember p.roster x).state with
  | .active => if tget false p.silent x && last + secBolts p.roster.lossS ≤ boltN s then some 1 else none
  | .away => if last + 64 ≤ boltN s && tget 0 p.awayBolt x + secBolts p.roster.awayS ≤ boltN s then some 2 else none
  | _ => none

/-- SUSPECT_SEND (R393): to the collector, repeated every 4,096 bolts while the condition holds. -/
def execSuspectSend (member : Nat) (s : State) : Host.Outcome State Fault Refusal :=
  if 1024 ≤ member then .fault .noSuchUnit
  else
    let p := s.party
    let sent := tget 0 p.suspectSent member
    match suspectReason member s, collector p.roster member with
    | some why, some y =>
      if ptyUp s && watches s p.roster member && (sent = 0 || sent + 4096 ≤ boltN s + 1) then
        .next (s |> ptyMod (fun p => { p with suspectSent := tset 0 member (boltN s + 1) p.suspectSent })
                 |> ptySend y 0x15 (natLe 2 member ++ natLe 1 why ++ zeros 1 ++ natLe 4 (boltN s - tget 0 p.lastHb member)))
      else .next s
    | _, _ => .next s

/-! ### Epochs (R393, R394) -/

/-- The part may issue an epoch now: the steward, or the collector that declares the steward lost. -/
def mayIssue (s : State) : Bool :=
  let p := s.party
  ptyUp s && p.state = .active && !p.superseded && !p.held.isEmpty && pickN s % 256 = 0 && boltN s % 16 = 0 &&
  (isSteward s || p.held.all fun c => some c.1 = steward p.roster && c.2.state = .lost)

/-- EPOCH_ISSUE (R394): at most 16 held changes become the next epoch. -/
def execEpochIssue (s : State) : Host.Outcome State Fault Refusal :=
  if !mayIssue s then .next s
  else
    let p := s.party
    let old := p.roster
    let cs := p.held.take 16
    let new : Roster := { old with epoch := old.epoch + 1, issuer := p.index,
                                   members := cs.foldl (fun t c => tset {} c.1 c.2 t) old.members }
    let body := natLe 4 new.epoch.toNat ++ natLe 4 (rosterCrc new) ++ natLe 1 cs.length ++ zeros 7 ++
      cs.flatMap fun c => natLe 2 c.1 ++ natLe 8 (entryNat c.2) ++ zeros 2
    let s1 := note 0x5181 pgPty new.epoch.toNat (applyRoster new (ptyMod (fun p => { p with held := p.held.drop 16 }) s))
    let others := (rosterIn (· ≠ .free) new).filter (· ≠ p.index)
    .next (others.foldl (fun s x =>
      if (rMember old x).state = .free then sendRoster x (rMember new x).hpa s else ptySendAt x (rMember new x).hpa 0x12 body s) s1)

/-- LOST_MEMBER_FREE (R393): 7 days after the epoch that declared it. -/
def execLostMemberFree (member : Nat) (s : State) : Host.Outcome State Fault Refusal :=
  if 1024 ≤ member then .fault .noSuchUnit
  else if ptyUp s && isSteward s && tget 0 s.party.lostBolt member + 590625000 ≤ boltN s then .next (holdState member [.lost] .free s)
  else .next s

/-! ### Resends, acknowledgements, capacity (R381, R389) -/

/-- MESSAGE_RESEND (R389): a message without an ACK for 64 picks goes again under a new counter; the 16th send is the last. -/
def execMessageResend (member counter : Nat) (s : State) : Host.Outcome State Fault Refusal :=
  if 1024 ≤ member then .fault .noSuchUnit
  else match s.party.out.find? fun m => m.to_ = member && m.counter = counter && counter ≠ 0 with
    | none => .next s
    | some m =>
      if !ptyUp s || pickN s < m.pick + 64 then .next s
      else if 16 ≤ m.sends then .next (ptyPump (ptyMod (fun p => { p with out := p.out.filter (· ≠ m), dropped := p.dropped ++ [m] }) s))
      else match cellSend m.to_ m.hpa m.type m.body s with
        | (none, t) => .next t
        | (some n, t) =>
          let m1 := { m with counter := n, pick := pickN t, sends := m.sends + 1 }
          .next (t |> ptyMod (fun p => { p with out := p.out.map fun o => if o = m then m1 else o }) |> regAdd (pgPty + 0x168) 1)

/-- ACK_SEND (R389): one ACK per sender, at the first pick boundary after a message was accepted. -/
def execAckSend (member : Nat) (s : State) : Host.Outcome State Fault Refusal :=
  if 1024 ≤ member then .fault .noSuchUnit
  else
    let m := rMember s.party.roster member
    if !ptyUp s || s.party.state = .lost || !s.due.contains (.partyAck member) || m = {} then .next s
    else
      match cellSend member m.hpa 0x02 (natLe 8 (tget 0 s.party.rx member) ++ natLe 2 (tget 0 s.party.rxMask member)) s with
      | (none, t) => .next t
      | (some _, t) => .next { t with due := t.due.filter (· ≠ .partyAck member) }

/-- FREE_GIB has changed enough to be told (R381): by at least 1/16 of what was told, or through 0. -/
def capChanged (s : State) : Bool :=
  let a := s.party.capSent
  let b := freeGib s
  a ≠ b && (a = 0 || b = 0 || a ≤ 16 * (max a b - min a b))

/-- CAP_SEND (R381). -/
def execCapSend (s : State) : Host.Outcome State Fault Refusal :=
  if ptyUp s && [PState.active, .away, .leaving].contains s.party.state && capChanged s && s.party.capBolt + 1024 ≤ boltN s then
    .next (s |> ptyMod (fun p => { p with capSent := freeGib s, capBolt := boltN s }) |> ptySteward 0x1B (natLe 4 (freeGib s)))
  else .next s

/-! ### Commands (R400 to R402) -/

/-- A contiguous run of `n` 1 GiB steps of map indices that nothing uses (R150, R406, R411), the lowest (log entry 6). -/
def freeGibs (n : Nat) (s : State) : Option Nat :=
  let table := if s.mender.table = 0 then [] else [(s.mender.tableBase, tableGib s)]
  let taken := (s.nss.filter fun e => e.2.units ≠ 0).map (fun e => (e.2.base, cdiv e.2.units 65536)) ++ table ++
    s.mender.extents.map fun b => (b, 1)
  (List.range (s.media.tnvmcap.getD 0 + 1 - n)).find? fun b => taken.all fun t => !overlap (b, n) t

/-- Takes the map range of the stripe table at the first Join (R411). None: there is none. -/
def takeTableRange (s : State) : Option State :=
  if s.mender.table ≠ 0 then some s
  else (freeGibs (tableGib s) s).map fun b => { s with mender := { s.mender with table := 2, tableBase := b } }

/-- The fields of Party Join (R400). -/
def joinOk (e : Sqe) (bs : Bytes) : Bool :=
  let found := bit (dword e 10) 0
  clearN (dword e 10) 0x03FF0001 = 0 && leAt bs 0 8 ≠ 0 && leAt bs 8 8 % 2 ^ 26 = 0 && leAt bs 0x20 32 = 0 &&
  (if found then 60 ≤ leAt bs 0x1A 2 && leAt bs 0x1A 2 ≤ 14400 &&
      (leAt bs 0x1C 4 = 0 || (60 ≤ leAt bs 0x1C 4 && leAt bs 0x1C 4 ≤ 86400))
   else leAt bs 0x10 8 % 2 ^ 26 = 0 && leAt bs 0x18 2 < 1024)

/-- What both Join rows do once the critical command is verified. -/
def joinAct (c : Nat) (s : State) : State :=
  let x := ctxGet c s
  match hostData c 64 s with
  | (none, t) => t
  | (some bs, t) =>
    let i := bits (dword x.sqe 10) 25 16
    let id : W64 := BitVec.ofNat 64 (leAt bs 0 8)
    let hpa := leAt bs 8 8 / 2 ^ 26
    if !joinOk x.sqe bs then finish c stField t
    else if t.party.state ≠ .none then finishDw c stOk 1 0 t
    else if (keyOf 1 0 t).isNone then finishDw c stOk 4 0 t
    else match takeTableRange t with
      | none => finish c stNsCapacity t
      | some t =>
        if bit (dword x.sqe 10) 0 then
          let r : Roster := { partyId := id, epoch := 1, issuer := i, awayS := leAt bs 0x1A 2,
                              lossS := if leAt bs 0x1C 4 = 0 then 600 else leAt bs 0x1C 4,
                              members := [(i, { hpa := hpa, state := .active, freeGib := freeGib t })] }
          t |> ptyMod (fun p => { p with state := .active, index := i, selfHpa := hpa, roster := r, hbDue := true, capSent := freeGib t })
            |> ptyRecord |> note 0x5186 pgPty i |> finish c stOk
        else
          let body := natLe 2 i ++ zeros 2 ++ natLe 4 (freeGib t) ++ natLe 8 (hpa * 2 ^ 26)
          t |> ptyMod (fun p => { p with state := .joining, index := i, selfHpa := hpa, roster := { partyId := id },
                                         joinCtx := some c, joinLimit := boltN t + 4096, capSent := freeGib t })
            |> ctxMod c (fun x => { x with phase := 10 })
            |> ptySendAt (leAt bs 0x18 2) (leAt bs 0x10 8 / 2 ^ 26) 0x10 body

/-- A Join row: the critical command of R400, FOUND as the row says. -/
def joinRow (c : Nat) (found : Bool) (s : State) : State :=
  let x := ctxGet c s
  if !holdsCmd c 0xD5 false s || bit (dword x.sqe 10) 0 ≠ found || x.phase = 10 then s
  else match critGate c s with
    | some t => t
    | none => joinAct c s

/-- PARTY_JOIN_FOUND (R400). -/
def execPartyJoinFound (ctx : Nat) (s : State) : Host.Outcome State Fault Refusal := .next (joinRow ctx true s)

/-- PARTY_JOIN (R400). -/
def execPartyJoin (ctx : Nat) (s : State) : Host.Outcome State Fault Refusal := .next (joinRow ctx false s)

/-- JOIN_TIMEOUT (R400): no answer within 4,096 bolts. -/
def execJoinTimeout (s : State) : Host.Outcome State Fault Refusal :=
  if s.party.state = .joining && s.party.joinLimit ≤ boltN s then .next (ptyClear (joinEnd 2 s)) else .next s

/-- PARTY_LEAVE (R401). -/
def execPartyLeave (ctx : Nat) (s : State) : Host.Outcome State Fault Refusal :=
  let x := ctxGet ctx s
  if !holdsCmd ctx 0xD8 false s || x.phase = 10 then .next s
  else if clearN (dword x.sqe 10) 1 ≠ 0 then .next (finish ctx stField s)
  else match critGate ctx s with
    | some t => .next t
    | none =>
      if s.party.state = .none || s.party.state = .joining then .next (finish ctx vsNotMember s)
      else if s.party.state = .lost then .next (finish ctx stOk (ptyClear s))
      else
        let force := bit (dword x.sqe 10) 0
        .next (s |> ctxMod ctx (fun x => { x with phase := 10 })
                 |> ptyMod (fun p => { p with leaveCtx := some ctx, leaveLimit := boltN s + 4096, leaveForce := force })
                 |> ptySteward 0x19 (natLe 1 (b2n force)))

/-- LEAVE_TIMEOUT (R401): no epoch within 4,096 bolts; the resends of R389 go on. -/
def execLeaveTimeout (s : State) : Host.Outcome State Fault Refusal :=
  if s.party.leaveCtx.isSome && s.party.leaveLimit ≤ boltN s then .next (leaveEnd 2 s) else .next s

/-- `PTY_STAT`.STATE (R403). -/
def PState.code : PState → Nat
  | .none => 0 | .joining => 1 | .active => 2 | .away => 3 | .leaving => 4 | .lost => 5

/-- The part is a member: it has a roster. -/
def isMember (s : State) : Bool := s.party.state ≠ .none && s.party.state ≠ .joining

/-- The 64-byte header of log page 0xC3 (R402). -/
def partyHeader (s : State) : Bytes :=
  let p := s.party
  let mem := isMember s
  natLe 2 1 ++ natLe 1 p.state.code ++ zeros 1 ++ natLe 4 8256 ++ natLe 8 (pickN s) ++
  (if mem then rosterHeader p.roster else zeros 32) ++ natLe 2 p.index ++ natLe 2 (if mem then (steward p.roster).getD 0 else 0) ++
  natLe 2 (watched s).length ++ natLe 2 (watchedSilent s).length ++ natLe 4 p.boot ++ zeros 4

/-- `PTY_SILENT[j]` (R403). -/
def silentWord (j : Nat) (s : State) : Nat :=
  (List.range 32).foldl (fun v k => v + (if (watchedSilent s).contains (32 * j + k) then 2 ^ k else 0)) 0

/-- PARTY_STATUS (R402). -/
def execPartyStatus (ctx : Nat) (s : State) : Host.Outcome State Fault Refusal :=
  if !holdsCmd ctx 0xDA false s then .next s
  else
    let l := (List.range 32).flatMap fun j => natLe 4 (silentWord j s)
    .next (adminData ctx (partyHeader s ++ l ++ zeros 64) s)

/-! ### Restart and the seal (R396, R398) -/

/-- The Party at a restart (R398): the boot count advances, the stored roster is resumed; a part that finds itself AWAY sends
BACK later (R396). -/
def ptyResume (s : State) : State :=
  let d := s.die.party
  let boot := (d.boot + 1) % 2 ^ 32
  let r := d.roster
  let q : Party := { boot := boot }
  let p : Party :=
    if r.partyId = 0 then q
    else
      let st : PState := match (rMember r d.index).state with
        | .active => .active
        | .away => .away
        | .leaving => .leaving
        | .lost => .lost
        | .free => .active
      { q with state := st, index := d.index, selfHpa := d.selfHpa, roster := r, rx := d.rx, rxMask := d.rxMask, hbRx := d.hbRx,
               hbDue := true, backDue := st = .away }
  let s1 := ptyDurable { d with boot := boot } { s with party := p }
  if p.state = .none then s1
  else (tkeys r.members).foldl (fun s x =>
    ptyMod (fun p => { p with lastHb := tset 0 x (boltN s) p.lastHb,
                              awayBolt := if (rMember r x).state = .away then tset 0 x (boltN s) p.awayBolt else p.awayBolt,
                              lostBolt := if (rMember r x).state = .lost then tset 0 x (boltN s) p.lostBolt else p.lostBolt }) s) s1

/-- BACK once the controllers may report ready (R396). -/
def backSend (s : State) : State :=
  if s.party.backDue && s.boot.phase = .ready then
    ptySteward 0x18 [] (ptyMod (fun p => { p with backDue := false, hbDue := true }) s)
  else s

/-- Arrived cells that hold no message of a defined type are dropped (R387, R388 step 1). -/
def dropUndefined (s : State) : State :=
  if !accepts pgPty s || !running s || pfOn s then s
  else ((tkeys s.party.arrived).filter fun k => 2048 ≤ k && itemReady k s &&
      (msgForm (cellType (cellAt (k - 2048) s)) (cellBody (cellAt (k - 2048) s))).isNone).foldl (fun s k =>
    s |> itemTaken k |> regAdd (pgPty + 0x160) 1 |> ptyEvent 0x5104 ((k - 2048) / 16)) s

end Sys2Proof.Machine
end

