-- ==== Sys2Proof/Machine/Mender.lean ====
section
/-!
DEFINITION. The Mender (R405 to R431): the erasure code, the shard store and the stripe table, bulk chunks (R399), Spread
Write, Shard Read and Mend, the repair messages, and the relay. Firmware's own Mender work (coding, shard reads, digests) is
done whole within the step that needs it, and is charged to the repair share (log entries 46, 47).
-/
namespace Sys2Proof.Machine

def mndMod (g : Mender → Mender) (s : State) : State := { s with mender := g s.mender }

/-! ### The code (R408, R409) -/

/-- C[i][j] for k data shards (R408). -/
def cauchy (k i j : Nat) : Nat := gfInv (Nat.xor (k + i) j)

/-- Row `e` of G (R408). -/
def gRow (k e : Nat) : List Nat :=
  (List.range k).map fun j => if e < k then b2n (j = e) else cauchy k (e - k) j

/-- One column of Gauss–Jordan elimination over GF(2^8): the pivot row is brought to the column's place and scaled to 1. -/
def gjStep (rows : List (List Nat)) (c : Nat) : List (List Nat) :=
  match (List.range rows.length).find? fun r => c ≤ r && (rows.getD r []).getD c 0 ≠ 0 with
  | none => rows
  | some p =>
    let row := rows.getD p []
    let piv := row.map (gfMul (gfInv (row.getD c 0)))
    ((rows.set p (rows.getD c [])).set c piv).zipIdx.map fun q =>
      if q.2 = c then q.1 else List.zipWith (fun a b => Nat.xor a (gfMul (q.1.getD c 0) b)) q.1 piv

/-- The inverse of a square matrix over GF(2^8). -/
def gfInverse (rows : List (List Nat)) : List (List Nat) :=
  let n := rows.length
  let aug := rows.zipIdx.map fun q => q.1 ++ (List.range n).map fun j => b2n (j = q.2)
  ((List.range n).foldl gjStep aug).map (·.drop n)

/-- The coefficients of a helper set for shard `e` (R409). -/
def coefficients (k e : Nat) (h : List Nat) : List Nat :=
  let b := gfInverse (h.map (gRow k))
  let g := gRow k e
  (List.range k).map fun r =>
    (List.range k).foldl (fun c t => Nat.xor c (gfMul (g.getD t 0) ((b.getD t []).getD r 0))) 0

/-- The parity slice of shard k + i over data slices (R408). -/
def paritySlice (k i : Nat) (data : List Bytes) : Bytes :=
  data.zipIdx.foldl (fun acc d => macRow (cauchy k i d.2) acc d.1) (zeros ((data.headD []).length))

/-! ### Stripe records and the table (R410, R411) -/

def StripeState.code : StripeState → Nat
  | .open_ => 0 | .sealed => 1 | .repairing => 2 | .damaged => 3

def stripeStateOf (n : Nat) : StripeState :=
  match n with
  | 0 => .open_
  | 1 => .sealed
  | 2 => .repairing
  | _ => .damaged

/-- MEMBERS as 40 bytes (R410). -/
def membersBytes (l : List Nat) : Bytes :=
  natLe 40 ((List.range 32).foldl (fun v i => v + l.getD i 0x3FF % 1024 * 2 ^ (10 * i)) 0)
def membersOf (b : Bytes) (n : Nat) : List Nat := (List.range n).map fun i => leNat b / 2 ^ (10 * i) % 1024

/-- A stripe record of 96 bytes; in a message LOCAL and LBA are 0 (R410). -/
def stripeRecord (e : Stripe) (own : Bool) : Bytes :=
  natLe 8 e.id ++ natLe 1 e.k ++ natLe 1 e.m ++ natLe 1 e.shardLog2 ++ natLe 1 (if own then e.local_ else 0) ++ natLe 4 e.epoch ++
  natLe 6 (if own then e.lba else 0) ++ natLe 2 e.state.code ++ membersBytes e.members ++ natLe 32 e.digest.toNat

/-- What a record says; LOCAL and LBA are the receiver's own. -/
def recordOf (b : Bytes) : Stripe :=
  let k := leAt b 8 1
  let m := leAt b 9 1
  { held := true, id := leAt b 0 8, k := k, m := m, shardLog2 := leAt b 10 1, local_ := leAt b 11 1, epoch := leAt b 12 4,
    state := stripeStateOf (leAt b 0x16 2 % 8), members := membersOf ((b.drop 0x18).take 40) (min 32 (k + m)),
    digest := BitVec.ofNat 256 (leAt b 0x40 32) }

/-- The table entry of 128 bytes (R410). -/
def stripeEntry (e : Stripe) : Bytes := stripeRecord e true ++ natLe 32 e.shardDigest.toNat

/-- The held stripe of an ID: entry number and entry. -/
def stripeFind (id : Nat) (s : State) : Option (Nat × Stripe) := s.mender.stripes.find? fun e => e.2.held && e.2.id = id
def stripePut (n : Nat) (e : Stripe) (s : State) : State := mndMod (fun m => { m with stripes := tset {} n e m.stripes }) s

/-- Applies a change to the held stripe of an ID. -/
def stripeMod (id : Nat) (g : Stripe → Stripe) (s : State) : State :=
  match stripeFind id s with
  | some (n, e) => stripePut n (g e) s
  | none => s

/-- Bytes of a shard. -/
def Stripe.size (e : Stripe) : Nat := 2 ^ e.shardLog2
/-- Shards of a stripe. -/
def Stripe.n (e : Stripe) : Nat := e.k + e.m

/-- The other members of a stripe. -/
def Stripe.others (e : Stripe) (s : State) : List Nat := e.members.filter (· ≠ s.party.index)

/-! ### The shard store (R406) -/

/-- Granules of the store that shards take: first granule and granules. -/
def shardRanges (s : State) : List (Nat × Nat) := s.mender.stripes.map fun e => (e.2.lba, e.2.size / 4096)

/-- A place for a shard of `n` bytes in one extent, aligned to 1 MiB: the lowest (log entry 6). -/
def placeInExtent (b n : Nat) (s : State) : Option Nat :=
  (List.range (1024 - n / 1048576 + 1)).findSome? fun i =>
    let a := b * 262144 + i * 256
    if (shardRanges s).all fun r => !overlap (a, n / 4096) r then some a else none

/-- Allocates a shard (R406): in an extent of the store, or in a new one. None: no room, or the part is read-only. -/
def placeShard (log2 : Nat) (s : State) : Option (Nat × State) :=
  if s.media.ro || log2 < 20 || 26 < log2 then none
  else match s.mender.extents.findSome? fun b => placeInExtent b (2 ^ log2) s with
    | some a => some (a, s)
    | none => (freeGibs 1 s).map fun b => (b * 262144, mndMod (fun m => { m with extents := m.extents ++ [b] }) s)

/-- Puts a new entry for a shard into the table: entry number a ÷ 1 MiB (R411). -/
def stripeNew (e : Stripe) (a : Nat) (s : State) : State := stripePut (a / 256) { e with lba := a } s

/-- Frees the slots of a stream. -/
def slotsFree (stream : Nat) (s : State) : State :=
  ptyMod (fun p => { p with slots := p.slots.filter fun e => e.2.stream ≠ stream }) s

/-- Frees a shard and its entry (R406, R427): its units read as zeros from then on, and an extent without a shard returns to
the free ranges. The discards go to the journal in transactions of 1 MiB. -/
def freeShard (id : Nat) (s : State) : State :=
  match stripeFind id s with
  | none => s
  | some (n, e) =>
    let s1 := mndMod (fun m => { m with stripes := tset {} n {} m.stripes, queue := m.queue.filter (· ≠ id),
                                        hops := m.hops.filter fun h => !(h.stream = e.stream && e.stream ≠ 0),
                                        commits := m.commits.filter (·.stripe ≠ id) })
                (if e.stream ≠ 0 then slotsFree e.stream s else s)
    let (q, s2) := takeSeq storeNsid s1
    let s3 := (List.range (e.size / 1048576)).foldl (fun s i =>
      let t := s.jnl.nextTxid
      let u := e.lba / 4 + 64 * i
      jFlush { s with jnl := { s.jnl with nextTxid := t + 1 } }
        |> jIssue [recDiscard 64 t u, recCommit 1 (storeNsid - 1) t q] [.commit 16777215 t storeNsid q false]
        |> discardRun storeNsid q (u, 64)) s2
    let b := e.lba / 262144
    if s3.mender.stripes.any fun r => r.2.lba / 262144 = b then s3
    else mndMod (fun m => { m with extents := m.extents.filter (· ≠ b) }) s3

/-- The newest committed contents of a unit: staging over the map (R83, R152). -/
def unitNow (i : Nat) (s : State) : List Granule :=
  let l := s.jnl.slots.filter fun e => e.2.used && e.2.committed && e.2.midx = i && e.2.released.isNone
  combine i (sortBy (fun a b => a.2.seq ≤ b.2.seq) l) s

/-- Bytes [off, off + n) of a local shard, and whether a granule of them is poisoned. -/
def shardBytes (e : Stripe) (off n : Nat) (s : State) : Bytes × Bool :=
  let a := e.lba + off / 4096
  let us := (unitsOf [(a, n / 4096)]).map fun i => (i, unitNow i s)
  let gs := (List.range (n / 4096)).map fun k => ((us.lookup ((a + k) / 4)).getD []).getD ((a + k) % 4) {}
  (granuleBytes gs, gs.any (·.poison))

/-- Reads the map entry of a unit of a local shard that staging does not hold whole, and the unit (R153, R154, R147). False: the DRAM's copy
of the entry is poisoned, and its segment is being rebuilt. -/
def shardUnit (i : Nat) (s : State) : Bool × State :=
  if coveredWhole i (unitSlots i s) s then (true, s)
  else match mapSeek i s with
    | (none, t) => (false, t)
    | (some e, t) =>
      (true, if eValid e && !eDisc e && !ePoisoned e then t |> regAdd (pgFlc 0 + 0x250) 1 |> regAdd (pgFch (puaChan (ePua e)) + 0x110) 1 else t)

/-- Reads the map entries and units of bytes of a local shard, for work that takes its bytes. False: it has to wait. -/
def shardSeek (e : Stripe) (off n : Nat) (s : State) : Bool × State :=
  (unitsOf [(e.lba + off / 4096, n / 4096)]).foldl (fun q i => let r := shardUnit i q.2; (q.1 && r.1, r.2)) (true, s)

/-- As `shardSeek`, for the whole local shard of a stripe that the part may hold; every segment has to be built. -/
def shardReady (id : Nat) (s : State) : Bool × State :=
  match stripeFind id s with
  | none => (true, s)
  | some (_, e) => if allBuilt s then shardSeek e 0 e.size s else (false, s)

/-- Charges `n` repair chunks to F0's REPAIR (R428, R435). -/
def repairCharge (n : Nat) (s : State) : State := charge 0 rRepair n s

/-- Charges one Mender job and counts it (R412, R428, R430). -/
def mndJob (nin nout len : Nat) (s : State) : State :=
  s |> regAdd (pgMnd + 0x118) (nin * len) |> regAdd (pgMnd + 0x120) (nout * len) |> regAdd (pgMnd + 0x128) 1
    |> repairCharge (cdiv (nin * len) 65536)

/-- The SHA-256 of the whole local shard (R417, R427), stored as SHARD_DIGEST. None: a granule is unreadable. -/
def shardHash (id : Nat) (s : State) : Option (BitVec 256) × State :=
  match stripeFind id s with
  | none => (none, s)
  | some (n, e) =>
    let (bs, bad) := shardBytes e 0 e.size s
    let s1 := repairCharge (2 * (e.size / 65536)) s
    if bad then (none, s1)
    else
      let d := BitVec.ofNat 256 (leNat (sha256 bs))
      (some d, stripePut n { e with shardDigest := d } s1)

/-- Stages a chunk of a shard as one transaction and issues its words (R159, R416). None: staging has no room. -/
def storeWrite (e : Stripe) (off : Nat) (bs : Bytes) (s : State) : Option (Nat × State) :=
  let us := stageUnits (e.lba + off / 4096) (toGranules bs) false e.id
  let free := (List.range (slotCount s)).filter fun k => !(slotGet k s).used
  if free.length < us.length || s.jnl.ringHold then none
  else
    let t := s.jnl.nextTxid
    let (q, s0) := takeSeq storeNsid { s with jnl := { s.jnl with nextTxid := t + 1 } }
    let com := recCommit us.length (storeNsid - 1) t q
    let s1 := (us.zip free).zipIdx.foldl (fun s p =>
      let u := p.1.1
      let slot : Slot := { used := true, midx := u.midx, gmask := u.gmask, txid := t, seq := q, full := true, nsid := storeNsid,
                           pos := jHead s, stripe := u.stripe }
      let r := recStage u.gmask.toNat p.1.2 t u.midx
      let s := s |> slotSet p.1.2 slot |> slotStore p.1.2 u.gmask u.gs
      if p.2 + 1 = us.length then jIssue [r, com] [.commit 16777215 t storeNsid q false] s else jIssue [r] [] s) s0
    some (t, repairCharge 1 s1)

/-! ### Messages and streams (R421) -/

/-- A new stream of the part (R421). -/
def newStream (s : State) : Nat × State :=
  let n := s.mender.streams + 1
  (s.party.index * 2 ^ 54 + n % 2 ^ 54, mndMod (fun m => { m with streams := n }) s)

def planAck (x stream result resume : Nat) (s : State) : State :=
  ptySend x 0x41 (natLe 8 stream ++ natLe 1 result ++ zeros 7 ++ natLe 8 resume) s
def grantMsg (x stream : Nat) (l : List Nat) (s : State) : State :=
  ptySend x 0x42 (natLe 8 stream ++ natLe 1 l.length ++ zeros 1 ++ l.flatMap (natLe 2)) s
def chunkOk (x stream done : Nat) (s : State) : State := ptySend x 0x43 (natLe 8 stream ++ natLe 8 done) s
def hopFail (x stream member reason at_ : Nat) (s : State) : State :=
  ptySend x 0x44 (natLe 8 stream ++ natLe 2 member ++ natLe 1 reason ++ zeros 5 ++ natLe 8 at_) s
def idMsg (type x id : Nat) (s : State) : State := ptySend x type (natLe 8 id) s

/-- Sends a message to every member of a list. -/
def toAll (l : List Nat) (type : Nat) (body : Bytes) (s : State) : State := l.foldl (fun s x => ptySend x type body s) s

/-- The stream's owner (R421). -/
def streamOwner (stream : Nat) : Nat := stream / 2 ^ 54

/-- A message of a type about a stripe still waits for its ACK, or was dropped after its resends. -/
def msgWaits (type id : Nat) (s : State) : Bool :=
  (s.party.out.any fun m => m.type = type && leAt m.body 0 8 = id) || s.party.toSelf.any fun m => m.1 = type && leAt m.2 0 8 = id
def msgDropped (type id : Nat) (s : State) : Bool := s.party.dropped.any fun m => m.type = type && leAt m.body 0 8 = id
def msgForget (id : Nat) (s : State) : State :=
  ptyMod (fun p => { p with dropped := p.dropped.filter fun m => leAt m.body 0 8 ≠ id }) s

/-- Chunk slots of the window that are free. -/
def freeSlots (s : State) : List Nat := (List.range 896).filter fun k => !(slotOf k s).granted

/-- Grants two slots of a stream to a sender (R421). -/
def grantTwo (x stream : Nat) (s : State) : State :=
  let l := (freeSlots s).take 2
  grantMsg x stream l (l.foldl (fun s k => slotPut k { granted := true, sender := x, stream := stream } s) s)

/-- Grants a consumed slot again (R421). -/
def regrant (k : Nat) (s : State) : State :=
  let x := slotOf k s
  grantMsg x.sender x.stream [k] (slotPut k { granted := true, sender := x.sender, stream := x.stream } s)

/-- The Mender may work: enabled, not fenced, the restart done and every map segment built, so that shards can be read. -/
def mndUp (s : State) : Bool := accepts pgMnd s && running s && !pfOn s && allBuilt s

/-- Roles of R430 `MND_PLANS`. -/
def plansAs (r : PlanRole) (s : State) : Nat := (s.mender.plans.filter (·.role = r)).length
def mayHelp (s : State) : Bool :=
  plansAs .helper s + plansAs .target s < regFld (pgMnd + 0x140) 15 8 s && 2 ≤ (freeSlots s).length && accepts pgMnd s

/-! ### Sending chunks (R399, R416, R426, R428) -/

/-- The header of a chunk (R399). -/
def chunkHeader (kind : Nat) (last : Bool) (slot stream off : Nat) (data : Bytes) (seq : Nat) (s : State) : Bytes :=
  natLe 2 0x4B43 ++ natLe 1 kind ++ natLe 1 (b2n last) ++ natLe 2 s.party.index ++ natLe 2 slot ++ natLe 8 stream ++ natLe 8 off ++
  natLe 4 data.length ++ natLe 4 (crc32c data) ++ natLe 4 s.party.roster.epoch.toNat ++ natLe 4 seq ++ zeros 24

/-- Chunk buffers of the firmware area, 64 KiB each above its first MiB (R188), and a free one for a hop that is being pumped. -/
def chunkBufs (s : State) : Nat := bits (regGet (pgHam + 0x104) s) 26 16 - 16
def bufFree (h : Hop) (s : State) : Option Nat :=
  (List.range (chunkBufs s)).find? fun k => !(h.flying.any (·.buf = k)) && !(s.mender.hops.any fun q => q.flying.any (·.buf = k))

/-- Loads a chunk into its buffer, and whether the buffer reads as poisoned (R197). -/
def chunkLoad (f : Fly) (s : State) : State := if fenced pgHam s then s else hamWrite (hamVia 1 s) (chunkOffset f.buf s) f.data false s
def chunkPoison (f : Fly) (s : State) : Bool := !fenced pgHam s && (hamRead (chunkOffset f.buf s) f.data.length s).2

/-- Writes a chunk from its buffer into a granted slot of the receiver: the data, then the header (R385, R399). -/
def chunkWrite (h : Hop) (f : Fly) (s : State) : State :=
  let a := (rMember s.party.roster h.to_).hpa * 2 ^ 26
  let s := if fenced pgHam s then s else hamMet (hamVia 1 s) (chunkOffset f.buf s) f.data.length s
  s |> emit (.peer (a + 0x800000 + 65536 * f.slot) f.data (uioOn s))
    |> emit (.peer (a + 0x10000 + 64 * f.slot) (chunkHeader h.kind (f.off + f.data.length = h.end_) f.slot h.stream f.off f.data f.seq s) (uioOn s))
    |> repairCharge 1

/-- The repair share leaves room for a chunk of Spread Write (kind 1) or of repair: when both wait, each gets at least half
(R428). -/
def shareLeft (kind : Nat) (s : State) : Bool :=
  let m := s.mender
  let waits := m.hops.any fun h => !h.queue.isEmpty && ((h.kind = 1) ≠ (kind = 1))
  let used := if m.usedBolt = boltN s then (if kind = 1 then m.usedSpread else m.usedRelay) else 0
  !spent 0 rRepair s && (!waits || (budget 0 rRepair s).all fun b => 2 * used < b)

def shareUse (kind : Nat) (s : State) : State :=
  mndMod (fun m =>
    let m := if m.usedBolt = boltN s then m else { m with usedBolt := boltN s, usedSpread := 0, usedRelay := 0 }
    if kind = 1 then { m with usedSpread := m.usedSpread + 1 } else { m with usedRelay := m.usedRelay + 1 }) s

/-- Sends what a hop can send now: a queued chunk for each granted slot; `fuel` chunks at most. -/
def hopPump : Nat → Hop → State → Hop × State
  | 0, h, s => (h, s)
  | n + 1, h, s =>
    match h.slots, h.queue, bufFree h s with
    | k :: ks, (off, data) :: q, some b =>
      if !s.cxl.up || !shareLeft h.kind s then (h, s)
      else
        let f : Fly := { slot := k, off := off, data := data, seq := h.seq, buf := b }
        hopPump n { h with slots := ks, queue := q, flying := h.flying ++ [f], seq := h.seq + 1 } (shareUse h.kind (chunkWrite h f (chunkLoad f s)))
    | _, _, _ => (h, s)

/-- Pumps every hop. -/
def hopsPump (s : State) : State :=
  if !ptyUp s || !mndUp s then s
  else
    (List.range s.mender.hops.length).foldl (fun s i =>
      let (h, t) := hopPump 32 (s.mender.hops.getD i {}) s
      mndMod (fun m => { m with hops := m.hops.set i h }) t) s

/-- Applies a change to the hop of a stream to a member. -/
def hopMod (stream x : Nat) (g : Hop → Hop) (s : State) : State :=
  mndMod (fun m => { m with hops := m.hops.map fun h => if h.stream = stream && h.to_ = x then g h else h }) s

/-! ### Plans and stripes that end (R418, R425, R429) -/

/-- Takes a plan of a role out, with its hops and slots. -/
def planEnd (stream : Nat) (r : PlanRole) (s : State) : State :=
  let s1 := mndMod (fun m => { m with plans := m.plans.filter fun p => !(p.stream = stream && p.role = r),
                                      hops := if r = .helper then m.hops.filter (·.stream ≠ stream) else m.hops }) s
  if r = .lead then s1 else slotsFree stream s1

/-- The command of a stripe ends with a status; the stripe keeps its state (R418). -/
def stripeCmdEnd (id : Nat) (st : Status) (s : State) : State :=
  match stripeFind id s with
  | none => s
  | some (n, e) =>
    let s1 := stripePut n { e with step := 0, ctx := none, digests := [], unread := false } s
    let s2 := mndMod (fun m => { m with hops := m.hops.map fun h => if h.stream = e.stream && h.kind = 1 then { h with queue := [], flying := [] } else h }) s1
    match e.ctx with
    | some c => if (ctxGet c s2).used then finish c st (slotDrop c s2) else s2
    | none => s2

/-- A stripe is dropped by the part: STRIPE_DROP to every other member, and the local shard goes (R415, R417). -/
def stripeDropAll (id : Nat) (s : State) : State :=
  match stripeFind id s with
  | none => s
  | some (_, e) => freeShard id (toAll (e.others s) 0x49 (natLe 8 id) s)

/-- The lead tells everyone of a plan that it is over, and queues the stripe at the head again (R429). -/
def replan (stream : Nat) (out : Option Nat) (s : State) : State :=
  match s.mender.plans.find? fun p => p.stream = stream && p.role = .lead with
  | none => s
  | some p =>
    let all := (p.target :: (if p.asked then p.helpers else [])).eraseDups
    let s1 := planEnd stream .lead (toAll all 0x45 (natLe 8 stream) s)
    s1 |> stripeMod p.stripe (fun e => { e with excluded := match out with
          | some x => if e.excluded.contains x then e.excluded else x :: e.excluded
          | none => e.excluded })
       |> mndMod (fun m => { m with queue := p.stripe :: m.queue.filter (· ≠ p.stripe) })
       |> regAdd (pgMnd + 0x170) 1 |> note 0x5083 pgMnd (p.stripe % 2 ^ 32)

/-- Sets a stripe DAMAGED on every available member (R424, R429). -/
def stripeDamaged (id : Nat) (s : State) : State :=
  match stripeFind id s with
  | none => s
  | some (n, e) =>
    let e1 := { e with state := .damaged, step := 0, rebuilt := [] }
    s |> stripePut n e1 |> mndMod (fun m => { m with queue := m.queue.filter (· ≠ id) })
      |> toAll (e.others s) 0x48 (stripeRecord e1 false) |> note 0x5003 pgMnd (id % 2 ^ 32)

/-! ### Who repairs (R423, R424) -/

def memberState (x : Nat) (s : State) : MState := (rMember s.party.roster x).state
/-- A member is available (R423). -/
def available (x : Nat) (s : State) : Bool := let m := memberState x s; m = .active || m = .leaving

/-- The lead of a stripe: the available member of lowest shard index (R423). -/
def leadOf (e : Stripe) (s : State) : Option Nat := e.members.find? fun x => available x s

/-- The lost shards of a stripe that are not rebuilt yet, in increasing order (R423, R424). -/
def lostShards (e : Stripe) (s : State) : List Nat :=
  (List.range e.n).filter fun i =>
    let x := e.members.getD i 0x3FF
    (match memberState x s with
     | .lost | .free | .leaving => true
     | _ => false) && !(e.rebuilt.any fun r => r.1 = i)

/-- The routine of R424. -/
def chooseTarget (e : Stripe) (s : State) : Option Nat :=
  let r := s.party.roster
  let cands := (rosterIn (· = .active) r).filter fun x =>
    !e.members.contains x && !e.excluded.contains x && !(e.rebuilt.any fun q => q.2 = x) && (rMember r x).freeGib ≠ 0
  (cands.foldl (fun (best : Option (Nat × Nat)) x =>
    let w := crc32c (natLe 8 e.id ++ natLe 2 x)
    match best with
    | none => some (x, w)
    | some b => if b.2 < w then some (x, w) else some b) none).map Prod.fst

/-- The available shards other than a lost one, without the members that failed attempts have excluded (R424). -/
def helperPool (e : Stripe) (lost : Nat) (s : State) : List Nat :=
  (List.range e.n).filter fun i =>
    i ≠ lost && available (e.members.getD i 0x3FF) s && !e.excluded.contains (e.members.getD i 0x3FF)

/-- A leaving member alone gives its shard (R424). -/
def gives (e : Stripe) (lost : Nat) (s : State) : Bool :=
  let x := e.members.getD lost 0x3FF
  memberState x s = .leaving && !e.excluded.contains x

/-- A helper set is left that no attempt for a lost shard has tried (R427 steps 4 and 5). -/
def moreSets (e : Stripe) (lost : Nat) (s : State) : Bool :=
  !gives e lost s && e.k < (helperPool e lost s).length && e.attempt < e.k

/-- The helper shards for a lost shard, with their coefficients (R409, R424, R427 step 4). None: too few. -/
def chooseHelpers (e : Stripe) (lost : Nat) (s : State) : Option (List (Nat × Nat)) :=
  if gives e lost s then some [(lost, 1)]
  else
    let c := helperPool e lost s
    let out := e.firstHelpers.getD (e.attempt - 1) 0x3FF
    let c1 := if e.attempt ≠ 0 && e.k < c.length then c.filter (· ≠ out) else c
    let h := c1.take e.k
    if h.length < e.k then none else some ((h.zip (coefficients e.k lost h)).filter (·.2 ≠ 0))

/-- A PLAN message body (R422). -/
def planBody (p : Plan) (role coef prev next hops : Nat) : Bytes :=
  natLe 8 p.stream ++ natLe 8 p.stripe ++ natLe 8 p.offset ++ natLe 8 p.length ++ natLe 1 p.lost ++ natLe 1 role ++ natLe 1 coef ++
  natLe 1 p.shardLog2 ++ natLe 2 prev ++ natLe 2 next ++ natLe 1 hops ++ natLe 1 p.attempt

/-- Starts the plan for one range of one shard (R425): PLAN to the target first. -/
def planStart (e : Stripe) (lost off len target : Nat) (h : List (Nat × Nat)) (s : State) : State :=
  let (st, s1) := newStream s
  let ms := h.map fun q => e.members.getD q.1 0x3FF
  let p : Plan := { stream := st, role := .lead, stripe := e.id, offset := off, length := len, lost := lost, shardLog2 := e.shardLog2,
                    attempt := e.attempt, helpers := ms, coefs := h.map Prod.snd, target := target, hops := h.length, lastOk := boltN s }
  s1 |> mndMod (fun m => { m with plans := m.plans ++ [p] })
     |> stripeMod e.id (fun q => { q with firstHelpers := if q.attempt = 0 then h.map Prod.fst else q.firstHelpers })
     |> ptySend target 0x40 (planBody p 4 0 (ms.getLastD 0x3FF) 0x3FF h.length)

/-- PLAN to each helper, from the target's RESUME on (R425). -/
def planHelpers (p : Plan) (resume : Nat) (s : State) : State :=
  let q := { p with offset := p.offset + resume, length := p.length - resume }
  let n := p.helpers.length
  (List.range n).foldl (fun s i =>
    let role := b2n (i = 0) + 2 * b2n (i + 1 = n)
    ptySend (p.helpers.getD i 0) 0x40 (planBody q role (p.coefs.getD i 0) (if i = 0 then 0x3FF else p.helpers.getD (i - 1) 0)
      (if i + 1 = n then p.target else p.helpers.getD (i + 1) 0) n) s) s

/-- The part's own shard needs repair in these 64 KiB chunks: the first run of them (R424). -/
def ownLoss (e : Stripe) (s : State) : Option (Nat × Nat) :=
  let cs := ((s.mender.lostUnits.filter fun i => e.lba ≤ 4 * i && 4 * i < e.lba + e.size / 4096).map fun i =>
    (4 * i - e.lba) / 16).eraseDups
  (sortBy (· ≤ ·) cs).head?.map fun c => (65536 * c, 65536)

/-- A plan of the part as lead runs for a stripe. -/
def leads (id : Nat) (s : State) : Bool := s.mender.plans.any fun p => p.role = .lead && p.stripe = id

/-- Asks every holder of a stripe for its digest, targets of rebuilt shards in place of the lost members (R417, R427). -/
def holders (e : Stripe) : List Nat := e.members.zipIdx.map fun q => ((e.rebuilt.find? fun r => r.1 = q.2).map Prod.snd).getD q.1
def askDigests (id step : Nat) (s : State) : State :=
  match stripeFind id s with
  | none => s
  | some (n, e) => s |> stripePut n { e with step := step, digests := [], unread := false } |> toAll (holders e) 0x46 (natLe 8 id)

/-- The lead's next step for a queued stripe (R423, R424, R427). -/
def leadStep (id : Nat) (s : State) : State :=
  match stripeFind id s with
  | none => mndMod (fun m => { m with queue := m.queue.filter (· ≠ id) }) s
  | some (_, e) =>
    let drop (s : State) : State := mndMod (fun m => { m with queue := m.queue.filter (· ≠ id) }) s
    if leads id s || e.step ≠ 0 || regFld (pgMnd + 0x140) 7 0 s ≤ plansAs .lead s then s
    else match ownLoss e s with
      | some (off, len) =>
        (match chooseHelpers e e.local_ s with
         | none => stripeDamaged id s
         | some h => planStart e e.local_ off len s.party.index h s)
      | none =>
        if e.state = .damaged || e.state = .open_ || leadOf e s ≠ some s.party.index then drop s
        else match lostShards e s with
          | [] => if e.rebuilt.isEmpty then drop s else askDigests id 6 s
          | lost :: _ =>
            match chooseHelpers e lost s, chooseTarget e s with
            | none, _ => stripeDamaged id s
            | some _, none => s
            | some h, some x => planStart e lost 0 e.size x h s

/-! ### Digests collected (R417, R420, R427) -/

/-- All digests of a stripe have come. -/
def digestsIn (e : Stripe) : Bool := e.digests.length = e.n
/-- The stripe digest of the collected shard digests (R410). -/
def stripeDigest (e : Stripe) : BitVec 256 :=
  BitVec.ofNat 256 (leNat (sha256 ((List.range e.n).flatMap fun i => natLe 32 (tget 0 e.digests i).toNat)))

/-- What the collected digests mean: a seal, Mend VERIFY, or the end of a repair. -/
def digestsDone (n : Nat) (e : Stripe) (s : State) : State :=
  let id := e.id
  let d := stripeDigest e
  match e.step with
  | 3 =>
    if e.unread then stripeCmdEnd id vsShard s
    else
      let e1 := { e with digest := d, state := .sealed, epoch := s.party.roster.epoch.toNat, step := 4 }
      s |> stripePut n e1 |> msgForget id |> toAll (e.others s) 0x48 (stripeRecord e1 false)
  | 5 =>
    let s1 := stripePut n { e with step := 0, ctx := none, digests := [], unread := false } s
    let (r, s2) := if e.unread then (2, s1) else if d = e.digest then (0, s1) else
      (1, s1 |> note 0x5004 pgMnd (id % 2 ^ 32) |> regAdd (pgMnd + 0x178) 1)
    (match e.ctx with
     | some c => if (ctxGet c s2).used then finishDw c stOk r 0 s2 else s2
     | none => s2)
  | 6 =>
    let others := (holders e ++ e.members).eraseDups.filter fun x => x ≠ s.party.index && memberState x s ≠ .lost && memberState x s ≠ .free
    if !e.unread && d = e.digest then
      let e1 := { e with members := holders e, epoch := s.party.roster.epoch.toNat, state := .sealed, step := 0, digests := [],
                         rebuilt := [], excluded := [], attempt := 0, firstHelpers := [] }
      let s1 := s |> stripePut n e1 |> mndMod (fun m => { m with queue := m.queue.filter (· ≠ id) })
                  |> toAll others 0x48 (stripeRecord e1 false)
      if e1.members.contains s.party.index then s1 else freeShard id s1
    else
      let s1 := if e.unread then s else s |> note 0x5004 pgMnd (id % 2 ^ 32) |> regAdd (pgMnd + 0x178) 1
      let s2 := toAll (e.rebuilt.map Prod.snd) 0x49 (natLe 8 id) s1
      let e1 := { e with step := 0, digests := [], unread := false, rebuilt := [], attempt := e.attempt + 1 }
      if e.rebuilt.any (fun r => moreSets e r.1 s) then
        s2 |> stripePut n e1 |> regAdd (pgMnd + 0x170) 1 |> note 0x5083 pgMnd (id % 2 ^ 32)
      else stripeDamaged id (stripePut n e1 s2)
  | _ => s

/-- Shards whose digest will not come: the holder is LOST or FREE, or the request was dropped after its resends (log entry 122). -/
def digestGone (e : Stripe) (s : State) : List Nat :=
  (List.range e.n).filter fun i =>
    let x := (holders e).getD i 0x3FF
    !((tkeys e.digests).contains i) && x ≠ s.party.index && (memberState x s = .lost || memberState x s = .free ||
      s.party.dropped.any fun m => m.type = 0x46 && m.to_ = x && leAt m.body 0 8 = e.id)

/-- A digest that will not come counts as unreadable; a repair whose holder is lost goes on with the lost shard (R423, R427; log
entry 122). -/
def digestCheck (n : Nat) (s : State) : State :=
  let e := tget {} s.mender.stripes n
  if !([3, 5, 6].contains e.step) then s
  else match digestGone e s with
  | [] => s
  | l =>
    if e.step = 6 && l.any (fun i => !available ((holders e).getD i 0x3FF) s) then
      stripePut n { e with step := 0, digests := [], unread := false } s
    else
      let e1 := { e with unread := true, digests := l.foldl (fun d i => tput i 0 d) e.digests }
      let s1 := msgForget e.id s
      if digestsIn e1 then digestsDone n e1 s1 else stripePut n e1 s1

/-! ### What the messages do (R421 to R429) -/

/-- A spread stream is over for a stripe whose member refused (R415, R418). -/
def spreadRefused (e : Stripe) (s : State) : State := stripeDropAll e.id (stripeCmdEnd e.id vsShard s)

/-- SPREAD_OPEN (R415): the shard is allocated, PLAN_ACK and two slots follow, or a refusal. -/
def hSpreadOpen (x : Nat) (b : Bytes) (s : State) : State :=
  let st := leAt b 0 8
  let e := recordOf (b.drop 8)
  match stripeFind e.id s with
  | some (_, q) => if q.stream = st && q.issuer = x then planAck x st 0 0 s else planAck x st 1 0 s
  | none =>
    if !accepts pgMnd s || (freeSlots s).length < 2 then planAck x st 2 0 s
    else match e.members.findIdx? (· = s.party.index), placeShard e.shardLog2 s with
      | some i, some (a, t) =>
        t |> stripeNew { e with local_ := i, stream := st, issuer := x, lastBolt := boltN t, digest := 0, state := .open_ } a
          |> planAck x st 0 0 |> grantTwo x st
      | _, _ => planAck x st 1 0 s

/-- PLAN to the target (R425): entry and shard, PLAN_ACK with RESUME and two slots for the last helper. -/
def planTarget (x : Nat) (p : Plan) (s : State) : State :=
  let take (resume : Nat) (s : State) : State :=
    if p.length ≤ resume then planAck x p.stream 0 resume s
    else s |> mndMod (fun m => { m with plans := m.plans ++ [{ p with role := .target, done := resume, lastOk := boltN s }] })
      |> planAck x p.stream 0 resume |> grantTwo p.prev p.stream
  match stripeFind p.stripe s with
  | some (_, e) =>
    if e.state = .repairing && e.local_ = p.lost then take e.done s
    else if e.local_ = p.lost then take 0 s
    else planAck x p.stream 1 0 s
  | none =>
    match placeShard p.shardLog2 s with
    | some (a, t) =>
      take 0 (stripeNew { held := true, id := p.stripe, shardLog2 := p.shardLog2, local_ := p.lost, state := .repairing,
                          epoch := t.party.roster.epoch.toNat } a t)
    | none => planAck x p.stream 1 0 s

/-- PLAN (R422, R425). -/
def hPlan (x : Nat) (b : Bytes) (s : State) : State :=
  let role := leAt b 0x21 1
  let p : Plan := { stream := leAt b 0 8, stripe := leAt b 8 8, offset := leAt b 0x10 8, length := leAt b 0x18 8, lost := leAt b 0x20 1,
                    flags := role, coef := leAt b 0x22 1, shardLog2 := leAt b 0x23 1, prev := leAt b 0x24 2, next := leAt b 0x26 2,
                    hops := leAt b 0x28 1, attempt := leAt b 0x29 1, lastOk := boltN s }
  if s.mender.plans.any fun q => q.stream = p.stream && q.role ≠ .lead && (q.role = .target) = bit role 2 then
    planAck x p.stream 0 0 s
  else if !mayHelp s then planAck x p.stream 2 0 s
  else if bit role 2 then planTarget x p s
  else match stripeFind p.stripe s with
    | none => planAck x p.stream 3 0 s
    | some (_, e) =>
      if (shardBytes e p.offset p.length s).2 then planAck x p.stream 4 0 s
      else
        let h : Hop := { stream := p.stream, to_ := p.next, kind := if bit role 1 then 3 else 2, end_ := p.offset + p.length }
        let s1 := mndMod (fun m => { m with plans := m.plans ++ [{ p with role := .helper }], hops := m.hops ++ [h] }) s
        let s2 := planAck x p.stream 0 0 s1
        if bit role 0 then s2 else grantTwo p.prev p.stream s2

/-- A Mend REPAIR that another member passes on: the stripe goes to the head of the lead's queue (R420; log entry 48). -/
def queueHead (id : Nat) (s : State) : State := mndMod (fun m => { m with queue := id :: m.queue.filter (· ≠ id) }) s

/-- PLAN_ACK (R415, R425): the plan starts, with event 0x5081, when every participant has accepted. -/
def hPlanAck (x : Nat) (b : Bytes) (s : State) : State :=
  let st := leAt b 0 8
  let result := leAt b 8 1
  let resume := leAt b 0x10 8
  match s.mender.plans.find? fun p => p.stream = st && p.role = .lead with
  | some p =>
    if result ≠ 0 then replan st (some x) s
    else
      let p1 : Plan := { p with acked := if p.acked.contains x then p.acked else x :: p.acked, lastOk := boltN s }
      let put (q : Plan) (s : State) : State :=
        let t := mndMod (fun m => { m with plans := m.plans.map fun r => if r.stream = st && r.role = .lead then q else r }) s
        if q.started && !p.started then note 0x5081 pgMnd (p.stripe % 2 ^ 32) t else t
      if !p.asked && x = p.target then
        let p2 := { p1 with asked := true, done := resume }
        if p.length ≤ resume then put { p2 with started := true } s else planHelpers p resume (put p2 s)
      else put { p1 with started := p1.asked && p1.helpers.all fun y => p1.acked.contains y } s
  | none =>
    match s.mender.stripes.find? fun e => e.2.stream = st && e.2.issued with
    | some (n, e) => if result ≠ 0 then spreadRefused e s
                     else stripePut n { e with acks := if e.acks.contains x then e.acks else x :: e.acks } s
    | none => if (stripeFind st s).isSome then queueHead st s else s

/-- GRANT (R421): slots to send into; a slot granted again has had its chunk consumed. -/
def hGrant (x : Nat) (b : Bytes) (s : State) : State :=
  let l := (List.range (leAt b 8 1)).map fun i => leAt b (10 + 2 * i) 2
  hopsPump (hopMod (leAt b 0 8) x (fun h =>
    { h with flying := h.flying.filter fun f => !l.contains f.slot,
             slots := h.slots ++ l.filter fun k => !h.slots.contains k }) s)

/-- CHUNK_OK (R416, R426). -/
def hChunkOk (x : Nat) (b : Bytes) (s : State) : State :=
  let st := leAt b 0 8
  let done := leAt b 8 8
  let upd (p : Plan) : Plan := if p.stream = st && p.role = .lead && p.target = x then { p with done := done, lastOk := boltN s } else p
  s |> hopMod st x (fun h => { h with done := max h.done done }) |> mndMod (fun m => { m with plans := m.plans.map upd })

/-- HOP_FAIL (R429). -/
def hHopFail (_x : Nat) (b : Bytes) (s : State) : State := replan (leAt b 0 8) (some (leAt b 8 2)) s

/-- PLAN_ABORT (R429): the target keeps its committed prefix. -/
def hPlanAbort (_x : Nat) (b : Bytes) (s : State) : State := s |> planEnd (leAt b 0 8) .helper |> planEnd (leAt b 0 8) .target

/-- DIGEST_REQ (R417, R427): the whole shard is read back and hashed. -/
def hDigestReq (x : Nat) (b : Bytes) (s : State) : State :=
  let id := leAt b 0 8
  let answer (shard result : Nat) (d : BitVec 256) (s : State) : State :=
    ptySend x 0x47 (natLe 8 id ++ natLe 1 shard ++ natLe 1 result ++ zeros 6 ++ natLe 32 d.toNat) s
  match stripeFind id s with
  | none => answer 0 2 0 s
  | some (_, e) =>
    match shardHash id s with
    | (some d, t) => answer e.local_ 0 d t
    | (none, t) => answer e.local_ 1 0 t

/-- DIGEST (R417, R420, R427). -/
def hDigest (x : Nat) (b : Bytes) (s : State) : State :=
  let id := leAt b 0 8
  match stripeFind id s with
  | none => s
  | some (n, e) =>
    if !([3, 5, 6].contains e.step) then s
    else
      let i := if leAt b 9 1 = 2 then ((holders e).findIdx? (· = x)).getD 0 else leAt b 8 1
      let e1 := { e with digests := tput i (BitVec.ofNat 256 (leAt b 0x10 32)) e.digests, unread := e.unread || leAt b 9 1 ≠ 0 }
      if digestsIn e1 then digestsDone n e1 s else stripePut n e1 s

/-- STRIPE_SET (R417, R427): the record is made durable; a member that is replaced frees its shard, and one that has rebuilt
it has repaired it. -/
def hStripeSet (_x : Nat) (b : Bytes) (s : State) : State :=
  let q := recordOf b
  match stripeFind q.id s with
  | none => s
  | some (n, e) =>
    if q.state ≠ .damaged && e.state ≠ .repairing && !q.members.contains s.party.index then freeShard q.id s
    else
      let me := ((q.members.findIdx? (· = s.party.index)).getD e.local_)
      let e1 := { e with k := q.k, m := q.m, shardLog2 := q.shardLog2, local_ := me, epoch := q.epoch, state := q.state,
                         members := q.members, digest := q.digest, done := e.size, step := 0 }
      let s1 := stripePut n e1 (if e.stream ≠ 0 && q.state = .sealed then slotsFree e.stream s else s)
      if e.state = .repairing && q.state = .sealed && q.members.contains s.party.index then
        s1 |> note 0x5082 pgMnd (q.id % 2 ^ 32) |> regAdd (pgMnd + 0x160) 1
      else s1

/-- STRIPE_DROP (R415, R417, R420). -/
def hStripeDrop (_x : Nat) (b : Bytes) (s : State) : State := freeShard (leAt b 0 8) s

/-- RECORD_REQ (R429): a member that holds the stripe answers with its record. -/
def hRecordReq (x : Nat) (b : Bytes) (s : State) : State :=
  match stripeFind (leAt b 0 8) s with
  | some (_, e) => if e.k = 0 then s else ptySend x 0x4C (stripeRecord e false) s
  | none => s

/-- Shard-store units of a stripe on the flash, by their metadata: map indices (R120, R429). -/
def shardUnits (id : Nat) (s : State) : List Nat :=
  (s.map.filter fun e => eValid e.2 && !ePoisoned e.2 && (pageAtPua (ePua e.2) s).stripe = id).map Prod.fst

/-- RECORD (R429): a lost table entry is rebuilt from the record and the units on the flash. -/
def hRecord (_x : Nat) (b : Bytes) (s : State) : State :=
  let q := recordOf b
  match stripeFind q.id s, q.members.findIdx? (· = s.party.index), (shardUnits q.id s).head? with
  | none, some i, some u =>
    let a := u / 64 * 256
    note 0x5002 pgMnd (q.id % 2 ^ 32) (stripeNew { q with local_ := i } a s)
  | _, _, _ => s

/-- A chunk's fifth attempt has failed (R399, R418, R429): `why` is the REASON of a helper's HOP_FAIL. -/
def chunkDead (why : Nat) (h : Hop) (f : Fly) (s : State) : State :=
  if h.kind = 1 then
    match s.mender.stripes.find? fun e => e.2.stream = h.stream && e.2.issued with
    | some (_, e) => stripeCmdEnd e.id vsShard s
    | none => s
  else s |> hopFail (streamOwner h.stream) h.stream h.to_ why f.off |> planEnd h.stream .helper

/-- A chunk is sent again into its slot, up to 4 times (R399). From a poisoned buffer it is not sent: that counts as a failed send, and
the chunk is loaded again first (R197, R429). -/
def chunkAgain (h : Hop) (f : Fly) (s : State) : State :=
  let bad := chunkPoison f s
  let n := f.tries + 1 + b2n bad
  if 5 < n then chunkDead (if bad then 4 else 2) h f s
  else
    let s := if bad then chunkLoad f s else s
    let f1 := { f with tries := n, seq := h.seq }
    chunkWrite h f1 (hopMod h.stream h.to_ (fun q =>
      { q with seq := q.seq + 1, flying := q.flying.map fun g => if g.slot = f.slot then f1 else g }) s)

/-- CHUNK_NAK (R399). -/
def hChunkNak (x : Nat) (b : Bytes) (s : State) : State :=
  let slot := leAt b 0 2
  match s.mender.hops.find? fun h => h.stream = leAt b 8 8 && h.to_ = x with
  | none => s
  | some h =>
    match h.flying.find? fun f => f.slot = slot && f.seq = leAt b 4 4 with
    | some f => chunkAgain h f s
    | none => s

/-! ### Chunks that arrive (R399, R416, R426) -/

/-- The bytes written into a chunk slot. -/
def slotData (x : ChunkSlot) (n : Nat) : Bytes := padTo n (x.parts.reverse.foldl (fun b p => patch (padTo (max b.length p.1) b) p.1 p.2) [])

/-- The REASON for which a chunk is dropped, in the order of R399. -/
def chunkBad (slot : Nat) (h : Bytes) (x : ChunkSlot) : Option Nat :=
  let len := leAt h 0x18 4
  if x.written ≠ len then some 1
  else if crc32c (slotData x len) ≠ leAt h 0x1C 4 then some 2
  else if !x.granted || x.sender ≠ leAt h 4 2 || x.stream ≠ leAt h 8 8 then some 3
  else if leAt h 0 2 ≠ 0x4B43 || leAt h 6 2 ≠ slot || leAt h 0x28 24 ≠ 0 || len % 64 ≠ 0 || len = 0 || 65536 < len ||
      1 < leAt h 3 1 then some 4
  else if x.poison then some 5
  else none

/-- The slot's counts start again after a header (R399). -/
def slotClear (k : Nat) (s : State) : State :=
  let x := slotOf k s
  slotPut k { granted := x.granted, sender := x.sender, stream := x.stream } s

/-- A stream's chunk that starts beyond what is committed or on its way to it waits in its slot: chunks are committed in order (R416,
R426; log entry 123). -/
def chunkAhead (stream done off : Nat) (s : State) : Bool :=
  (s.mender.commits.filter (·.stream = stream)).foldl (fun n c => max n (c.off + c.len)) done < off

/-- A good chunk is handed to the Mender. None: it cannot be taken now, for want of staging or because an earlier one is missing. -/
def takeChunk (slot : Nat) (h : Bytes) (s : State) : Option State :=
  let stream := leAt h 8 8
  let off := leAt h 0x10 8
  let len := leAt h 0x18 4
  let data := slotData (slotOf slot s) len
  let commit (e : Stripe) : Option State :=
    (storeWrite e off data s).map fun q =>
      let c : Commit := { txid := q.1, stripe := e.id, stream := stream, slot := slot, off := off, len := len }
      slotClear slot (mndMod (fun m => { m with commits := m.commits ++ [c] }) q.2)
  match leAt h 2 1 with
  | 1 =>
    (match s.mender.stripes.find? fun e => e.2.stream = stream && !e.2.issued with
     | some (_, e) => if chunkAhead stream e.done off s then none
                      else if off + len ≤ e.size && off % 4096 = 0 && len % 4096 = 0 then commit e else some (slotClear slot s)
     | none => some (slotsFree stream s))
  | 3 =>
    (match s.mender.plans.find? fun p => p.stream = stream && p.role = .target with
     | some p =>
       (match stripeFind p.stripe s with
        | some (_, e) => if chunkAhead stream (p.offset + p.done) off s then none
                         else if p.offset ≤ off && off + len ≤ p.offset + p.length && off % 4096 = 0 && len % 4096 = 0 then commit e
                         else some (slotClear slot s)
        | none => some (slotsFree stream s))
     | none => some (slotsFree stream s))
  | 2 =>
    (match s.mender.plans.find? fun p => p.stream = stream && p.role = .helper with
     | some _ =>
       let add (q : Plan) : Plan := if q.stream = stream && q.role = .helper then { q with inbox := q.inbox ++ [(slot, off, data)] } else q
       some (slotClear slot (mndMod (fun m => { m with plans := m.plans.map add }) s))
     | none => some (slotsFree stream s))
  | _ => some (slotsFree stream s)

/-- CHUNK_HEADER_ARRIVAL (R399). -/
def execChunkHeaderArrival (slot : Nat) (s : State) : Host.Outcome State Fault Refusal :=
  if 896 ≤ slot then .fault .noSuchUnit
  else if !itemReady (1024 + slot) s || !ptyUp s then .next s
  else if 3 ≤ s.pwr.ps then .next (wake s)
  else
    let h := tgetBytes s.party.window (0x10000 + 64 * slot) 64
    match chunkBad slot h (slotOf slot s) with
    | some why =>
      let body := natLe 2 slot ++ natLe 1 why ++ zeros 1 ++ natLe 4 (leAt h 0x24 4) ++ natLe 8 (leAt h 8 8)
      .next (s |> itemTaken (1024 + slot) |> slotClear slot |> ptySend (leAt h 4 2 % 1024) 0x03 body
               |> regAdd (pgPty + 0x170) 1 |> note 0x5105 pgPty slot)
    | none =>
      match takeChunk slot h s with
      | some t => .next (itemTaken (1024 + slot) t)
      | none => .next s

/-- UIO_WRITE_COMPLETION (R67): a UR or CA completion of a peer write makes the oldest chunk on its way to the member a failed
send. -/
def execUioWriteCompletion (member : Nat) (ok : Bool) (s : State) : Host.Outcome State Fault Refusal :=
  if 1024 ≤ member then .fault .noSuchUnit
  else if ok || !s.cxl.uio || !bit (regGet (pgCxlT + 0x128) s) 0 || !ptyUp s then .next s
  else
    let s1 := s |> note 0x7009 pgCxl member |> regAdd (pgPty + 0x178) 1
    match (s1.mender.hops.filter fun h => h.to_ = member && !h.flying.isEmpty).head? with
    | none => .next s1
    | some h => .next (match h.flying with
      | f :: _ => chunkAgain h f s1
      | [] => s1)

/-! ### Rows of received Mender messages -/

/-- A message that names a stripe waits until the index is complete (R411). -/
def stripeRow (slot type : Nat) (act : Nat → Bytes → State → State) (s : State) : Host.Outcome State Fault Refusal :=
  if s.mender.table = 1 && slot < 16384 then .next s else msgRow slot type act s

/-- The cell of `slot` holds a message of a type that is about to be taken (R388, R411): only its tag is still to be checked. -/
def cellDue (slot type : Nat) (s : State) : Bool :=
  let m := cellAt slot s
  itemReady (2048 + slot) s && cellType m = type && s.mender.table ≠ 1 && accepts pgPty s && running s && !pfOn s && s.pwr.ps < 3 &&
  cellFormOk (slot / 16) m s && senderOk (slot / 16) type (cellBody m) s && tget 0 s.party.rx (slot / 16) < leAt m 0x18 8

/-- A message that takes bytes of a local shard waits until they can be read; its body names the stripe at `at_`. -/
def shardRow (slot type at_ : Nat) (act : Nat → Bytes → State → State) (s : State) : Host.Outcome State Fault Refusal :=
  if 16384 ≤ slot || !cellDue slot type s then stripeRow slot type act s
  else match shardReady (leAt (cellBody (cellAt slot s)) at_ 8) s with
    | (true, t) => stripeRow slot type act t
    | (false, t) => .next t

/-- CHUNK_NAK (R399). -/
def execMsgChunkNak (slot : Nat) (s : State) : Host.Outcome State Fault Refusal := msgRow slot 0x03 hChunkNak s
/-- PLAN (R422, R425). -/
def execMsgPlan (slot : Nat) (s : State) : Host.Outcome State Fault Refusal := shardRow slot 0x40 8 hPlan s
/-- PLAN_ACK (R415, R425). -/
def execMsgPlanAck (slot : Nat) (s : State) : Host.Outcome State Fault Refusal := msgRow slot 0x41 hPlanAck s
/-- GRANT (R421). -/
def execMsgGrant (slot : Nat) (s : State) : Host.Outcome State Fault Refusal := msgRow slot 0x42 hGrant s
/-- CHUNK_OK (R416, R426). -/
def execMsgChunkOk (slot : Nat) (s : State) : Host.Outcome State Fault Refusal := msgRow slot 0x43 hChunkOk s
/-- HOP_FAIL (R429). -/
def execMsgHopFail (slot : Nat) (s : State) : Host.Outcome State Fault Refusal := msgRow slot 0x44 hHopFail s
/-- PLAN_ABORT (R429). -/
def execMsgPlanAbort (slot : Nat) (s : State) : Host.Outcome State Fault Refusal := msgRow slot 0x45 hPlanAbort s
/-- DIGEST_REQ (R417). -/
def execMsgDigestReq (slot : Nat) (s : State) : Host.Outcome State Fault Refusal := shardRow slot 0x46 0 hDigestReq s
/-- DIGEST (R417, R427). -/
def execMsgDigest (slot : Nat) (s : State) : Host.Outcome State Fault Refusal := stripeRow slot 0x47 hDigest s
/-- STRIPE_SET (R417, R427). -/
def execMsgStripeSet (slot : Nat) (s : State) : Host.Outcome State Fault Refusal := stripeRow slot 0x48 hStripeSet s
/-- STRIPE_DROP (R415, R417). -/
def execMsgStripeDrop (slot : Nat) (s : State) : Host.Outcome State Fault Refusal := stripeRow slot 0x49 hStripeDrop s
/-- SPREAD_OPEN (R415). -/
def execMsgSpreadOpen (slot : Nat) (s : State) : Host.Outcome State Fault Refusal := stripeRow slot 0x4A hSpreadOpen s
/-- RECORD_REQ (R429). -/
def execMsgRecordReq (slot : Nat) (s : State) : Host.Outcome State Fault Refusal := stripeRow slot 0x4B hRecordReq s
/-- RECORD (R429). -/
def execMsgRecord (slot : Nat) (s : State) : Host.Outcome State Fault Refusal := stripeRow slot 0x4C hRecord s

/-! ### Spread Write (R414 to R418) -/

def swNch (e : Sqe) : Nat := bits (dword e 12) 4 0
def swOff (e : Sqe) : Nat := dword e 13 * 65536
def swFirst (e : Sqe) : Bool := bit (dword e 14) 0
def swLast (e : Sqe) : Bool := bit (dword e 14) 1
def swId (e : Sqe) : Nat := dword e 10 + 2 ^ 32 * dword e 11

/-- The fields of the command (R414). -/
def swFieldsOk (e : Sqe) : Bool :=
  sqeNsid e = 0 && swId e ≠ 0 && zeroFrom e 12 5 && 1 ≤ swNch e && swNch e ≤ 16 && zeroFrom e 14 2 && zeroFrom e 15 0 &&
  (!swFirst e || sqeMptr e % 64 = 0)

/-- The gate that Spread Write and Mend share (R141, R397, R418, R431). -/
def stripeGate (c : Nat) (s : State) : Option State :=
  let x := ctxGet c s
  if s.boot.degraded then some (finish c stNsNotReadyDnr s)
  else if s.qe.sanitizing then some (finish c stSanitize s)
  else if x.ro then some (finish c vsReadOnly s)
  else if !isMember s || s.party.state = .lost then some (finish c vsNotMember s)
  else if fenced pgMnd s || fenced pgHam s then some (finish c vsFenced s)
  else if s.mender.table = 1 then some s
  else none

/-- The checks of a first piece's record (R405, R415). -/
def swRecordOk (e : Sqe) (b : Bytes) (s : State) : Bool :=
  let q := recordOf b
  let l := q.members
  leAt b 0 8 = swId e && 2 ≤ q.k && 1 ≤ q.m && q.m ≤ 8 && q.n ≤ 32 && 20 ≤ q.shardLog2 && q.shardLog2 ≤ 26 && q.local_ < q.n &&
  leAt b 12 4 = 0 && leAt b 0x10 6 = 0 && leAt b 0x16 2 = 0 && leAt b 0x40 32 = 0 &&
  ((List.range 32).all fun i => i < q.n || (membersOf ((b.drop 0x18).take 40) 32).getD i 0 = 0x3FF) &&
  l.eraseDups.length = l.length && (l.all fun x => memberState x s = .active && 1 ≤ (rMember s.party.roster x).freeGib) &&
  l.getD q.local_ 0x3FF = s.party.index && (stripeFind q.id s).isNone

/-- The bounds of a piece (R414, R416). -/
def swPieceOk (e : Sqe) (q : Stripe) : Bool :=
  let n := swNch e * 65536
  q.k * n ≤ mdts && swOff e ≤ q.done && swOff e + n ≤ q.size && (!swLast e || swOff e + n = q.size)

/-- Opens the stripe at the other members (R415). -/
def swOpen (c : Nat) (b : Bytes) (s : State) : State :=
  let q := recordOf b
  match placeShard q.shardLog2 s with
  | none => finish c vsShard s
  | some (a, t) =>
    let (st, t1) := newStream t
    let e := { q with stream := st, issuer := s.party.index, issued := true, lastBolt := boltN s, state := .open_, step := 1, ctx := some c }
    let others := e.others s
    let hops := others.map fun x => ({ stream := st, to_ := x, kind := 1, end_ := e.size } : Hop)
    t1 |> stripeNew e a |> mndMod (fun m => { m with hops := m.hops ++ hops })
       |> ctxMod c (fun x => { x with started := true, deadline := some (boltN s + 4096) })
       |> toAll others 0x4A (natLe 8 st ++ stripeRecord e false)

/-- The slices of a piece by shard: the data as it came, the parity of one Mender job (R408, R416). -/
def swSlices (q : Stripe) (n : Nat) (bs : Bytes) : List Bytes :=
  let data := (List.range q.k).map fun j => (bs.drop (j * n)).take n
  data ++ (List.range q.m).map fun i => paritySlice q.k i data

/-- The piece's data are there: chunks to the members, the local slice as one transaction (R416). -/
def swPiece (c n : Nat) (q : Stripe) (i : Nat) (bs : Bytes) (s : State) : State :=
  let x := ctxGet c s
  let off := swOff x.sqe
  let sl := swSlices q n bs
  let fill (h : Hop) : Hop :=
    if h.stream = q.stream && h.kind = 1 then
      let d := sl.getD ((q.members.findIdx? (· = h.to_)).getD 0) []
      { h with queue := (chunks 65536 16 d).zipIdx.map fun p => (off + 65536 * p.2, p.1) }
    else h
  s |> mndJob q.k q.m n
    |> mndMod (fun m => { m with hops := m.hops.map fill })
    |> stripePut i { q with step := 2, ctx := some c, lastBolt := boltN s }
    |> setPlan c (writePlan (q.lba + off / 4096) (toGranules (sl.getD q.local_ [])) false q.id)
    |> hopsPump

/-- Every member's CHUNK_OK covers the piece, and no chunk of it is on its way. -/
def swSent (q : Stripe) (upTo : Nat) (s : State) : Bool :=
  s.mender.hops.all fun h => !(h.stream = q.stream && h.kind = 1) || (h.queue.isEmpty && h.flying.isEmpty && upTo ≤ h.done)

/-- A step of a Spread Write whose stripe is open. -/
def swStep (c i : Nat) (q : Stripe) (s : State) : State :=
  let x := ctxGet c s
  let n := swNch x.sqe * 65536
  let upTo := swOff x.sqe + n
  match q.step with
  | 2 =>
    if x.phase ≠ 90 || !swSent q upTo s then s
    else
      let q1 := { q with done := max q.done upTo, lastBolt := boltN s }
      if swLast x.sqe then askDigests q.id 3 (stripePut i q1 s)
      else finish c stOk (stripePut i { q1 with step := 0, ctx := none } s)
  | 4 =>
    if msgWaits 0x48 q.id s then s
    else if msgDropped 0x48 q.id s then stripeCmdEnd q.id vsShard s
    else
      let d := q.digest.toNat
      s |> stripePut i { q with step := 0, ctx := none, digests := [] } |> mndMod (fun m => { m with hops := m.hops.filter (·.stream ≠ q.stream) })
        |> note 0x5085 pgMnd (q.id % 2 ^ 32) |> finishDw c stOk (bits d 31 0) (bits d 63 32)
  | 1 =>
    if !((q.others s).all fun y => q.acks.contains y) then s
    else s |> stripePut i { q with step := 0, ctx := none } |> openExtents c [(q.lba + swOff x.sqe / 4096, swNch x.sqe * 16)] []
  | 0 =>
    if !x.started || x.planned then s
    else match hostData c (q.k * n) s with
      | (none, t) => t
      | (some bs, t) => if guardWait (ctxGet c t) t then t else swPiece c n q i bs t
  | _ => s

/-- SPREAD_WRITE (R414 to R418). -/
def spreadWrite (c : Nat) (s : State) : State :=
  let x := ctxGet c s
  let e := x.sqe
  if x.started then
    (match stripeFind (swId e) s with
     | some (i, q) => if q.step = 0 || q.ctx = some c then swStep c i q s else s
     | none => finish c vsShard s)
  else if !swFieldsOk e then finish c stField s
  else match stripeGate c s with
    | some t => t
    | none =>
      if swFirst e then
        if !x.gotMptr then askHost c 1 [(sqeMptr e, 96)] s
        else if x.badData ≠ 0 then finish c stDataXfer s
        else if !swRecordOk e x.mbuf s || !swPieceOk e (recordOf x.mbuf) then finish c stField s
        else swOpen c x.mbuf s
      else match stripeFind (swId e) s with
        | none => finish c stField s
        | some (_, q) =>
          if !q.issued || q.state ≠ .open_ then finish c stField s
          else if q.step ≠ 0 then s
          else if !swPieceOk e q then finish c stField s
          else if !(s.mender.hops.any fun h => h.stream = q.stream) then finish c vsShard s
          else
            let ext := (q.lba + swOff e / 4096, swNch e * 16)
            s |> openExtents c [ext] [] |> ctxMod c (fun x => { x with started := true })

def execSpreadWrite (ctx : Nat) (s : State) : Host.Outcome State Fault Refusal :=
  .next (if holdsCmd ctx 0x91 true s then spreadWrite ctx s else s)

/-- SPREAD_OPEN_TIMEOUT (R415): no answer within 4,096 bolts. -/
def execSpreadOpenTimeout (stripe : Nat) (s : State) : Host.Outcome State Fault Refusal :=
  match stripeFind stripe s with
  | some (_, e) =>
    if e.issued && e.step = 1 && (e.ctx.any fun c => (ctxGet c s).deadline.any (· ≤ boltN s)) then .next (spreadRefused e s) else .next s
  | none => .next s

/-- OPEN_STRIPE_TIMEOUT (R417): no piece for OPEN_BOLTS × 1,024 bolts. -/
def execOpenStripeTimeout (stripe : Nat) (s : State) : Host.Outcome State Fault Refusal :=
  match stripeFind stripe s with
  | some (_, e) =>
    if e.issued && e.state = .open_ && e.step = 0 && e.lastBolt + regFld (pgMnd + 0x140) 31 16 s * 1024 ≤ boltN s then
      .next (note 0x5084 pgMnd (stripe % 2 ^ 32) (stripeDropAll stripe s))
    else .next s
  | none => .next s

/-! ### Shard Read and Mend (R419, R420) -/

/-- SHARD_READ (R419). -/
def shardRead (c : Nat) (s : State) : State :=
  let x := ctxGet c s
  let e := x.sqe
  if sqeNsid e ≠ 0 || !zeroFrom e 14 1 || !zeroFrom e 15 0 || swId e = 0 then finish c stField s
  else if s.boot.degraded then finish c stNsNotReadyDnr s
  else if s.qe.sanitizing then finish c stSanitize s
  else if s.mender.table = 1 then s
  else match stripeFind (swId e) s with
    | none => finish c stField s
    | some (_, q) =>
      if bit (dword e 14) 0 then
        match bufferOf c 128 s with
        | (none, t) => t
        | (some _, t) => if outWait x t then t else finish c stOk (sendData x 128 0 (stripeEntry q) false t)
      else
        let n := dword e 12 % 65536 + 1
        if !zeroFrom e 12 16 || mdts < n * 4096 then finish c stField s
        else if q.size < (dword e 13 + n) * 4096 then finish c stLba s
        else if q.state = .repairing then finish c vsShard s
        else
          let s1 := if x.open_ then openExtents c [(q.lba + dword e 13, n)] [] s else s
          if guardWait (ctxGet c s1) s1 then s1
          else match bufferOf c (n * 4096) s1 with
            | (none, t) => t
            | (some _, t) =>
              match gather c t with
              | (none, u) => u
              | (some l, u) =>
                let y := ctxGet c u
                if y.ends.isSome then finish c (if q.state = .sealed && (ownLoss q u).isSome then vsShard else stReadError) u
                else if outWait y u then u
                else u |> sendGranules y (n * 4096) l |> countRead y.fn (n * 4096) |> finish c stOk

def execShardRead (ctx : Nat) (s : State) : Host.Outcome State Fault Refusal :=
  .next (if holdsCmd ctx 0x92 true s then shardRead ctx s else s)

/-- ACTION of a Mend; one that R420 does not name goes with REPAIR (log entry 107). -/
def mendAction (e : Sqe) : Nat := let a := bits (dword e 12) 3 0; if a = 2 || a = 3 then a else 1

/-- The checks that every Mend shares; then `act` with the entry. -/
def mendRow (c action : Nat) (act : Nat → Stripe → State → State) (s : State) : State :=
  let e := (ctxGet c s).sqe
  if !holdsCmd c 0x94 true s || mendAction e ≠ action then s
  else if bits (dword e 12) 3 0 ≠ action || sqeNsid e ≠ 0 || swId e = 0 || !zeroFrom e 12 4 || !zeroFrom e 13 0 || !zeroFrom e 14 0 || !zeroFrom e 15 0 then finish c stField s
  else match stripeGate c s with
    | some t => t
    | none =>
      match stripeFind (swId e) s with
      | none => finish c stField s
      | some (n, q) => act n q s

/-- MEND_REPAIR (R420). -/
def execMendRepair (ctx : Nat) (s : State) : Host.Outcome State Fault Refusal :=
  .next (mendRow ctx 1 (fun _ q s =>
    if q.state = .damaged then finishDw ctx stOk 2 0 s
    else if (lostShards q s).isEmpty && (ownLoss q s).isNone then finishDw ctx stOk 4 0 s
    else match leadOf q s with
      | some x => finishDw ctx stOk 0 0 (if x = s.party.index then queueHead q.id s else planAck x q.id 0 0 s)
      | none => finishDw ctx stOk 0 0 (queueHead q.id s)) s)

/-- MEND_VERIFY (R420). -/
def execMendVerify (ctx : Nat) (s : State) : Host.Outcome State Fault Refusal :=
  .next (mendRow ctx 2 (fun n q s =>
    if (ctxGet ctx s).started || q.step ≠ 0 then s
    else s |> openExtents ctx [] [] |> ctxMod ctx (fun x => { x with started := true })
           |> stripePut n { q with ctx := some ctx } |> askDigests q.id 5) s)

/-- The end of a Mend DROP: every member has acknowledged, or the resends are over (R420). -/
def dropEnd (c id : Nat) (s : State) : State :=
  if msgWaits 0x49 id s then s
  else
    let r := if msgDropped 0x49 id s then 5 else 0
    finishDw c stOk r 0 (msgForget id s)

/-- MEND_DROP (R420): guarded as a write of the whole local shard. -/
def execMendDrop (ctx : Nat) (s : State) : Host.Outcome State Fault Refusal :=
  let x := ctxGet ctx s
  if holdsCmd ctx 0x94 true s && bits (dword x.sqe 12) 3 0 = 3 && x.phase = 20 then .next (dropEnd ctx (swId x.sqe) s)
  else .next (mendRow ctx 3 (fun _ q s =>
    let s1 := if (ctxGet ctx s).open_ then openExtents ctx [(q.lba, q.size / 4096)] [] s else s
    let y := ctxGet ctx s1
    let earlier := s1.qe.ctxs.any fun e => e.2.nsid = storeNsid && e.2.cls ≠ 0 && e.2.order < y.order &&
      (e.2.open_ || (readExtents e.2 ++ writeExtents e.2).any fun r => overlap r (q.lba, q.size / 4096))
    if guardWait y s1 || earlier then s1
    else s1 |> stripeDropAll q.id |> ctxMod ctx (fun x => { x with phase := 20 })) s)

/-! ### The relay's own steps (R425 to R429) -/

/-- RELAY_TIMEOUT (R429): no CHUNK_OK for 4,096 bolts at the lead, which excludes the last helper of the chain (log entry 49);
a helper without an answer for as long tells the lead. -/
def execRelayTimeout (stream : Nat) (s : State) : Host.Outcome State Fault Refusal :=
  match s.mender.plans.find? fun p => p.stream = stream && p.role ≠ .target && p.lastOk + 4096 ≤ boltN s with
  | none => .next s
  | some p =>
    if p.role = .lead then
      .next (if p.length ≤ p.done then s else replan stream (some (if p.asked then p.helpers.getLastD p.target else p.target)) s)
    else if s.mender.hops.any fun h => h.stream = stream && !h.flying.isEmpty then
      .next (s |> hopFail (streamOwner stream) stream p.next 3 (p.offset + p.done) |> planEnd stream .helper)
    else .next s

/-- A helper's next chunk, if its hop has room for it: at most 2 in flight (R426). -/
def helperStep (p : Plan) (s : State) : State :=
  match s.mender.hops.find? fun h => h.stream = p.stream, stripeFind p.stripe s with
  | some h, some (_, e) =>
    if p.length ≤ p.done && h.queue.isEmpty && h.flying.isEmpty then planEnd p.stream .helper s
    else if p.length ≤ p.done || 2 ≤ h.queue.length + h.flying.length || spent 0 rRepair s then s
    else
      let off := p.offset + p.done
      let first := bit p.flags 0
      match (if first then some (0, off, zeros 65536) else p.inbox.find? fun c => c.2.1 = off) with
      | none => s
      | some (slot, _, got) =>
        let (ok, s) := shardSeek e off 65536 s
        let (own, bad) := shardBytes e off 65536 s
        if !ok then s
        else if bad then s |> hopFail (streamOwner p.stream) p.stream s.party.index 1 off |> planEnd p.stream .helper
        else
          let out := macRow p.coef (padTo 65536 got) own
          let upd (q : Plan) : Plan :=
            if q.stream = p.stream && q.role = .helper then
              { q with done := q.done + 65536, lastOk := boltN s, inbox := q.inbox.filter fun c => c.2.1 ≠ off }
            else q
          let s1 := s |> repairCharge 1 |> mndJob (if first then 1 else 2) 1 65536
                      |> mndMod (fun m => { m with plans := m.plans.map upd })
                      |> hopMod p.stream h.to_ (fun q => { q with queue := q.queue ++ [(off, out)] })
          if first then s1 else regrant slot s1
  | _, _ => s

/-- A committed chunk is reported, and its slot granted again (R416, R426): a spread slice to the issuer, a rebuilt chunk to
the lead after each 1 MiB and at the end. -/
def commitDone (c : Commit) (s : State) : State :=
  let upTo := c.off + c.len
  let (ok, s) := if upTo % 1048576 = 0 then shardReady c.stripe s else (true, s)
  if !ok then s else
  let s1 := mndMod (fun m => { m with commits := m.commits.filter (· ≠ c) }) s
  match s1.mender.plans.find? fun p => p.stream = c.stream && p.role = .target with
  | some p =>
    let done := if c.off ≤ p.offset + p.done then max p.done (upTo - p.offset) else p.done
    let lost := (unitsOf [(c.off / 4096, c.len / 4096)])
    let upd (q : Plan) : Plan := if q.stream = c.stream && q.role = .target then { q with done := done, lastOk := boltN s } else q
    let s2 := s1 |> mndMod (fun m => { m with plans := m.plans.map upd }) |> regAdd (pgMnd + 0x168) c.len
    let s3 := match stripeFind p.stripe s2 with
      | some (n, e) =>
        let base := e.lba / 4
        let s4 := mndMod (fun m => { m with lostUnits := m.lostUnits.filter fun i => !(lost.any fun k => base + k = i) }) s2
        if e.state = .repairing then stripePut n { e with done := p.offset + done } s4 else s4
      | none => s2
    let s4 := if p.length ≤ done || done % 1048576 = 0 then chunkOk (streamOwner p.stream) p.stream done s3 else s3
    let s5 := regrant c.slot s4
    if p.length ≤ done then planEnd p.stream .target (if p.length < 2 ^ p.shardLog2 then s5 else (shardHash p.stripe s5).2)
    else s5
  | none =>
    match stripeFind c.stripe s1 with
    | some (n, e) =>
      let done := if c.off ≤ e.done then max e.done upTo else e.done
      s1 |> stripePut n { e with done := done, lastBolt := boltN s } |> chunkOk e.issuer c.stream done |> regrant c.slot
    | none => s1

/-- A lead whose target has committed the whole range (R427): the shard counts as rebuilt, or the own loss is repaired. -/
def leadDone (p : Plan) (s : State) : State :=
  if !p.started || p.done < p.length then s
  else
    let s1 := planEnd p.stream .lead s
    if p.target = s.party.index then s1
    else stripeMod p.stripe (fun e => { e with rebuilt := e.rebuilt ++ [(p.lost, p.target)] }) s1

/-- What a change of the roster means for a lead's plan (R429): a participant that is no longer available ends it. -/
def planCheck (p : Plan) (s : State) : State :=
  if p.role = .lead then
    match (p.target :: p.helpers).find? fun x => !available x s with
    | some x => replan p.stream (some x) s
    | none => s
  else if !available (streamOwner p.stream) s then planEnd p.stream p.role s
  else s

/-- What a change of the roster means for a stripe (R418, R423). -/
def stripeCheck (n : Nat) (s : State) : State :=
  let e := tget {} s.mender.stripes n
  if !((e.members ++ holders e).any fun x => s.mender.changed.contains x) then s
  else
    let s0 := stripePut n { e with rebuilt := e.rebuilt.filter fun r => available r.2 s } s
    let s1 := if e.issued && (e.step = 1 || e.step = 2 || e.step = 3) && (e.members.any fun x => memberState x s ≠ .active && memberState x s ≠ .leaving)
              then stripeCmdEnd e.id vsShard s0 else s0
    if leadOf e s1 = some s1.party.index && !(lostShards { e with rebuilt := [] } s1).isEmpty && e.state ≠ .open_ && !s1.mender.queue.contains e.id then
      mndMod (fun m => { m with queue := m.queue ++ [e.id] }) s1
    else s1

/-- Own lost units put their stripes into the queue (R424). -/
def lossCheck (s : State) : State :=
  (s.mender.stripes.map Prod.snd).foldl (fun s e =>
    if (ownLoss e s).isSome && e.state = .sealed && !s.mender.queue.contains e.id then
      mndMod (fun m => { m with queue := m.queue ++ [e.id] }) s else s) s

/-- Commands that are gone leave their stripes (R418). -/
def orphanCheck (n : Nat) (s : State) : State :=
  let e := tget {} s.mender.stripes n
  match e.ctx with
  | some c =>
    let x := ctxGet c s
    if x.used && (sqeOp x.sqe = 0x91 || sqeOp x.sqe = 0x94) && swId x.sqe = e.id then s
    else stripeCmdEnd e.id stAbort (stripePut n { e with ctx := none } s)
  | none => s

/-- What a message of the part to itself does. -/
def selfAct (type : Nat) (b : Bytes) (s : State) : State :=
  let x := s.party.index
  match type with
  | 0x15 => hSuspect x b s
  | 0x16 => hRetract x b s
  | 0x17 => hAway x b s
  | 0x18 => hBack x b s
  | 0x19 => hLeave x b s
  | 0x1A => hDepart x b s
  | 0x1B => hCap x b s
  | 0x40 => hPlan x b s
  | 0x41 => hPlanAck x b s
  | 0x42 => hGrant x b s
  | 0x43 => hChunkOk x b s
  | 0x44 => hHopFail x b s
  | 0x45 => hPlanAbort x b s
  | 0x46 => hDigestReq x b s
  | 0x47 => hDigest x b s
  | 0x48 => hStripeSet x b s
  | 0x49 => hStripeDrop x b s
  | _ => s

/-- A message of the part to itself; one that takes bytes of a local shard waits until they can be read. -/
def selfMessage (type : Nat) (b : Bytes) (s : State) : State :=
  let r := if type = 0x40 then shardReady (leAt b 8 8) s else if type = 0x46 then shardReady (leAt b 0 8) s else (true, s)
  if r.1 then selfAct type b r.2 else ptyMod (fun p => { p with toSelf := p.toSelf ++ [(type, b)] }) r.2

/-- What firmware's Party and Mender logic does at a pick boundary. -/
def partyPick (s : State) : State :=
  if !ptyUp s then s
  else
    let s1 := dropUndefined (backSend s)
    let l := s1.party.toSelf
    let s2 := l.foldl (fun s m => selfMessage m.1 m.2 s) (ptyMod (fun p => { p with toSelf := [] }) s1)
    let s3 := (tkeys s2.mender.stripes).foldl (fun s n => orphanCheck n s) s2
    let s4 := if s3.mender.changed.isEmpty then s3
      else (tkeys s3.mender.stripes).foldl (fun s n => stripeCheck n s) (s3.mender.plans.foldl (fun s p => planCheck p s) s3)
    let s5 := mndMod (fun m => { m with changed := [] }) s4
    if !mndUp s5 then ptyPump s5
    else
      let s5d := (tkeys s5.mender.stripes).foldl (fun s n => digestCheck n s) s5
      let s6 := (s5d.mender.commits.filter fun c => !commitIssued c.txid s5d).foldl (fun s c => commitDone c s) s5d
      let s7 := (s6.mender.plans.filter (·.role = .helper)).foldl (fun s p => helperStep p s) s6
      let s8 := (s7.mender.plans.filter (·.role = .lead)).foldl (fun s p => leadDone p s) s7
      let s9 := (lossCheck s8).mender.queue.foldl (fun s id => leadStep id s) (lossCheck s8)
      let s10 := hopsPump s9
      let s11 := if s10.party.state = .leaving && s10.mender.stripes.isEmpty && !s10.mender.departed
        then ptySteward 0x1A [] (mndMod (fun m => { m with departed := true }) s10) else s10
      ptyPump s11

end Sys2Proof.Machine
end

