-- ==== Sys2Proof/Machine/Reset.lean ====
section
/-!
DEFINITION. Resets and bring-up (R173, R174, R179, R200, R466, R474 to R477, R482 to R487, R500, R501, R507): power-on and the loss
of power, device, fatal and boot-watchdog resets, the boot ROM's choice of a slot, DRAM training and the restart.
-/
namespace Sys2Proof.Machine

def bootMod (g : Boot → Boot) (s : State) : State := { s with boot := g s.boot }

/-! ### Loss of power and power-on (R474, R486) -/

/-- Issued journal words that are durable although the die has not acknowledged them: how many of them is left open, so it is a
free value (log entry 6). -/
def ringKeep (n : Nat) (s : State) : State :=
  (s.jnl.issued.take n).foldl (fun s w =>
    let h := s.die.head
    let ring := w.recs.zipIdx.foldl (fun r p => tset 0 ((h + p.2) % ringN) p.1 r) s.die.ring
    { s with die := { s.die with ring := ring, head := h + w.recs.length, errs := tset [] (65536 + h % ringN / 2) [] s.die.errs } }) s

/-- What a function keeps in non-volatile state: its flexible queues and SMART figures (R74, R144). -/
def fnKeep (x : Fn) : Fn :=
  { flexSq := x.flexSq, flexCq := x.flexCq, online := x.online, unitsRead := x.unitsRead, unitsWritten := x.unitsWritten,
    mediaErrs := x.mediaErrs, errLog := x.errLog, errCount := x.errCount }

/-- The flash as it stands after a reset: what was programmed and what the part keeps about it; nothing is trained, and nothing runs.
An erase that was cut off begins again when its superblock is found to be empty (R130). -/
def mediaKeep (m : Media) : Media :=
  let off (d : Die) : Die := { type := d.type, retired := d.retired, excluded := d.excluded, spare := d.spare }
  { m with tableOk := false, dies := m.dies.map fun e => (e.1, off e.2),
           channels := m.channels.map fun e => (e.1, { highTemp := e.2.highTemp }), reads := [], rebuilds := [], todo := [], fills := [], programs := [], placed := [], erasing := [], erased := [],
           vWindow := [], direct := false, patrolPos := 0, patrolFrom := 0, patrolBolt := 0, slcIn := 0, slcInWas := 0, folded := 0 }

/-- The Mender's durable table; what it does with each stripe at present is lost (R410, R411). -/
def menderKeep (m : Mender) : Mender :=
  let rest (x : Stripe) : Stripe :=
    { held := x.held, id := x.id, k := x.k, m := x.m, shardLog2 := x.shardLog2, local_ := x.local_, epoch := x.epoch, lba := x.lba,
      state := x.state, members := x.members, digest := x.digest, shardDigest := x.shardDigest, done := x.done,
      lastBolt := x.lastBolt, issuer := x.issuer }
  { table := if m.table = 0 then 0 else 1, tableBase := m.tableBase, extents := m.extents, lostUnits := m.lostUnits,
    streams := m.streams, stripes := m.stripes.map fun e => (e.1, rest e.2) }

/-- The queue engine after a reset: the order stamp goes on, the self-test results and a Sanitize that has begun are kept. -/
def qeKeep (q : Qe) : Qe :=
  { order := q.order, sanitizing := q.sanitizing, sanErase := q.sanErase, warn2 := q.warn2, warn4 := q.warn4, selfTest := { results := q.selfTest.results } }

/-- Power that fails before the seal stops the dump wherever it is: how far it has come is a free value (R172; log entry 6). -/
def dumpCut (s : State) : State :=
  if s.jnl.pf = .dumping then
    let (d, t) := draw s
    (dumpRun (Config.freeChoice d % ((dumpSet t).length + 2)) t).2
  else s

/-- The state that power-on reset finds (R474): the journal die, the flash, the boot area and the fuses are kept, and the pins stand
as the board drives them. -/
def powerLoss (s0 : State) : State :=
  let (d, s) := draw (dumpCut s0)
  let n := Config.freeChoice d % (s.jnl.issued.length + 1)
  let die := (ringKeep n s).die
  let r := State.reset
  { r with
    pending := s.pending, free := s.free, sent := s.sent,
    log := { r.log with saved := s.log.saved, savedValid := s.log.savedValid },
    boot := { slots := s.boot.slots, recordA := s.boot.recordA, recordB := s.boot.recordB, dieTableA := s.boot.dieTableA,
              dieTableB := s.boot.dieTableB, straps := s.boot.straps, pwrfailLow := s.boot.pwrfailLow,
              railsLow := s.boot.railsLow, perstLow := s.boot.perstLow, porLow := s.boot.porLow, aonLow := s.boot.aonLow },
    fns := s.fns.map fun e => (e.1, fnKeep e.2),
    qe := qeKeep s.qe,
    media := { mediaKeep s.media with parity := [] },
    die := { ctlLoad die with failed := false, foldBolt := 0, ctrlDirty := [] },
    hamx := { r.hamx with factory := s.hamx.factory, field := s.hamx.field },
    mender := menderKeep s.mender,
    svc := { r.svc with latchOpen := s.svc.latchOpen, absent := s.svc.absent } }

/-- `FCH_CFG`.EXT_ALLOWED of every channel resets to 0 under the EXT_DIS strap (R482). -/
def extDis (s : State) : State :=
  if bit s.boot.straps.toNat 3 then (List.range 32).foldl (fun s c => regSetFld (pgFch c + 0x100) 3 3 0 s) s else s

/-- POWER_ON_RESET (R486): POR_N is released with the strap balls at `straps`: the straps are latched, the fuse map is loaded
(R200) and the Hamper is zeroed (R194). While VDD_AON is out of range the part stays in reset (R500). -/
def execPowerOnReset (straps : Byte) (s : State) : Host.Outcome State Fault Refusal :=
  if s.boot.aonLow then .next s
  else
    let s0 := bootMod (fun b => { b with straps := straps, porLow := false }) (powerLoss s)
    let s1 := { s0 with svc := { s0.svc with absent := false } }
    let good := s1.hamx.factory ++ s1.hamx.field.filter (·.good)
    let bad := (s1.hamx.field.filter fun e => !e.good).length
    let s2 := { s1 with hamx := { s1.hamx with active := good } }
                |> regSet (pgGlb + 0x118) straps.toNat |> regSetFld (pgClk + 0x184) 1 1 (bits straps.toNat 5 5) |> extDis
    .next (iter bad (fun k s => note 0x1006 pgHam k s) s2)

/-- POR_N_ASSERT (R501): the part is held in power-on reset; before the seal this is a power failure before the seal (R172). -/
def execPorNAssert (s : State) : Host.Outcome State Fault Refusal :=
  .next (bootMod (fun b => { b with phase := .held, porLow := true, wdogFrom := none }) (powerLoss s))

/-- VDD_AON is out of range: the part is held in power-on reset (R500). -/
def aonFall (s : State) : State := bootMod (fun b => { b with phase := .held, aonLow := true, wdogFrom := none }) (powerLoss s)

/-- VDD_AON_LOSS (R500): the part is held in power-on reset. -/
def execVddAonLoss (s : State) : Host.Outcome State Fault Refusal := .next (aonFall s)

/-! ### Device, fatal and boot-watchdog resets (R475, R507) -/

/-- What R507 keeps of the registers at these resets. -/
def regKept (fatal : Bool) (a : Nat) : Bool :=
  let off := a % 0x1000
  match pageAt a with
  | none => false
  | some p =>
    let isPor := match regAt a with
      | some r => r.por
      | none => false
    if off = 0x028 || off = 0x058 || isPor then !(fatal && a = pgGlb + 0x130)
    else match p.type with
      | 0x01 => p.index = 1 || off = 0x118 || off = 0x124
      | 0x80 | 0x81 => true
      | 0x82 => off ≠ 0x18C && off ≠ 0x180
      | 0x36 => 48 ≤ p.index && (off = 0x100 || off = 0x10C || (0x110 ≤ off && off < 0x140))
      | 0x10 => (p.index = 0 && 0x100 ≤ off && off < 0x110) || off = 0x044
      | 0x12 => off = 0x160
      | _ => false

/-- The part's own work on writes in flight at a reset (R91, R466, R475): unclaimed writes are discarded, and the journal die, if it
still answers, takes what was issued. A fault may have cut map updates short, so a fatal reset drops the waiting ones. -/
def resetDrain (fatal : Bool) (s : State) : State :=
  let s1 := fnsReset s
  if s1.die.failed then s1
  else if fatal then jDrain { s1 with jnl := { s1.jnl with window := [] } }
  else jDrain (jFlush s1)

/-- What the journal and staging state keeps (R474, R475): all of it where the map is kept, segments that were building or wanted being
unbuilt; after a fatal reset the staged data of committed writes. -/
def jnlKept (mapKept stageKept : Bool) (j : Jnl) : Jnl :=
  let idle (x : Slot) : Slot := { x with busy := false, ctx := none }
  let slots := (j.slots.filter fun e => e.2.used && e.2.committed && e.2.released.isNone).map fun e => (e.1, idle e.2)
  if mapKept then { j with slots := slots, window := [], issued := [], cache := [], ckpts := [], pf := .none, indexed := false,
                           segs := j.segs.map fun e => (e.1, SegState.unbuilt), promoQ := [], promoFrom := [], ringHold := false,
                           holdupFail := false, pfSlots := 0 }
  else if stageKept then { slots := slots }
  else {}

/-- A device reset that `RST_CTL` requested, or firmware through it (0), a fatal (1) or boot-watchdog (2) reset, or a PERST_FULL reset
(3), which `GLB_RESET_CAUSE` shows by its PERST bit alone (R51, R474, R475, R507). The functions see a link-down (R475): where the link was up it is counted and raises 0x7001 as one (log entry 77). -/
def doReset (kind : Nat) (s : State) : State :=
  let fatal := kind = 1
  let wasFatal := s.boot.phase = .fatal
  let wasUp := s.cxl.up
  let isSealed := s.die.sealed
  let s1 := resetDrain fatal (if wasUp then note 0x7001 pgCxl 0 s else s)
  let had := s1.jnl.indexed || s1.boot.mapKept
  let mapKept := !fatal && !isSealed && had && s1.ddr.trained && !fenced pgDdr s1
  let stageKept := !isSealed && (s1.jnl.indexed || s1.boot.stageKept)
  let b := s1.boot
  let cause := regGet (pgGlb + 0x11C) s1
  let ps := if s1.pwr.forced then 2 else 0
  let r := State.reset
  let s2 : State := { r with
    pending := s1.pending, free := s1.free, sent := s1.sent, pick := s1.pick,
    regs := s1.regs.filter fun e => regKept (fatal || wasFatal) e.1,
    snaps := s1.snaps.filter fun e => regKept fatal e.1,
    log := s1.log,
    boot := { b with phase := .rom, degraded := false, wdogFrom := some (pickN s1), mapKept := mapKept, stageKept := stageKept,
                     holdUntil := pickN s1 + 64, goodPicks := 0, download := [], flPwrEn := false, stuck := false, pllLost := false,
                     lastFatalReset := if fatal then some (boltN s1) else b.lastFatalReset },
    cxl := {},
    fns := s1.fns.map fun e => (e.1, { fnKeep e.2 with authFails := e.2.authFails, lockUntil := e.2.lockUntil }),
    qe := qeKeep s1.qe,
    media := { mediaKeep s1.media with parity := if isSealed then [] else s1.media.parity },
    map := if mapKept then s1.map else [],
    jnl := jnlKept mapKept stageKept s1.jnl,
    die := s1.die,
    ddr := { r.ddr with capGib := s1.ddr.capGib, scrubPos := s1.ddr.scrubPos, scrubFrom := s1.ddr.scrubFrom },
    ham := s1.ham, hamPoison := s1.hamPoison, hamErr := s1.hamErr,
    dram := if mapKept then s1.dram else [],
    dramPoison := if mapKept then s1.dramPoison else [],
    dramErr := if mapKept then s1.dramErr else [],
    hamx := { s1.hamx with ties := [], tied := [] },
    digs := s1.digs.filter fun e => e.2.user = .house,
    hed := s1.hed.filter fun e => 24 * 2048 ≤ e.1,
    hgrp := s1.hgrp,
    mender := menderKeep s1.mender,
    svc := { s1.svc with removal := .idle, latchWarn := false },
    pwr := { s1.pwr with ps := ps, lastOp := ps } }
  let s3 := s2 |> regSet (pgGlb + 0x11C) (if kind = 3 then cause else setBit cause (kind + 2) true) |> extDis
              |> regAdd32 (pgClk + 0x190) 1 |> regSet (pgClk + 0x198) (pickN s1)
              |> regSetFld (pgPwr + 0x10C) 7 6 (if kind = 2 then b.lastSlot else 0)
  let s4 := if wasUp then regAdd32 (pgCxl + 0x108) 1 s3 else s3
  if fatal then s4 else note 0x8281 pgClk kind s4

/-- A reset that has been requested and whose pick has come. -/
def resetDue (kind : Nat) (s : State) : Bool :=
  s.due.any fun d => match d with
    | .reset k at_ => k = kind && at_ ≤ pickN s
    | _ => false

/-- No reset acts in the states that last until power-on reset, nor before the seal of a power-fail sequence (R466, R475). -/
def mayReset (s : State) : Bool := s.boot.phase ≠ .held && !s.boot.stuck && (s.jnl.pf = .none || s.jnl.pf = .sealed)

/-- DEVICE_RESET (R475): a device or boot-watchdog reset whose pick has come. When two resets act at one boundary, the one that
stands higher in the table of R474 acts alone. -/
def execDeviceReset (s : State) : Host.Outcome State Fault Refusal :=
  if !mayReset s then .next s
  else if resetDue 0 s then .next (doReset 0 s)
  else if resetDue 3 s then .next (doReset 3 s)
  else if resetDue 2 s && !resetDue 1 s then .next (doReset 2 s)
  else .next s

/-- FATAL_RESET (R466): FATAL_DELAY picks after a device-fatal event. -/
def execFatalReset (s : State) : Host.Outcome State Fault Refusal :=
  .next (if mayReset s && resetDue 1 s && !resetDue 0 s && !resetDue 3 s then doReset 1 s else s)

/-- BOOT_WATCHDOG_EXPIRY (R477): without `RST_BOOT_OK` by LIMIT. -/
def execBootWatchdogExpiry (s : State) : Host.Outcome State Fault Refusal :=
  let lim := regGet (pgClk + 0x188) s
  match s.boot.wdogFrom with
  | none => .next s
  | some p =>
    .next (if lim = 0 || pickN s < p + lim || !running s || s.boot.stuck then s
      else { s with boot := { s.boot with wdogFrom := none } } |> note 0x8205 pgClk s.boot.lastSlot |> later (.reset 2 (pickN s + 1)))

/-- A write of `RST_CTL` (R476): without KEY 0xA5 event 0x8203; in the states that last until power-on reset a write with the key
is dropped. -/
def rstCtl (v : Nat) (s : State) : State :=
  if bits v 15 8 ≠ 0xA5 then note 0x8203 pgClk v s
  else if bit v 0 && !s.boot.stuck then later (.reset 0 (pickN s + 1)) s
  else s

/-- RST_CTL_DEVICE (R476); a fenced page drops the write (R463). -/
def execRstCtlDevice (value : W32) (s : State) : Host.Outcome State Fault Refusal :=
  .next (if fenced pgClk s then s else rstCtl value.toNat s)

/-! ### Boot (R483 to R485) -/

/-- The boot record in force: the valid copy with the higher SEQ; whether it is copy B (R484). -/
def bootRecord (s : State) : Option (BootRecord × Bool) :=
  let a := s.boot.recordA
  let b := s.boot.recordB
  if a.valid && (!b.valid || b.seq < a.seq) then some (a, false) else if b.valid then some (b, true) else none

/-- Updates the boot record: the other copy is written with SEQ + 1 (R484). -/
def bootUpdate (g : BootRecord → BootRecord) (s : State) : State :=
  match bootRecord s with
  | some (r, true) => bootMod (fun b => { b with recordA := { g r with valid := true, seq := r.seq + 1 } }) s
  | some (r, false) => bootMod (fun b => { b with recordB := { g r with valid := true, seq := r.seq + 1 } }) s
  | none => bootMod (fun b => { b with recordA := { g {} with valid := true, seq := 1 } }) s

/-- The order in which the boot ROM tries the slots (R485 step 1). -/
def bootOrder (s : State) : List Nat :=
  let l := match bootRecord s with
    | some (r, _) => [r.active, r.lastGood]
    | none => []
  ((l.filter fun k => 1 ≤ k && k ≤ 3) ++ [1, 2, 3]).eraseDups

/-- A slot's image passes the directory's CRC and the verifier (R485 step 3). -/
def slotGood (k : Nat) (s : State) : Bool :=
  let x := tget {} s.boot.slots k
  x.present && crc32c x.image = x.crc.toNat && (izVerify x.image true).isNone && bit (leAt x.image 6 1) 0

/-- Every page accepts work: firmware sets EN in bring-up (R38). -/
def pagesEnable (s : State) : State := allPages.foldl (fun s p => regSetFld (p + 0x010) 0 0 1 s) s

/-- Firmware restores the places of carved resources (R443, R507); after power-on the groups come up empty. -/
def carvesRestore (fresh : Bool) (s : State) : State :=
  s.die.carves.foldl (fun s e =>
    let c := e.2
    let s1 := s |> regSet (pgCxlH + 0x100 + 8 * e.1) c.ham.toNat |> regSet (pgCxlH + 0x500 + 8 * e.1) c.dram.toNat
                |> fnMod e.1 (fun x => { x with heapBase := c.heapBase, heapSize := c.heapSize, group := c.group })
    match c.group with
    | none => s1
    | some g => if fresh then s1 |> regSet (pgGrp g + 0x100) c.cfg.toNat |> hedClear g else s1) s

/-- The firmware image runs: its run and its entry task, task 0 at the image's first ENTRY function (DESIGN CHOICE, log entry 50). -/
def firmwareStart (s : State) : State :=
  let h := imgHead fwImage s
  let img := (tget {} s.boot.slots s.boot.lastSlot).image
  let entry := ((List.range (hdNfunc h)).find? fun i => (izFun img i).entry).getD 0
  let s1 := runSet fwRun { used := true, phase := .live, image := fwImage, entry := entry, inputsIn := true } s
  match imgFun fwImage entry s1 with
  | none => s1
  | some f => (newTask fwRun 0 f 0 0 none s1).getD s1

/-- The namespaces that the control area records (R162); sequence numbers go on after the reserved block (R82). -/
def nssLoad (s : State) : State :=
  { s with nss := s.die.ns.map fun e => (e.1, { e.2 with nextSeq := max 1 (tget 0 s.die.seqEnd e.1), seqEnd := tget 0 s.die.seqEnd e.1 }) }

/-- A slot boots (R485, R486, R507). -/
def bootSlot (k : Nat) (skipped : List Nat) (s : State) : State :=
  let mask := skipped.foldl (fun m i => m + 2 ^ (i - 1)) 0
  let s1 := skipped.foldl (fun s i => note 0x8186 pgPwr i s) s
  let fresh := (regGet (pgClk + 0x190) s) = 0
  let s2 := s1 |> bootMod (fun b => { b with phase := .firmware, lastSlot := k })
               |> regSetFld (pgPwr + 0x10C) 4 0 (k + 4 * mask) |> regSetFld (pgPwr + 0x10C) 9 8 0
               |> pagesEnable |> nssLoad |> keyReload |> carvesRestore fresh |> firmwareStart
  if fenced pgDdr s2 then degrade s2 else s2

/-- Recovery mode (R485). -/
def recoveryEnter (skipped : List Nat) (s : State) : State :=
  let mask := skipped.foldl (fun m i => m + 2 ^ (i - 1)) 0
  skipped.foldl (fun s i => note 0x8186 pgPwr i s) s
    |> bootMod (fun b => { b with phase := .recovery, lastSlot := 0, wdogFrom := none })
    |> regSetFld (pgPwr + 0x10C) 4 0 (4 * mask) |> regSetFld (pgPwr + 0x10C) 9 8 1
    |> pagesEnable |> keyReload |> note 0x8187 pgPwr 0

/-- BOOT_SLOT_SELECT (R485): the boot ROM runs the first slot that passes, in its order, or enters recovery mode. -/
def execBootSlotSelect (s : State) : Host.Outcome State Fault Refusal :=
  if s.boot.phase ≠ .rom || pickN s < s.boot.holdUntil || s.jnl.pf ≠ .none then .next s
  else
    let wdog := regFld (pgPwr + 0x10C) 7 6 s
    let order := bootOrder s
    let good := order.find? fun k => k ≠ wdog && slotGood k s
    if bit s.boot.straps.toNat 2 then .next (recoveryEnter [] s)
    else match good with
      | some k => .next (bootSlot k (order.takeWhile (· ≠ k)) s)
      | none => .next (recoveryEnter order s)

/-- A write of `RST_BOOT_OK` by firmware (R477, R484): the watchdog stops, and a pending slot becomes LAST_GOOD. -/
def bootOk (s : State) : State :=
  let s1 := s |> bootMod (fun b => { b with wdogFrom := none }) |> regSet (pgClk + 0x18C) 1
  match bootRecord s1 with
  | some (r, _) => if r.pending then bootUpdate (fun r => { r with lastGood := r.active, pending := false }) s1 else s1
  | none => s1

/-- RST_BOOT_OK (R477); a fenced page drops the write (R463). -/
def execRstBootOk (value : W32) (s : State) : Host.Outcome State Fault Refusal :=
  .next (if running s && value.toNat % 2 = 1 && !fenced pgClk s then bootOk s else s)

/-! ### DRAM training (R179) -/

/-- The rate of a speed code: 1 is 4,800, 2 is 5,600 and 3 is 6,400 MT/s. -/
def ddrRate (code : Nat) : Nat := 4800 + 800 * (code - 1)

/-- The training values of the channels as the control area keeps them: their speed codes (DESIGN CHOICE, log entry 78). -/
def trainValues (v : List Nat) : Nat := v.foldr (fun x n => x + 4 * n) 0

/-- Full training leaves values and the identity of the modules in the control area, and field 0x05 marks them valid (R162, R179). -/
def trainStore (v : List Nat) (module : Nat) (s : State) : State :=
  let vals := trainValues v
  { s with die := { s.die with ddrValid := true, ddrVals := vals, ddrModule := module } }
    |> ctlStore 0x10 0 vals |> ctlStore 0x10 1 module |> jCtrl 0x05 0 1

/-- DRAM_TRAINING (R179): each channel's highest speed code at which it trains, 0 where none does; `gib` is the capacity of each
channel, `bolts` the time it took, `module` the identity of the modules. The saved values are tried first where field 0x05 marks them
valid and they are of these modules. -/
def execDramTraining (speeds : List Nat) (gib bolts : Nat) (s : State) (module : Nat := 0) : Host.Outcome State Fault Refusal :=
  let up := s.boot.phase = .rom || s.boot.phase = .firmware || s.boot.phase = .recovery
  if !up || s.ddr.trained || fenced pgDdr s || s.jnl.pf ≠ .none || !([16, 32, 64].contains gib) then .next s
  else
    let v := (List.range 4).map fun c => min 3 (speeds.getD c 0)
    let low := v.foldl min 3
    let fail := ((List.range 4).filter fun c => v.getD c 0 = 0).foldl (fun m c => m + 2 ^ c) 0
    let done := ((List.range 4).filter fun c => v.getD c 0 ≠ 0).foldl (fun m c => m + 2 ^ c) 0
    let fast := s.die.ddrValid && s.die.ddrModule = module % 2 ^ 64
    let s1 := { s with ddr := { s.ddr with trained := low ≠ 0, speed := low, fast := fast, failMask := BitVec.ofNat 4 fail,
                                           doneMask := BitVec.ofNat 4 done, capGib := gib } }
                |> regSet (pgDdr + 0x104) (done + fail * 16 + b2n fast * 256 + bolts % 65536 * 65536)
    if low = 0 then .next (s1 |> raise 0x1101 pgDdr fail |> degrade)
    else
      let s2 := if fast then s1 else trainStore v (module % 2 ^ 64) s1
      .next (if low < 3 then note 0x1181 pgDdr low s2 else s2)

/-- A write of 1 to `DDR_TRAIN_CTL`.FULL (R6, R182): the bit stays set, and the fast-training values are invalidated, so the next
training is full. -/
def trainFull (s : State) : State := jCtrl 0x05 0 0 (regSetFld (pgDdr + 0x108) 0 0 1 { s with die := { s.die with ddrValid := false } })

/-- DDR_TRAIN_FULL (R182). -/
def execDdrTrainFull (value : W32) (s : State) : Host.Outcome State Fault Refusal :=
  .next (if value.toNat % 2 = 1 && !fenced pgDdr s then trainFull s else s)

/-! ### The restart (R173, R174) -/

/-- The Hamper words of a staging slot check clean (R474). -/
def slotClean (k : Nat) (s : State) : Bool :=
  !((grains 32 (slotOffset k s) 16384).any fun w => tget false s.hamPoison w)

/-- A staged write that a fatal reset kept: a slot whose words do not check clean takes its DUMP page, or its unit is lost (R467,
R474). -/
def stageCheck (s : State) : State :=
  s.jnl.slots.foldl (fun s e =>
    if slotClean e.1 s then s
    else match e.2.dumped.bind fun p => s.media.pages.find? (·.1 = p) with
      | some (_, p) => slotStore e.1 0xF p.granules s
      | none => loseStaged e.2.midx e.1 (slotSet e.1 {} s)) s

/-- Every segment of the map is to be built from its checkpoint and the ring (R173 step 7). -/
def segsUnbuilt (s : State) : State :=
  { s with map := [], jnl := { s.jnl with
      segs := (List.range (segTotal s)).map fun g => (g, SegState.unbuilt),
      segRecs := segRecsNow (scanFrom s.die) s,
      replayTo := (List.range (segTotal s)).map fun g => (g, s.die.head) } }

/-- The staging directory and the map state that a restart finds: kept (device and boot-watchdog resets), kept staging over a map to
be rebuilt (fatal reset), or everything from the ring and the dumped pages (R173, R474). -/
def restartStaging (s : State) : State :=
  if s.boot.mapKept then s
  else
    let from_ := scanFrom s.die
    let commits := ringCommits from_ s.die.head s
    let s1 := segsUnbuilt s
    let s2 := { s1 with jnl := { s1.jnl with nextTxid := lastTxid s + 1 } }
    if s.boot.stageKept then s2 |> stageCheck |> restoreDiscs from_ commits
    else
      let lossy := !s.die.sealed && s.die.head ≠ 0
      let s3 := { s2 with jnl := { s2.jnl with holdupFail := s2.jnl.holdupFail || lossy } }
      (indexRing from_ s).foldl (fun s x => restoreSlot commits (lastDump from_ s) x s) s3 |> restoreDiscs from_ commits

/-- What RESTART_INDEX waits for: booted firmware, trained DRAM, a valid table, every channel with dies trained or fenced, power in
range (R173, R486). -/
def restartReady (s : State) : Bool :=
  let chans := (List.range 32).filter fun c => (List.range 16).any fun r => dieOk (dieNo c r) s
  s.boot.phase = .firmware && !s.jnl.indexed && s.jnl.issued.isEmpty && s.jnl.pf = .none && !s.boot.pwrfailLow && !(s.boot.railsLow.any (·.2)) && dramUp s &&
  s.media.tableOk && chans.all fun c => (chanGet c s).trained || fenced (pgFch c) s || fenced (pgFlc (c / 8)) s

/-- The ring's head as the scan from the sealed tail finds it (R173 step 2); where the map is kept the part knows it. -/
def headFind (s : State) : State :=
  if s.boot.mapKept then s
  else
    let a := scanFrom s.die
    { s with die := { s.die with head := scanEnd s.die (s.die.head - a) a } }

/-- RESTART_INDEX (R173 steps 1 to 6, R174): the ring is indexed, dumped slots return to staging, open stripes their accumulators, and
the controllers may report ready; the first segments begin to be built. `picks` is the time it took. -/
def execRestartIndex (picks : Nat) (s : State) : Host.Outcome State Fault Refusal :=
  if !restartReady s then .next s
  else
    let s0 := headFind (nssLoad s)
    let s1 := { s0 with
      media := { s0.media with ro := s.die.ro, slcT := if s.die.slcT = 0 then regFld (pgFlc 0 + 0x204) 15 0 s else s.die.slcT,
                               slcV := s.die.slcV },
      jnl := { s0.jnl with indexed := true, readyPick := pickN s } }
    let s2 := accLoad (restartStaging s1)
    let lost := s2.jnl.late.any (·.poison)
    let s3 := s2 |> regSet (pgJnl + 0x148) (picks % 2 ^ 32) |> note 0x1285 pgJnl picks
    let s4 := (if lost then smartEvent 4 0x00 s3 else s3) |> windowsZero |> ptyResume
    .next (buildNext 4 { s4 with boot := { s4.boot with phase := .ready, mapKept := false, stageKept := false },
                                 die := { s4.die with sealed := false },
                                 mender := { s4.mender with changed := tkeys s4.party.roster.members } })

end Sys2Proof.Machine
end

