-- ==== Sys2Proof/Machine/Power.lean ====
section
/-!
DEFINITION. Power (R101 to R103, R166 to R172, R180, R493, R494, R499, R500, R504): the power-fail sequence and its triggers,
temperatures and throttling, idle power states.
-/
namespace Sys2Proof.Machine

/-! ### Triggers (R166, R500, R504) -/

/-- A trigger of the power-fail sequence with a REASON. A second trigger is ignored (R172); of PWRFAIL_N and the monitor in one pick
the seal records REASON 1 (R500). -/
def pfTrigger (reason : Nat) (s : State) : State :=
  let j := s.jnl
  if s.boot.phase = .held then s
  else if j.pf = .none then { s with jnl := { j with pf := .triggered, pfReason := reason, pfAt := pickN s } }
  else if j.pf = .triggered && j.pfAt = pickN s && j.pfReason = 2 && reason = 1 then { s with jnl := { j with pfReason := 1 } }
  else s

/-- PWRFAIL_N_ASSERT (R166, R504): PWRFAIL_N is low for `ns` nanoseconds so far. 160 ns are always detected, up to 120 ns never;
between them the outcome is left open (log entry 8). A shorter pulse has ended. -/
def execPwrfailNAssert (ns : Nat) (s : State) : Host.Outcome State Fault Refusal :=
  let s1 := bootMod (fun b => { b with pwrfailLow := 160 ≤ ns, goodPicks := 0 }) s
  if 160 ≤ ns then .next (pfTrigger 1 s1)
  else if ns ≤ 120 then .next s1
  else
    let (d, s2) := draw s1
    .next (if Config.shortPulse d then pfTrigger 1 s2 else s2)

/-- PWRFAIL_N_DEASSERT (R172). -/
def execPwrfailNDeassert (s : State) : Host.Outcome State Fault Refusal :=
  .next (bootMod (fun b => { b with pwrfailLow := false }) s)

/-- SUPPLY_MONITOR_TRIP (R500): rails 0 to 6 in the order of R500's core rails; a fall of VDD_AON (6) holds the part in power-on
reset. -/
def execSupplyMonitorTrip (rail : Nat) (s : State) : Host.Outcome State Fault Refusal :=
  if rail < 6 then .next (pfTrigger 2 (bootMod (fun b => { b with railsLow := tset false rail true b.railsLow, goodPicks := 0 }) s))
  else if rail = 6 then .next (aonFall s)
  else .fault .noSuchUnit

/-- RAIL_BACK_IN_RANGE (R500). -/
def execRailBackInRange (rail : Nat) (s : State) : Host.Outcome State Fault Refusal :=
  if rail < 6 then .next (bootMod (fun b => { b with railsLow := tset false rail false b.railsLow }) s)
  else if rail = 6 then .next (bootMod (fun b => { b with aonLow := false }) s)
  else .fault .noSuchUnit

/-- A write of 1 to `JNL_PF_CTL`.DRILL (R6, R166): the bit stays set, and the sequence is triggered. -/
def pfDrill (s : State) : State := if s.boot.phase = .held then s else pfTrigger 5 (regSetFld (pgJnl + 0x134) 0 0 1 s)

/-- DRILL (R166): `JNL_PF_CTL`.DRILL written 1. -/
def execDrill (value : W32) (s : State) : Host.Outcome State Fault Refusal :=
  .next (if value.toNat % 2 = 1 then pfDrill s else s)

/-- A removal request has been made: it waits for its boundary, or runs (R488, R489). -/
def removalPending (s : State) : Bool :=
  (s.svc.removal ≠ .idle && s.svc.removal ≠ .latch) || s.due.contains .removal

/-- LATCH_OPEN (R166, R491). -/
def execLatchOpen (s : State) : Host.Outcome State Fault Refusal :=
  if s.svc.latchOpen then .next s
  else
    let s1 := bootMod (fun b => { b with goodPicks := 0 }) { s with svc := { s.svc with latchOpen := true } }
    if s.boot.phase = .held then .next s1
    else if !removalPending s then .next (s1 |> note 0x8084 pgSvc 0 |> pfTrigger 3)
    else if s.svc.removal = .ready then .next s1
    else .next { s1 with svc := { s1.svc with latchWarn := true } }

/-- LATCH_CLOSE (R491): after a latch-triggered seal the way is free for the device reset of R167. -/
def execLatchClose (s : State) : Host.Outcome State Fault Refusal :=
  .next { s with svc := { s.svc with latchOpen := false, latchWarn := false } }

/-! ### The sequence (R167 to R172) -/

/-- Every function's and the house's work stops: runs, Shuttle descriptors, engine jobs and commands are squashed. -/
def workStop (s : State) : State :=
  let all (_ : Option Back) (_ : Nat) : Bool := true
  let s1 := (tfind (fun r q => r ≠ fwRun && q.used) s.runs).foldl (fun s r => runKill r none s) s
  let s2 := (List.range 64).foldl (fun s k => shuSquash k 0x09 all s) s1
  let s3 := allEngines.foldl (fun s a => engSquash a 0x09 all s) s2
  let s4 := (tfind (fun _ x => x.used) s3.qe.ctxs).foldl (fun s c => squash c s) s3
  (tkeys s4.fns).foldl (fun s f => cplDrop f s) s4

/-- The flash complex at pick 0: no operation starts any more, reads and erases end by a reset of their dies, and SLC programs that run
complete; what a suspended native program was to write keeps its old copy (R167; DEDUCED, log entry 149). A checkpoint is abandoned
(R172). -/
def mediaStop (s : State) : State :=
  let slc := s.media.programs.filter fun g => !(sbGet (puaSb (g.units.headD {}).pua) s).native
  let off (d : Die) : Die := { d with busy := false, read := none, erase := none, suspends := 0 }
  let s1 := { s with jnl := { s.jnl with ckpts := [] },
                     media := { s.media with reads := [], rebuilds := [], todo := [], fills := [], programs := [], placed := [], erasing := [], erased := [], dies := s.media.dies.map fun e => (e.1, off e.2) } }
  let s2 := slc.foldl (fun s g => g.units.foldl unitDone s) s1
  { s2 with media := { s2.media with reads := [] } }

/-- Everything in flight stops at pick 0 (R167): unclaimed writes are discarded, the commit words of claimed ones become durable, and the
digest contexts are lost (R281). -/
def pfStop (s : State) : State :=
  let s1 := mediaStop (workStop s)
  let s2 := { s1 with digs := [], qe := { s1.qe with actPhase := 0 }, svc := { s1.svc with removal := .idle, latchWarn := false },
                      due := s1.due.filter fun d => match d with
                        | .reset _ _ => true
                        | _ => false }
  let s3 := dlogEndAll s2
  if s3.die.failed then s3 else jDrain (jFlush s3)

/-- The one AWAY with CAUSE 2 that a latch trigger sends; it is not resent (R396). -/
def pfAway (s : State) : State :=
  match steward s.party.roster with
  | some x => if (s.party.state = .active || s.party.state = .leaving) && x ≠ s.party.index && !fenced pgPty s
              then (cellSend x (rMember s.party.roster x).hpa 0x17 [2] s).2 else s
  | none => s

/-- POWER_FAIL_ACT (R167, R169, R172): pick 0 of the sequence. The dump takes D picks; what it has saved is told at its end, or where
power fails before it (log entry 6). -/
def execPowerFailAct (s : State) : Host.Outcome State Fault Refusal :=
  if s.jnl.pf ≠ .triggered || pickN s ≤ s.jnl.pfAt then .next s
  else
    let reason := s.jnl.pfReason
    let s1 := pfStop (note 0x1281 pgJnl reason s)
    let s2 := if reason = 3 then pfAway s1 else s1
    let d := if mayDump s2 then dumpPicks ((dumpSet s2).length + s2.media.parity.length) s2 else 6
    .next (regSet (pgJnl + 0x130) (d % 65536 + reason * 2 ^ 28)
      { s2 with jnl := { s2.jnl with pf := .dumping, pfAt := pickN s, pfSlots := 0 } })

/-- The entries of the event log that a seal saves (R469). -/
def logSave (s : State) : State :=
  let l := if fenced pgHam s then s.log.queue else ringNewest s.log 256
  { s with log := { s.log with saved := l.take 256, savedValid := true } }

/-- The SEAL record, the control area and the ring head (R162, R167, R398): `n` slots were dumped. -/
def sealWrite (reason n : Nat) (s : State) : State :=
  let s1 := s |> jIssue [recSeal reason n (pickN s)] [] |> jDrain
  let keep := s1.jnl.indexed || s1.boot.mapKept || s1.boot.stageKept
  let s2 := if s1.party.state = .none then s1 else ptyRecord s1
  logSave (ctlSeal (ctlFold { s2 with
    die := { s2.die with sealed := true, sealReason := reason, tail := if keep then jTail s2 else s2.die.tail },
    jnl := { s2.jnl with holdupFail := false } }))

/-- SEAL (R167, R172): the dump, and at picks D − 4 to D of the sequence the SEAL record. A journal die that fails is device-fatal. -/
def execSeal (dieOk : Bool) (s : State) : Host.Outcome State Fault Refusal :=
  let d := regFld (pgJnl + 0x130) 15 0 s
  if s.jnl.pf ≠ .dumping || pickN s + 4 < s.jnl.pfAt + d || s.die.failed then .next s
  else if !dieOk then .next (raise 0x1201 pgJnl 0 { s with die := { s.die with failed := true } })
  else
    let reason := s.jnl.pfReason
    let (n, s0) := dumpRun ((dumpSet s).length + 1) s
    let s1 := s0 |> note 0x1284 pgJnl reason |> sealWrite reason n |> regSetFld (pgJnl + 0x130) 27 16 n
    .next { s1 with
      jnl := { s1.jnl with pf := .sealed, pfSlots := n },
      boot := { s1.boot with flPwrEn := false, goodPicks := 0, phase := if s1.boot.phase = .fatal then .fatal else .sealed },
      svc := { s1.svc with removal := if reason = 3 then .latch else .idle } }

/-- Power and the latch are as R167 asks for the reset after a seal. -/
def powerGood (s : State) : Bool := !s.boot.pwrfailLow && !(s.boot.railsLow.any (·.2)) && !s.svc.latchOpen

/-- POWER_RESTORED_RESET (R167): after 256 picks of good power and a closed latch the device reset is requested. -/
def execPowerRestoredReset (s : State) : Host.Outcome State Fault Refusal :=
  let asked := s.due.any fun d => match d with
    | .reset 0 _ => true
    | _ => false
  .next (if s.jnl.pf = .sealed && 256 ≤ s.boot.goodPicks && powerGood s && !s.boot.stuck && !asked
    then later (.reset 0 (pickN s + 1)) s else s)

/-! ### Temperatures (R493, R494) -/

/-- The junction limit of the grade in °C (R493). -/
def tjLimit : Int := if Config.gradeX then 105 else 100

/-- A temperature as its 8-bit register holds it. -/
def temp8 (t : Int) : Int := sgn 8 (unsgn 8 t)

/-- The largest element; `d` for none. -/
def maxInt (d : Int) (l : List Int) : Int := l.foldl max (l.headD d)

/-- A controller's Temperature warning at a composite temperature in °C (R494): at its over-temperature threshold or above, or at its
under-temperature threshold or below. -/
def tempWarn (f : Nat) (tj : Int) (s : State) : Bool :=
  let k := (tj + 273).toNat
  let x := fnGet f s
  x.tempOver.getD wctemp ≤ k || k ≤ x.tempUnder

/-- The hottest usable die: its temperature and its limit, the lowest die number on a tie (R145, R493). -/
def hottestDie (s : State) : Option (Int × Int) :=
  (s.media.dies.filter fun e => dieOk e.1 s).foldl (fun (b : Option (Int × Int)) e =>
    let t := (e.2.temp, (dieType e.1 s).tMax)
    match b with
    | none => some t
    | some q => if q.1 < t.1 then some t else b) none

/-- The sources' margins (R493): limit less temperature, by source number; a source without a reading has none. -/
def margins (tj : Int) (s : State) : List (Nat × Int) :=
  [(0, tjLimit - tj)] ++ ((hottestDie s).toList.map fun d => (1, d.2 - d.1)) ++
  (if s.ddr.trained then [(2, 85 - s.pwr.dramTemp)] else [])

/-- The smallest margin, the lower source number on a tie. -/
def leastMargin (l : List (Nat × Int)) : Nat × Int :=
  l.foldl (fun b e => if e.2 < b.2 then e else b) (l.headD (0, 0))

/-- t* of R493. -/
def targetFactor (m margin : Int) : Nat :=
  if margin ≤ m then 256 else if 1 ≤ m then max 32 (256 * m / margin).toNat else 32

/-- The 8 bits of a margin in `PWR_TEMP`; one that does not fit them is left open (log entry 6). -/
def marginBits (m : Int) (s : State) : Nat × State :=
  if -128 ≤ m && m < 128 then (unsgn 8 m, s)
  else
    let (d, t) := draw s
    (Config.freeChoice d % 256, t)

/-- t falls at once and rises by at most 16, with events 0x8181 and 0x8182 (R493). -/
def throttle (star : Nat) (s : State) : State :=
  let t := s.pwr.tf
  let t1 := if star ≤ t then star else min star (t + 16)
  let s1 := { s with pwr := { s.pwr with tf := t1 } }
  if t = 256 && t1 < 256 then note 0x8181 pgPwr t1 s1 else if t < 256 && t1 = 256 then note 0x8182 pgPwr t1 s1 else s1

/-- PS2 is forced at the junction limit and released after 256 bolts of margin; THERMTRIP_N latches 10 °C above it (R494). -/
def thermalActs (tj m margin : Int) (s : State) : State :=
  let hot := tjLimit ≤ tj
  let cool := if m < margin then 0 else s.pwr.coolBolts + 1
  let forced := hot || (s.pwr.forced && cool < 256)
  let s1 := { s with pwr := { s.pwr with forced := forced, coolBolts := if forced then cool else 0 } }
  let s2 := if hot && !s.pwr.forced then note 0x8183 pgPwr 0 s1 else s1
  if tjLimit + 10 ≤ tj && !s2.pwr.thermtrip then note 0x8184 pgPwr 0 { s2 with pwr := { s2.pwr with thermtrip := true } } else s2

/-- THERMAL_UPDATE (R493, R494): once a bolt, the 8 junction sensors; every 16th bolt the DRAM modules by channel. -/
def execThermalUpdate (tj dram : List Int) (s : State) : Host.Outcome State Fault Refusal :=
  if s.pwr.thermBolt = boltN s + 1 || s.boot.phase = .held then .next s
  else
    let l := (List.range 8).map fun i => temp8 (tj.getD i 0)
    let top := maxInt 0 l
    let old := sgn 8 (regFld (pgPwr + 0x104) 7 0 s)
    let s1 := l.zipIdx.foldl (fun s p => regSet (pgPwr + 0x150 + 4 * p.2) (unsgn 8 p.1) s)
      { s with pwr := { s.pwr with thermBolt := boltN s + 1 } }
    let mods := (dram.take 4).map temp8
    let s2 := if boltN s % 16 ≠ 0 || mods.isEmpty then s1
      else mods.zipIdx.foldl (fun s p => regSet (pgDdrCh p.2 + 0x120) (unsgn 8 p.1) s)
        { s1 with pwr := { s1.pwr with dramTemp := maxInt 0 mods } }
    let (src, m) := leastMargin (margins top s2)
    let margin : Int := (regFld (pgPwr + 0x108) 4 0 s : Nat)
    let (mb, s3) := marginBits m s2
    let s4 := s3 |> regSet (pgPwr + 0x104) (unsgn 8 top + mb * 256 + src * 65536)
                 |> throttle (targetFactor m margin) |> thermalActs top m margin
    .next ((List.range 128).foldl (fun s f =>
      if fnPresent f s && (fnGet f s).rdy && bit (fnGet f s).aec.toNat 1 && tempWarn f top s && !tempWarn f old s
      then postAev f { type := 1, info := 0x01, page := 0x02 } s else s) s4)

/-! ### Idle power states (R101 to R103, R180, R499) -/

/-- The part is idle (R103): no command in flight (waiting Asynchronous Event Requests apart), no program run, no Mender work. -/
def idleNow (s : State) : Bool :=
  !(s.qe.ctxs.any fun e => e.2.used && !(fnGet e.2.fn s).aers.contains e.1) &&
  !(s.fns.any fun e => !e.2.waitCpl.isEmpty) && !(s.runs.any fun e => e.1 ≠ fwRun && e.2.used) &&
  s.mender.queue.isEmpty && s.mender.plans.isEmpty && s.mender.hops.isEmpty && s.mender.commits.isEmpty

/-- Enters PS3, or PS4 once staging is flushed, the flash has nothing under way and the part stands outside any Party or is away (R103): the parity of every open
stripe is programmed, every journal record is made durable (R177), and the flash power goes off (R499). -/
def enterLow (k : Nat) (s : State) : State :=
  let last := if s.pwr.ps < 3 then s.pwr.ps else s.pwr.lastOp
  let go (s : State) : State := regAdd (pgPwr + 0x140) 1 { s with pwr := { s.pwr with ps := k, lastOp := last } }
  if k = 3 then go s
  else if !(s.party.state = .none || s.party.state = .away) || s.jnl.slots.any (fun e => e.2.used) || !s.media.placed.isEmpty ||
      !s.media.programs.isEmpty || !s.jnl.ckpts.isEmpty || s.media.dies.any (fun d => d.2.read.isSome || d.2.erase.isSome) then s
  else bootMod (fun b => { b with flPwrEn := false }) (go (jDrain (jFlush (paritiesNow s))))

/-- APST_TRANSITION (R103): after the idle time the part enters the lower power state. -/
def execApstTransition (s : State) : Host.Outcome State Fault Refusal :=
  match lowTarget s with
  | some k => .next (if s.boot.phase = .ready && s.jnl.pf = .none && idleNow s && 3 ≤ k && k ≤ 4 && s.pwr.ps < k
      then enterLow k s else s)
  | none => .next s

end Sys2Proof.Machine
end

