-- ==== Sys2Proof/Machine/Service.lean ====
section
/-!
DEFINITION. The service panel (R396, R488 to R492): presses of the button, removal requests and their course, the carrier's
presence, the LEDs.
-/
namespace Sys2Proof.Machine

def svcMod (g : Svc → Svc) (s : State) : State := { s with svc := g s.svc }

/-- The button acts (R488): firmware has written `RST_BOOT_OK` and `SVC_CFG`.BTN_DIS is 0. -/
def btnActs (s : State) : Bool := regFld (pgClk + 0x18C) 0 0 s = 1 && regFld (pgSvc + 0x110) 0 0 s = 0

/-- SERVICE_BUTTON_PRESS (R488): the debounced fall of SVC_BTN_N. -/
def execServiceButtonPress (s : State) : Host.Outcome State Fault Refusal :=
  .next (if s.svc.pressed.isSome then s else svcMod (fun x => { x with pressed := some (pickN s) }) s)

/-- SERVICE_BUTTON_RELEASE (R488): a press of `ms` ends. From 500 ms up to 5 s it requests removal, unless one is pending or the
power-fail sequence runs; a press that reached 5 s has had its effect. -/
def execServiceButtonRelease (ms : Nat) (s : State) : Host.Outcome State Fault Refusal :=
  if s.svc.pressed.isNone then .next s
  else
    let s1 := s |> regSet (pgSvc + 0x104) (min 65535 ms) |> svcMod (fun x => { x with pressed := none })
    if 5000 ≤ ms then .next s1
    else if ms < 500 || !btnActs s then .next (note 0x8086 pgSvc ms s1)
    else if removalPending s || s.jnl.pf ≠ .none then .next s1
    else .next (later .removal (svcMod (fun x => { x with reqPick := pickN s }) s1))

/-- A cancel (R490): the hold clears, BACK is sent if AWAY was, and after the seal the part runs on with the map it holds. -/
def removalCancel (s : State) : State :=
  let s1 := { s with
    due := s.due.filter (· ≠ .removal), svc := { s.svc with removal := .idle, latchWarn := false },
    qe := { s.qe with held := false }, die := { s.die with sealed := false },
    party := { s.party with awaySent := none } } |> regSetFld (pgQen + 0x104) 0 0 0
  let s2 := if s.party.awaySent.isSome then ptySteward 0x18 [] s1 else s1
  note 0x8082 pgSvc 0 s2

/-- SERVICE_BUTTON_CANCEL (R488, R490): a press reaches 5 s. -/
def execServiceButtonCancel (s : State) : Host.Outcome State Fault Refusal :=
  if s.svc.pressed.isNone then .next s
  else if !btnActs s || !removalPending s || s.jnl.pf ≠ .none then .next (note 0x8086 pgSvc 5000 s)
  else .next (removalCancel s)

/-- REMOVAL_REQUEST (R489 step 1): at the first pick boundary after the request, or after the firmware activation it met. -/
def execRemovalRequest (s : State) : Host.Outcome State Fault Refusal :=
  if !s.due.contains .removal || pickN s ≤ s.svc.reqPick || s.qe.actPhase ≠ 0 || s.jnl.pf ≠ .none || !running s then .next s
  else
    let s1 := { s with
      due := s.due.filter (· ≠ .removal), svc := { s.svc with removal := .draining, drainFrom := boltN s },
      qe := { s.qe with held := true } } |> regSetFld (pgQen + 0x104) 0 0 1 |> note 0x8081 pgSvc 0
    let s2 := (List.range 128).foldl (fun s f => vendorEvent f 0x03 0xC1 s) s1
    .next (if isMember s2 && (s2.party.state = .active || s2.party.state = .leaving)
      then ptySteward 0x17 [1] { s2 with party := { s2.party with awaySent := some (boltN s2) } } else s2)

/-- Commands, completion entries and program runs that a removal still waits for. -/
def removalLive (s : State) : Bool :=
  (s.fns.any fun e => !e.2.waitCpl.isEmpty) || (s.qe.ctxs.any fun e => e.2.used && !(fnGet e.2.fn s).aers.contains e.1) || s.runs.any fun e => e.1 ≠ fwRun && e.2.used

/-- REMOVAL_DRAIN_LIMIT (R489 step 2): what is still in flight after DRAIN_BOLTS is squashed. -/
def execRemovalDrainLimit (s : State) : Host.Outcome State Fault Refusal :=
  let lim := regFld (pgSvc + 0x110) 31 16 s
  if s.svc.removal ≠ .draining || boltN s < s.svc.drainFrom + lim || !removalLive s || s.jnl.pf ≠ .none then .next s
  else
    let runs := tfind (fun r q => r ≠ fwRun && q.used) s.runs
    let s1 := runs.foldl (fun s r => runKill r none s) s
    let cs := tfind (fun c x => x.used && !(fnGet x.fn s1).aers.contains c) s1.qe.ctxs
    let s2 := cs.foldl (fun s c => squash c s) s1
    let s3 := (tkeys s2.fns).foldl (fun s f => cplDrop f (fnMod f (fun x => { x with arm := none }) s)) s2
    .next (note 0x8087 pgSvc cs.length s3)

/-- READY_TO_REMOVE comes on (R489 step 4). -/
def removalDone (s : State) : State :=
  s |> svcMod (fun x => { x with removal := .ready, latchWarn := false }) |> regAdd32 (pgSvc + 0x118) 1 |> note 0x8083 pgSvc 0

/-- The condition of R396 on READY_TO_REMOVE: no AWAY was sent, or an epoch shows the part AWAY. -/
def awayDone (s : State) : Bool := s.party.awaySent.isNone || s.party.state = .away

/-- Segments with records since their START. -/
def recsLeft (s : State) : List Nat := (tkeys s.jnl.segRecs).filter fun g => g < segTotal s

/-- A clean shutdown of the part ends with a SEAL of REASON 4 once staging is empty and every segment is checkpointed (R177; DEDUCED, log
entry 142). -/
def shutdownSeal (s : State) : State :=
  if shutAll s && !s.die.sealed && s.svc.removal = .idle && mediaUp s && allBuilt s && !s.die.failed && s.jnl.slots.isEmpty &&
    s.jnl.ckpts.isEmpty && (recsLeft s).isEmpty then sealWrite 4 0 (jDrain (jFlush s)) else s

/-- REMOVAL_SEAL (R177, R489 step 3): once the drain is over staging is flushed, every segment with records since its START is
checkpointed, and SEAL is written with REASON 4. -/
def execRemovalSeal (s : State) : Host.Outcome State Fault Refusal :=
  if !(s.svc.removal = .draining || s.svc.removal = .flushing) || removalLive s || s.jnl.pf ≠ .none || s.die.failed || !running s
  then .next s
  else
    let s1 := svcMod (fun x => { x with removal := .flushing }) s
    if (s1.jnl.slots.any fun e => e.2.used) || !(allBuilt s1 || s1.boot.degraded) then .next s1
    else
      let gs := if s1.boot.degraded then [] else recsLeft s1
      if !gs.isEmpty || !s1.jnl.ckpts.isEmpty then .next (mediaTurn (placeAll (gs.foldl (fun s g => checkpoint g s) s1)))
      else
        let s2 := sealWrite 4 0 (jDrain (jFlush s1))
        .next (if awayDone s2 then removalDone s2 else svcMod (fun x => { x with removal := .awaiting }) s2)

/-- REMOVAL_AWAY_TIMEOUT (R396): 256 bolts after AWAY. -/
def execRemovalAwayTimeout (s : State) : Host.Outcome State Fault Refusal :=
  match s.party.awaySent with
  | some b => .next (if s.svc.removal = .awaiting && b + 256 ≤ boltN s && s.party.state ≠ .away
      then removalDone (note 0x518A pgPty 0 s) else s)
  | none => .next s

/-- PRSNT_N_RISE (R488). -/
def execPrsntNRise (s : State) : Host.Outcome State Fault Refusal :=
  .next (if s.svc.absent || s.boot.phase = .held then s else note 0x8085 pgSvc 0 (svcMod (fun x => { x with absent := true }) s))

/-! ### What the panel shows (R492, R495) -/

/-- The length of the present press in ms; 250 picks are 1 ms. -/
def pressMs (s : State) : Nat := s.svc.pressed.elim 0 fun p => (pickN s - p) / 250

/-- The patterns of `SVC_LED_STAT`: 0 off, 1 1 Hz, 2 on, 3 4 Hz (R492). -/
def ledFault (s : State) : Nat :=
  if regFld (pgSvc + 0x108) 8 8 s = 1 then 2
  else if s.boot.phase = .fatal || s.boot.phase = .recovery then 2
  else if tjLimit ≤ sgn 8 (regFld (pgPwr + 0x104) 7 0 s) || s.svc.latchWarn then 3
  else if Nat.land (critWarn false s) 0x1C ≠ 0 || s.boot.degraded || s.fenceHeld.any (fun e => e.2 && fenced e.1 s) then 1
  else 0

def ledLocate (s : State) : Nat :=
  if regFld (pgSvc + 0x108) 8 8 s = 1 then 2
  else if s.boot.phase = .recovery then 1
  else if 500 ≤ pressMs s && pressMs s < 5000 then 3
  else regFld (pgSvc + 0x108) 1 0 s

def ledRtr (s : State) : Nat :=
  if regFld (pgSvc + 0x108) 8 8 s = 1 then 2
  else match s.svc.removal with
    | .draining | .flushing | .awaiting => 1
    | .ready | .latch => 2
    | .idle => if s.jnl.pf = .sealed then 2 else 0

/-- REMOVE of `SVC_STAT` (R495). -/
def Removal.code : Removal → Nat
  | .idle => 0
  | .draining => 1
  | .flushing => 2
  | .awaiting => 3
  | .ready => 4
  | .latch => 5

end Sys2Proof.Machine
end

