-- ==== Sys2Proof/Machine/Contain.lean ====
section
/-!
DEFINITION. Containment (R460 to R473) and the common header's commands: block-fatal and device-fatal events, crossings, branches,
fences and soft resets, counter snapshots (R49), the W1C registers of the header (R40, R41), the Warp's weights (R30), the skew
register (R31), the event log's index (R480).
-/
namespace Sys2Proof.Machine

/-! ### What a fence or a soft reset does to the work of its block -/

/-- Requests in flight on a flash channel end with error responses (R39, R463): reads go on with die parity, and what a page under program
was to hold goes to another superblock (DEDUCED, log entry 149). -/
def chanReset (s : State) (c : Nat) : State :=
  let dies := ((List.range 16).map fun r => dieNo c r).filter fun k => (dieGet k s).usable
  let reads := dies.filterMap fun k => (dieGet k s).read
  let gs := s.media.programs.filter fun g => dies.contains g.die
  let off (d : Die) : Die := { d with busy := false, read := none, erase := none }
  let s1 := dies.foldl (fun s k => dieMod k off s) { s with media := { s.media with programs := s.media.programs.filter fun g => !dies.contains g.die } }
  let again (s : State) (g : Program) : State :=
    let sb := puaSb (g.units.headD {}).pua
    abandonSb sb (sbParity sb s = c) g.units s
  mediaTurn (reads.foldl readFailed (gs.foldl again s1))

/-- Commands of the Mender that run end with Block Fenced (R431, R463). -/
def mendersEnd (s : State) : State :=
  (tfind (fun _ x => x.used && !x.claimed && (sqeOp x.sqe = 0x91 || sqeOp x.sqe = 0x94)) s.qe.ctxs).foldl
    (fun s c => s |> slotDrop c |> finish c vsFenced |> slotSweep |> discSweep) s

/-- Ends the jobs and descriptors that the block of a page holds with code 0x08 (R463); a core or cluster acts on its tasks
(R361). -/
def blockSquash (page : Nat) (s : State) : State :=
  let every (_ : Option Back) (_ : Nat) : Bool := true
  match pageAt page with
  | some p => match p.type with
    | 0x20 => ((List.range 8).map (8 * p.inst + ·)).foldl chanReset s
    | 0x21 => chanReset s p.inst
    | 0x30 => shuSquash p.inst 0x08 every s
    | 0x50 => mendersEnd (engSquash 0x61 0x08 every s)
    | 0x40 => clusterFenced p.inst s
    | 0x41 => coreFenced p.inst s
    | _ => match allEngines.find? fun a => engPage a = page with
      | some a => engSquash a 0x08 every s
      | none => s
  | none => s

/-- Every valid unit on the channels of quadrant `q` is lost when its switch fails (R137): the last rows of R134. What was to be
programmed there goes elsewhere. -/
def quadLost (q : Nat) (s : State) : State :=
  let l := validUnits (fun p => puaChan p / 8 = q) s
  let s0 := (List.range 128).foldl (fun s i => dieAbandon (128 * q + i) s) s
  mediaTurn (warnLost (l.foldl (fun s u => loseUnit u.1 u.2 s) s0))

/-- An acknowledged write in staging is lost with the Hamper (R203): no page takes its unit, which is handled as in the last two rows of
R134, and its slot is given up. -/
def slotLost (s : State) (e : Nat × Slot) : State :=
  let i := e.2.midx
  let s1 := s |> placedClear i 1 |> note 0x2003 (pgFlc 0) i |> poisonUnit i |> slotRelease e.1
  if e.2.stripe ≠ 0 then note 0x2087 (pgFlc 0) i (shardLost i s1) else s1 |> logLost i 0 4 |> warnLost

/-- Acknowledged writes in staging that are not programmed yet are lost when the Hamper is fenced (R203). -/
def stagingLost (s : State) : State :=
  (s.jnl.slots.filter fun e => e.2.used && e.2.committed && e.2.released.isNone).foldl slotLost s

/-- What a new fence does at the next pick boundary, by its page and CODE (R463, R137, R203, R361). -/
def fenceEffect (page : Nat) (s : State) : State :=
  if !fenced page s then s
  else
    let code := regFld (page + 0x044) 31 16 s
    let s1 := blockSquash page s
    match pageAt page with
    | some p => match p.type with
      | 0x21 => if code = 0x2101 || code = 0x2107 || code = 0x8202
                then (List.range 16).foldl (fun s r => if (dieGet (dieNo p.inst r) s).usable then dieFail (dieNo p.inst r) s else s) s1
                else s1
      | 0x20 => if code = 0x2001 then quadLost p.inst s1 else s1
      | 0x10 => if p.index = 0 then stagingLost s1 else s1
      | _ => s1
    | none => s1

/-! ### Fatal events (R461, R462, R466) -/

/-- Events without a fence of their own that only the hardware's self-checks raise: a digest context or a key slot lost (R257,
R270), a ready-list or task-table entry (R379), an instruction-cache line, stripe table entries (R411), a completion entry that
the host did not take (R109). -/
def selfEvents : List Nat := [0x3302, 0x3402, 0x4081, 0x4201, 0x4202, 0x5002, 0x6002]

/-- The task-table entry of a task cannot be corrected: its task is killed (R379). -/
def taskLost (t : Nat) (s : State) : State :=
  let x := taskGet t s
  if x.state = .free then s
  else if x.house then s |> evict t |> taskMod t (fun x => { x with state := .free })
  else trapKill x.run 0x82 s

/-- What an event of `selfEvents` sets off beside its record; `arg` names the context, slot, code line, task, stripe or function. -/
def selfCheckAct (code arg : Nat) (s : State) : State :=
  match code with
  | 0x3302 => if (tget {} s.digs (arg % 64)).alloc
              then { s with digs := tmod {} (arg % 64) (fun x => { x with lost := true }) s.digs } else s
  | 0x3402 => keyBad (arg % 32) (!bit arg 5) s
  | 0x4081 => codeKeep (· ≠ arg) s
  | 0x4201 => taskLost (arg % 65536) s
  | 0x5002 => match stripeFind arg s with
              | some (_, e) => toAll (e.others s) 0x4B (natLe 8 arg) s
              | none => s
  | 0x6002 => fnMod (arg % 128) (fun x => { x with cfs := true }) s
  | _ => s

/-- BLOCK_FATAL_EVENT (R462): an event of a page's block that its self-checks find. `arg` is the event's DETAIL. -/
def execBlockFatalEvent (page code arg : Nat) (s : State) : Host.Outcome State Fault Refusal :=
  match pageAt page with
  | none => .fault .noSuchUnit
  | some p =>
    if page % 0x1000 ≠ 0 || p.type ≠ code / 256 || s.boot.phase = .held then .next s
    else if blockFatal code then .next (raise code page arg s)
    else if selfEvents.contains code then .next (selfCheckAct code arg (note code page arg s))
    else .next s

/-- DEVICE_FATAL_EVENT (R461, R466). -/
def execDeviceFatalEvent (code : Nat) (s : State) : Host.Outcome State Fault Refusal :=
  if s.boot.phase = .held then .next s
  else match code with
    | 0x0201 => .next (raise code pgWarp 0 s)
    | 0x0301 | 0x0306 => .next (raise code pgWeft 0 s)
    | 0x1201 => .next (raise code pgJnl 0 { s with die := { s.die with failed := true } })
    | 0x8201 => .next (raise code pgClk 0 s)
    | _ => .next s

/-- PICK_DISTRIBUTION_FAILURE (R22). -/
def execPickDistributionFailure (s : State) : Host.Outcome State Fault Refusal :=
  .next (if s.boot.phase = .held then s else raise 0x0301 pgWeft 0 s)

/-- CORE_PLL_LOCK_LOST (R461, R501). -/
def execCorePllLockLost (s : State) : Host.Outcome State Fault Refusal :=
  .next (if s.boot.phase = .held then s else raise 0x8201 pgClk 0 (bootMod (fun b => { b with pllLost := true }) s))

/-! ### Branches and crossings (R31, R471 to R473) -/

/-- Pages of a branch that a Selvage can fence. -/
def branchPages (b : Nat) : List Nat :=
  allPages.filter fun a => match pageAt a with
    | some p => branchOf p = b && pageSelv p
    | none => false

/-- A branch answers no more (R31): its bit clears, event 0x0302, its blocks are fenced. -/
def branchDown (b : Nat) (s : State) : State :=
  if regFld (pgWeft + 0x100) b b s = 0 then s
  else (branchPages b).foldl (fun s p => fencePage p 0x0302 false s)
    (note 0x0302 pgWeft b (regSetFld (pgWeft + 0x100) b b 0 s))

/-- BRANCH_NOT_ANSWERING (R31). -/
def execBranchNotAnswering (branch : Nat) (s : State) : Host.Outcome State Fault Refusal :=
  if branch < 16 then .next (if s.boot.phase = .held then s else branchDown branch s) else .fault .noSuchUnit

/-- The pages of the far block of a crossing whose core side expires (R471, R473); a branch crossing fences the pages that the
branch serves in another clock domain. -/
def xingPages (id : Nat) : List Nat :=
  if id = 0x00 then fatalPages pgCxl
  else if id ≤ 0x04 then fatalPages pgDdr
  else if 0x10 ≤ id && id < 0x30 then [pgFch (id - 0x10)]
  else if id = 0x40 then fatalPages pgDdr
  else if 0x41 ≤ id && id ≤ 0x44 then (List.range 8).map fun i => pgFch (8 * (id - 0x41) + i)
  else if id = 0x4F then fatalPages pgCxl
  else []

/-- An ID of the table of R471. -/
def xingId (id : Nat) : Bool := id ≤ 0x04 || (0x10 ≤ id && id ≤ 0x30) || (0x40 ≤ id && id ≤ 0x4F)

/-- CROSSING_WATCHDOG_EXPIRY (R473): on the core side of crossing `id`, or, with `far`, on its far side. -/
def execCrossingWatchdogExpiry (id : Nat) (far : Bool) (s : State) : Host.Outcome State Fault Refusal :=
  if !xingId id then .fault .noSuchUnit
  else if s.boot.phase = .held then .next s
  else
    let s1 := s |> regAdd (pgClk + 0x110) 1 |> regSet (pgClk + 0x120) (id + pickN s % 2 ^ 32 * 2 ^ 32) |> note 0x8202 pgClk id
    if id = 0x30 || (far && id < 0x30) then .next (goFatal 0x8202 4 s1)
    else if 0x40 ≤ id then
      .next (regAdd32 (pgWeft + 0x110) 1 (if far then branchDown (id - 0x40) s1
        else (xingPages id).foldl (fun s p => fencePage p 0x8202 false s) s1))
    else .next ((xingPages id).foldl (fun s p => fencePage p 0x8202 false s) s1)

/-- Crossing `id` is closed (R472): the part is held in reset, or the block on the far side is, for a fundamental reset or a soft reset
of one of its pages. Branch crossings have the page logic on both sides (DEDUCED, log entry 129). -/
def xingClosed (id : Nat) (s : State) : Bool :=
  xingId id && (s.boot.phase = .held || (s.boot.phase = .rom && pickN s < s.boot.holdUntil && id ≠ 0x30) ||
    (if id = 0x00 then s.boot.perstLow || (fatalPages pgCxl).any fun p => resetting p s
     else if id ≤ 0x04 then resetting pgDdr s || resetting (pgDdrCh (id - 1)) s
     else if 0x10 ≤ id && id < 0x30 then resetting (pgFch (id - 0x10)) s
     else false))

/-! ### Fences by request, soft resets (R39, R462, R464, R465) -/

/-- A write of SELV_REQ (R462). -/
def selvReq (page : Nat) (s : State) : State :=
  match pageAt page with
  | some p => if pageSelv p then fencePage page 0 true s else s
  | none => note 0x0303 pgWeft page s

/-- SELV_REQ (R462). -/
def execSelvReq (page : Nat) (s : State) : Host.Outcome State Fault Refusal := .next (selvReq (pageBase page) s)

/-- The write of SOFT_RST (R39): the block stops accepting work, its jobs end; on the queue engine pages every controller is
reset first, on the CXL pages the functions as by a link-down (R464). -/
def softStart (page : Nat) (s : State) : State :=
  match pageAt page with
  | none => note 0x0303 pgWeft page s
  | some p =>
    if resetting page s || s.boot.phase = .held then s
    else
      let s1 := blockSquash page (later (.softReset page (pickN s + 2)) s)
      match p.type with
      | 0x60 => ((List.range 128).filter fun f => fnPresent f s1).foldl (fun s f =>
          later (.ctlReset f false) (fnMod f (fun x => { x with cc := BitVec.ofNat 32 (setBit x.cc.toNat 0 false) }) s)) s1
      | 0x70 => cxlMod (fun x => { x with retraining := true }) (if s1.cxl.up then linkLost false s1 else later .linkDown s1)
      | _ => s1

/-- SOFT_RST (R39). -/
def execSoftRst (page : Nat) (s : State) : Host.Outcome State Fault Refusal := .next (softStart (pageBase page) s)

/-- Blocks whose fence a soft reset of the page lifts (R464). -/
def softLifts (page : Nat) : Bool :=
  match pageAt page with
  | some p => [0x30, 0x31, 0x32, 0x33, 0x34, 0x35, 0x40, 0x41, 0x50, 0x51, 0x60, 0x70].contains p.type || (p.type = 0x36 && 24 ≤ p.index)
  | none => false

/-- Pages whose fence ends with a soft reset of `page`: those of the queue engine go with the guard tiles, those of the CXL block
together (R464; log entry 91). -/
def liftedBy (page : Nat) : List Nat :=
  if page = pgQen || page = pgQenP then [pgQen, pgQenP] ++ (List.range 24).map pgTile
  else if pgCxl ≤ page && page ≤ pgDoe then fatalPages pgCxl
  else if softLifts page then [page] else []

/-- The Mender's work after a soft reset of its page: plans are not kept, as over a power loss, and its stripes are checked again (R423,
R429, R464; DESIGN CHOICE, log entry 91). -/
def mndReload (s : State) : State :=
  mndMod (fun m => { m with plans := [], hops := [], commits := [], usedSpread := 0, usedRelay := 0, changed := tkeys s.party.roster.members }) s

/-- The Party takes its roster from the journal control area again; its counters are never reused (R398, R464). -/
def ptyReload (s : State) : State :=
  let d := s.die.party
  { s with party := { s.party with roster := d.roster, index := d.index, selfHpa := d.selfHpa, rx := d.rx, rxMask := d.rxMask,
                                   hbRx := d.hbRx, arrived := [], window := [], syncParts := [], syncHead := [], hbDue := true } }

/-- What a soft reset restores of the state that registers of the page show: a pending `GLB_SNAP_ALL`, the captured log entry, the
candidates and scrub positions, `QEN_FETCH_CTL`.HELD, STOP of an engine, the map cache, the lines of Shuttle 0's page, the group of a
group page, the roster, the Mender's plans. RO registers that show what a block or the journal die holds go on showing it (R6; log entry 91). -/
def softState (page : Nat) (s : State) : State :=
  if page = pgShu 0 then { s with lines := [] }
  else if page = pgPty then ptyReload s
  else if page = pgMnd then mndReload s
  else if page = pgGlb then { s with due := s.due.filter (· ≠ .snapAll) }
  else if page = pgLog then { s with log := { s.log with captured := {} } }
  else if page = pgHamS then
    { s with hamx := { s.hamx with cands := [], scrubPos := 0, lapFrom := pickN s }, ddr := { s.ddr with scrubPos := 0, scrubFrom := pickN s } }
  else if page = pgQen then { s with qe := { s.qe with held := false }, due := s.due.filter (· ≠ .fetchHold) }
  else if pgIzc 0 ≤ page && page ≤ pgIzc 7 then { s with icache := tdel ((page - pgIzc 0) / 0x1000) s.icache }
  else if page = pgJnl then { s with jnl := { s.jnl with cache := [] } }
  else match pageAt page with
    | some p =>
      if p.type = 0x36 && 48 ≤ p.index then { s with hgrp := tset {} (p.index - 48) {} s.hgrp }
      else match allEngines.find? fun a => engPage a = page with
        | some a => engMod a (fun x => { x with stopped := false }) s
        | none => s
    | none => s

/-- Registers that a soft reset of their page keeps: the strap balls, `GLB_SCRATCH` and `GLB_FATAL_STAT` (R51, R52), and what the
event log counts (R468). -/
def softKept (a : Nat) : Bool :=
  a = pgGlb + 0x118 || (pgGlb + 0x140 ≤ a && a < pgGlb + 0x150) || a = pgGlb + 0x130 || a = pgLog + 0x100 || a = pgLog + 0x104

/-- Offsets 0x100 to 0xFFF and PAGE_CTL.EN at their reset values (R39). ERR_MASK, which R39 lists neither as kept nor as reset, is
kept (DESIGN CHOICE, log entry 91). -/
def softRegs (page : Nat) (s : State) : State :=
  let inside (a : Nat) : Bool := page + 0x100 ≤ a && a < page + 0x1000 && !softKept a
  regSet (page + 0x010) (regReset (page + 0x010))
    { s with regs := s.regs.filter fun e => !inside e.1, snaps := s.snaps.filter fun e => !inside e.1 }

/-- Lifts a fence, or lets it return with its CODE when the self-check has failed (R464): that fence counts under R465. -/
def softLift (selfOk : Bool) (s : State) (page : Nat) : State :=
  if !fenced page s || tget false s.fenceHeld page then s
  else
    let v := regGet (page + 0x044) s
    let s1 := regSet (page + 0x044) 0 s
    if selfOk then s1
    else regSet (page + 0x044) v (regSat (page + 0x028) 1 (fencePage page (v / 2 ^ 16) (bit v 1) s1))

/-- SOFT_RESET_END (R39): the second pick boundary has come; `selfOk`: the block's self-check has passed. -/
def execSoftResetEnd (page : Nat) (selfOk : Bool) (s : State) : Host.Outcome State Fault Refusal :=
  let mine (d : Due) : Bool := match d with
    | .softReset p t => p = page && t ≤ pickN s
    | _ => false
  .next (if s.due.any mine then
    { s with due := s.due.filter fun d => !mine d } |> softRegs page |> softState page |> (liftedBy page).foldl (softLift selfOk)
      |> memResume
  else s)

/-! ### Snapshots (R49) -/

/-- The live value of a snapshot counter; `JNL_LAPS` counts on the die (R163, R181). -/
def liveCounter (a : Nat) (s : State) : Nat := if a = pgJnl + 0x158 then s.die.head / ringN else regGet a s

/-- Addresses of the snapshot counters of a page. -/
def snapAddrs (page : Nat) : List Nat :=
  match pageAt page with
  | some p => ((blockRegs p).filter (·.snap)).flatMap fun r => r.offs.map (page + ·)
  | none => []

/-- Captures the counters of a page; SNAP_SEQ advances and records the pick. -/
def capture (page : Nat) (s : State) : State :=
  let s1 := (snapAddrs page).foldl (fun s a => { s with snaps := tset 0 a (BitVec.ofNat 64 (liveCounter a s)) s.snaps }) s
  let seq := regFld (page + 0x058) 63 32 s1
  regSet (page + 0x058) ((seq + 1) % 2 ^ 32 * 2 ^ 32 + pickN s % 2 ^ 32) s1

/-- A write of SNAP_CTL.SNAP: every counter of the page, SNAP_SEQ and its pick. -/
def snapPage (page : Nat) (s : State) : State :=
  match pageAt page with
  | some _ => capture page s
  | none => note 0x0303 pgWeft page s

/-- SNAP (R49). -/
def execSnap (page : Nat) (s : State) : Host.Outcome State Fault Refusal := .next (snapPage (pageBase page) s)

/-- The global capture, at its pick boundary. -/
def captureAll (s : State) : State :=
  regAdd32 (pgGlb + 0x124) 1 ((allPages.filter fun a => match pageAt a with
    | some p => pageSnap p
    | none => false).foldl (fun s a => capture a s) s)

/-- A write of `GLB_SNAP_ALL`. -/
def snapAll (s : State) : State := if s.due.contains .snapAll then s else later .snapAll s

/-- GLB_SNAP_ALL (R49). -/
def execGlbSnapAll (s : State) : Host.Outcome State Fault Refusal := .next (snapAll s)

/-! ### The W1C registers of the header (R40, R41) -/

/-- A W1C write to ERR_STAT: ERR_FIRST clears when no unmasked error is left (R40). -/
def errClear (page v : Nat) (s : State) : State :=
  let s1 := regSet (page + 0x018) (clearN (regGet (page + 0x018) s) v) s
  if errLive page s1 = 0 then regSet (page + 0x020) 0 s1 else s1

/-- ERR_STAT_CLEAR (R40). -/
def execErrStatClear (page : Nat) (value : W32) (s : State) : Host.Outcome State Fault Refusal :=
  .next (match pageAt page with
    | some _ => errClear (pageBase page) value.toNat s
    | none => note 0x0303 pgWeft page s)

/-- A W1C write to IRQ_STAT: one more message when it leaves unmasked bits set (R41). -/
def irqClear (page v : Nat) (s : State) : State :=
  let s1 := regSet (page + 0x030) (clearN (regGet (page + 0x030) s) v) s
  if irqLive page s1 ≠ 0 then irqMessage page s1 else s1

/-- IRQ_STAT_CLEAR (R41). -/
def execIrqStatClear (page : Nat) (value : W32) (s : State) : Host.Outcome State Fault Refusal :=
  .next (match pageAt page with
    | some _ => irqClear (pageBase page) value.toNat s
    | none => note 0x0303 pgWeft page s)

/-! ### Root registers -/

/-- A write of `WEFT_SKEW_CLR` (R31). -/
def skewClear (v : Nat) (s : State) : State := if bit v 0 then regSet (pgWeft + 0x104) 0 s else s

/-- WEFT_SKEW_CLR (R31). -/
def execWeftSkewClr (value : W32) (s : State) : Host.Outcome State Fault Refusal := .next (skewClear value.toNat s)

/-- A write of `WARP_ARB_WEIGHT[o]` (R6, R30): the register reads back the value written; the weights are in effect at the output port
from the next pick boundary on (`weightsPick`). -/
def weightWrite (o v : Nat) (s : State) : State := regSet (pgWarp + 0x100 + 4 * o) (v % 2 ^ 32) s

/-- The weight of input `i` in effect at output `o`; 0 is treated as 1 (R30). -/
def weightOf (o i : Nat) (s : State) : Nat := max 1 (bits (tget 0x11111111 s.weights o) (4 * i + 3) (4 * i))

/-- The clk within which input `i` with a beat waiting is granted at output `o` (R13). -/
def grantWithin (o i : Nat) (s : State) : Nat :=
  (((List.range 8).filter (· ≠ i)).map fun j => weightOf o j s).foldl (· + ·) 1

/-- WARP_ARB_WEIGHT_WRITE (R30). -/
def execWarpArbWeightWrite (port : Nat) (value : W32) (s : State) : Host.Outcome State Fault Refusal :=
  if port < 8 then .next (weightWrite port value.toNat s) else .fault .noSuchUnit

/-- A write of `GLB_LOG_INDEX` (R480): captures a ring entry. -/
def logIndex (v : Nat) (s : State) : State := { s with log := { s.log with captured := tget {} s.log.ring (v % 4096) } }

/-- GLB_LOG_INDEX (R480). -/
def execGlbLogIndex (value : W32) (s : State) : Host.Outcome State Fault Refusal := .next (logIndex value.toNat s)

end Sys2Proof.Machine
end

