-- ==== Sys2Proof/Machine/EngineRun.lean ====
section
/-!
DEFINITION. The slices of the stream engines and the Mender's engine (R24, R242, R249, R258, R305, R412): what a slot's job does in
a pick of 6,400 clk. The rows of the engines accept and complete jobs; PICK_BOUNDARY runs the slices.
-/
namespace Sys2Proof.Machine

/-- Input a job wants: SRC_LEN, the records of NREC, or from a line into a digest, keyed-check or scan job all that the line gives until
END (R246, R271, R301, R302). -/
def jobWant (a : Nat) (j : EngJob) : Nat :=
  let d := j.desc
  if a < 0x50 || (edIn d).isNone then edSrcLen d
  else if 0x58 ≤ a && leAt d 4 4 ≠ 0 then leAt d 4 4 * max 1 (scRlen j.spec)
  else 2 ^ 40

/-- A job begins: COMPARE, RELEASE and Mender jobs have no input to gather; a digest job takes its context, a keyed-check job its key, a
Mender job is charged in repair chunks (R257, R269, R435). -/
def jobBegin (a : Nat) (j : EngJob) (s : State) : State :=
  if a = 0x61 then engJobSet a { j with inDone := true, left := some (mdClocks j) } (charge 0 rRepair (mdChunks j) s)
  else if 0x50 ≤ a && a < 0x54 then
    let (q, t) := ddTake j s
    let none_ := !ddAbsorbs j.desc || ddCtxCode q t ≠ 0
    engJobSet a { q with inDone := none_, left := some (if none_ && ddCtxCode q t = 0 then ddClocks q t else 0) } t
  else if 0x54 ≤ a && a < 0x56 then kdStart a j s
  else engJobSet a { j with left := some 0 } s

/-- Takes up the work on a job's input up to its position (R242, R256, R267, R295). -/
def jobWork (a : Nat) (j : EngJob) (s : State) : EngJob × State :=
  if a < 0x50 then (twWork a j, s)
  else if a < 0x54 then
    let n := ddClocks j s
    ({ j with left := some (n - j.clk), clk := n }, s)
  else if a < 0x56 then kdWork j s
  else if a < 0x60 then sjWork a j s
  else (j, s)

/-- What a job whose work is done delivers, by its engine's class. -/
def jobFinish (a : Nat) (j : EngJob) (s : State) : State :=
  if a < 0x50 then twFinish a j s
  else if a < 0x54 then digFinish a j s
  else if a < 0x56 then kckFinish a j s
  else if a = 0x61 then mdFinish j s
  else sjFinish a j s

/-- The job of a slot. -/
def jobAt (a : Nat) (k : Nat) (s : State) : Option EngJob := (engGet a s).jobs.find? (·.slot = k)

/-- One step of a job that owes no clocks (R218, R247, R249): what it has made goes to its output line; then it ends, or takes the next
piece of its input, or waits for a line. True when it has taken a piece. -/
def jobStep (a : Nat) (j : EngJob) (s : State) : Bool × State :=
  match giveMade a j s with
  | .error (c, t) => (false, engStop a j c (noResult 0) t)
  | .ok (q, t) =>
    if (edOut a q.desc).any (lineBlocks · q t) then (false, engJobSet a q t)
    else if q.inDone && q.pos = q.inp.length then (false, jobFinish a { q with left := none } t)
    else if starved q t then (false, engJobSet a q t)
    else match engInput a (jobWant a q) q t with
      | .error (c, u) => (false, engStop a q c (noResult 0) u)
      | .ok (p, u) =>
        let (r, v) := jobWork a p u
        (true, engJobSet a r v)

/-- The slice of slot `k`, `used` clocks into it: the clocks used, none when the job fills it. -/
def jobSlice (a k : Nat) : Nat → Nat → Nat → State → Option Nat × State
  | 0, _, _, s => (none, s)
  | fuel + 1, clk, used, s =>
    match jobAt a k s with
    | none => (some used, s)
    | some j =>
      if j.code.isSome then (some used, s)
      else if engWaits a j s then (none, s)
      else match j.out, j.left with
        | some out, _ => (some used, engOutput a j out j.res s)
        | none, none => jobSlice a k fuel clk used (jobBegin a j s)
        | none, some l =>
          if clk < used + l then (none, engJobSet a { j with left := some (used + l - clk) } s)
          else match jobStep a { j with left := some 0 } s with
            | (true, t) => jobSlice a k fuel clk (used + l) t
            | (false, t) => (some (used + l), t)

/-- The clocks of a pick on one engine: a job that ends, or that must wait, leaves the rest to the best runnable slot, whose partial
slice counts as well (R249). -/
def engSlices (a : Nat) : Nat → Nat → State → State
  | 0, _, s => s
  | fuel + 1, clk, s =>
    match (engGet a s).running with
    | none => s
    | some k =>
      match jobSlice a k 4096 clk 0 s with
      | (none, t) => t
      | (some n, t) =>
        let b := bestSlot a t
        let t1 := engTurn a b t
        let t2 := match b.bind fun k => jobAt a k t1 with
          | some j => engCharge a j t1
          | none => t1
        engSlices a fuel (clk - n) t2

/-- The slices of the pick that ends (R25 step 2): at most 6,400 clk on each engine that still runs. -/
def enginesRun (s : State) : State :=
  if !running s || pfOn s then s
  else allEngines.foldl (fun s a => if (engGet a s).stopped || !works (engPage a) s then s else engSlices a 64 6400 s) s

/-- Each engine arbiter chooses its next slice (R25 step 2, R249); it counts against its function now. -/
def enginesPick (s : State) : State :=
  allEngines.foldl (fun s a =>
    if (engGet a s).jobs.isEmpty then s
    else
      let s1 := engPick a s
      match (engGet a s1).running.bind fun k => jobAt a k s1 with
      | some j => engCharge a j s1
      | none => s1) s

end Sys2Proof.Machine
end

