-- ==== Sys2Proof/Machine/NsRange.lean ====
section
/-!
DEFINITION. What happens to ranges of map entries as a whole (R88, R141, R150): the entries of a deleted or formatted namespace are
reset, and a Sanitize with Block Erase empties the flash.
-/
namespace Sys2Proof.Machine

/-- Staging slots of a range are released, with their RELEASE records (R155, R158); no command uses their data any more. -/
def slotsClear (a n : Nat) (s : State) : State :=
  ((s.jnl.slots.filter fun e => e.2.used && e.2.committed && e.2.released.isNone && inRange a n e.2.midx).map Prod.fst).foldl
    (fun s k => slotRelease k s) s

/-- Resets the entries of a range to not-valid (R150), with everything that would still update them. Every segment of the range has been
built. -/
def rangeClear (a n : Nat) (s : State) : State :=
  let s1 := placedClear a n (slotsClear a n s)
  let s2 := { s1 with jnl := { s1.jnl with disc := s1.jnl.disc.filter fun d => !inRange a n d.midx,
                                           late := s1.jnl.late.filter fun x => !inRange a n x.midx } }
  ((tkeys s2.map).filter (inRange a n)).foldl (fun s i =>
    s |> mapUpdate i 0 0 |> jWindow (recPlace none 0 i) [] |> segCount (segOf i) 1) s2

/-- Segments of a range that are not built. -/
def rangeUnbuilt (a n : Nat) (s : State) : List Nat :=
  if n = 0 then []
  else ((List.range (segOf (a + n - 1) + 1 - segOf a)).map (segOf a + ·)).filter fun g => segState g s ≠ .built

/-! ### Sanitize (R88, R141) -/

/-- Every superblock number that has a block on a usable die, those of rows with fewer than four included, and those that hold data
(R141). -/
def allSbs (s : State) : List Nat :=
  (((List.range 16).flatMap fun r =>
    (List.range (((rowChans r s).map fun c => contributed (dieType (dieNo c r) s)).foldl max 0)).map fun b => 4096 * r + b) ++
    tkeys s.media.sbs).eraseDups

/-- The checkpoints of an empty map: START is now, and no page holds a byte other than 0. -/
def ckptsEmpty (s : State) : State :=
  (List.range (segTotal s)).foldl (fun s g => ctlDirty 0x11 g s)
    { s with jnl := { s.jnl with ckpts := [], segRecs := [] },
             die := { s.die with ckpt := (List.range (segTotal s)).map fun g => (g, (jHead s, 0)) } }

/-- Block Erase begins once every segment is built: the map and the shard store are empty, and every block that is not retired is to be
erased; unused spare blocks hold no data (DEDUCED, log entry 150). -/
def sanitizeBegin (s : State) : State :=
  let s1 := jFlush (rangeClear 0 (mapEntries s) s)
  let close (x : Superblock) : Superblock := if x.isOpen then { x with isOpen := false, closedBolt := boltN s } else x
  ckptsEmpty { s1 with
    media := { s1.media with sbs := s1.media.sbs.map fun e => (e.1, close e.2), erasing := allSbs s1, erased := [], standby := [],
                             placed := [], parity := [], refreshQ := [], todo := [], fills := [],
                             reads := s1.media.reads.filter fun r => r.ctx.isSome },
    mender := { s1.mender with stripes := [], extents := [], queue := [], lostUnits := [] },
    qe := { s1.qe with sanErase := true } }

/-- A Sanitize goes on: it begins its erases, and ends with the last of them. -/
def sanitizePick (s : State) : State :=
  if !s.qe.sanitizing || !mediaUp s || !allBuilt s then s
  else if !s.qe.sanErase then sanitizeBegin s
  else if s.media.erasing.isEmpty then { s with qe := { s.qe with sanitizing := false, sanErase := false } }
  else s

end Sys2Proof.Machine
end

