-- ==== Sys2Proof/Machine/Pick.lean ====
section
/-!
DEFINITION. The pick boundary (R21 to R25): the counter, the refill of the Portions (R439), engine slices, preemption, completions
held, coalescing windows, and every effect that the spec lets wait for the boundary.
-/
namespace Sys2Proof.Machine

/-! ### Bolt boundaries -/

/-- The power factor p of R439. -/
def powerFactor (ps : Nat) : Nat := if ps = 0 then 256 else if ps = 1 then 189 else 126

/-- The factor s = p × t; PS3 and PS4 keep the factor of the operational state they return to. -/
def refillFactor (s : State) : Nat := powerFactor (if s.pwr.ps < 3 then s.pwr.ps else s.pwr.lastOp) * s.pwr.tfUsed

/-- What a function still owes of rate `r` when its budget returns (R440): the excess over the old budget. -/
def owed (f r : Nat) (s : State) : Nat :=
  match budget f r s with
  | some b => usedOf f r s - b
  | none => 0

/-- PORTION_REFILL (R439, R440): a function's rates are refilled, what it owes is charged to the new bolt; unused budget is lost.
A bolt in which some budget ran out counts in `FUN_THROTTLED` (R458). -/
def refillFn (f : Nat) (s : State) : State :=
  let l := refillOf (portionOf f s) (refillFactor s)
  let u := (List.range 11).foldl (fun t r => tset 0 r (owed f r s) t) []
  let out := !(fnGet f s).refill.isEmpty && (List.range 11).any fun r => spent f r s
  fnMod f (fun x => { x with refill := l, used := u }) (if out then regAdd (pgFun f + 0x248) 1 s else s)

/-- The power state of the next bolt among PS0 to PS2 (R102, R494): what F0 set, or PS2 forced by temperature. -/
def powerTarget (s : State) : Nat :=
  let set := if s.qe.pmState < 3 then s.qe.pmState else s.pwr.lastOp
  if s.pwr.forced then max set 2 else set

/-- The power state and the thermal factor of the new bolt. -/
def powerBolt (s : State) : State :=
  let t := powerTarget s
  let s1 := { s with pwr := { s.pwr with tfUsed := s.pwr.tf } }
  let s2 := if s.pwr.ps < 3 && s.pwr.ps ≠ t
            then regAdd (pgPwr + 0x140) 1 { s1 with pwr := { s1.pwr with ps := t, lastOp := t } } else s1
  let s3 := if s.pwr.tf < 256 then regAdd (pgPwr + 0x148) 1 s2 else s2
  let (k, s4) := draw s3
  regSet (pgPwr + 0x110) (Config.powerEstimate k).toNat s4

/-- Band of the temperature histogram (R146). -/
def tempBand (t : Int) : Nat := if t < 0 then 0 else min 15 (t.toNat / 10 + 1)

/-- The hottest die's band counts the bolt (R146). -/
def histBolt (s : State) : State :=
  let l := (tfind (fun _ d => d.usable && !d.retired) s.media.dies).map fun k => (dieGet k s).temp
  match l with
  | [] => s
  | t :: r => { s with media := { s.media with tempHist := tmod 0 (tempBand (maxInt t r)) (· + 1) s.media.tempHist } }

/-- Functions that hold state. -/
def fnList (s : State) : List Nat := (0 :: tkeys s.fns).eraseDups

/-- Step 1 of R25 at a bolt boundary, and what else begins with a bolt: held interrupts (R448), carved resources that shrink
(R444), the window of host data (R125), the shares of the dies' time (R127, R129, R133), the steps of the self-test (R99), and every 256 bolts the Party's counters kept in the control
area (R398). -/
def boltStart (s : State) : State :=
  let s1 := powerBolt s
  let s2 := (fnList s1).foldl (fun s f => refillFn f s) s1
  let s3 := (fnList s2).foldl (fun s f => carveShrink f (heldSend f s)) s2
  let idle (d : Die) : Die := { d with intPicks := 0 }
  let s4 := histBolt { s3 with media := { s3.media with vWindow := (0 :: s3.media.vWindow).take 4096, slcInWas := s3.media.slcIn, slcIn := 0, folded := 0, patrolBolt := 0, dies := s3.media.dies.map fun e => (e.1, idle e.2) },
                               qe := { s3.qe with selfTest := { s3.qe.selfTest with stepsThisBolt := 0 } } }
  let s5 := if boltN s4 % 256 = 0 && s4.party.state ≠ .none then ptyRecord s4 else s4
  if idleNow s5 then s5 else { s5 with qe := { s5.qe with lastActive := boltN s5 } }

/-! ### Effects that wait for a boundary -/

/-- Effects that their own rows carry out. -/
def ownRow (d : Due) : Bool :=
  match d with
  | .softReset _ _ | .reset _ _ | .removal | .partyAck _ | .dec _ => true
  | _ => false

/-- A register takes the value written before this boundary; the map cache empties (R30, R181, R189). -/
def regDue (a v : Nat) (s : State) : State :=
  let s1 := regSet a v s
  if a = pgJnl + 0x160 then { s1 with jnl := { s1.jnl with cache := [] } } else s1

/-- STOP of a Shuttle or an engine takes effect (R223, R254): the page's CTL register tells. -/
def holdDue (page : Nat) (s : State) : State :=
  match allEngines.find? fun a => engPage a = page with
  | some a => engMod a (fun x => { x with stopped := bit (regGet (page + 0x110) s) 0 }) s
  | none => s

/-- A firmware activation begins at its acting boundary (R97): fetch is held device-wide, and the drain begins. -/
def activateAct (c k : Nat) (s : State) : State :=
  if !(ctxGet c s).used || s.qe.actPhase ≠ 0 then s
  else note 0x6081 pgQen k { s with qe := { s.qe with actPhase := 1, actCtx := c, actStart := pickN s, actSlot := k } }

/-- The end of a firmware activation at a boundary: fetch resumes, the Commit completes (R97), and a heartbeat is due (R391). With `ok` false the image has not come
up in time and the old one stays (DEDUCED, log entry 52). -/
def activateDone (ok : Bool) (s : State) : State :=
  if s.qe.actPhase ≠ 2 then s
  else finish s.qe.actCtx (if ok then stOk else stFwImage) { s with qe := { s.qe with actPhase := 0 }, party := { s.party with hbDue := true } }

/-- Carries out an effect at its pick boundary. -/
def dueAct (d : Due) (s : State) : State :=
  match d with
  | .snapAll => captureAll s
  | .reg a v => regDue a v.toNat s
  | .fenceJobs page => fenceEffect page s
  | .fnFence f => fnFenceAct f s
  | .killRun r st d0 d1 => if (ctxGet (runGet r s).ctx s).claimed then s else runKill r (some (st, d0, d1)) s
  | .ctlReset f shst => ctlReset f shst s
  | .flr f => flrAct f s
  | .linkDown => linkDownAct s
  | .logSwap c => logSwapAct c s
  | .hold page => holdDue page s
  | .fetchHold => { s with qe := { s.qe with held := regFld (pgQen + 0x104) 0 0 s = 1 } }
  | .entryTask r => entryTask r s
  | .activate c k => activateAct c k s
  | .actDone ok => activateDone ok s
  | .softReset _ _ | .reset _ _ | .removal | .partyAck _ | .dec _ => s

/-- The effects due at this boundary, in the order in which they were set off. -/
def duesAct (s : State) : State :=
  (s.due.filter fun d => !ownRow d).foldl (fun s d => dueAct d s) { s with due := s.due.filter ownRow }

/-! ### Steps 3 to 7 -/

/-- Every activation's clocks as they stand at this boundary. -/
def edgesPick (s : State) : State :=
  { s with tasks := s.tasks.map fun e => (e.1, if e.2.state = .running then { e.2 with edgeClk := e.2.actClk } else e.2) }

/-- Cores whose activation has reached 6,400 clk (R24). -/
def preempted (s : State) : List (Nat × Nat) :=
  (List.range 128).filterMap fun n => match (coreGet n s).task with
    | some t => if coreRuns n s && 6400 ≤ (taskGet t s).actClk then some (n, t) else none
    | none => none

/-- Step 3: the core is free of its task, which is requeued in step 5. -/
def preemptCore (s : State) (p : Nat × Nat) : State :=
  s |> coreIdle p.1 |> regAdd (pgIzk p.1 + 0x148) 1 |> regAdd (pgItn + 0x158) 1

/-- Step 4: the decrements held for this boundary. -/
def decsAct (s : State) : State :=
  let isDec (d : Due) : Bool := match d with
    | .dec _ => true
    | _ => false
  (s.due.filter isDec).foldl (fun s d => match d with
    | .dec t => decTask t s
    | _ => s) { s with due := s.due.filter fun d => !isDec d }

/-- Steps 3 to 5 of R25. -/
def itineraryPick (s : State) : State :=
  let l := preempted s
  l.foldl (fun s p => requeue p.2 s) (shuHeld (decsAct (l.foldl preemptCore (edgesPick s))))

/-- Step 6: the coalescing windows that end. -/
def coalPick (s : State) : State :=
  (fnList s).foldl (fun s f => (tkeys (fnGet f s).coal).foldl (fun s v => coalEnd f v s) s) s

/-- A controller whose CC.EN was set becomes ready while the part runs, F0's in recovery mode (R95, R173, R485). -/
def readyPick (f : Nat) (s : State) : State :=
  let x := fnGet f s
  if x.enabling.isSome && !x.cfs && (s.boot.phase = .ready || (f = 0 && s.boot.phase = .recovery))
  then fnMod f (fun x => { x with rdy := true, enabling := none }) s else s

/-- Power that has been good since the last boundary counts toward the 256 picks of R167. -/
def goodPick (s : State) : State :=
  bootMod (fun b => { b with goodPicks := if s.jnl.pf = .sealed && powerGood s then b.goodPicks + 1 else 0 }) s

/-- The stripe table is ready once the map segments of its range are built (R411, R430). -/
def tablePick (s : State) : State :=
  let lo := s.mender.tableBase * 65536
  let hi := (s.mender.tableBase + tableGib s) * 65536 - 1
  if s.mender.table = 1 && s.jnl.indexed && ((List.range (segOf hi + 1 - segOf lo)).all fun i => segState (segOf lo + i) s = .built)
  then mndMod (fun m => { m with table := 2 }) s else s

/-- Counters of time: the residency of the power state and the picks under back-pressure (R377, R495). -/
def timePick (s : State) : State :=
  let s1 := regAdd (pgPwr + 0x118 + 8 * s.pwr.ps) 1 s
  if s1.qe.bp then regAdd (pgItn + 0x178) 1 s1 else s1

/-- The exit from PS3 or PS4 ends, requests that waited are served, the flash complex goes on (R103, R111, R130, R472). -/
def mediaPick (s : State) : State := mediaTurn (sweepEmpty (memResume (wakeEnd s)))

/-- The unit that a step of a self-test on media reads: the valid units of its namespaces in turn (R99). -/
def testUnit (s : State) : Option (Nat × Nat) :=
  let t := s.qe.selfTest
  let l := if t.nsid = 0 then [] else (validUnits (fun _ => true) s).filter fun u =>
    t.nsid = 0xFFFFFFFF || (nsAt u.1 s).any fun n => n.1 = t.nsid
  if l.isEmpty then none else l[t.steps % l.length]?

/-- A step of a self-test (R100): one a pick. It reads a die only where no host operation is queued for it. A step that finds a fault ends
the test with result 6, its last step with 0. -/
def testStep (ok : Bool) (s : State) : State :=
  let t := s.qe.selfTest
  if !t.running || t.stepPick = some (pickN s) || !serving s || pfOn s then s
  else
    let s0 := match testUnit s with
      | some u => if mediaUp s && dieIdle (puaDie u.2) s then mediaTurn (queueRead { pua := u.2, want := { midx := u.1, gmask := 0xF } } s) else s
      | none => s
    let s1 := { s0 with qe := { s0.qe with selfTest := {
      t with steps := t.steps + 1, stepsThisBolt := t.stepsThisBolt + 1, stepPick := some (pickN s) } } }
    if !ok then selfTestStop 6 s1 else if t.total ≤ t.steps + 1 then selfTestStop 0 s1 else s1

/-- The self-test's floor of 4 steps in a bolt: the steps that are still missing are made in the last picks of the bolt (R100). -/
def testFloor (s : State) : State :=
  let p := pickN s % 256
  if s.qe.selfTest.running && s.qe.selfTest.stepsThisBolt + (256 - p) ≤ 4 then testStep true s else s

/-- Step 7 and the rest of the boundary: the journal window (R160), the flash complex, back-pressure (R360), controllers, shutdowns, groups
that shrink, firmware's Party and Mender work, the removal's end. -/
def restPick (s : State) : State :=
  let s1 := backPressure (testFloor (mediaPick (jFlush s)))
  let s2 := (fnList s1).foldl (fun s f => groupShrink f (shutdownEnd f (readyPick f s))) s1
  let s3 := { goodPick s2 with qe := { s2.qe with guardLost := [] } }
  let s4 := shutdownSeal (sanitizePick (partyPick (tablePick s3)))
  if s4.svc.removal = .awaiting && awayDone s4 then removalDone s4 else s4

/-- The block of a page keeps its own copy of the pick counter: how far it lags, and strobes missed in a row (R22). -/
def strobeMiss (page : Nat) (s : State) : State :=
  { s with lag := tmod 0 page (· + 1) s.lag, missed := tmod 0 page (· + 1) s.missed }

/-- The copy of the pick counter that the block of a page keeps (R22). -/
def blockPick (page : Nat) (s : State) : Nat := pickN s - tget 0 s.lag page

/-- The strobe of a boundary (R22): blocks in `missed` do not see it; a strobe missing for 2 picks, or a copy that differs from the
count the root broadcasts at a bolt boundary, is a failure of pick distribution. -/
def strobePick (missed : List Nat) (s : State) : State :=
  let l := (missed.filter fun p => (pageAt p).isSome && p % 0x1000 = 0).eraseDups
  let s1 := l.foldl (fun s p => strobeMiss p s) { s with missed := s.missed.filter fun e => l.contains e.1 }
  let silent := s1.missed.any fun e => 2 ≤ e.2
  let differs := pickN s1 % 256 = 0 && s1.lag.any fun e => blockPick e.1 s1 ≠ pickN s1
  if (silent || differs) && s1.boot.phase ≠ .fatal then raise 0x0301 pgWeft 0 { s1 with lag := [], missed := [] } else s1

/-- Weights written before this boundary are in effect at the outputs (R30). -/
def weightsPick (s : State) : State :=
  { s with weights := (List.range 8).foldl (fun t o => tset 0x11111111 o (regGet (pgWarp + 0x100 + 4 * o) s) t) [] }

/-- Counters of waiting inside a pick and of link errors: `WARP_STALL` (R30), `CXL_FEC_CORR` and `CXL_REPLAYS` (R70), `HAM_CONFLICT` (R186),
the waits of the Shuttles (R223), `IZK_STALL_CLK` (R344), `ITN_RL_FULL` (R377), `IZC_ASK_CLK` (R378). What a pick adds to them comes with the boundary. -/
def waitCounter (a : Nat) : Bool :=
  (pgWarp + 0x1C0 ≤ a && a < pgWarp + 0x200 && a % 8 = 0) || a = pgCxl + 0x118 || a = pgCxl + 0x120 ||
  (pgHam + 0x180 ≤ a && a < pgHam + 0x1D0 && a % 8 = 0) ||
  (pgShu 0 ≤ a && a ≤ pgShu 63 + 0xFFF && [0x128, 0x130].contains (a % 0x1000)) ||
  (pgIzk 0 ≤ a && a ≤ pgIzk 127 + 0xFFF && a % 0x1000 = 0x130) || (pgIzc 0 ≤ a && a ≤ pgIzc 7 + 0xFFF && a % 0x1000 = 0x128) ||
  (pgItnRl 0 ≤ a && a ≤ pgItnRl 7 + 0xFFF && a % 0x1000 = 0x118)

/-- Symbol errors strike the stored codewords of the Hamper (0), the DRAM (1) or the journal die (2) (R191, R193); a stored bit of a
Heddle entry flips (3) (R294). -/
def upset (s : State) (u : Nat × Nat × Nat × Nat) : State :=
  let e := [(u.2.2.1, u.2.2.2 % 256)]
  match u.1 with
  | 0 => if 32 * u.2.1 < hamSize then { s with hamErr := strike u.2.1 e s.hamErr } else s
  | 1 => if 16 * u.2.1 < dramSize s then { s with dramErr := strike u.2.1 e s.dramErr } else s
  | 2 => { s with die := { s.die with errs := strike u.2.1 e s.die.errs } }
  | 3 => if 24 * 2048 ≤ u.2.1 && u.2.1 < 48 * 2048 && u.2.2.1 < 105 then { s with hed := tmod {} u.2.1 (·.flip u.2.2.1) s.hed } else s
  | _ => s

/-- What the new pick brings from outside the logic: counts of the pick that ended, symbol errors, words whose writes will meet. -/
def envPick (v : PickEnv) (s : State) : State :=
  let s1 := (v.counts.filter fun e => waitCounter e.1).foldl (fun s e => regAdd e.1 e.2 s) s
  let s2 := v.upsets.foldl upset s1
  { s2 with hamx := { s2.hamx with ties := v.ties.eraseDups, tied := [] } }

/-- The largest skew of the strobe that any block has measured (R22, R31): at most 4 clk, a measured value that is free. -/
def skewPick (s : State) : State :=
  let (k, s1) := draw s
  regMax (pgWeft + 0x104) (Config.freeChoice k % 5) s1

/-- A pick boundary (R25). -/
def pickBoundary (v : PickEnv) (s : State) : State :=
  let s0 := enginesRun s
  let s1 := weightsPick (strobePick v.missed (envPick v (skewPick (timePick { s0 with pick := s0.pick + 1 }))))
  let s2 := if pickN s1 % 256 = 0 then boltStart s1 else s1
  restPick (coalPick (itineraryPick (enginesPick (duesAct s2))))

/-- PICK_BOUNDARY (R25): the counter stands while the part is held in reset. -/
def execPickBoundary (s : State) (env : PickEnv := {}) : Host.Outcome State Fault Refusal :=
  .next (if s.boot.phase = .held then s else pickBoundary env s)

end Sys2Proof.Machine
end

