-- ==== Sys2Proof/Machine/AdminLog.lean ====
section
/-!
DEFINITION. Get Log Page (R76, R144, R146, R402, R446, R470, R509): the pages' bytes and their delivery. The layouts that NVMe gives
are those of NVMe 2.0 (PRESUMED, log entry 51).
-/
namespace Sys2Proof.Machine

/-! ### NVMe's own pages -/

/-- The 15-bit status field of NVMe: SC, SCT and DNR. -/
def statusNat (st : Status) : Nat := st.sc + st.sct * 2 ^ 8 + b2n st.dnr * 2 ^ 14

/-- An entry of the Error page (0x01), 64 bytes. -/
def errEntryBytes (e : ErrEntry) : Bytes :=
  natLe 8 e.count ++ natLe 2 e.sq ++ natLe 2 e.cid ++ natLe 2 (2 * statusNat e.st) ++ natLe 2 0xFFFF ++ natLe 8 e.lba ++
  natLe 4 e.nsid ++ zeros 36

/-- Log page 0x01: 256 entries, newest first. -/
def errPage (f : Nat) (s : State) : Bytes := padTo 16384 ((fnGet f s).errLog.flatMap errEntryBytes)

/-- A count of bytes in NVMe's data units of 1,000 × 512 bytes, rounded up. -/
def dataUnits (n : Nat) : Nat := cdiv (cdiv n 512) 1000

/-- Percentage Used (R144). -/
def percentUsed (s : State) : Nat :=
  min 255 (100 * (wearMean s).1 / ((wearMean s).2 * max 1 (peNative s)))

/-- Composite temperature in °C: the hottest junction sensor (R494). -/
def compTemp (s : State) : Int := sgn 8 (regFld (pgPwr + 0x104) 7 0 s)

/-- Log page 0x02 (R144). The figures that the spec does not state (host commands, busy time, power cycles, hours, unsafe shutdowns,
temperature times) are free. -/
def smartPage (f : Nat) (s : State) : Bytes × State :=
  let x := fnGet f s
  let (a, s1) := freeBytes 96 s
  let (b, s2) := freeBytes 8 s1
  (natLe 1 (critWarn (tempWarn f (compTemp s) s) s) ++ natLe 2 (compTemp s + 273).toNat ++ natLe 1 (spareAvail s) ++
   natLe 1 (regFld (pgFlc 0 + 0x200) 15 8 s) ++ natLe 1 (percentUsed s) ++ zeros 26 ++ natLe 16 (dataUnits x.unitsRead) ++
   natLe 16 (dataUnits x.unitsWritten) ++ a ++ natLe 16 x.mediaErrs ++ natLe 16 x.errCount ++ b ++ zeros 312, s2)

/-- The revision string of a slot's image: 8 bytes that stand for the image, by its CRC (log entry 5). -/
def fwRevision (k : Nat) (s : State) : Bytes :=
  let x := tget {} s.boot.slots k
  if x.present then (List.range 8).map fun i => Config.freeByte (2 ^ 49 + 8 * x.crc.toNat + i) else zeros 8

/-- Log page 0x03: AFI and the revisions of slots 1 to 3. -/
def slotPage (s : State) : Bytes :=
  let next := match bootRecord s with
    | some (r, _) => if r.pending then r.active else 0
    | none => 0
  natLe 1 (s.boot.lastSlot % 8 + 16 * (next % 8)) ++ zeros 7 ++ [1, 2, 3].flatMap (fun k => fwRevision k s) ++ zeros 480

/-- The Effects entry of an opcode: CSUPP; LBCC where the command changes logical blocks, NCC and NIC where it changes a namespace or
the inventory of them. -/
def effects (f : Nat) (io : Bool) (op : Nat) : Nat :=
  let have_ := (if io then ioOps else adminOps).contains op && (f = 0 || !((!io && f0Standard.contains op) || f0Vendor.contains op))
  let blocks := if io then [0x01, 0x09, 0x83, 0x85, 0x91, 0x94].contains op else [0x80, 0x84].contains op
  if !have_ then 0
  else 1 + 2 * b2n blocks + 4 * b2n (!io && op = 0x80) + 8 * b2n (!io && (op = 0x0D || op = 0x15))

/-- Log page 0x05: the admin and the I/O commands. -/
def effectsPage (f : Nat) : Bytes :=
  (List.range 256).flatMap (fun op => natLe 4 (effects f false op)) ++ (List.range 256).flatMap (fun op => natLe 4 (effects f true op)) ++
  zeros 2048

/-- A result of the Self-test page, 28 bytes: code and result, with free power-on hours. -/
def testBytes (t : Nat × Nat × Nat) (s : State) : Bytes × State :=
  let (h, s1) := freeBytes 8 s
  (natLe 1 (t.2.1 + 16 * t.1) ++ zeros 3 ++ h ++ zeros 16, s1)

/-- Log page 0x06: the test in progress with a free completion percentage, and the 20 newest results. -/
def testPage (s : State) : Bytes × State :=
  let t := s.qe.selfTest
  let (k, s1) := draw s
  let (l, s2) := t.results.foldl (fun (q : Bytes × State) r => let (b, u) := testBytes r q.2; (q.1 ++ b, u)) (([] : Bytes), s1)
  let none_ : Bytes := natLe 1 0xF ++ zeros 27
  (natLe 1 (if t.running then (if t.extended then 2 else 1) else 0) ++ natLe 1 (if t.running then Config.freeChoice k % 101 else 0) ++
   zeros 2 ++ l ++ (List.replicate (20 - t.results.length) none_).flatten, s2)

/-! ### The part's own pages -/

/-- Critical warning bit 2 (R144). -/
def degradedBit (s : State) : Bool := s.qe.warn2 || quadFenced s || s.boot.degraded

/-- The reserve of R126 is in place. -/
def dumpResOk (s : State) : Bool := s.media.tableOk && 8192 ≤ dumpReady s

/-- `FLC_STATE` (R147). -/
def flcState (s : State) : Nat :=
  b2n s.media.ro + 2 * b2n s.media.direct + 4 * b2n s.media.spareWarned + 8 * b2n (degradedBit s) + 16 * b2n (dumpResOk s) +
  32 * b2n (!s.media.rebuildDie.isEmpty)

/-- Usable dies of a channel, and its retired or excluded ones, by bit (R148 FCH_DIES). -/
def chanDies (c : Nat) (s : State) : Nat := ((List.range 16).filter fun r => dieOk (dieNo c r) s).foldl (fun m r => m + 2 ^ r) 0
def chanGone (c : Nat) (s : State) : Nat :=
  ((List.range 16).filter fun r => let d := dieGet (dieNo c r) s; d.retired || d.excluded).foldl (fun m r => m + 2 ^ r) 0

/-- The channels for which `p` holds, by bit. -/
def chanMask (p : Nat → Bool) : Nat := ((List.range 32).filter p).foldl (fun m c => m + 2 ^ c) 0

/-- The sum of a channel counter over all channels. -/
def chanSum (off : Nat) (s : State) : Nat := ((List.range 32).map fun c => regGet (pgFch c + off) s).foldl (· + ·) 0

/-- Average wear in hundredths of a wear unit. -/
def wearAvg (s : State) : Nat := 100 * (wearMean s).1 / (wearMean s).2

/-- The least and the most superblock wear in whole wear units. -/
def wearUnits (s : State) : Nat × Nat :=
  let (lo, hi) := wearRange s
  (lo.1 / lo.2, hi.1 / hi.2)

/-- A channel's 16 bytes of page 0xC0; a channel of which no temperature has been read shows 0 (DESIGN CHOICE, log entry 163). -/
def chanEntry (c : Nat) (s : State) : Bytes :=
  natLe 2 (chanDies c s) ++ natLe 2 (chanGone c s) ++ natLe 1 (chanGet c s).bin ++ natLe 1 (b2n (chanFenced c s)) ++
  natLe 1 (unsgn 8 ((chanGet c s).highTemp.getD 0)) ++ zeros 1 ++ natLe 8 (regGet (pgFch c + 0x130) s)

/-- A POISON_RING entry as a controller sees it: 0 where the namespace is not attached to it. -/
def poisonEntry (f : Nat) (e : Nat × Nat × Nat) (s : State) : Bytes :=
  if (nsGet e.1 s).attached.contains f then natLe 4 e.1 ++ natLe 4 e.2.2 ++ natLe 8 e.2.1 else zeros 16

/-- Log page 0xC0 (R146). -/
def healthPage (f : Nat) (s : State) : Bytes :=
  let r (off : Nat) : Bytes := natLe 8 (regGet (pgFlc 0 + off) s)
  let (lo, hi) := wearUnits s
  let host := max 1 s.media.unitsHost
  natLe 2 1 ++ natLe 2 1536 ++ natLe 4 (chanMask fun c => chanDies c s ≠ 0) ++ natLe 4 (chanMask fun c => chanFenced c s) ++
  natLe 4 (flcState s) ++ natLe 8 (pickN s) ++ r 0x230 ++ r 0x238 ++ r 0x240 ++ r 0x248 ++ r 0x250 ++
  natLe 8 (chanSum 0x118 s) ++ natLe 8 (chanSum 0x120 s) ++ natLe 8 (chanSum 0x128 s) ++ r 0x268 ++ r 0x270 ++ r 0x258 ++ r 0x260 ++
  natLe 4 s.media.spareInit ++ natLe 4 s.media.spareLeft ++ natLe 4 s.media.diesRetired ++ natLe 2 lo ++ natLe 2 hi ++
  natLe 4 (wearAvg s) ++ natLe 4 (peNative s) ++ natLe 2 (slcHeld s) ++ natLe 2 s.media.slcT ++ natLe 2 (freeN s) ++
  natLe 2 (reserveN s) ++ natLe 4 (1000 * s.media.unitsAll / host) ++ natLe 4 (regGet (pgFlc 0 + 0x280) s) ++ zeros 96 ++
  (List.range 16).flatMap (fun i => natLe 8 (tget 0 s.media.tempHist i)) ++ zeros 128 ++
  (List.range 32).flatMap (fun c => chanEntry c s) ++
  padTo 256 (s.media.poisonRing.flatMap fun e => poisonEntry f e s) ++ zeros 256

/-- An entry of the event log, 16 bytes (R468). -/
def logBytes (e : LogEntry) : Bytes :=
  natLe 2 e.code.toNat ++ [e.inst, e.index] ++ natLe 1 (e.cls + 8 * b2n e.masked) ++ natLe 1 e.repeats ++ natLe 6 e.pick.toNat ++
  natLe 4 e.detail.toNat

/-- Log page 0xC1 (R470). -/
def eventPage (s : State) : Bytes :=
  let g := s.log
  let only := fenced pgHam s
  natLe 2 1 ++ natLe 1 (b2n only) ++ natLe 1 (b2n g.savedValid) ++ natLe 4 69696 ++ natLe 4 g.head.toNat ++ natLe 4 g.dropped.toNat ++
  natLe 8 (pickN s) ++ zeros 40 ++
  padTo 65536 ((g.queue ++ if only then [] else ringNewest g 4096).flatMap logBytes) ++ padTo 4096 (g.saved.flatMap logBytes)

/-- Log page 0xC2 (R446). -/
def usagePage (f : Nat) (s : State) : Bytes :=
  let l := if f = 0 then List.range 128 else [f]
  natLe 2 1 ++ zeros 1 ++ natLe 1 l.length ++ natLe 4 (64 + 256 * l.length) ++ natLe 8 (pickN s) ++ zeros 48 ++
  l.flatMap fun k => portionEntry k s

/-- Log page 0xC3 (R402). -/
def rosterPage (s : State) : Bytes :=
  partyHeader s ++ if isMember s then entryBytes s.party.roster 0 1024 else zeros 8192

/-- The bytes of a log page for a function; none where it has no such page (R76, R402, R470). -/
def pageBytes (lid f : Nat) (s : State) : Option (Bytes × State) :=
  match lid with
  | 0x01 => some (errPage f s, s)
  | 0x02 => some (smartPage f s)
  | 0x03 => some (slotPage s, s)
  | 0x05 => some (effectsPage f, s)
  | 0x06 => some (testPage s)
  | 0xC0 => some (healthPage f s, s)
  | 0xC1 => if f = 0 then some (eventPage s, s) else none
  | 0xC2 => some (usagePage f s, s)
  | 0xC3 => if f = 0 then some (rosterPage s, s) else none
  | _ => none

/-! ### Get Log Page -/

/-- A read of a log page clears the mask of the events that name it (R509). -/
def logRead (f page : Nat) (s : State) : State :=
  drainAev f (fnMod f (fun x => { x with maskedEvs := x.maskedEvs.filter (·.page ≠ page) }) s)

/-- Sends `n` bytes of a page from offset `off`; bytes past its end are free. -/
def sendPage (c n off : Nat) (page : Bytes) (s : State) : State :=
  let x := ctxGet c s
  let mine := (page.drop off).take n
  let (more, s1) := freeBytes (n - mine.length) s
  s1 |> sendData x n 0 (mine ++ more) false |> finish c stOk |> fun t =>
    if bit (dword x.sqe 10) 15 then t else logRead x.fn (dword x.sqe 10 % 256) t

/-- GET_LOG_PAGE (R76): NUMD dwords from the log page offset. -/
def getLogPage (c : Nat) (s : State) : State :=
  let x := ctxGet c s
  let e := x.sqe
  let lid := dword e 10 % 256
  let n := 4 * (dword e 10 / 65536 + dword e 11 % 65536 * 65536 + 1)
  let off := (dword e 12 + dword e 13 * 2 ^ 32) / 4 * 4
  if lid = 0x02 && sqeNsid e ≠ 0 && sqeNsid e ≠ 0xFFFFFFFF then finish c stField s
  else if mdts < n then finish c stField s
  else match pageBytes lid x.fn s with
    | none => finish c stLogPage s
    | some (bs, t) =>
      if bs.length < off then finish c stField s
      else match bufferOf c n s with
        | (none, u) => u
        | (some _, u) => if (fnGet x.fn u).bme then sendPage c n off bs { u with free := t.free } else u

def execGetLogPage (ctx : Nat) (s : State) : Host.Outcome State Fault Refusal :=
  .next (if holdsCmd ctx 0x02 false s then getLogPage ctx s else s)

end Sys2Proof.Machine
end

