-- ==== Sys2Proof/Machine/Identify.lean ====
section
/-!
DEFINITION. Identify (R72 to R74, R101, R143, R494): the data structures of NVMe 2.0 with the values the spec gives. Their layouts are
NVMe's (PRESUMED, log entry 51); a field the spec does not list is 0 (R72), and the part's identity (vendor, serial and model
numbers, names) is free (log entry 5).
-/
namespace Sys2Proof.Machine

/-- `n` bytes of the part's identity from place `k`: constants that the spec does not give. -/
def identity (k n : Nat) : Bytes := (List.range n).map fun i => Config.freeByte (2 ^ 48 + k + i)

/-- TNVMCAP in GiB as reported: once fixed that value, before it what R143 gives now. -/
def capacity (s : State) : Nat := s.media.tnvmcap.getD (tnvmcapNow s)

/-- GiB that namespaces, the shard store and the stripe table hold (R406). -/
def capacityUsed (s : State) : Nat :=
  (s.nss.map fun e => cdiv e.2.units 65536).foldl (· + ·) 0 + s.mender.extents.length + (if s.mender.table = 0 then 0 else tableGib s)

/-- CCTEMP in kelvin (R494). -/
def cctemp : Nat := if Config.gradeX then 378 else 373

/-- A power state descriptor, 32 bytes (R101): MP in 0.01 W, NOPS, ENLAT, EXLAT, and one value for RRT, RRL, RWT and RWL. -/
def powerDesc (mp nops enlat exlat rel : Nat) : Bytes :=
  natLe 2 mp ++ zeros 1 ++ natLe 1 (2 * nops) ++ natLe 4 enlat ++ natLe 4 exlat ++ List.replicate 4 (BitVec.ofNat 8 rel) ++ zeros 16

/-- The table of R101. -/
def powerDescs : Bytes :=
  powerDesc 6500 0 0 0 0 ++ powerDesc 4800 0 0 0 1 ++ powerDesc 3200 0 0 0 2 ++ powerDesc 1200 1 1000 500 0 ++
  powerDesc 400 1 5000 15000 0

/-- Bytes 0 to 255 of Identify Controller. -/
def idCtrlHead (f : Nat) (s : State) : Bytes :=
  identity 0 64 ++ fwRevision s.boot.lastSlot s ++ zeros 1 ++ identity 64 3 ++ natLe 1 0x06 ++ natLe 1 9 ++ natLe 2 (f + 1) ++
  natLe 4 0x00020000 ++ zeros 172

/-- Bytes 256 to 511: the admin command set. -/
def idCtrlAdmin (f : Nat) (s : State) : Bytes :=
  natLe 2 (if f = 0 then 0x009E else 0x0010) ++ natLe 1 7 ++ natLe 1 15 ++ natLe 1 0x16 ++ natLe 1 0x06 ++ natLe 1 255 ++ natLe 1 4 ++
  zeros 1 ++ natLe 1 0x01 ++ natLe 2 wctemp ++ natLe 2 cctemp ++ natLe 2 8 ++ zeros 8 ++ natLe 16 (capacity s * 2 ^ 30) ++
  natLe 16 ((capacity s - capacityUsed s) * 2 ^ 30) ++ zeros 4 ++ natLe 2 45 ++ natLe 1 1 ++ zeros 9 ++ natLe 4 0x00000002 ++ zeros 180

/-- Bytes 512 to 767: the NVM command set. -/
def idCtrlNvm : Bytes :=
  natLe 1 0x66 ++ natLe 1 0x44 ++ zeros 2 ++ natLe 4 1021 ++ natLe 2 0x0004 ++ natLe 2 0 ++ zeros 1 ++ natLe 1 0 ++ natLe 2 255 ++
  natLe 2 255 ++ zeros 6 ++ natLe 4 0x00000001 ++ zeros 228

/-- Identify Controller (CNS 0x01). -/
def idCtrl (f : Nat) (s : State) : Bytes :=
  padTo 4096 (idCtrlHead f s ++ idCtrlAdmin f s ++ idCtrlNvm ++ identity 67 256 ++ zeros 1024 ++ powerDescs)

/-- What Identify Namespace says of every namespace: formats, boundaries, deallocation (R73), and its capacity in bytes. -/
def idNsTail (lbaf cap : Nat) (id : Bytes) : Bytes :=
  let four := lbaf = 0
  natLe 1 0x12 ++ natLe 1 1 ++ natLe 1 lbaf ++ zeros 3 ++ natLe 1 0x01 ++ zeros 2 ++ natLe 1 0x01 ++
  natLe 2 (if four then 255 else 63) ++ natLe 2 (if four then 255 else 63) ++ zeros 2 ++ natLe 2 0 ++ zeros 2 ++ natLe 2 0 ++ zeros 2 ++ natLe 16 cap ++
  natLe 2 (if four then 3 else 0) ++ natLe 2 (if four then 3 else 0) ++ zeros 36 ++ id ++
  natLe 4 (12 * 2 ^ 16 + 2 ^ 24) ++ natLe 4 (14 * 2 ^ 16)

/-- The unique names of a namespace: NGUID and EUI64, 24 bytes. -/
def nsName (n : Nat) : Bytes := identity (1024 + 32 * n) 24

/-- Identify Namespace of a namespace: NSZE, NCAP and NUSE in its blocks. -/
def idNs (n : Nat) (s : State) : Bytes :=
  let x := nsGet n s
  let z := natLe 8 (nsBlocks x)
  padTo 4096 (z ++ z ++ z ++ idNsTail x.lbaf (16384 * x.units) (nsName n))

/-- Identify Namespace with NSID 0xFFFFFFFF: what every namespace has in common. -/
def idNsCommon : Bytes := padTo 4096 (zeros 24 ++ idNsTail 0 0 (zeros 24))

/-- A list of up to 1,024 NSIDs. -/
def nsList (l : List Nat) : Bytes := padTo 4096 ((l.take 1024).flatMap fun n => natLe 4 n)
/-- A controller list: a count, then the identifiers (at most 2,047). -/
def ctrlList (l : List Nat) : Bytes := padTo 4096 (natLe 2 l.length ++ l.flatMap fun c => natLe 2 c)

/-- Namespaces that exist, ascending. -/
def nsAll (s : State) : List Nat := (tfind (fun n x => x.active && n ≤ 1021) s.nss)

/-- The namespace identification descriptors (CNS 0x03): NGUID and the command set. -/
def idNsDescs (n : Nat) : Bytes := padTo 4096 (natLe 4 0x1002 ++ (nsName n).take 16 ++ natLe 4 0x0104 ++ zeros 1)

/-- Flexible queues assigned to the functions other than F0 (R74). -/
def flexTaken (s : State) : Nat := ((List.range 128).map fun f => if f = 0 then 0 else (fnGet f s).flexSq).foldl (· + ·) 0

/-- Primary controller capabilities (CNS 0x14): the flexible pool of 8,128 queue pairs (R74); vectors are private. -/
def idPrimary (s : State) : Bytes :=
  padTo 4096 (natLe 2 1 ++ natLe 2 0 ++ natLe 1 1 ++ zeros 27 ++
    natLe 4 8128 ++ natLe 4 (flexTaken s) ++ natLe 2 (fnGet 0 s).flexSq ++ natLe 2 64 ++ natLe 2 1024 ++ natLe 2 1 ++ zeros 16 ++
    natLe 4 0 ++ natLe 4 0 ++ natLe 2 0 ++ natLe 2 2048 ++ natLe 2 0 ++ natLe 2 0)

/-- An entry of the secondary controller list, 32 bytes. -/
def idSecEntry (f : Nat) (s : State) : Bytes :=
  padTo 32 (natLe 2 (f + 1) ++ natLe 2 1 ++ natLe 1 (b2n (fnGet f s).online) ++ zeros 3 ++ natLe 2 f ++ natLe 2 (fnGet f s).flexSq)

/-- The secondary controllers from an identifier on (CNS 0x15). -/
def idSecondary (from_ : Nat) (s : State) : Bytes :=
  let l := ((List.range 128).filter fun f => f ≠ 0 && from_ ≤ f + 1)
  padTo 4096 (natLe 1 l.length ++ zeros 31 ++ l.flatMap fun f => idSecEntry f s)

/-- The 4,096 bytes of a CNS value for a function, or the status that refuses it. -/
def identifyBytes (f : Nat) (e : Sqe) (s : State) : Bytes ⊕ Status :=
  let n := sqeNsid e
  let cnt := dword e 10 / 65536
  let known := 1 ≤ n && n ≤ 1021
  match dword e 10 % 256 with
  | 0x00 =>
    if n = 0xFFFFFFFF then .inl idNsCommon
    else if !known then .inr stNamespace
    else .inl (if nsVisible f n s then idNs n s else zeros 4096)
  | 0x01 => .inl (idCtrl f s)
  | 0x02 => if 0xFFFFFFFE ≤ n then .inr stNamespace else .inl (nsList ((nsAll s).filter fun k => n < k && nsVisible f k s))
  | 0x03 => if known && nsVisible f n s then .inl (idNsDescs n) else .inr stNamespace
  | 0x10 => if 0xFFFFFFFE ≤ n then .inr stNamespace else .inl (nsList ((nsAll s).filter (n < ·)))
  | 0x11 =>
    if n = 0xFFFFFFFF then .inl idNsCommon
    else if !known then .inr stNamespace
    else .inl (if (nsGet n s).active then idNs n s else zeros 4096)
  | 0x12 =>
    if known then .inl (ctrlList (((List.range 128).filter (nsGet n s).attached.contains).map (· + 1) |>.filter (cnt ≤ ·)))
    else .inr stNamespace
  | 0x13 => .inl (ctrlList (((List.range 128).filter fun q => fnPresent q s).map (· + 1) |>.filter (cnt ≤ ·)))
  | 0x14 => if f = 0 then .inl (idPrimary s) else .inr stField
  | 0x15 => if f = 0 then .inl (idSecondary cnt s) else .inr stField
  | _ => .inr stField

/-- IDENTIFY (R72, R73). -/
def identifyCmd (c : Nat) (s : State) : State :=
  match identifyBytes (ctxGet c s).fn (ctxGet c s).sqe s with
  | .inl bs => adminData c bs s
  | .inr st => finish c st s

def execIdentify (ctx : Nat) (s : State) : Host.Outcome State Fault Refusal :=
  .next (if holdsCmd ctx 0x06 false s then identifyCmd ctx s else s)

end Sys2Proof.Machine
end

