-- ==== Sys2Proof/Machine/Admin.lean ====
section
/-!
DEFINITION. The remaining admin commands: Namespace Management and Attachment (R75, R88, R143, R150), Format NVM and Sanitize (R88, R141),
Virtualization Management (R74), Device Self-test (R99, R100), Fuse Repair (R202).
-/
namespace Sys2Proof.Machine

/-! ### Namespaces -/

/-- A namespace's record in the control area (R162 field 0x04). -/
def nsRecord (n : Nat) (x : Namespace) (s : State) : State :=
  nsSet n x { s with die := { s.die with ns := tset {} n { x with nextSeq := 1, seqEnd := 0 } s.die.ns } }
    |> jCtrl 0x04 (n - 1) (if x.active then x.base + x.units * 2 ^ 17 + 2 ^ 53 else 0)

/-- No host namespace exists, and the shard store and the stripe table hold nothing: the next create fixes TNVMCAP (R143). -/
def capacityFree (s : State) : Bool := (nsAll s).isEmpty && s.mender.extents.isEmpty && s.mender.stripes.isEmpty

/-- Fixes TNVMCAP (R143); the range of an empty stripe table lies at the front again. -/
def capacityFix (s : State) : State :=
  if capacityFree s || s.media.tnvmcap.isNone
  then { s with media := { s.media with tnvmcap := some (tnvmcapNow s) }, mender := { s.mender with tableBase := 0 } } else s

/-- Creates a namespace of `units` units in the first free range (R150). -/
def nsCreate (c units lbaf : Nat) (s : State) : State :=
  match (List.range 1021).find? fun i => !(nsGet (i + 1) s).active with
  | none => finish c stNsIdent s
  | some i =>
    let t := capacityFix s
    match freeGibs (cdiv units 65536) t with
    | none => finish c stNsCapacity s
    | some b =>
      let q := tget 0 t.die.seqEnd (i + 1)
      t |> nsRecord (i + 1) { base := b, units := units, lbaf := lbaf, active := true }
        |> (fun u => nsSet (i + 1) { nsGet (i + 1) u with nextSeq := max 1 q, seqEnd := q } u) |> finishDw c stOk (i + 1) 0

/-- NAMESPACE_CREATE (R73, R143, R150, R487): SEL 0, and the values that name no selection. The size is rounded up to whole units. -/
def nsCreateCmd (c : Nat) (s : State) : State :=
  let e := (ctxGet c s).sqe
  if dword e 10 % 16 ≠ 0 || dword e 11 / 2 ^ 24 ≠ 0 then finish c stField s
  else if s.boot.degraded then finish c stNsNotReady s
  else match hostData c 4096 s with
    | (none, t) => t
    | (some bs, t) =>
      let z := leAt bs 0 8
      let cap := leAt bs 8 8
      let fmt := leAt bs 26 1
      if 1 < fmt then finish c stFormat t
      else if leAt bs 29 1 ≠ 0 || z = 0 || z < cap then finish c stField t
      else if cap < z then finish c stThin t
      else nsCreate c (cdiv (z * (if fmt = 0 then 4096 else 16384)) 16384) fmt t

def execNamespaceCreate (ctx : Nat) (s : State) : Host.Outcome State Fault Refusal :=
  .next (if holdsCmd ctx 0x0D false s && dword (ctxGet ctx s).sqe 10 % 16 ≠ 1 then nsCreateCmd ctx s else s)

/-- The namespaces that a command of a function names: all that it could mean for NSID 0xFFFFFFFF, else the one. -/
def nsTargets (n : Nat) (all : List Nat) : List Nat := if n = 0xFFFFFFFF then all else all.filter (· = n)

/-- A command on whole namespaces has to wait (R88): for commands fetched before it on one of them, or for the map of one. -/
def nsBusy (c : Nat) (l : List Nat) (s : State) : Bool :=
  l.any fun n => earlierOnNs n (ctxGet c s).order s || !(rangeUnbuilt (65536 * (nsGet n s).base) (nsGet n s).units s).isEmpty

/-- The segments of the namespaces move ahead in the restart (R175). -/
def nsPromote (l : List Nat) (s : State) : State :=
  (l.flatMap fun n => rangeUnbuilt (65536 * (nsGet n s).base) (nsGet n s).units s).foldl (fun s g => promote g s) s

/-- Empties a namespace's range. -/
def nsEmpty (n : Nat) (s : State) : State := rangeClear (65536 * (nsGet n s).base) (nsGet n s).units s

/-- Ends a self-test that tests a namespace with a result (R99). -/
def nsTestStop (n result : Nat) (s : State) : State :=
  if s.qe.selfTest.nsid = n || s.qe.selfTest.nsid = 0xFFFFFFFF then selfTestStop result s else s

/-- Commands on a namespace that were fetched after its delete fail with Invalid Namespace or Format (R88); those before it have
completed. -/
def nsDrop (c n : Nat) (s : State) : State :=
  (tfind (fun k x => x.used && k ≠ c && x.nsid = n) s.qe.ctxs).foldl (fun s k => s |> slotDrop k |> finish k stNamespace) s

/-- NAMESPACE_DELETE (R78, R88, R150): once its earlier commands have completed. -/
def nsDeleteCmd (c : Nat) (s : State) : State :=
  match critGate c s with
  | some t => t
  | none =>
    let n := sqeNsid (ctxGet c s).sqe
    let l := nsTargets n (nsAll s)
    if s.boot.degraded then finish c stNsNotReady s
    else if l.isEmpty && n ≠ 0xFFFFFFFF then finish c stNamespace s
    else if nsBusy c l s then nsPromote l s
    else finish c stOk (l.foldl (fun s n => nsDrop c n (nsRecord n {} (nsTestStop n 3 (nsEmpty n s)))) s)

def execNamespaceDelete (ctx : Nat) (s : State) : Host.Outcome State Fault Refusal :=
  .next (if holdsCmd ctx 0x0D false s && dword (ctxGet ctx s).sqe 10 % 16 = 1 then nsDeleteCmd ctx s else s)

/-- The controller identifiers of a controller list. -/
def ctrlIds (bs : Bytes) : List Nat := (List.range (leAt bs 0 2)).map fun i => leAt bs (2 + 2 * i) 2

/-- A controller list is well formed: 1 to 2,047 present controllers in ascending order. -/
def ctrlsOk (l : List Nat) (s : State) : Bool :=
  1 ≤ l.length && l.length ≤ 2047 && (l.zip (l.drop 1)).all (fun p => p.1 < p.2) &&
  l.all fun i => 1 ≤ i && i ≤ 128 && fnPresent (i - 1) s

/-- NAMESPACE_ATTACHMENT (R75): SEL 0 attaches, 1 detaches, all controllers of the list or none. -/
def nsAttachCmd (c : Nat) (s : State) : State :=
  let e := (ctxGet c s).sqe
  let sel := dword e 10 % 16
  let n := sqeNsid e
  if 1 < sel then finish c stField s
  else if !(nsAll s).contains n then finish c stNamespace s
  else match hostData c 4096 s with
    | (none, t) => t
    | (some bs, t) =>
      let fs := (ctrlIds bs).map (· - 1)
      let x := nsGet n t
      if 2047 < leAt bs 0 2 || !ctrlsOk (ctrlIds bs) t then finish c stCtrlList t
      else if sel = 0 then
        if fs.any x.attached.contains then finish c stNsAttached t
        else t |> nsRecord n { x with attached := x.attached ++ fs } |> finish c stOk
      else
        if !(fs.all x.attached.contains) then finish c stNsNotAttached t
        else t |> nsRecord n { x with attached := x.attached.filter fun f => !fs.contains f } |> finish c stOk

def execNamespaceAttachment (ctx : Nat) (s : State) : Host.Outcome State Fault Refusal :=
  .next (if holdsCmd ctx 0x15 false s then nsAttachCmd ctx s else s)

/-! ### Format NVM, Sanitize -/

/-- FORMAT_NVM (R73, R88, R141): the namespace's range is emptied and its LBA format set; NSID 0xFFFFFFFF formats every namespace
attached to F0. -/
def formatCmd (c : Nat) (s : State) : State :=
  match critGate c s with
  | some t => t
  | none =>
    let x := ctxGet c s
    let d := dword x.sqe 10
    let n := sqeNsid x.sqe
    let l := nsTargets n ((nsAll s).filter fun k => nsVisible x.fn k s)
    let lbaf := bits d 3 0 + 16 * bits d 13 12
    if s.media.ro then finish c vsReadOnly s
    else if s.boot.degraded then finish c stNsNotReady s
    else if s.qe.sanitizing then finish c stSanitize s
    else if 1 < lbaf || bits d 8 4 ≠ 0 then finish c stFormat s
    else if 1 < bits d 11 9 then finish c stField s
    else if l.isEmpty && n ≠ 0xFFFFFFFF then finish c stNamespace s
    else if nsBusy c l s then nsPromote l s
    else finish c stOk (l.foldl (fun s n =>
      let t := nsTestStop n 4 (nsEmpty n s)
      let y := nsGet n t
      nsRecord n { y with lbaf := lbaf } t) s)

def execFormatNvm (ctx : Nat) (s : State) : Host.Outcome State Fault Refusal :=
  .next (if holdsCmd ctx 0x80 false s then formatCmd ctx s else s)

/-- An I/O command in flight ends because a Sanitize begins (R88, R106). -/
def sanitizeEnd (k : Nat) (s : State) : State :=
  match (ctxGet k s).run with
  | some r => runKill r (some (stSanitize, 0, 0)) s
  | none => s |> slotDrop k |> finish k stSanitize |> slotSweep |> discSweep

/-- I/O commands in flight. -/
def ioCtxs (s : State) : List Nat := tfind (fun _ x => x.used && x.sq ≠ 0) s.qe.ctxs

/-- SANITIZE (R75, R88, R141): Block Erase alone. It waits for the I/O commands claimed at the poster, ends the others, and completes
when the operation has begun. -/
def sanitizeCmd (c : Nat) (s : State) : State :=
  match critGate c s with
  | some t => t
  | none =>
    if dword (ctxGet c s).sqe 10 % 8 ≠ 2 then finish c stField s
    else if s.qe.sanitizing then finish c stSanitize s
    else if (ioCtxs s).any fun k => (ctxGet k s).claimed then s
    else
      let s1 := (ioCtxs s).foldl (fun s k => sanitizeEnd k s) s
      finish c stOk (selfTestStop 9 { s1 with qe := { s1.qe with sanitizing := true } })

def execSanitize (ctx : Nat) (s : State) : Host.Outcome State Fault Refusal :=
  .next (if holdsCmd ctx 0x84 false s then sanitizeCmd ctx s else s)

/-! ### Virtualization Management (R74) -/

/-- Flexible queue pairs that functions other than `f` hold. -/
def flexOthers (f : Nat) (s : State) : Nat :=
  ((List.range 128).map fun g => if g = f then 0 else (fnGet g s).flexSq).foldl (· + ·) 0

/-- Gives a function `n` flexible queue pairs. -/
def flexGive (c f n : Nat) (s : State) : State :=
  s |> fnMod f (fun x => { x with flexSq := n, flexCq := n }) |> finishDw c stOk n 0

/-- VIRTUALIZATION_MANAGEMENT (R74): ACT 1 gives F0 flexible queues, 7 takes a secondary controller offline, 8 assigns it flexible
queues, 9 brings it online. Interrupt vectors are private, so no flexible ones exist. -/
def virtCmd (c : Nat) (s : State) : State :=
  match critGate c s with
  | some t => t
  | none =>
    let e := (ctxGet c s).sqe
    let act := dword e 10 % 16
    let rt := bits (dword e 10) 10 8
    let f := dword e 10 / 65536 - 1
    let n := dword e 11 % 65536
    let sec := 2 ≤ dword e 10 / 65536 && dword e 10 / 65536 ≤ 128
    let give (limit : Nat) : State :=
      if 1 < rt then finish c stResourceId s
      else if rt = 1 then (if n = 0 then finishDw c stOk 0 0 s else finish c stResources s)
      else if limit < n || 8128 < flexOthers f s + n then finish c stResources s
      else flexGive c f n s
    match act with
    | 1 => if dword e 10 / 65536 ≠ 1 then finish c stCtrlId s else give 960
    | 7 =>
      if !sec then finish c stCtrlId s
      else s |> fnMod f (fun x => { x with online := false, flexSq := 0, flexCq := 0, cc := BitVec.ofNat 32 (setBit x.cc.toNat 0 false) })
             |> later (.ctlReset f false) |> finish c stOk
    | 8 => if !sec then finish c stCtrlId s else if (fnGet f s).online then finish c stSecState s else give 1024
    | 9 =>
      if !sec then finish c stCtrlId s
      else if (fnGet f s).flexSq = 0 then finish c stSecState s
      else s |> fnMod f (fun x => { x with online := true }) |> finish c stOk
    | _ => finish c stField s

def execVirtualizationManagement (ctx : Nat) (s : State) : Host.Outcome State Fault Refusal :=
  .next (if holdsCmd ctx 0x1C false s then virtCmd ctx s else s)

/-! ### Device Self-test (R99, R100) -/

/-- The most steps of a test: 4 steps a bolt are certain (R100), and 2 or 45 minutes its limit (R99). -/
def testLimit (extended : Bool) : Nat := if extended then 10546875 else 468750

/-- Starts a self-test; how many steps it has, up to the limit, is free (log entry 6). -/
def testStart (c : Nat) (extended : Bool) (s : State) : State :=
  let x := ctxGet c s
  let n := sqeNsid x.sqe
  if n ≠ 0 && n ≠ 0xFFFFFFFF && !nsVisible x.fn n s then finish c stNamespace s
  else if s.qe.selfTest.running then finish c stSelfTest s
  else
    let (k, t) := draw s
    let total := Config.freeChoice k % testLimit extended + 1
    finish c stOk { t with qe := { t.qe with selfTest := {
      t.qe.selfTest with running := true, extended := extended, fn := x.fn, nsid := n, steps := 0, total := total, stepsThisBolt := 0, stepPick := none } } }

/-- The code of a Device Self-test. -/
def testCode (c : Nat) (s : State) : Nat := dword (ctxGet c s).sqe 10 % 16

/-- DEVICE_SELF_TEST_SHORT (R99): code 0x1; the codes that name no action are refused here. -/
def execDeviceSelfTestShort (ctx : Nat) (s : State) : Host.Outcome State Fault Refusal :=
  .next (if !holdsCmd ctx 0x14 false s || testCode ctx s = 2 || testCode ctx s = 0xF then s
    else if testCode ctx s = 1 then testStart ctx false s else finish ctx stField s)

/-- DEVICE_SELF_TEST_EXTENDED (R99): code 0x2. -/
def execDeviceSelfTestExtended (ctx : Nat) (s : State) : Host.Outcome State Fault Refusal :=
  .next (if holdsCmd ctx 0x14 false s && testCode ctx s = 2 then testStart ctx true s else s)

/-- DEVICE_SELF_TEST_ABORT (R99): code 0xF. -/
def execDeviceSelfTestAbort (ctx : Nat) (s : State) : Host.Outcome State Fault Refusal :=
  .next (if holdsCmd ctx 0x14 false s && testCode ctx s = 0xF then finish ctx stOk (selfTestStop 1 s) else s)

/-- SELF_TEST_STEP (R100): a pick has idle cycles for a step. The steps that a bolt still owes its floor come with `testFloor`. -/
def execSelfTestStep (ok : Bool) (s : State) : Host.Outcome State Fault Refusal := .next (testStep ok s)

/-! ### Fuse Repair (R200 to R202) -/

/-- Entries that stand for spare rows in use or to be used: the factory's, and the field's good ones. -/
def fuseRows (s : State) : List Fuse := s.hamx.factory ++ s.hamx.field.filter (·.good)

/-- The result of a repair of a row of a bank (R202). -/
def fuseResult (bank row : Nat) (s : State) : Nat :=
  if (fuseRows s ++ s.hamx.active).any fun e => e.bank = bank && e.row = row then 1
  else if 16 ≤ ((fuseRows s).filter (·.bank = bank)).length then 2
  else if 64 ≤ s.hamx.field.length then 3
  else 0

/-- FUSE_REPAIR (R201, R202). -/
def fuseCmd (c : Nat) (s : State) : State :=
  match critGate c s with
  | some t => t
  | none =>
    let d := dword (ctxGet c s).sqe 10
    let bank := bits d 5 0
    let row := bits d 18 6
    if d / 2 ^ 19 ≠ 0 then finish c stField s
    else
      let r := fuseResult bank row s
      let field := if r = 0 then s.hamx.field ++ [{ bank := bank, row := row }] else s.hamx.field
      finishDw c stOk r 0 { s with hamx := { s.hamx with field := field, cands := s.hamx.cands.filter fun e => !(e.bank = bank && e.row = row) } }

def execFuseRepair (ctx : Nat) (s : State) : Host.Outcome State Fault Refusal :=
  .next (if holdsCmd ctx 0xE0 false s then fuseCmd ctx s else s)

end Sys2Proof.Machine
end

