-- ==== Sys2Proof/Machine/Firmware.lean ====
section
/-!
DEFINITION. Firmware images: Firmware Image Download, Firmware Commit (R78, R97, R98, R484, R485) and the activation of an image without
a reset (R97, R98).
-/
namespace Sys2Proof.Machine

/-- The most bytes of an image (R483). -/
def fwMax : Nat := 8388608

/-- FIRMWARE_IMAGE_DOWNLOAD (R75): a piece of an image at its offset. -/
def downloadCmd (c : Nat) (s : State) : State :=
  let e := (ctxGet c s).sqe
  let n := 4 * (dword e 10 + 1)
  let off := 4 * dword e 11
  if fwMax < off + n || mdts < n then finish c stField s
  else match hostData c n s with
    | (none, t) => t
    | (some bs, t) =>
      let old := t.boot.download
      finish c stOk (bootMod (fun b => { b with download := patch (padTo (max old.length off) old) off bs }) t)

def execFirmwareImageDownload (ctx : Nat) (s : State) : Host.Outcome State Fault Refusal :=
  .next (if holdsCmd ctx 0x11 false s then downloadCmd ctx s else s)

/-- The Commit Action and the slot; slot 0 leaves the choice to the part, and it is free (log entry 6). -/
def fcAction (c : Nat) (s : State) : Nat := bits (dword (ctxGet c s).sqe 10) 5 3
def fcSlot (c : Nat) (s : State) : Nat × State :=
  let k := dword (ctxGet c s).sqe 10 % 8
  if k ≠ 0 then (k, s) else let (d, t) := draw s; (Config.freeChoice d % 3 + 1, t)

/-- An image may stand in a slot: it verifies, with HOUSE = 1 (R342, R483). -/
def imageGood (b : Bytes) : Bool := (izVerify b true).isNone && bit (leAt b 6 1) 0

/-- Writes the downloaded image into a slot of the boot area with its CRC (R483). -/
def slotWrite (k : Nat) (s : State) : State :=
  let img := s.boot.download
  bootMod (fun b => { b with download := [],
                             slots := tset {} k { present := true, image := img, crc := BitVec.ofNat 32 (crc32c img) } b.slots }) s

/-- The boot record names a slot for the next boot (R484). -/
def slotPend (k : Nat) (s : State) : State := bootUpdate (fun r => { r with active := k, pending := true }) s

/-- The gate of a Firmware Commit: in recovery mode an Arm is needed only while F0 has an ACTIVE COMMAND key (R78, R485). -/
def fcGate (c : Nat) (s : State) : Option State :=
  if s.boot.phase = .recovery && (keyOf 0 0 s).isNone then none else critGate c s

/-- In recovery mode the Commit ends in a device reset (R485). -/
def fcReset (s : State) : State := if s.boot.phase = .recovery then later (.reset 0 (pickN s + 1)) s else s

/-- A Firmware Commit that acts at a reset (R98, R484): CA 0 stores the image, 1 stores it and names its slot, 2 names a slot. -/
def commitReset (c ca : Nat) (s0 : State) : State :=
  let (k, s) := fcSlot c s0
  if 3 < k then finish c stFwSlot s
  else if 4 ≤ ca then finish c stField s
  else if ca ≤ 1 then
    if !imageGood s.boot.download then finish c stFwImage s
    else if ca = 0 then s |> slotWrite k |> fcReset |> finish c stOk
    else s |> slotWrite k |> slotPend k |> fcReset |> finish c stFwReset
  else if !slotGood k s then finish c stFwImage s
  else s |> slotPend k |> fcReset |> finish c stFwReset

/-- FIRMWARE_COMMIT_AT_RESET (R98): every action but 0b011. -/
def execFirmwareCommitAtReset (ctx : Nat) (s : State) : Host.Outcome State Fault Refusal :=
  .next (if holdsCmd ctx 0x10 false s && fcAction ctx s ≠ 3 then
    (match fcGate ctx s with
     | some t => t
     | none => commitReset ctx (fcAction ctx s) s)
  else s)

/-- An activation runs, or waits for its acting boundary. -/
def activating (s : State) : Bool := s.qe.actPhase ≠ 0 || s.due.any fun d => match d with
  | .activate _ _ => true
  | _ => false

/-- FIRMWARE_COMMIT_ACTIVATE (R97): the activation acts at the next pick boundary (`activateAct`). One runs at a time; in recovery mode the
image starts with the device reset. -/
def commitActivate (c : Nat) (s0 : State) : State :=
  let (k, s) := fcSlot c s0
  if activating s0 then s0
  else if 3 < k then finish c stFwSlot s
  else if !slotGood k s then finish c stFwImage s
  else if s.boot.phase = .recovery then s |> slotPend k |> fcReset |> finish c stFwReset
  else later (.activate c k) s

def execFirmwareCommitActivate (ctx : Nat) (s : State) : Host.Outcome State Fault Refusal :=
  .next (if holdsCmd ctx 0x10 false s && fcAction ctx s = 3 then
    (match fcGate ctx s with
     | some t => t
     | none => commitActivate ctx s)
  else s)

/-- Commands and program runs that an activation still drains: waiting Asynchronous Event Requests and Firmware Commits apart. -/
def actLive (s : State) : Bool :=
  (s.fns.any fun e => !e.2.waitCpl.isEmpty) || (s.qe.ctxs.any fun e => e.2.used && !(fnGet e.2.fn s).aers.contains e.1 && !(e.2.sq = 0 && sqeOp e.2.sqe = 0x10)) ||
  s.runs.any fun e => e.1 ≠ fwRun && e.2.used

/-- The drain is over after this many picks (R108 QEN_ACT_STAT.LAST_DRAIN, saturating). -/
def drainDone (s : State) : State := regSetFld (pgQenP + 0x120) 31 8 (min 0xFFFFFF (pickN s - s.qe.actStart)) s

/-- ACTIVATION_DRAIN_END (R97): within 150,000 picks nothing is in flight any more; the new image takes over the house clusters. -/
def execActivationDrainEnd (s : State) : Host.Outcome State Fault Refusal :=
  .next (if s.qe.actPhase = 1 && !actLive s && pickN s ≤ s.qe.actStart + 150000 && !pfOn s
    then drainDone { s with qe := { s.qe with actPhase := 2, actDrain := pickN s } } else s)

/-- ACTIVATION_DRAIN_LIMIT (R98): the drain has not ended at 150,000 picks: the hold is released and the old image stays. -/
def execActivationDrainLimit (s : State) : Host.Outcome State Fault Refusal :=
  let late := s.qe.actStart + 150000 < pickN s || (s.qe.actStart + 150000 ≤ pickN s && actLive s)
  .next (if s.qe.actPhase = 1 && late && !pfOn s
    then drainDone { s with qe := { s.qe with actPhase := 0 } } |> note 0x6082 pgQen s.qe.actSlot |> finish s.qe.actCtx stFwTime else s)

/-- The house clusters leave the old image: its tasks stop. -/
def houseClear (s : State) : State :=
  (tfind (fun _ x => x.house && x.state ≠ .free) s.tasks).foldl (fun s t => taskSet t {} (evict t s)) s

/-- The new image runs (R97, R484). -/
def imageSwitch (k : Nat) (s : State) : State :=
  houseClear s |> bootMod (fun b => { b with lastSlot := k }) |> regSetFld (pgPwr + 0x10C) 1 0 k |> firmwareStart |> slotPend k

/-- ACTIVATION_END (R97): the new image runs; fetch resumes and the Commit completes at the next pick boundary (`activateDone`). With
`ok` false, or after 50,000 picks, the image has not come up and the old one stays (DEDUCED, log entry 52). -/
def execActivationEnd (ok : Bool) (s : State) : Host.Outcome State Fault Refusal :=
  let asked := s.due.any fun d => match d with
    | .actDone _ => true
    | _ => false
  if s.qe.actPhase ≠ 2 || asked || pfOn s then .next s
  else
    let good := ok && pickN s ≤ s.qe.actDrain + 50000
    .next (later (.actDone good) (if good then imageSwitch s.qe.actSlot s else s))

end Sys2Proof.Machine
end

