-- ==== Sys2Proof/Machine/Izkin.lean ====
section
/-!
DEFINITION. How a core runs one instruction (R312 to R321, R335, R336): the task it runs, stack operands, windows, loads and
stores, completion and traps. The instruction groups themselves are in IzAlu.lean, IzMem.lean and IzTask.lean.
-/
namespace Sys2Proof.Machine

/-- What an instruction comes to. -/
inductive IzOut where
  /-- It completes: the task's new stacks, pc, frame and search state, the state apart from the task, and its clocks. -/
  | go (x : Task) (s : State) (clk : Nat)
  /-- It completes and the state already holds the task. -/
  | done (s : State) (clk : Nat)
  /-- It traps: code, USER, faulting address, and the state left behind. -/
  | trap (code user addr : Nat) (s : State)
  /-- It waits in a state of `IZK_STAT` and has had no effect (R337, R360). -/
  | stall (stat : Nat)
  /-- Its immediate is undefined. -/
  | undef

/-- The task that core `n` runs, while the core may run. -/
def izTask (n : Nat) (s : State) : Option Nat := if coreRuns n s then (coreGet n s).task else none

/-- A completed instruction is counted and charged (R344, R359), the task's posted stores come nearer to being visible (R318), and a core
that goes on fetches its next instruction (R313). -/
def izDone (n t clk : Nat) (s : State) : State :=
  s |> coreMod n (fun c => { c with stat := if c.task.isSome then 1 else c.stat }) |> regAdd (pgIzk n + 0x120) 1 |> chargeClk n t clk
    |> taskMod t (fun x => { x with stores := (x.stores.map (· - clk)).filter (0 < ·) }) |> codeFetch n

/-- The wait of a store for room among the 16 that a core may have outstanding (R318). -/
def storeWait (x : Task) : Nat := if x.stores.length < 16 then 0 else x.stores.foldl min (x.stores.headD 0)

/-- The wait of a FENCE for the latest of the core's stores to be visible (R318, R319). -/
def fenceClk (x : Task) : Nat := x.stores.foldl max 0
/-- A task behind a FENCE. -/
def Task.fenced (x : Task) : Task := { x with stores := [] }

/-- Runs one instruction of `len` bytes on core `n`. `f` gets the task with its pc behind the instruction. A store that received
an error response traps first (R335); results beyond 32 data or 16 return entries trap with 0x02. With no task on the core
nothing happens (log entry 33). -/
def izRun (n len : Nat) (f : Nat → Task → State → IzOut) (s : State) : Host.Outcome State Fault Refusal :=
  if 128 ≤ n then .fault .noSuchUnit
  else match izTask n s with
    | none => .next s
    | some t =>
      let x := taskGet t s
      if x.storeErr then .next (trapTask n t 0x0A 0 0 (taskSet t { x with storeErr := false } s))
      else match f t { x with pc := x.pc + BitVec.ofNat 24 len } s with
        | .go y u clk =>
          if 32 < y.stack.length || 16 < y.rstack.length then .next (trapTask n t 0x02 0 0 s)
          else .next (izDone n t clk (taskSet t y u))
        | .done u clk => .next (izDone n t clk u)
        | .trap code user addr u => .next (trapTask n t code user addr u)
        | .stall k => .next (coreMod n (fun c => { c with stat := k }) s)
        | .undef => .fault .undefinedImmediate

/-! ### Stack operands: an underflow traps with 0x02 -/

def under (s : State) : IzOut := .trap 0x02 0 0 s

/-- One operand: the top. -/
def izPop1 (x : Task) (s : State) (f : W64 → Task → IzOut) : IzOut :=
  match x.stack with
  | a :: r => f a { x with stack := r }
  | _ => under s
/-- Two operands ( a b -- ). -/
def izPop2 (x : Task) (s : State) (f : W64 → W64 → Task → IzOut) : IzOut :=
  match x.stack with
  | b :: a :: r => f a b { x with stack := r }
  | _ => under s
/-- Three operands ( a b c -- ). -/
def izPop3 (x : Task) (s : State) (f : W64 → W64 → W64 → Task → IzOut) : IzOut :=
  match x.stack with
  | c :: b :: a :: r => f a b c { x with stack := r }
  | _ => under s
/-- Four operands ( a b c d -- ). -/
def izPop4 (x : Task) (s : State) (f : W64 → W64 → W64 → W64 → Task → IzOut) : IzOut :=
  match x.stack with
  | d :: c :: b :: a :: r => f a b c d { x with stack := r }
  | _ => under s

/-- Pushes a value. -/
def Task.psh (x : Task) (v : W64) : Task := { x with stack := v :: x.stack }
/-- Pushes a flag (R325). -/
def flag (b : Bool) : W64 := if b then 1 else 0
/-- A sign-extended immediate. -/
def sx {w : Nat} (v : BitVec w) : W64 := v.signExtend 64
/-- A number as a stack entry. -/
def w64 (n : Nat) : W64 := BitVec.ofNat 64 n

/-- An instruction with no operand that pushes one value. -/
def iz0 (n len clk : Nat) (g : Nat → Task → State → W64) (s : State) : Host.Outcome State Fault Refusal :=
  izRun n len (fun t x s => .go (x.psh (g t x s)) s clk) s
/-- ( a -- r ). -/
def iz1 (n len clk : Nat) (g : W64 → W64) (s : State) : Host.Outcome State Fault Refusal :=
  izRun n len (fun _ x s => izPop1 x s fun a x => .go (x.psh (g a)) s clk) s
/-- ( a b -- r ). -/
def iz2 (n len clk : Nat) (g : W64 → W64 → W64) (s : State) : Host.Outcome State Fault Refusal :=
  izRun n len (fun _ x s => izPop2 x s fun a b x => .go (x.psh (g a b)) s clk) s
/-- ( a b c -- r ). -/
def iz3 (n len clk : Nat) (g : W64 → W64 → W64 → W64) (s : State) : Host.Outcome State Fault Refusal :=
  izRun n len (fun _ x s => izPop3 x s fun a b c x => .go (x.psh (g a b c)) s clk) s
/-- ( a -- r ) with an immediate whose range `ok` checks. -/
def iz1i (n len clk : Nat) (ok : Bool) (g : W64 → W64) (s : State) : Host.Outcome State Fault Refusal :=
  izRun n len (fun _ x s => if ok then izPop1 x s fun a x => .go (x.psh (g a)) s clk else .undef) s
/-- Rearranges the top of the stack: `k` entries, top first, become `g` of them. -/
def izStack (n len k : Nat) (g : List W64 → List W64) (s : State) : Host.Outcome State Fault Refusal :=
  izRun n len (fun _ x s => if x.stack.length < k then under s
    else .go { x with stack := g (x.stack.take k) ++ x.stack.drop k } s 1) s

/-! ### Windows (R314 to R317) -/

/-- Window `w` of a task: 0 its frame, 1 the image's constants (kept as space 4 here), the others its run's (R316, R370). -/
def winOf (x : Task) (w : Nat) (s : State) : Win :=
  let h := imgHead (taskImage x s) s
  if w = 0 then { space := 0, size := 64 * hdLocal h, rd := true, wr := true, atom := true }
  else if w = 1 then { space := 4, size := hdConst h, rd := true }
  else tget {} (runGet (if x.house then fwRun else x.run) s).wins w

/-- The image's WINDOWS field declares window `w` (R338). -/
def winDeclared (x : Task) (w : Nat) (s : State) : Bool := bit (hdWindows (imgHead (taskImage x s) s)) w

/-- The permission an access needs: RD, WR or ATOM (R315). -/
structure Need where
  rd : Bool := false
  wr : Bool := false
  atom : Bool := false

/-- Checks an access of `n` bytes at address `a` with an alignment (R317): the trap code, or the window and the offset. -/
def winCheck (x : Task) (a n align : Nat) (q : Need) (s : State) : Except Nat (Win × Nat) :=
  let w := winOf x (bits a 63 60) s
  let off := bits a 47 0
  if bits a 59 48 ≠ 0 || !winDeclared x (bits a 63 60) s || w.space = 15 then .error 0x03
  else if (q.rd && !w.rd) || (q.wr && !w.wr) || (q.atom && !w.atom) then .error 0x03
  else if w.size < off + n then .error 0x03
  else if off % max 1 align ≠ 0 then .error 0x04
  else .ok (w, off)

/-- Clocks from a load to its data in a window (R318). -/
def loadClk (x : Task) (w : Win) (off : Nat) (s : State) : Nat :=
  match w.space with
  | 0 => 2
  | 1 => 24
  | 3 => match windowAt x.func (w.base + off) 1 s with
    | some (0, _) => 24
    | _ => 264
  | _ => 264

/-- Clocks of issuing a store (R318). -/
def storeClk (w : Win) : Nat := if w.space = 0 then 1 else 2

/-- Reads `n` bytes of a window; none where the access receives an error response. -/
def winRead (x : Task) (w : Win) (off n : Nat) (s : State) : Option (Bytes × Bool) :=
  match w.space with
  | 0 => some (tgetBytes x.frame off n, false)
  | 1 => memRead 0 (w.base + off) n s
  | 2 => memRead 1 (w.base + off) n s
  | 3 => (windowAt x.func (w.base + off) n s).bind fun p => memRead p.1 p.2 n s
  | _ =>
    let k := taskImage x s
    let at_ := constAt (imgHead k s) + off
    if x.house then some (imgBytes k at_ n s, false) else memRead 1 (storeBase s + (imgGet k s).base + at_) n s

/-- The memory that `n` bytes of a window lie in: 0 Hamper, 1 DRAM, 2 the core's own frame or constants outside the DRAM; and their
address. -/
def winMem (x : Task) (w : Win) (off n : Nat) (s : State) : Nat × Nat :=
  match w.space with
  | 1 => (0, w.base + off)
  | 2 => (1, w.base + off)
  | 3 => (windowAt x.func (w.base + off) n s).getD (2, off)
  | 4 => if x.house then (2, off)
         else (1, storeBase s + (imgGet (taskImage x s) s).base + constAt (imgHead (taskImage x s) s) + off)
  | _ => (2, off)

/-- What a read of a window leaves behind, through the core's direct path (R185, R193). -/
def winMet (x : Task) (w : Win) (off n : Nat) (s : State) : State :=
  let p := winMem x w off n s
  if p.1 < 2 then memMet (.core x.lastCore) p.1 p.2 n s else s

/-- An access of a window that must wait for a closed crossing (R472). -/
def winWaits (x : Task) (w : Win) (off n : Nat) (s : State) : Bool :=
  let p := winMem x w off n s
  p.1 = 1 && dramWaits p.2 n s

/-- A write to a window loses a collision on some word (R190, R321). -/
def winLoses (x : Task) (w : Win) (off n : Nat) (s : State) : Bool :=
  let p := winMem x w off n s
  memLoses (.core x.lastCore) p.1 p.2 n s

/-- A core's write to memory: a loss sets the task's collision flag and counts (R321). -/
def corePut (x : Task) (space a : Nat) (bs : Bytes) (poison : Bool) (s : State) : Option (Task × State) :=
  (memWrite (.core x.lastCore) space a bs poison s).map fun u =>
    if memLoses (.core x.lastCore) space a bs.length s then ({ x with coll := true }, regAdd (pgIzk x.lastCore + 0x140) 1 u) else (x, u)

/-- Writes bytes to a window; none where the access receives an error response. -/
def winWrite (x : Task) (w : Win) (off : Nat) (bs : Bytes) (poison : Bool) (s : State) : Option (Task × State) :=
  match w.space with
  | 0 => some ({ x with frame := tsetBytes off bs x.frame }, s)
  | 1 => corePut x 0 (w.base + off) bs poison s
  | 2 => corePut x 1 (w.base + off) bs poison s
  | 3 => (windowAt x.func (w.base + off) bs.length s).bind fun p => corePut x p.1 p.2 bs poison s
  | _ => none

/-- A posted store that is issued `lead` clocks into its instruction (R318, R335): one that receives an error response traps at the next
instruction boundary. -/
def winPost (x : Task) (w : Win) (off lead : Nat) (bs : Bytes) (s : State) : Task × State :=
  match winWrite x w off bs false s with
  | some (y, u) => ({ y with stores := y.stores ++ [lead + (if w.space = 0 then 1 else loadClk x w off s)] }, u)
  | none => ({ x with storeErr := true }, s)

/-- A checked load whose data is consumed: poison traps with 0x05, an error response with 0x0A (R320, R335); it stalls while a crossing
is closed (R472). -/
def izLoad (x : Task) (a n align : Nat) (q : Need) (s : State) (f : Win → Nat → Bytes → State → IzOut) : IzOut :=
  match winCheck x a n align q s with
  | .error c => .trap c 0 a s
  | .ok (w, off) =>
    if winWaits x w off n s then .stall 2
    else match winRead x w off n s with
    | none => .trap 0x0A 0 a s
    | some (bs, p) =>
      let u := winMet x w off n s
      if p then .trap 0x05 0 a u else f w off bs u

end Sys2Proof.Machine
end

