-- ==== Sys2Proof/Machine/IzAlu.lean ====
section
/-!
DEFINITION. The Izkin instructions that touch only the stacks and the pc: the stack, arithmetic, bit, compare and control
groups and the arithmetic two-byte opcodes (R322 to R326, R333).
-/
namespace Sys2Proof.Machine

/-! ### Stack group (R322) -/

/-- NOP (R322): no effect. -/
def execIzNop (core : Nat) (s : State) : Host.Outcome State Fault Refusal :=
  izRun core 1 (fun _ x s => .go x s 1) s

/-- LIT8 (R322): the immediate, sign-extended. -/
def execIzLit8 (core : Nat) (imm : Byte) (s : State) : Host.Outcome State Fault Refusal :=
  iz0 core 2 1 (fun _ _ _ => sx imm) s

/-- LIT16 (R322): the immediate, sign-extended. -/
def execIzLit16 (core : Nat) (imm : W16) (s : State) : Host.Outcome State Fault Refusal :=
  iz0 core 3 1 (fun _ _ _ => sx imm) s

/-- LIT32 (R322): the immediate, sign-extended. -/
def execIzLit32 (core : Nat) (imm : W32) (s : State) : Host.Outcome State Fault Refusal :=
  iz0 core 5 1 (fun _ _ _ => sx imm) s

/-- LIT64 (R322): the immediate. -/
def execIzLit64 (core : Nat) (imm : W64) (s : State) : Host.Outcome State Fault Refusal :=
  iz0 core 9 1 (fun _ _ _ => imm) s

/-- DUP (R322): ( a -- a a ). -/
def execIzDup (core : Nat) (s : State) : Host.Outcome State Fault Refusal :=
  izStack core 1 1 (fun l => [l.getD 0 0, l.getD 0 0]) s

/-- DROP (R322): ( a -- ). -/
def execIzDrop (core : Nat) (s : State) : Host.Outcome State Fault Refusal :=
  izStack core 1 1 (fun _ => []) s

/-- SWAP (R322): ( a b -- b a ). -/
def execIzSwap (core : Nat) (s : State) : Host.Outcome State Fault Refusal :=
  izStack core 1 2 (fun l => [l.getD 1 0, l.getD 0 0]) s

/-- OVER (R322): ( a b -- a b a ). -/
def execIzOver (core : Nat) (s : State) : Host.Outcome State Fault Refusal :=
  izStack core 1 2 (fun l => [l.getD 1 0, l.getD 0 0, l.getD 1 0]) s

/-- ROT (R322): ( a b c -- b c a ). -/
def execIzRot (core : Nat) (s : State) : Host.Outcome State Fault Refusal :=
  izStack core 1 3 (fun l => [l.getD 2 0, l.getD 0 0, l.getD 1 0]) s

/-- NIP (R322): ( a b -- b ). -/
def execIzNip (core : Nat) (s : State) : Host.Outcome State Fault Refusal :=
  izStack core 1 2 (fun l => [l.getD 0 0]) s

/-- TUCK (R322): ( a b -- b a b ). -/
def execIzTuck (core : Nat) (s : State) : Host.Outcome State Fault Refusal :=
  izStack core 1 2 (fun l => [l.getD 0 0, l.getD 1 0, l.getD 0 0]) s

/-- NTH (R322): copies the entry i below the top, i = 0 to 30. -/
def execIzNth (core : Nat) (imm : Byte) (s : State) : Host.Outcome State Fault Refusal :=
  izRun core 2 (fun _ x s => if 30 < imm.toNat then .undef else match x.stack[imm.toNat]? with
    | some v => .go (x.psh v) s 1
    | none => under s) s

/-- SETN (R322): pops v and writes it over the entry that is then i below the top, i = 0 to 30. -/
def execIzSetn (core : Nat) (imm : Byte) (s : State) : Host.Outcome State Fault Refusal :=
  izRun core 2 (fun _ x s => if 30 < imm.toNat then .undef else izPop1 x s fun v x =>
    if x.stack.length ≤ imm.toNat then under s else .go { x with stack := x.stack.set imm.toNat v } s 1) s

/-- DROPN (R322): drops n entries, n = 1 to 32. -/
def execIzDropn (core : Nat) (imm : Byte) (s : State) : Host.Outcome State Fault Refusal :=
  if imm.toNat = 0 || 32 < imm.toNat then izRun core 2 (fun _ _ _ => .undef) s else izStack core 2 imm.toNat (fun _ => []) s

/-- DUP2 (R322): ( a b -- a b a b ). -/
def execIzDup2 (core : Nat) (s : State) : Host.Outcome State Fault Refusal :=
  izStack core 1 2 (fun l => [l.getD 0 0, l.getD 1 0, l.getD 0 0, l.getD 1 0]) s

/-- TOR (R322): ( a -- ); rs ( -- a ). -/
def execIzTor (core : Nat) (s : State) : Host.Outcome State Fault Refusal :=
  izRun core 1 (fun _ x s => izPop1 x s fun a x => .go { x with rstack := a :: x.rstack } s 1) s

/-- FROMR (R322): ( -- a ); rs ( a -- ). -/
def execIzFromr (core : Nat) (s : State) : Host.Outcome State Fault Refusal :=
  izRun core 1 (fun _ x s => match x.rstack with
    | a :: r => .go { x.psh a with rstack := r } s 1
    | [] => under s) s

/-- RFETCH (R322): ( -- a ); rs unchanged. -/
def execIzRfetch (core : Nat) (s : State) : Host.Outcome State Fault Refusal :=
  izRun core 1 (fun _ x s => match x.rstack with
    | a :: _ => .go (x.psh a) s 1
    | [] => under s) s

/-- DEPTH (R322): the data-stack depth before the instruction. -/
def execIzDepth (core : Nat) (s : State) : Host.Outcome State Fault Refusal :=
  iz0 core 1 1 (fun _ x _ => w64 x.stack.length) s

/-- LITW (R322): w × 2^60, w = 0 to 15. -/
def execIzLitw (core : Nat) (imm : Byte) (s : State) : Host.Outcome State Fault Refusal :=
  izRun core 2 (fun _ x s => if 15 < imm.toNat then .undef else .go (x.psh (w64 (imm.toNat * 2 ^ 60))) s 1) s

/-! ### Arithmetic and logic group (R323) -/

/-- Signed quotient toward zero; by 0 it is −1, and −2^63 ÷ −1 wraps to −2^63 (R323). -/
def divS (a b : W64) : W64 := if b = 0 then -1 else a.sdiv b
/-- Signed remainder with the sign of `a`; by 0 it is `a` (R323). -/
def remS (a b : W64) : W64 := if b = 0 then a else a.srem b
/-- A shift or rotate count: modulo 64. -/
def shiftN (n : W64) : Nat := n.toNat % 64
/-- Sign-extends the low `n` bytes. -/
def sextN (n : Nat) (a : W64) : W64 := BitVec.ofInt 64 (sgn (8 * n) a.toNat)
/-- Keeps the low `n` bytes. -/
def zextN (n : Nat) (a : W64) : W64 := w64 (a.toNat % 2 ^ (8 * n))
/-- SEXT and ZEXT take 1, 2 or 4 bytes. -/
def extOk (n : Nat) : Bool := n = 1 || n = 2 || n = 4

/-- ADD (R323): ( a b -- a+b ) modulo 2^64. -/
def execIzAdd (core : Nat) (s : State) : Host.Outcome State Fault Refusal :=
  iz2 core 1 1 (fun a b => a + b) s

/-- SUB (R323): ( a b -- a−b ). -/
def execIzSub (core : Nat) (s : State) : Host.Outcome State Fault Refusal :=
  iz2 core 1 1 (fun a b => a - b) s

/-- MUL (R323): low 64 bits of a × b. -/
def execIzMul (core : Nat) (s : State) : Host.Outcome State Fault Refusal :=
  iz2 core 1 3 (fun a b => a * b) s

/-- MULHU (R323): high 64 bits of the unsigned product. -/
def execIzMulhu (core : Nat) (s : State) : Host.Outcome State Fault Refusal :=
  iz2 core 1 4 (fun a b => w64 (a.toNat * b.toNat / 2 ^ 64)) s

/-- MULHS (R323): high 64 bits of the signed product. -/
def execIzMulhs (core : Nat) (s : State) : Host.Outcome State Fault Refusal :=
  iz2 core 1 4 (fun a b => BitVec.ofInt 64 (a.toInt * b.toInt / 2 ^ 64)) s

/-- DIVU (R323): unsigned quotient; by 0 it is 2^64 − 1. -/
def execIzDivu (core : Nat) (s : State) : Host.Outcome State Fault Refusal :=
  iz2 core 1 40 (fun a b => if b = 0 then -1 else a / b) s

/-- REMU (R323): unsigned remainder; by 0 it is a. -/
def execIzRemu (core : Nat) (s : State) : Host.Outcome State Fault Refusal :=
  iz2 core 1 40 (fun a b => if b = 0 then a else a % b) s

/-- DIVS (R323): signed quotient. -/
def execIzDivs (core : Nat) (s : State) : Host.Outcome State Fault Refusal :=
  iz2 core 1 40 (fun a b => divS a b) s

/-- REMS (R323): signed remainder. -/
def execIzRems (core : Nat) (s : State) : Host.Outcome State Fault Refusal :=
  iz2 core 1 40 (fun a b => remS a b) s

/-- NEG (R323): ( a -- −a ). -/
def execIzNeg (core : Nat) (s : State) : Host.Outcome State Fault Refusal :=
  iz1 core 1 1 (fun a => -a) s

/-- AND (R323): ( a b -- a∧b ). -/
def execIzAnd (core : Nat) (s : State) : Host.Outcome State Fault Refusal :=
  iz2 core 1 1 (fun a b => a &&& b) s

/-- OR (R323): ( a b -- a∨b ). -/
def execIzOr (core : Nat) (s : State) : Host.Outcome State Fault Refusal :=
  iz2 core 1 1 (fun a b => a ||| b) s

/-- XOR (R323): ( a b -- a⊕b ). -/
def execIzXor (core : Nat) (s : State) : Host.Outcome State Fault Refusal :=
  iz2 core 1 1 (fun a b => a ^^^ b) s

/-- NOT (R323): ( a -- ¬a ). -/
def execIzNot (core : Nat) (s : State) : Host.Outcome State Fault Refusal :=
  iz1 core 1 1 (fun a => ~~~a) s

/-- SHL (R323): ( a n -- r ) shift left. -/
def execIzShl (core : Nat) (s : State) : Host.Outcome State Fault Refusal :=
  iz2 core 1 1 (fun a b => a <<< shiftN b) s

/-- SHR (R323): ( a n -- r ) logical shift right. -/
def execIzShr (core : Nat) (s : State) : Host.Outcome State Fault Refusal :=
  iz2 core 1 1 (fun a b => a >>> shiftN b) s

/-- SAR (R323): ( a n -- r ) arithmetic shift right. -/
def execIzSar (core : Nat) (s : State) : Host.Outcome State Fault Refusal :=
  iz2 core 1 1 (fun a b => a.sshiftRight (shiftN b)) s

/-- ROL (R323): ( a n -- r ) rotate left. -/
def execIzRol (core : Nat) (s : State) : Host.Outcome State Fault Refusal :=
  iz2 core 1 1 (fun a b => a.rotateLeft (shiftN b)) s

/-- ROR (R323): ( a n -- r ) rotate right. -/
def execIzRor (core : Nat) (s : State) : Host.Outcome State Fault Refusal :=
  iz2 core 1 1 (fun a b => a.rotateRight (shiftN b)) s

/-- ADDI (R323): adds the sign-extended immediate. -/
def execIzAddi (core : Nat) (imm : Byte) (s : State) : Host.Outcome State Fault Refusal :=
  iz1i core 2 1 true (fun a => a + sx imm) s

/-- ADDI32 (R323): adds the sign-extended immediate. -/
def execIzAddi32 (core : Nat) (imm : W32) (s : State) : Host.Outcome State Fault Refusal :=
  iz1i core 5 1 true (fun a => a + sx imm) s

/-- ANDI (R323): and with the zero-extended immediate. -/
def execIzAndi (core : Nat) (imm : W32) (s : State) : Host.Outcome State Fault Refusal :=
  iz1i core 5 1 true (fun a => a &&& imm.zeroExtend 64) s

/-- SHLI (R323): shift by the immediate, 0 to 63. -/
def execIzShli (core : Nat) (imm : Byte) (s : State) : Host.Outcome State Fault Refusal :=
  iz1i core 2 1 (imm.toNat ≤ 63) (fun a => a <<< imm.toNat) s

/-- SHRI (R323): shift by the immediate, 0 to 63. -/
def execIzShri (core : Nat) (imm : Byte) (s : State) : Host.Outcome State Fault Refusal :=
  iz1i core 2 1 (imm.toNat ≤ 63) (fun a => a >>> imm.toNat) s

/-- SARI (R323): shift by the immediate, 0 to 63. -/
def execIzSari (core : Nat) (imm : Byte) (s : State) : Host.Outcome State Fault Refusal :=
  iz1i core 2 1 (imm.toNat ≤ 63) (fun a => a.sshiftRight imm.toNat) s

/-- MINU (R323): unsigned minimum. -/
def execIzMinu (core : Nat) (s : State) : Host.Outcome State Fault Refusal :=
  iz2 core 1 1 (fun a b => if a.toNat ≤ b.toNat then a else b) s

/-- MAXU (R323): unsigned maximum. -/
def execIzMaxu (core : Nat) (s : State) : Host.Outcome State Fault Refusal :=
  iz2 core 1 1 (fun a b => if a.toNat ≤ b.toNat then b else a) s

/-- MINS (R323): signed minimum. -/
def execIzMins (core : Nat) (s : State) : Host.Outcome State Fault Refusal :=
  iz2 core 1 1 (fun a b => if a.toInt ≤ b.toInt then a else b) s

/-- MAXS (R323): signed maximum. -/
def execIzMaxs (core : Nat) (s : State) : Host.Outcome State Fault Refusal :=
  iz2 core 1 1 (fun a b => if a.toInt ≤ b.toInt then b else a) s

/-- SEXT (R323): sign-extends the low n bytes, n = 1, 2 or 4. -/
def execIzSext (core : Nat) (imm : Byte) (s : State) : Host.Outcome State Fault Refusal :=
  iz1i core 2 1 (extOk imm.toNat) (sextN imm.toNat) s

/-- ZEXT (R323): keeps the low n bytes, n = 1, 2 or 4. -/
def execIzZext (core : Nat) (imm : Byte) (s : State) : Host.Outcome State Fault Refusal :=
  iz1i core 2 1 (extOk imm.toNat) (zextN imm.toNat) s

/-! ### Bit group (R324) -/

/-- Bits [lsb + width − 1 : lsb] of `a`, zero-extended. -/
def bfx (lsb width : Nat) (a : W64) : W64 := w64 (a.toNat / 2 ^ lsb % 2 ^ width)
/-- The same, sign-extended. -/
def bfxs (lsb width : Nat) (a : W64) : W64 := BitVec.ofInt 64 (sgn width (a.toNat / 2 ^ lsb))
/-- `a` with bits [lsb + width − 1 : lsb] replaced by the low bits of `v`. -/
def bfi (lsb width : Nat) (a v : W64) : W64 :=
  w64 (a.toNat - a.toNat / 2 ^ lsb % 2 ^ width * 2 ^ lsb + v.toNat % 2 ^ width * 2 ^ lsb)
/-- LSB and WIDTH of an immediate are in range. -/
def bfOk (imm : W16) : Bool := 1 ≤ imm.toNat / 256 && imm.toNat % 256 + imm.toNat / 256 ≤ 64
/-- LSB and WIDTH taken from the stack: LSB modulo 64, WIDTH at most 64 − LSB. -/
def bfLsb (l : W64) : Nat := l.toNat % 64
def bfWidth (l w : W64) : Nat := min w.toNat (64 - bfLsb l)
/-- Leading zero bits. -/
def clz (a : W64) : Nat := ((List.range 64).find? fun i => a.getLsbD (63 - i)).getD 64
/-- Trailing zero bits. -/
def ctz (a : W64) : Nat := ((List.range 64).find? fun i => a.getLsbD i).getD 64
/-- One bits. -/
def popc (a : W64) : Nat := ((List.range 64).filter fun i => a.getLsbD i).length
/-- Byte `k` of a word. -/
def byteOf (a : W64) (k : Nat) : Nat := a.toNat / 256 ^ k % 256
/-- A word from its 8 bytes. -/
def ofBytes8 (f : Nat → Nat) : W64 := w64 ((List.range 8).foldr (fun k r => f k % 256 + 256 * r) 0)
/-- BPERM: byte k is 0x00 where bit 7 of s's byte k is 1, else the byte of `a` that its bits [2:0] name. -/
def bperm (a s : W64) : W64 := ofBytes8 fun k => if 128 ≤ byteOf s k then 0 else byteOf a (byteOf s k % 8)

/-- CLZ (R324): leading zero bits; 64 for 0. -/
def execIzClz (core : Nat) (s : State) : Host.Outcome State Fault Refusal :=
  iz1 core 1 1 (fun a => w64 (clz a)) s

/-- CTZ (R324): trailing zero bits; 64 for 0. -/
def execIzCtz (core : Nat) (s : State) : Host.Outcome State Fault Refusal :=
  iz1 core 1 1 (fun a => w64 (ctz a)) s

/-- POPC (R324): one bits. -/
def execIzPopc (core : Nat) (s : State) : Host.Outcome State Fault Refusal :=
  iz1 core 1 1 (fun a => w64 (popc a)) s

/-- BFX (R324): extracts a field, zero-extended. -/
def execIzBfx (core : Nat) (imm : W16) (s : State) : Host.Outcome State Fault Refusal :=
  iz1i core 3 1 (bfOk imm) (bfx (imm.toNat % 256) (imm.toNat / 256)) s

/-- BFXS (R324): extracts a field, sign-extended. -/
def execIzBfxs (core : Nat) (imm : W16) (s : State) : Host.Outcome State Fault Refusal :=
  iz1i core 3 1 (bfOk imm) (bfxs (imm.toNat % 256) (imm.toNat / 256)) s

/-- BFI (R324): ( a v -- r ) inserts a field. -/
def execIzBfi (core : Nat) (imm : W16) (s : State) : Host.Outcome State Fault Refusal :=
  izRun core 3 (fun _ x s => if bfOk imm then izPop2 x s fun a v x => .go (x.psh (bfi (imm.toNat % 256) (imm.toNat / 256) a v)) s 1
    else .undef) s

/-- BPERM (R324): ( a s -- r ) permutes bytes. -/
def execIzBperm (core : Nat) (s : State) : Host.Outcome State Fault Refusal :=
  iz2 core 1 1 (fun a b => bperm a b) s

/-- BSWAP (R324): reverses the 8 bytes. -/
def execIzBswap (core : Nat) (s : State) : Host.Outcome State Fault Refusal :=
  iz1 core 1 1 (fun a => ofBytes8 fun k => byteOf a (7 - k)) s

/-- BFXV (R324): ( a lsb width -- f ). -/
def execIzBfxv (core : Nat) (s : State) : Host.Outcome State Fault Refusal :=
  iz3 core 1 1 (fun a l w => bfx (bfLsb l) (bfWidth l w) a) s

/-- BFIV (R324): ( a v lsb width -- r ). -/
def execIzBfiv (core : Nat) (s : State) : Host.Outcome State Fault Refusal :=
  izRun core 1 (fun _ x s => izPop4 x s fun a v l w x => .go (x.psh (bfi (bfLsb l) (bfWidth l w) a v)) s 1) s

/-- BPERMI (R324): as BPERM with s the immediate. -/
def execIzBpermi (core : Nat) (imm : W64) (s : State) : Host.Outcome State Fault Refusal :=
  iz1i core 9 1 true (fun a => bperm a imm) s

/-! ### Compare group (R325) -/

/-- EQ (R325): flag a = b. -/
def execIzEq (core : Nat) (s : State) : Host.Outcome State Fault Refusal :=
  iz2 core 1 1 (fun a b => flag (a = b)) s

/-- NE (R325): flag a ≠ b. -/
def execIzNe (core : Nat) (s : State) : Host.Outcome State Fault Refusal :=
  iz2 core 1 1 (fun a b => flag (a ≠ b)) s

/-- LTU (R325): flag unsigned a < b. -/
def execIzLtu (core : Nat) (s : State) : Host.Outcome State Fault Refusal :=
  iz2 core 1 1 (fun a b => flag (a.toNat < b.toNat)) s

/-- LEU (R325): flag unsigned a ≤ b. -/
def execIzLeu (core : Nat) (s : State) : Host.Outcome State Fault Refusal :=
  iz2 core 1 1 (fun a b => flag (a.toNat ≤ b.toNat)) s

/-- GTU (R325): flag unsigned a > b. -/
def execIzGtu (core : Nat) (s : State) : Host.Outcome State Fault Refusal :=
  iz2 core 1 1 (fun a b => flag (b.toNat < a.toNat)) s

/-- GEU (R325): flag unsigned a ≥ b. -/
def execIzGeu (core : Nat) (s : State) : Host.Outcome State Fault Refusal :=
  iz2 core 1 1 (fun a b => flag (b.toNat ≤ a.toNat)) s

/-- LTS (R325): flag signed a < b. -/
def execIzLts (core : Nat) (s : State) : Host.Outcome State Fault Refusal :=
  iz2 core 1 1 (fun a b => flag (a.toInt < b.toInt)) s

/-- LES (R325): flag signed a ≤ b. -/
def execIzLes (core : Nat) (s : State) : Host.Outcome State Fault Refusal :=
  iz2 core 1 1 (fun a b => flag (a.toInt ≤ b.toInt)) s

/-- GTS (R325): flag signed a > b. -/
def execIzGts (core : Nat) (s : State) : Host.Outcome State Fault Refusal :=
  iz2 core 1 1 (fun a b => flag (b.toInt < a.toInt)) s

/-- GES (R325): flag signed a ≥ b. -/
def execIzGes (core : Nat) (s : State) : Host.Outcome State Fault Refusal :=
  iz2 core 1 1 (fun a b => flag (b.toInt ≤ a.toInt)) s

/-- EQZ (R325): flag a = 0. -/
def execIzEqz (core : Nat) (s : State) : Host.Outcome State Fault Refusal :=
  iz1 core 1 1 (fun a => flag (a = 0)) s

/-- NEZ (R325): flag a ≠ 0. -/
def execIzNez (core : Nat) (s : State) : Host.Outcome State Fault Refusal :=
  iz1 core 1 1 (fun a => flag (a ≠ 0)) s

/-- SELECT (R325): ( a b c -- r ): a if c ≠ 0, otherwise b. -/
def execIzSelect (core : Nat) (s : State) : Host.Outcome State Fault Refusal :=
  iz3 core 1 1 (fun a b c => if c ≠ 0 then a else b) s

/-! ### Control group (R326) -/

/-- The task with its pc moved by a signed offset from the next instruction (R313). -/
def jump {w : Nat} (x : Task) (imm : BitVec w) : Task := { x with pc := x.pc + imm.signExtend 24 }
/-- A 32-bit offset: its low 24 bits move the 24-bit pc. -/
def jumpL (x : Task) (imm : W32) : Task := { x with pc := x.pc + imm.truncate 24 }

/-- JMP (R326): branches. -/
def execIzJmp (core : Nat) (imm : W16) (s : State) : Host.Outcome State Fault Refusal :=
  izRun core 3 (fun _ x s => .go (jump x imm) s 2) s

/-- JZ (R326): branches if c = 0. -/
def execIzJz (core : Nat) (imm : W16) (s : State) : Host.Outcome State Fault Refusal :=
  izRun core 3 (fun _ x s => izPop1 x s fun c x => if c = 0 then .go (jump x imm) s 2 else .go x s 1) s

/-- JNZ (R326): branches if c ≠ 0. -/
def execIzJnz (core : Nat) (imm : W16) (s : State) : Host.Outcome State Fault Refusal :=
  izRun core 3 (fun _ x s => izPop1 x s fun c x => if c ≠ 0 then .go (jump x imm) s 2 else .go x s 1) s

/-- JMPL (R326): branches, 32-bit offset. -/
def execIzJmpl (core : Nat) (imm : W32) (s : State) : Host.Outcome State Fault Refusal :=
  izRun core 5 (fun _ x s => .go (jumpL x imm) s 2) s

/-- JZL (R326): branches if c = 0, 32-bit offset. -/
def execIzJzl (core : Nat) (imm : W32) (s : State) : Host.Outcome State Fault Refusal :=
  izRun core 5 (fun _ x s => izPop1 x s fun c x => if c = 0 then .go (jumpL x imm) s 2 else .go x s 1) s

/-- JNZL (R326): branches if c ≠ 0, 32-bit offset. -/
def execIzJnzl (core : Nat) (imm : W32) (s : State) : Host.Outcome State Fault Refusal :=
  izRun core 5 (fun _ x s => izPop1 x s fun c x => if c ≠ 0 then .go (jumpL x imm) s 2 else .go x s 1) s

/-- CALL (R326): calls function-table entry i, no ENTRY function; the return address goes to the return stack. -/
def execIzCall (core : Nat) (imm : W16) (s : State) : Host.Outcome State Fault Refusal :=
  izRun core 3 (fun _ x s => match imgFun (taskImage x s) imm.toNat s with
    | none => .undef
    | some g => if g.entry then .undef
        else .go { x with rstack := x.pc.zeroExtend 64 :: x.rstack, pc := BitVec.ofNat 24 g.off } s 2) s

/-- RET (R326): returns to the caller. -/
def execIzRet (core : Nat) (s : State) : Host.Outcome State Fault Refusal :=
  izRun core 1 (fun _ x s => match x.rstack with
    | a :: r => .go { x with rstack := r, pc := a.truncate 24 } s 2
    | [] => under s) s

/-- LOOP (R326): subtracts 1 from the top of the return stack; branches if it is not 0, otherwise pops it. -/
def execIzLoop (core : Nat) (imm : W16) (s : State) : Host.Outcome State Fault Refusal :=
  izRun core 3 (fun _ x s => match x.rstack with
    | n :: r => if n - 1 ≠ 0 then .go { jump x imm with rstack := (n - 1) :: r } s 2 else .go { x with rstack := r } s 1
    | [] => under s) s

/-- TRAP (R326): trap 0x0B with USER = the immediate. -/
def execIzTrap (core : Nat) (imm : Byte) (s : State) : Host.Outcome State Fault Refusal :=
  izRun core 2 (fun _ _ s => .trap 0x0B imm.toNat 0 s) s

/-! ### Arithmetic of the two-byte group (R333) -/

/-- The carry-less product. -/
def clmul (a b : Nat) : Nat := (List.range 64).foldl (fun p i => if bit b i then Nat.xor p (a * 2 ^ i) else p) 0

/-- GFMUL (R333): bytewise product in GF(2^8). -/
def execIzGfmul (core : Nat) (s : State) : Host.Outcome State Fault Refusal :=
  iz2 core 2 2 (fun a b => ofBytes8 fun k => gfMul (byteOf a k) (byteOf b k)) s

/-- CLMUL (R333): low 64 bits of the carry-less product. -/
def execIzClmul (core : Nat) (s : State) : Host.Outcome State Fault Refusal :=
  iz2 core 2 3 (fun a b => w64 (clmul a.toNat b.toNat)) s

/-- CLMULH (R333): high 64 bits of the carry-less product. -/
def execIzClmulh (core : Nat) (s : State) : Host.Outcome State Fault Refusal :=
  iz2 core 2 3 (fun a b => w64 (clmul a.toNat b.toNat / 2 ^ 64)) s

end Sys2Proof.Machine
end

