-- ==== Sys2Proof/Machine/IzMem.lean ====
section
/-!
DEFINITION. The Izkin memory group and CRC32C (R318 to R321, R327, R333): loads, stores, atomics, COPY and FENCE.
-/
namespace Sys2Proof.Machine

/-- A load of `k` bytes at address `a` ( a -- v ), sign-extended when `signed` (R327). -/
def izLd (n k : Nat) (signed : Bool) (s : State) : Host.Outcome State Fault Refusal :=
  izRun n 1 (fun _ x s => izPop1 x s fun a x => izLoad x a.toNat k k { rd := true } s fun w off bs s =>
    let v := leNat bs
    .go (x.psh (if signed then BitVec.ofInt 64 (sgn (8 * k) v) else w64 v)) s (loadClk x w off s)) s

/-- A store of the low `k` bytes ( v a -- ) (R327); a seventeenth outstanding one stalls (R318). -/
def izSt (n k : Nat) (s : State) : Host.Outcome State Fault Refusal :=
  izRun n 1 (fun _ x s => izPop2 x s fun v a x => match winCheck x a.toNat k k { wr := true } s with
    | .error c => .trap c 0 a.toNat s
    | .ok (w, off) =>
      if winWaits x w off k s then .stall 2
      else
        let (y, u) := winPost x w off (storeWait x) (natLe k v.toNat) s
        .go y u (storeClk w + storeWait x)) s

/-- LD8 (R327). -/
def execIzLd8 (core : Nat) (s : State) : Host.Outcome State Fault Refusal := izLd core 1 false s
/-- LD16 (R327). -/
def execIzLd16 (core : Nat) (s : State) : Host.Outcome State Fault Refusal := izLd core 2 false s
/-- LD32 (R327). -/
def execIzLd32 (core : Nat) (s : State) : Host.Outcome State Fault Refusal := izLd core 4 false s
/-- LD64 (R327). -/
def execIzLd64 (core : Nat) (s : State) : Host.Outcome State Fault Refusal := izLd core 8 false s
/-- LDS8 (R327). -/
def execIzLds8 (core : Nat) (s : State) : Host.Outcome State Fault Refusal := izLd core 1 true s
/-- LDS16 (R327). -/
def execIzLds16 (core : Nat) (s : State) : Host.Outcome State Fault Refusal := izLd core 2 true s
/-- LDS32 (R327). -/
def execIzLds32 (core : Nat) (s : State) : Host.Outcome State Fault Refusal := izLd core 4 true s
/-- ST8 (R327). -/
def execIzSt8 (core : Nat) (s : State) : Host.Outcome State Fault Refusal := izSt core 1 s
/-- ST16 (R327). -/
def execIzSt16 (core : Nat) (s : State) : Host.Outcome State Fault Refusal := izSt core 2 s
/-- ST32 (R327). -/
def execIzSt32 (core : Nat) (s : State) : Host.Outcome State Fault Refusal := izSt core 4 s
/-- ST64 (R327). -/
def execIzSt64 (core : Nat) (s : State) : Host.Outcome State Fault Refusal := izSt core 8 s

/-- An atomic at address `a`: the old value is pushed, and `g` of it stored when there is one (R327); one that loses a collision pushes
0 (R321). -/
def izAtomic (x : Task) (a : Nat) (g : W64 → Option W64) (s : State) : IzOut :=
  izLoad x a 8 8 { atom := true } s fun w off bs s =>
    let old := w64 (leNat bs)
    let clk := loadClk x w off s + 4
    match g old with
    | none => .go (x.psh old) s clk
    | some v => match winWrite x w off (natLe 8 v.toNat) false s with
      | some (y, u) => .go (y.psh (if winLoses x w off 8 s then 0 else old)) u clk
      | none => .trap 0x0A 0 a s

/-- AADD ( v a -- old ): 64-bit atomic add (R327). -/
def execIzAadd (core : Nat) (s : State) : Host.Outcome State Fault Refusal :=
  izRun core 1 (fun _ x s => izPop2 x s fun v a x => izAtomic x a.toNat (fun old => some (old + v)) s) s

/-- CAS ( new exp a -- old ): stores new if the word equals exp (R327). -/
def execIzCas (core : Nat) (s : State) : Host.Outcome State Fault Refusal :=
  izRun core 1 (fun _ x s => izPop3 x s fun v e a x => izAtomic x a.toNat (fun old => if old = e then some v else none) s) s

/-- COLL ( -- f ): the collision flag, which it clears (R321). -/
def execIzColl (core : Nat) (s : State) : Host.Outcome State Fault Refusal :=
  izRun core 1 (fun _ x s => .go { x.psh (flag x.coll) with coll := false } s 1) s

/-- The memory that a window's offset lies in: space and address, to find overlapping ranges. -/
def winPlace (x : Task) (w : Win) (off : Nat) (s : State) : Nat × Nat :=
  match w.space with
  | 0 => (10, off)
  | 1 => (0, w.base + off)
  | 2 => (1, w.base + off)
  | 3 => (windowAt x.func (w.base + off) 1 s).getD (11, off)
  | _ => (12, off)

/-- Copies `k` pieces of 32 bytes, each with its poison mark (R195, R320). None: an access received an error response. -/
def copyPieces (v w : Win) (a b : Nat) : Nat → Nat → Task → State → Option (Task × State)
  | 0, _, x, s => some (x, s)
  | k + 1, i, x, s =>
    match winRead x v (a + 32 * i) 32 s with
    | none => none
    | some (bs, p) => (winWrite x w (b + 32 * i) bs p (winMet x v (a + 32 * i) 32 s)).bind fun q => copyPieces v w a b k (i + 1) q.1 q.2

/-- COPY ( src dst len -- ) (R327): len is a multiple of 64, from 64 to 4,096, and src and dst are multiples of 64, else trap 0x04
(a length outside that range as well: log entry 35). Overlapping ranges leave dst undefined: free bytes (log entry 5). -/
def execIzCopy (core : Nat) (s : State) : Host.Outcome State Fault Refusal :=
  izRun core 1 (fun _ x s => izPop3 x s fun src dst len x =>
    let n := len.toNat
    match winCheck x src.toNat n 64 { rd := true } s, winCheck x dst.toNat n 64 { wr := true } s with
    | .error c, _ => .trap c 0 src.toNat s
    | _, .error c => .trap c 0 dst.toNat s
    | .ok (v, a), .ok (w, b) =>
      if n % 64 ≠ 0 || n = 0 || 4096 < n then .trap 0x04 0 src.toNat s
      else if winWaits x v a n s || winWaits x w b n s then .stall 2
      else
        let p := winPlace x v a s
        let q := winPlace x w b s
        let clk := 2 + n / 64 + loadClk x v a s
        if p.1 = q.1 && p.2 < q.2 + n && q.2 < p.2 + n then
          let (bs, s1) := freeBytes n s
          match winWrite x w b bs false s1 with
          | some (y, u) => .go y u clk
          | none => .trap 0x0A 0 dst.toNat s
        else match copyPieces v w a b (n / 32) 0 x s with
          | some (y, u) => .go y u clk
          | none => .trap 0x0A 0 src.toNat s) s

/-- FENCE (R319): it lasts until every earlier store is visible; what a store writes is there as soon as it is issued. -/
def execIzFence (core : Nat) (s : State) : Host.Outcome State Fault Refusal :=
  izRun core 1 (fun _ x s => .go x.fenced s (max 1 (fenceClk x))) s

/-- CRC32C ( crc a len -- crc' ) (R333): poison traps with 0x05 (R320). A len above 4,096 has no stated result: a free value (log
entry 36). -/
def execIzCrc32c (core : Nat) (s : State) : Host.Outcome State Fault Refusal :=
  izRun core 2 (fun _ x s => izPop3 x s fun crc a len x =>
    let n := len.toNat
    if 4096 < n then
      let (k, s1) := draw s
      .go (x.psh (w64 (Config.freeChoice k))) s1 2
    else izLoad x a.toNat n 1 { rd := true } s fun w off bs s =>
      .go (x.psh (w64 (Nat.xor (crcRun (Nat.xor (crc.toNat % 2 ^ 32) 0xFFFFFFFF) bs) 0xFFFFFFFF))) s
        (2 + cdiv n 8 + loadClk x w off s)) s

end Sys2Proof.Machine
end

