-- ==== Sys2Proof/Machine/IzTask.lean ====
section
/-!
DEFINITION. The Izkin instructions that reach other blocks: SUBMIT and the task instructions (R328, R329), the Heddle group (R330,
R331), the feature registers and the unprivileged system instructions, and EVT (R332, R334).
-/
namespace Sys2Proof.Machine

/-! ### SUBMIT (R329) -/

/-- The bit of ENGINES that an agent's class has (R338). -/
def agentClass (a : Nat) : Nat :=
  if a < 0x40 then 0 else if a < 0x48 then 1 else if a < 0x50 then 2 else if a < 0x54 then 3 else if a < 0x56 then 4 else 5

/-- The agent is a Shuttle or a stream engine, the Mender's for firmware alone (R217, R412). -/
def isEngine (a : Nat) : Bool := a < 0x56 || (0x58 ≤ a && a < 0x60)

/-- Who may submit to an agent from cluster `k` (R206, R329 step 2). -/
def agentOk (x : Task) (k a : Nat) (s : State) : Bool :=
  if x.house then isEngine a || a = 0x61
  else isEngine a && bit (hdEngines (imgHead (taskImage x s) s)) (agentClass a) &&
    (0x40 ≤ a || (40 + 4 * (k - 2) ≤ a && a < 44 + 4 * (k - 2)))

/-- Byte `i` of a descriptor replaced. -/
def setByte (d : Bytes) (i v : Nat) : Bytes := d.set i (BitVec.ofNat 8 v)

/-- The descriptor that goes into the ring: a program's carries its function in FUNC and HOUSE 0 (R329 step 3). -/
def subDesc (x : Task) (a : Nat) (d : Bytes) : Bytes :=
  if x.house then d
  else if a < 0x40 then setByte d 0x16 (leAt d 0x16 1 / 128 * 128 + x.func)
  else setByte (setByte d 2 (leAt d 2 1 / 128 * 128 + x.func)) 1 (setBit (leAt d 1 1) 4 false)

/-- The task that a DEP_ flag of a descriptor names (R208, R243). -/
def subDep (a : Nat) (d : Bytes) : Option Nat :=
  if a < 0x40 then (if sdFlag d 5 || sdFlag d 6 || sdFlag d 7 then some (sdTask d) else none)
  else if edFlag d 3 then some (edTask a d) else none

/-- The agent's acceptance check (R210, R244, R263, R272, R303, R413): 0 or a code. A fenced agent ends its jobs with 0x08 (R463,
log entry 34). -/
def subCheck (a : Nat) (d : Bytes) (b : Back) (house : Bool) (s : State) : Nat :=
  let page := if a < 0x40 then pgShu a else engPage a
  let j : EngJob := { desc := d, prog := some b,
                      spec := if 0x58 ≤ a && a < 0x60 then (hamRead (leAt d 0x28 8) 256 s).1 else [] }
  if fenced page s then 0x08
  else if a < 0x40 then sdCheck a d house s
  else if a < 0x50 then tdCheck a j s % 256
  else if a < 0x54 then ddCheck a j s % 256
  else if a < 0x56 then kdCheck a j s % 256
  else if a < 0x60 then sjCheck a j s % 256
  else mdCheck a j s % 256

/-- The code that says access violation (R210 step 4, R244 step 3). -/
def accessCode (a : Nat) : Nat := if a < 0x40 then 0x04 else 0x05

/-- Puts a descriptor into an agent's ring. None: the Hamper answered with an error response. -/
def subQueue (a : Nat) (d : Bytes) (b : Back) (s : State) : Option State :=
  let page := if a < 0x40 then pgShu a else engPage a
  let t := ringTail page s
  (memWrite (.core (taskGet b.task s).lastCore) 0 (ringAt page t s) d false s).map fun u =>
    let u1 := regSetFld (page + 0x108) 9 0 ((t + 1) % ringLen page s) u
    if a < 0x40 then shuMod a (fun x => { x with back := tset none t (some b) x.back }) u1
    else engMod a (fun x => { x with back := tset none t (some b) x.back }) u1

/-- Steps 3 to 5 of SUBMIT, with the descriptor read at offset `off` of window `w`. -/
def submitWith (t : Nat) (x : Task) (a addr : Nat) (w : Win) (off : Nat) (raw : Bytes) (s : State) : IzOut :=
  let d := subDesc x a raw
  let place : Nat × Nat := match w.space with
    | 0 => (2, off)
    | 3 => (windowAt x.func (w.base + off) 64 s).getD (0, 0)
    | k => (k - 1, w.base + off)
  let b : Back := { task := t, space := place.1, addr := place.2 }
  let page := if a < 0x40 then pgShu a else engPage a
  let clk := 12 + loadClk x w off s + fenceClk x
  let x := x.fenced
  if (subDep a d).any fun u => !sameRun x u s then .trap 0x09 0 addr s
  else
    let c := subCheck a d b x.house s
    if c ≠ 0 then .go (x.psh (w64 c)) (if c = accessCode a && !x.house then illegalDma x.func s else s) clk
    else if (ringTail page s + 1) % ringLen page s = ringHead page s then .go (x.psh 0xFE) s clk
    else match subQueue a d b s with
      | none => .trap 0x0A 0 addr s
      | some u =>
        let u1 := taskSet t (x.psh 0) u
        .done (match subDep a d with
          | some k => taskMod k (fun y => { y with refs := y.refs + 1 }) u1
          | none => u1) clk

/-- SUBMIT ( d agent -- code ) (R329). -/
def execIzSubmit (core : Nat) (s : State) : Host.Outcome State Fault Refusal :=
  izRun core 1 (fun t x s => izPop2 x s fun d agent x =>
    let q : Need := { rd := true, wr := true }
    match winCheck x d.toNat 64 64 q s with
    | .error c => .trap c 0 d.toNat s
    | .ok _ =>
      if !agentOk x (core / 16) agent.toNat s then .trap 0x08 0 d.toNat s
      else izLoad x d.toNat 64 64 q s fun w off bs s => submitWith t x agent.toNat d.toNat w off bs s) s

/-! ### Tasks (R328) -/

/-- WAIT ( n -- ) (R328, R348). -/
def execIzWait (core : Nat) (s : State) : Host.Outcome State Fault Refusal :=
  izRun core 1 (fun t x s => izPop1 x s fun n x =>
    if 65535 < n.toNat then .trap 0x09 0 0 s
    else
      let k := 2 + fenceClk x
      let v := x.counter + BitVec.ofNat 16 n.toNat
      if v = 0 then .go { x.fenced with counter := v } s k
      else .done (s |> taskSet t { x.fenced with counter := v, state := .waiting } |> coreIdle core) k) s

/-- SPAWN ( arg fn count -- task ) (R328): the lowest usable entry of the reserve (log entry 6); blocks in state 5 while there is
none (R360). A count above 65,535 has no stated counter: a free value (log entry 29). -/
def execIzSpawn (core : Nat) (s : State) : Host.Outcome State Fault Refusal :=
  izRun core 1 (fun t x s => izPop3 x s fun arg fn count x =>
    let r := if x.house then fwRun else x.run
    match imgFun (taskImage x s) fn.toNat s with
    | none => .trap 0x09 0 0 s
    | some f =>
      if !f.entry then .trap 0x09 0 0 s
      else match (reserve r s).find? fun k => k ≠ t && taskUsable k s with
        | none => .stall 5
        | some k =>
          let (d, s1) := if 65535 < count.toNat then draw s else (0, s)
          let c := if 65535 < count.toNat then BitVec.ofNat 16 (Config.freeChoice d) else BitVec.ofNat 16 count.toNat
          match newTask r k f arg c (some (core / 16)) (taskSet t (x.fenced.psh (w64 k)) s1) with
          | some u => .done u (8 + fenceClk x)
          | none => .stall 5) s

/-- SIGNAL ( task -- ) (R328); it stalls in state 3 while the Itinerary holds the decrement back (R360). -/
def execIzSignal (core : Nat) (s : State) : Host.Outcome State Fault Refusal :=
  izRun core 1 (fun t x s => izPop1 x s fun k x =>
    if !sameRun x k.toNat s then .trap 0x09 0 0 s
    else match tryDec k.toNat (taskSet t x.fenced s) with
      | some u => .done u (2 + fenceClk x)
      | none => .stall 3) s

/-- YIELD (R328): the activation ends and the task is requeued ready. -/
def execIzYield (core : Nat) (s : State) : Host.Outcome State Fault Refusal :=
  izRun core 1 (fun t x s => .done (s |> taskSet t x.fenced |> coreIdle core |> requeue t) (2 + fenceClk x)) s

/-- END (R328): the task ends. -/
def execIzEnd (core : Nat) (s : State) : Host.Outcome State Fault Refusal :=
  izRun core 1 (fun t x s => .done (s |> taskSet t x.fenced |> taskEnd core t) (2 + fenceClk x)) s

/-- SELF ( -- task ) (R328). -/
def execIzSelf (core : Nat) (s : State) : Host.Outcome State Fault Refusal := iz0 core 1 1 (fun t _ _ => w64 t) s

/-- PNOW ( -- p ): the pick counter (R21, R328). -/
def execIzPnow (core : Nat) (s : State) : Host.Outcome State Fault Refusal := iz0 core 1 4 (fun _ _ s => s.pick) s

/-! ### Heddle (R330, R331) -/

/-- Flags of a result: HIT, MULTI, STALE, FULL, LOST, FENCED. -/
def hedFlags (r : HedRes) : W64 :=
  w64 (b2n r.hit + 2 * b2n r.multi + 4 * b2n r.stale + 8 * b2n r.full + 16 * b2n r.lost + 32 * b2n r.fenced)

/-- The group is enabled and the task's own (R331). -/
def grpMine (x : Task) (g : Nat) (s : State) : Bool := g < 8 && grpEn g s && grpOwned g x.func x.house s

/-- Clocks of a search (R288). -/
def searchClk (g : Nat) (s : State) : Nat := if grpW g s = 4 then 8 else 6

/-- A search's result: ENTRY to dst when HIT is 1, then index and flags; index is 2^64 − 1 without a hit (R331). -/
def searchDone (x : Task) (q : Search) (w : Win) (off g clk : Nat) (r : HedRes) (s : State) : IzOut :=
  let (y, u) := if r.hit then winPost x w off (clk - storeClk w) (natLe (12 * grpW g s) r.entry) s else (x, s)
  .go ({ y with search := q }.psh (if r.hit then w64 r.index else -1) |>.psh (hedFlags r)) u clk

/-- HSRCH ( dst key grp -- index flags ) (R330). -/
def execIzHsrch (core : Nat) (s : State) : Host.Outcome State Fault Refusal :=
  izRun core 1 (fun _ x s => izPop3 x s fun dst key grp x =>
    let g := grp.toNat
    let n := 12 * grpW g s
    if !grpMine x g s then .trap 0x07 0 0 s
    else match winCheck x dst.toNat n 4 { wr := true } s with
      | .error c => .trap c 0 dst.toNat s
      | .ok (w, off) => if winWaits x w off n s then .stall 2 else izLoad x key.toNat n 4 { rd := true } s fun _ _ bs s =>
        let (r, q, u) := hedSearch g (leNat bs) (2 ^ 384 - 1) s
        searchDone x q w off g (4 + searchClk g s) r u) s

/-- HSRCHM ( dst mask key grp -- index flags ) (R330). -/
def execIzHsrchm (core : Nat) (s : State) : Host.Outcome State Fault Refusal :=
  izRun core 1 (fun _ x s => izPop4 x s fun dst mask key grp x =>
    let g := grp.toNat
    let n := 12 * grpW g s
    if !grpMine x g s then .trap 0x07 0 0 s
    else match winCheck x dst.toNat n 4 { wr := true } s with
      | .error c => .trap c 0 dst.toNat s
      | .ok (w, off) => if winWaits x w off n s then .stall 2 else izLoad x key.toNat n 4 { rd := true } s fun _ _ bs s =>
        izLoad x mask.toNat n 4 { rd := true } s fun _ _ ms s =>
          let (r, q, u) := hedSearch g (leNat bs) (leNat ms) s
          searchDone x q w off g (6 + searchClk g s) r u) s

/-- HNEXT ( dst -- index flags ) (R330, R331). A search state whose group is no longer enabled, or the task's own, traps with 0x07
(DEDUCED, log entry 111). -/
def execIzHnext (core : Nat) (s : State) : Host.Outcome State Fault Refusal :=
  izRun core 1 (fun _ x s => izPop1 x s fun dst x =>
    let g := x.search.group
    if x.search.hit && !grpMine x g s then .trap 0x07 0 0 s
    else match winCheck x dst.toNat (12 * grpW g s) 4 { wr := true } s with
    | .error c => .trap c 0 dst.toNat s
    | .ok (w, off) =>
      if winWaits x w off (12 * grpW g s) s then .stall 2
      else
        let (r, q, u) := hedNext x.search s
        searchDone x q w off g (2 + searchClk g s) r u) s

/-- An INSERT would pass the tiles that a cut has left to the group's function: it returns FULL (R444, log entry 31). -/
def grpCut (g : Nat) (s : State) : Bool :=
  let f := bits (grpCfg g s) 30 24
  bit (fnGet f s).pendingCut.toNat 2 && !bit (grpCfg g s) 31 &&
  2048 * (portionOf f s).hedTiles / grpW g s * grpW g s < (hedValid g s).length + 1

/-- HINS ( key pos grp -- index flags ) (R330, R331). -/
def execIzHins (core : Nat) (s : State) : Host.Outcome State Fault Refusal :=
  izRun core 1 (fun _ x s => izPop3 x s fun key pos grp x =>
    let g := grp.toNat
    if !grpMine x g s then .trap 0x07 0 0 s
    else izLoad x key.toNat (12 * grpW g s) 4 { rd := true } s fun _ _ bs s =>
      let p := if pos = -1 then none else some (min pos.toNat (grpE g s))
      let (r, u) : HedRes × State := if !grpFenced g s && grpCut g s then ({ full := true }, regAdd (pgGrp g + 0x158) 1 (tileOps g 1 s))
        else hedInsert g (leNat bs) p s
      let m := regGet (pgGrp g + 0x160) u - regGet (pgGrp g + 0x160) s
      .go ((x.psh (if r.full || r.fenced then -1 else w64 r.index)).psh (hedFlags r)) u (6 + cdiv m 16)) s

/-- HDEL ( index grp -- flags ) (R330, R331): an index of E or more changes nothing. -/
def execIzHdel (core : Nat) (s : State) : Host.Outcome State Fault Refusal :=
  izRun core 1 (fun _ x s => izPop2 x s fun i grp x =>
    let g := grp.toNat
    if !grpMine x g s then .trap 0x07 0 0 s
    else if grpE g s ≤ i.toNat then .go (x.psh 0) s 4
    else
      let (r, u) := hedDelete g i.toNat s
      .go (x.psh (hedFlags r)) u 4) s

/-! ### System (R332, R334) -/

/-- A bit for each of `n` engines from page `p 0` on that is not fenced. -/
def usable (n : Nat) (p : Nat → Nat) (s : State) : Nat := (List.range n).foldl (fun v i => v + (if fenced (p i) s then 0 else 2 ^ i)) 0

/-- FEAT0 to FEAT3 (R334) as core `n` reads them. -/
def featReg (n j : Nat) (s : State) : Nat :=
  match j with
  | 0 => 0x1F
  | 1 => 0x0008004010101020
  | 2 => usable 8 pgTwc s + usable 8 pgTwd s * 2 ^ 8 + usable 4 pgDig s * 2 ^ 16 + usable 2 pgKck s * 2 ^ 20 + usable 8 pgScn s * 2 ^ 24
  | _ => 0x00B10100 + (if n < 32 then 2 ^ 24 else 0)

/-- FEAT ( -- v ), n = 0 to 3 (R332). -/
def execIzFeat (core : Nat) (imm : Byte) (s : State) : Host.Outcome State Fault Refusal :=
  izRun core 2 (fun _ x s => if 3 < imm.toNat then .undef else .go (x.psh (w64 (featReg core imm.toNat s))) s 1) s

/-- CORE ( -- n ) (R332). -/
def execIzCore (core : Nat) (s : State) : Host.Outcome State Fault Refusal := iz0 core 1 1 (fun _ _ _ => w64 core) s

/-- FUNCN ( -- f ) (R332): the run's function; 0x80 for a firmware task. -/
def execIzFuncn (core : Nat) (s : State) : Host.Outcome State Fault Refusal :=
  iz0 core 1 1 (fun _ x _ => w64 (if x.house then 0x80 else x.func)) s

/-- EVT ( code -- ), privileged (R332): an informational event of the core's page in the event log. -/
def execIzEvt (core : Nat) (s : State) : Host.Outcome State Fault Refusal :=
  izRun core 1 (fun _ x s =>
    if !x.house then .trap 0x06 0 0 s
    else izPop1 x s fun c x =>
      .go x (logEvent { code := BitVec.ofNat 16 c.toNat, inst := BitVec.ofNat 8 core, cls := 0, pick := BitVec.ofNat 48 (pickN s) } s) 2) s

end Sys2Proof.Machine
end

