-- ==== Sys2Proof/Machine/WeftView.lean ====
section
/-!
DEFINITION. What a Weft read shows (R34, R37, R49 and the register tables of every chapter): counters under snapshot show the
captured set, registers that mirror state of their own are computed from it, every other register shows its stored value.
-/
namespace Sys2Proof.Machine

/-- A number with a bit for each `i` below `n` that `p` picks. -/
def maskBits (n : Nat) (p : Nat → Bool) : Nat := ((List.range n).filter p).foldl (fun m i => m + 2 ^ i) 0

/-! ### Engines and Shuttles -/

/-- `SHU_STATE` (R223). -/
def shuState (k : Nat) (s : State) : Nat :=
  let x := shuGet k s
  if bit (regGet (pgShu k + 0x110) s) 0 then 5
  else if x.heldDec.isSome then 4
  else if x.job.isNone then 0
  else if x.wait ≠ 0 then x.wait else 1

/-- What a job of an engine that may not run its next slice waits for: 3 a budget, 6 a digest context, 2 a line. -/
def jobWait (a : Nat) (j : EngJob) (s : State) : Nat :=
  if j.code.isSome || runnable a j s then 1
  else if !edHouse a j.desc && spent (edFunc a j.desc) (engRate a) s then 3
  else if 0x50 ≤ a && a < 0x54 && (edIn j.desc).isNone then 6
  else 2

/-- STATE, SLOTS and RUN_SLOT of an engine (R254, R282, R310, R430): with no slot running, what its first job waits for. -/
def engState (a : Nat) (s : State) : Nat :=
  let x := engGet a s
  let st := if x.stopped then 5
    else match x.running, x.jobs with
      | some _, _ => 1
      | none, j :: _ => jobWait a j s
      | none, [] => 0
  st + (if a = 0x61 then 0 else x.jobs.length % 8 * 16 + x.running.getD 0 % 4 * 256)

/-- A ring has descriptors that its engine has not accepted. -/
def ringWork (page : Nat) (s : State) : Bool := ringHead page s ≠ ringTail page s

/-! ### The header (R37) -/

/-- PAGE_STAT.BUSY: the block of a page has work in progress. What counts is the model's reading (log entry 53). -/
def pageBusy (page : Nat) (s : State) : Bool :=
  let eng (a : Nat) : Bool := !(engGet a s).jobs.isEmpty || ringWork page s
  match pageAt page with
  | none => false
  | some p => match p.type with
    | 0x12 => !s.jnl.issued.isEmpty || !s.jnl.window.isEmpty
    | 0x20 => s.media.programs.any fun q => q.die / 16 / 8 = p.inst
    | 0x21 => (s.media.programs.any fun q => q.die / 16 = p.inst) || s.media.reads.any fun q => puaChan q.pua = p.inst
    | 0x30 => (shuGet p.inst s).job.isSome || ringWork page s
    | 0x31 | 0x32 | 0x33 | 0x34 | 0x35 => match allEngines.find? fun a => engPage a = page with
      | some a => eng a
      | none => false
    | 0x40 => (List.range 16).any fun i => (coreGet (16 * p.inst + i) s).task.isSome
    | 0x41 => (coreGet p.inst s).task.isSome
    | 0x42 => if p.index = 0 then (List.range 8).any fun k => !(readyOf k s).isEmpty else !(readyOf (p.index - 1) s).isEmpty
    | 0x50 => eng 0x61 || !s.mender.plans.isEmpty || !s.mender.hops.isEmpty
    | 0x51 => !s.party.out.isEmpty
    | 0x60 => inFlight s ≠ 0
    | 0x61 => fnInFlight p.inst false s ≠ 0
    | 0x70 => s.cxl.retraining
    | _ => false

/-- The header registers that show state of their own. -/
def viewHead (page off : Nat) (s : State) : Nat :=
  match off with
  | 0x010 => b2n (enabled page s) + 2 * b2n (resetting page s) + 4 * b2n (fenced page s)
  | 0x014 => b2n (pageBusy page s) + 2 * b2n (fenced page s) + 4 * b2n (errLive page s ≠ 0) + 8 * b2n (resetting page s)
  | _ => regGet (page + off) s

/-! ### Root and memory -/

/-- Branches (bit 16: the root) some page of which satisfies `p` (R51). -/
def branchMask (p : Nat → Bool) : Nat :=
  let l := (allPages.filter p).filterMap fun a => (pageAt a).map branchOf
  maskBits 17 l.contains

/-- Global pages 0 and 1 (R51, R480). -/
def viewGlb (index off : Nat) (s : State) : Nat :=
  if index = 0 then
    match off with
    | 0x100 => pickN s
    | 0x110 => 0x8832B100 + (if Config.gradeX then 2 else 1)
    | 0x120 => b2n (s.due.contains .snapAll)
    | 0x134 => branchMask fun a => errLive a s ≠ 0
    | 0x138 => branchMask fun a => fenced a s
    | _ => regGet (pgGlb + off) s
  else
    match off with
    | 0x100 => s.log.head.toNat
    | 0x104 => s.log.dropped.toNat
    | 0x110 => leAt (logBytes s.log.captured) 0 8
    | 0x118 => leAt (logBytes s.log.captured) 8 8
    | _ => regGet (pgLog + off) s

/-- `HAM_CAND[i]` (R204). -/
def candWord (i : Nat) (s : State) : Nat :=
  match s.hamx.cands[i]? with
  | some c => 2 ^ 63 + b2n c.ue * 2 ^ 62 + min 65535 c.count * 2 ^ 32 + c.row % 8192 * 64 + c.bank % 64
  | none => 0

/-- Spare rows left in a bank (R200). -/
def spareRows (bank : Nat) (s : State) : Nat := 16 - ((fuseRows s).filter (·.bank = bank)).length

/-- Hamper page 1 (R204). -/
def viewHamS (off : Nat) (s : State) : Nat :=
  if off = 0x104 then s.hamx.scrubPos
  else if off = 0x120 then s.ddr.scrubPos
  else if off = 0x130 then s.hamx.active.length % 2048 + s.hamx.field.length % 128 * 65536
  else if 0x140 ≤ off && off < 0x1C0 then candWord ((off - 0x140) / 8) s
  else if 0x200 ≤ off && off < 0x240 then
    leNat ((List.range 4).map fun k => BitVec.ofNat 8 (spareRows (4 * ((off - 0x200) / 4) + k) s))
  else regGet (pgHamS + off) s

/-- The DRAM pages (R180, R182). -/
def viewDdr (index off : Nat) (s : State) : Nat :=
  if index = 0 then
    match off with
    | 0x100 => if s.ddr.trained then s.ddr.speed + 4 * b2n Config.rdimm + 4 * s.ddr.capGib * 256 else 0
    | 0x10C => b2n (s.pwr.ps = 3) + 2 * b2n (s.pwr.ps = 4)
    | _ => regGet (pgDdr + off) s
  else
    let c := index - 1
    let done := bit s.ddr.doneMask.toNat c
    match off with
    | 0x100 => b2n (s.ddr.trained && done) + 2 * b2n (fenced (pgDdrCh c) s) + (if done then s.ddr.capGib * 256 else 0)
    | _ => regGet (pgDdrCh c + off) s

/-- `JNL_STATE` (R181). -/
def jnlState (s : State) : Nat :=
  (if !s.jnl.indexed then 1 else if allBuilt s then 0 else 2) + 4 * b2n (s.jnl.pf = .sealed || (s.jnl.indexed && s.die.sealed)) +
  8 * b2n (s.die.sealReason = 4) + 16 * b2n s.jnl.holdupFail + 32 * b2n s.jnl.ringHold

/-- The journal page (R181). -/
def viewJnl (off : Nat) (s : State) : Nat :=
  match off with
  | 0x100 => position (jHead s)
  | 0x104 => position (jTail s)
  | 0x108 => jUsed s
  | 0x124 => jnlState s
  | 0x128 => if s.jnl.indexed then segTotal s - s.jnl.segs.length + segTotal s * 65536 else 0
  | 0x12C => s.jnl.promoQ.length
  | _ => regGet (pgJnl + off) s

/-! ### Flash -/

/-- A quadrant page (R147). -/
def viewFlc (q off : Nat) (s : State) : Nat :=
  match off with
  | 0x100 => maskBits 8 (fun i => chanDies (8 * q + i) s ≠ 0) + maskBits 8 (fun i => chanFenced (8 * q + i) s) * 256
  | 0x208 => slcHeld s % 65536 + s.media.slcT % 65536 * 65536
  | 0x20C => freeN s % 65536 + reserveN s % 65536 * 65536
  | 0x218 => flcState s
  | 0x220 => s.media.spareInit
  | 0x224 => s.media.spareLeft
  | 0x228 => (wearUnits s).1 % 65536 + (wearUnits s).2 % 65536 * 65536
  | _ => regGet (pgFlc q + off) s

/-- The hottest usable die of a channel, the lowest index on a tie (R145). -/
def hotDie (c : Nat) (s : State) : Option Nat :=
  ((List.range 16).filter fun r => dieOk (dieNo c r) s).foldl (fun b r => match b with
    | none => some r
    | some q => if (dieGet (dieNo c q) s).temp < (dieGet (dieNo c r) s).temp then some r else b) none

/-- A channel page (R148). A die type whose FLAGS show no temperature sensor leaves the controller's sensor to tell (R145). -/
def viewFch (c off : Nat) (s : State) : Nat :=
  match off with
  | 0x100 => setBits (regGet (pgFch c + 0x100) s) 2 0 (if (chanGet c s).trained then (chanGet c s).bin else 0)
  | 0x104 => chanDies c s + chanGone c s * 65536
  | 0x108 => maskBits 16 fun r => dieHeld (dieNo c r) s || (dieGet (dieNo c r) s).read.isSome
  | 0x10C => match hotDie c s with
    | some r =>
      let d := dieGet (dieNo c r) s
      unsgn 8 d.temp + r * 256 + b2n (!bit (tget {} s.media.types d.type).flags 3) * 4096
    | none => 0
  | _ => regGet (pgFch c + off) s

/-! ### Engines -/

/-- A Shuttle page, with the lines in that of Shuttle 0 (R223, R224). -/
def viewShu (k off : Nat) (s : State) : Nat :=
  if off = 0x10C then shuState k s
  else if off = 0x110 then regFld (pgShu k + 0x110) 0 0 s
  else if k = 0 && 0x400 ≤ off && off < 0x600 && off % 16 = 8 then
    let x := lineGet ((off - 0x400) / 16) s
    x.fill % 2 ^ 19 + b2n x.ended * 2 ^ 19 + x.endLen % 2048 * 2 ^ 20
  else regGet (pgShu k + off) s

/-- `DIG_CTX[c]` (R282). -/
def digWord (c : Nat) (s : State) : Nat :=
  let x := tget {} s.digs c
  b2n x.alloc + 2 * b2n x.final + 4 * b2n x.sealed + 8 * b2n x.lenErr + 16 * b2n x.sha512 + 32 * b2n (x.user = .house) +
  x.func % 128 * 256 + x.absorbed % 2 ^ 48 * 65536

/-- The page of an engine; `a` its agent (R254, R282, R310, R430). -/
def viewEng (a off : Nat) (s : State) : Nat :=
  if off = 0x10C then engState a s
  else if off = 0x110 then regFld (engPage a + 0x110) 0 0 s
  else if a = 0x50 && 0x400 ≤ off && off < 0x600 then digWord ((off - 0x400) / 8) s
  else if a = 0x50 && off = 0x600 then (digFree s).length
  else if a = 0x54 && 0x400 ≤ off && off < 0x600 then
    let x := keyGet ((off - 0x400) / 16) s
    if off % 16 = 8 then x.used
    else (match x.state with
      | .empty => 0
      | .active => 1
      | .retired => 2) + x.role % 4 * 4 + b2n x.gen * 16 + x.owner % 128 * 256 + (x.limit - 1) % 2 ^ 32 * 2 ^ 32
  else if a = 0x54 && 0x608 ≤ off && off < 0x618 then maskBits 32 fun k => lockedOut (32 * ((off - 0x608) / 4) + k) s
  else regGet (engPage a + off) s

/-- Heddle tile and group pages (R308, R309). -/
def viewHed (index off : Nat) (s : State) : Nat :=
  if index < 48 then
    if off = 0x100 then
      let n := if index < 24 then
          (s.qe.guard_.filter fun e => e.1 / 2048 = index && e.2.isSome).length
        else (s.hed.filter fun e => e.1 / 2048 = index && e.2.seenValid).length
      let g := if index < 24 then none else tileGroup index s
      min 4095 n + (match g with
        | some g => g * 65536 + 2 ^ 19
        | none => 0) + b2n (index < 24) * 2 ^ 20
    else regGet (pgTile index + off) s
  else
    let g := index - 48
    match off with
    | 0x104 => regGet (pgGrp g + 0x104) s % 4 / 2 * 2
    | 0x108 => (if grpEn g s then (hedValid g s).length else 0) + regFld (pgGrp g + 0x108) 18 18 s * 2 ^ 18
    | 0x10C => (tget {} s.hgrp g).gen.toNat
    | _ => regGet (pgGrp g + off) s

/-! ### Cores and the Itinerary -/

/-- Where a task's constant section lies: behind its image in the program store; the firmware's in the firmware area (DESIGN CHOICE,
log entry 2). -/
def constPlace (x : Task) (s : State) : Nat × Nat :=
  let k := taskImage x s
  if x.house then (1, (region 1 s).1) else (2, storeBase s + (imgGet k s).base + constAt (imgHead k s))

/-- The window table of the running task: bytes 0 to 7 and 8 to 15 of an entry (R315, R344). -/
def winWord (n w : Nat) (s : State) : Nat × Nat :=
  match (coreGet n s).task with
  | none => (0xF * 2 ^ 48, 0)
  | some t =>
    let x := taskGet t s
    let q := winOf x w s
    let (space, base) := if q.space = 4 then constPlace x s else (q.space, q.base)
    (base % 2 ^ 48 + space * 2 ^ 48 + b2n q.rd * 2 ^ 52 + b2n q.wr * 2 ^ 53 + b2n q.atom * 2 ^ 54, q.size % 2 ^ 48)

/-- A core page (R344). -/
def viewIzk (n off : Nat) (s : State) : Nat :=
  let c := coreGet n s
  if off = 0x100 then
    c.stat % 8 + b2n (n < 32) * 256 + (match c.task with
      | some t => if (taskGet t s).house then 0 else (taskGet t s).func % 128 * 65536
      | none => 0)
  else if off = 0x104 then c.task.elim 0 (· + 2 ^ 31)
  else if off = 0x108 then c.task.elim 0 fun t => (taskGet t s).pc.toNat
  else if 0x180 ≤ off && off < 0x1A0 then featReg n ((off - 0x180) / 8) s
  else if 0x200 ≤ off && off < 0x300 then
    if off % 16 = 8 then (winWord n ((off - 0x200) / 16) s).2 else (winWord n ((off - 0x200) / 16) s).1
  else regGet (pgIzk n + off) s

/-- A cluster page (R378). -/
def viewIzc (k off : Nat) (s : State) : Nat :=
  if off = 0x100 then
    maskBits 16 (fun i => (coreGet (16 * k + i) s).stat = 4) + maskBits 16 (fun i => fenced (pgIzk (16 * k + i)) s) * 65536
  else regGet (pgIzc k + off) s

/-- Free program task entries (R377). -/
def freeProg (s : State) : Nat :=
  57344 - (s.tasks.filter fun e => 8192 ≤ e.1 && e.1 < 65536 && !taskUsable e.1 s).length

/-- Runs that hold a run ID, the firmware image's apart (R372, R377). -/
def runCount (p : Run → Bool) (s : State) : Nat := (s.runs.filter fun e => e.1 ≠ fwRun && e.2.used && p e.2).length

/-- The Itinerary's pages (R377). -/
def viewItn (index off : Nat) (s : State) : Nat :=
  if index = 0 then
    match off with
    | 0x100 => freeProg s + freeFw s / 2 * 2 ^ 17
    | 0x104 => b2n s.qe.bp + maskBits 8 (fun k => listFull k s) * 256
    | 0x140 => runCount (fun _ => true) s
    | _ => regGet (pgItn + off) s
  else
    let l := readyOf (index - 1) s
    match off with
    | 0x100 => l.length
    | 0x104 => maskBits 8 fun p => l.any fun t => (taskGet t s).prio = p
    | _ => regGet (pgItnRl (index - 1) + off) s

/-! ### Mender and Party -/

/-- The Mender page (R430). -/
def viewMnd (off : Nat) (s : State) : Nat :=
  let m := s.mender
  let held := m.stripes.filter fun e => e.2.held
  let plans (r : PlanRole) : Nat := (m.plans.filter fun p => p.role = r).length
  match off with
  | 0x144 => m.table + m.extents.length * 2 ^ 14
  | 0x148 => held.length
  | 0x14C => min 255 (held.filter fun e => e.2.state = .open_ && e.2.issued).length
  | 0x150 => m.queue.length
  | 0x154 => min 255 (plans .lead) + min 255 (plans .helper) * 256 + min 255 (plans .target) * 65536
  | 0x158 => 896 - (s.party.slots.filter fun e => e.2.granted).length
  | 0x15C => (held.filter fun e => e.2.state = .damaged).length
  | _ => viewEng 0x61 off s

/-- The Party page (R403). -/
def viewPty (off : Nat) (s : State) : Nat :=
  let p := s.party
  let r := p.roster
  let mem := isMember s
  let n (q : MState) : Nat := (rosterIn (· = q) r).length
  if 0x200 ≤ off && off < 0x280 then silentWord ((off - 0x200) / 4) s
  else if !mem && 0x104 ≤ off && off < 0x128 then 0
  else match off with
    | 0x100 => p.state.code + (if mem then p.index % 1024 * 65536 + b2n (steward r = some p.index) * 2 ^ 31 else 0)
    | 0x104 => r.epoch.toNat
    | 0x108 => r.partyId.toNat
    | 0x110 => rosterCrc r
    | 0x114 => r.issuer
    | 0x118 => n .active + n .away * 2 ^ 16 + n .lost * 2 ^ 32 + n .leaving * 2 ^ 48
    | 0x120 => r.lossS % 2 ^ 32 + r.awayS % 65536 * 2 ^ 32
    | 0x130 => (watched s).length + (watchedSilent s).length * 65536
    | 0x138 => p.boot
    | _ => regGet (pgPty + off) s

/-! ### Queue engine, functions, CXL -/

/-- What holds the fetch (R108 QEN_HOLD_CAUSE). -/
def holdCause (s : State) : Nat :=
  b2n (s.qe.actPhase ≠ 0) + 2 * b2n (16384 ≤ inFlight s) + 4 * b2n s.qe.bp + 8 * b2n s.qe.held

/-- The queue engine's pages (R108). -/
def viewQen (index off : Nat) (s : State) : Nat :=
  if index = 0 then
    if 0x200 ≤ off && off < 0x400 then fnInFlight ((off - 0x200) / 4) false s
    else match off with
      | 0x100 => inFlight s
      | 0x104 => regFld (pgQen + 0x104) 0 0 s + 2 * b2n (holdCause s ≠ 0)
      | 0x108 => holdCause s
      | 0x10C => b2n s.media.ro
      | 0x124 => wideInFlight s
      | _ => regGet (pgQen + off) s
  else
    if off = 0x120 then setBits (regGet (pgQenP + 0x120) s) 1 0 s.qe.actPhase else regGet (pgQenP + off) s

/-- A function's FLR has been requested or is in progress (R449). -/
def flrLive (f : Nat) (s : State) : Bool := (fnGet f s).flrAt.isSome || s.due.contains (.flr f)

/-- A kill of one of a function's runs waits for its boundary (R445). -/
def killLive (f : Nat) (s : State) : Bool :=
  s.due.any fun d => match d with
    | .killRun r _ _ _ => (runGet r s).used && (runGet r s).fn = f
    | _ => false

/-- A function page (R458). -/
def viewFun (f off : Nat) (s : State) : Nat :=
  let x := fnGet f s
  if 0x140 ≤ off && off < 0x180 then leAt (ptBytes f (portionOf f s)) (off - 0x140) 4
  else if 0x180 ≤ off && off < 0x1C0 then leAt (usageBytes f s) (off - 0x180) 4
  else match off with
    | 0x100 =>
      b2n (fnPresent f s) + 2 * b2n x.bme + 4 * b2n (flrLive f s) + 8 * b2n x.dlog.active + 16 * b2n x.dlog.ovf +
      pendingMask f s * 256 + runCount (fun r => r.fn = f) s * 65536
    | 0x104 => b2n (killLive f s)
    | 0x300 => x.dlog.addr
    | 0x308 => x.dlog.base
    | 0x310 => x.dlog.pages
    | _ => regGet (pgFun f + off) s

/-- The CXL pages (R70). -/
def viewCxl (index off : Nat) (s : State) : Nat :=
  let x := s.cxl
  match index, off with
  | 0, 0x100 =>
    (if x.up then x.speed + x.width * 16 + 512 + b2n x.flit256 * 1024 + b2n x.uio * 2048 else 0) + x.laneFail.toNat * 65536
  | 0, 0x104 => setBits (regGet (pgCxl + 0x104) s) 0 0 (b2n x.retraining)
  | 2, 0x900 => b2n x.dec0.committed + 2 * b2n x.dec1.committed
  | _, _ => regGet (pgCxl + 0x1000 * index + off) s

/-! ### Service panel, power, clocks -/

/-- The service panel page (R495); the presence input is debounced for 2,500 picks (R488). -/
def viewSvc (off : Nat) (s : State) : Nat :=
  match off with
  | 0x100 => b2n s.svc.pressed.isSome + 2 * b2n s.svc.latchOpen + 4 * b2n (!s.svc.absent && 2500 ≤ pickN s) + s.svc.removal.code * 16
  | 0x10C => ledFault s + ledLocate s * 4 + ledRtr s * 16
  | _ => regGet (pgSvc + off) s

/-- The power page (R495). -/
def viewPwr (off : Nat) (s : State) : Nat :=
  match off with
  | 0x100 => s.pwr.ps + 8 * b2n s.pwr.forced + s.pwr.tf % 512 * 256 + b2n s.pwr.thermtrip * 2 ^ 24
  | _ => regGet (pgPwr + off) s

/-- The clock and reset page (R479). Only the core PLL has a failure in the spec; the other PLLs, the references and the domains
are shown running while the part is not held in reset (DEDUCED, log entry 54). -/
def viewClk (off : Nat) (s : State) : Nat :=
  let up := s.boot.phase ≠ .held
  match off with
  | 0x100 => if up then 0x30E + b2n (!s.boot.pllLost) else 0
  | 0x104 => if up then (if s.boot.pllLost then 0x74 else 0x7F) else 0
  | 0x130 => maskBits 64 (fun i => xingClosed i s)
  | 0x138 => maskBits 16 (fun i => xingClosed (64 + i) s)
  | 0x180 => b2n (s.due.any fun d => match d with
    | .reset 0 _ => true
    | _ => false)
  | _ => regGet (pgClk + off) s

/-! ### A register -/

/-- What the register that starts at Weft address `a` shows. -/
def weftReg (a : Nat) (s : State) : Nat :=
  let page := pageBase a
  let off := a - page
  match pageAt a, regAt a with
  | some p, some r =>
    if off < 0x100 then viewHead page off s
    else if r.snap then (tget 0 s.snaps a).toNat
    else match p.type with
      | 0x01 => viewGlb p.index off s
      | 0x10 => if p.index = 0 then regGet a s else viewHamS off s
      | 0x11 => viewDdr p.index off s
      | 0x12 => viewJnl off s
      | 0x20 => viewFlc p.inst off s
      | 0x21 => viewFch p.inst off s
      | 0x30 => viewShu p.inst off s
      | 0x31 => viewEng (0x40 + p.inst) off s
      | 0x32 => viewEng (0x48 + p.inst) off s
      | 0x33 => viewEng (0x50 + p.inst) off s
      | 0x34 => viewEng (0x54 + p.inst) off s
      | 0x35 => viewEng (0x58 + p.inst) off s
      | 0x36 => viewHed p.index off s
      | 0x40 => viewIzc p.inst off s
      | 0x41 => viewIzk p.inst off s
      | 0x42 => viewItn p.index off s
      | 0x50 => viewMnd off s
      | 0x51 => viewPty off s
      | 0x60 => viewQen p.index off s
      | 0x61 => viewFun p.inst off s
      | 0x70 => viewCxl p.index off s
      | 0x80 => viewSvc off s
      | 0x81 => viewPwr off s
      | 0x82 => viewClk off s
      | _ => regGet a s
  | _, _ => 0

/-- A 32-bit word of the Weft at a 4-byte-aligned address: a 32-bit register, half of a 64-bit register, or 0 (R33). -/
def weftWord (a : Nat) (s : State) : Nat :=
  match regAt a with
  | some _ => weftReg a s % 2 ^ 32
  | none => match regAt (a - 4) with
    | some r => if r.wide && a % 8 = 4 then weftReg (a - 4) s / 2 ^ 32 % 2 ^ 32 else 0
    | none => 0

end Sys2Proof.Machine
end

