-- ==== Sys2Proof/Machine/Bar.lean ====
section
/-!
DEFINITION. What host software reads of a function outside the Weft: its configuration space with the CXL DVSECs (R53, R54), the BARs and
the layout of BAR0 (R58): controller registers (R72, R95), MSI-X table, the function's own page, CXL component and memory-device registers.
-/
namespace Sys2Proof.Machine

/-! ### Capabilities (R53, R54) -/

/-- A BAR: number, size in bytes, prefetchable; every BAR is 64 bits wide (R58). -/
structure Bar where
  n : Nat := 0
  size : Nat := 0
  prefetch : Bool := false
deriving DecidableEq, Repr

/-- The BARs of a function: VFs have BAR0 alone (R58). -/
def barsOf (f : Nat) : List Bar :=
  [{ n := 0, size := 2097152 }] ++ (if f = 0 then [{ n := 2, size := 16777216 }, { n := 4, size := 67108864, prefetch := true }] else [])

/-- The capabilities that a function's configuration space advertises (R53). -/
structure PciCaps where
  deviceId : Nat := 0
  classCode : Nat := 0
  /-- Largest Max Payload Size and Max Read Request Size in bytes. -/
  mps : Nat := 0
  mrrs : Nat := 0
  /-- Tag bits on the link as trained, and the limit of outstanding non-posted requests. -/
  tagBits : Nat := 0
  outstanding : Nat := 0
  /-- SR-IOV: TotalVFs, First VF Offset, VF Stride, NumVFs, VF Enable; the PF alone has it. -/
  totalVfs : Nat := 0
  firstVf : Nat := 0
  vfStride : Nat := 0
  numVfs : Nat := 0
  vfEnable : Bool := false
  /-- Features that the part does not implement advertise their absence: CXL.cache, back-invalidate, dynamic capacity, CXL IDE, MLD
  pooling, Global Persistent Flush, SPDM. -/
  absent : List Bool := [false, false, false, false, false, false, false]
deriving DecidableEq, Repr

/-- What the configuration space of function `f` advertises. -/
def pciCaps (f : Nat) (s : State) : PciCaps :=
  let pf := f = 0
  { deviceId := if pf then 0x8832 else 0x8833, classCode := 0x010802, mps := 512, mrrs := 4096,
    tagBits := if s.cxl.flit256 then 14 else 10, outstanding := 4096,
    totalVfs := if pf then 127 else 0, firstVf := if pf then 1 else 0, vfStride := if pf then 1 else 0,
    numVfs := if pf then s.cxl.numVfs else 0, vfEnable := pf && s.cxl.vfEnable }

/-- The DVSEC for CXL Devices (R54). -/
structure CxlDvsec where
  cacheCapable : Bool := false
  memCapable : Bool := false
  hdmCount : Nat := 0
  /-- The one range, in bytes, and the Memory_Active timeout in seconds. -/
  rangeSize : Nat := 0
  activeTimeout : Nat := 0
  memActive : Bool := false
deriving DecidableEq, Repr

/-- The PF carries the DVSEC for CXL Devices; VFs carry none. Mem_Active follows DRAM training (R54, R179). -/
def cxlDvsec (f : Nat) (s : State) : Option CxlDvsec :=
  if f = 0 then some { memCapable := true, hdmCount := 2, rangeSize := 65 * 2 ^ 28, activeTimeout := 1, memActive := s.ddr.trained } else none

/-- DVSEC IDs that a function carries: PCIe DVSEC for CXL Devices, Flex Bus Port, Register Locator (R54; the IDs are CXL 3.1's, PRESUMED,
log entry 39). -/
def dvsecs (f : Nat) : List Nat := if f = 0 then [0x0000, 0x0007, 0x0008] else []

/-- A dword of the configuration header of a function: IDs, Command, class code (R53, R449). An absent function answers all ones, as a
vendor ID that is not stated is free (log entry 130). -/
def cfgHeader (f off : Nat) (s : State) : Nat :=
  let x := fnGet f s
  if !cfgUp f s then 0xFFFFFFFF
  else match off with
    | 0x00 => Config.vendorId.toNat + (pciCaps f s).deviceId * 2 ^ 16
    | 0x04 => b2n x.mse * 2 + b2n x.bme * 4
    | 0x08 => (pciCaps f s).classCode * 2 ^ 8
    | _ => 0

/-! ### Controller registers (R72, R95) -/

/-- CAP of every controller (R72). -/
def nvmeCap : Nat := 0xFFFF + 2 ^ 16 + 0x04 * 2 ^ 24 + 0x01 * 2 ^ 37 + 0x4 * 2 ^ 52

/-- CSTS: RDY, CFS, SHST (R95). -/
def nvmeCsts (f : Nat) (s : State) : Nat :=
  let x := fnGet f s
  b2n x.rdy + 2 * b2n x.cfs + 4 * x.shst

/-- A dword of the controller registers; those that R72 does not list read 0. -/
def nvmeReg (f off : Nat) (s : State) : Nat :=
  let x := fnGet f s
  match off with
  | 0x00 => nvmeCap % 2 ^ 32
  | 0x04 => nvmeCap / 2 ^ 32
  | 0x08 => 0x00020000
  | 0x14 => x.cc.toNat
  | 0x1C => nvmeCsts f s
  | 0x24 => x.aqa.toNat
  | 0x28 => x.asq.toNat % 2 ^ 32
  | 0x2C => x.asq.toNat / 2 ^ 32
  | 0x30 => x.acq.toNat % 2 ^ 32
  | 0x34 => x.acq.toNat / 2 ^ 32
  | _ => 0

/-! ### MSI-X (R58, R447) -/

/-- A dword of the MSI-X table: address, data, and the mask bit, which is set at reset. -/
def msixWord (f v k : Nat) (s : State) : Nat :=
  let x := fnGet f s
  let e := tget ((0, 0) : W64 × W32) x.msixTab v
  match k with
  | 0 => e.1.toNat % 2 ^ 32
  | 1 => e.1.toNat / 2 ^ 32
  | 2 => e.2.toNat
  | _ => b2n (!tget false x.unmasked v)

/-- A dword of the pending-bit array. -/
def pbaWord (f k : Nat) (s : State) : Nat := maskBits 32 fun i => tget false (fnGet f s).pba (32 * k + i)

/-! ### CXL registers of the PF (R58 to R60); their layout is CXL 3.1's (PRESUMED, log entry 39) -/

/-- Control register of an HDM decoder: Commit, Committed, Error Not Committed. -/
def decoderCtl (d : Decoder) : Nat := b2n d.committed * (2 ^ 9 + 2 ^ 10) + b2n d.err * 2 ^ 11

/-- A dword of the HDM Decoder Capability at +0x1000 of the component registers: decoder count, then base, size and control of each. -/
def hdmReg (off : Nat) (s : State) : Nat :=
  let d (x : Decoder) (size k : Nat) : Nat := match k with
    | 0 => if x.committed then x.hpa % 2 ^ 32 else 0
    | 1 => if x.committed then x.hpa / 2 ^ 32 else 0
    | 2 => if x.committed then size % 2 ^ 32 else 0
    | 3 => if x.committed then size / 2 ^ 32 else 0
    | 4 => decoderCtl x
    | _ => 0
  if off = 0 then 1
  else if 0x10 ≤ off && off < 0x30 then d s.cxl.dec0 (2 ^ 28) ((off - 0x10) / 4)
  else if 0x30 ≤ off && off < 0x50 then d s.cxl.dec1 (2 ^ 34) ((off - 0x30) / 4)
  else 0

/-- A dword of the memory-device registers: the primary mailbox's control, command, status and payload from +0x60 on. -/
def mboxReg (off : Nat) (s : State) : Nat :=
  let x := s.cxl
  match off with
  | 0x60 => 11
  | 0x68 => x.mboxCmd.toNat % 2 ^ 32
  | 0x6C => x.mboxCmd.toNat / 2 ^ 32
  | 0x74 => x.mboxCode % 2 ^ 16
  | _ => if 0x80 ≤ off && off < 0x880 then leNat (tgetBytes x.mboxData (off - 0x80) 4) else 0

/-! ### BAR0 (R58) -/

/-- What BAR0 of a function holds at an offset. -/
inductive Bar0Part where
  | regs (off : Nat)
  | doorbell (q : Nat) (cq : Bool)
  | msix (vec word : Nat)
  | pba (word : Nat)
  | page (off : Nat)
  | component (off : Nat)
  | memdev (off : Nat)
  | none_
deriving DecidableEq, Repr

/-- The layout of BAR0. -/
def bar0At (f a : Nat) : Bar0Part :=
  if a < 0x1000 then .regs a
  else if a < 0x3008 then .doorbell ((a - 0x1000) / 8) (bit (a - 0x1000) 2)
  else if 0x8000 ≤ a && a < 0x10000 then .msix ((a - 0x8000) / 16) ((a - 0x8000) / 4 % 4)
  else if 0x10000 ≤ a && a < 0x10100 then .pba ((a - 0x10000) / 4)
  else if 0x100000 ≤ a && a < 0x101000 then .page (a - 0x100000)
  else if f = 0 && 0x1E0000 ≤ a && a < 0x1F0000 then .component (a - 0x1E0000)
  else if f = 0 && 0x1F0000 ≤ a && a < 0x200000 then .memdev (a - 0x1F0000)
  else .none_

/-- A dword that a read of BAR0 of a function returns: an offset that the layout does not assign, and a doorbell, read 0; a BAR that does
not answer returns all ones. -/
def bar0Word (f a : Nat) (s : State) : Nat :=
  if !bar0 f s then 0xFFFFFFFF
  else match bar0At f (a / 4 * 4) with
    | .regs o => nvmeReg f o s
    | .msix v k => msixWord f v k s
    | .pba k => pbaWord f k s
    | .page o => weftWord (pgFun f + o) s
    | .component o => if 0x1000 ≤ o then hdmReg (o - 0x1000) s else 0
    | .memdev o => mboxReg o s
    | .doorbell _ _ | .none_ => 0

/-! ### Writes to BAR0 -/

/-- A write of CC (R95): EN from 0 to 1 enables with the queues that AQA, ASQ and ACQ name, EN from 1 to 0 resets, SHN shuts down. -/
def ccWrite (f v : Nat) (s : State) : State :=
  let x := fnGet f s
  let en := bit x.cc.toNat 0
  if !en && bit v 0 then stateOr s (execCcEnSet f (BitVec.ofNat 32 v) x.aqa x.asq x.acq s)
  else if en && !bit v 0 then stateOr s (execCcEnClear f s)
  else if en && bits v 15 14 = 1 then stateOr s (execNormalShutdown f s)
  else if en && bits v 15 14 = 2 then stateOr s (execAbruptShutdown f s)
  else s

/-- A write of a controller register; AQA, ASQ and ACQ take values while CC.EN is 0. -/
def nvmeWrite (f off v : Nat) (s : State) : State :=
  let put (g : Fn → Fn) : State := if bit (fnGet f s).cc.toNat 0 then s else fnMod f g s
  match off with
  | 0x14 => ccWrite f v s
  | 0x24 => put fun x => { x with aqa := BitVec.ofNat 32 v }
  | 0x28 => put fun x => { x with asq := BitVec.ofNat 64 (setBits x.asq.toNat 31 0 v) }
  | 0x2C => put fun x => { x with asq := BitVec.ofNat 64 (setBits x.asq.toNat 63 32 v) }
  | 0x30 => put fun x => { x with acq := BitVec.ofNat 64 (setBits x.acq.toNat 31 0 v) }
  | 0x34 => put fun x => { x with acq := BitVec.ofNat 64 (setBits x.acq.toNat 63 32 v) }
  | _ => s

/-- A write of a dword of the MSI-X table; unmasking a vector sends its pending message (R447). -/
def msixWrite (f v k w : Nat) (s : State) : State :=
  let x := fnGet f s
  let e := tget ((0, 0) : W64 × W32) x.msixTab v
  let put (e : W64 × W32) : State := fnSet f { x with msixTab := tset (0, 0) v e x.msixTab } s
  match k with
  | 0 => put (BitVec.ofNat 64 (setBits e.1.toNat 31 0 w), e.2)
  | 1 => put (BitVec.ofNat 64 (setBits e.1.toNat 63 32 w), e.2)
  | 2 => put (e.1, BitVec.ofNat 32 w)
  | _ =>
    if bit w 0 then fnSet f { x with unmasked := tset false v false x.unmasked } s
    else stateOr s (execMsixVectorUnmask f v s)

/-- A write of a dword of the memory-device registers: the command register, the payload, or the doorbell that runs the command (R59). -/
def mboxWrite (off v : Nat) (s : State) : State :=
  let x := s.cxl
  match off with
  | 0x64 => if bit v 0 then mboxRun (bits x.mboxCmd.toNat 15 0) (tgetBytes x.mboxData 0 (bits x.mboxCmd.toNat 36 16)) s else s
  | 0x68 => cxlMod (fun x => { x with mboxCmd := BitVec.ofNat 64 (setBits x.mboxCmd.toNat 31 0 v) }) s
  | 0x6C => cxlMod (fun x => { x with mboxCmd := BitVec.ofNat 64 (setBits x.mboxCmd.toNat 63 32 v) }) s
  | _ => if 0x80 ≤ off && off < 0x880 then cxlMod (fun x => { x with mboxData := tsetBytes (off - 0x80) (natLe 4 v) x.mboxData }) s else s

end Sys2Proof.Machine
end

