-- ==== Sys2Proof/Machine/Weft.lean ====
section
/-!
DEFINITION. Weft accesses (R17, R31 to R39, R45 to R49, R463, R508): the checks of an access in their order, the effect of a write
on each register, REGISTER_WRITE and the four Weft instructions of the house cores (R332).
-/
namespace Sys2Proof.Machine

/-! ### What a write does -/

/-- A write of PAGE_CTL (R37 to R39): EN, then the fence and the soft reset it asks for. -/
def pageCtl (page v : Nat) (s : State) : State :=
  let s1 := regSetFld (page + 0x010) 0 0 v s
  let s2 := if bit v 2 then selvReq page s1 else s1
  if bit v 1 then softStart page s2 else s2

/-- A write of ERR_MASK: an error it unmasks sets IRQ_STAT.ERR (R37). -/
def errMaskWrite (page v : Nat) (s : State) : State :=
  let s1 := regSet (page + 0x01C) v s
  if errLive page s = 0 && errLive page s1 ≠ 0 then irqCause page 1 s1 else s1

/-- A write of IRQ_MASK: a cause it unmasks is sent when none was unmasked before (R41). -/
def irqMaskWrite (page v : Nat) (s : State) : State :=
  let s1 := regSet (page + 0x034) v s
  if irqLive page s = 0 && irqLive page s1 ≠ 0 then irqMessage page s1 else s1

/-- A register with no behaviour of its own (R6, R508), written in bits [hi:lo]: W1C bits clear, RW fields take the value, all else is
ignored. -/
def plainWrite (a hi lo v : Nat) (s : State) : State :=
  match regAt a with
  | none => s
  | some r =>
    if r.w1c ≠ 0 then regSet a (clearN (regGet a s) (andN (v * 2 ^ lo) r.w1c)) s
    else if r.rw ≠ 0 then
      let (m, s1) := mergeRw a hi lo v s
      regSet a m s1
    else s

/-- A write of a header register (R37); the common header stays writable while the page is fenced (R463). -/
def headWrite (page off v : Nat) (s : State) : State :=
  match off with
  | 0x010 => pageCtl page v s
  | 0x018 => errClear page v s
  | 0x01C => errMaskWrite page v s
  | 0x030 => irqClear page v s
  | 0x034 => irqMaskWrite page v s
  | 0x050 => if bit v 0 then snapPage page s else s
  | _ => plainWrite (page + off) 31 0 v s

/-- A write of a block register whose write has an effect of its own; none where it has not. -/
def blockWrite (p : PageId) (off v : Nat) (s : State) : Option State :=
  match p.type, p.index, off with
  | 0x01, 0, 0x120 => some (if bit v 0 then snapAll s else s)
  | 0x01, 1, 0x108 => some (logIndex v s)
  | 0x02, _, _ => some (if off < 0x120 then weightWrite ((off - 0x100) / 4) v s else s)
  | 0x03, _, 0x108 => some (skewClear v s)
  | 0x10, 0, _ => if off < 0x110 then some (regionWrite ((off - 0x100) / 4) v s) else none
  | 0x11, 0, 0x108 => some (if bit v 0 then trainFull s else s)
  | 0x12, _, 0x134 => some (if bit v 0 then pfDrill s else s)
  | 0x12, _, 0x160 => some (mapcWrite v s)
  | 0x20, _, 0x200 => if p.inst = 0 then some (spareCheck (plainWrite (pgFlc 0 + 0x200) 31 0 v s)) else none
  | 0x30, _, 0x108 => some (shuTail p.inst v s)
  | 0x30, _, 0x110 => some (shuCtl p.inst v s)
  | 0x30, _, 0x600 => some (if p.inst = 0 then softLine v s else s)
  | 0x31, _, 0x108 => some (engTail (0x40 + p.inst) v s)
  | 0x31, _, 0x110 => some (engCtl (0x40 + p.inst) v s)
  | 0x32, _, 0x108 => some (engTail (0x48 + p.inst) v s)
  | 0x32, _, 0x110 => some (engCtl (0x48 + p.inst) v s)
  | 0x33, _, 0x108 => some (engTail (0x50 + p.inst) v s)
  | 0x33, _, 0x110 => some (engCtl (0x50 + p.inst) v s)
  | 0x34, _, 0x108 => some (engTail (0x54 + p.inst) v s)
  | 0x34, _, 0x110 => some (engCtl (0x54 + p.inst) v s)
  | 0x35, _, 0x108 => some (engTail (0x58 + p.inst) v s)
  | 0x35, _, 0x110 => some (engCtl (0x58 + p.inst) v s)
  | 0x50, _, 0x108 => some (engTail 0x61 v s)
  | 0x50, _, 0x110 => some (engCtl 0x61 v s)
  | 0x36, _, 0x100 => if 48 ≤ p.index then some (grpCfgWrite (p.index - 48) v s) else none
  | 0x36, _, 0x104 => if 48 ≤ p.index then some (grpCtlWrite (p.index - 48) v s) else none
  | 0x42, 0, 0x110 => some (decTask (v % 65536) s)
  | 0x42, 0, 0x118 => some (itnQuery v s)
  | 0x60, 0, 0x104 => some (fetchCtl v s)
  | 0x61, _, 0x104 => some (killRuns p.inst v s)
  | 0x70, 0, 0x104 => some (linkCtl v s)
  | 0x82, _, 0x180 => some (rstCtl v s)
  | 0x82, _, 0x18C => some (if bit v 0 && running s then bootOk s else s)
  | _, _, _ => none

/-- The write of bits [hi:lo] of the register that starts at Weft address `a` (R6, R33): all of a 32-bit register, all or half of a
64-bit register; a fenced page drops the writes of its block registers (R463). -/
def regWrite (a hi lo v : Nat) (s : State) : State :=
  let page := pageBase a
  let off := a - page
  match pageAt a, regAt a with
  | some p, some _ =>
    if off < 0x100 then headWrite page off v s
    else if fenced page s then s
    else if p.type = 0x30 && p.inst = 0 && 0x400 ≤ off && off < 0x600 && off % 16 = 0 then lineCfgWrite ((off - 0x400) / 16) hi lo v s
    else (blockWrite p off v s).getD (plainWrite a hi lo v s)
  | _, _ => s

/-- A 32-bit write at a 4-byte-aligned address: a 32-bit register, half of a 64-bit register, or nothing (R33). -/
def wordWrite (a v : Nat) (s : State) : State :=
  match regAt a with
  | some _ => regWrite a 31 0 v s
  | none => match regAt (a - 4) with
    | some r => if r.wide && a % 8 = 4 then regWrite (a - 4) 63 32 v s else s
    | none => s

/-! ### The checks of an access -/

/-- Who makes an access: the management core, host software through BAR2, or a function through its own BAR0. -/
inductive Master where
  | core | bar2 | bar0 (fn : Nat)
deriving DecidableEq, Repr

/-- `GLB_BAR2_WP` protects a page against BAR2 writes (R48, R51). -/
def writeProt (p : PageId) (a : Nat) (s : State) : Bool :=
  bit (regGet (pgGlb + 0x128) s) (branchOf p) && !(branchOf p = 16 && a / 4 * 4 = pgGlb + 0x120)

/-- The register that covers an address accepts writes only from firmware (R48, R61). -/
def fwOnly (a : Nat) : Bool :=
  let at_ (b : Nat) : Bool := match regAt b with
    | some r => r.fw && (b = a / 4 * 4 || r.wide)
    | none => false
  at_ (a / 4 * 4) || at_ (a / 8 * 8) || (pgCxlH + 0x100 ≤ a && a < pgCxlH + 0x900)

/-- A field of its page that a VF may not change through its own BAR0 (R47, R433): KILL_RUNS of `FUN_CTL` (R458). -/
def pfOnly (m : Master) (a : Nat) : Bool :=
  match m with
  | .bar0 f => f ≠ 0 && a % 0x1000 / 4 * 4 = 0x104
  | _ => false

/-- The branch that serves a page answers (R31). -/
def branchUp (p : PageId) (s : State) : Bool := branchOf p = 16 || bit (regGet (pgWeft + 0x100) s) (branchOf p)

/-- An access that ended with a crossing timeout (R31). -/
def accTimeout (s : State) : State := regAdd32 (pgWeft + 0x110) 1 s

/-- An access of `n` bytes at `a` is narrow or misaligned (R33). -/
def badShape (a n : Nat) : Bool := (n ≠ 4 && n ≠ 8) || a % n ≠ 0

/-- The effect of a write that has passed its checks: one register, or two 32-bit accesses, the lower first (R33). -/
def storeWords (m : Master) (a n v : Nat) (s : State) : State :=
  let wide := match regAt a with
    | some r => r.wide
    | none => false
  if n = 8 && wide then regWrite a 63 0 v s
  else
    let s1 := wordWrite a (v % 2 ^ 32) s
    if n ≠ 8 then s1
    else if m ≠ .core && fwOnly (a + 4) then note 0x0305 pgWeft (a + 4) s1
    else if pfOnly m (a + 4) then s1
    else wordWrite (a + 4) (v / 2 ^ 32 % 2 ^ 32) s1

/-- A Weft write of `n` bytes (R33, R35, R47, R48): the first rule that it breaks decides. R17 orders the writes of one master to one
page only; the model performs all writes in the order they are issued, between pages too (DESIGN CHOICE, log entry 127). -/
def weftStore (m : Master) (a n v : Nat) (s : State) : State :=
  match pageAt a with
  | none => note 0x0303 pgWeft a s
  | some p =>
    if (m = .bar2 && writeProt p a s) || (m ≠ .core && fwOnly a) then note 0x0305 pgWeft a s
    else if badShape a n then note 0x0304 pgWeft a s
    else if pfOnly m a then s
    else if !branchUp p s then accTimeout s
    else storeWords m a n v s

/-- A Weft read of `n` bytes (R33 to R35): no register read has a side effect. -/
def weftLoad (a n : Nat) (s : State) : Nat × State :=
  match pageAt a with
  | none => (0, note 0x0303 pgWeft a s)
  | some p =>
    if n ≠ 8 && n ≠ 4 then (if branchUp p s then (weftWord (a / 4 * 4) s / 2 ^ (8 * (a % 4)) % 2 ^ (8 * n), s) else (0, accTimeout s))
    else if badShape a n then (0, note 0x0304 pgWeft a s)
    else if !branchUp p s then (0, accTimeout s)
    else if n = 4 then (weftWord a s, s)
    else match regAt a with
      | some r => if r.wide then (weftReg a s % 2 ^ 64, s) else (weftWord a s + weftWord (a + 4) s * 2 ^ 32, s)
      | none => (weftWord a s + weftWord (a + 4) s * 2 ^ 32, s)

/-! ### REGISTER_WRITE -/

/-- A write of a function to its BAR0 at offset `a` (R47, R58): dwords, or the function's own page; an offset that the layout does not
assign drops it. -/
def bar0Write (f a n v : Nat) (s : State) : State :=
  match bar0At f a with
  | .page o => weftStore (.bar0 f) (pgFun f + o) n v s
  | _ =>
    let one (a w : Nat) (s : State) : State := match bar0At f a with
      | .regs o => nvmeWrite f o w s
      | .doorbell q cq => doorbell f q cq w s
      | .msix v k => msixWrite f v k w s
      | .memdev o => mboxWrite o w s
      | .pba _ | .page _ | .component _ | .none_ => s
    if badShape a n then s
    else
      let s1 := one a (v % 2 ^ 32) s
      if n = 8 then one (a + 4) (v / 2 ^ 32 % 2 ^ 32) s1 else s1

/-- REGISTER_WRITE (R6, R31 to R48, R58, R508): a write of `width` bytes at `addr` by firmware (`master` 0), through PF BAR2 (1), or by
function `fn` to its own BAR0 (2). A BAR that does not answer drops it. -/
def execRegisterWrite (master fn addr width : Nat) (value : W64) (s : State) : Host.Outcome State Fault Refusal :=
  let a := addr % 2 ^ 24
  match master with
  | 0 => .next (if running s then weftStore .core a width value.toNat s else s)
  | 1 => .next (if bar0 0 s then weftStore .bar2 a width value.toNat s else s)
  | 2 =>
    if fn < 128 then .next (if bar0 fn s then bar0Write fn (addr % 2 ^ 21) width value.toNat s else s)
    else .fault .noSuchUnit
  | _ => .fault .noSuchUnit

/-! ### Weft instructions of the house cores (R332) -/

/-- Clocks that a Weft load takes: R18 bounds them at 4 Weft cycles for a root page and 20 for a branch page, 4 clk each; the value
below the bound is free (log entry 55). -/
def weftClk (a : Nat) (s : State) : Nat × State :=
  let (k, s1) := draw s
  let top := match pageAt a with
    | some p => if branchOf p = 16 then 16 else 80
    | none => 16
  (Config.freeChoice k % top + 1, s1)

/-- WLD and WLD64 ( a -- v ), privileged. -/
def izWeftLoad (core n : Nat) (s : State) : Host.Outcome State Fault Refusal :=
  izRun core 1 (fun _ x s =>
    if !x.house then .trap 0x06 0 0 s
    else izPop1 x s fun a x =>
      let a := a.toNat % 2 ^ 24
      if a % n ≠ 0 then .trap 0x04 0 a s
      else
        let (v, s1) := weftLoad a n s
        let (clk, s2) := weftClk a s1
        .go (x.psh (w64 v)) s2 clk) s

/-- WST and WST64 ( v a -- ), privileged. The write finds the task behind the instruction, since it may act on tasks. -/
def izWeftStore (core n : Nat) (s : State) : Host.Outcome State Fault Refusal :=
  izRun core 1 (fun t x s =>
    if !x.house then .trap 0x06 0 0 s
    else izPop2 x s fun v a x =>
      let a := a.toNat % 2 ^ 24
      if a % n ≠ 0 then .trap 0x04 0 a s
      else .done (weftStore .core a n (v.toNat % 2 ^ (8 * n)) (taskSet t x s)) 2) s

/-- WLD (R332). -/
def execIzWld (core : Nat) (s : State) : Host.Outcome State Fault Refusal := izWeftLoad core 4 s
/-- WST (R332). -/
def execIzWst (core : Nat) (s : State) : Host.Outcome State Fault Refusal := izWeftStore core 4 s
/-- WLD64 (R332). -/
def execIzWld64 (core : Nat) (s : State) : Host.Outcome State Fault Refusal := izWeftLoad core 8 s
/-- WST64 (R332). -/
def execIzWst64 (core : Nat) (s : State) : Host.Outcome State Fault Refusal := izWeftStore core 8 s

end Sys2Proof.Machine
end

