-- ==== Sys2Proof/Machine/Dispatch.lean ====
section
/-!
DEFINITION. One arm per command: each calls the meaning that its chapter's file gives it.
-/
namespace Sys2Proof.Machine

/-- The effect of a command on everything but the queue. -/
def exec (i : Instr) (s : State) : Host.Outcome State Fault Refusal :=
  match i with
  | .powerOnReset straps => Sys2Proof.Machine.execPowerOnReset straps s
  | .vddAonLoss => Sys2Proof.Machine.execVddAonLoss s
  | .corePllLockLost => Sys2Proof.Machine.execCorePllLockLost s
  | .bootSlotSelect => Sys2Proof.Machine.execBootSlotSelect s
  | .dieTableValidation agree bad => Sys2Proof.Machine.execDieTableValidation agree s bad
  | .channelTraining chan bin => Sys2Proof.Machine.execChannelTraining chan bin s
  | .dramTraining speeds gib bolts module => Sys2Proof.Machine.execDramTraining speeds gib bolts s module
  | .restartIndex picks => Sys2Proof.Machine.execRestartIndex picks s
  | .segmentRebuild seg ok => Sys2Proof.Machine.execSegmentRebuild seg ok s
  | .pwrfailNAssert ns => Sys2Proof.Machine.execPwrfailNAssert ns s
  | .supplyMonitorTrip rail => Sys2Proof.Machine.execSupplyMonitorTrip rail s
  | .latchOpen => Sys2Proof.Machine.execLatchOpen s
  | .latchClose => Sys2Proof.Machine.execLatchClose s
  | .powerFailAct => Sys2Proof.Machine.execPowerFailAct s
  | .sealRing dieOk => Sys2Proof.Machine.execSeal dieOk s
  | .powerRestoredReset => Sys2Proof.Machine.execPowerRestoredReset s
  | .perstAssert => Sys2Proof.Machine.execPerstAssert s
  | .linkDown => Sys2Proof.Machine.execLinkDown s
  | .linkUp width speed flit uio lanes => Sys2Proof.Machine.execLinkUp width speed flit uio lanes s
  | .linkRecovery width speed => Sys2Proof.Machine.execLinkRecovery width speed s
  | .linkTrainingRetry => Sys2Proof.Machine.execLinkTrainingRetry s
  | .cxlMemRead hpa => Sys2Proof.Machine.execCxlMemRead hpa s
  | .cxlMemWrite hpa data mask poison => Sys2Proof.Machine.execCxlMemWrite hpa data mask poison s
  | .hdmDecoderCommit dec base size ways commit => Sys2Proof.Machine.execHdmDecoderCommit dec base size ways commit s
  | .hostReadCompletion ctx kind result bytes => Sys2Proof.Machine.execHostReadCompletion ctx kind result bytes s
  | .uioWriteCompletion member ok => Sys2Proof.Machine.execUioWriteCompletion member ok s
  | .identifyMemoryDevice => Sys2Proof.Machine.execIdentifyMemoryDevice s
  | .getSupportedLogs => Sys2Proof.Machine.execGetSupportedLogs s
  | .getLog payload => Sys2Proof.Machine.execGetLog payload s
  | .getEventRecords payload => Sys2Proof.Machine.execGetEventRecords payload s
  | .clearEventRecords payload => Sys2Proof.Machine.execClearEventRecords payload s
  | .getEventInterruptPolicy => Sys2Proof.Machine.execGetEventInterruptPolicy s
  | .setEventInterruptPolicy payload => Sys2Proof.Machine.execSetEventInterruptPolicy payload s
  | .getTimestamp => Sys2Proof.Machine.execGetTimestamp s
  | .setTimestamp payload => Sys2Proof.Machine.execSetTimestamp payload s
  | .doeDiscovery index => Sys2Proof.Machine.execDoeDiscovery index s
  | .cdatTableAccess handle => Sys2Proof.Machine.execCdatTableAccess handle s
  | .doeAbort => Sys2Proof.Machine.execDoeAbort s
  | .doorbellWrite fn q cq value => Sys2Proof.Machine.execDoorbellWrite fn q cq value s
  | .ccEnClear fn => Sys2Proof.Machine.execCcEnClear fn s
  | .ccEnSet fn cc aqa asq acq => Sys2Proof.Machine.execCcEnSet fn cc aqa asq acq s
  | .normalShutdown fn => Sys2Proof.Machine.execNormalShutdown fn s
  | .abruptShutdown fn => Sys2Proof.Machine.execAbruptShutdown fn s
  | .flr fn => Sys2Proof.Machine.execFlr fn s
  | .vfEnableClear => Sys2Proof.Machine.execVfEnableClear s
  | .busMasterEnableClear fn => Sys2Proof.Machine.execBusMasterEnableClear fn s
  | .busMasterEnableSet fn => Sys2Proof.Machine.execBusMasterEnableSet fn s
  | .memorySpaceEnableClear fn => Sys2Proof.Machine.execMemorySpaceEnableClear fn s
  | .sqeFetch sqes ok => Sys2Proof.Machine.execSqeFetch sqes ok s
  | .createIoSq ctx => Sys2Proof.Machine.execCreateIoSq ctx s
  | .createIoCq ctx => Sys2Proof.Machine.execCreateIoCq ctx s
  | .deleteIoSq ctx => Sys2Proof.Machine.execDeleteIoSq ctx s
  | .deleteIoCq ctx => Sys2Proof.Machine.execDeleteIoCq ctx s
  | .getLogPage ctx => Sys2Proof.Machine.execGetLogPage ctx s
  | .identify ctx => Sys2Proof.Machine.execIdentify ctx s
  | .abort ctx => Sys2Proof.Machine.execAbort ctx s
  | .setFeatures ctx => Sys2Proof.Machine.execSetFeatures ctx s
  | .getFeatures ctx => Sys2Proof.Machine.execGetFeatures ctx s
  | .asynchronousEventRequest ctx => Sys2Proof.Machine.execAsynchronousEventRequest ctx s
  | .namespaceCreate ctx => Sys2Proof.Machine.execNamespaceCreate ctx s
  | .namespaceDelete ctx => Sys2Proof.Machine.execNamespaceDelete ctx s
  | .namespaceAttachment ctx => Sys2Proof.Machine.execNamespaceAttachment ctx s
  | .firmwareImageDownload ctx => Sys2Proof.Machine.execFirmwareImageDownload ctx s
  | .firmwareCommitActivate ctx => Sys2Proof.Machine.execFirmwareCommitActivate ctx s
  | .firmwareCommitAtReset ctx => Sys2Proof.Machine.execFirmwareCommitAtReset ctx s
  | .activationDrainEnd => Sys2Proof.Machine.execActivationDrainEnd s
  | .activationEnd ok => Sys2Proof.Machine.execActivationEnd ok s
  | .activationDrainLimit => Sys2Proof.Machine.execActivationDrainLimit s
  | .deviceSelfTestShort ctx => Sys2Proof.Machine.execDeviceSelfTestShort ctx s
  | .deviceSelfTestExtended ctx => Sys2Proof.Machine.execDeviceSelfTestExtended ctx s
  | .deviceSelfTestAbort ctx => Sys2Proof.Machine.execDeviceSelfTestAbort ctx s
  | .selfTestStep ok => Sys2Proof.Machine.execSelfTestStep ok s
  | .virtualizationManagement ctx => Sys2Proof.Machine.execVirtualizationManagement ctx s
  | .formatNvm ctx => Sys2Proof.Machine.execFormatNvm ctx s
  | .sanitize ctx => Sys2Proof.Machine.execSanitize ctx s
  | .read ctx => Sys2Proof.Machine.execRead ctx s
  | .write ctx => Sys2Proof.Machine.execWrite ctx s
  | .flush ctx => Sys2Proof.Machine.execFlush ctx s
  | .datasetManagement ctx => Sys2Proof.Machine.execDatasetManagement ctx s
  | .arm ctx => Sys2Proof.Machine.execArm ctx s
  | .lockoutEnd fn => Sys2Proof.Machine.execLockoutEnd fn s
  | .setPortion ctx => Sys2Proof.Machine.execSetPortion ctx s
  | .getPortion ctx => Sys2Proof.Machine.execGetPortion ctx s
  | .loadProgram ctx => Sys2Proof.Machine.execLoadProgram ctx s
  | .partialLoadDiscard fn handle => Sys2Proof.Machine.execPartialLoadDiscard fn handle s
  | .unloadProgram ctx => Sys2Proof.Machine.execUnloadProgram ctx s
  | .runProgram ctx => Sys2Proof.Machine.execRunProgram ctx s
  | .runResourceAcquire ctx => Sys2Proof.Machine.execRunResourceAcquire ctx s
  | .runEntryTaskCreate run => Sys2Proof.Machine.execRunEntryTaskCreate run s
  | .runEnd run => Sys2Proof.Machine.execRunEnd run s
  | .runTimeout run => Sys2Proof.Machine.execRunTimeout run s
  | .keyLoad ctx => Sys2Proof.Machine.execKeyLoad ctx s
  | .keyErase ctx => Sys2Proof.Machine.execKeyErase ctx s
  | .partyJoinFound ctx => Sys2Proof.Machine.execPartyJoinFound ctx s
  | .partyJoin ctx => Sys2Proof.Machine.execPartyJoin ctx s
  | .joinTimeout => Sys2Proof.Machine.execJoinTimeout s
  | .partyLeave ctx => Sys2Proof.Machine.execPartyLeave ctx s
  | .leaveTimeout => Sys2Proof.Machine.execLeaveTimeout s
  | .partyStatus ctx => Sys2Proof.Machine.execPartyStatus ctx s
  | .logSwapStart ctx => Sys2Proof.Machine.execLogSwapStart ctx s
  | .logSwapSwap ctx => Sys2Proof.Machine.execLogSwapSwap ctx s
  | .logSwapStop ctx => Sys2Proof.Machine.execLogSwapStop ctx s
  | .dirtyLineWrite fn line => Sys2Proof.Machine.execDirtyLineWrite fn line s
  | .fuseRepair ctx => Sys2Proof.Machine.execFuseRepair ctx s
  | .compressWrite ctx => Sys2Proof.Machine.execCompressWrite ctx s
  | .decompressRead ctx => Sys2Proof.Machine.execDecompressRead ctx s
  | .scanRead ctx => Sys2Proof.Machine.execScanRead ctx s
  | .digestRead ctx => Sys2Proof.Machine.execDigestRead ctx s
  | .spreadWrite ctx => Sys2Proof.Machine.execSpreadWrite ctx s
  | .spreadOpenTimeout stripe => Sys2Proof.Machine.execSpreadOpenTimeout stripe s
  | .openStripeTimeout stripe => Sys2Proof.Machine.execOpenStripeTimeout stripe s
  | .shardRead ctx => Sys2Proof.Machine.execShardRead ctx s
  | .mendRepair ctx => Sys2Proof.Machine.execMendRepair ctx s
  | .mendVerify ctx => Sys2Proof.Machine.execMendVerify ctx s
  | .mendDrop ctx => Sys2Proof.Machine.execMendDrop ctx s
  | .writeClaim ctx => Sys2Proof.Machine.execWriteClaim ctx s
  | .stagingUnitComplete ctx => Sys2Proof.Machine.execStagingUnitComplete ctx s
  | .journalWordDurable ok => Sys2Proof.Machine.execJournalWordDurable ok s
  | .checkpointStart seg => Sys2Proof.Machine.execCheckpointStart seg s
  | .ctrlFieldFold => Sys2Proof.Machine.execCtrlFieldFold s
  | .unitProgramStart die => Sys2Proof.Machine.execUnitProgramStart die s
  | .flashReadDone pua outcomes task => Sys2Proof.Machine.execFlashReadDone pua outcomes s task
  | .flashProgramDone die ok task => Sys2Proof.Machine.execFlashProgramDone die ok s task
  | .flashEraseDone sb ok chan task => Sys2Proof.Machine.execFlashEraseDone sb ok chan s task
  | .dieReadyTimeout die resetOk => Sys2Proof.Machine.execDieReadyTimeout die resetOk s
  | .dieRebuild die => Sys2Proof.Machine.execDieRebuild die s
  | .fold sb => Sys2Proof.Machine.execFold sb s
  | .garbageCollection => Sys2Proof.Machine.execGarbageCollection s
  | .refresh blk => Sys2Proof.Machine.execRefresh blk s
  | .staticWearLevelling => Sys2Proof.Machine.execStaticWearLevelling s
  | .patrolRead => Sys2Proof.Machine.execPatrolRead s
  | .dumpStandbyErase => Sys2Proof.Machine.execDumpStandbyErase s
  | .slcTargetUpdate => Sys2Proof.Machine.execSlcTargetUpdate s
  | .dieTemperatureRead die temp => Sys2Proof.Machine.execDieTemperatureRead die temp s
  | .pickBoundary env => Sys2Proof.Machine.execPickBoundary s env
  | .pickDistributionFailure => Sys2Proof.Machine.execPickDistributionFailure s
  | .activationPreempt core => Sys2Proof.Machine.execActivationPreempt core s
  | .coalescingWindowEnd fn vec => Sys2Proof.Machine.execCoalescingWindowEnd fn vec s
  | .apstTransition => Sys2Proof.Machine.execApstTransition s
  | .thermalUpdate tj dram => Sys2Proof.Machine.execThermalUpdate tj dram s
  | .hamperScrubStep syms => Sys2Proof.Machine.execHamperScrubStep syms s
  | .dramScrubStep syms => Sys2Proof.Machine.execDramScrubStep syms s
  | .heddleCheck tile row kind => Sys2Proof.Machine.execHeddleCheck tile row kind s
  | .blockFatalEvent page code arg => Sys2Proof.Machine.execBlockFatalEvent page code arg s
  | .deviceFatalEvent code => Sys2Proof.Machine.execDeviceFatalEvent code s
  | .fatalReset => Sys2Proof.Machine.execFatalReset s
  | .deviceReset => Sys2Proof.Machine.execDeviceReset s
  | .bootWatchdogExpiry => Sys2Proof.Machine.execBootWatchdogExpiry s
  | .crossingWatchdogExpiry id far => Sys2Proof.Machine.execCrossingWatchdogExpiry id far s
  | .branchNotAnswering branch => Sys2Proof.Machine.execBranchNotAnswering branch s
  | .serviceButtonRelease ms => Sys2Proof.Machine.execServiceButtonRelease ms s
  | .serviceButtonCancel => Sys2Proof.Machine.execServiceButtonCancel s
  | .removalRequest => Sys2Proof.Machine.execRemovalRequest s
  | .removalDrainLimit => Sys2Proof.Machine.execRemovalDrainLimit s
  | .removalSeal => Sys2Proof.Machine.execRemovalSeal s
  | .removalAwayTimeout => Sys2Proof.Machine.execRemovalAwayTimeout s
  | .prsntNRise => Sys2Proof.Machine.execPrsntNRise s
  | .shuttleDescriptor sh res data => Sys2Proof.Machine.execShuttleDescriptor sh res data s
  | .shuttleDescriptorEnd sh => Sys2Proof.Machine.execShuttleDescriptorEnd sh s
  | .linePost line agent last len => Sys2Proof.Machine.execLinePost line agent last len s
  | .lineRelease line agent => Sys2Proof.Machine.execLineRelease line agent s
  | .twillCompress eng => Sys2Proof.Machine.execTwillCompress eng s
  | .twillDecompress eng => Sys2Proof.Machine.execTwillDecompress eng s
  | .twillVerify eng => Sys2Proof.Machine.execTwillVerify eng s
  | .twillJobEnd eng => Sys2Proof.Machine.execTwillJobEnd eng s
  | .digestInit eng => Sys2Proof.Machine.execDigestInit eng s
  | .digestUpdate eng lost => Sys2Proof.Machine.execDigestUpdate eng lost s
  | .digestFinal eng lost => Sys2Proof.Machine.execDigestFinal eng lost s
  | .digestOneshot eng => Sys2Proof.Machine.execDigestOneshot eng s
  | .digestCompare eng lost => Sys2Proof.Machine.execDigestCompare eng lost s
  | .digestRelease eng => Sys2Proof.Machine.execDigestRelease eng s
  | .digestJobEnd eng => Sys2Proof.Machine.execDigestJobEnd eng s
  | .kckGenerate eng => Sys2Proof.Machine.execKckGenerate eng s
  | .kckVerify eng => Sys2Proof.Machine.execKckVerify eng s
  | .kckJobEnd eng => Sys2Proof.Machine.execKckJobEnd eng s
  | .scanJob eng => Sys2Proof.Machine.execScanJob eng s
  | .scanJobEnd eng => Sys2Proof.Machine.execScanJobEnd eng s
  | .menderMac => Sys2Proof.Machine.execMenderMac s
  | .menderJobEnd => Sys2Proof.Machine.execMenderJobEnd s
  | .taskDispatch core => Sys2Proof.Machine.execTaskDispatch core s
  | .dependenceDecrement task => Sys2Proof.Machine.execDependenceDecrement task s
  | .taskAgeing task => Sys2Proof.Machine.execTaskAgeing task s
  | .heartbeatSend => Sys2Proof.Machine.execHeartbeatSend s
  | .heartbeat member => Sys2Proof.Machine.execHeartbeat member s
  | .silentMark member => Sys2Proof.Machine.execSilentMark member s
  | .suspectSend member => Sys2Proof.Machine.execSuspectSend member s
  | .epochIssue => Sys2Proof.Machine.execEpochIssue s
  | .lostMemberFree member => Sys2Proof.Machine.execLostMemberFree member s
  | .messageResend member counter => Sys2Proof.Machine.execMessageResend member counter s
  | .ackSend member => Sys2Proof.Machine.execAckSend member s
  | .capSend => Sys2Proof.Machine.execCapSend s
  | .bar4Write off data poison => Sys2Proof.Machine.execBar4Write off data poison s
  | .msgAck slot => Sys2Proof.Machine.execMsgAck slot s
  | .msgChunkNak slot => Sys2Proof.Machine.execMsgChunkNak slot s
  | .msgJoinReq slot => Sys2Proof.Machine.execMsgJoinReq slot s
  | .msgJoinNak slot => Sys2Proof.Machine.execMsgJoinNak slot s
  | .msgEpoch slot => Sys2Proof.Machine.execMsgEpoch slot s
  | .msgSyncReq slot => Sys2Proof.Machine.execMsgSyncReq slot s
  | .msgRosterPart slot => Sys2Proof.Machine.execMsgRosterPart slot s
  | .msgSuspect slot => Sys2Proof.Machine.execMsgSuspect slot s
  | .msgRetract slot => Sys2Proof.Machine.execMsgRetract slot s
  | .msgAway slot => Sys2Proof.Machine.execMsgAway slot s
  | .msgBack slot => Sys2Proof.Machine.execMsgBack slot s
  | .msgLeave slot => Sys2Proof.Machine.execMsgLeave slot s
  | .msgDepart slot => Sys2Proof.Machine.execMsgDepart slot s
  | .msgCap slot => Sys2Proof.Machine.execMsgCap slot s
  | .msgSyncHint slot => Sys2Proof.Machine.execMsgSyncHint slot s
  | .chunkHeaderArrival slot => Sys2Proof.Machine.execChunkHeaderArrival slot s
  | .msgPlan slot => Sys2Proof.Machine.execMsgPlan slot s
  | .msgPlanAck slot => Sys2Proof.Machine.execMsgPlanAck slot s
  | .msgGrant slot => Sys2Proof.Machine.execMsgGrant slot s
  | .msgChunkOk slot => Sys2Proof.Machine.execMsgChunkOk slot s
  | .msgHopFail slot => Sys2Proof.Machine.execMsgHopFail slot s
  | .msgPlanAbort slot => Sys2Proof.Machine.execMsgPlanAbort slot s
  | .msgDigestReq slot => Sys2Proof.Machine.execMsgDigestReq slot s
  | .msgDigest slot => Sys2Proof.Machine.execMsgDigest slot s
  | .msgStripeSet slot => Sys2Proof.Machine.execMsgStripeSet slot s
  | .msgStripeDrop slot => Sys2Proof.Machine.execMsgStripeDrop slot s
  | .msgSpreadOpen slot => Sys2Proof.Machine.execMsgSpreadOpen slot s
  | .msgRecordReq slot => Sys2Proof.Machine.execMsgRecordReq slot s
  | .msgRecord slot => Sys2Proof.Machine.execMsgRecord slot s
  | .relayTimeout stream => Sys2Proof.Machine.execRelayTimeout stream s
  | .softRst page => Sys2Proof.Machine.execSoftRst page s
  | .softResetEnd page selfOk => Sys2Proof.Machine.execSoftResetEnd page selfOk s
  | .selvReq page => Sys2Proof.Machine.execSelvReq page s
  | .snap page => Sys2Proof.Machine.execSnap page s
  | .glbSnapAll => Sys2Proof.Machine.execGlbSnapAll s
  | .errStatClear page value => Sys2Proof.Machine.execErrStatClear page value s
  | .irqStatClear page value => Sys2Proof.Machine.execIrqStatClear page value s
  | .weftSkewClr value => Sys2Proof.Machine.execWeftSkewClr value s
  | .rstCtlDevice value => Sys2Proof.Machine.execRstCtlDevice value s
  | .rstBootOk value => Sys2Proof.Machine.execRstBootOk value s
  | .drill value => Sys2Proof.Machine.execDrill value s
  | .ddrTrainFull value => Sys2Proof.Machine.execDdrTrainFull value s
  | .retrain value => Sys2Proof.Machine.execRetrain value s
  | .qenFetchHold value => Sys2Proof.Machine.execQenFetchHold value s
  | .warpArbWeightWrite port value => Sys2Proof.Machine.execWarpArbWeightWrite port value s
  | .hamperRegionCfg region value => Sys2Proof.Machine.execHamperRegionCfg region value s
  | .jnlMapcCfgWrite value => Sys2Proof.Machine.execJnlMapcCfgWrite value s
  | .shuTailAdvance sh value => Sys2Proof.Machine.execShuTailAdvance sh value s
  | .shuStop sh value => Sys2Proof.Machine.execShuStop sh value s
  | .shuFlush sh value => Sys2Proof.Machine.execShuFlush sh value s
  | .shuLineCfgWrite line value => Sys2Proof.Machine.execShuLineCfgWrite line value s
  | .softwareLinePost value => Sys2Proof.Machine.execSoftwareLinePost value s
  | .softwareLineRelease value => Sys2Proof.Machine.execSoftwareLineRelease value s
  | .twillTailAdvance eng value => Sys2Proof.Machine.execTwillTailAdvance eng value s
  | .twillStop eng value => Sys2Proof.Machine.execTwillStop eng value s
  | .twillFlush eng value => Sys2Proof.Machine.execTwillFlush eng value s
  | .digTailAdvance eng value => Sys2Proof.Machine.execDigTailAdvance eng value s
  | .digStop eng value => Sys2Proof.Machine.execDigStop eng value s
  | .digFlush eng value => Sys2Proof.Machine.execDigFlush eng value s
  | .kckTailAdvance eng value => Sys2Proof.Machine.execKckTailAdvance eng value s
  | .kckStop eng value => Sys2Proof.Machine.execKckStop eng value s
  | .kckFlush eng value => Sys2Proof.Machine.execKckFlush eng value s
  | .scnTailAdvance eng value => Sys2Proof.Machine.execScnTailAdvance eng value s
  | .scnStop eng value => Sys2Proof.Machine.execScnStop eng value s
  | .scnFlush eng value => Sys2Proof.Machine.execScnFlush eng value s
  | .mndTailAdvance value => Sys2Proof.Machine.execMndTailAdvance value s
  | .mndStop value => Sys2Proof.Machine.execMndStop value s
  | .mndFlush value => Sys2Proof.Machine.execMndFlush value s
  | .hedGroupCfgWrite grp value => Sys2Proof.Machine.execHedGroupCfgWrite grp value s
  | .hedCompactPack grp => Sys2Proof.Machine.execHedCompactPack grp s
  | .hedCompactSpread grp => Sys2Proof.Machine.execHedCompactSpread grp s
  | .hedGroupClear grp => Sys2Proof.Machine.execHedGroupClear grp s
  | .itnDec value => Sys2Proof.Machine.execItnDec value s
  | .itnQuery value => Sys2Proof.Machine.execItnQuery value s
  | .glbLogIndex value => Sys2Proof.Machine.execGlbLogIndex value s
  | .killRuns fn value => Sys2Proof.Machine.execKillRuns fn value s
  | .registerWrite master fn addr width value => Sys2Proof.Machine.execRegisterWrite master fn addr width value s
  | .izNop core => Sys2Proof.Machine.execIzNop core s
  | .izLit8 core imm => Sys2Proof.Machine.execIzLit8 core imm s
  | .izLit16 core imm => Sys2Proof.Machine.execIzLit16 core imm s
  | .izLit32 core imm => Sys2Proof.Machine.execIzLit32 core imm s
  | .izLit64 core imm => Sys2Proof.Machine.execIzLit64 core imm s
  | .izDup core => Sys2Proof.Machine.execIzDup core s
  | .izDrop core => Sys2Proof.Machine.execIzDrop core s
  | .izSwap core => Sys2Proof.Machine.execIzSwap core s
  | .izOver core => Sys2Proof.Machine.execIzOver core s
  | .izRot core => Sys2Proof.Machine.execIzRot core s
  | .izNip core => Sys2Proof.Machine.execIzNip core s
  | .izTuck core => Sys2Proof.Machine.execIzTuck core s
  | .izNth core imm => Sys2Proof.Machine.execIzNth core imm s
  | .izSetn core imm => Sys2Proof.Machine.execIzSetn core imm s
  | .izDropn core imm => Sys2Proof.Machine.execIzDropn core imm s
  | .izDup2 core => Sys2Proof.Machine.execIzDup2 core s
  | .izTor core => Sys2Proof.Machine.execIzTor core s
  | .izFromr core => Sys2Proof.Machine.execIzFromr core s
  | .izRfetch core => Sys2Proof.Machine.execIzRfetch core s
  | .izDepth core => Sys2Proof.Machine.execIzDepth core s
  | .izLitw core imm => Sys2Proof.Machine.execIzLitw core imm s
  | .izAdd core => Sys2Proof.Machine.execIzAdd core s
  | .izSub core => Sys2Proof.Machine.execIzSub core s
  | .izMul core => Sys2Proof.Machine.execIzMul core s
  | .izMulhu core => Sys2Proof.Machine.execIzMulhu core s
  | .izMulhs core => Sys2Proof.Machine.execIzMulhs core s
  | .izDivu core => Sys2Proof.Machine.execIzDivu core s
  | .izRemu core => Sys2Proof.Machine.execIzRemu core s
  | .izDivs core => Sys2Proof.Machine.execIzDivs core s
  | .izRems core => Sys2Proof.Machine.execIzRems core s
  | .izNeg core => Sys2Proof.Machine.execIzNeg core s
  | .izAnd core => Sys2Proof.Machine.execIzAnd core s
  | .izOr core => Sys2Proof.Machine.execIzOr core s
  | .izXor core => Sys2Proof.Machine.execIzXor core s
  | .izNot core => Sys2Proof.Machine.execIzNot core s
  | .izShl core => Sys2Proof.Machine.execIzShl core s
  | .izShr core => Sys2Proof.Machine.execIzShr core s
  | .izSar core => Sys2Proof.Machine.execIzSar core s
  | .izRol core => Sys2Proof.Machine.execIzRol core s
  | .izRor core => Sys2Proof.Machine.execIzRor core s
  | .izAddi core imm => Sys2Proof.Machine.execIzAddi core imm s
  | .izAddi32 core imm => Sys2Proof.Machine.execIzAddi32 core imm s
  | .izAndi core imm => Sys2Proof.Machine.execIzAndi core imm s
  | .izShli core imm => Sys2Proof.Machine.execIzShli core imm s
  | .izShri core imm => Sys2Proof.Machine.execIzShri core imm s
  | .izSari core imm => Sys2Proof.Machine.execIzSari core imm s
  | .izMinu core => Sys2Proof.Machine.execIzMinu core s
  | .izMaxu core => Sys2Proof.Machine.execIzMaxu core s
  | .izMins core => Sys2Proof.Machine.execIzMins core s
  | .izMaxs core => Sys2Proof.Machine.execIzMaxs core s
  | .izSext core imm => Sys2Proof.Machine.execIzSext core imm s
  | .izZext core imm => Sys2Proof.Machine.execIzZext core imm s
  | .izClz core => Sys2Proof.Machine.execIzClz core s
  | .izCtz core => Sys2Proof.Machine.execIzCtz core s
  | .izPopc core => Sys2Proof.Machine.execIzPopc core s
  | .izBfx core imm => Sys2Proof.Machine.execIzBfx core imm s
  | .izBfxs core imm => Sys2Proof.Machine.execIzBfxs core imm s
  | .izBfi core imm => Sys2Proof.Machine.execIzBfi core imm s
  | .izBperm core => Sys2Proof.Machine.execIzBperm core s
  | .izBswap core => Sys2Proof.Machine.execIzBswap core s
  | .izBfxv core => Sys2Proof.Machine.execIzBfxv core s
  | .izBfiv core => Sys2Proof.Machine.execIzBfiv core s
  | .izBpermi core imm => Sys2Proof.Machine.execIzBpermi core imm s
  | .izEq core => Sys2Proof.Machine.execIzEq core s
  | .izNe core => Sys2Proof.Machine.execIzNe core s
  | .izLtu core => Sys2Proof.Machine.execIzLtu core s
  | .izLeu core => Sys2Proof.Machine.execIzLeu core s
  | .izGtu core => Sys2Proof.Machine.execIzGtu core s
  | .izGeu core => Sys2Proof.Machine.execIzGeu core s
  | .izLts core => Sys2Proof.Machine.execIzLts core s
  | .izLes core => Sys2Proof.Machine.execIzLes core s
  | .izGts core => Sys2Proof.Machine.execIzGts core s
  | .izGes core => Sys2Proof.Machine.execIzGes core s
  | .izEqz core => Sys2Proof.Machine.execIzEqz core s
  | .izNez core => Sys2Proof.Machine.execIzNez core s
  | .izSelect core => Sys2Proof.Machine.execIzSelect core s
  | .izJmp core imm => Sys2Proof.Machine.execIzJmp core imm s
  | .izJz core imm => Sys2Proof.Machine.execIzJz core imm s
  | .izJnz core imm => Sys2Proof.Machine.execIzJnz core imm s
  | .izJmpl core imm => Sys2Proof.Machine.execIzJmpl core imm s
  | .izJzl core imm => Sys2Proof.Machine.execIzJzl core imm s
  | .izJnzl core imm => Sys2Proof.Machine.execIzJnzl core imm s
  | .izCall core imm => Sys2Proof.Machine.execIzCall core imm s
  | .izRet core => Sys2Proof.Machine.execIzRet core s
  | .izLoop core imm => Sys2Proof.Machine.execIzLoop core imm s
  | .izTrap core imm => Sys2Proof.Machine.execIzTrap core imm s
  | .izLd8 core => Sys2Proof.Machine.execIzLd8 core s
  | .izLd16 core => Sys2Proof.Machine.execIzLd16 core s
  | .izLd32 core => Sys2Proof.Machine.execIzLd32 core s
  | .izLd64 core => Sys2Proof.Machine.execIzLd64 core s
  | .izLds8 core => Sys2Proof.Machine.execIzLds8 core s
  | .izLds16 core => Sys2Proof.Machine.execIzLds16 core s
  | .izLds32 core => Sys2Proof.Machine.execIzLds32 core s
  | .izSt8 core => Sys2Proof.Machine.execIzSt8 core s
  | .izSt16 core => Sys2Proof.Machine.execIzSt16 core s
  | .izSt32 core => Sys2Proof.Machine.execIzSt32 core s
  | .izSt64 core => Sys2Proof.Machine.execIzSt64 core s
  | .izAadd core => Sys2Proof.Machine.execIzAadd core s
  | .izCas core => Sys2Proof.Machine.execIzCas core s
  | .izColl core => Sys2Proof.Machine.execIzColl core s
  | .izCopy core => Sys2Proof.Machine.execIzCopy core s
  | .izFence core => Sys2Proof.Machine.execIzFence core s
  | .izSubmit core => Sys2Proof.Machine.execIzSubmit core s
  | .izWait core => Sys2Proof.Machine.execIzWait core s
  | .izSpawn core => Sys2Proof.Machine.execIzSpawn core s
  | .izSignal core => Sys2Proof.Machine.execIzSignal core s
  | .izYield core => Sys2Proof.Machine.execIzYield core s
  | .izEnd core => Sys2Proof.Machine.execIzEnd core s
  | .izSelf core => Sys2Proof.Machine.execIzSelf core s
  | .izPnow core => Sys2Proof.Machine.execIzPnow core s
  | .izHsrch core => Sys2Proof.Machine.execIzHsrch core s
  | .izHsrchm core => Sys2Proof.Machine.execIzHsrchm core s
  | .izHnext core => Sys2Proof.Machine.execIzHnext core s
  | .izHins core => Sys2Proof.Machine.execIzHins core s
  | .izHdel core => Sys2Proof.Machine.execIzHdel core s
  | .izFeat core imm => Sys2Proof.Machine.execIzFeat core imm s
  | .izCore core => Sys2Proof.Machine.execIzCore core s
  | .izFuncn core => Sys2Proof.Machine.execIzFuncn core s
  | .izWld core => Sys2Proof.Machine.execIzWld core s
  | .izWst core => Sys2Proof.Machine.execIzWst core s
  | .izWld64 core => Sys2Proof.Machine.execIzWld64 core s
  | .izWst64 core => Sys2Proof.Machine.execIzWst64 core s
  | .izEvt core => Sys2Proof.Machine.execIzEvt core s
  | .izCrc32c core => Sys2Proof.Machine.execIzCrc32c core s
  | .izGfmul core => Sys2Proof.Machine.execIzGfmul core s
  | .izClmul core => Sys2Proof.Machine.execIzClmul core s
  | .izClmulh core => Sys2Proof.Machine.execIzClmulh core s
  | .porNAssert => Sys2Proof.Machine.execPorNAssert s
  | .pwrfailNDeassert => Sys2Proof.Machine.execPwrfailNDeassert s
  | .railBackInRange rail => Sys2Proof.Machine.execRailBackInRange rail s
  | .perstDeassert => Sys2Proof.Machine.execPerstDeassert s
  | .serviceButtonPress => Sys2Proof.Machine.execServiceButtonPress s
  | .vfEnableSet num => Sys2Proof.Machine.execVfEnableSet num s
  | .msixVectorUnmask fn vec => Sys2Proof.Machine.execMsixVectorUnmask fn vec s

end Sys2Proof.Machine
end

