-- ==== Sys2Proof/Machine/Step.lean ====
section
/-!
DEFINITION. One step of the block: the command at the front of the queue acts on the state with the queue's rest; with nothing waiting
the block idles.
-/
namespace Sys2Proof.Machine

/-- A step (DESIGN CHOICE, log entry 60: with an empty queue nothing changes; time passes by PICK_BOUNDARY). -/
def step (s : State) : Host.Outcome State Fault Refusal :=
  match s.pending with
  | [] => .next s
  | c :: rest => exec c { s with pending := rest }

/-- `s` with the command that a word of the opcode table spells put at the front of its queue: unchanged where it spells none. -/
def State.withFetchWord (s : State) (nbits w : Nat) : State :=
  match decodeTableWord nbits w with
  | some c => { s with pending := c :: s.pending }
  | none => s

end Sys2Proof.Machine
end

