-- ==== Sys2Proof/WellFormed.lean ====
section
/-!
DEFINITION. Well-formed commands: the units, channels, cores, functions and contexts a command names exist (R3, R44, R79), and an
instruction's immediate is one that R322 to R332 define.
-/
namespace Sys2Proof
open Machine

/-- A crossing ID of R471. -/
def crossingId (id : Nat) : Bool := id ≤ 0x04 || (0x10 ≤ id && id ≤ 0x30) || (0x40 ≤ id && id ≤ 0x4F)

/-- SEXT and ZEXT: 1, 2 or 4 bytes (R323). -/
def extWidth (imm : Byte) : Bool := imm.toNat = 1 || imm.toNat = 2 || imm.toNat = 4

/-- BFX, BFXS and BFI: LSB in the low byte, WIDTH of 1 or more in the high byte, within 64 bits (R324). -/
def fieldImm (imm : W16) : Bool := 1 ≤ imm.toNat / 256 && imm.toNat % 256 + imm.toNat / 256 ≤ 64

/-- Whether a command is well formed. -/
def wellFormed : Instr → Bool
  | .powerOnReset _ => true
  | .vddAonLoss => true
  | .corePllLockLost => true
  | .bootSlotSelect => true
  | .dieTableValidation _ _ => true
  | .channelTraining chan _ => chan < 32
  | .dramTraining _ _ _ _ => true
  | .restartIndex _ => true
  | .segmentRebuild _ _ => true
  | .pwrfailNAssert _ => true
  | .supplyMonitorTrip rail => rail < 7
  | .latchOpen => true
  | .latchClose => true
  | .powerFailAct => true
  | .sealRing _ => true
  | .powerRestoredReset => true
  | .perstAssert => true
  | .linkDown => true
  | .linkUp _ _ _ _ _ => true
  | .linkRecovery _ _ => true
  | .linkTrainingRetry => true
  | .cxlMemRead _ => true
  | .cxlMemWrite _ _ _ _ => true
  | .hdmDecoderCommit dec _ _ _ _ => dec < 2
  | .hostReadCompletion ctx _ _ _ => ctx < 16384
  | .uioWriteCompletion member _ => member < 1024
  | .identifyMemoryDevice => true
  | .getSupportedLogs => true
  | .getLog _ => true
  | .getEventRecords _ => true
  | .clearEventRecords _ => true
  | .getEventInterruptPolicy => true
  | .setEventInterruptPolicy _ => true
  | .getTimestamp => true
  | .setTimestamp _ => true
  | .doeDiscovery _ => true
  | .cdatTableAccess _ => true
  | .doeAbort => true
  | .doorbellWrite fn _ _ _ => fn < 128
  | .ccEnClear fn => fn < 128
  | .ccEnSet fn _ _ _ _ => fn < 128
  | .normalShutdown fn => fn < 128
  | .abruptShutdown fn => fn < 128
  | .flr fn => fn < 128
  | .vfEnableClear => true
  | .busMasterEnableClear fn => fn < 128
  | .busMasterEnableSet fn => fn < 128
  | .memorySpaceEnableClear fn => fn < 128
  | .sqeFetch _ _ => true
  | .createIoSq ctx => ctx < 16384
  | .createIoCq ctx => ctx < 16384
  | .deleteIoSq ctx => ctx < 16384
  | .deleteIoCq ctx => ctx < 16384
  | .getLogPage ctx => ctx < 16384
  | .identify ctx => ctx < 16384
  | .abort ctx => ctx < 16384
  | .setFeatures ctx => ctx < 16384
  | .getFeatures ctx => ctx < 16384
  | .asynchronousEventRequest ctx => ctx < 16384
  | .namespaceCreate ctx => ctx < 16384
  | .namespaceDelete ctx => ctx < 16384
  | .namespaceAttachment ctx => ctx < 16384
  | .firmwareImageDownload ctx => ctx < 16384
  | .firmwareCommitActivate ctx => ctx < 16384
  | .firmwareCommitAtReset ctx => ctx < 16384
  | .activationDrainEnd => true
  | .activationEnd _ => true
  | .activationDrainLimit => true
  | .deviceSelfTestShort ctx => ctx < 16384
  | .deviceSelfTestExtended ctx => ctx < 16384
  | .deviceSelfTestAbort ctx => ctx < 16384
  | .selfTestStep _ => true
  | .virtualizationManagement ctx => ctx < 16384
  | .formatNvm ctx => ctx < 16384
  | .sanitize ctx => ctx < 16384
  | .read ctx => ctx < 16384
  | .write ctx => ctx < 16384
  | .flush ctx => ctx < 16384
  | .datasetManagement ctx => ctx < 16384
  | .arm ctx => ctx < 16384
  | .lockoutEnd fn => fn < 128
  | .setPortion ctx => ctx < 16384
  | .getPortion ctx => ctx < 16384
  | .loadProgram ctx => ctx < 16384
  | .partialLoadDiscard fn handle => fn < 128 && handle < 16
  | .unloadProgram ctx => ctx < 16384
  | .runProgram ctx => ctx < 16384
  | .runResourceAcquire ctx => ctx < 16384
  | .runEntryTaskCreate run => run < 1024
  | .runEnd run => run < 1024
  | .runTimeout run => run < 1024
  | .keyLoad ctx => ctx < 16384
  | .keyErase ctx => ctx < 16384
  | .partyJoinFound ctx => ctx < 16384
  | .partyJoin ctx => ctx < 16384
  | .joinTimeout => true
  | .partyLeave ctx => ctx < 16384
  | .leaveTimeout => true
  | .partyStatus ctx => ctx < 16384
  | .logSwapStart ctx => ctx < 16384
  | .logSwapSwap ctx => ctx < 16384
  | .logSwapStop ctx => ctx < 16384
  | .dirtyLineWrite fn _ => fn < 128
  | .fuseRepair ctx => ctx < 16384
  | .compressWrite ctx => ctx < 16384
  | .decompressRead ctx => ctx < 16384
  | .scanRead ctx => ctx < 16384
  | .digestRead ctx => ctx < 16384
  | .spreadWrite ctx => ctx < 16384
  | .spreadOpenTimeout _ => true
  | .openStripeTimeout _ => true
  | .shardRead ctx => ctx < 16384
  | .mendRepair ctx => ctx < 16384
  | .mendVerify ctx => ctx < 16384
  | .mendDrop ctx => ctx < 16384
  | .writeClaim ctx => ctx < 16384
  | .stagingUnitComplete ctx => ctx < 16384
  | .journalWordDurable _ => true
  | .checkpointStart _ => true
  | .ctrlFieldFold => true
  | .unitProgramStart die => die < 512
  | .flashReadDone _ _ task => task.all (· < 65536)
  | .flashProgramDone die _ task => die < 512 && task.all (· < 65536)
  | .flashEraseDone _ _ chan task => chan < 32 && task.all (· < 65536)
  | .dieReadyTimeout die _ => die < 512
  | .dieRebuild die => die < 512
  | .fold _ => true
  | .garbageCollection => true
  | .refresh _ => true
  | .staticWearLevelling => true
  | .patrolRead => true
  | .dumpStandbyErase => true
  | .slcTargetUpdate => true
  | .dieTemperatureRead die _ => die < 512
  | .pickBoundary _ => true
  | .pickDistributionFailure => true
  | .activationPreempt core => core < 128
  | .coalescingWindowEnd fn vec => fn < 128 && vec < 2048
  | .apstTransition => true
  | .thermalUpdate _ _ => true
  | .hamperScrubStep _ => true
  | .dramScrubStep _ => true
  | .heddleCheck tile row _ => tile < 48 && row < 2048
  | .blockFatalEvent page _ _ => (pageAt page).isSome
  | .deviceFatalEvent _ => true
  | .fatalReset => true
  | .deviceReset => true
  | .bootWatchdogExpiry => true
  | .crossingWatchdogExpiry id _ => crossingId id
  | .branchNotAnswering branch => branch < 16
  | .serviceButtonRelease _ => true
  | .serviceButtonCancel => true
  | .removalRequest => true
  | .removalDrainLimit => true
  | .removalSeal => true
  | .removalAwayTimeout => true
  | .prsntNRise => true
  | .shuttleDescriptor sh _ _ => sh < 64
  | .shuttleDescriptorEnd sh => sh < 64
  | .linePost line _ _ _ => line < 32
  | .lineRelease line _ => line < 32
  | .twillCompress eng => eng < 8
  | .twillDecompress eng => eng < 8
  | .twillVerify eng => eng < 8
  | .twillJobEnd eng => eng < 16
  | .digestInit eng => eng < 4
  | .digestUpdate eng _ => eng < 4
  | .digestFinal eng _ => eng < 4
  | .digestOneshot eng => eng < 4
  | .digestCompare eng _ => eng < 4
  | .digestRelease eng => eng < 4
  | .digestJobEnd eng => eng < 4
  | .kckGenerate eng => eng < 2
  | .kckVerify eng => eng < 2
  | .kckJobEnd eng => eng < 2
  | .scanJob eng => eng < 8
  | .scanJobEnd eng => eng < 8
  | .menderMac => true
  | .menderJobEnd => true
  | .taskDispatch core => core < 128
  | .dependenceDecrement task => task < 65536
  | .taskAgeing task => task < 65536
  | .heartbeatSend => true
  | .heartbeat member => member < 1024
  | .silentMark member => member < 1024
  | .suspectSend member => member < 1024
  | .epochIssue => true
  | .lostMemberFree member => member < 1024
  | .messageResend member _ => member < 1024
  | .ackSend member => member < 1024
  | .capSend => true
  | .bar4Write _ _ _ => true
  | .msgAck slot => slot < 16384
  | .msgChunkNak slot => slot < 16384
  | .msgJoinReq slot => slot < 16384
  | .msgJoinNak slot => slot < 16384
  | .msgEpoch slot => slot < 16384
  | .msgSyncReq slot => slot < 16384
  | .msgRosterPart slot => slot < 16384
  | .msgSuspect slot => slot < 16384
  | .msgRetract slot => slot < 16384
  | .msgAway slot => slot < 16384
  | .msgBack slot => slot < 16384
  | .msgLeave slot => slot < 16384
  | .msgDepart slot => slot < 16384
  | .msgCap slot => slot < 16384
  | .msgSyncHint slot => slot < 16384
  | .chunkHeaderArrival slot => slot < 896
  | .msgPlan slot => slot < 16384
  | .msgPlanAck slot => slot < 16384
  | .msgGrant slot => slot < 16384
  | .msgChunkOk slot => slot < 16384
  | .msgHopFail slot => slot < 16384
  | .msgPlanAbort slot => slot < 16384
  | .msgDigestReq slot => slot < 16384
  | .msgDigest slot => slot < 16384
  | .msgStripeSet slot => slot < 16384
  | .msgStripeDrop slot => slot < 16384
  | .msgSpreadOpen slot => slot < 16384
  | .msgRecordReq slot => slot < 16384
  | .msgRecord slot => slot < 16384
  | .relayTimeout _ => true
  | .softRst _ => true
  | .softResetEnd _ _ => true
  | .selvReq _ => true
  | .snap _ => true
  | .glbSnapAll => true
  | .errStatClear _ _ => true
  | .irqStatClear _ _ => true
  | .weftSkewClr _ => true
  | .rstCtlDevice _ => true
  | .rstBootOk _ => true
  | .drill _ => true
  | .ddrTrainFull _ => true
  | .retrain _ => true
  | .qenFetchHold _ => true
  | .warpArbWeightWrite port _ => port < 8
  | .hamperRegionCfg region _ => region < 4
  | .jnlMapcCfgWrite _ => true
  | .shuTailAdvance sh _ => sh < 64
  | .shuStop sh _ => sh < 64
  | .shuFlush sh _ => sh < 64
  | .shuLineCfgWrite line _ => line < 32
  | .softwareLinePost _ => true
  | .softwareLineRelease _ => true
  | .twillTailAdvance eng _ => eng < 16
  | .twillStop eng _ => eng < 16
  | .twillFlush eng _ => eng < 16
  | .digTailAdvance eng _ => eng < 4
  | .digStop eng _ => eng < 4
  | .digFlush eng _ => eng < 4
  | .kckTailAdvance eng _ => eng < 2
  | .kckStop eng _ => eng < 2
  | .kckFlush eng _ => eng < 2
  | .scnTailAdvance eng _ => eng < 8
  | .scnStop eng _ => eng < 8
  | .scnFlush eng _ => eng < 8
  | .mndTailAdvance _ => true
  | .mndStop _ => true
  | .mndFlush _ => true
  | .hedGroupCfgWrite grp _ => grp < 8
  | .hedCompactPack grp => grp < 8
  | .hedCompactSpread grp => grp < 8
  | .hedGroupClear grp => grp < 8
  | .itnDec _ => true
  | .itnQuery _ => true
  | .glbLogIndex _ => true
  | .killRuns fn _ => fn < 128
  | .registerWrite master fn _ _ _ => master < 3 && fn < 128
  | .izNop core => core < 128
  | .izLit8 core _ => core < 128
  | .izLit16 core _ => core < 128
  | .izLit32 core _ => core < 128
  | .izLit64 core _ => core < 128
  | .izDup core => core < 128
  | .izDrop core => core < 128
  | .izSwap core => core < 128
  | .izOver core => core < 128
  | .izRot core => core < 128
  | .izNip core => core < 128
  | .izTuck core => core < 128
  | .izNth core imm => core < 128 && imm.toNat ≤ 30
  | .izSetn core imm => core < 128 && imm.toNat ≤ 30
  | .izDropn core imm => core < 128 && 1 ≤ imm.toNat && imm.toNat ≤ 32
  | .izDup2 core => core < 128
  | .izTor core => core < 128
  | .izFromr core => core < 128
  | .izRfetch core => core < 128
  | .izDepth core => core < 128
  | .izLitw core imm => core < 128 && imm.toNat ≤ 15
  | .izAdd core => core < 128
  | .izSub core => core < 128
  | .izMul core => core < 128
  | .izMulhu core => core < 128
  | .izMulhs core => core < 128
  | .izDivu core => core < 128
  | .izRemu core => core < 128
  | .izDivs core => core < 128
  | .izRems core => core < 128
  | .izNeg core => core < 128
  | .izAnd core => core < 128
  | .izOr core => core < 128
  | .izXor core => core < 128
  | .izNot core => core < 128
  | .izShl core => core < 128
  | .izShr core => core < 128
  | .izSar core => core < 128
  | .izRol core => core < 128
  | .izRor core => core < 128
  | .izAddi core _ => core < 128
  | .izAddi32 core _ => core < 128
  | .izAndi core _ => core < 128
  | .izShli core imm => core < 128 && imm.toNat ≤ 63
  | .izShri core imm => core < 128 && imm.toNat ≤ 63
  | .izSari core imm => core < 128 && imm.toNat ≤ 63
  | .izMinu core => core < 128
  | .izMaxu core => core < 128
  | .izMins core => core < 128
  | .izMaxs core => core < 128
  | .izSext core imm => core < 128 && extWidth imm
  | .izZext core imm => core < 128 && extWidth imm
  | .izClz core => core < 128
  | .izCtz core => core < 128
  | .izPopc core => core < 128
  | .izBfx core imm => core < 128 && fieldImm imm
  | .izBfxs core imm => core < 128 && fieldImm imm
  | .izBfi core imm => core < 128 && fieldImm imm
  | .izBperm core => core < 128
  | .izBswap core => core < 128
  | .izBfxv core => core < 128
  | .izBfiv core => core < 128
  | .izBpermi core _ => core < 128
  | .izEq core => core < 128
  | .izNe core => core < 128
  | .izLtu core => core < 128
  | .izLeu core => core < 128
  | .izGtu core => core < 128
  | .izGeu core => core < 128
  | .izLts core => core < 128
  | .izLes core => core < 128
  | .izGts core => core < 128
  | .izGes core => core < 128
  | .izEqz core => core < 128
  | .izNez core => core < 128
  | .izSelect core => core < 128
  | .izJmp core _ => core < 128
  | .izJz core _ => core < 128
  | .izJnz core _ => core < 128
  | .izJmpl core _ => core < 128
  | .izJzl core _ => core < 128
  | .izJnzl core _ => core < 128
  | .izCall core _ => core < 128
  | .izRet core => core < 128
  | .izLoop core _ => core < 128
  | .izTrap core _ => core < 128
  | .izLd8 core => core < 128
  | .izLd16 core => core < 128
  | .izLd32 core => core < 128
  | .izLd64 core => core < 128
  | .izLds8 core => core < 128
  | .izLds16 core => core < 128
  | .izLds32 core => core < 128
  | .izSt8 core => core < 128
  | .izSt16 core => core < 128
  | .izSt32 core => core < 128
  | .izSt64 core => core < 128
  | .izAadd core => core < 128
  | .izCas core => core < 128
  | .izColl core => core < 128
  | .izCopy core => core < 128
  | .izFence core => core < 128
  | .izSubmit core => core < 128
  | .izWait core => core < 128
  | .izSpawn core => core < 128
  | .izSignal core => core < 128
  | .izYield core => core < 128
  | .izEnd core => core < 128
  | .izSelf core => core < 128
  | .izPnow core => core < 128
  | .izHsrch core => core < 128
  | .izHsrchm core => core < 128
  | .izHnext core => core < 128
  | .izHins core => core < 128
  | .izHdel core => core < 128
  | .izFeat core imm => core < 128 && imm.toNat ≤ 3
  | .izCore core => core < 128
  | .izFuncn core => core < 128
  | .izWld core => core < 128
  | .izWst core => core < 128
  | .izWld64 core => core < 128
  | .izWst64 core => core < 128
  | .izEvt core => core < 128
  | .izCrc32c core => core < 128
  | .izGfmul core => core < 128
  | .izClmul core => core < 128
  | .izClmulh core => core < 128
  | .porNAssert => true
  | .pwrfailNDeassert => true
  | .railBackInRange rail => rail < 7
  | .perstDeassert => true
  | .serviceButtonPress => true
  | .vfEnableSet _ => true
  | .msixVectorUnmask fn vec => fn < 128 && vec < 2048

end Sys2Proof
end

