-- ==== Sys2Proof/Safety.lean ====
section
/-!
DEFINITION. What the claims call safe: sparse tables in their canonical form, a queue of well-formed commands, and the invariant that
joins them.
-/
namespace Sys2Proof.Machine

/-- The canonical form of the register table: addresses rise strictly and no entry equals the static reset value (R37, R44). -/
def regsWf : Tab W64 → Bool
  | [] => true
  | (a, v) :: t => v ≠ BitVec.ofNat 64 (regReset a) && tabAbove a t && regsWf t

/-- The keys of a table rise strictly. -/
def tabUp {α : Type} : Tab α → Bool
  | [] => true
  | (k, _) :: t => tabAbove k t && tabUp t

/-- The sparse tables behind registers, snapshots, the map, Hamper and DRAM with their marks and symbol errors are in canonical form:
equal contents are equal data. -/
def canonical (s : State) : Bool :=
  regsWf s.regs && tabWf 0 s.snaps && tabWf 0 s.map && tabWf 0 s.ham && tabWf false s.hamPoison && tabWf [] s.hamErr &&
  tabWf 0 s.dram && tabWf false s.dramPoison && tabWf [] s.dramErr

/-- The tables of the pages' pick counters, the Warp's weights, functions, Shuttles, lines, engines, digest contexts, Heddle entries and groups,
instruction caches, cores, tasks, ready lists, program images and runs list each number once, in rising order. -/
def ordered (s : State) : Bool :=
  tabUp s.lag && tabUp s.missed && tabUp s.weights && tabUp s.icache && tabUp s.fns && tabUp s.shus && tabUp s.lines &&
  tabUp s.engs && tabUp s.digs && tabUp s.hed && tabUp s.hgrp && tabUp s.cores && tabUp s.tasks && tabUp s.ready && tabUp s.progs &&
  tabUp s.runs

/-- Every command that waits is well formed. -/
def queueWf (s : State) : Bool := s.pending.all wellFormed

/-- The invariant that every step keeps. -/
def Inv (s : State) : Prop := canonical s = true ∧ ordered s = true ∧ queueWf s = true

/-- An outcome that is a next state. -/
def isNext : Host.Outcome State Fault Refusal → Bool
  | .next _ => true
  | _ => false

/-- The commands after which the part stands in power-on reset (R500, R501) or has just left it (R486). -/
def powersOn : Instr → Bool
  | .powerOnReset _ => true
  | .porNAssert => true
  | .vddAonLoss => true
  | .supplyMonitorTrip rail => rail = 6
  | _ => false

/-! ### Words for claims about Izkin instructions -/

/-- Core `n` runs task `t`, whose entry is `x`, and no store of it received an error response (R335, R344). -/
def Runs (n t : Nat) (x : Task) (s : State) : Prop :=
  n < 128 ∧ izTask n s = some t ∧ taskGet t s = x ∧ x.storeErr = false

/-- The instruction completes on core `n` in `clk` clocks: the task's entry becomes `y`, and the core counts and charges it. -/
def lands (n t clk : Nat) (y : Task) (s : State) : Host.Outcome State Fault Refusal := .next (izDone n t clk (taskSet t y s))

/-- The stacks of an entry fit: 32 data and 16 return entries (R312). -/
def Fits (x : Task) : Prop := x.stack.length ≤ 32 ∧ x.rstack.length ≤ 16

/-- The entry behind an instruction of `len` bytes, with another data stack. -/
def Task.after (x : Task) (len : Nat) (l : List W64) : Task := { x with pc := x.pc + BitVec.ofNat 24 len, stack := l }

end Sys2Proof.Machine
end

