-- ==== Sys2Proof/Certificates/Slice0/Obligations.lean ====
section
/-!
DEFINITION. The statements for the provers. Each docstring says which rules of spec/ the statement formalises.
-/
open Sys2Proof
open Sys2Proof.Machine

/-- One step runs the command at the front of the queue on the state with the queue's rest; with no command waiting it changes nothing
(the second is the model's choice, log entry 60). -/
def Obligations.StepRunsFront : Prop :=
  (∀ (c : Instr) (rest : List Instr) (s : State),
     step { s with pending := c :: rest } = exec c { s with pending := rest }) ∧
  (∀ s : State, s.pending = [] → step s = .next s)

/-- R21, R37, R194: what power-on reset leaves. The counter is 0, every register reads its reset value (headers: layout version 1.0,
AUTO 1, every interrupt masked), every Hamper byte is 0, and nothing waits, runs or is fenced; the form of `StepKeepsForm` holds. -/
def Obligations.ResetContents : Prop :=
  (State.reset.pick = 0 ∧ State.reset.pending = [] ∧ (∀ a, regGet a State.reset = regReset a % 2 ^ 64) ∧
   (∀ p ∈ allPages, regGet (p + 0x004) State.reset = 0x0100 ∧ regGet (p + 0x040) State.reset = 1 ∧
     regGet (p + 0x034) State.reset = 0xFFFFFFFF ∧ regGet (p + 0x018) State.reset = 0 ∧ regGet (p + 0x044) State.reset = 0 ∧
     fenced p State.reset = false) ∧
   (∀ a, tget 0 State.reset.ham a = 0) ∧ (∀ k, taskGet k State.reset = {}) ∧ State.reset.boot.phase = .rom) ∧
  (Inv State.reset)

/-- Every step keeps the form of the state: registers, snapshots, map, Hamper and DRAM in canonical form, every numbered table in
rising order, every waiting command well formed. -/
def Obligations.StepKeepsForm : Prop := ∀ s t : State, Inv s → step s = .next t → Inv t

/-- A command leaves the queue as it was; R21, R25: PICK_BOUNDARY answers a next state in which the counter has advanced by one (it
stands while the part is held in reset); the counter is 0 after power-on reset, and nothing else changes it. -/
def Obligations.PickCounter : Prop :=
  ∀ (c : Instr) (s t : State), Inv s → exec c s = .next t →
    t.pending = s.pending ∧
    (t.pick = s.pick ∨ ((∃ v, c = .pickBoundary v) ∧ t.pick = s.pick + 1) ∨ (powersOn c = true ∧ t.pick = 0)) ∧
    (∀ v : PickEnv, s.boot.phase ≠ .held → ∃ u, exec (.pickBoundary v) s = .next u ∧ u.pick = s.pick + 1 ∧ u.pending = s.pending) ∧
    (∀ v : PickEnv, s.boot.phase = .held → exec (.pickBoundary v) s = .next s)

/-- Every well-formed command answers a next state, and none is refused. CALL, whose function the image must hold, is the one
instruction whose immediate the syntax alone cannot check. -/
def Obligations.CommandsAnswer : Prop :=
  (∀ (c : Instr) (s : State), wellFormed c = true → (∀ n v, c ≠ .izCall n v) → ∃ t, exec c s = .next t) ∧
  (∀ (c : Instr) (s : State) (r : Refusal), exec c s ≠ .refused r)
/-- R194, R474, R486, R500, R501: power-on reset. POR_N low or VDD_AON out of range holds the part; when POR_N rises the straps are
latched and the boot ROM runs. The counter, the Hamper and the tasks are cleared, flash contents (but for what a dump that power cuts off
has added) and boot area survive, and a release while VDD_AON is out of range changes nothing. -/
def Obligations.PowerOnReset : Prop :=
  ∀ s : State,
    let keeps (u : State) := u.pick = 0 ∧ u.ham = [] ∧ u.hamPoison = [] ∧ u.tasks = [] ∧ u.map = [] ∧ u.pending = s.pending ∧
      (s.jnl.pf ≠ .dumping → u.media.pages = s.media.pages) ∧ u.boot.slots = s.boot.slots ∧ u.boot.recordA = s.boot.recordA ∧
      u.boot.recordB = s.boot.recordB
    (∀ straps, s.boot.aonLow = false → ∃ u, exec (.powerOnReset straps) s = .next u ∧ keeps u ∧ u.boot.phase = .rom ∧
      u.boot.straps = straps ∧ u.boot.porLow = false ∧
      u.hamx.active = s.hamx.factory ++ s.hamx.field.filter (·.good)) ∧
    (∀ straps, s.boot.aonLow = true → exec (.powerOnReset straps) s = .next s) ∧
    (∃ u, exec .porNAssert s = .next u ∧ keeps u ∧ u.boot.phase = .held ∧ u.boot.porLow = true) ∧
    (∀ c : Instr, (c = .vddAonLoss ∨ c = .supplyMonitorTrip 6) →
      ∃ u, exec c s = .next u ∧ keeps u ∧ u.boot.phase = .held ∧ u.boot.aonLow = true) ∧
    exec (.railBackInRange 6) s = .next { s with boot := { s.boot with aonLow := false } } ∧
    (∀ r, r < 6 → exec (.railBackInRange r) s =
      .next { s with boot := { s.boot with railsLow := tset false r false s.boot.railsLow } })

/-- R166, R172, R491, R500, R504: the triggers. From a running part each starts the sequence with its SEAL REASON at the present pick;
a part held in reset and a second trigger start nothing, but of PWRFAIL_N and the monitor in one pick the seal records REASON 1. A pulse
between 120 and 160 ns may be detected or not. Nothing else changes but the pins' levels, DRILL, and the latch's event 0x8084. -/
def Obligations.PowerFailTriggers : Prop :=
  ∀ (s : State),
    let after (reason : Nat) : Jnl :=
      if s.boot.phase = .held then s.jnl
      else if s.jnl.pf = .none then { s.jnl with pf := .triggered, pfReason := reason, pfAt := pickN s }
      else if reason = 1 ∧ s.jnl.pf = .triggered ∧ s.jnl.pfAt = pickN s ∧ s.jnl.pfReason = 2 then { s.jnl with pfReason := 1 }
      else s.jnl
    let pin (low : Bool) : Boot := { s.boot with pwrfailLow := low, goodPicks := 0 }
    let opened : State := { s with svc := { s.svc with latchOpen := true }, boot := { s.boot with goodPicks := 0 } }
    (∀ ns, 160 ≤ ns → exec (.pwrfailNAssert ns) s = .next { s with boot := pin true, jnl := after 1 }) ∧
    (∀ ns, ns ≤ 120 → exec (.pwrfailNAssert ns) s = .next { s with boot := pin false }) ∧
    (∀ ns, 120 < ns → ns < 160 →
      exec (.pwrfailNAssert ns) s = .next { s with boot := pin false, free := s.free + 1, jnl := after 1 } ∨
      exec (.pwrfailNAssert ns) s = .next { s with boot := pin false, free := s.free + 1 }) ∧
    (∀ r, r < 6 → exec (.supplyMonitorTrip r) s =
      .next { s with boot := { s.boot with railsLow := tset false r true s.boot.railsLow, goodPicks := 0 }, jnl := after 2 }) ∧
    (∀ v : W32, v.toNat % 2 = 1 → s.boot.phase ≠ .held →
      exec (.drill v) s = .next { regSetFld (pgJnl + 0x134) 0 0 1 s with jnl := after 5 }) ∧
    (∀ v : W32, v.toNat % 2 = 0 ∨ s.boot.phase = .held → exec (.drill v) s = .next s) ∧
    (s.svc.latchOpen = true → exec .latchOpen s = .next s) ∧
    (s.svc.latchOpen = false →
      (s.boot.phase = .held → exec .latchOpen s = .next opened) ∧
      (s.boot.phase ≠ .held → removalPending s = false →
        exec .latchOpen s = .next { note 0x8084 pgSvc 0 opened with jnl := after 3 }) ∧
      (s.boot.phase ≠ .held → removalPending s = true → s.svc.removal = .ready → exec .latchOpen s = .next opened) ∧
      (s.boot.phase ≠ .held → removalPending s = true → s.svc.removal ≠ .ready →
        exec .latchOpen s = .next { opened with svc := { opened.svc with latchWarn := true } })) ∧
    exec .pwrfailNDeassert s = .next { s with boot := { s.boot with pwrfailLow := false } } ∧
    exec .latchClose s = .next { s with svc := { s.svc with latchOpen := false, latchWarn := false } }

/-- R167, R172: the sequence. Pick 0 comes at the first boundary after the trigger; the seal in picks D − 4 to D seals the ring
with its REASON, stops flash power and saves the event log; a die that fails there is marked failed; the reset after the seal is
requested once power and the latch have been good for 256 picks. Where the spec leaves a point open it follows the model's choice,
log entry 142. -/
def Obligations.PowerFailSequence : Prop :=
  ∀ (s : State),
    (s.jnl.pf = .triggered → s.jnl.pfAt < pickN s → ∃ u, exec .powerFailAct s = .next u ∧ u.jnl.pf = .dumping ∧
      u.jnl.pfAt = pickN s ∧ u.qe.actPhase = 0 ∧ u.svc.removal = .idle ∧ u.boot = s.boot ∧ u.pick = s.pick ∧ u.cxl = s.cxl) ∧
    (s.jnl.pf = .triggered → pickN s ≤ s.jnl.pfAt → exec .powerFailAct s = .next s) ∧
    (s.jnl.pf = .dumping → s.jnl.pfAt + regFld (pgJnl + 0x130) 15 0 s ≤ pickN s + 4 → s.die.failed = false →
      (∃ u, exec (.sealRing true) s = .next u ∧ u.jnl.pf = .sealed ∧ u.die.sealed = true ∧ u.die.sealReason = s.jnl.pfReason ∧
        u.boot.flPwrEn = false ∧ (s.boot.phase ≠ .fatal → u.boot.phase = .sealed) ∧ u.log.savedValid = true ∧
        u.svc.removal = (if s.jnl.pfReason = 3 then .latch else .idle) ∧ u.dram = s.dram ∧ u.party = s.party ∧ u.mender = s.mender ∧
        u.pick = s.pick) ∧
      (∃ u, exec (.sealRing false) s = .next u ∧ u.die = { s.die with failed := true } ∧ u.jnl = s.jnl)) ∧
    (s.jnl.pf = .sealed → 256 ≤ s.boot.goodPicks → powerGood s = true → s.boot.stuck = false →
      (∀ p, Due.reset 0 p ∉ s.due) → exec .powerRestoredReset s = .next { s with due := s.due ++ [.reset 0 (pickN s + 1)] }) ∧
    (s.jnl.pf = .sealed → s.boot.goodPicks < 256 → exec .powerRestoredReset s = .next s)

/-- R493, R494: the thermal factor falls to its target at once and rises by 16 at most; PS2 is forced at the junction limit;
THERMTRIP_N latches 10 °C above it. One update acts in each bolt. R103: after the idle time an idle part enters PS3 and keeps its
operational state for the exit. Where the spec leaves a point open it follows the model's choice, log entry 87. -/
def Obligations.ThermalAndIdle : Prop :=
  ∀ (s : State),
    (∀ (tj dram : List Int), s.pwr.thermBolt ≠ boltN s + 1 → s.boot.phase ≠ .held → boltN s % 16 ≠ 0 →
      let l := (List.range 8).map fun i => temp8 (tj.getD i 0)
      let top := l.foldl max (l.headD 0)
      let limit : Int := if Config.gradeX then 105 else 100
      let m := (leastMargin (margins top s)).2
      let margin : Int := (regFld (pgPwr + 0x108) 4 0 s : Nat)
      let star : Nat := if margin ≤ m then 256 else if 1 ≤ m then max 32 (256 * m / margin).toNat else 32
      ∃ u, exec (.thermalUpdate tj dram) s = .next u ∧ u.pwr.thermBolt = boltN s + 1 ∧
        u.pwr.tf = (if star ≤ s.pwr.tf then star else min star (s.pwr.tf + 16)) ∧
        (limit ≤ top → u.pwr.forced = true) ∧ (s.pwr.forced = false → top < limit → u.pwr.forced = false) ∧
        u.pwr.thermtrip = (s.pwr.thermtrip || decide (limit + 10 ≤ top)) ∧ u.boot = s.boot ∧ u.pick = s.pick ∧
        u.jnl = { s.jnl with slots := u.jnl.slots } ∧ u.map = s.map ∧ u.die = s.die) ∧
    (s.pwr.thermBolt = boltN s + 1 → ∀ tj dram, exec (.thermalUpdate tj dram) s = .next s) ∧
    (lowTarget s = some 3 → s.boot.phase = .ready → s.jnl.pf = .none → idleNow s = true → s.pwr.ps < 3 →
      ∃ u, exec .apstTransition s = .next u ∧ u.pwr = { s.pwr with ps := 3, lastOp := s.pwr.ps } ∧
        u = { s with pwr := u.pwr, regs := u.regs }) ∧
    (idleNow s = false → exec .apstTransition s = .next s)
/-- R463, R466, R474 to R477: the resets of the running part. A device, PERST_FULL or boot-watchdog reset whose pick has come clears runs, Shuttles, lines, engines and keys,
keeps the counter and holds the blocks for 64 picks; a fatal one rebuilds the map. The watchdog asks for a reset with cause BOOT_WDOG;
RST_CTL acts only with KEY 0xA5, and on a fenced page not at all. -/
def Obligations.Resets : Prop :=
  ∀ (s : State), Inv s →
    let cleared (u : State) := u.boot.phase = .rom ∧ u.boot.holdUntil = pickN s + 64 ∧ u.pick = s.pick ∧ u.pending = s.pending ∧
      u.runs = [] ∧ u.shus = [] ∧ u.lines = [] ∧ u.engs = [] ∧ u.keys = [] ∧ u.progs = [] ∧ u.boot.slots = s.boot.slots
    (mayReset s = true → resetDue 0 s = true → ∃ u, exec .deviceReset s = .next u ∧ cleared u) ∧
    (mayReset s = true → resetDue 0 s = false → (resetDue 3 s = true ∨ (resetDue 2 s = true ∧ resetDue 1 s = false)) →
      ∃ u, exec .deviceReset s = .next u ∧ cleared u) ∧
    (mayReset s = true → resetDue 1 s = true → resetDue 0 s = false → resetDue 3 s = false →
      ∃ u, exec .fatalReset s = .next u ∧ cleared u ∧ u.map = [] ∧ u.dram = [] ∧ u.boot.lastFatalReset = some (boltN s)) ∧
    (∀ k, k = .deviceReset ∨ k = .fatalReset → mayReset s = false → exec k s = .next s) ∧
    (∀ p, s.boot.wdogFrom = some p → regGet (pgClk + 0x188) s ≠ 0 → p + regGet (pgClk + 0x188) s ≤ pickN s → running s = true →
      s.boot.stuck = false → ∃ u, exec .bootWatchdogExpiry s = .next u ∧ u.boot.wdogFrom = none ∧
        Due.reset 2 (pickN s + 1) ∈ u.due) ∧
    (∀ v : W32, fenced pgClk s = false → v.toNat / 256 % 256 = 0xA5 → v.toNat % 2 = 1 → s.boot.stuck = false →
      exec (.rstCtlDevice v) s = .next { s with due := s.due ++ [.reset 0 (pickN s + 1)] }) ∧
    (∀ v : W32, (v.toNat / 256 % 256 = 0xA5 ∧ s.boot.stuck = true) ∨ fenced pgClk s = true → exec (.rstCtlDevice v) s = .next s) ∧
    (∀ v : W32, fenced pgClk s = false → v.toNat / 256 % 256 ≠ 0xA5 → exec (.rstCtlDevice v) s = .next (note 0x8203 pgClk v.toNat s))

/-- R114, R115, R179, R182, R477, R484, R485, R487: the boot ROM runs the first slot of its order that passes, leaves out the one
that expired the watchdog, and enters recovery mode when none passes or RECOVERY is 1; the slowest channel sets the DRAM's speed;
a flash channel takes the best bin it reaches; without a valid copy of the die table the part comes up degraded. Where the spec
leaves a point open it follows the model's choice, log entry 78. -/
def Obligations.BootAndTraining : Prop :=
  (∀ (s : State), Inv s →
     (s.boot.phase = .rom → s.boot.holdUntil ≤ pickN s → s.jnl.pf = .none →
       (s.boot.straps.toNat / 4 % 2 = 1 → ∃ u, exec .bootSlotSelect s = .next u ∧ u.boot.phase = .recovery ∧ u.boot.lastSlot = 0) ∧
       (∀ k, s.boot.straps.toNat / 4 % 2 = 0 →
         (bootOrder s).find? (fun j => j ≠ regFld (pgPwr + 0x10C) 7 6 s && slotGood j s) = some k →
         ∃ u, exec .bootSlotSelect s = .next u ∧ u.boot.lastSlot = k ∧
           (u.boot.phase = .firmware ∨ (u.boot.phase = .ready ∧ u.boot.degraded = true)) ∧
           u.nss.map Prod.fst = s.die.ns.map Prod.fst) ∧
       (s.boot.straps.toNat / 4 % 2 = 0 →
         (∀ j ∈ bootOrder s, j = regFld (pgPwr + 0x10C) 7 6 s ∨ slotGood j s = false) →
         ∃ u, exec .bootSlotSelect s = .next u ∧ u.boot.phase = .recovery)) ∧
     (s.boot.phase = .rom → pickN s < s.boot.holdUntil → exec .bootSlotSelect s = .next s) ∧
     (∀ v : W32, v.toNat % 2 = 1 → running s = true → fenced pgClk s = false → ∃ u, exec (.rstBootOk v) s = .next u ∧ u.boot.wdogFrom = none ∧
       regGet (pgClk + 0x18C) u = 1 ∧
       (∀ r b, bootRecord s = some (r, b) → r.pending = true → ∃ r', bootRecord u = some (r', !b) ∧ r'.active = r.active ∧
         r'.lastGood = r.active ∧ r'.pending = false ∧ r'.seq = r.seq + 1))) ∧
  (∀ (s : State),
     (∀ (speeds : List Nat) (gib bolts module : Nat), s.boot.phase = .firmware → s.ddr.trained = false → fenced pgDdr s = false →
       s.jnl.pf = .none → (gib = 16 ∨ gib = 32 ∨ gib = 64) →
       (∀ low, 1 ≤ low → low ≤ 3 → (∀ c, c < 4 → low ≤ speeds.getD c 0) → (low = 3 ∨ ∃ c, c < 4 ∧ speeds.getD c 0 = low) →
         ∃ u, exec (.dramTraining speeds gib bolts module) s = .next u ∧ u.ddr.trained = true ∧ u.ddr.speed = low ∧ u.ddr.capGib = gib ∧
           u.ddr.fast = (s.die.ddrValid && decide (s.die.ddrModule = module % 2 ^ 64)) ∧ u.die.ddrValid = true ∧ u.boot = s.boot ∧ u.ham = s.ham) ∧
       ((∃ c, c < 4 ∧ speeds.getD c 0 = 0) → ∃ u, exec (.dramTraining speeds gib bolts module) s = .next u ∧ u.ddr.trained = false ∧
         u.ham = s.ham)) ∧
     (∀ v : W32, v.toNat % 2 = 1 → fenced pgDdr s = false → ∃ u, exec (.ddrTrainFull v) s = .next u ∧ u.die.ddrValid = false ∧
       u.ddr = s.ddr) ∧
     (∀ v : W32, v.toNat % 2 = 0 ∨ fenced pgDdr s = true → exec (.ddrTrainFull v) s = .next s) ∧
     (∀ agree bad, s.boot.phase = .firmware → s.media.tableOk = false → fenced pgDdr s = false → s.jnl.pf = .none →
       (tableOk s.boot.dieTableA = true ∨ tableOk s.boot.dieTableB = true → ∃ u, exec (.dieTableValidation agree bad) s = .next u ∧
         u.media.tableOk = true ∧ u.boot = { s.boot with flPwrEn := true }) ∧
       (tableOk s.boot.dieTableA = false → tableOk s.boot.dieTableB = false → ∃ u, exec (.dieTableValidation agree bad) s = .next u ∧
         u.media = s.media ∧ u.boot.degraded = true ∧ u.boot.phase = .ready)) ∧
     (∀ chan bin r, chan < 32 → s.media.tableOk = true → s.boot.phase = .firmware → s.jnl.pf = .none → fenced (pgFch chan) s = false →
       r < 16 → dieOk (dieNo chan r) s = true → 1 ≤ min bin (binTarget chan s) →
       ∃ u, exec (.channelTraining chan bin) s = .next u ∧ (chanGet chan u).trained = true ∧
         (chanGet chan u).bin = min bin (binTarget chan s) ∧ (∀ c, c ≠ chan → chanGet c u = chanGet c s) ∧ u.media.dies = s.media.dies))

/-- R157, R161 to R163, R165, R173 to R175, R181: the journal. The die acknowledges the oldest word: its records stand at the head
of the ring; a die that fails is marked; control values are folded once per 256 bolts, and the newer valid copy of the two then
holds the value; the restart indexes the ring and makes the part ready; a building segment is rebuilt; a segment with 65,536
records is checkpointed as it stands; JNL_MAPC_CFG acts at the next boundary. Where the spec leaves a point open it follows the
model's choice, log entries 133 and 134. -/
def Obligations.JournalAndRestart : Prop :=
  ∀ (s : State),
    (∀ w rest, s.jnl.issued = w :: rest → w.acts = [] → s.die.failed = false → s.jnl.pf ≠ .sealed →
      ∃ u, exec (.journalWordDurable true) s = .next u ∧ u.jnl.issued = rest ∧ u.die.head = s.die.head + w.recs.length ∧
        u.die.ring = w.recs.zipIdx.foldl (fun r p => tset 0 ((s.die.head + p.2) % ringN) p.1 r) s.die.ring ∧ u.map = s.map ∧
        u.media = s.media) ∧
    (s.jnl.issued ≠ [] → s.die.failed = false → s.jnl.pf ≠ .sealed →
      ∃ u, exec (.journalWordDurable false) s = .next u ∧ u.die = { s.die with failed := true } ∧ u.jnl = s.jnl) ∧
    (s.die.ctrlDirty ≠ [] → s.die.foldBolt + 256 ≤ boltN s → s.die.failed = false → s.jnl.pf ≠ .sealed →
      ∃ u, exec .ctrlFieldFold s = .next u ∧ u = { s with die := u.die } ∧ u.die.ctrlDirty = [] ∧ u.die.foldBolt = boltN s ∧
        u.die.ring = s.die.ring ∧ u.die.head = s.die.head ∧
        (∀ e, s.die.ctrlDirty = [(e, 1)] →
          (∀ q, ctlNewest (ctlWord (e / 65536) (e % 65536)) s.die = some q → q.2.1 + 1 < 2 ^ 32) →
          (ctlNewest (ctlWord (e / 65536) (e % 65536)) u.die).map (fun q => q.2.2) =
            some (ctlValue (e / 65536) (e % 65536) s.die % 2 ^ 192))) ∧
    (boltN s < s.die.foldBolt + 256 → exec .ctrlFieldFold s = .next s) ∧
    (∀ picks, restartReady s = true → ∃ u, exec (.restartIndex picks) s = .next u ∧ u.boot.phase = .ready ∧ u.jnl.indexed = true ∧
      u.die.sealed = false ∧ u.nss.map Prod.fst = s.die.ns.map Prod.fst ∧ u.pick = s.pick) ∧
    (∀ seg ok, s.jnl.indexed = true → mediaUp s = true → segState seg s = .building → tabUp s.jnl.segs = true → seg ∉ s.jnl.promoQ →
      ringBadIn (tget (0, 0) s.die.ckpt seg).1 (tget 0 s.jnl.replayTo seg) s = false →
      ∃ u, exec (.segmentRebuild seg ok) s = .next u ∧ segState seg u = .built ∧ u.media.pages = s.media.pages ∧ u.nss = s.nss ∧
        u.pick = s.pick) ∧
    (∀ seg, mediaUp s = true → s.jnl.indexed = true → 65536 ≤ tget 0 s.jnl.segRecs seg →
      exec (.checkpointStart seg) s = .next (mediaTurn (placeAll (checkpoint seg s))) ∧
      (segState seg s = .built → seg < segTotal s → (tget {} s.jnl.ckpts seg).left = 0 →
        mapPoisoned (segRange seg).1 (segRange seg).2 s = false →
        (tget {} (checkpoint seg s).jnl.ckpts seg).start = jHead s ∧ (tget {} (checkpoint seg s).jnl.ckpts seg).left = 2048 ∧
        (∀ i, tget 0 (tget {} (checkpoint seg s).jnl.ckpts seg).copy i =
          if 33554432 * seg < 5 * i + 5 ∧ 5 * i < 33554432 * (seg + 1) then tget 0 s.map i else 0))) ∧
    (∀ v : W32, ∃ m u, exec (.jnlMapcCfgWrite v) s = .next u ∧ Due.reg (pgJnl + 0x160) m ∈ u.due ∧
      m = BitVec.ofNat 64 (mergeRw (pgJnl + 0x160) 31 0 v.toNat s).1)
/-- R322: what the stack group does to the data stack (top first), the return stack and the pc, and its clocks. -/
def Obligations.StackGroup : Prop :=
  ∀ (n t : Nat) (x : Task) (s : State), Runs n t x s → Fits x →
    exec (.izNop n) s = lands n t 1 (x.after 1 x.stack) s ∧
    (x.stack.length < 32 →
      (∀ v, exec (.izLit8 n v) s = lands n t 1 (x.after 2 (v.signExtend 64 :: x.stack)) s) ∧
      (∀ v, exec (.izLit16 n v) s = lands n t 1 (x.after 3 (v.signExtend 64 :: x.stack)) s) ∧
      (∀ v, exec (.izLit32 n v) s = lands n t 1 (x.after 5 (v.signExtend 64 :: x.stack)) s) ∧
      (∀ v, exec (.izLit64 n v) s = lands n t 1 (x.after 9 (v :: x.stack)) s) ∧
      (∀ v, v.toNat ≤ 15 → exec (.izLitw n v) s = lands n t 1 (x.after 2 (BitVec.ofNat 64 (v.toNat * 2 ^ 60) :: x.stack)) s) ∧
      exec (.izDepth n) s = lands n t 1 (x.after 1 (BitVec.ofNat 64 x.stack.length :: x.stack)) s ∧
      (∀ v r, x.rstack = v :: r →
        exec (.izFromr n) s = lands n t 1 { x.after 1 (v :: x.stack) with rstack := r } s ∧
        exec (.izRfetch n) s = lands n t 1 (x.after 1 (v :: x.stack)) s)) ∧
    (∀ a r, x.stack = a :: r →
      exec (.izDrop n) s = lands n t 1 (x.after 1 r) s ∧
      (r.length < 31 → exec (.izDup n) s = lands n t 1 (x.after 1 (a :: a :: r)) s) ∧
      (x.rstack.length < 16 → exec (.izTor n) s = lands n t 1 { x.after 1 r with rstack := a :: x.rstack } s) ∧
      (∀ i : Byte, i.toNat ≤ 30 → i.toNat < r.length → exec (.izSetn n i) s = lands n t 1 (x.after 2 (r.set i.toNat a)) s)) ∧
    (∀ a b r, x.stack = b :: a :: r →
      exec (.izSwap n) s = lands n t 1 (x.after 1 (a :: b :: r)) s ∧
      exec (.izNip n) s = lands n t 1 (x.after 1 (b :: r)) s ∧
      (r.length < 30 →
        exec (.izOver n) s = lands n t 1 (x.after 1 (a :: b :: a :: r)) s ∧
        exec (.izTuck n) s = lands n t 1 (x.after 1 (b :: a :: b :: r)) s) ∧
      (r.length < 29 → exec (.izDup2 n) s = lands n t 1 (x.after 1 (b :: a :: b :: a :: r)) s)) ∧
    (∀ a b c r, x.stack = c :: b :: a :: r → exec (.izRot n) s = lands n t 1 (x.after 1 (a :: c :: b :: r)) s) ∧
    (∀ (i : Byte) v, i.toNat ≤ 30 → x.stack[i.toNat]? = some v → x.stack.length < 32 →
      exec (.izNth n i) s = lands n t 1 (x.after 2 (v :: x.stack)) s) ∧
    (∀ i : Byte, 1 ≤ i.toNat → i.toNat ≤ x.stack.length →
      exec (.izDropn n i) s = lands n t 1 (x.after 2 (x.stack.drop i.toNat)) s)

/-- R323, R333: the arithmetic and logic group: its two-operand rows, its one-operand rows at every immediate the table defines, and
the two-byte rows: products over GF(2^8) byte by byte and the low and high half of the carry-less product. -/
def Obligations.Arithmetic : Prop :=
  (∀ (n t : Nat) (x : Task) (s : State) (a b : W64) (r : List W64), Runs n t x s → Fits x → x.stack = b :: a :: r →
     let gives (clk : Nat) (v : W64) := lands n t clk (x.after 1 (v :: r)) s
     exec (.izAdd n) s = gives 1 (a + b) ∧ exec (.izSub n) s = gives 1 (a - b) ∧ exec (.izMul n) s = gives 3 (a * b) ∧
     exec (.izMulhu n) s = gives 4 (BitVec.ofNat 64 (a.toNat * b.toNat / 2 ^ 64)) ∧
     exec (.izMulhs n) s = gives 4 (BitVec.ofInt 64 (a.toInt * b.toInt / 2 ^ 64)) ∧
     exec (.izDivu n) s = gives 40 (if b = 0 then BitVec.ofNat 64 (2 ^ 64 - 1) else BitVec.ofNat 64 (a.toNat / b.toNat)) ∧
     exec (.izRemu n) s = gives 40 (if b = 0 then a else BitVec.ofNat 64 (a.toNat % b.toNat)) ∧
     exec (.izDivs n) s = gives 40 (if b = 0 then BitVec.ofInt 64 (-1) else BitVec.ofInt 64 (a.toInt.tdiv b.toInt)) ∧
     exec (.izRems n) s = gives 40 (if b = 0 then a else BitVec.ofInt 64 (a.toInt.tmod b.toInt)) ∧
     exec (.izAnd n) s = gives 1 (a &&& b) ∧ exec (.izOr n) s = gives 1 (a ||| b) ∧ exec (.izXor n) s = gives 1 (a ^^^ b) ∧
     exec (.izShl n) s = gives 1 (a <<< (b.toNat % 64)) ∧ exec (.izShr n) s = gives 1 (a >>> (b.toNat % 64)) ∧
     exec (.izSar n) s = gives 1 (a.sshiftRight (b.toNat % 64)) ∧
     exec (.izRol n) s = gives 1 (a.rotateLeft (b.toNat % 64)) ∧ exec (.izRor n) s = gives 1 (a.rotateRight (b.toNat % 64)) ∧
     exec (.izMinu n) s = gives 1 (BitVec.ofNat 64 (min a.toNat b.toNat)) ∧
     exec (.izMaxu n) s = gives 1 (BitVec.ofNat 64 (max a.toNat b.toNat)) ∧
     exec (.izMins n) s = gives 1 (BitVec.ofInt 64 (min a.toInt b.toInt)) ∧
     exec (.izMaxs n) s = gives 1 (BitVec.ofInt 64 (max a.toInt b.toInt))) ∧
  (∀ (n t : Nat) (x : Task) (s : State) (a : W64) (r : List W64), Runs n t x s → Fits x → x.stack = a :: r →
     let gives (len : Nat) (v : W64) := lands n t 1 (x.after len (v :: r)) s
     exec (.izNeg n) s = gives 1 (0 - a) ∧ exec (.izNot n) s = gives 1 (a ^^^ BitVec.ofNat 64 (2 ^ 64 - 1)) ∧
     (∀ v : Byte, exec (.izAddi n v) s = gives 2 (a + v.signExtend 64)) ∧
     (∀ v : W32, exec (.izAddi32 n v) s = gives 5 (a + v.signExtend 64)) ∧
     (∀ v : W32, exec (.izAndi n v) s = gives 5 (a &&& v.zeroExtend 64)) ∧
     (∀ v : Byte, v.toNat ≤ 63 → exec (.izShli n v) s = gives 2 (a <<< v.toNat) ∧ exec (.izShri n v) s = gives 2 (a >>> v.toNat) ∧
       exec (.izSari n v) s = gives 2 (a.sshiftRight v.toNat)) ∧
     exec (.izSext n 1) s = gives 2 ((a.truncate 8).signExtend 64) ∧ exec (.izSext n 2) s = gives 2 ((a.truncate 16).signExtend 64) ∧
     exec (.izSext n 4) s = gives 2 ((a.truncate 32).signExtend 64) ∧ exec (.izZext n 1) s = gives 2 ((a.truncate 8).zeroExtend 64) ∧
     exec (.izZext n 2) s = gives 2 ((a.truncate 16).zeroExtend 64) ∧ exec (.izZext n 4) s = gives 2 ((a.truncate 32).zeroExtend 64)) ∧
  (∀ (n t : Nat) (x : Task) (s : State) (a b : W64) (r : List W64), Runs n t x s → Fits x → x.stack = b :: a :: r →
     (∃ w : W64, (∀ k, k < 8 → byteOf w k = gfMul (byteOf a k) (byteOf b k)) ∧
       exec (.izGfmul n) s = lands n t 2 (x.after 2 (w :: r)) s) ∧
     (∃ p : Nat, p < 2 ^ 127 ∧
       (∀ i, p.testBit i = ((List.range 64).countP (fun j => b.getLsbD j && decide (j ≤ i) && a.getLsbD (i - j)) % 2 == 1)) ∧
       exec (.izClmul n) s = lands n t 3 (x.after 2 (BitVec.ofNat 64 (p % 2 ^ 64) :: r)) s ∧
       exec (.izClmulh n) s = lands n t 3 (x.after 2 (BitVec.ofNat 64 (p / 2 ^ 64) :: r)) s))

/-- R324, R325: the bit group, whose results are given bit by bit or byte by byte and whose counts by the bits around them; the compare
group, where every flag is 1 or 0 and SELECT keeps a where its flag is not 0. A field of no bits extracts 0 and inserts nothing. -/
def Obligations.BitsAndCompares : Prop :=
  (∀ (n t : Nat) (x : Task) (s : State), Runs n t x s → Fits x →
     (∀ a r, x.stack = a :: r →
       (∃ k, k ≤ 64 ∧ (∀ i, i < k → a.getLsbD (63 - i) = false) ∧ (k < 64 → a.getLsbD (63 - k) = true) ∧
         exec (.izClz n) s = lands n t 1 (x.after 1 (BitVec.ofNat 64 k :: r)) s) ∧
       (∃ k, k ≤ 64 ∧ (∀ i, i < k → a.getLsbD i = false) ∧ (k < 64 → a.getLsbD k = true) ∧
         exec (.izCtz n) s = lands n t 1 (x.after 1 (BitVec.ofNat 64 k :: r)) s) ∧
       exec (.izPopc n) s = lands n t 1 (x.after 1 (BitVec.ofNat 64 ((List.range 64).countP fun i => a.getLsbD i) :: r)) s ∧
       (∀ v : W16, 1 ≤ v.toNat / 256 → v.toNat % 256 + v.toNat / 256 ≤ 64 →
         exec (.izBfx n v) s = lands n t 1 (x.after 3 (bfx (v.toNat % 256) (v.toNat / 256) a :: r)) s ∧
         exec (.izBfxs n v) s = lands n t 1 (x.after 3 (bfxs (v.toNat % 256) (v.toNat / 256) a :: r)) s) ∧
       (∃ w : W64, (∀ k, k < 8 → byteOf w k = byteOf a (7 - k)) ∧ exec (.izBswap n) s = lands n t 1 (x.after 1 (w :: r)) s) ∧
       (∀ q : W64, ∃ w : W64, (∀ k, k < 8 → byteOf w k = if 128 ≤ byteOf q k then 0 else byteOf a (byteOf q k % 8)) ∧
         exec (.izBpermi n q) s = lands n t 1 (x.after 9 (w :: r)) s)) ∧
     (∀ a b r, x.stack = b :: a :: r →
       (∃ w : W64, (∀ k, k < 8 → byteOf w k = if 128 ≤ byteOf b k then 0 else byteOf a (byteOf b k % 8)) ∧
         exec (.izBperm n) s = lands n t 1 (x.after 1 (w :: r)) s) ∧
       (∀ v : W16, 1 ≤ v.toNat / 256 → v.toNat % 256 + v.toNat / 256 ≤ 64 →
         exec (.izBfi n v) s = lands n t 1 (x.after 3 (bfi (v.toNat % 256) (v.toNat / 256) a b :: r)) s)) ∧
     (∀ a l w r, x.stack = w :: l :: a :: r →
       exec (.izBfxv n) s = lands n t 1 (x.after 1 (bfx (l.toNat % 64) (min w.toNat (64 - l.toNat % 64)) a :: r)) s) ∧
     (∀ a v l w r, x.stack = w :: l :: v :: a :: r →
       exec (.izBfiv n) s = lands n t 1 (x.after 1 (bfi (l.toNat % 64) (min w.toNat (64 - l.toNat % 64)) a v :: r)) s) ∧
     (∀ (i lsb width : Nat) (a v : W64), lsb + width ≤ 64 →
       (bfx lsb width a).getLsbD i = (decide (i < width) && a.getLsbD (lsb + i)) ∧
       (1 ≤ width → (bfxs lsb width a).getLsbD i = (decide (i < 64) && a.getLsbD (lsb + min i (width - 1)))) ∧
       (bfi lsb width a v).getLsbD i =
         if lsb ≤ i ∧ i < lsb + width then v.getLsbD (i - lsb) else a.getLsbD i)) ∧
  (∀ (n t : Nat) (x : Task) (s : State), Runs n t x s → Fits x →
     (∀ a b r, x.stack = b :: a :: r →
       let gives (c : Bool) := lands n t 1 (x.after 1 ((if c then 1 else 0) :: r)) s
       exec (.izEq n) s = gives (a = b) ∧ exec (.izNe n) s = gives (a ≠ b) ∧ exec (.izLtu n) s = gives (a.toNat < b.toNat) ∧
       exec (.izLeu n) s = gives (a.toNat ≤ b.toNat) ∧ exec (.izGtu n) s = gives (b.toNat < a.toNat) ∧
       exec (.izGeu n) s = gives (b.toNat ≤ a.toNat) ∧ exec (.izLts n) s = gives (a.toInt < b.toInt) ∧
       exec (.izLes n) s = gives (a.toInt ≤ b.toInt) ∧ exec (.izGts n) s = gives (b.toInt < a.toInt) ∧
       exec (.izGes n) s = gives (b.toInt ≤ a.toInt)) ∧
     (∀ a r, x.stack = a :: r →
       exec (.izEqz n) s = lands n t 1 (x.after 1 ((if a = 0 then 1 else 0) :: r)) s ∧
       exec (.izNez n) s = lands n t 1 (x.after 1 ((if a = 0 then 0 else 1) :: r)) s) ∧
     (∀ a b c r, x.stack = c :: b :: a :: r →
       exec (.izSelect n) s = lands n t 1 (x.after 1 ((if c = 0 then b else a) :: r)) s))

/-- R326: branches move the pc from behind the instruction, CALL and RET use the return stack, LOOP counts on it; TRAP traps with
0x0B. -/
def Obligations.ControlGroup : Prop :=
  ∀ (n t : Nat) (x : Task) (s : State), Runs n t x s → Fits x →
    (∀ v : W16, exec (.izJmp n v) s = lands n t 2 { x with pc := x.pc + 3 + v.signExtend 24 } s) ∧
    (∀ v : W32, exec (.izJmpl n v) s = lands n t 2 { x with pc := x.pc + 5 + v.truncate 24 } s) ∧
    (∀ c r, x.stack = c :: r →
      (∀ v : W16,
        exec (.izJz n v) s = (if c = 0 then lands n t 2 { x with pc := x.pc + 3 + v.signExtend 24, stack := r } s
                              else lands n t 1 (x.after 3 r) s) ∧
        exec (.izJnz n v) s = (if c = 0 then lands n t 1 (x.after 3 r) s
                               else lands n t 2 { x with pc := x.pc + 3 + v.signExtend 24, stack := r } s)) ∧
      (∀ v : W32,
        exec (.izJzl n v) s = (if c = 0 then lands n t 2 { x with pc := x.pc + 5 + v.truncate 24, stack := r } s
                               else lands n t 1 (x.after 5 r) s) ∧
        exec (.izJnzl n v) s = (if c = 0 then lands n t 1 (x.after 5 r) s
                                else lands n t 2 { x with pc := x.pc + 5 + v.truncate 24, stack := r } s))) ∧
    (∀ (v : W16) (g : IzFun), x.rstack.length < 16 → imgFun (taskImage x s) v.toNat s = some g → g.entry = false →
      exec (.izCall n v) s =
        lands n t 2 { x with rstack := (x.pc + 3).zeroExtend 64 :: x.rstack, pc := BitVec.ofNat 24 g.off } s) ∧
    (∀ a r, x.rstack = a :: r →
      exec (.izRet n) s = lands n t 2 { x with rstack := r, pc := a.truncate 24 } s ∧
      (∀ v : W16, exec (.izLoop n v) s =
        if a = 1 then lands n t 1 { x with pc := x.pc + 3, rstack := r } s
        else lands n t 2 { x with pc := x.pc + 3 + v.signExtend 24, rstack := (a - 1) :: r } s)) ∧
    (∀ v : Byte, exec (.izTrap n v) s = .next (trapTask n t 0x0B v.toNat 0 s))
/-- R317, R318, R327: a load whose window, permission, length and alignment are good and whose bytes are not poisoned pushes them,
zero-extended or sign-extended; one whose bytes are poisoned traps with 0x05, and one that the checks turn away with their code. -/
def Obligations.Loads : Prop :=
  ∀ (n t k : Nat) (x : Task) (s : State) (a : W64) (r : List W64), Runs n t x s → Fits x → x.stack = a :: r →
    let loads (i : Instr) : Prop := (k = 1 ∧ (i = .izLd8 n ∨ i = .izLds8 n)) ∨ (k = 2 ∧ (i = .izLd16 n ∨ i = .izLds16 n)) ∨
      (k = 4 ∧ (i = .izLd32 n ∨ i = .izLds32 n)) ∨ (k = 8 ∧ i = .izLd64 n)
    (∀ (w : Win) (off : Nat) (bs : Bytes), winCheck x a.toNat k k { rd := true } s = .ok (w, off) → winWaits x w off k s = false →
      let m := winMet x w off k s
      let gives (v : W64) := lands n t (loadClk x w off m) (x.after 1 (v :: r)) m
      (winRead x w off k s = some (bs, false) →
        (k = 1 → exec (.izLd8 n) s = gives (BitVec.ofNat 64 (leNat bs)) ∧
                 exec (.izLds8 n) s = gives ((BitVec.ofNat 8 (leNat bs)).signExtend 64)) ∧
        (k = 2 → exec (.izLd16 n) s = gives (BitVec.ofNat 64 (leNat bs)) ∧
                 exec (.izLds16 n) s = gives ((BitVec.ofNat 16 (leNat bs)).signExtend 64)) ∧
        (k = 4 → exec (.izLd32 n) s = gives (BitVec.ofNat 64 (leNat bs)) ∧
                 exec (.izLds32 n) s = gives ((BitVec.ofNat 32 (leNat bs)).signExtend 64)) ∧
        (k = 8 → exec (.izLd64 n) s = gives (BitVec.ofNat 64 (leNat bs)))) ∧
      (winRead x w off k s = some (bs, true) → ∀ i, loads i → exec i s = .next (trapTask n t 0x05 0 a.toNat m))) ∧
    (∀ c, winCheck x a.toNat k k { rd := true } s = .error c → ∀ i, loads i → exec i s = .next (trapTask n t c 0 a.toNat s))

/-- R190, R316 to R318, R321, R327: a store that passes the checks puts the low bytes of v at the offset: into the task's frame
through window 0, into the Hamper or the DRAM through the others, where no byte beside them changes; one that loses a collision
changes no byte and sets the collision flag. Where the spec leaves a point open it follows the model's choice, log entry 157. -/
def Obligations.Stores : Prop :=
  ∀ (n t k : Nat) (x : Task) (s : State) (a v : W64) (r : List W64) (w : Win) (off : Nat), Inv s → Runs n t x s → Fits x →
    x.stack = a :: v :: r → winCheck x a.toNat k k { wr := true } s = .ok (w, off) →
    ∀ i : Instr, ((k = 1 ∧ i = .izSt8 n) ∨ (k = 2 ∧ i = .izSt16 n) ∨ (k = 4 ∧ i = .izSt32 n) ∨ (k = 8 ∧ i = .izSt64 n)) →
    (w.space = 0 → exec i s = lands n t (1 + storeWait x)
      { x.after 1 r with frame := tsetBytes off (natLe k v.toNat) x.frame, stores := x.stores ++ [storeWait x + 1] } s) ∧
    (w.space = 1 → fenced pgHam s = false → w.base + off + k ≤ hamSize →
      (s.hamx.ties = [] → errsIn 32 (w.base + off) k s.hamErr = [] →
        ∃ u, exec i s = .next u ∧ (taskGet t u).stack = r ∧ (taskGet t u).pc = x.pc + 1 ∧ (taskGet t u).coll = x.coll ∧
          (∀ b, tget 0 u.ham b =
            if w.base + off ≤ b ∧ b < w.base + off + k then (natLe k v.toNat).getD (b - (w.base + off)) 0 else tget 0 s.ham b) ∧
          u.dram = s.dram ∧ u.dramPoison = s.dramPoison ∧ u.hed = s.hed) ∧
      ((w.base + off) / 32 = (w.base + off + k - 1) / 32 → (hamWinner (.core x.lastCore) ((w.base + off) / 32) s).isSome = true →
        ∃ u, exec i s = .next u ∧ (taskGet t u).stack = r ∧ (taskGet t u).pc = x.pc + 1 ∧ (taskGet t u).coll = true ∧
          u.ham = s.ham ∧ u.hamPoison = s.hamPoison ∧ u.dram = s.dram ∧ u.hed = s.hed)) ∧
    (w.space = 2 → dramServes (w.base + off) k s = true → dramWaits (w.base + off) k s = false → mapBytes s ≤ w.base + off →
      errsIn 16 (w.base + off) k s.dramErr = [] →
      ∃ u, exec i s = .next u ∧ (taskGet t u).stack = r ∧ (taskGet t u).pc = x.pc + 1 ∧
        (∀ b, tget 0 u.dram b =
          if w.base + off ≤ b ∧ b < w.base + off + k then (natLe k v.toNat).getD (b - (w.base + off)) 0 else tget 0 s.dram b) ∧
        u.ham = s.ham ∧ u.hamPoison = s.hamPoison ∧ u.hed = s.hed)

/-- R319, R321, R327, R333: AADD and CAS on a good address, which push 0 where their write loses a collision; COLL pushes and
clears the collision flag; FENCE waits for the earlier stores; COPY copies whole words between ranges that do not overlap; CRC32C
extends a CRC over bytes that are not poisoned. Where the spec leaves a point open it follows the model's choice, log entries 35,
36 and 157. -/
def Obligations.AtomicsAndCopies : Prop :=
  (∀ (n t : Nat) (x : Task) (s : State) (a : W64) (w : Win) (off : Nat) (bs : Bytes), Runs n t x s → Fits x →
     winCheck x a.toNat 8 8 { atom := true } s = .ok (w, off) → winRead x w off 8 s = some (bs, false) → winWaits x w off 8 s = false →
     let old : W64 := BitVec.ofNat 64 (leNat bs)
     let m := winMet x w off 8 s
     let push : W64 := if winLoses x w off 8 m then 0 else old
     (∀ v r y u, x.stack = a :: v :: r → winWrite (x.after 1 r) w off (natLe 8 (old + v).toNat) false m = some (y, u) →
       exec (.izAadd n) s = .next (izDone n t (loadClk x w off m + 4) (taskSet t { y with stack := push :: r } u))) ∧
     (∀ e v r, x.stack = a :: e :: v :: r →
       (old ≠ e → exec (.izCas n) s = lands n t (loadClk x w off m + 4) (x.after 1 (old :: r)) m) ∧
       (∀ y u, old = e → winWrite (x.after 1 r) w off (natLe 8 v.toNat) false m = some (y, u) →
         exec (.izCas n) s = .next (izDone n t (loadClk x w off m + 4) (taskSet t { y with stack := push :: r } u))))) ∧
  (∀ (n t : Nat) (x : Task) (s : State), Inv s → Runs n t x s → Fits x →
     (x.stack.length < 32 →
       exec (.izColl n) s = lands n t 1 { x.after 1 ((if x.coll then 1 else 0) :: x.stack) with coll := false } s) ∧
     exec (.izFence n) s = lands n t (max 1 (fenceClk x)) { x.after 1 x.stack with stores := [] } s ∧
     (∀ src dst len r v a w b, x.stack = len :: dst :: src :: r →
       winCheck x src.toNat len.toNat 64 { rd := true } s = .ok (v, a) → winCheck x dst.toNat len.toNat 64 { wr := true } s = .ok (w, b) →
       len.toNat % 64 = 0 → 64 ≤ len.toNat → len.toNat ≤ 4096 →
       v.space = 1 → w.space = 1 → fenced pgHam s = false → v.base + a + len.toNat ≤ hamSize → w.base + b + len.toNat ≤ hamSize →
       (v.base + a + len.toNat ≤ w.base + b ∨ w.base + b + len.toNat ≤ v.base + a) → s.hamx.ties = [] →
       errsIn 32 (v.base + a) len.toNat s.hamErr = [] → errsIn 32 (w.base + b) len.toNat s.hamErr = [] →
       ∃ u, exec (.izCopy n) s = .next u ∧ (taskGet t u).stack = r ∧ (taskGet t u).pc = x.pc + 1 ∧ u.dram = s.dram ∧
         ∀ c, tget 0 u.ham c = if w.base + b ≤ c ∧ c < w.base + b + len.toNat
           then tget 0 s.ham (v.base + a + (c - (w.base + b))) else tget 0 s.ham c) ∧
     (∀ crc a len r w off bs, x.stack = len :: a :: crc :: r → len.toNat ≤ 4096 →
       winCheck x a.toNat len.toNat 1 { rd := true } s = .ok (w, off) → winRead x w off len.toNat s = some (bs, false) →
       winWaits x w off len.toNat s = false →
       exec (.izCrc32c n) s = lands n t (2 + (len.toNat + 7) / 8 + loadClk x w off (winMet x w off len.toNat s))
         (x.after 2 (BitVec.ofNat 64 (Nat.xor (crcRun (Nat.xor (crc.toNat % 2 ^ 32) 0xFFFFFFFF) bs) 0xFFFFFFFF) :: r))
         (winMet x w off len.toNat s)))

/-- R319, R328, R348 to R351: what WAIT, SPAWN, SIGNAL, YIELD, END, SELF and PNOW do to the running task, to the task they name
and to the core, and that they wait for the task's earlier stores; an operand above 65,535 or a task of another run traps with
0x09; what one decrement does in each state of its task. Where the spec leaves a point open it follows the model's choice, log
entries 6 and 61. -/
def Obligations.TaskGroup : Prop :=
  (∀ (n t : Nat) (x : Task) (s : State), Runs n t x s → Fits x →
     let behind (l : List W64) : Task := { x.after 1 l with stores := [] }
     let clk := 2 + fenceClk x
     (x.stack.length < 32 →
       exec (.izSelf n) s = lands n t 1 (x.after 1 (BitVec.ofNat 64 t :: x.stack)) s ∧
       exec (.izPnow n) s = lands n t 4 (x.after 1 (s.pick :: x.stack)) s) ∧
     (∀ a r, x.stack = a :: r →
       let y : Task := { behind r with counter := x.counter + BitVec.ofNat 16 a.toNat }
       (a.toNat ≤ 65535 → y.counter = 0 → exec (.izWait n) s = lands n t clk y s) ∧
       (a.toNat ≤ 65535 → y.counter ≠ 0 →
         exec (.izWait n) s = .next (izDone n t clk (coreIdle n (taskSet t { y with state := .waiting } s)))) ∧
       (65535 < a.toNat → exec (.izWait n) s = .next (trapTask n t 0x09 0 0 s)) ∧
       (sameRun x a.toNat s = true →
         (∀ u, tryDec a.toNat (taskSet t (behind r) s) = some u → exec (.izSignal n) s = .next (izDone n t clk u)) ∧
         (tryDec a.toNat (taskSet t (behind r) s) = none → exec (.izSignal n) s = .next (coreMod n (fun c => { c with stat := 3 }) s))) ∧
       (sameRun x a.toNat s = false → exec (.izSignal n) s = .next (trapTask n t 0x09 0 0 s))) ∧
     (∀ count fn arg r f k, x.stack = count :: fn :: arg :: r → count.toNat ≤ 65535 → imgFun (taskImage x s) fn.toNat s = some f →
       f.entry = true → ((reserve (if x.house then fwRun else x.run) s).find? fun k => k ≠ t && taskUsable k s) = some k →
       ∀ u, newTask (if x.house then fwRun else x.run) k f arg (BitVec.ofNat 16 count.toNat) (some (n / 16))
           (taskSet t (behind (BitVec.ofNat 64 k :: r)) s) = some u →
         exec (.izSpawn n) s = .next (izDone n t (8 + fenceClk x) u)) ∧
     exec (.izYield n) s = .next (izDone n t clk (requeue t (coreIdle n (taskSet t (behind x.stack) s)))) ∧
     exec (.izEnd n) s = .next (izDone n t clk (taskEnd n t (taskSet t (behind x.stack) s)))) ∧
  (∀ (t : Nat) (s : State), Inv s → t < 65536 →
     let x := taskGet t s
     let c := x.counter - 1
     (x.state = .free ∨ x.state = .ended →
       exec (.dependenceDecrement t) s = .next (regAdd (pgItn + 0x168) 1 s)) ∧
     (x.state = .ready ∨ x.state = .slotted ∨ x.state = .running →
       exec (.dependenceDecrement t) s = .next (regAdd (pgItn + 0x160) 1 (taskSet t { x with counter := c } s))) ∧
     (x.state = .waiting → c ≠ 0 →
       exec (.dependenceDecrement t) s = .next (regAdd (pgItn + 0x160) 1 (taskSet t { x with counter := c } s))) ∧
     (x.state = .waiting → c = 0 → (∀ k, k < 8 → (readyOf k s).length < 4096) →
       ∃ u, exec (.dependenceDecrement t) s = .next u ∧ (taskGet t u).counter = 0 ∧
         ((taskGet t u).state = .ready ∨ (taskGet t u).state = .slotted)) ∧
     (∀ v : W32, fenced pgItn s = false → v.toNat % 65536 = t → exec (.itnDec v) s = exec (.dependenceDecrement t) s))

/-- R319, R329: SUBMIT of a good descriptor puts it into the agent's ring and pushes 0; a full ring pushes 0xFE and a failed
acceptance check its code, and then nothing is queued; a program's access violation is illegal DMA as well; a DEP_TASK of another
run traps. Where the spec leaves a point open it follows the model's choice, log entry 61. -/
def Obligations.Submit : Prop :=
  ∀ (n t : Nat) (x : Task) (s : State) (d agent : W64) (r : List W64) (w : Win) (off : Nat) (bs : Bytes), Runs n t x s → Fits x →
    x.stack = agent :: d :: r → winCheck x d.toNat 64 64 { rd := true, wr := true } s = .ok (w, off) →
    agentOk x (n / 16) agent.toNat s = true → winRead x w off 64 s = some (bs, false) → w.space = 1 →
    let m := winMet x w off 64 s
    let a := agent.toNat
    let page := if a < 0x40 then pgShu a else engPage a
    let desc := subDesc x a bs
    let back : Back := { task := t, space := 0, addr := w.base + off }
    let clk := 12 + loadClk x w off m + fenceClk x
    let code := subCheck a desc back x.house m
    let behind (v : W64) : Task := { x.after 1 (v :: r) with stores := [] }
    ((∃ k, subDep a desc = some k ∧ sameRun x k m = false) → exec (.izSubmit n) s = .next (trapTask n t 0x09 0 d.toNat m)) ∧
    ((subDep a desc = none ∨ ∃ k, subDep a desc = some k ∧ sameRun x k m = true) →
      (code ≠ 0 → (code ≠ accessCode a ∨ x.house = true) → exec (.izSubmit n) s = lands n t clk (behind (BitVec.ofNat 64 code)) m) ∧
      (code ≠ 0 → code = accessCode a → x.house = false →
        exec (.izSubmit n) s = lands n t clk (behind (BitVec.ofNat 64 code)) (illegalDma x.func m)) ∧
      (code = 0 →
        ((ringTail page m + 1) % ringLen page m = ringHead page m → exec (.izSubmit n) s = lands n t clk (behind 0xFE) m) ∧
        ((ringTail page m + 1) % ringLen page m ≠ ringHead page m → ∀ u, subQueue a desc back m = some u →
          exec (.izSubmit n) s = .next (izDone n t clk (match subDep a desc with
            | some k => taskMod k (fun y => { y with refs := y.refs + 1 }) (taskSet t (behind 0) u)
            | none => taskSet t (behind 0) u)))))

/-- R288 to R291, R330, R331, R444: the Heddle group on a group that the run may use. The search state becomes the operation's;
where HIT is 1 the entry goes to dst, and where it is 0 the index is 2^64 − 1 and dst unwritten; HINS past the tiles that a cut
has left returns FULL; HDEL of an index of E or more returns flags 0. Where the spec leaves a point open it follows the model's
choice, log entry 31. -/
def Obligations.HeddleGroup : Prop :=
  ∀ (n t : Nat) (x : Task) (s : State), Runs n t x s → Fits x →
    let found (clk g : Nat) (w : Win) (off : Nat) (r : List W64) (q : HedRes × Search × State) :=
      let p := if q.1.hit then winPost (x.after 1 r) w off (clk - storeClk w) (natLe (12 * grpW g q.2.2) q.1.entry) q.2.2
        else (x.after 1 r, q.2.2)
      izDone n t clk (taskSet t { p.1 with
        search := q.2.1, stack := hedFlags q.1 :: (if q.1.hit then BitVec.ofNat 64 q.1.index else -1) :: r } p.2)
    (∀ grp key dst r w off bs w' off', x.stack = grp :: key :: dst :: r → grpMine x grp.toNat s = true →
      winCheck x dst.toNat (12 * grpW grp.toNat s) 4 { wr := true } s = .ok (w, off) →
      winWaits x w off (12 * grpW grp.toNat s) s = false →
      winCheck x key.toNat (12 * grpW grp.toNat s) 4 { rd := true } s = .ok (w', off') →
      winWaits x w' off' (12 * grpW grp.toNat s) s = false → winRead x w' off' (12 * grpW grp.toNat s) s = some (bs, false) →
      let m := winMet x w' off' (12 * grpW grp.toNat s) s
      exec (.izHsrch n) s = .next (found (4 + searchClk grp.toNat m) grp.toNat w off r (hedSearch grp.toNat (leNat bs) (2 ^ 384 - 1) m))) ∧
    (∀ grp key mask dst r w off bs ms w' off' w'' off'', x.stack = grp :: key :: mask :: dst :: r → grpMine x grp.toNat s = true →
      let len := 12 * grpW grp.toNat s
      winCheck x dst.toNat len 4 { wr := true } s = .ok (w, off) → winWaits x w off len s = false →
      winCheck x key.toNat len 4 { rd := true } s = .ok (w', off') → winWaits x w' off' len s = false →
      winRead x w' off' len s = some (bs, false) →
      let k := winMet x w' off' len s
      winCheck x mask.toNat len 4 { rd := true } k = .ok (w'', off'') → winWaits x w'' off'' len k = false →
      winRead x w'' off'' len k = some (ms, false) →
      let m := winMet x w'' off'' len k
      exec (.izHsrchm n) s = .next (found (6 + searchClk grp.toNat m) grp.toNat w off r (hedSearch grp.toNat (leNat bs) (leNat ms) m))) ∧
    (∀ dst r w off, x.stack = dst :: r →
      winCheck x dst.toNat (12 * grpW x.search.group s) 4 { wr := true } s = .ok (w, off) →
      winWaits x w off (12 * grpW x.search.group s) s = false →
      (x.search.hit = false ∨ grpMine x x.search.group s = true) → r.length < 31 →
      exec (.izHnext n) s = .next (found (2 + searchClk x.search.group s) x.search.group w off r (hedNext x.search s))) ∧
    (∀ grp pos key r w off bs, x.stack = grp :: pos :: key :: r → grpMine x grp.toNat s = true →
      winCheck x key.toNat (12 * grpW grp.toNat s) 4 { rd := true } s = .ok (w, off) →
      winWaits x w off (12 * grpW grp.toNat s) s = false →
      winRead x w off (12 * grpW grp.toNat s) s = some (bs, false) →
      let m := winMet x w off (12 * grpW grp.toNat s) s
      let q := hedInsert grp.toNat (leNat bs) (if pos = -1 then none else some (min pos.toNat (grpE grp.toNat m))) m
      (grpCut grp.toNat m = false → ∃ clk, exec (.izHins n) s = .next (izDone n t clk (taskSet t
        (x.after 1 (hedFlags q.1 :: (if q.1.full || q.1.fenced then -1 else BitVec.ofNat 64 q.1.index) :: r)) q.2))) ∧
      (grpCut grp.toNat m = true → grpFenced grp.toNat m = false → ∃ clk, exec (.izHins n) s = .next (izDone n t clk (taskSet t
        (x.after 1 (8 :: -1 :: r)) (regAdd (pgGrp grp.toNat + 0x158) 1 (tileOps grp.toNat 1 m)))))) ∧
    (∀ grp i r, x.stack = grp :: i :: r → grpMine x grp.toNat s = true →
      (grpE grp.toNat s ≤ i.toNat → exec (.izHdel n) s = lands n t 4 (x.after 1 (0 :: r)) s) ∧
      (i.toNat < grpE grp.toNat s → grpFenced grp.toNat s = true → exec (.izHdel n) s = lands n t 4 (x.after 1 (32 :: r)) s) ∧
      (i.toNat < grpE grp.toNat s → grpFenced grp.toNat s = false →
        exec (.izHdel n) s = .next (izDone n t 4 (taskSet t (x.after 1 (0 :: r))
          (genStep grp.toNat 1 (hedPut grp.toNat i.toNat none (tileOps grp.toNat 1 s)))))))

/-- R332, R334: the system group. The privileged rows act for a firmware task and trap with 0x06 for a program's; a Weft access that
is not aligned to its width traps with 0x04. -/
def Obligations.SystemGroup : Prop :=
  ∀ (n t : Nat) (x : Task) (s : State), Runs n t x s → Fits x →
    (x.stack.length < 32 →
      exec (.izFeat n 0) s = lands n t 1 (x.after 2 (0x1F :: x.stack)) s ∧
      exec (.izFeat n 1) s = lands n t 1 (x.after 2 (0x0008004010101020 :: x.stack)) s ∧
      ((∀ a, 0x40 ≤ a → a < 0x60 → fenced (engPage a) s = false) →
        exec (.izFeat n 2) s = lands n t 1 (x.after 2 (0xFF3FFFFF :: x.stack)) s) ∧
      exec (.izFeat n 3) s = lands n t 1 (x.after 2 ((if n < 32 then 0x01B10100 else 0x00B10100) :: x.stack)) s ∧
      exec (.izCore n) s = lands n t 1 (x.after 1 (BitVec.ofNat 64 n :: x.stack)) s ∧
      exec (.izFuncn n) s = lands n t 1 (x.after 1 ((if x.house then 0x80 else BitVec.ofNat 64 x.func) :: x.stack)) s) ∧
    (x.house = true →
      (∀ c r, x.stack = c :: r → exec (.izEvt n) s = .next (izDone n t 2 (taskSet t (x.after 1 r)
        (logEvent { code := c.truncate 16, inst := BitVec.ofNat 8 n, cls := 0, pick := BitVec.ofNat 48 (pickN s) } s)))) ∧
      (∀ a r, x.stack = a :: r →
        (a.toNat % 4 = 0 → ∃ clk u, (weftLoad (a.toNat % 2 ^ 24) 4 s).2 = u ∧ clk ≤ 80 ∧ exec (.izWld n) s = .next (izDone n t clk
          (taskSet t (x.after 1 (BitVec.ofNat 64 (weftLoad (a.toNat % 2 ^ 24) 4 s).1 :: r)) { u with free := u.free + 1 }))) ∧
        (a.toNat % 8 = 0 → ∃ clk u, (weftLoad (a.toNat % 2 ^ 24) 8 s).2 = u ∧ clk ≤ 80 ∧ exec (.izWld64 n) s = .next (izDone n t clk
          (taskSet t (x.after 1 (BitVec.ofNat 64 (weftLoad (a.toNat % 2 ^ 24) 8 s).1 :: r)) { u with free := u.free + 1 }))) ∧
        (a.toNat % 4 ≠ 0 → exec (.izWld n) s = .next (trapTask n t 0x04 0 (a.toNat % 2 ^ 24) s))) ∧
      (∀ a v r, x.stack = a :: v :: r →
        (a.toNat % 4 = 0 → exec (.izWst n) s = .next (izDone n t 2
          (weftStore .core (a.toNat % 2 ^ 24) 4 (v.toNat % 2 ^ 32) (taskSet t (x.after 1 r) s)))) ∧
        (a.toNat % 8 = 0 → exec (.izWst64 n) s = .next (izDone n t 2
          (weftStore .core (a.toNat % 2 ^ 24) 8 v.toNat (taskSet t (x.after 1 r) s)))) ∧
        (a.toNat % 8 ≠ 0 → exec (.izWst64 n) s = .next (trapTask n t 0x04 0 (a.toNat % 2 ^ 24) s)))) ∧
    (x.house = false →
      exec (.izWld n) s = .next (trapTask n t 0x06 0 0 s) ∧ exec (.izWst n) s = .next (trapTask n t 0x06 0 0 s) ∧
      exec (.izWld64 n) s = .next (trapTask n t 0x06 0 0 s) ∧ exec (.izWst64 n) s = .next (trapTask n t 0x06 0 0 s) ∧
      exec (.izEvt n) s = .next (trapTask n t 0x06 0 0 s))

/-- R312, R313, R337, R359: an instruction that only lands leaves everything but its task, its core, the core's two counters, the
instruction cache of its cluster with its hits and misses, and what its function is charged as it was: memory, other tasks, the
rest of the registers, logs and queues. Where the spec leaves a point open it follows the model's choice, log entry 128. -/
def Obligations.LandingFrame : Prop :=
  ∀ (n t clk : Nat) (x y : Task) (s u : State), Inv s → Runs n t x s → lands n t clk y s = .next u →
    u.pending = s.pending ∧ u.pick = s.pick ∧ u.ham = s.ham ∧ u.hamPoison = s.hamPoison ∧ u.dram = s.dram ∧
    u.dramPoison = s.dramPoison ∧ u.hed = s.hed ∧ u.engs = s.engs ∧ u.shus = s.shus ∧ u.lines = s.lines ∧ u.due = s.due ∧
    u.sent = s.sent ∧ u.log = s.log ∧ u.ready = s.ready ∧ u.keys = s.keys ∧ u.media = s.media ∧ u.jnl = s.jnl ∧ u.map = s.map ∧
    (∀ k, k ≠ t → taskGet k u = taskGet k s) ∧ (∀ k, k ≠ n → coreGet k u = coreGet k s) ∧
    (taskGet t u).stack = y.stack ∧ (taskGet t u).rstack = y.rstack ∧ (taskGet t u).pc = y.pc ∧ (taskGet t u).frame = y.frame ∧
    regGet (pgIzk n + 0x120) u = (regGet (pgIzk n + 0x120) s + 1) % 2 ^ 64 ∧
    (∃ h : Bool,
      regGet (pgIzc (n / 16) + 0x108) u = (regGet (pgIzc (n / 16) + 0x108) s + (if h then 1 else 0)) % 2 ^ 64 ∧
      regGet (pgIzc (n / 16) + 0x110) u = (regGet (pgIzc (n / 16) + 0x110) s + (if h then 0 else 1)) % 2 ^ 64) ∧
    (∀ k, k ≠ n / 16 → tget [] u.icache k = tget [] s.icache k) ∧
    (∀ a, a ≠ pgIzk n + 0x120 → a ≠ pgIzk n + 0x128 → a ≠ pgFun y.func + 0x218 → a ≠ pgIzc (n / 16) + 0x108 →
      a ≠ pgIzc (n / 16) + 0x110 → regGet a u = regGet a s) ∧
    (∀ f, f ≠ y.func → fnGet f u = fnGet f s) ∧ (y.house = true → ∀ f, fnGet f u = fnGet f s)

/-- R335, R336: operands missing from the data stack, or a result beyond 32 entries, trap with 0x02; the trap writes the three
trap registers, ends the task and frees the core, and the instruction has no other effect on memory. R322 to R324, R326, R332: an
immediate outside what its row defines stops with a fault of its own, and so does a core that the part does not have. Where the
spec leaves a point open it follows the model's choice, log entry 162. -/
def Obligations.StackTraps : Prop :=
  (∀ (n t : Nat) (x : Task) (s : State), Inv s → Runs n t x s → Fits x →
    (x.stack.length < 2 → exec (.izAdd n) s = .next (trapTask n t 0x02 0 0 s) ∧ exec (.izSt64 n) s = .next (trapTask n t 0x02 0 0 s) ∧
      exec (.izSwap n) s = .next (trapTask n t 0x02 0 0 s)) ∧
    (x.stack.length = 32 → exec (.izDup n) s = .next (trapTask n t 0x02 0 0 s) ∧
      ∀ v, exec (.izLit64 n v) s = .next (trapTask n t 0x02 0 0 s)) ∧
    (x.rstack = [] → exec (.izRet n) s = .next (trapTask n t 0x02 0 0 s)) ∧
    (∀ (code user addr : Nat) (u : State), code < 256 → user < 256 → t < 65536 → addr < 2 ^ 48 → x.house = true →
      bits (regGet (pgIzk n + 0x038) s) 31 30 = 0 → u = trapTask n t code user addr s →
      regGet (pgIzk n + 0x110) u = code + user * 256 + t * 65536 ∧ regGet (pgIzk n + 0x114) u = x.pc.toNat ∧
      regGet (pgIzk n + 0x118) u = addr ∧ (taskGet t u).state = .ended ∧ (coreGet n u).task = none ∧
      u.ham = s.ham ∧ u.dram = s.dram ∧ u.hed = s.hed) ∧
    (∀ i : Byte,
      (63 < i.toNat → exec (.izShli n i) s = .fault .undefinedImmediate ∧ exec (.izShri n i) s = .fault .undefinedImmediate ∧
        exec (.izSari n i) s = .fault .undefinedImmediate) ∧
      (30 < i.toNat → exec (.izNth n i) s = .fault .undefinedImmediate ∧ exec (.izSetn n i) s = .fault .undefinedImmediate) ∧
      (i.toNat = 0 ∨ 32 < i.toNat → exec (.izDropn n i) s = .fault .undefinedImmediate) ∧
      (15 < i.toNat → exec (.izLitw n i) s = .fault .undefinedImmediate) ∧
      (3 < i.toNat → exec (.izFeat n i) s = .fault .undefinedImmediate) ∧
      (i ≠ 1 → i ≠ 2 → i ≠ 4 → exec (.izSext n i) s = .fault .undefinedImmediate ∧ exec (.izZext n i) s = .fault .undefinedImmediate)) ∧
    (∀ v : W16,
      (v.toNat / 256 = 0 ∨ 64 < v.toNat % 256 + v.toNat / 256 → exec (.izBfx n v) s = .fault .undefinedImmediate ∧
        exec (.izBfxs n v) s = .fault .undefinedImmediate ∧ exec (.izBfi n v) s = .fault .undefinedImmediate) ∧
      ((∀ g, imgFun (taskImage x s) v.toNat s = some g → g.entry = true) → exec (.izCall n v) s = .fault .undefinedImmediate))) ∧
  (∀ (n : Nat) (s : State), 128 ≤ n → exec (.izAdd n) s = .fault .noSuchUnit ∧ exec (.izLd64 n) s = .fault .noSuchUnit ∧
    exec (.izEnd n) s = .fault .noSuchUnit ∧ exec (.taskDispatch n) s = .fault .noSuchUnit)
/-- R111, R117, R123, R134: array programs and reads. A page whose units are placed starts as one program of its die when nothing
runs there and no read waits; its end frees the die and counts its units; a read gives its granules to the command that waits for
them, and one that no die parity recovers fails it; a die takes up host reads first, then internal ones, then erases, and a read
waits for a program or erase that it may not suspend. What the dies take up next changes no page and no program. Where the spec
leaves a point open it follows the model's choice, log entries 119 and 139. -/
def Obligations.FlashPrograms : Prop :=
  (∀ s : State,
     let keeps (u : State) := u.media.pages = s.media.pages ∧ u.media.programs = s.media.programs ∧ u.media.erasing = s.media.erasing ∧
       u.media.wear = s.media.wear ∧ u.media.unitsAll = s.media.unitsAll
     keeps (mediaTurn s) ∧ keeps (placeAll s)) ∧
  (∀ (s : State) (die : Nat), die < 512 → mediaUp s = true →
    (dieFree die (placeAll s) = false → exec (.unitProgramStart die) s = .next (mediaTurn (placeAll s))) ∧
    (∀ g, dieFree die (placeAll s) = true → nextProgram die (placeAll s) = some g →
      let t := startProgram g (placeAll s)
      exec (.unitProgramStart die) s = .next (mediaTurn t) ∧ t.media.programs = s.media.programs ++ [g] ∧ (dieGet die t).busy = true ∧
        t.media.pages = s.media.pages ∧ t.map = (placeAll s).map ∧ (∀ p, (∃ x ∈ g.units, x.pua = p) → p ∉ tkeys t.media.placed)) ∧
    (∀ g ok task, s.media.programs.find? (·.die = die) = some g → dieOk die s = true →
      ∃ u, exec (.flashProgramDone die ok task) s = .next u ∧ (∀ h ∈ u.media.programs, h.die ≠ die) ∧ (dieGet die u).busy = false ∧
        (ok = true → u.media.unitsAll = s.media.unitsAll + g.units.length)) ∧
    (s.media.programs.find? (·.die = die) = none → ∀ ok task, exec (.flashProgramDone die ok task) s = .next s) ∧
    (dieOk die s = true → chanUp (die / 16) s = true → (dieGet die s).hot = false → (dieGet die s).read = none →
      (∀ r, nextRead die s = some r → dieHeld die s = true → suspendable die s = false → dieServe die s = s) ∧
      (∀ r, nextRead die s = some r → (dieHeld die s = false ∨ suspendable die s = true) → dieServe die s = startRead die r s) ∧
      (∀ sb, nextRead die s = none → dieHeld die s = false → nextProgram die s = none → dieIdle die s = true → nextErase die s = some sb →
        dieServe die s = startErase die sb s))) ∧
  (∀ (s : State) (die : Nat) (r : FlashRead), nextRead die s = some r → r.ctx = none →
    ∀ q ∈ s.media.reads, puaDie q.pua = die → q.ctx = none) ∧
  (∀ (s : State) (pua : Nat) (outcomes : List CwOut) (task : Option Nat),
    (runningRead pua s = none → exec (.flashReadDone pua outcomes task) s = .next s) ∧
    (∀ r c, runningRead pua s = some r → r.ctx = some c → (ctxGet c s).used = true → s.media.reads = [] → s.media.todo = [] →
      let os := (readWords r).map fun g => cwOutcome (puaDie pua) outcomes g s
      (CwOut.fail ∉ os → ∃ u, exec (.flashReadDone pua outcomes task) s = .next u ∧
        (∀ g, g < 4 → bit r.want.gmask.toNat g = true →
          tget none (ctxGet c u).got (4 * r.want.midx + g) = some ((pageAtPua pua s).granule g))) ∧
      (CwOut.fail ∈ os → s.media.rebuilds = [] → validUnits (· = pua) s = [] → r.want.gmask ≠ 0 →
        stripeMates pua (countRead1 pua (readWords r) os (dieMod (puaDie pua) (fun d => { d with read := none }) s)) = none →
        ∃ u, exec (.flashReadDone pua outcomes task) s = .next u ∧ (ctxGet c u).ends = some stReadError)))

/-- R125 to R127, R129, R130, R132, R133, R137, R145, R203, R494: background work once every segment is built (folding, garbage
collection and wear levelling, none of which runs while the Hamper is fenced, copy a superblock's valid units and mark it for its
erase, which frees it and counts the wear of its erase blocks; refresh copies an erase block; the patrol; the DUMP reserve; T and
V), and dies (one that times out twice within 256 bolts, or does not complete its reset, is retired; one at T_MAX is held). Where
the spec leaves a point open it follows the model's choice, log entries 115, 139 and 140. -/
def Obligations.FlashMaintenance : Prop :=
  (∀ (s : State) (sb : Nat), fenced pgHam s = true → exec (.fold sb) s = .next s ∧ exec .garbageCollection s = .next s ∧
     exec (.refresh sb) s = .next s ∧ exec .staticWearLevelling s = .next s) ∧
  (∀ (s : State) (sb stream : Nat) (w : MoveKind),
     let t := vacate sb stream w s
     sb ∈ t.media.erasing ∧ (∀ p ∈ sbValid sb s, moveBusy p.1 p.2 t = true) ∧ t.map = s.map ∧ t.media.pages = s.media.pages) ∧
  (∀ (s : State) (sb : Nat), mediaUp s = true → allBuilt s = true → fenced pgHam s = false →
     (25 ≤ slcFill s → oldestSlc s = some sb → exec (.fold sb) s = .next (mediaTurn (vacate sb 3 .fold s))) ∧
     (slcFill s < 25 → exec (.fold sb) s = .next s) ∧
     (freeN s < regFld (pgFlc 0 + 0x210) 31 16 s → gcVictim s = some sb →
       exec .garbageCollection s = .next (mediaTurn (vacate sb 4 .gc s))) ∧
     (regFld (pgFlc 0 + 0x210) 31 16 s ≤ freeN s → exec .garbageCollection s = .next s) ∧
     (∀ b, b ∈ s.media.refreshQ → (∀ u ∈ validUnits (fun p => puaEraseBlock p s = b) s, (sbGet (puaSb u.2) s).isOpen = false) →
       exec (.refresh b) s = .next (mediaTurn (addMoves 4 .refresh (validUnits (fun p => puaEraseBlock p s = b) s)
         { s with media := { s.media with refreshQ := s.media.refreshQ.filter (· ≠ b) } }))) ∧
     (∀ x, s.media.sbs = [(sb, x)] → x.isOpen = false → x.stream.isSome = true → x.stream ≠ some 1 → x.stream ≠ some 2 →
       sb ∉ s.media.erasing → wearUneven s = true →
       (mostWorn s = none → exec .staticWearLevelling s = .next (mediaTurn (vacate sb 4 .wear s))) ∧
       (∀ d, mostWorn s = some d →
         exec .staticWearLevelling s = .next (mediaTurn (vacate sb 4 .wear (openAs 4 d (closeStream 4 s)))) ∧
         (sbGet d (openAs 4 d (closeStream 4 s))).stream = some 4)) ∧
     (wearUneven s = false → exec .staticWearLevelling s = .next s) ∧
     (∀ die, nextErase die s = some sb → sb ∈ s.media.erasing ∧ ((sbGet sb s).stream.isSome = true → sbValid sb s = [])) ∧
     (∀ chan task, chan < 32 → (dieGet (dieNo chan (sbRow sb)) s).erase = some sb → dieOk (dieNo chan (sbRow sb)) s = true →
       let last := (sbChans sb s).all fun c => c == chan || (tget [] s.media.erased sb).contains c || !dieReads (dieNo c (sbRow sb)) s
       ∃ u, exec (.flashEraseDone sb true chan task) s = .next u ∧ u.media.wear = (countErase sb (dieNo chan (sbRow sb)) s).media.wear ∧
         (last = true → sb ∉ u.media.erasing ∧ (∀ p ∈ u.media.pages, puaSb p.1 ≠ sb) ∧
           (∀ p ∈ s.media.pages, puaSb p.1 ≠ sb → p ∈ u.media.pages)) ∧
         (last = false → u.media.erasing = s.media.erasing ∧ u.media.pages = s.media.pages)) ∧
     (∀ die, let b := eraseBlock die (sbBlock sb) s
       let n := tget (0, 0) s.media.wear b
       tget (0, 0) (countErase sb die s).media.wear b = if (sbGet sb s).native then (n.1 + 1, n.2) else (n.1, n.2 + 1)) ∧
     (∀ chan ok task, (dieGet (dieNo chan (sbRow sb)) s).erase ≠ some sb → exec (.flashEraseDone sb ok chan task) s = .next s) ∧
     (∀ i pua, (validUnits (fun _ => true) s).find? (fun u => s.media.patrolPos ≤ u.1) = some (i, pua) →
       (dieIdle (puaDie pua) s = true ∨ s.media.patrolBolt < patrolLeast s →
         exec .patrolRead s = .next (mediaTurn (queueRead { pua := pua, want := { midx := i, gmask := 0xF } }
           { s with media := { s.media with patrolPos := i + 1, patrolBolt := s.media.patrolBolt + 1 } }))) ∧
       (dieIdle (puaDie pua) s = false → patrolLeast s ≤ s.media.patrolBolt → exec .patrolRead s = .next s)) ∧
     ((validUnits (fun _ => true) s).find? (fun u => s.media.patrolPos ≤ u.1) = none →
       exec .patrolRead s = .next (regSet (pgFlc 0 + 0x280) (boltN s - s.media.patrolFrom)
         { s with media := { s.media with patrolPos := 0, patrolFrom := boltN s } })) ∧
     (dumpReady s < 12288 → mayTake 2 s = true → leastWorn s = some sb → ∃ u, exec .dumpStandbyErase s = .next u ∧
       u.media.standby = s.media.standby ++ [sb] ∧ (sbGet sb u).stream = some 2 ∧ u.map = s.map) ∧
     (12288 ≤ dumpReady s → exec .dumpStandbyErase s = .next s) ∧
     (boltN s % 64 = 0 → boltN s ≠ s.media.vBolt →
       let w := s.media.vWindow
       let v0 := ((List.range (max 1 (w.length - 63))).map fun i => ((w.drop i).take 64).foldl (· + ·) 0).foldl max 0
       let v := if w.length < 4096 then max v0 s.die.slcV else v0
       ∃ u, exec .slcTargetUpdate s = .next u ∧ u.media.vBolt = boltN s ∧ u.media.slcT = slcTarget v s ∧ u.media.slcV = v ∧
         u.die.slcT = slcTarget v s ∧ u.die.slcV = v)) ∧
  (∀ (s : State) (die : Nat), die < 512 → dieOk die s = true → mediaUp s = true →
     (∀ ok, s.media.programs.find? (·.die = die) = none →
       ∃ u, exec (.dieReadyTimeout die ok) s = .next u ∧ (dieGet die u).busy = false ∧
         (ok = true → (dieGet die s).timeoutBolt = none → (dieGet die u).timeoutBolt = some (boltN s) ∧
           (dieGet die u).retired = false ∧ u.media.rebuildDie = s.media.rebuildDie) ∧
         (ok = false ∨ (∃ b, (dieGet die s).timeoutBolt = some b ∧ boltN s < b + 256) →
           (dieGet die u).retired = true ∧ u.media.rebuildDie = s.media.rebuildDie ++ [die] ∧
           u.media.diesRetired = s.media.diesRetired + 1)) ∧
     (allBuilt s = true → die ∈ s.media.rebuildDie →
       (validUnits (fun p => puaDie p = die) s = [] →
         exec (.dieRebuild die) s = .next { s with media := { s.media with rebuildDie := s.media.rebuildDie.filter (· ≠ die) } }) ∧
       (validUnits (fun p => puaDie p = die) s ≠ [] →
         exec (.dieRebuild die) s = .next (mediaTurn (addMoves 4 .rebuild (validUnits (fun p => puaDie p = die) s) s)))) ∧
     (∀ temp : Int, dieHeld die s = false → (dieGet die s).read = none →
       ∃ u, exec (.dieTemperatureRead die temp) s = .next u ∧ u.media.pages = s.media.pages ∧ die ∈ tempDies die s ∧
         (∀ k ∈ tempDies die s, (dieGet k u).temp = temp ∧
           ((dieType k s).tMax ≤ temp → (dieGet k u).hot = true) ∧
           (temp ≤ (dieType k s).tMax - 5 → (dieGet k u).hot = false) ∧
           (temp < (dieType k s).tMax → (dieType k s).tMax - 5 < temp → (dieGet k u).hot = (dieGet k s).hot)) ∧
         (∀ k, k ∉ tempDies die s → (dieGet k u).temp = (dieGet k s).temp ∧ (dieGet k u).hot = (dieGet k s).hot)) ∧
     (∀ temp : Int, dieHeld die s = true ∨ (dieGet die s).read.isSome = true → exec (.dieTemperatureRead die temp) s = .next s))
/-- R55, R57, R69, R70, R474: the link. Training ends at 16, 8 or 4 lanes, no faster than MAX_SPEED; below four lanes the part waits 64
bolts in Detect; a lost link counts at once and resets the functions at the next boundary; PERST_N low is recorded, and with
PERST_FULL asks for a reset that acts as a device reset. -/
def Obligations.Link : Prop :=
  ∀ (s : State),
    (∀ width speed flit uio lanes, s.cxl.up = false → mayTrain s = true → s.cxl.detectFrom = none →
      (4 ≤ width → ∃ u, exec (.linkUp width speed flit uio lanes) s = .next u ∧ u.cxl.up = true ∧
        u.cxl.width = (if 16 ≤ width then 16 else if 8 ≤ width then 8 else 4) ∧
        u.cxl.speed = min speed (regFld (pgCxl + 0x104) 7 4 s) ∧ u.boot = s.boot ∧ u.pick = s.pick) ∧
      (width < 4 → ∃ u, exec (.linkUp width speed flit uio lanes) s = .next u ∧ u.cxl.up = false ∧
        u.cxl.detectFrom = some (boltN s))) ∧
    (s.cxl.up = true → ∃ u, exec .linkDown s = .next u ∧ u.cxl.up = false ∧ u.due = s.due ++ [.linkDown] ∧
      u = { s with cxl := u.cxl, due := u.due, regs := u.regs }) ∧
    (s.cxl.up = false → exec .linkDown s = .next s) ∧
    (∀ width speed, s.cxl.up = true → 4 ≤ width → ∃ u, exec (.linkRecovery width speed) s = .next u ∧ u.cxl.up = true ∧
      u.cxl.width = (if 16 ≤ width then 16 else if 8 ≤ width then 8 else 4) ∧
      u.cxl.speed = min speed (regFld (pgCxl + 0x104) 7 4 s)) ∧
    (∀ width speed, s.cxl.up = true → width < 4 → ∃ u, exec (.linkRecovery width speed) s = .next u ∧ u.cxl.up = false ∧
      u.cxl.detectFrom = some (boltN s) ∧ Due.linkDown ∈ u.due) ∧
    (∀ b, s.cxl.detectFrom = some b →
      (b + 64 ≤ boltN s → mayTrain s = true →
        exec .linkTrainingRetry s = .next { s with cxl := { s.cxl with detectFrom := none } }) ∧
      (boltN s < b + 64 → exec .linkTrainingRetry s = .next s)) ∧
    (∀ v : W32, fenced pgCxl s = false → mayTrain s = true → v.toNat % 2 = 1 → ∃ u, exec (.retrain v) s = .next u ∧
      u.cxl = { s.cxl with retraining := true, detectFrom := none }) ∧
    (s.boot.perstLow = false → s.boot.phase ≠ .held → ∃ u, exec .perstAssert s = .next u ∧ u.boot = { s.boot with perstLow := true } ∧
      u.cxl.up = false ∧ (s.cxl.up = true → Due.linkDown ∈ u.due) ∧
      (regFld (pgClk + 0x184) 1 1 s = 1 → s.boot.stuck = false → Due.reset 3 (pickN s + 1) ∈ u.due)) ∧
    exec .perstDeassert s = .next { s with boot := { s.boot with perstLow := false } }

/-- R60 to R65, R472: CXL.mem. A decoder commits only over its own window and one way, and reports a commit error else; a read of
a valid window's line answers its bytes; one before the restart answers poison; a request behind a closed crossing waits; a write
changes the masked bytes of its line and no other. Where the spec leaves a point open it follows the model's choice, log entry 66.
-/
def Obligations.CxlMem : Prop :=
  ∀ (s : State), Inv s →
    (∀ base ways size, bar0 0 s = true → ways = 1 → size = 2 ^ 28 →
      exec (.hdmDecoderCommit 0 base size ways true) s = .next { s with cxl := { s.cxl with dec0 := { hpa := base, committed := true } } }) ∧
    (∀ base ways size, bar0 0 s = true → ways = 1 → size = 2 ^ 34 → s.cxl.dec0.committed = true →
      exec (.hdmDecoderCommit 1 base size ways true) s = .next { s with cxl := { s.cxl with dec1 := { hpa := base, committed := true } } }) ∧
    (∀ base ways size, bar0 0 s = true → ways ≠ 1 ∨ size ≠ 2 ^ 28 → exec (.hdmDecoderCommit 0 base size ways true) s =
      .next (note 0x700A pgCxlH 0 { s with cxl := { s.cxl with dec0 := { s.cxl.dec0 with err := true } } })) ∧
    (∀ base ways size, bar0 0 s = true → ways ≠ 1 ∨ size ≠ 2 ^ 34 ∨ s.cxl.dec0.committed = false →
      exec (.hdmDecoderCommit 1 base size ways true) s =
        .next (note 0x700A pgCxlH 1 { s with cxl := { s.cxl with dec1 := { s.cxl.dec1 with err := true } } })) ∧
    (∀ base size ways, bar0 0 s = true → exec (.hdmDecoderCommit 0 base size ways false) s = .next { s with cxl := { s.cxl with dec0 := {} } }) ∧
    (s.cxl.up = true → ∀ hpa, memHeld hpa s = true → exec (.cxlMemRead hpa) s =
      .next { wake s with cxl := { (wake s).cxl with memWait := (wake s).cxl.memWait ++ [{ hpa := hpa }] } }) ∧
    (s.cxl.up = true → s.pwr.ps < 3 → ∀ hpa dpa, dpaOf (hpa / 64 * 64) s = some dpa →
      (memServed s = false → ∃ u, exec (.cxlMemRead hpa) s = .next u ∧ u.sent = s.sent ++ [.memData (zeros 64) true] ∧ u.ham = s.ham) ∧
      (∀ space a bs, memServed s = true → windowOf dpa s = some (space, a) → memRead space a 64 s = some (bs, false) →
        (space = 1 → dramWaits a 64 s = false) → ∃ u, exec (.cxlMemRead hpa) s = .next u ∧ u.sent = s.sent ++ [.memData bs false] ∧ u.ham = s.ham ∧ u.dram = s.dram ∧
          u.hamPoison = s.hamPoison ∧ u.dramPoison = s.dramPoison ∧ u.cxl = s.cxl) ∧
      (∀ data mask a, memServed s = true → windowOf dpa s = some (0, a) → a + 64 ≤ hamSize → fenced pgHam s = false →
        data.length = 64 → mask < 2 ^ 64 → s.hamx.ties = [] → errsIn 32 a 64 s.hamErr = [] → ∃ u, exec (.cxlMemWrite hpa data mask false) s = .next u ∧
          (∀ b, tget 0 u.ham b = if a ≤ b ∧ b < a + 64 ∧ bit mask (b - a) = true then data.getD (b - a) 0 else tget 0 s.ham b) ∧
          u.dram = s.dram ∧ u.dramPoison = s.dramPoison ∧ Sent.memDone ∈ u.sent)) ∧
    (s.cxl.up = false → (∀ hpa, exec (.cxlMemRead hpa) s = .next s) ∧ (∀ hpa data mask p, exec (.cxlMemWrite hpa data mask p) s = .next s))

/-- R58, R59, R65, R68: the mailbox and DOE answer while BAR0 of F0, or the link, lets them: each command sends one answer, whose
code and payload the mailbox registers then hold, and changes only its own state; every other opcode completes with Unsupported.
Where the spec leaves a point open it follows the model's choice, log entries 39 and 164. -/
def Obligations.MailboxAndDoe : Prop :=
  ∀ (s : State),
    (bar0 0 s = true →
      let answers (c : Instr) (code : Nat) (body : Bytes) (x : Cxl) :=
        exec c s = .next { s with cxl := { x with mboxCode := code, mboxData := tsetBytes 0 body [] }, sent := s.sent ++ [.mailbox code body] }
      (∃ u body, exec .identifyMemoryDevice s = .next u ∧ body.length = 67 ∧ (body.drop 16).take 16 = natLe 8 65 ++ natLe 8 65 ∧
        u = { s with free := u.free, cxl := { s.cxl with mboxCode := 0, mboxData := tsetBytes 0 body [] },
                     sent := s.sent ++ [.mailbox 0 body] }) ∧
      answers .getSupportedLogs 0 (natLe 2 1 ++ zeros 6 ++ celUuid ++ natLe 4 celLog.length) s.cxl ∧
      (∀ p, p.take 16 = celUuid → leAt p 16 4 + leAt p 20 4 ≤ celLog.length →
        answers (.getLog p) 0 ((celLog.drop (leAt p 16 4)).take (leAt p 20 4)) s.cxl) ∧
      (∀ p, leAt p 0 1 = 2 → answers (.getEventRecords p) 0
        (zeros 20 ++ natLe 2 s.cxl.events.length ++ zeros 10 ++ s.cxl.events.flatMap recordBytes) s.cxl) ∧
      (∀ p, leAt p 0 1 = 2 → bit (leAt p 1 1) 0 = true → answers (.clearEventRecords p) 0 [] { s.cxl with events := [] }) ∧
      answers .getEventInterruptPolicy 0 (natLe 4 s.cxl.irqPolicy.toNat) s.cxl ∧
      (∀ p, answers (.setEventInterruptPolicy p) 0 [] { s.cxl with irqPolicy := BitVec.ofNat 32 (leAt p 0 4) }) ∧
      (s.cxl.timestampSet = none → answers .getTimestamp 0 (zeros 8) s.cxl) ∧
      (∀ p, answers (.setTimestamp p) 0 []
        { s.cxl with timestamp := BitVec.ofNat 64 (leAt p 0 8), timestampSet := some (pickN s) }) ∧
      (∀ op p, op ∉ [0x0100, 0x0101, 0x0102, 0x0103, 0x0300, 0x0301, 0x0400, 0x0401, 0x4000] →
        mboxRun op p s = { s with cxl := { s.cxl with mboxCode := 3, mboxData := [] }, sent := s.sent ++ [.mailbox 3 []] })) ∧
    (s.cxl.up = true → fenced pgDoe s = false →
      (exec (.doeDiscovery 1) s = .next (regAdd32 (pgDoe + 0x100) 1
        { s with sent := s.sent ++ [.doe (doeObject 1 0 (natLe 2 0x1E98 ++ natLe 1 2 ++ natLe 1 0))] })) ∧
      (exec (.cdatTableAccess 0) s = .next (regAdd32 (pgDoe + 0x100) 1
        { s with sent := s.sent ++ [.doe (doeObject 0x1E98 2 (natLe 1 0 ++ natLe 1 0 ++ natLe 2 1 ++ cdatHeader))] })) ∧
      (((cdatHeader ++ cdatEntries.flatten).map BitVec.toNat).foldl (· + ·) 0 % 256 = 0) ∧
      exec .doeAbort s = .next (regAdd32 (pgDoe + 0x104) 1 s))
/-- R74, R80, R81, R108: doorbells and fetch. A doorbell of an existing queue takes an entry index; the controller whose turn it is has
its next entry fetched in order; a failed fetch sets CSTS.CFS; HOLD waits for the next boundary. -/
def Obligations.DoorbellsAndFetch : Prop :=
  ∀ (s : State) (f : Nat), f < 128 →
    (∀ q v, bar0 f s = true → s.pwr.ps < 3 → q ≤ sqAllot f s → v < (tget {} (fnGet f s).sqs q).size →
      (tget {} (fnGet f s).sqs q).deleting = none →
      exec (.doorbellWrite f q false v) s = .next (fnMod f
        (fun x => { x with sqs := tset {} q { (tget {} (fnGet f s).sqs q) with tail := v } x.sqs })
        { s with qe := { s.qe with lastActive := boltN s } })) ∧
    (∀ q cq v, bar0 f s = false → exec (.doorbellWrite f q cq v) s = .next s) ∧
    (∀ q v, bar0 f s = true → s.pwr.ps < 3 → (tget {} (fnGet f s).sqs q).size = 0 →
      exec (.doorbellWrite f q false v) s = .next (errorEvent f 0x00 { s with qe := { s.qe with lastActive := boltN s } })) ∧
    (∀ q v, bar0 f s = true → s.pwr.ps < 3 → q ≤ cqAllot f s → v < (tget {} (fnGet f s).cqs q).size → (fnGet f s).waitCpl = [] →
      ∃ u, exec (.doorbellWrite f q true v) s = .next u ∧ tget {} (fnGet f u).cqs q = { (tget {} (fnGet f s).cqs q) with head := v } ∧
        u.qe.ctxs = s.qe.ctxs ∧ u.sent = s.sent) ∧
    (∀ c e, mayFetch s = true → nextTurn s = some f → sqCount (tget {} (fnGet f s).sqs 0) ≠ 0 → freeCtx f true s = some c →
      ∃ u, exec (.sqeFetch [e] true) s = .next u ∧ u.qe.order = s.qe.order + 1 ∧ u.qe.turn = (f + 1) % 128 ∧
        (tget {} (fnGet f u).sqs 0).head = ((tget {} (fnGet f s).sqs 0).head + 1) % (tget {} (fnGet f s).sqs 0).size) ∧
    (∀ l, mayFetch s = true → nextTurn s = some f → ∃ u, exec (.sqeFetch l false) s = .next u ∧ (fnGet f u).cfs = true ∧
      u.qe.ctxs = s.qe.ctxs) ∧
    (∀ l ok, mayFetch s = false → exec (.sqeFetch l ok) s = .next s) ∧
    (∀ v : W32, fenced pgQen s = false → exec (.qenFetchHold v) s =
      .next { regSetFld (pgQen + 0x104) 0 0 v.toNat s with due := s.due ++ [.fetchHold] })

/-- R74, R75, R92: I/O queues. CREATE takes a free queue number, a size and, for an SQ, an existing CQ; a queue in use or out of the
allotment ends with Invalid Queue Identifier; a CQ that an SQ uses is not deleted; deleting an SQ without commands ends it; an Abort
clears bit 0 of its result where it wins and ends the command it names, and leaves it set where that command is claimed for completion or
not there; the ninth Abort of a controller at a time ends with Abort Command Limit Exceeded. -/
def Obligations.IoQueues : Prop :=
  ∀ (s : State) (c : Nat),
    let x := ctxGet c s
    let q := dword x.sqe 10 % 65536
    let f := x.fn
    let n := dword x.sqe 10 / 65536 + 1
    let newCq : Cq := { base := sqePrp1 x.sqe, size := n, vector := dword x.sqe 11 / 65536, ien := bit (dword x.sqe 11) 1 }
    let newSq : Sq := { base := sqePrp1 x.sqe, size := n, cq := dword x.sqe 11 / 65536 }
    let oldSq := tget {} (fnGet f s).sqs q
    (holdsCmd c 0x05 false s = true →
      (q ≠ 0 → q ≤ cqAllot f s → (tget {} (fnGet f s).cqs q).size = 0 → dword x.sqe 10 / 65536 ≠ 0 → bit (dword x.sqe 11) 0 = true →
        dword x.sqe 11 / 65536 < 2048 → sqePrp1 x.sqe % pageSize f s = 0 →
        exec (.createIoCq c) s = .next (finish c stOk (fnMod f (fun y => { y with cqs := tset {} q newCq y.cqs }) s))) ∧
      (q = 0 ∨ cqAllot f s < q ∨ (tget {} (fnGet f s).cqs q).size ≠ 0 → exec (.createIoCq c) s = .next (finish c stQid s))) ∧
    (holdsCmd c 0x01 false s = true → q ≠ 0 → q ≤ sqAllot f s → (tget {} (fnGet f s).sqs q).size = 0 → dword x.sqe 10 / 65536 ≠ 0 →
      (dword x.sqe 11 / 65536 ≠ 0 → (tget {} (fnGet f s).cqs (dword x.sqe 11 / 65536)).size ≠ 0 → bit (dword x.sqe 11) 0 = true →
        sqePrp1 x.sqe % pageSize f s = 0 →
        exec (.createIoSq c) s = .next (finish c stOk (fnMod f (fun y => { y with sqs := tset {} q newSq y.sqs }) s))) ∧
      ((tget {} (fnGet f s).cqs (dword x.sqe 11 / 65536)).size = 0 → exec (.createIoSq c) s = .next (finish c stCqInvalid s))) ∧
    (holdsCmd c 0x04 false s = true → q ≠ 0 → (tget {} (fnGet f s).cqs q).size ≠ 0 →
      ((∃ e ∈ (fnGet f s).sqs, e.1 ≠ 0 ∧ e.2.cq = q) → exec (.deleteIoCq c) s = .next (finish c stQDelete s)) ∧
      ((∀ e ∈ (fnGet f s).sqs, e.1 ≠ 0 → e.2.cq ≠ q) →
        exec (.deleteIoCq c) s = .next (finish c stOk (fnMod f (fun y => { y with cqs := tdel q y.cqs }) s)))) ∧
    (holdsCmd c 0x00 false s = true → q ≠ 0 → (tget {} (fnGet f s).sqs q).size ≠ 0 → (tget {} (fnGet f s).sqs q).deleting = none →
      (∀ e ∈ s.qe.ctxs, e.2.used = true → e.2.fn = f → e.2.sq ≠ q) → (∀ e ∈ (fnGet f s).waitCpl, e.sq ≠ q) →
      exec (.deleteIoSq c) s = .next (fnMod f (fun z => { z with sqs := tdel q z.sqs }) (finish c stOk (fnMod f (fun z =>
        { z with sqs := tset {} q { oldSq with head := oldSq.tail, deleting := some c } z.sqs }) s)))) ∧
    (holdsCmd c 0x08 false s = true →
      let before := (s.qe.ctxs.filter fun e => e.2.fn = f && e.2.sq = 0 && sqeOp e.2.sqe = 0x08 && e.2.order < x.order).length
      let found := (tfind (fun _ e => e.used && e.fn = f && e.sq = q && e.cid = dword x.sqe 10 / 65536 && q ≠ 0) s.qe.ctxs).head?
      (8 ≤ before → exec (.abort c) s = .next (finish c stAbortLimit s)) ∧
      (before < 8 → found = none → exec (.abort c) s =
        .next (finishDw c stOk 1 0 (regAdd (pgQenP + 0x110) (b2n (cplWaits f q (dword x.sqe 10 / 65536) s)) s))) ∧
      (∀ k, before < 8 → found = some k → (ctxGet k s).claimed = true →
        exec (.abort c) s = .next (finishDw c stOk 1 0 (regAdd (pgQenP + 0x110) 1 s))) ∧
      (∀ k, before < 8 → found = some k → (ctxGet k s).claimed = false →
        exec (.abort c) s = .next (finishDw c stOk 0 0 (abortCtx k stAbort (regAdd (pgQenP + 0x108) 1 s))))) ∧
    (holdsCmd c 0x08 false s = false → exec (.abort c) s = .next s) ∧
    (∀ (t : State) st, (ctxGet c t).used = true → (ctxGet c t).claimed = false → (ctxGet c t).run = none →
      abortCtx c st t = discSweep (slotSweep (finish c st (slotDrop c t))))

/-- R76, R101 to R104, R447, R509: features, event requests and vectors. Set Features puts the value of each feature, Get Features
answers it; only F0 sets power states; an event request waits, at most 16 of them; a vector that is unmasked is recorded. Where
the spec leaves a point open it follows the model's choice, log entry 51. -/
def Obligations.FeaturesAndEvents : Prop :=
  ∀ (s : State) (c : Nat),
    let x := ctxGet c s
    let v := dword x.sqe 11
    let puts (g : Fn → Fn) := exec (.setFeatures c) s = .next (finish c stOk (fnMod x.fn g s))
    (holdsCmd c 0x09 false s = true →
      (bit (dword x.sqe 10) 31 = true → exec (.setFeatures c) s = .next (finish c stNotSaveable s)) ∧
      (bit (dword x.sqe 10) 31 = false →
        (dword x.sqe 10 % 256 = 0x01 → puts fun y => { y with ab := v % 8 }) ∧
        (dword x.sqe 10 % 256 = 0x02 → x.fn = 0 → v % 32 ≤ 4 →
          exec (.setFeatures c) s = .next (finish c stOk { s with qe := { s.qe with pmState := v % 32 } })) ∧
        (dword x.sqe 10 % 256 = 0x02 → x.fn ≠ 0 → exec (.setFeatures c) s = .next (finish c stNotChangeable s)) ∧
        (dword x.sqe 10 % 256 = 0x08 → puts fun y => { y with coalThr := v % 256, coalTime := bits v 15 8 }) ∧
        (dword x.sqe 10 % 256 = 0x09 → v % 65536 < 2048 → puts fun y => { y with vecCd := tset false (v % 65536) (bit v 16) y.vecCd }) ∧
        (dword x.sqe 10 % 256 = 0xC0 → puts fun y => { y with pickWin := v % 65536 }))) ∧
    (holdsCmd c 0x0A false s = true →
      (dword x.sqe 10 % 256 = 0x01 → exec (.getFeatures c) s = .next (finishDw c stOk (fnGet x.fn s).ab 0 s)) ∧
      (dword x.sqe 10 % 256 = 0x02 → x.fn = 0 → s.pwr.forced = false →
        exec (.getFeatures c) s = .next (finishDw c stOk s.qe.pmState 0 s)) ∧
      (dword x.sqe 10 % 256 = 0x02 → x.fn = 0 → s.pwr.forced = true → exec (.getFeatures c) s = .next (finishDw c stOk 2 0 s)) ∧
      (dword x.sqe 10 % 256 = 0xC0 → exec (.getFeatures c) s = .next (finishDw c stOk (fnGet x.fn s).pickWin 0 s))) ∧
    (holdsCmd c 0x0C false s = true → c ∉ (fnGet x.fn s).aers →
      (16 ≤ (fnGet x.fn s).aers.length → exec (.asynchronousEventRequest c) s = .next (finish c stAerLimit s)) ∧
      ((fnGet x.fn s).aers.length < 16 → (fnGet x.fn s).held = [] → ∃ u, exec (.asynchronousEventRequest c) s = .next u ∧
        (fnGet x.fn u).aers = (fnGet x.fn s).aers ++ [c] ∧ u.qe = s.qe ∧ u.sent = s.sent)) ∧
    (∀ f vec n from_, f < 128 → tget (0, 0) (fnGet f s).coal vec = (n, from_) → n ≠ 0 → coalWindow (fnGet f s) ≠ 0 →
      from_ + coalWindow (fnGet f s) ≤ pickN s → exec (.coalescingWindowEnd f vec) s =
        .next (msix f vec (fnSet f { (fnGet f s) with coal := tset (0, 0) vec (0, 0) (fnGet f s).coal } s))) ∧
    (∀ f vec, f < 128 → vec < 2048 → bar0 f s = true → tget false (fnGet f s).pba vec = false →
      exec (.msixVectorUnmask f vec) s = .next (fnSet f { (fnGet f s) with unmasked := tset false vec true (fnGet f s).unmasked } s))

/-- R69, R94, R95, R432, R445, R449, R450: controllers and functions. A reset of a controller and an FLR act at the next boundary;
enabling takes the admin queues; a normal shutdown stops fetch; VF Enable sets NumVFs and clearing it resets every VF; Bus Master
and Memory Space Enable are recorded; KILL_RUNS ends every run at the next boundary. Where the spec leaves a point open it follows
the model's choice, log entry 38. -/
def Obligations.Controllers : Prop :=
  ∀ (s : State) (f : Nat), f < 128 →
    (bar0 f s = true →
      (bit (fnGet f s).cc.toNat 0 = true →
        (∃ u, exec (.ccEnClear f) s = .next u ∧ u.due = s.due ++ [.ctlReset f false] ∧ u = { s with fns := u.fns, due := u.due }) ∧
        exec (.abruptShutdown f) s = .next { s with due := s.due ++ [.ctlReset f true] }) ∧
      (∀ (cc aqa : W32) (asq acq : W64), bit (fnGet f s).cc.toNat 0 = false → bit cc.toNat 0 = true →
        ∃ u, exec (.ccEnSet f cc aqa asq acq) s = .next u ∧ (fnGet f u).cc = cc ∧ (fnGet f u).enabling = some (pickN s) ∧
          tget {} (fnGet f u).sqs 0 = { base := asq.toNat, size := bits aqa.toNat 11 0 + 1 } ∧
          tget {} (fnGet f u).cqs 0 = { base := acq.toNat, size := bits aqa.toNat 27 16 + 1, ien := true } ∧
          (∀ g, g ≠ f → fnGet g u = fnGet g s) ∧ u = { s with fns := u.fns }) ∧
      ((fnGet f s).rdy = true → (fnGet f s).shst = 0 → ∃ u, exec (.normalShutdown f) s = .next u ∧ (fnGet f u).draining = true ∧
        (fnGet f u).shst = 1 ∧ u = { s with fns := u.fns })) ∧
    (bar0 f s = false → exec (.ccEnClear f) s = .next s ∧ exec (.normalShutdown f) s = .next s) ∧
    (cfgUp f s = true →
      (∃ u, exec (.flr f) s = .next u ∧ (fnGet f u).flrAt = some (pickN s) ∧ u.due = s.due ++ [.flr f] ∧
        u = { s with fns := u.fns, due := u.due }) ∧
      exec (.busMasterEnableClear f) s = .next (fnMod f (fun x => { x with bme := false }) s) ∧
      exec (.memorySpaceEnableClear f) s = .next (fnMod f (fun x => { x with mse := false }) s) ∧
      ((fnGet f s).waitCpl = [] → (fnGet f s).pba = [] →
        exec (.busMasterEnableSet f) s = .next (fnMod f (fun x => { x with bme := true, mse := true }) s))) ∧
    (∀ n, s.cxl.up = true → s.cxl.vfEnable = false → n ≤ 127 →
      exec (.vfEnableSet n) s = .next { s with cxl := { s.cxl with vfEnable := true, numVfs := n } }) ∧
    (s.cxl.up = true → s.cxl.vfEnable = true → ∃ u, exec .vfEnableClear s = .next u ∧ u.cxl = { s.cxl with vfEnable := false } ∧
      (∀ v, v < 128 → v ≠ 0 → fnPresent v s = true → Due.flr v ∈ u.due) ∧ u = { s with cxl := u.cxl, due := u.due }) ∧
    (∀ v : W32, fenced (pgFun f) s = false → bit v.toNat 0 = true → ∃ u, exec (.killRuns f v) s = .next u ∧
      (∀ r q, (r, q) ∈ s.runs → r ≠ fwRun → q.used = true → q.fn = f → Due.killRun r stAbort 0 0 ∈ u.due) ∧ u.runs = s.runs)

/-- R452 to R454: Log Swap. A START, SWAP or STOP whose fields are good acts at the next boundary; a SWAP of a function that does not
log is out of sequence; a changed line goes to the buffer with F0's requester ID. -/
def Obligations.DirtyLogging : Prop :=
  ∀ (s : State) (c : Nat),
    let x := ctxGet c s
    let waits (i : Instr) := exec i s = .next { ctxSet c { x with started := true } s with due := s.due ++ [.logSwap c] }
    (holdsCmd c 0xDC false s = true → x.started = false → lsOk x.sqe = true →
      (lsOp x.sqe = 0 → lsFunc x.sqe ∉ loggers s → (loggers s).length < 8 → waits (.logSwapStart c)) ∧
      (lsOp x.sqe = 1 → lsFunc x.sqe ∈ loggers s → waits (.logSwapSwap c)) ∧
      (lsOp x.sqe = 2 → lsFunc x.sqe ∈ loggers s → waits (.logSwapStop c)) ∧
      (lsOp x.sqe = 1 → lsFunc x.sqe ∉ loggers s → exec (.logSwapSwap c) s = .next (finish c stSequence s)) ∧
      (lsOp x.sqe = 0 → lsFunc x.sqe ∈ loggers s → exec (.logSwapStart c) s = .next (finish c stSequence s))) ∧
    (∀ f line, f < 128 → (fnGet f s).dlog.active = true → (fnGet 0 s).bme = true → tget 0 (fnGet f s).dlog.dirty line ≠ 0 →
      ∃ u, exec (.dirtyLineWrite f line) s = .next u ∧
        u.sent = s.sent ++ [.host 0 ((fnGet f s).dlog.addr + 64 * line) (dlogLine f line s) false] ∧
        (fnGet f u).dlog = { (fnGet f s).dlog with dirty := tdel line (fnGet f s).dlog.dirty } ∧
        u = { s with sent := u.sent, fns := u.fns, regs := u.regs })
/-- R72, R73, R75, R88, R141, R143, R150: namespaces. A create takes the lowest free NSID and the first free range and answers the
NSID; a delete and a Format wait for earlier commands, then empty the range, and commands fetched after a delete fail; attaching
adds all controllers of the list; Sanitize begins once the claimed commands have ended, and ends the running self-test. Where the
spec leaves a point open it follows the model's choice, log entries 6, 95 and 105. -/
def Obligations.Namespaces : Prop :=
  ∀ (s : State) (c : Nat),
    let x := ctxGet c s
    let n := sqeNsid x.sqe
    (∀ bs t i b, holdsCmd c 0x0D false s = true → dword x.sqe 10 % 16 = 0 → dword x.sqe 11 / 2 ^ 24 = 0 → s.boot.degraded = false →
      hostData c 4096 s = (some bs, t) → leAt bs 26 1 = 0 → leAt bs 29 1 = 0 → leAt bs 0 8 = leAt bs 8 8 → leAt bs 0 8 ≠ 0 →
      (List.range 1021).find? (fun i => !(nsGet (i + 1) t).active) = some i →
      freeGibs (cdiv (cdiv (leAt bs 0 8 * 4096) 16384) 65536) (capacityFix t) = some b →
      let u := capacityFix t
      let y : Namespace := { base := b, units := cdiv (leAt bs 0 8 * 4096) 16384, lbaf := 0, active := true }
      let q := tget 0 u.die.seqEnd (i + 1)
      exec (.namespaceCreate c) s = .next (finishDw c stOk (i + 1) 0
        (nsSet (i + 1) { (nsGet (i + 1) (nsRecord (i + 1) y u)) with nextSeq := max 1 q, seqEnd := q } (nsRecord (i + 1) y u)))) ∧
    (holdsCmd c 0x0D false s = true → dword x.sqe 10 % 16 = 0 → dword x.sqe 11 / 2 ^ 24 = 0 → s.boot.degraded = true →
      exec (.namespaceCreate c) s = .next (finish c stNsNotReady s)) ∧
    (holdsCmd c 0x0D false s = true → dword x.sqe 10 % 16 = 1 → critGate c s = none → s.boot.degraded = false → nsAll s = [n] →
      (nsBusy c [n] s = false → exec (.namespaceDelete c) s = .next (finish c stOk (nsDrop c n (nsRecord n {} (nsTestStop n 3 (nsEmpty n s)))))) ∧
      (nsBusy c [n] s = true → exec (.namespaceDelete c) s = .next (nsPromote [n] s))) ∧
    (∀ bs t, holdsCmd c 0x15 false s = true → n ∈ nsAll s → hostData c 4096 s = (some bs, t) → leAt bs 0 2 ≤ 2047 →
      ctrlsOk (ctrlIds bs) t = true →
      let fs := (ctrlIds bs).map (· - 1)
      let y := nsGet n t
      (dword x.sqe 10 % 16 = 0 → (∀ f ∈ fs, f ∉ y.attached) → exec (.namespaceAttachment c) s =
        .next (finish c stOk (nsRecord n { y with attached := y.attached ++ fs } t))) ∧
      (dword x.sqe 10 % 16 = 0 → (∃ f ∈ fs, f ∈ y.attached) → exec (.namespaceAttachment c) s = .next (finish c stNsAttached t)) ∧
      (dword x.sqe 10 % 16 = 1 → (∀ f ∈ fs, f ∈ y.attached) → exec (.namespaceAttachment c) s =
        .next (finish c stOk (nsRecord n { y with attached := y.attached.filter fun f => !fs.contains f } t)))) ∧
    (holdsCmd c 0x80 false s = true → critGate c s = none → s.media.ro = false → s.boot.degraded = false → s.qe.sanitizing = false →
      dword x.sqe 10 = 1 → nsAll s = [n] → nsVisible x.fn n s = true → nsBusy c [n] s = false →
      let t := nsTestStop n 4 (nsEmpty n s)
      exec (.formatNvm c) s = .next (finish c stOk (nsRecord n { (nsGet n t) with lbaf := 1 } t))) ∧
    (holdsCmd c 0x80 false s = true → critGate c s = none → s.media.ro = true →
      exec (.formatNvm c) s = .next (finish c vsReadOnly s)) ∧
    (holdsCmd c 0x84 false s = true → critGate c s = none → dword x.sqe 10 % 8 = 2 → s.qe.sanitizing = false →
      (ioCtxs s = [] → exec (.sanitize c) s =
        .next (finish c stOk (selfTestStop 9 { s with qe := { s.qe with sanitizing := true } }))) ∧
      ((∃ k ∈ ioCtxs s, (ctxGet k s).claimed = true) → exec (.sanitize c) s = .next s))

/-- R72, R74, R76, R99, R100, R144, R201, R202: Identify, Get Log Page, Virtualization Management, Device Self-test and Fuse
Repair. Where the spec leaves a point open it follows the model's choice, log entries 51 and 107. -/
def Obligations.OtherAdmin : Prop :=
  ∀ (s : State) (c : Nat),
    let x := ctxGet c s
    (∀ bs, holdsCmd c 0x06 false s = true → identifyBytes x.fn x.sqe s = .inl bs → exec (.identify c) s = .next (adminData c bs s)) ∧
    (∀ st, holdsCmd c 0x06 false s = true → identifyBytes x.fn x.sqe s = .inr st → exec (.identify c) s = .next (finish c st s)) ∧
    (holdsCmd c 0x02 false s = true → pageBytes (dword x.sqe 10 % 256) x.fn s = none → dword x.sqe 10 % 256 ≠ 2 →
      4 * (dword x.sqe 10 / 65536 + dword x.sqe 11 % 65536 * 65536 + 1) ≤ mdts → exec (.getLogPage c) s = .next (finish c stLogPage s)) ∧
    (∀ bs t b u, holdsCmd c 0x02 false s = true → dword x.sqe 10 % 256 ≠ 2 → dword x.sqe 12 = 0 → dword x.sqe 13 = 0 →
      pageBytes (dword x.sqe 10 % 256) x.fn s = some (bs, t) →
      let n := 4 * (dword x.sqe 10 / 65536 + dword x.sqe 11 % 65536 * 65536 + 1)
      n ≤ mdts → bufferOf c n s = (some b, u) → (fnGet x.fn u).bme = true →
      exec (.getLogPage c) s = .next (sendPage c n 0 bs { u with free := t.free })) ∧
    (holdsCmd c 0x1C false s = true → critGate c s = none →
      let f := dword x.sqe 10 / 65536 - 1
      let n := dword x.sqe 11 % 65536
      (dword x.sqe 10 % 16 = 1 → bits (dword x.sqe 10) 10 8 = 0 → dword x.sqe 10 / 65536 = 1 → n ≤ 960 → flexOthers f s + n ≤ 8128 →
        exec (.virtualizationManagement c) s = .next (finishDw c stOk n 0 (fnMod f (fun y => { y with flexSq := n, flexCq := n }) s))) ∧
      (dword x.sqe 10 % 16 = 8 → bits (dword x.sqe 10) 10 8 = 0 → 1 ≤ f → f ≤ 127 → (fnGet f s).online = false → n ≤ 1024 →
        flexOthers f s + n ≤ 8128 →
        exec (.virtualizationManagement c) s = .next (finishDw c stOk n 0 (fnMod f (fun y => { y with flexSq := n, flexCq := n }) s))) ∧
      (dword x.sqe 10 % 16 = 8 → 1 ≤ f → f ≤ 127 → (fnGet f s).online = true →
        exec (.virtualizationManagement c) s = .next (finish c stSecState s)) ∧
      (dword x.sqe 10 % 16 = 9 → 1 ≤ f → f ≤ 127 → (fnGet f s).flexSq ≠ 0 →
        exec (.virtualizationManagement c) s = .next (finish c stOk (fnMod f (fun y => { y with online := true }) s)))) ∧
    (holdsCmd c 0x14 false s = true → (sqeNsid x.sqe = 0 ∨ sqeNsid x.sqe = 0xFFFFFFFF) →
      (s.qe.selfTest.running = false → ∀ ext i, (ext = false ∧ testCode c s = 1 ∧ i = .deviceSelfTestShort c) ∨
          (ext = true ∧ testCode c s = 2 ∧ i = .deviceSelfTestExtended c) →
        ∃ total, 1 ≤ total ∧ total ≤ testLimit ext ∧
          let q := { s.qe.selfTest with running := true, extended := ext, fn := x.fn, nsid := sqeNsid x.sqe }
          let q := { q with steps := 0, total := total, stepsThisBolt := 0, stepPick := none }
          exec i s = .next (finish c stOk { s with free := s.free + 1, qe := { s.qe with selfTest := q } })) ∧
      (s.qe.selfTest.running = true → testCode c s = 1 → exec (.deviceSelfTestShort c) s = .next (finish c stSelfTest s)) ∧
      (testCode c s = 0xF → exec (.deviceSelfTestAbort c) s = .next (finish c stOk (selfTestStop 1 s)))) ∧
    (s.qe.selfTest.running = true → s.qe.selfTest.stepPick ≠ some (pickN s) → serving s = true → s.jnl.pf = .none →
      let s0 := match testUnit s with
        | some u => if mediaUp s && dieIdle (puaDie u.2) s
            then mediaTurn (queueRead { pua := u.2, want := { midx := u.1, gmask := 0xF } } s) else s
        | none => s
      let q := { s.qe.selfTest with steps := s.qe.selfTest.steps + 1, stepsThisBolt := s.qe.selfTest.stepsThisBolt + 1 }
      let t : State := { s0 with qe := { s0.qe with selfTest := { q with stepPick := some (pickN s) } } }
      exec (.selfTestStep false) s = .next (selfTestStop 6 t) ∧
      (s.qe.selfTest.total ≤ s.qe.selfTest.steps + 1 → exec (.selfTestStep true) s = .next (selfTestStop 0 t)) ∧
      (s.qe.selfTest.steps + 1 < s.qe.selfTest.total → exec (.selfTestStep true) s = .next t)) ∧
    (s.qe.selfTest.stepPick = some (pickN s) → ∀ ok, exec (.selfTestStep ok) s = .next s) ∧
    (holdsCmd c 0xE0 false s = true → critGate c s = none → dword x.sqe 10 / 2 ^ 19 = 0 →
      let bank := bits (dword x.sqe 10) 5 0
      let row := bits (dword x.sqe 10) 18 6
      let r := fuseResult bank row s
      let cands := s.hamx.cands.filter fun e => !(e.bank = bank && e.row = row)
      (r = 0 → exec (.fuseRepair c) s = .next (finishDw c stOk 0 0
        { s with hamx := { s.hamx with field := s.hamx.field ++ [{ bank := bank, row := row }], cands := cands } })) ∧
      (r ≠ 0 → exec (.fuseRepair c) s = .next (finishDw c stOk r 0 { s with hamx := { s.hamx with cands := cands } })))

/-- R75, R78, R97, R98, R483 to R485: firmware. A piece goes to its offset of the download buffer; a Commit writes the slot and
names it for the next boot, or refuses a bad image; an activation begins at the next boundary with a hold of fetch, waits for the
commands in flight, gives up after 150,000 picks, and ends at a boundary with the Commit's completion. Where the spec leaves a
point open it follows the model's choice, log entries 52 and 104. -/
def Obligations.FirmwareCommands : Prop :=
  ∀ (s : State) (c : Nat),
    let x := ctxGet c s
    let k := dword x.sqe 10 % 8
    (∀ bs t, holdsCmd c 0x11 false s = true → 4 * dword x.sqe 11 + 4 * (dword x.sqe 10 + 1) ≤ 8388608 →
      4 * (dword x.sqe 10 + 1) ≤ mdts → hostData c (4 * (dword x.sqe 10 + 1)) s = (some bs, t) →
      let buf := patch (padTo (max t.boot.download.length (4 * dword x.sqe 11)) t.boot.download) (4 * dword x.sqe 11) bs
      exec (.firmwareImageDownload c) s = .next (finish c stOk { t with boot := { t.boot with download := buf } })) ∧
    (holdsCmd c 0x10 false s = true → critGate c s = none → s.boot.phase ≠ .recovery → 1 ≤ k → k ≤ 3 →
      (fcAction c s = 0 → imageGood s.boot.download = true →
        exec (.firmwareCommitAtReset c) s = .next (finish c stOk (slotWrite k s))) ∧
      (fcAction c s = 1 → imageGood s.boot.download = true →
        exec (.firmwareCommitAtReset c) s = .next (finish c stFwReset (slotPend k (slotWrite k s)))) ∧
      (fcAction c s = 2 → slotGood k s = true →
        exec (.firmwareCommitAtReset c) s = .next (finish c stFwReset (slotPend k s))) ∧
      (fcAction c s ≤ 1 → imageGood s.boot.download = false →
        exec (.firmwareCommitAtReset c) s = .next (finish c stFwImage s)) ∧
      (fcAction c s = 3 → activating s = false → slotGood k s = true →
        exec (.firmwareCommitActivate c) s = .next { s with due := s.due ++ [.activate c k] }) ∧
      (fcAction c s = 3 → activating s = true → exec (.firmwareCommitActivate c) s = .next s)) ∧
    (∀ k, x.used = true → s.qe.actPhase = 0 →
      (activateAct c k s).qe = { s.qe with actPhase := 1, actCtx := c, actStart := pickN s, actSlot := k } ∧
      mayFetch (activateAct c k s) = false) ∧
    (s.qe.actPhase = 2 →
      activateDone true s = finish s.qe.actCtx stOk { s with qe := { s.qe with actPhase := 0 } } ∧
      activateDone false s = finish s.qe.actCtx stFwImage { s with qe := { s.qe with actPhase := 0 } }) ∧
    (s.jnl.pf = .none →
      (s.qe.actPhase = 1 → actLive s = false → pickN s ≤ s.qe.actStart + 150000 →
        (∃ u, exec .activationDrainEnd s = .next u ∧ u.qe = { s.qe with actPhase := 2, actDrain := pickN s } ∧
          u = { s with qe := u.qe, regs := u.regs }) ∧ exec .activationDrainLimit s = .next s) ∧
      (s.qe.actPhase = 1 → actLive s = true → exec .activationDrainEnd s = .next s ∧
        (pickN s < s.qe.actStart + 150000 → exec .activationDrainLimit s = .next s) ∧
        (s.qe.actStart + 150000 ≤ pickN s → ∃ u, exec .activationDrainLimit s = .next u ∧ u.qe.actPhase = 0 ∧ u.boot = s.boot)) ∧
      (s.qe.actPhase = 1 → s.qe.actStart + 150000 < pickN s → exec .activationDrainEnd s = .next s) ∧
      (s.qe.actPhase = 2 → (∀ ok, Due.actDone ok ∉ s.due) →
        (pickN s ≤ s.qe.actDrain + 50000 → exec (.activationEnd true) s =
          .next { (imageSwitch s.qe.actSlot s) with due := (imageSwitch s.qe.actSlot s).due ++ [.actDone true] }) ∧
        (∀ ok, ok = false ∨ s.qe.actDrain + 50000 < pickN s →
          exec (.activationEnd ok) s = .next { s with due := s.due ++ [.actDone false] })) ∧
      (s.qe.actPhase ≠ 2 → ∀ ok, exec (.activationEnd ok) s = .next s))
/-- R65, R89, R90, R155, R159, R188, R280: what the host's answers and the poster do. The answer of a host read becomes the
command's data, or its failure; a lockout ends 1,024 bolts after it began; a staged unit takes a free slot, and its data lie there
in the Hamper; a write is claimed once all of its data is in staging, and one that has nothing to commit completes at once. Where
the spec leaves a point open it follows the model's choice, log entries 6 and 131. -/
def Obligations.HostAnswers : Prop :=
  ∀ (s : State) (c : Nat),
    let x := ctxGet c s
    (x.used = true →
      (∀ bs, bit x.asked.toNat 0 = true →
        exec (.hostReadCompletion c 0 0 bs) s = .next (ctxMod c (fun y => { y with buf := bs, gotData := true }) s)) ∧
      (∀ bs, bit x.asked.toNat 1 = true →
        exec (.hostReadCompletion c 1 0 bs) s = .next (ctxMod c (fun y => { y with mbuf := bs, gotMptr := true }) s)) ∧
      (∀ bs, bit x.asked.toNat 2 = true →
        exec (.hostReadCompletion c 2 0 bs) s = .next (ctxMod c (fun y => { y with list := bs, gotList := true }) s)) ∧
      (∀ k bs, bit x.asked.toNat k = true →
        exec (.hostReadCompletion c k 2 bs) s = .next (ctxMod c (fun y => { y with badData := 2 }) s)) ∧
      (∀ k r bs, bit x.asked.toNat k = false → exec (.hostReadCompletion c k r bs) s = .next s)) ∧
    (∀ f b, f < 128 → (fnGet f s).lockUntil = some b →
      (b ≤ boltN s → exec (.lockoutEnd f) s = .next (fnMod f (fun y => { y with lockUntil := none }) s)) ∧
      (boltN s < b → exec (.lockoutEnd f) s = .next s)) ∧
    (x.used = true → running s = true → fenced pgHam s = false → s.jnl.pf = .none →
      (∀ i k w rest, x.plan.findIdx? (fun t => !t.units.isEmpty) = some i → (x.plan.getD i {}).units = w :: rest →
        slotFree s = some k → ∃ u, exec (.stagingUnitComplete c) s = .next u ∧
          (slotGet k u).used = true ∧ (slotGet k u).midx = w.midx ∧ (slotGet k u).gmask = w.gmask ∧ (slotGet k u).ctx = some c ∧
          (slotGet k u).full = true ∧ (slotGet k u).seq = x.seq ∧ u.map = s.map ∧ ((ctxGet c u).plan.getD i {}).units = rest ∧
          (tabUp s.ham = true → s.hamx.ties = [] → errsIn 32 (slotOffset k s) 16384 s.hamErr = [] →
            ∀ g o, g < 4 → o < 4096 → tget 0 u.ham (slotOffset k s + 4096 * g + o) =
              if bit w.gmask.toNat g then (padTo 4096 (w.gs.getD g {}).bytes).getD o 0 else tget 0 s.ham (slotOffset k s + 4096 * g + o))) ∧
      (slotFree s = none → exec (.stagingUnitComplete c) s = .next s)) ∧
    (x.used = true → x.planned = true → x.claimed = false → mayClaim s = true →
      (x.plan = [] → x.run = none → sqeOp x.sqe ≠ 0x91 → sqeOp x.sqe ≠ 0x94 →
        exec (.writeClaim c) s = .next (finishDw c stOk x.dw0.toNat x.dw1.toNat s)) ∧
      (x.run = none → x.plan ≠ [] → (∀ t ∈ x.plan, t.units = []) →
        exec (.writeClaim c) s = .next (claimWrite c s) ∧ (ctxGet c (claimWrite c s)).claimed = true ∧
          ((∀ t ∈ x.plan, t.discards = []) → (claimWrite c s).map = s.map)) ∧
      (x.run = none → (∃ t ∈ x.plan, t.units ≠ []) → exec (.writeClaim c) s = .next s)) ∧
    (mayClaim s = false → exec (.writeClaim c) s = .next s)

/-- R83, R86 to R89, R93, R106, R142, R152: Read, Write, Flush and Dataset Management. A command whose gate is open reads all of its
granules and sends them, or becomes the transactions of a write; a range outside the namespace ends it; a Flush ends when no
covered write is left in staging. -/
def Obligations.BlockIo : Prop :=
  ∀ (s : State) (c : Nat),
    let x := ctxGet c s
    let n := nsGet x.nsid s
    let len := sqeNlb x.sqe * nsBlock n
    (ioGate c s = none ↔ s.boot.degraded = false ∧ s.qe.sanitizing = false ∧ nsHeld x.nsid x.order s = false ∧ n.active = true ∧
      guardWait x s = false) ∧
    (holdsCmd c 0x02 true s = true → ioGate c s = none →
      (nsBlocks n < sqeSlba x.sqe + sqeNlb x.sqe → exec (.read c) s = .next (finish c stLba s)) ∧
      (∀ b t l u, sqeSlba x.sqe + sqeNlb x.sqe ≤ nsBlocks n → len ≤ mdts → bufferOf c len s = (some b, t) →
        gather c t = (some l, u) → outWait x u = false →
        let v := countRead x.fn len (sendGranules x len l u)
        ((ctxGet c v).ends = none → exec (.read c) s = .next (finish c stOk v)) ∧
        (∀ st, (ctxGet c v).ends = some st → exec (.read c) s = .next (finish c st v)))) ∧
    (holdsCmd c 0x01 true s = true → ioGate c s = none → x.planned = false →
      (x.ro = true → exec (.write c) s = .next (finish c vsReadOnly s)) ∧
      (x.ro = false → fenced pgHam s = true → exec (.write c) s = .next (finish c vsFenced s)) ∧
      (∀ bs t, x.ro = false → fenced pgHam s = false → sqeSlba x.sqe + sqeNlb x.sqe ≤ nsBlocks n → len ≤ mdts →
        hostData c len s = (some bs, t) →
        exec (.write c) s = .next (setPlan c (writePlan (nsExtent n (sqeSlba x.sqe) 1).1 (toGranules bs) false 0) t))) ∧
    (holdsCmd c 0x00 true s = true → s.boot.degraded = false → s.qe.sanitizing = false →
      (x.nsid = 0 ∨ (nsHeld x.nsid x.order s = false ∧ n.active = true)) →
      (flushPending x s = false → exec (.flush c) s = .next (finish c stOk s)) ∧
      (flushPending x s = true → exec (.flush c) s = .next s)) ∧
    (holdsCmd c 0x09 true s = true → ioGate c s = none → x.planned = false → ∀ bs t,
      hostData c (16 * (dword x.sqe 10 % 256 + 1)) s = (some bs, t) →
      (bit (dword x.sqe 11) 2 = false → exec (.datasetManagement c) s = .next (finish c stOk t)) ∧
      (bit (dword x.sqe 11) 2 = true → x.ro = false → fenced pgHam s = false → (∀ r ∈ dsmRanges bs, r.1 + r.2 ≤ nsBlocks n) →
        let es := (dsmRanges bs).map fun r => nsExtent n r.1 r.2
        let t1 := if x.open_ then openExtents c es [] t else t
        (guardWait (ctxGet c t1) t1 = false →
          exec (.datasetManagement c) s = .next (setPlan c (es.flatMap fun e => discardPlan e.1 e.2) t1)) ∧
        (guardWait (ctxGet c t1) t1 = true → exec (.datasetManagement c) s = .next t1)))

/-- R250 to R253, R265, R266, R306, R307: the I/O commands that put their data through an engine. Each hands back its result and its
lengths in its completion; the frame of a Compress Write is placed from the first reserved block; with every engine of its class fenced
a command ends with Block Fenced, and with none of them free to take work it waits. -/
def Obligations.EngineIo : Prop :=
  ∀ (s : State) (c : Nat),
    let x := ctxGet c s
    let e := x.sqe
    let n := nsGet x.nsid s
    let len := sqeNlb e * nsBlock n
    (∀ a bs t, holdsCmd c 0x85 true s = true → ioGate c s = none → x.planned = false → x.ro = false → cwFieldsOk e = true →
      len ≤ mdts → sqeSlba e + cwRlb e ≤ nsBlocks n → fwEngine 0x40 8 s = some a → fenced pgHam s = false →
      hostData c len s = (some bs, t) → spent x.fn rTwc t = false →
        let q := cwParams e
        let out := (twCompress q bs).1
        let blocks := cdiv len (2 ^ q.blockLog2)
        let v := regAdd (engPage a + 0x120) out.length (regAdd (engPage a + 0x118) len (fwCharge a x.fn (twcClocks q bs) t))
        let u := regAdd (engPage a + 0x138) (twCompress q bs).2 (regAdd (engPage a + 0x130) blocks v)
        let g := cdiv out.length (nsBlock n)
        let ext := nsExtent n (sqeSlba e) (cwRlb e)
        (cwRlb e < g → exec (.compressWrite c) s = .next (finish c vsTwSpace u)) ∧
        (g ≤ cwRlb e → exec (.compressWrite c) s = .next (ctxMod c
          (fun y => { y with dw0 := BitVec.ofNat 32 out.length, dw1 := BitVec.ofNat 32 (crc32c bs) })
          (setPlan c (cwPlan ext.1 ext.2 (toGranules (padTo (g * nsBlock n) out))) u)))) ∧
    (holdsCmd c 0x85 true s = true → ioGate c s = none → x.planned = false → x.ro = false → cwFieldsOk e = true →
      len ≤ mdts → sqeSlba e + cwRlb e ≤ nsBlocks n → fwEngine 0x40 8 s = none →
      ((∀ a, 0x40 ≤ a → a < 0x48 → fenced (engPage a) s = true) → exec (.compressWrite c) s = .next (finish c vsFenced s)) ∧
      ((∃ a, 0x40 ≤ a ∧ a < 0x48 ∧ fenced (engPage a) s = false) → exec (.compressWrite c) s = .next s)) ∧
    (holdsCmd c 0x86 true s = true → ioGate c s = none → zeroFrom e 12 16 = true → zeroFrom e 13 11 = true → dword e 14 = 0 →
      dword e 15 = 0 → dword e 13 % 1024 < 512 → len ≤ mdts →
      let cap := (dword e 13 % 1024 + 1) * 4096
      let verify := bit (dword e 13) 10
      (nsBlocks n < sqeSlba e + sqeNlb e → exec (.decompressRead c) s = .next (finish c stLba s)) ∧
      (∀ a b t l u, sqeSlba e + sqeNlb e ≤ nsBlocks n → fenced pgHam s = false → fwEngine 0x48 8 s = some a →
        bufferUnless verify c cap s = (some b, t) → gather c t = (some l, u) → (ctxGet c u).ends = none →
        spent x.fn rTwd u = false → outWait x u = false →
        let inp := granuleBytes l
        ∀ code k o, twFrames false cap (inp.length + 1) {} inp = (code, k, o) →
        let v := twdCount a x.fn inp.length code o u
        let w := if verify then v else sendData x cap 0 o.data false (regAdd (engPage a + 0x120) o.data.length v)
        (code ≠ 0 → ∃ fb z, exec (.decompressRead c) s = .next (finish c (twStatus code) (sendData x cap 0 fb false z)) ∧
          fb.length ≤ cap ∧ z = { v with free := z.free }) ∧
        (code = 0 → exec (.decompressRead c) s =
          .next (finishDw c stOk o.data.length o.crc (countRead x.fn o.data.length w))))) ∧
    (holdsCmd c 0x8E true s = true → ioGate c s = none → zeroFrom e 12 16 = true → zeroFrom e 13 1 = true →
      let long := bit (dword e 13) 0
      let dlen := if long then 64 else 32
      let mlen := sqeBits e 511 448
      (mlen = 0 → exec (.digestRead c) s = .next (finish c vsDigLength s)) ∧
      (∀ a b t l u, mlen ≠ 0 → cdiv mlen (nsBlock n) = sqeNlb e → sqeSlba e + sqeNlb e ≤ nsBlocks n → fenced pgHam s = false →
        fwEngine 0x50 4 s = some a → bufferOf c dlen s = (some b, t) → gather c t = (some l, u) → (ctxGet c u).ends = none →
        spent x.fn rDig u = false → outWait x u = false →
        let m := (granuleBytes l).take mlen
        let clk := if long then 20 * cdiv mlen 128 else 16 * cdiv mlen 64
        let v := regAdd (engPage a + 0x118) mlen (fwCharge a x.fn clk u)
        exec (.digestRead c) s =
          .next (finish c stOk (countRead x.fn dlen (sendData x dlen 0 (if long then sha512 m else sha256 m) false v))))) ∧
    (holdsCmd c 0x8A true s = true → ioGate c s = none →
      (zeroFrom e 12 16 = false → exec (.scanRead c) s = .next (finish c stField s)) ∧
      (∀ a b t, zeroFrom e 12 16 = true → zeroFrom e 13 5 = true → zeroFrom e 14 10 = true → srCap e ≤ 512 * 4096 →
        sqeMptr e % 64 = 0 → srToWindow e = false → srDecomp e = false → sqeSlba e + sqeNlb e ≤ nsBlocks n → fenced pgHam s = false →
        fwEngine 0x58 8 s = some a → bufferOf c (srCap e) s = (some b, t) → x.badData = 0 →
        (x.gotMptr = false → exec (.scanRead c) s = .next (askHost c 1 [(sqeMptr e, 256)] t)) ∧
        (∀ l u, x.gotMptr = true → scSet x.mbuf = none → scDetail x.mbuf (groupWidth (some (srGroup e)) x.fn false t) = 0 →
          gather c t = (some l, u) → (ctxGet c u).ends = none → spent x.fn rScn u = false → outWait x u = false →
          exec (.scanRead c) s = .next (scanRun c a l u))) ∧
      (∀ a l u out o k r, srDecomp e = false → ctxGet c u = x →
        scRun x.mbuf (srGroup e) (groupWidth (some (srGroup e)) x.fn false u) 0 (granuleBytes l) u = (out, o, k, false, r) →
        o.lost = false → out.length ≤ srCap e → ∃ v, scanRun c a l u = finishDw c stOk (min o.selected 0xFFFFFFFF) out.length
          (countRead x.fn out.length (srDeliver x out v)) ∧ v = { r with laneSearch := v.laneSearch, regs := v.regs, fns := v.fns }))
/-- R78, R269, R273 to R280: Arm, the gate of a critical command, and the loading and erasing of keys. An Arm that passes its
checks waits for the command that follows it; a critical command goes on only after an Arm whose tag its own bytes and the key
give. Where the spec leaves a point open it follows the model's choice, log entry 159. -/
def Obligations.KeysAndArm : Prop :=
  ∀ (s : State) (c : Nat),
    let x := ctxGet c s
    let f := x.fn
    (holdsCmd c 0xC0 false s = true →
      let counter := BitVec.ofNat 64 (sqeBits x.sqe 383 320)
      let a : Arm := { counter := counter, tag := BitVec.ofNat 128 (sqeBits x.sqe 511 384), pick := pickN s, order := x.order }
      (keyOf 0 f s = none → exec (.arm c) s = .next (finish c vsKeyRetired s)) ∧
      (∀ k, keyOf 0 f s = some k → (keyGet k s).used + 3 ≤ (keyGet k s).limit →
        (counter.toNat ≤ (tget 0 s.die.armCtr f).toNat → exec (.arm c) s = .next (finish c vsCounterStale s)) ∧
        ((tget 0 s.die.armCtr f).toNat < counter.toNat → lockedOut f s = true →
          exec (.arm c) s = .next (finish c vsAuthFailed (regAdd (pgKck 0 + 0x600) 1 s))) ∧
        ((tget 0 s.die.armCtr f).toNat < counter.toNat → lockedOut f s = false → (fnGet f s).arm = none → nextIsCritical x s = true →
          exec (.arm c) s = .next (finish c stOk (fnMod f (fun q => { q with arm := some a }) s))))) ∧
    (x.armOk = false → x.armed = false → (fenced (pgKck 0) s && fenced (pgKck 1) s) = false →
      (s.qe.ctxs.any fun e => e.2.fn = f && e.2.sq = 0 && e.2.order = x.prev && sqeOp e.2.sqe = 0xC0) = false →
      ((fnGet f s).arm = none → critGate c s = some (finish c vsArmRequired s)) ∧
      (∀ a, (fnGet f s).arm = some a → a.order = x.prev →
        let d := fnMod f (fun q => { q with arm := none }) s
        (a.pick + 16384 < x.pick → critGate c s = some (finish c vsArmExpired d)) ∧
        (∀ k t0, x.pick ≤ a.pick + 16384 → keyOf 0 f s = some k → keyUse k 3 d = (true, t0) →
          let e := if fenced (pgKck 0) s then pgKck 1 else pgKck 0
          let good := natLe 16 a.tag.toNat = cmac (keyBytes (keyGet k s)) (armMessage a.counter x.sqe)
          let t := t0 |> regAdd (e + 0x118) 3 |> regAdd (e + (if good then 0x128 else 0x130)) 1
          (good → ∃ u, critGate c s = some u ∧ (ctxGet c u).armed = true ∧ (ctxGet c u).used = x.used ∧ u.map = s.map) ∧
          (¬ good → critGate c s = some (finish c vsAuthFailed (authFail f t)))))) ∧
    (x.armOk = true → critGate c s = none) ∧
    (∀ t, holdsCmd c 0xD1 false s = true → klFieldsOk x.sqe = true → klGate c s = (none, t) →
      let e := (ctxGet c t).sqe
      (∀ bs u, klErase x.sqe = false → hostData c 64 t = (some bs, u) →
        let good := (∀ b ∈ bs.drop 0x24, b = 0) ∧ (cmac (bs.take 32) (zeros 16)).take 4 = (bs.drop 0x20).take 4
        let key : KeySlot := { state := .active, role := klRole e, gen := klGen e, owner := klOwner e, limit := klLimit e,
                               key := BitVec.ofNat 256 (leNat (bs.take 32)) }
        (good → exec (.keyLoad c) s = .next (finishDw c stOk (klSlot e) 0 (note 0x3485 (pgKck 0) (klSlot e)
          (keyReplace (klSlot e) (klRole e) (klOwner e) (keyRecord (klSlot e) 0 (keyPut (klSlot e) key u)))))) ∧
        (¬ good → exec (.keyLoad c) s = .next (finish c stField u))) ∧
      (klErase x.sqe = true → (keyGet (klSlot e) t).state ≠ .empty → exec (.keyErase c) s = .next (finishDw c stOk (klSlot e) 0
        (note 0x3485 (pgKck 0) (klSlot e) (keyRecord (klSlot e) 0 (keyPut (klSlot e) {} t))))) ∧
      (klErase x.sqe = true → (keyGet (klSlot e) t).state = .empty →
        exec (.keyErase c) s = .next (finishDw c stOk (klSlot e) 0 t)))

/-- R441 to R446: Set Portion and Get Portion. A record that is in range and whose resources can be placed becomes the function's
Portion and no other's; Get Portion answers 256 bytes, a VF its own. -/
def Obligations.Portions : Prop :=
  ∀ (s : State) (c : Nat),
    let x := ctxGet c s
    (∀ b t, holdsCmd c 0xC5 false s = true → critGate c s = none → hostData c 64 s = (some b, t) →
      let f := dword x.sqe 10 % 128
      let p := ptParse b
      (128 ≤ dword x.sqe 10 ∨ ptOk f b = false → exec (.setPortion c) s = .next (finish c stField t)) ∧
      (∀ off, dword x.sqe 10 < 128 → ptOk f b = true → carveAll f p t = .error off →
        exec (.setPortion c) s = .next (finishDw c vsPortion off 0 t)) ∧
      (∀ v, dword x.sqe 10 < 128 → ptOk f b = true → carveAll f p t = .ok v → ∃ u, exec (.setPortion c) s = .next u ∧
        portionOf f u = p ∧ (∀ g, g ≠ f → tget none u.die.portions g = tget none t.die.portions g) ∧ u.map = t.map ∧ u.jnl = { t.jnl with slots := u.jnl.slots })) ∧
    (holdsCmd c 0xC6 false s = true →
      let bs := portionEntry (if x.fn = 0 then dword x.sqe 10 % 128 else x.fn) s
      bs.length = 256 ∧
      (∀ b t, bufferOf c 256 s = (some b, t) → (fnGet (ctxGet c t).fn t).bme = true →
        exec (.getPortion c) s = .next (finish c stOk (sendData (ctxGet c t) 256 0 bs false t))))

/-- R341, R362 to R364: images. The first piece takes a handle and a place and goes into the program store; the last one is
verified as a whole, and the image is loaded or gone; a partial load ends after 64 bolts without a piece; an image that a run uses
stays. Where the spec leaves a point open it follows the model's choice, log entry 6. -/
def Obligations.ProgramImages : Prop :=
  ∀ (s : State) (c : Nat),
    let x := ctxGet c s
    let n := dword x.sqe 10
    let v := dword x.sqe 12
    (∀ bs t b h, holdsCmd c 0xC9 false s = true → bits v 15 2 = 0 → bits v 31 20 = 0 → n ≤ mdts → n % 64 = 0 → 64 ≤ n →
      bit v 0 = true → bit v 1 = false → dword x.sqe 11 = 0 → dramUp s = true → partialOf x.fn s = none →
      (handles x.fn s).length < 16 → hostData c n s = (some bs, t) → storePlace (hdLength bs) t = some b →
      (List.range 16).find? (fun h => !(imgGet (16 * x.fn + h) t).present) = some h →
      let k := 16 * x.fn + h
      let len := hdLength bs
      let w := dramWrite (storeBase t + b) (bs.take len) false (imgSet k { present := true, base := b, length := len } t)
      exec (.loadProgram c) s = .next (finishDw c stOk h 0
        (imgSet k { present := true, base := b, length := len, got := bs.length, lastBolt := boltN t } w))) ∧
    (∀ bs t, holdsCmd c 0xC9 false s = true → bits v 15 2 = 0 → bits v 31 20 = 0 → n ≠ 0 → n ≤ mdts → bit v 0 = false →
      bit v 1 = true → dramUp s = true → partialOf x.fn s = some (bits v 19 16) → hostData c n s = (some bs, t) →
      let k := 16 * x.fn + bits v 19 16
      let i := imgGet k t
      (imgGet k s).got = dword x.sqe 11 →
      let w := imgSet k { i with got := i.got + bs.length, lastBolt := boltN t }
        (dramWrite (storeBase t + i.base + i.got) (bs.take (i.length - i.got)) false t)
      (i.got + bs.length ≠ i.length → exec (.loadProgram c) s = .next (finish c vsLength (imgSet k {} w))) ∧
      (∀ d o, i.got + bs.length = i.length → izVerify (imgBytes k 0 i.length w) false = some (d, o) →
        exec (.loadProgram c) s = .next (finishDw c vsImage (d + o * 256) 0 (imgSet k {} w))) ∧
      (i.got + bs.length = i.length → izVerify (imgBytes k 0 i.length w) false = none →
        exec (.loadProgram c) s = .next (finishDw c stOk (k % 16) 0 (imgSet k { i with got := i.length, loaded := true } w)))) ∧
    (∀ f h, f < 128 → h < 16 →
      let i := imgGet (16 * f + h) s
      (i.present = true → i.loaded = false → i.lastBolt + 64 ≤ boltN s →
        exec (.partialLoadDiscard f h) s = .next (imgSet (16 * f + h) {} s)) ∧
      (i.present = false ∨ i.loaded = true ∨ boltN s < i.lastBolt + 64 → exec (.partialLoadDiscard f h) s = .next s)) ∧
    (holdsCmd c 0xCC false s = true →
      let k := 16 * x.fn + bits (dword x.sqe 10) 3 0
      ((imgGet k s).present = true → (∀ r q, (r, q) ∈ s.runs → q.used = true → r ≠ fwRun → q.image ≠ k) →
        exec (.unloadProgram c) s = .next (finish c stOk (codeDrop k (imgSet k {} s)))) ∧
      ((imgGet k s).present = true → (∃ r q, (r, q) ∈ s.runs ∧ q.used = true ∧ r ≠ fwRun ∧ q.image = k) →
        exec (.unloadProgram c) s = .next (finish c stSequence s)) ∧
      ((imgGet k s).present = false → exec (.unloadProgram c) s = .next (finish c stField s)))

/-- R365 to R376: runs. A Run Program asks for its argument block, is refused or gets its resources; its entry task is created
once its inputs are in memory; it ends when its tasks and jobs have, its outputs written first; past its time it is killed at the
next pick. Where the spec leaves a point open it follows the model's choice, log entries 6 and 113. -/
def Obligations.Runs : Prop :=
  ∀ (s : State) (c r : Nat), r < 1024 →
    let x := ctxGet c s
    let v := dword x.sqe 10
    let a := padTo v x.mbuf
    let q := runGet r s
    let got (u : State) := ∃ n, freeRun s = some n ∧ (runGet n u).used = true ∧ (runGet n u).ctx = c ∧ (runGet n u).fn = x.fn ∧
      (runGet n u).image = 16 * x.fn + raHandle a ∧ (runGet n u).resv = (freeTasks s).take (raMaxTasks a) ∧
      some (runGet n u).grants = runGrants x a s ∧ (ctxGet c u).run = some n ∧
      ((raBufs (raOuts a)).all (·.mode = 0) → u.map = s.map)
    let fits := ∃ n gs, freeRun s = some n ∧ runGrants x a s = some gs ∧ raMaxTasks a ≤ ((freeTasks s).take (raMaxTasks a)).length ∧
      (fnGet x.fn s).hamUse + gs.foldl (fun t g => t + g.2) 0 ≤ (portionOf x.fn s).hamper * 4096
    (holdsCmd c 0x83 true s = true → x.run = none →
      (x.phase ≠ 1 → ioGate c s = none →
        (v < 64 ∨ 3520 < v → exec (.runProgram c) s = .next (finish c stField s)) ∧
        (64 ≤ v → v ≤ 3520 → sqeMptr x.sqe % 64 = 0 → (∀ k ∈ [11, 12, 13, 14, 15], dword x.sqe k = 0) → fenced pgHam s = true →
          exec (.runProgram c) s = .next (finish c vsFenced s)) ∧
        (64 ≤ v → v ≤ 3520 → sqeMptr x.sqe % 64 = 0 → (∀ k ∈ [11, 12, 13, 14, 15], dword x.sqe k = 0) → fenced pgHam s = false →
          x.badData = 0 →
          (x.gotMptr = false → exec (.runProgram c) s = .next (askHost c 1 [(sqeMptr x.sqe, v)] s)) ∧
          (∀ st, x.gotMptr = true → x.started = false → runRefusal x a s = some st →
            (ctxGet c (finish c st s)).used = false → exec (.runProgram c) s = .next (finish c st s)) ∧
          (x.gotMptr = true → x.started = true → runMustWait c a s = true →
            exec (.runProgram c) s = .next (ctxMod c (fun y => { y with phase := 1 }) s)) ∧
          (x.gotMptr = true → x.started = true → runMustWait c a s = false → fits → ∃ u, exec (.runProgram c) s = .next u ∧ got u))) ∧
      (x.phase = 1 → runMustWait c a s = false → fits → ∃ u, exec (.runResourceAcquire c) s = .next u ∧ got u) ∧
      (x.phase = 1 → runMustWait c a s = true → exec (.runResourceAcquire c) s = .next s)) ∧
    (∀ i, holdsCmd c 0x83 true s = true → x.run = some i → exec (.runProgram c) s = .next (feedRun c i s)) ∧
    (running s = true → s.jnl.pf = .none → fenced pgItn s = false →
      (∀ f u, accepts pgItn s = true → q.used = true → q.phase = .loading → q.inputsIn = true → imgFun q.image q.entry s = some f →
        newTask r (q.resv.headD 0) f q.arg 0 none
          (runSet r { q with phase := .live, startBolt := boltN s } (hamWrite (.core 0) q.page (runPage r s) false s)) = some u →
        exec (.runEntryTaskCreate r) s = .next u) ∧
      (q.used = true → fenced pgQen s = false → q.phase = .live → killDue r s = false → (∀ t ∈ q.resv, taskUsable t s = true) →
        runBusy r s = false →
        (q.outs ≠ [] → exec (.runEnd r) s = .next (setPlan q.ctx
          (q.outs.zipIdx.flatMap fun b => (writePlan b.1.first (outGranules b.1 s) false 0).map fun t => { t with ext := b.2 })
          (runSet r { q with phase := .done } (q.outs.foldl (fun s b => memMet (hamVia 1 s) b.space b.addr (4096 * b.count) s) s)))) ∧
        (q.outs = [] → q.resultLen = 0 → (ctxGet q.ctx s).badData = 0 →
          let z := fnMod (ctxGet q.ctx s).fn (fun y => { y with unitsWritten := y.unitsWritten + 0 }) (runRelease r s)
          exec (.runEnd r) s =
            .next (finishDw q.ctx stOk (min 0xFFFFFFFF (cdiv (q.coreClk * 256) 6400)) (pickN s - (ctxGet q.ctx s).pick) z))) ∧
      (killDue r s = true → (ctxGet q.ctx s).claimed = false → exec (.runEnd r) s = .next s) ∧
      (q.used = true → q.phase = .live → (∃ t ∈ q.resv, taskUsable t s = false) → exec (.runEnd r) s = .next s)) ∧
    (q.used = true → q.phase = .live → q.timeoutBolts ≠ 0 →
      (q.startBolt + q.timeoutBolts ≤ boltN s → exec (.runTimeout r) s = .next
        { note 0x4283 pgItn r s with due := (note 0x4283 pgItn r s).due ++ [.killRun r vsTrapped 0x80 0] }) ∧
      (boltN s < q.startBolt + q.timeoutBolts → exec (.runTimeout r) s = .next s))
/-- R190, R207, R210 to R212, R214, R218, R220, R222: pacing lines and Shuttles. A post adds a burst to its line and a release
takes one, by the agents that the line binds; a Shuttle takes the descriptor at the head of its ring, moves it burst by burst,
ends with 0x07 when a write loses a collision, and writes its status. Where the spec leaves a point open it follows the model's
choice, log entry 157. -/
def Obligations.LinesAndShuttles : Prop :=
  ∀ (s : State), Inv s →
    (∀ l agent last len, l < 32 →
      let x := lineGet l s
      (lineEn l s = true → lineProducer l s = agent → x.ended = false → x.fill < lineDepth l s →
        let y := { x with fill := x.fill + 1, posted := x.posted + 1, ended := last }
        exec (.linePost l agent last len) s =
          .next (lineSet l { y with endLen := if last then (if len = 0 then lineBurst l s / 64 else len % 2048) else x.endLen } s)) ∧
      (lineEn l s = false ∨ lineProducer l s ≠ agent ∨ x.ended = true →
        exec (.linePost l agent last len) s = .next (note 0x3081 (pgShu 0) l s)) ∧
      (lineEn l s = true → lineConsumer l s = agent → x.fill ≠ 0 →
        exec (.lineRelease l agent) s = .next (lineSet l { x with fill := x.fill - 1, taken := x.taken + 1 } s)) ∧
      (lineEn l s = false ∨ lineConsumer l s ≠ agent → exec (.lineRelease l agent) s = .next (note 0x3081 (pgShu 0) l s))) ∧
    (fenced (pgShu 0) s = false → ∀ v : W32,
      let p := setBit v.toNat 5 false
      let q := setBit v.toNat 5 true
      let y := lineGet (bits p 4 0) s
      let z := lineGet (bits q 4 0) s
      let len := if bits p 17 8 = 0 then lineBurst (bits p 4 0) s / 64 else bits p 17 8
      (lineEn (bits p 4 0) s = true → lineProducer (bits p 4 0) s = 0x70 → y.ended = false →
        (y.fill < lineDepth (bits p 4 0) s → exec (.softwareLinePost v) s = .next (lineSet (bits p 4 0)
          { y with fill := y.fill + 1, posted := y.posted + 1, ended := bit p 6, endLen := if bit p 6 then len else y.endLen } s)) ∧
        (lineDepth (bits p 4 0) s ≤ y.fill → exec (.softwareLinePost v) s = .next (note 0x3005 (pgShu 0) (bits p 4 0) s))) ∧
      (lineEn (bits q 4 0) s = true → lineConsumer (bits q 4 0) s = 0x70 →
        (z.fill ≠ 0 → exec (.softwareLineRelease v) s =
          .next (lineSet (bits q 4 0) { z with fill := z.fill - 1, taken := z.taken + 1 } s)) ∧
        (z.fill = 0 → exec (.softwareLineRelease v) s = .next (note 0x3005 (pgShu 0) (bits q 4 0) s)))) ∧
    (∀ l m t, ∀ v : W64, l < 32 → fenced (pgShu 0) s = false → mergeRw (pgShu 0 + 0x400 + 16 * l) 63 0 v.toNat s = (m, t) →
      (lineEn l s = true → bit m 0 = true → exec (.shuLineCfgWrite l v) s = .next t) ∧
      (lineEn l s = true → bit m 0 = false →
        exec (.shuLineCfgWrite l v) s = .next (regSet (pgShu 0 + 0x400 + 16 * l) m (lineFree l t))) ∧
      (lineEn l s = false → bit m 0 = true → exec (.shuLineCfgWrite l v) s =
        .next (lineSet l { run := (lineGet l t).run } (regSet (pgShu 0 + 0x400 + 16 * l) m t)))) ∧
    (∀ k, k < 64 →
      let page := pgShu k
      let x := shuGet k s
      let h := ringHead page s
      let d := (hamRead (ringAt page h s) 64 s).1
      let prog := tget none x.back h
      (∀ v : W32, fenced page s = false →
        exec (.shuTailAdvance k v) s = .next (regSetFld (page + 0x108) 9 0 v.toNat s) ∧
        (bit v.toNat 1 = false → exec (.shuStop k v) s = .next (regSetFld (page + 0x110) 0 0 v.toNat s)) ∧
        (let w := setBit v.toNat 1 true
         exec (.shuFlush k v) s = .next (shuSquash k 0x09 (fun _ _ => true) (regSetFld (page + 0x110) 0 0 w s)))) ∧
      (∀ v : W32, fenced page s = true → exec (.shuTailAdvance k v) s = .next s) ∧
      (accepts page s = true → running s = true → pfOn s = false → bit (regGet (page + 0x110) s) 0 = false → x.heldDec = none →
        (x.job = none → x.dead = [] → h ≠ ringTail page s → ∀ res data, ∃ u, exec (.shuttleDescriptor k res data) s = .next u ∧
          regGet (page + 0x104) u = (h + 1) % ringLen page s ∧ u.ham = s.ham ∧ u.dram = s.dram ∧
          (let code := if sdCheck k d (fromFw prog) s = 0 then none else some (sdCheck k d (fromFw prog) s)
           (shuGet k u).job = some { desc := d, index := h, prog := prog, code := code })) ∧
        (∀ j bs p t res data, x.job = some j → j.code = none → sdIn j.desc = none → sdOut j.desc = none → sdFlag j.desc 0 = false →
          sdFlag j.desc 1 = false → sdSrcSpace j.desc < 2 → sdDstSpace j.desc < 2 → j.moved < sdLen j.desc →
          let n := min (sdLen j.desc - j.moved) 65536
          memRead (sdSrcSpace j.desc) (sdSrc j.desc + j.moved) n s = some (bs, p) →
          let f := sdFunc j.desc
          let rd := readBy (sideMem f (sideOut j.desc j.moved n s) s) s
          let wr := writeBy (sideMem f (sideIn j.desc j.moved n s) s) s
          let m := memMet rd (sdSrcSpace j.desc) (sdSrc j.desc + j.moved) n s
          let put := if p then shuPut j.desc f j.moved n (fromFw j.prog) wr (burstParts j.desc f j.moved n bs p s) m
            else memWrite wr (sdDstSpace j.desc) (sdDst j.desc + j.moved) bs false m
          let lost := memLoses wr (sdDstSpace j.desc) (sdDst j.desc + j.moved) n m
          sideWaits f (sideIn j.desc j.moved n s) s = false → sideWaits f (sideOut j.desc j.moved n s) s = false → put = some t →
          ∃ u, exec (.shuttleDescriptor k res data) s = .next u ∧ u.ham = t.ham ∧ u.hamPoison = t.hamPoison ∧ u.dram = t.dram ∧
            u.dramPoison = t.dramPoison ∧ (shuGet k u).job = some (if lost then { j with code := some 7 }
              else { j with moved := j.moved + n, code := if j.moved + n = sdLen j.desc then some 0 else none }))) ∧
      (∀ j c, x.job = some j → j.code = some c → j.prog = none → ∃ u, exec (.shuttleDescriptorEnd k) s = .next u ∧
        (shuGet k u).job = none ∧ u.lines = s.lines ∧
        (∀ t, memWrite (hamVia 0 s) 0 (ringAt page j.index s + 0x38) (shuStatus c j.moved) false s = some t → u.ham = t.ham)) ∧
      (x.job = none → exec (.shuttleDescriptorEnd k) s = .next s)) ∧
    (∀ k t, k < 64 → (shuGet k s).heldDec = some t → (∀ q ∈ s.shus, q.2.heldDec.isSome = true → q.1 = k) →
      shuHeld s = match tryDec t s with
        | some u => shuMod k (fun x => { x with heldDec := none }) u
        | none => s)

/-- R222, R243, R245, R254, R282, R310, R430, R463: the ring registers of every stream engine. A write of TAIL submits up to the new
tail; STOP acts at the next pick boundary and 0 lets the engine go on; FLUSH ends every job with 0x09; a fenced page drops all. -/
def Obligations.EngineRings : Prop :=
  ∀ (s : State),
    let stop (a v : Nat) : State :=
      let t := regSetFld (engPage a + 0x110) 0 0 v s
      if bit v 0 then { t with due := t.due ++ [.hold (engPage a)] } else engMod a (fun x => { x with stopped := false }) t
    let ring (tail ctl flush : W32 → Instr) (a : Nat) : Prop := ∀ v : W32,
      (fenced (engPage a) s = false →
        exec (tail v) s = .next (regSetFld (engPage a + 0x108) 9 0 v.toNat s) ∧
        (bit v.toNat 1 = false → exec (ctl v) s = .next (stop a v.toNat)) ∧
        exec (flush v) s = .next (engSquash a 0x09 (fun _ _ => true) (stop a (setBit v.toNat 1 true)))) ∧
      (fenced (engPage a) s = true → exec (tail v) s = .next s ∧ exec (ctl v) s = .next s ∧ exec (flush v) s = .next s)
    (∀ e, e < 16 → ring (.twillTailAdvance e) (.twillStop e) (.twillFlush e) (0x40 + e)) ∧
    (∀ e, e < 4 → ring (.digTailAdvance e) (.digStop e) (.digFlush e) (0x50 + e)) ∧
    (∀ e, e < 2 → ring (.kckTailAdvance e) (.kckStop e) (.kckFlush e) (0x54 + e)) ∧
    (∀ e, e < 8 → ring (.scnTailAdvance e) (.scnStop e) (.scnFlush e) (0x58 + e)) ∧
    ring .mndTailAdvance .mndStop .mndFlush 0x61

/-- R243, R244, R248, R249, R259, R263, R271, R272, R302 to R304, R412, R413: the jobs of the stream engines. An engine takes the
descriptor at the head of its ring into a free slot when its checks pass; one that fails completes at once and takes no slot; an
ended job completes with its code in its descriptor, and its slot is free. Where the spec leaves a point open it follows the
model's choice, log entry 159. -/
def Obligations.EngineJobs : Prop :=
  ∀ (s : State), Inv s →
    let takes (c : Instr) (a : Nat) (p : Bytes → Bool) (check : EngJob → State → Nat) (z : State) : Prop :=
      let page := engPage a
      let x := engGet a z
      ∀ k, (List.range 4).find? (fun k => !(x.jobs.any fun j => j.slot = k)) = some k → accepts page z = true → running z = true →
        x.stopped = false → x.dead = [] → ringHead page z ≠ ringTail page z →
        let j := engHead a k z
        p j.desc = true →
        let y := hamMet (engBy a z) (ringAt page j.index z) 64 z
        let w := if 0x58 ≤ a ∧ a < 0x60 then hamMet (engBy a y) (leAt j.desc 0x28 8) 256 y else y
        (check j z = 0 → exec c s = .next (engMod a (fun x => { x with back := tset none j.index none x.back, jobs := x.jobs ++ [j] })
          (regSet (page + 0x104) ((j.index + 1) % ringLen page w) { w with jobSeq := w.jobSeq + 1 }))) ∧
        (check j z ≠ 0 → ∃ u, exec c s = .next u ∧ u.jobSeq = z.jobSeq + 1 ∧ (∀ q ∈ (engGet a u).jobs, q.slot ≠ k))
    let ends (c : Instr) (a : Nat) : Prop := ∃ u, exec c s = .next u ∧
      (∀ q ∈ (engGet a u).jobs, q ∈ (engGet a s).jobs) ∧
      ((∀ j ∈ (engGet a s).jobs, edFlag j.desc 3 = false) → ∀ q ∈ (engGet a u).jobs, q.code = none) ∧
      (∀ j code, (engGet a s).jobs = [j] → j.code = some code → engHeld a j s = true → u = s) ∧
      (∀ j code t, (engGet a s).jobs = [j] → j.code = some code → engHeld a j s = false → j.prog = none →
        memWrite (engBy a s) 0 (ringAt (engPage a) j.index s + 0x30)
        (padTo 16 ((j.desc.drop 0x30).take (codeOff a - 0x30) ++ natLe 1 code ++ j.res)) false s = some t →
        u.ham = t.ham ∧ u.dram = s.dram)
    let lose (a : Nat) : State :=
      { s with digs := tmod {} (leAt (engHead a 0 s).desc 3 1 % 64) (fun x => { x with lost := true }) s.digs }
    let saved (a : Nat) : Bool := (tget {} s.digs (leAt (engHead a 0 s).desc 3 1 % 64)).alloc
    (∀ e, e < 8 → takes (.twillCompress e) (0x40 + e) (fun _ => true) (tdCheck (0x40 + e)) s ∧
      takes (.twillDecompress e) (0x48 + e) (fun d => tdOp d ≠ 3) (tdCheck (0x48 + e)) s ∧
      takes (.twillVerify e) (0x48 + e) (fun d => tdOp d = 3) (tdCheck (0x48 + e)) s ∧
      takes (.scanJob e) (0x58 + e) (fun _ => true) (sjCheck (0x58 + e)) s ∧ ends (.scanJobEnd e) (0x58 + e)) ∧
    (∀ e, e < 16 → ends (.twillJobEnd e) (0x40 + e)) ∧
    (∀ e, e < 4 →
      let check := ddCheck (0x50 + e)
      takes (.digestInit e) (0x50 + e) (fun d => ddOp d = 1 || ddOp d = 0 || 6 < ddOp d) check s ∧
      takes (.digestOneshot e) (0x50 + e) (fun d => ddOp d = 4) check s ∧
      takes (.digestRelease e) (0x50 + e) (fun d => ddOp d = 6) check s ∧
      takes (.digestUpdate e false) (0x50 + e) (fun d => ddOp d = 2) check s ∧
      takes (.digestFinal e false) (0x50 + e) (fun d => ddOp d = 3) check s ∧
      takes (.digestCompare e false) (0x50 + e) (fun d => ddOp d = 5) check s ∧
      (saved (0x50 + e) = true → takes (.digestUpdate e true) (0x50 + e) (fun d => ddOp d = 2) check (lose (0x50 + e)) ∧
        takes (.digestFinal e true) (0x50 + e) (fun d => ddOp d = 3) check (lose (0x50 + e)) ∧
        takes (.digestCompare e true) (0x50 + e) (fun d => ddOp d = 5) check (lose (0x50 + e))) ∧
      ends (.digestJobEnd e) (0x50 + e)) ∧
    (∀ e, e < 2 → takes (.kckGenerate e) (0x54 + e) (fun d => kdOp d ≠ 2) (kdCheck (0x54 + e)) s ∧
      takes (.kckVerify e) (0x54 + e) (fun d => kdOp d = 2) (kdCheck (0x54 + e)) s ∧ ends (.kckJobEnd e) (0x54 + e)) ∧
    takes .menderMac 0x61 (fun _ => true) (mdCheck 0x61) s ∧ ends .menderJobEnd 0x61

/-- R24, R347, R353 to R356, R189, R198, R199: dispatch and ageing of tasks, and the scrubbers. An idle core runs the task in its slot;
an activation of 6,400 clk is preempted and READY again; a READY task rises a level; a scrub step corrects or poisons and moves on. -/
def Obligations.TasksAndScrub : Prop :=
  ∀ (s : State), Inv s →
    (∀ n, n < 128 →
      (∀ t, coreUp n s = true → (coreGet n s).task = none → (coreGet n s).slot = some t → (taskGet t s).state = .slotted →
        t ∉ readyOf (n / 16) s → ∃ u, exec (.taskDispatch n) s = .next u ∧ (coreGet n u).task = some t ∧ (taskGet t u).state = .running ∧
          (taskGet t u).lastCore = n ∧ (taskGet t u).everRan = true ∧ (taskGet t u).activations = (taskGet t s).activations + 1) ∧
      (coreUp n s = true → (coreGet n s).task = none → (coreGet n s).slot = none → pickTask n (readyOf (n / 16) s) s = none →
        stealFrom n s = none → exec (.taskDispatch n) s = .next (coreSet n { (coreGet n s) with stat := 4 } s)) ∧
      (coreUp n s = false → exec (.taskDispatch n) s = .next s) ∧ (coreRuns n s = false → exec (.activationPreempt n) s = .next s) ∧
      (∀ t, coreRuns n s = true → (coreGet n s).task = some t →
        (6400 ≤ (taskGet t s).edgeClk → ∃ u, exec (.activationPreempt n) s = .next u ∧ (coreGet n u).task = none ∧
          (taskGet t u).state = .ready ∧ (∃ k, t ∈ readyOf k u) ∧
          u = { s with regs := u.regs, cores := u.cores, tasks := u.tasks, ready := u.ready }) ∧
        ((taskGet t s).edgeClk < 6400 → exec (.activationPreempt n) s = .next s))) ∧
    (∀ t, t < 65536 →
      let x := taskGet t s
      let p := regFld (pgItn + 0x114) 15 0 s
      (x.state = .ready → p ≠ 0 → x.prio ≠ 0 → x.agePick + p ≤ pickN s →
        exec (.taskAgeing t) s = .next (taskSet t { x with prio := x.prio - 1, aged := true, agePick := pickN s } s)) ∧
      (x.state ≠ .ready ∨ p = 0 ∨ x.prio = 0 ∨ pickN s < x.agePick + p → exec (.taskAgeing t) s = .next s)) ∧
    (∀ v : W32, fenced pgItn s = false → ∃ u, exec (.itnQuery v) s = .next u ∧ u = { s with regs := u.regs } ∧
      ∀ j, j < 4 → regGet (pgItn + 0x120 + 8 * j) u = leAt (taskEntry (v.toNat % 65536) s) (8 * j) 8) ∧
    (s.hamx.stepPick = pickN s → scrubPaused s = false →
      (bit (regGet (pgHamS + 0x100) s) 0 = true → fenced pgHam s = false → s.hamx.beats < bits (regGet (pgHamS + 0x100) s) 15 4 →
        s.hamx.scrubPos + 1 ≠ 524288 → (∀ j, j < 4 → tget [] s.hamErr (4 * s.hamx.scrubPos + j) = []) →
        let x := { s.hamx with scrubPos := s.hamx.scrubPos + 1, beats := s.hamx.beats + 1 }
        exec (.hamperScrubStep []) s = .next { s with hamx := x }) ∧
      (bit (regGet (pgHamS + 0x118) s) 0 = true → dramUp s = true → s.hamx.lines < 16 * bits (regGet (pgHamS + 0x118) s) 15 4 →
        (s.ddr.scrubPos + 1) * 64 ≠ dramSize s → (∀ j, j < 4 → tget [] s.dramErr (4 * s.ddr.scrubPos + j) = []) →
        let x := { s.hamx with lines := s.hamx.lines + 1 }
        exec (.dramScrubStep []) s = .next { s with hamx := x, ddr := { s.ddr with scrubPos := s.ddr.scrubPos + 1 } })) ∧
    (s.hamx.stepPick = pickN s → scrubPaused s = true → ∀ l, exec (.hamperScrubStep l) s = .next s ∧ exec (.dramScrubStep l) s = .next s) ∧
    (∀ w, let good := codeword (tgetBytes s.ham (32 * w) 32)
      let cw := withErrors 0 (tget [] s.hamErr w) good
      cw ≠ good → tget false s.hamPoison w = false → tget [] (scrubWord w s).hamErr w = [] ∧
      (∀ v n, rsDecode cw = some (v, n) → (scrubWord w s).ham = tsetBytes (32 * w) ((v.take 32).map (BitVec.ofNat 8)) s.ham) ∧
      (rsDecode cw = none → tget false (scrubWord w s).hamPoison w = true)) ∧
    (∀ r v, ∀ w : W32, r < 4 → fenced pgHam s = false → v = andN w.toNat 0x07FF03FF →
      (regionOk r v s = true → exec (.hamperRegionCfg r w) s =
        .next { s with due := s.due ++ [.reg (pgHam + 0x100 + 4 * r) (BitVec.ofNat 64 v)] }) ∧
      (regionOk r v s = false → exec (.hamperRegionCfg r w) s = .next (raise 0x1005 pgHam (pgHam + 0x100 + 4 * r) s)))

/-- R285 to R287, R293, R294, R309: the Heddle groups. Compaction keeps every key in its order, PACK in the lowest places and SPREAD
spread over the group; enabling a group empties it; what the checker finds is corrected, made a hole or rebuilt. -/
def Obligations.HeddleGroups : Prop :=
  ∀ (s : State) (g : Nat), Inv s → g < 8 → fenced (pgGrp g) s = false →
    let old := grpCfg g s
    let keys (t : State) := (hedValid g t).map fun i => hedGet g i t
    let n := (hedValid g s).length
    (grpEn g s = true → grpFenced g s = false → grpGeometry old = true →
      (∃ u, exec (.hedCompactPack g) s = .next u ∧ hedValid g u = List.range n ∧ keys u = keys s ∧
        u = { s with regs := u.regs, hed := u.hed, hgrp := u.hgrp }) ∧
      (∃ u, exec (.hedCompactSpread g) s = .next u ∧ hedValid g u = (List.range n).map (fun k => k * grpE g s / n) ∧
        keys u = keys s ∧ u = { s with regs := u.regs, hed := u.hed, hgrp := u.hgrp })) ∧
    (grpEn g s = true → ∃ u, exec (.hedGroupClear g) s = .next u ∧ u = { s with regs := u.regs, hed := u.hed, hgrp := u.hgrp } ∧
      u.hed = s.hed.filter fun e => !(cfgTileList old).contains (e.1 / 2048)) ∧
    (∀ v : W32,
      let w := Nat.land v.toNat 0xFF1F3F07
      let shared := (List.range 8).any fun q => q ≠ g && grpEn q s && (cfgTileList w).any fun t => (cfgTileList (grpCfg q s)).contains t
      (bit old 0 = true → w = setBit old 0 false → exec (.hedGroupCfgWrite g v) s = .next (regSet (pgGrp g + 0x100) w s)) ∧
      (bit old 0 = true → w ≠ setBit old 0 false → exec (.hedGroupCfgWrite g v) s = .next s) ∧
      (bit old 0 = false → bit w 0 = false → exec (.hedGroupCfgWrite g v) s = .next (regSet (pgGrp g + 0x100) w s)) ∧
      (bit old 0 = false → bit w 0 = true → grpGeometry w = true → shared = false →
        exec (.hedGroupCfgWrite g v) s = .next (hedClear g (regSet (pgGrp g + 0x100) w s)))) ∧
    (∀ tile row, tile < 48 → row < 2048 →
      let k := tile * 2048 + row
      let e := tget {} s.hed k
      (24 ≤ tile → exec (.heddleCheck tile row 3) s =
        .next { s with hed := tset {} k { e with flips := 97 :: 98 :: e.flips } s.hed }) ∧
      (tile < 24 → exec (.heddleCheck tile row 3) s = .next s) ∧
      (∀ kind, kind ≠ 3 →
        let n := e.flips.length + (if kind = 1 ∨ kind = 2 then kind else 0)
        (n = 0 → exec (.heddleCheck tile row kind) s = .next s) ∧
        (n = 1 → exec (.heddleCheck tile row kind) s = .next (note 0x3681 (pgTile tile) k (regAdd (pgTile tile + 0x110) 1
          { s with hed := tset {} k { e with flips := [] } s.hed }))) ∧
        (2 ≤ n → tile < 24 → ∃ u, exec (.heddleCheck tile row kind) s = .next u ∧ u.hed = s.hed ∧ k ∈ u.qe.guardLost) ∧
        (2 ≤ n → 24 ≤ tile → tileGroup tile s = none →
          exec (.heddleCheck tile row kind) s = .next (regAdd (pgTile tile + 0x118) 1 { s with hed := tset {} k {} s.hed })) ∧
        (2 ≤ n → 24 ≤ tile → ∀ q, tileGroup tile s = some q → exec (.heddleCheck tile row kind) s =
          .next (hedLose q ((tile - cfgBase (grpCfg q s)) / cfgW (grpCfg q s) * 2048 + row) tile s))))

/-- R396, R488 to R490, R177: the service panel. A press is timed; from 500 ms it asks for removal, at 5 s it cancels one; a removal
drains, seals and comes to READY_TO_REMOVE, after 256 bolts without the Party's answer. -/
def Obligations.ServicePanel : Prop :=
  ∀ (s : State), Inv s →
    (s.svc.pressed = none → exec .serviceButtonPress s = .next { s with svc := { s.svc with pressed := some (pickN s) } } ∧
      exec .serviceButtonCancel s = .next s ∧ ∀ ms, exec (.serviceButtonRelease ms) s = .next s) ∧
    (∀ p, s.svc.pressed = some p →
      exec .serviceButtonPress s = .next s ∧
      (∀ ms, let t : State := regSet (pgSvc + 0x104) (min 65535 ms) s
        let x := { s.svc with pressed := none }
        (5000 ≤ ms → exec (.serviceButtonRelease ms) s = .next { t with svc := x }) ∧
        (ms < 500 → exec (.serviceButtonRelease ms) s = .next (note 0x8086 pgSvc ms { t with svc := x })) ∧
        (500 ≤ ms → ms < 5000 → btnActs s = true → removalPending s = false → s.jnl.pf = .none →
          exec (.serviceButtonRelease ms) s =
            .next { t with svc := { x with reqPick := pickN s }, due := t.due ++ [.removal] })) ∧
      (btnActs s = false → exec .serviceButtonCancel s = .next (note 0x8086 pgSvc 5000 s)) ∧
      (btnActs s = true → removalPending s = true → s.jnl.pf = .none → s.party.awaySent = none →
        ∃ u, exec .serviceButtonCancel s = .next u ∧ u.svc = { s.svc with removal := .idle, latchWarn := false } ∧ u.qe.held = false ∧
          u.die.sealed = false ∧ Due.removal ∉ u.due ∧ u.map = s.map)) ∧
    (Due.removal ∈ s.due → s.svc.reqPick < pickN s → s.qe.actPhase = 0 → s.jnl.pf = .none → running s = true → isMember s = false →
      ∃ u, exec .removalRequest s = .next u ∧ u.svc = { s.svc with removal := .draining, drainFrom := boltN s } ∧ u.qe.held = true ∧
        Due.removal ∉ u.due ∧ u.map = s.map ∧ u.die = s.die) ∧
    (Due.removal ∉ s.due → exec .removalRequest s = .next s) ∧
    (s.svc.removal = .draining → s.svc.drainFrom + regFld (pgSvc + 0x110) 31 16 s ≤ boltN s → removalLive s = true →
      s.jnl.pf = .none → ∃ u, exec .removalDrainLimit s = .next u ∧ (∀ f, (fnGet f u).arm = none) ∧ u.svc = s.svc ∧ u.die = { s.die with sealed := u.die.sealed } ∧
        ∀ r, r ≠ fwRun → (runGet r u).used = false) ∧
    (s.svc.removal ≠ .draining ∨ boltN s < s.svc.drainFrom + regFld (pgSvc + 0x110) 31 16 s ∨ removalLive s = false →
      exec .removalDrainLimit s = .next s) ∧
    (s.svc.removal = .draining ∨ s.svc.removal = .flushing → removalLive s = false → s.jnl.pf = .none → s.die.failed = false →
      running s = true →
      ((∃ e ∈ s.jnl.slots, e.2.used = true) →
        exec .removalSeal s = .next { s with svc := { s.svc with removal := .flushing } }) ∧
      ((∀ e ∈ s.jnl.slots, e.2.used = false) → (allBuilt s = true ∨ s.boot.degraded = true) →
        let gs := if s.boot.degraded then [] else recsLeft s
        ∃ u, exec .removalSeal s = .next u ∧
          (gs ≠ [] ∨ s.jnl.ckpts ≠ [] → u.svc.removal = .flushing) ∧
          (gs = [] → s.jnl.ckpts = [] → u.die.sealed = true ∧ u.die.sealReason = 4 ∧
            u.svc.removal = (if awayDone s then .ready else .awaiting)))) ∧
    (∀ b, s.party.awaySent = some b → s.svc.removal = .awaiting →
      (b + 256 ≤ boltN s → s.party.state ≠ .away → ∃ u, exec .removalAwayTimeout s = .next u ∧ u.svc.removal = .ready ∧
        u.party = s.party) ∧
      (boltN s < b + 256 → exec .removalAwayTimeout s = .next s)) ∧
    (s.svc.absent = false → s.boot.phase ≠ .held →
      exec .prsntNRise s = .next (note 0x8085 pgSvc 0 { s with svc := { s.svc with absent := true } }))

/-- R22, R31, R39, R461, R462, R464, R466, R471, R473: containment. A block-fatal event fences the pages of its block; a device-
fatal one stops the part and sets CSTS.CFS; a soft reset restores the page's registers and lifts its fence at its second boundary.
Where the spec leaves a point open it follows the model's choice, log entries 91 and 149. -/
def Obligations.Containment : Prop :=
  ∀ (s : State), Inv s → s.boot.phase ≠ .held →
    let fatal (c : Instr) := ∃ u, exec c s = .next u ∧ u.boot.phase = .fatal ∧
      ∀ f, f < 128 → fnPresent f s = true → (fnGet f u).cfs = true
    (∀ page code arg, page % 0x1000 = 0 → (∃ p, pageAt page = some p ∧ p.type = code / 256) → blockFatal code = true →
      deviceFatal code = false → errMasked code page s = false → bit (regGet (page + 0x040) s) 0 = true →
      ∃ u, exec (.blockFatalEvent page code arg) s = .next u ∧ (∀ q ∈ fatalPages page, fenced q u = true) ∧
        u.map = s.map ∧ u.ham = s.ham ∧ u.boot = s.boot) ∧
    (∀ code ∈ [0x0201, 0x0301, 0x0306, 0x1201, 0x8201], fatal (.deviceFatalEvent code)) ∧
    fatal .pickDistributionFailure ∧ fatal .corePllLockLost ∧ (∀ far, fatal (.crossingWatchdogExpiry 0x30 far)) ∧
    (∀ id, xingId id = true → id < 0x30 → fatal (.crossingWatchdogExpiry id true)) ∧
    (∀ id, 0x10 ≤ id → id < 0x30 → ∃ u, exec (.crossingWatchdogExpiry id false) s = .next u ∧ fenced (pgFch (id - 0x10)) u = true ∧
      u.boot = s.boot) ∧
    (∀ b, b < 16 → regFld (pgWeft + 0x100) b b s = 1 → ∃ u, exec (.branchNotAnswering b) s = .next u ∧
      regFld (pgWeft + 0x100) b b u = 0 ∧ (∀ p ∈ branchPages b, fenced p u = true) ∧ u.boot = s.boot) ∧
    (∀ b, b < 16 → regFld (pgWeft + 0x100) b b s = 0 → exec (.branchNotAnswering b) s = .next s) ∧
    (∀ page p, pageAt (pageBase page) = some p →
      (pageSelv p = true → ∃ u, exec (.selvReq page) s = .next u ∧ fenced (pageBase page) u = true ∧ u.map = s.map ∧ u.boot = s.boot) ∧
      (pageSelv p = false → exec (.selvReq page) s = .next s) ∧
      (resetting (pageBase page) s = false →
        p.type ∈ [0x01, 0x02, 0x03, 0x10, 0x11, 0x12, 0x36, 0x42, 0x51, 0x61, 0x80, 0x81, 0x82] →
        exec (.softRst page) s = .next { s with due := s.due ++ [.softReset (pageBase page) (pickN s + 2)] }) ∧
      (resetting (pageBase page) s = false →
        let t : State := { s with due := s.due ++ [.softReset (pageBase page) (pickN s + 2)] }
        (p.type = 0x20 → exec (.softRst page) s = .next (((List.range 8).map (8 * p.inst + ·)).foldl chanReset t)) ∧
        (p.type = 0x21 → exec (.softRst page) s = .next (chanReset t p.inst)) ∧
        (p.type ∈ [0x30, 0x31, 0x32, 0x33, 0x34, 0x35, 0x50, 0x60, 0x70] → ∃ u, exec (.softRst page) s = .next u ∧
          Due.softReset (pageBase page) (pickN s + 2) ∈ u.due ∧ (p.type = 0x30 → (shuGet p.inst u).job = none) ∧
          (∀ a ∈ allEngines, engPage a = pageBase page → (engGet a u).jobs = []) ∧
          (p.type = 0x60 → ∀ f, f < 128 → fnPresent f s = true → Due.ctlReset f false ∈ u.due) ∧
          (p.type = 0x70 → u.cxl.retraining = true))) ∧
      (resetting (pageBase page) s = true → exec (.softRst page) s = .next s)) ∧
    (∀ page t, page % 0x1000 = 0 → Due.softReset page t ∈ s.due → t ≤ pickN s → ∃ u, exec (.softResetEnd page true) s = .next (memResume u) ∧
      (∀ a, page + 0x100 ≤ a → a < page + 0x1000 → softKept a = false → regGet a u = regReset a % 2 ^ 64) ∧
      (∀ q ∈ liftedBy page, tget false s.fenceHeld q = false → fenced q u = false) ∧
      (∀ v, v ≤ pickN s → Due.softReset page v ∉ u.due) ∧ u.map = s.map ∧ u.ham = s.ham) ∧
    (∀ page ok, (∀ t, t ≤ pickN s → Due.softReset page t ∉ s.due) → exec (.softResetEnd page ok) s = .next s)

/-- R30, R31, R33, R35, R37, R40, R41, R47 to R49, R463, R480, R508: registers. Snapshots capture every counter of a page; a W1C write
clears the bits written as 1; the first rule that a register write breaks decides, and a good write reaches its register. -/
def Obligations.Registers : Prop :=
  ∀ (s : State), Inv s →
    (∀ page p, pageAt (pageBase page) = some p → ∃ u, exec (.snap page) s = .next u ∧
      regFld (pageBase page + 0x058) 63 32 u = (regFld (pageBase page + 0x058) 63 32 s + 1) % 2 ^ 32 ∧ u = { s with regs := u.regs, snaps := u.snaps } ∧
      (∀ a ∈ snapAddrs (pageBase page), tget 0 u.snaps a = BitVec.ofNat 64 (liveCounter a s)) ∧
      (∀ a, a ∉ snapAddrs (pageBase page) → tget 0 u.snaps a = tget 0 s.snaps a)) ∧
    (Due.snapAll ∉ s.due → exec .glbSnapAll s = .next { s with due := s.due ++ [.snapAll] }) ∧
    (Due.snapAll ∈ s.due → exec .glbSnapAll s = .next s) ∧
    (∀ page, ∀ v : W32, (pageAt page).isSome = true →
      let b := pageBase page
      (∃ u, exec (.errStatClear page v) s = .next u ∧ u = { s with regs := u.regs } ∧
        regGet (b + 0x018) u = clearN (regGet (b + 0x018) s) v.toNat ∧ (errLive b u = 0 → regGet (b + 0x020) u = 0)) ∧
      (let t := regSet (b + 0x030) (clearN (regGet (b + 0x030) s) v.toNat) s
       exec (.irqStatClear page v) s = .next (if irqLive b t = 0 then t else irqMessage b t))) ∧
    (∀ page, ∀ v : W32, pageAt page = none → exec (.errStatClear page v) s = .next (note 0x0303 pgWeft page s) ∧
      exec (.irqStatClear page v) s = .next (note 0x0303 pgWeft page s)) ∧
    (∀ v : W32, (bit v.toNat 0 = true → exec (.weftSkewClr v) s = .next (regSet (pgWeft + 0x104) 0 s)) ∧
      (bit v.toNat 0 = false → exec (.weftSkewClr v) s = .next s) ∧
      (∀ o, o < 8 → exec (.warpArbWeightWrite o v) s =
        .next (regSet (pgWarp + 0x100 + 4 * o) (v.toNat % 2 ^ 32) s)) ∧
      exec (.glbLogIndex v) s = .next { s with log := { s.log with captured := tget {} s.log.ring (v.toNat % 4096) } }) ∧
    (∀ v : W64, ∀ f a n, a < 2 ^ 24 →
      (pageAt a = none → weftLoad a n s = (0, note 0x0303 pgWeft a s) ∧
        (running s = true → exec (.registerWrite 0 f a n v) s = .next (note 0x0303 pgWeft a s)) ∧
        (bar0 0 s = true → exec (.registerWrite 1 f a n v) s = .next (note 0x0303 pgWeft a s))) ∧
      (∀ p, pageAt a = some p → p.type ≠ 0) ∧
      (∀ p, bar0 0 s = true → pageAt a = some p → (writeProt p a s = true ∨ fwOnly a = true) →
        exec (.registerWrite 1 f a n v) s = .next (note 0x0305 pgWeft a s)) ∧
      (∀ p, running s = true → pageAt a = some p → badShape a n = true →
        exec (.registerWrite 0 f a n v) s = .next (note 0x0304 pgWeft a s)) ∧
      (∀ p, running s = true → pageAt a = some p → badShape a n = false → branchUp p s = false →
        exec (.registerWrite 0 f a n v) s = .next (regAdd32 (pgWeft + 0x110) 1 s)) ∧
      (∀ i, i < 4 → running s = true → fenced pgGlb s = false → ∃ u, exec (.registerWrite 0 f (pgGlb + 0x140 + 4 * i) 4 v) s = .next u ∧
        u = { s with regs := u.regs } ∧ regGet (pgGlb + 0x140 + 4 * i) u % 2 ^ 32 = v.toNat % 2 ^ 32 ∧
        (∀ b, b ≠ pgGlb + 0x140 + 4 * i → regGet b u = regGet b s)) ∧
      (bar0 0 s = false → exec (.registerWrite 1 f a n v) s = .next s) ∧
      (f < 128 → bar0 f s = false → exec (.registerWrite 2 f a n v) s = .next s) ∧
      (∀ m, 3 ≤ m → exec (.registerWrite m f a n v) s = .fault .noSuchUnit))
/-- R385, R388, R389, R392 to R396, R400, R401: messages. A cell that passes every check does what its type says: requests change what
the steward holds, an EPOCH that fits becomes the roster, suspicions go to the collector. A cell that fails a check is dropped. -/
def Obligations.PartyMessages : Prop :=
  ∀ (s t : State) (slot x e : Nat) (b : Bytes), slot < 16384 → accepts pgPty s = true → running s = true → s.jnl.pf = .none →
    s.pwr.ps < 3 → itemReady (2048 + slot) s = true → cellCheck slot s = (some (x, e, b), t) →
    let type := cellType (cellAt slot s)
    let r := t.party.roster
    let seen := if t.party.state = .joining then t else sawEpoch x e x none t
    let did (i : Instr) (u : State) := exec i s = .next u
    let holds (v : State) (m : Nat) (y : Member) : State :=
      { v with party := { v.party with held := v.party.held ++ [(m, y)] } }
    let old (m : Nat) := tget {} (heldView seen).members m
    (type = 0x02 → did (.msgAck slot) (ptyPump { seen with party := { seen.party with out := seen.party.out.filter fun m =>
      !(m.to_ = x && m.counter ≠ 0 && m.counter ≤ leAt b 0 8 && leAt b 0 8 < m.counter + 16 &&
        bit (leAt b 8 2) (leAt b 0 8 - m.counter)) } })) ∧
    (type = 0x10 →
      let i := leAt b 0 2 % 1024
      let hpa := leAt b 8 8 / 2 ^ 26 % 2 ^ 38
      (isSteward t = true → (tget {} (heldView t).members i).state = .free →
        did (.msgJoinReq slot) (holds t i { hpa := hpa, state := .active, freeGib := leAt b 4 4 % 2 ^ 18 })) ∧
      (isSteward t = true → (tget {} (heldView t).members i).state ≠ .free →
        did (.msgJoinReq slot) (ptySendAt i hpa 0x11 (natLe 1 1) t)) ∧
      (isSteward t = false → leAt b 2 1 = 0 → did (.msgJoinReq slot) (ptySteward 0x10 (b.set 2 1) t)) ∧
      (isSteward t = false → leAt b 2 1 ≠ 0 → did (.msgJoinReq slot) t)) ∧
    (type = 0x11 → (t.party.state = .joining → did (.msgJoinNak slot) (ptyClear (joinEnd 3 t))) ∧
      (t.party.state ≠ .joining → did (.msgJoinNak slot) t)) ∧
    (type = 0x12 → t.party.state ≠ .joining →
      let new := epochRoster x b t
      let good := ∀ i, i < leAt b 8 1 → entryOk (leAt b (16 + 12 * i + 2) 8) = true
      (good → leAt b 0 4 = r.epoch.toNat + 1 → rosterCrc new = leAt b 4 4 →
        did (.msgEpoch slot) (note 0x5181 pgPty (leAt b 0 4) (applyRoster new t))) ∧
      (leAt b 0 4 ≠ r.epoch.toNat + 1 ∨ rosterCrc new ≠ leAt b 4 4 →
        did (.msgEpoch slot) (ptySend x 0x13 (natLe 4 r.epoch.toNat) t))) ∧
    (type = 0x13 → t.party.state ≠ .joining → did (.msgSyncReq slot) (sendRoster x (tget {} r.members x).hpa t)) ∧
    (type = 0x14 → leAt b 0x20 2 ≤ 1008 → leAt b 0x20 2 % 16 = 0 → t.party.syncHead = b.take 32 →
      let parts := tput (leAt b 0x20 2) (b.drop 0x24) t.party.syncParts
      let new := syncRoster (b.take 32) parts
      let v : State := { t with party := { t.party with syncHead := [], syncParts := [] } }
      (parts.length < 64 → did (.msgRosterPart slot) { t with party := { t.party with syncParts := parts } }) ∧
      (64 ≤ parts.length → crc32c (b.take 28 ++ parts.flatMap Prod.snd) = leAt b 28 4 → new.partyId = r.partyId →
        supersedes new.epoch.toNat new.issuer t = true →
        did (.msgRosterPart slot) (note 0x5189 pgPty new.epoch.toNat (applyRoster new v))) ∧
      (64 ≤ parts.length → supersedes new.epoch.toNat new.issuer t = false → did (.msgRosterPart slot) v)) ∧
    (type = 0x15 →
      let about := leAt b 0 2
      let q : Suspicion := { from_ := x, about := about, reason := leAt b 2 1 }
      let w := watchers seen.party.roster about
      let v : State := { seen with party := { seen.party with suspicions := seen.party.suspicions ++ [q] } }
      let count (n : Nat) := ((v.party.suspicions.filter fun q => q.about = about && q.reason = n && w.contains q.from_).map
        (·.from_)).eraseDups.length
      (collector seen.party.roster about ≠ some seen.party.index ∨ x ∉ w → did (.msgSuspect slot) seen) ∧
      (collector seen.party.roster about = some seen.party.index → x ∈ w → q ∉ seen.party.suspicions →
        (w.length < 3 → about ∈ v.party.undeclared → did (.msgSuspect slot) v) ∧
        (w.length < 3 → about ∉ v.party.undeclared → did (.msgSuspect slot)
          (note 0x5188 pgPty about { v with party := { v.party with undeclared := about :: v.party.undeclared } })) ∧
        (3 ≤ w.length → 3 ≤ count 1 → (old about).state = .active →
          did (.msgSuspect slot) (holds v about { (old about) with state := .lost })) ∧
        (3 ≤ w.length → count 1 < 3 → 3 ≤ count 2 → (old about).state = .away →
          did (.msgSuspect slot) (holds v about { (old about) with state := .lost })) ∧
        (3 ≤ w.length → count 1 < 3 → count 2 < 3 → did (.msgSuspect slot) v))) ∧
    (type = 0x16 → did (.msgRetract slot) { seen with party := { seen.party with
      suspicions := seen.party.suspicions.filter fun q => !(q.from_ = x && q.about = leAt b 0 2) } }) ∧
    (type ∈ [0x17, 0x18, 0x19, 0x1A, 0x1B] →
      let c : Instr := if type = 0x17 then .msgAway slot else if type = 0x18 then .msgBack slot else if type = 0x19 then .msgLeave slot
        else if type = 0x1A then .msgDepart slot else .msgCap slot
      (isSteward seen = false → did c seen) ∧
      (isSteward seen = true →
        (type = 0x17 → (old x).state = .active → did c (holds seen x { (old x) with state := .away })) ∧
        (type = 0x18 → (old x).state = .away → did c (holds seen x { (old x) with state := .active })) ∧
        (type = 0x19 → (old x).state = .active ∨ (old x).state = .away →
          did c (holds seen x { (old x) with state := if bit (leAt b 0 1) 0 then .lost else .leaving })) ∧
        (type = 0x1A → (old x).state = .leaving → did c (holds seen x { (old x) with state := .free })) ∧
        (type = 0x17 → (old x).state ≠ .active → did c seen) ∧ (type = 0x18 → (old x).state ≠ .away → did c seen) ∧
        (type = 0x1A → (old x).state ≠ .leaving → did c seen) ∧
        (type = 0x1B → did c (holds seen x { (old x) with freeGib := leAt b 0 4 % 2 ^ 18 })))) ∧
    (type = 0x1C →
      (supersedes (leAt b 0 4) (leAt b 4 2) t = true → did (.msgSyncHint slot) (ptySend (leAt b 4 2 % 1024) 0x13
        (natLe 4 r.epoch.toNat) { t with party := { t.party with superseded := true } })) ∧
      (supersedes (leAt b 0 4) (leAt b 4 2) t = false → did (.msgSyncHint slot) t))

/-- R388, R389, R392, R394: an item of the Party window is taken once, after it has arrived; a cell out of order or badly tagged
is counted and never accepted; a row for a type that the cell does not hold does nothing. Where the spec leaves a point open it
follows the model's choice, log entry 12. -/
def Obligations.MessageChecks : Prop :=
  ∀ (s : State) (slot : Nat), slot < 16384 → accepts pgPty s = true → running s = true → s.jnl.pf = .none →
    let m := cellAt slot s
    let x := slot / 16
    let body := cellBody m
    let v := itemTaken (2048 + slot) s
    let rows : List (Nat × Instr) := [(0x02, .msgAck slot), (0x03, .msgChunkNak slot), (0x10, .msgJoinReq slot),
      (0x11, .msgJoinNak slot), (0x12, .msgEpoch slot), (0x13, .msgSyncReq slot), (0x14, .msgRosterPart slot),
      (0x15, .msgSuspect slot), (0x16, .msgRetract slot), (0x17, .msgAway slot), (0x18, .msgBack slot), (0x19, .msgLeave slot),
      (0x1A, .msgDepart slot), (0x1B, .msgCap slot), (0x1C, .msgSyncHint slot), (0x40, .msgPlan slot), (0x41, .msgPlanAck slot),
      (0x42, .msgGrant slot), (0x43, .msgChunkOk slot), (0x44, .msgHopFail slot), (0x45, .msgPlanAbort slot),
      (0x46, .msgDigestReq slot), (0x47, .msgDigest slot), (0x48, .msgStripeSet slot), (0x49, .msgStripeDrop slot),
      (0x4A, .msgSpreadOpen slot), (0x4B, .msgRecordReq slot), (0x4C, .msgRecord slot)]
    ∀ type i, (type, i) ∈ rows →
      (itemReady (2048 + slot) s = false → exec i s = .next s) ∧
      (cellType m ≠ type → exec i s = .next s) ∧
      (cellType m = type → itemReady (2048 + slot) s = true → 3 ≤ s.pwr.ps →
        (s.mender.table = 1 → type < 0x40 ∨ type ∈ [0x41, 0x42, 0x43, 0x44, 0x45]) → exec i s = .next (wake s)) ∧
      (cellType m = type → itemReady (2048 + slot) s = true → s.pwr.ps < 3 → (s.mender.table = 1 → type < 0x40 ∨ type ∈ [0x41, 0x42, 0x43, 0x44, 0x45]) →
        (cellFormOk x m s = false → exec i s = .next (ptyEvent 0x5104 x (regAdd (pgPty + 0x160) 1 v))) ∧
        (cellFormOk x m s = true → senderOk x type body s = true → leAt m 0x18 8 ≤ tget 0 s.party.rx x →
          exec i s = .next (ptyEvent 0x5103 x (regAdd (pgPty + 0x158) 1 v))) ∧
        (∀ tag t, cellFormOk x m s = true → senderOk x type body s = true → tget 0 s.party.rx x < leAt m 0x18 8 →
          (type ∈ [0x40, 0x46] → shardReady (leAt body (if type = 0x40 then 8 else 0) 8) s = (true, s)) →
          ptyTag (m.take (32 + body.length)) v = (some tag, t) → tag ≠ m.drop 0xF0 →
          exec i s = .next (ptyEvent 0x5102 x (regAdd (pgPty + 0x150) 1 t))))

/-- R384, R385, R389 to R394: watching and sending. A peer's write lands in the window and its whole items arrive; heartbeats go to the
watchers; a member is silent after 64 bolts and suspected after its time; the steward issues what it holds. -/
def Obligations.PartyWatch : Prop :=
  ∀ (s : State),
    let p := s.party
    let r := p.roster
    (∀ off data, s.cxl.up = true → (fnGet 0 s).mse = true → running s = true → data ≠ [] → off + data.length ≤ 0x4000000 →
      (windowArea off data.length = 0 → ∀ poison, exec (.bar4Write off data poison) s = .next (note 0x5106 pgPty off s)) ∧
      (windowArea off data.length = 1 → exec (.bar4Write off data true) s = .next s ∧
        let a := (itemsEnded off data.length).foldl (fun t k => tset 0 k (pickN s + 1) t) p.arrived
        exec (.bar4Write off data false) s = .next { s with party := { p with window := tsetBytes off data p.window, arrived := a } }) ∧
      (∀ poison k a, windowArea off data.length = 2 → slotPieces off data = [(k, a, data)] →
        let x := slotOf k s
        let y := { x with written := x.written + data.length, poison := x.poison || poison, parts := (a, data) :: x.parts }
        exec (.bar4Write off data poison) s = .next { s with party := { p with slots := tset {} k y p.slots } })) ∧
    (hbTime s = false → exec .heartbeatSend s = .next s) ∧
    (∀ tag t, hbTime s = true →
      let n := max (p.boot * 2 ^ 32) p.hbTx + 1
      ptyTag (heartbeatHead n s) s = (some tag, t) → ∃ u, exec .heartbeatSend s = .next u ∧
        u.sent = t.sent ++ (watchers r p.index).flatMap (fun y =>
          [.peer ((rMember r y).hpa * 2 ^ 26 + 64 * p.index) (heartbeatHead n s ++ zeros 16) (uioOn t),
           .peer ((rMember r y).hpa * 2 ^ 26 + 64 * p.index + 0x30) tag (uioOn t)]) ∧
        u.party = { t.party with hbTx := n, hbDue := false, hbBolt := boltN t + 1 } ∧
        u = { t with sent := u.sent, party := u.party, regs := u.regs }) ∧
    (∀ member, member < 1024 →
      let m := tgetBytes p.window (64 * member) 64
      let v := itemTaken member s
      (itemReady member s = false → exec (.heartbeat member) s = .next s) ∧
      (∀ tag t, itemReady member s = true → accepts pgPty s = true → running s = true → s.jnl.pf = .none → p.state ≠ .none →
        leAt m 0 2 = 0x5041 → leAt m 2 1 = 1 → leAt m 3 1 ≤ 1 → leAt m 4 2 = member → leAt m 0x20 16 = 0 →
        leAt m 0x18 8 = r.partyId.toNat → (rMember r member).state ∈ [.active, .away, .leaving] →
        tget 0 p.hbRx member < leAt m 0x10 8 → ptyTag (m.take 32) v = (some tag, t) →
        (tag ≠ m.drop 0x30 → exec (.heartbeat member) s = .next (ptyEvent 0x5102 member (regAdd (pgPty + 0x150) 1 t))) ∧
        (tag = m.drop 0x30 → tget 0 p.suspectSent member = 0 → leAt m 8 4 = r.epoch.toNat → leAt m 0xC 4 = rosterCrc r →
          exec (.heartbeat member) s = .next (ptyMod (fun q =>
            { q with hbRx := tset 0 member (leAt m 0x10 8) q.hbRx, lastHb := tset 0 member (boltN s) q.lastHb,
                     silent := tset false member false q.silent, suspectSent := tset 0 member 0 q.suspectSent })
            (regAdd (pgPty + 0x148) 1 t)))) ∧
      (ptyUp s = true → watches s r member = true →
        (tget 0 p.lastHb member + 64 ≤ boltN s →
          exec (.silentMark member) s = .next { s with party := { p with silent := tset false member true p.silent } }) ∧
        (boltN s < tget 0 p.lastHb member + 64 → exec (.silentMark member) s = .next s) ∧
        (∀ why y, suspectReason member s = some why → collector r member = some y →
          tget 0 p.suspectSent member = 0 ∨ tget 0 p.suspectSent member + 4096 ≤ boltN s + 1 →
          exec (.suspectSend member) s = .next (ptySend y 0x15
            (natLe 2 member ++ natLe 1 why ++ zeros 1 ++ natLe 4 (boltN s - tget 0 p.lastHb member))
            { s with party := { p with suspectSent := tset 0 member (boltN s + 1) p.suspectSent } })) ∧
        (suspectReason member s = none → exec (.suspectSend member) s = .next s)) ∧
      (ptyUp s = true → isSteward s = true → tget 0 p.lostBolt member + 590625000 ≤ boltN s →
        (rMember (heldView s) member).state = .lost → exec (.lostMemberFree member) s = .next { s with party :=
          { p with held := p.held ++ [(member, { (rMember (heldView s) member) with state := .free })] } }) ∧
      (ptyUp s = true → p.state ≠ .lost → Due.partyAck member ∈ s.due → rMember r member ≠ {} → ∀ n t,
        cellSend member (rMember r member).hpa 0x02 (natLe 8 (tget 0 p.rx member) ++ natLe 2 (tget 0 p.rxMask member)) s = (some n, t) →
        exec (.ackSend member) s = .next { t with due := t.due.filter (· ≠ .partyAck member) }) ∧
      (Due.partyAck member ∉ s.due → exec (.ackSend member) s = .next s) ∧
      (∀ n m, n ≠ 0 → (p.out.find? fun m => m.to_ = member && m.counter = n && n ≠ 0) = some m → ptyUp s = true →
        (pickN s < m.pick + 64 → exec (.messageResend member n) s = .next s) ∧
        (m.pick + 64 ≤ pickN s → 16 ≤ m.sends → exec (.messageResend member n) s = .next (ptyPump { s with party :=
          { p with out := p.out.filter (· ≠ m), dropped := p.dropped ++ [m] } })) ∧
        (∀ k t, m.pick + 64 ≤ pickN s → m.sends < 16 → cellSend m.to_ m.hpa m.type m.body s = (some k, t) →
          exec (.messageResend member n) s = .next (regAdd (pgPty + 0x168) 1 (ptyMod (fun q => { q with out := q.out.map fun o =>
            if o = m then { m with counter := k, pick := pickN t, sends := m.sends + 1 } else o }) t))))) ∧
    (mayIssue s = false → exec .epochIssue s = .next s) ∧
    (mayIssue s = true →
      let cs := p.held.take 16
      let new : Roster := { r with epoch := r.epoch + 1, issuer := p.index, members := cs.foldl (fun t c => tset {} c.1 c.2 t) r.members }
      (∀ x ∈ rosterIn (· ≠ .free) new, x = p.index) → exec .epochIssue s = .next
        (note 0x5181 pgPty new.epoch.toNat (applyRoster new { s with party := { p with held := p.held.drop 16 } }))) ∧
    (ptyUp s = true → p.state ∈ [.active, .away, .leaving] →
      (capChanged s = true → p.capBolt + 1024 ≤ boltN s → exec .capSend s = .next (ptySteward 0x1B (natLe 4 (freeGib s))
        { s with party := { p with capSent := freeGib s, capBolt := boltN s } })) ∧
      (boltN s < p.capBolt + 1024 → exec .capSend s = .next s))

/-- R380, R400 to R402, R411: the Party commands. A founder becomes the only member of epoch 1; a joining part asks its seed; a Leave tells
the steward; both end with result 2 after 4,096 bolts; Party Status answers 256 bytes. -/
def Obligations.PartyCommands : Prop :=
  ∀ (s : State) (c : Nat),
    let x := ctxGet c s
    (∀ bs t, holdsCmd c 0xD5 false s = true → x.phase ≠ 10 → critGate c s = none → hostData c 64 s = (some bs, t) →
      let found := bit (dword x.sqe 10) 0
      let row : Instr := if found then .partyJoinFound c else .partyJoin c
      let i := dword x.sqe 10 / 65536 % 1024
      let hpa := leAt bs 8 8 / 2 ^ 26
      (joinOk x.sqe bs = false → exec row s = .next (finish c stField t)) ∧
      (joinOk x.sqe bs = true →
        (t.party.state ≠ .none → exec row s = .next (finishDw c stOk 1 0 t)) ∧
        (t.party.state = .none → keyOf 1 0 t = none → exec row s = .next (finishDw c stOk 4 0 t)) ∧
        (∀ k u, t.party.state = .none → keyOf 1 0 t = some k → takeTableRange t = some u →
          (found = true →
            let r : Roster := { partyId := BitVec.ofNat 64 (leAt bs 0 8), epoch := 1, issuer := i, awayS := leAt bs 0x1A 2,
                                lossS := if leAt bs 0x1C 4 = 0 then 600 else leAt bs 0x1C 4,
                                members := [(i, { hpa := hpa, state := .active, freeGib := freeGib u })] }
            exec row s = .next (finish c stOk (note 0x5186 pgPty i (ptyRecord { u with party := { u.party with
              state := .active, index := i, selfHpa := hpa, roster := r, hbDue := true, capSent := freeGib u } })))) ∧
          (found = false → exec row s = .next (ptySendAt (leAt bs 0x18 2) (leAt bs 0x10 8 / 2 ^ 26) 0x10
            (natLe 2 i ++ zeros 2 ++ natLe 4 (freeGib u) ++ natLe 8 (hpa * 2 ^ 26))
            (ctxMod c (fun y => { y with phase := 10 }) { u with party := { u.party with
              state := .joining, index := i, selfHpa := hpa, roster := { partyId := BitVec.ofNat 64 (leAt bs 0 8) },
              joinCtx := some c, joinLimit := boltN u + 4096, capSent := freeGib u } }))))) ∧
      (∀ wrong : Instr, wrong = (if found then .partyJoin c else .partyJoinFound c) → exec wrong s = .next s)) ∧
    (s.party.state = .joining →
      (s.party.joinLimit ≤ boltN s → exec .joinTimeout s = .next (ptyClear (joinEnd 2 s))) ∧
      (boltN s < s.party.joinLimit → exec .joinTimeout s = .next s)) ∧
    (s.party.state ≠ .joining → exec .joinTimeout s = .next s) ∧
    (holdsCmd c 0xD8 false s = true → x.phase ≠ 10 → dword x.sqe 10 < 2 → critGate c s = none →
      (s.party.state = .none ∨ s.party.state = .joining → exec (.partyLeave c) s = .next (finish c vsNotMember s)) ∧
      (s.party.state = .lost → exec (.partyLeave c) s = .next (finish c stOk (ptyClear s))) ∧
      (s.party.state ∈ [.active, .away, .leaving] → exec (.partyLeave c) s = .next (ptySteward 0x19 (natLe 1 (dword x.sqe 10))
        { (ctxMod c (fun y => { y with phase := 10 }) s) with party := { s.party with
          leaveCtx := some c, leaveLimit := boltN s + 4096, leaveForce := decide (dword x.sqe 10 = 1) } }))) ∧
    (s.party.leaveCtx.isSome = true → s.party.leaveLimit ≤ boltN s → exec .leaveTimeout s = .next (leaveEnd 2 s)) ∧
    (s.party.leaveCtx = none ∨ boltN s < s.party.leaveLimit → exec .leaveTimeout s = .next s) ∧
    (holdsCmd c 0xDA false s = true →
      let bs := partyHeader s ++ (List.range 32).flatMap (fun j => natLe 4 (silentWord j s)) ++ zeros 64
      bs.length = 256 ∧ (s.party.state = .none → leAt bs 2 1 = 0) ∧
      ∀ b t, bufferOf c 256 s = (some b, t) → (fnGet (ctxGet c t).fn t).bme = true →
        exec (.partyStatus c) s = .next (finish c stOk (sendData (ctxGet c t) 256 0 bs false t)))
/-- R399, R415 to R417, R421, R425 to R429: Mender messages. A plan that the part cannot take is refused with its reason, one it can take
gets its place and its slots; grants feed the hop of their stream; digests are asked, collected and weighed; a dropped stripe is gone. -/
def Obligations.MenderMessages : Prop :=
  ∀ (s t : State) (slot x e : Nat) (b : Bytes), slot < 16384 →
    let type := cellType (cellAt slot s)
    let body := cellBody (cellAt slot s)
    let r := if type = 0x40 then shardReady (leAt body 8 8) s else if type = 0x46 then shardReady (leAt body 0 8) s else (true, s)
    cellDue slot type s = true →
    (r.1 = false → exec (if type = 0x40 then .msgPlan slot else .msgDigestReq slot) s = .next r.2) ∧
    (r.1 = true → cellDue slot type r.2 = true → cellCheck slot r.2 = (some (x, e, b), t) →
    let seen := if t.party.state = .joining then t else sawEpoch x e x none t
    let st := leAt b 0 8
    let did (i : Instr) (u : State) := exec i s = .next u
    let answer (shard result : Nat) (d : BitVec 256) (v : State) : State :=
      ptySend x 0x47 (natLe 8 st ++ natLe 1 shard ++ natLe 1 result ++ zeros 6 ++ natLe 32 d.toNat) v
    let lead := seen.mender.plans.find? fun p => p.stream = st && p.role = .lead
    (type = 0x03 →
      let hop := seen.mender.hops.find? fun h => h.stream = leAt b 8 8 && h.to_ = x
      (hop = none → did (.msgChunkNak slot) seen) ∧
      (∀ h f, hop = some h → (h.flying.find? fun f => f.slot = leAt b 0 2 && f.seq = leAt b 4 4) = some f →
        let bad := chunkPoison f seen
        let again := { f with tries := f.tries + 1 + b2n bad, seq := h.seq }
        (again.tries ≤ 5 → did (.msgChunkNak slot) (chunkWrite h again (hopMod h.stream h.to_ (fun q =>
          { q with seq := q.seq + 1, flying := q.flying.map fun g => if g.slot = f.slot then again else g })
          (if bad then chunkLoad f seen else seen)))) ∧
        (5 < again.tries → did (.msgChunkNak slot) (chunkDead (if bad then 4 else 2) h f seen)))) ∧
    (type = 0x40 →
      let role := leAt b 0x21 1
      let off := leAt b 0x10 8
      let len := leAt b 0x18 8
      let known := seen.mender.plans.any fun q => q.stream = st && q.role ≠ .lead && (q.role = .target) = bit role 2
      (known = true → did (.msgPlan slot) (planAck x st 0 0 seen)) ∧
      (known = false → mayHelp seen = false → did (.msgPlan slot) (planAck x st 2 0 seen)) ∧
      (known = false → mayHelp seen = true → bit role 2 = false →
        (stripeFind (leAt b 8 8) seen = none → did (.msgPlan slot) (planAck x st 3 0 seen)) ∧
        (∀ n q, stripeFind (leAt b 8 8) seen = some (n, q) →
          ((shardBytes q off len seen).2 = true → did (.msgPlan slot) (planAck x st 4 0 seen)) ∧
          ((shardBytes q off len seen).2 = false → bit role 0 = true →
            let p : Plan := { stream := st, role := .helper, stripe := leAt b 8 8, offset := off, length := len, lost := leAt b 0x20 1,
                              flags := role, coef := leAt b 0x22 1, shardLog2 := leAt b 0x23 1, prev := leAt b 0x24 2,
                              next := leAt b 0x26 2, hops := leAt b 0x28 1, attempt := leAt b 0x29 1, lastOk := boltN seen }
            let h : Hop := { stream := st, to_ := leAt b 0x26 2, kind := if bit role 1 then 3 else 2, end_ := off + len }
            let m := seen.mender
            did (.msgPlan slot) (planAck x st 0 0
              { seen with mender := { m with plans := m.plans ++ [p], hops := m.hops ++ [h] } }))))) ∧
    (type = 0x41 →
      (∀ p, lead = some p → leAt b 8 1 ≠ 0 → did (.msgPlanAck slot) (replan st (some x) seen)) ∧
      (∀ p, lead = some p → leAt b 8 1 = 0 → p.asked = true ∨ x ≠ p.target →
        let p1 : Plan := { p with acked := if p.acked.contains x then p.acked else x :: p.acked, lastOk := boltN seen }
        let p2 : Plan := { p1 with started := p.asked && p1.helpers.all fun y => p1.acked.contains y }
        let m := seen.mender
        let v : State := { seen with mender := { m with plans := m.plans.map fun q => if q.stream = st && q.role = .lead then p2 else q } }
        did (.msgPlanAck slot) (if p2.started && !p.started then note 0x5081 pgMnd (p.stripe % 2 ^ 32) v else v)) ∧
      (lead = none → (seen.mender.stripes.find? fun e => e.2.stream = st && e.2.issued) = none → stripeFind st seen = none →
        did (.msgPlanAck slot) seen) ∧
      (∀ n q, lead = none → (seen.mender.stripes.find? fun e => e.2.stream = st && e.2.issued) = some (n, q) →
        (leAt b 8 1 ≠ 0 → did (.msgPlanAck slot) (spreadRefused q seen)) ∧
        (leAt b 8 1 = 0 → x ∉ q.acks → did (.msgPlanAck slot) (stripePut n { q with acks := x :: q.acks } seen)))) ∧
    (type = 0x42 →
      let l := (List.range (leAt b 8 1)).map fun i => leAt b (10 + 2 * i) 2
      did (.msgGrant slot) (hopsPump (hopMod st x (fun h =>
        { h with flying := h.flying.filter (fun f => !l.contains f.slot), slots := h.slots ++ l.filter fun k => !h.slots.contains k })
        seen))) ∧
    (type = 0x43 → ∃ u, did (.msgChunkOk slot) u ∧
      u.mender.hops = seen.mender.hops.map (fun h =>
        if h.stream = st && h.to_ = x then { h with done := max h.done (leAt b 8 8) } else h) ∧
      u.mender.plans = seen.mender.plans.map (fun p => if p.stream = st && p.role = .lead && p.target = x then
        { p with done := leAt b 8 8, lastOk := boltN seen } else p) ∧
      u = { seen with mender := { seen.mender with hops := u.mender.hops, plans := u.mender.plans } }) ∧
    (type = 0x44 → (lead = none → did (.msgHopFail slot) seen) ∧
      (∀ p, lead = some p → ∃ u, did (.msgHopFail slot) u ∧ (∀ q ∈ u.mender.plans, q.stream = st → q.role ≠ .lead) ∧
        u.mender.queue.head? = some p.stripe)) ∧
    (type = 0x45 → ∃ u, did (.msgPlanAbort slot) u ∧ (∀ q ∈ u.mender.plans, q.stream = st → q.role = .lead) ∧
      (∀ q ∈ u.party.slots, q.2.stream ≠ st) ∧ u.mender.stripes = seen.mender.stripes ∧ u.map = seen.map) ∧
    (type = 0x46 →
      (stripeFind st seen = none → did (.msgDigestReq slot) (answer 0 2 0 seen)) ∧
      (∀ n q v, stripeFind st seen = some (n, q) →
        (∀ d, shardHash st seen = (some d, v) → did (.msgDigestReq slot) (answer q.local_ 0 d v)) ∧
        (shardHash st seen = (none, v) → did (.msgDigestReq slot) (answer q.local_ 1 0 v)))) ∧
    (type = 0x47 → ∀ n q, stripeFind st seen = some (n, q) →
      (q.step ∉ [3, 5, 6] → did (.msgDigest slot) seen) ∧
      (q.step ∈ [3, 5, 6] → leAt b 9 1 ≠ 2 →
        let ds := tput (leAt b 8 1) (BitVec.ofNat 256 (leAt b 0x10 32)) q.digests
        let q1 := { q with digests := ds, unread := q.unread || leAt b 9 1 ≠ 0 }
        (q1.digests.length ≠ q.k + q.m → did (.msgDigest slot) (stripePut n q1 seen)) ∧
        (q1.digests.length = q.k + q.m → did (.msgDigest slot) (digestsDone n q1 seen)))) ∧
    (type = 0x48 →
      let q := recordOf b
      (stripeFind q.id seen = none → did (.msgStripeSet slot) seen) ∧
      (∀ n o, stripeFind q.id seen = some (n, o) → o.state = .sealed → q.state ≠ .damaged → seen.party.index ∉ q.members →
        did (.msgStripeSet slot) (freeShard q.id seen)) ∧
      (∀ n o i, stripeFind q.id seen = some (n, o) → o.state ≠ .repairing → q.members.findIdx? (· = seen.party.index) = some i →
        let o1 := { o with
          k := q.k, m := q.m, shardLog2 := q.shardLog2, local_ := i, epoch := q.epoch, state := q.state, members := q.members,
          digest := q.digest, done := 2 ^ o.shardLog2, step := 0 }
        did (.msgStripeSet slot) (stripePut n o1 (if o.stream ≠ 0 && q.state = .sealed then slotsFree o.stream seen else seen)))) ∧
    (type = 0x49 → did (.msgStripeDrop slot) (freeShard st seen)) ∧
    (type = 0x4A →
      let r := recordOf (b.drop 8)
      (∀ n q, stripeFind r.id seen = some (n, q) → q.stream = st → q.issuer = x → did (.msgSpreadOpen slot) (planAck x st 0 0 seen)) ∧
      (∀ n q, stripeFind r.id seen = some (n, q) → q.stream ≠ st → did (.msgSpreadOpen slot) (planAck x st 1 0 seen)) ∧
      (stripeFind r.id seen = none →
        (accepts pgMnd seen = false ∨ (freeSlots seen).length < 2 → did (.msgSpreadOpen slot) (planAck x st 2 0 seen)) ∧
        (accepts pgMnd seen = true → 2 ≤ (freeSlots seen).length →
          (∀ i, r.members.findIdx? (· = seen.party.index) = some i → placeShard r.shardLog2 seen = none →
            did (.msgSpreadOpen slot) (planAck x st 1 0 seen)) ∧
          (∀ i a v, r.members.findIdx? (· = seen.party.index) = some i → placeShard r.shardLog2 seen = some (a, v) →
            let o := { r with
              local_ := i, stream := st, issuer := x, lastBolt := boltN v, digest := 0, state := .open_, lba := a }
            did (.msgSpreadOpen slot) (grantTwo x st (planAck x st 0 0 (stripePut (a / 256) o v))))))) ∧
    (type = 0x4B → (stripeFind st seen = none → did (.msgRecordReq slot) seen) ∧
      (∀ n q, stripeFind st seen = some (n, q) → q.k ≠ 0 → did (.msgRecordReq slot) (ptySend x 0x4C (stripeRecord q false) seen))) ∧
    (type = 0x4C →
      (stripeFind (leAt b 0 8) seen ≠ none → did (.msgRecord slot) seen) ∧
      (∀ i k l, stripeFind (leAt b 0 8) seen = none → (recordOf b).members.findIdx? (· = seen.party.index) = some i →
        shardUnits (leAt b 0 8) seen = k :: l → ∃ u v, did (.msgRecord slot) (note 0x5002 pgMnd (leAt b 0 8 % 2 ^ 32) u) ∧
          u = { seen with mender := { seen.mender with stripes := v } })))

/-- R399, R416, R418: chunks. A good chunk's bytes go to the Mender and its slot is free for the next; a bad one is answered with
CHUNK_NAK and its reason; a chunk that failed is sent again, at most 4 times. Where the spec leaves a point open it follows the
model's choice, log entry 123. -/
def Obligations.Chunks : Prop :=
  ∀ (s : State) (slot : Nat), slot < 896 →
    let h := tgetBytes s.party.window (0x10000 + 64 * slot) 64
    let k := slotOf slot s
    (itemReady (1024 + slot) s = false → exec (.chunkHeaderArrival slot) s = .next s) ∧
    (itemReady (1024 + slot) s = true → ptyUp s = true → 3 ≤ s.pwr.ps → exec (.chunkHeaderArrival slot) s = .next (wake s)) ∧
    (itemReady (1024 + slot) s = true → ptyUp s = true → s.pwr.ps < 3 →
      (∀ why, chunkBad slot h k = some why → exec (.chunkHeaderArrival slot) s = .next
        (note 0x5105 pgPty slot (regAdd (pgPty + 0x170) 1 (ptySend (leAt h 4 2 % 1024) 0x03
          (natLe 2 slot ++ natLe 1 why ++ zeros 1 ++ natLe 4 (leAt h 0x24 4) ++ natLe 8 (leAt h 8 8))
          (slotClear slot (itemTaken (1024 + slot) s)))))) ∧
      (chunkBad slot h k = none → leAt h 2 1 = 2 →
        (∃ p ∈ s.mender.plans, p.stream = leAt h 8 8 ∧ p.role = .helper) → ∃ u, exec (.chunkHeaderArrival slot) s = .next u ∧
          u.mender.plans = s.mender.plans.map (fun q => if q.stream = leAt h 8 8 && q.role = .helper then
            { q with inbox := q.inbox ++ [(slot, leAt h 0x10 8, slotData k (leAt h 0x18 4))] } else q) ∧
          u.jnl = s.jnl ∧ u.map = s.map) ∧
      (∀ n q tx v, chunkBad slot h k = none → leAt h 2 1 = 1 →
        (s.mender.stripes.find? fun e => e.2.stream = leAt h 8 8 && !e.2.issued) = some (n, q) →
        chunkAhead (leAt h 8 8) q.done (leAt h 0x10 8) s = false →
        leAt h 0x10 8 + leAt h 0x18 4 ≤ 2 ^ q.shardLog2 → leAt h 0x10 8 % 4096 = 0 → leAt h 0x18 4 % 4096 = 0 →
        storeWrite q (leAt h 0x10 8) (slotData k (leAt h 0x18 4)) s = some (tx, v) →
        ∃ u, exec (.chunkHeaderArrival slot) s = .next u ∧ u.mender.commits = v.mender.commits ++
          [{ txid := tx, stripe := q.id, stream := leAt h 8 8, slot := slot, off := leAt h 0x10 8, len := leAt h 0x18 4 }] ∧
          u.jnl = v.jnl) ∧
      (∀ n q, chunkBad slot h k = none → leAt h 2 1 = 1 →
        (s.mender.stripes.find? fun e => e.2.stream = leAt h 8 8 && !e.2.issued) = some (n, q) →
        chunkAhead (leAt h 8 8) q.done (leAt h 0x10 8) s = false →
        leAt h 0x10 8 + leAt h 0x18 4 ≤ 2 ^ q.shardLog2 → leAt h 0x10 8 % 4096 = 0 → leAt h 0x18 4 % 4096 = 0 →
        storeWrite q (leAt h 0x10 8) (slotData k (leAt h 0x18 4)) s = none → exec (.chunkHeaderArrival slot) s = .next s) ∧
      (∀ n q, chunkBad slot h k = none → leAt h 2 1 = 1 →
        (s.mender.stripes.find? fun e => e.2.stream = leAt h 8 8 && !e.2.issued) = some (n, q) →
        chunkAhead (leAt h 8 8) q.done (leAt h 0x10 8) s = true → exec (.chunkHeaderArrival slot) s = .next s)) ∧
    (∀ member, member < 1024 →
      exec (.uioWriteCompletion member true) s = .next s ∧
      (s.cxl.uio = true → bit (regGet (pgCxlT + 0x128) s) 0 = true → ptyUp s = true →
        let v := regAdd (pgPty + 0x178) 1 (note 0x7009 pgCxl member s)
        let waits := s.mender.hops.filter fun h => h.to_ = member && !h.flying.isEmpty
        (waits = [] → exec (.uioWriteCompletion member false) s = .next v) ∧
        (∀ g f l fs, waits = g :: l → g.flying = f :: fs →
          let bad := chunkPoison f v
          let again := { f with tries := f.tries + 1 + b2n bad, seq := g.seq }
          (again.tries ≤ 5 → exec (.uioWriteCompletion member false) s = .next (chunkWrite g again (hopMod g.stream g.to_ (fun q =>
            { q with seq := q.seq + 1, flying := q.flying.map fun y => if y.slot = f.slot then again else y })
            (if bad then chunkLoad f v else v)))) ∧
          (5 < again.tries →
            exec (.uioWriteCompletion member false) s = .next (chunkDead (if bad then 4 else 2) g f v)))))

/-- R414 to R420, R429: Spread Write, Shard Read and Mend. A good first piece opens the stripe at its members; a piece completes
when every member has it; an open stripe, or a relay, that stands still is given up. Where the spec leaves a point open it follows
the model's choice, log entry 107. -/
def Obligations.Stripes : Prop :=
  ∀ (s : State) (c : Nat),
    let x := ctxGet c s
    let sqe := x.sqe
    let id := dword sqe 10 + 2 ^ 32 * dword sqe 11
    (holdsCmd c 0x91 true s = true →
      (x.started = false → swFieldsOk sqe = false → exec (.spreadWrite c) s = .next (finish c stField s)) ∧
      (x.started = false → swFieldsOk sqe = true → stripeGate c s = none → bit (dword sqe 14) 0 = true →
        (x.gotMptr = false → exec (.spreadWrite c) s = .next (askHost c 1 [(sqeMptr sqe, 96)] s)) ∧
        (x.gotMptr = true → x.badData = 0 →
          let q := recordOf x.mbuf
          (swRecordOk sqe x.mbuf s = false ∨ swPieceOk sqe q = false → exec (.spreadWrite c) s = .next (finish c stField s)) ∧
          (swRecordOk sqe x.mbuf s = true → swPieceOk sqe q = true →
            (placeShard q.shardLog2 s = none → exec (.spreadWrite c) s = .next (finish c vsShard s)) ∧
            (∀ a t, placeShard q.shardLog2 s = some (a, t) →
              let e : Stripe := { q with stream := s.party.index * 2 ^ 54 + (s.mender.streams + 1) % 2 ^ 54, issuer := s.party.index,
                                         issued := true, lastBolt := boltN s, state := .open_, step := 1, ctx := some c, lba := a }
              ∃ u, exec (.spreadWrite c) s = .next u ∧ u.mender.stripes = tset {} (a / 256) e t.mender.stripes ∧
                u.mender.hops = t.mender.hops ++ (e.others s).map (fun y => { stream := e.stream, to_ := y, kind := 1, end_ := e.size }) ∧
                u.jnl = s.jnl ∧ u.map = s.map)))) ∧
      (∀ i q, x.started = true → stripeFind id s = some (i, q) → q.ctx = some c → q.step = 2 → x.phase = 90 →
        swSent q (dword sqe 13 * 65536 + swNch sqe * 65536) s = true → bit (dword sqe 14) 1 = false →
        let q1 := { q with
          done := max q.done (dword sqe 13 * 65536 + swNch sqe * 65536), lastBolt := boltN s, step := 0, ctx := none }
        exec (.spreadWrite c) s = .next (finish c stOk (stripePut i q1 s)))) ∧
    (∀ n e, stripeFind id s = some (n, e) →
      (∀ k b, e.issued = true → e.step = 1 → e.ctx = some k → (ctxGet k s).deadline = some b →
        (b ≤ boltN s → exec (.spreadOpenTimeout id) s = .next (spreadRefused e s)) ∧
        (boltN s < b → exec (.spreadOpenTimeout id) s = .next s)) ∧
      (e.issued = true → e.state = .open_ → e.step = 0 →
        (e.lastBolt + regFld (pgMnd + 0x140) 31 16 s * 1024 ≤ boltN s →
          exec (.openStripeTimeout id) s = .next (note 0x5084 pgMnd (id % 2 ^ 32) (stripeDropAll id s))) ∧
        (boltN s < e.lastBolt + regFld (pgMnd + 0x140) 31 16 s * 1024 → exec (.openStripeTimeout id) s = .next s)) ∧
      (holdsCmd c 0x92 true s = true → sqeNsid sqe = 0 → dword sqe 14 < 2 → dword sqe 15 = 0 → id ≠ 0 → s.boot.degraded = false →
        s.qe.sanitizing = false → s.mender.table ≠ 1 →
        (∀ l t, dword sqe 14 = 1 → bufferOf c 128 s = (some l, t) → outWait x t = false →
          exec (.shardRead c) s = .next (finish c stOk (sendData x 128 0 (stripeEntry e) false t))) ∧
        (dword sqe 14 = 0 → dword sqe 12 < 65536 → (dword sqe 12 + 1) * 4096 ≤ mdts →
          2 ^ e.shardLog2 < (dword sqe 13 + dword sqe 12 + 1) * 4096 → exec (.shardRead c) s = .next (finish c stLba s)) ∧
        (dword sqe 14 = 0 → dword sqe 12 < 65536 → (dword sqe 12 + 1) * 4096 ≤ mdts →
          (dword sqe 13 + dword sqe 12 + 1) * 4096 ≤ 2 ^ e.shardLog2 →
          (e.state = .repairing → exec (.shardRead c) s = .next (finish c vsShard s)) ∧
          (∀ l t gs u, e.state ≠ .repairing → x.open_ = false → guardWait x s = false →
            bufferOf c ((dword sqe 12 + 1) * 4096) s = (some l, t) → gather c t = (some gs, u) → (ctxGet c u).ends = none →
            outWait (ctxGet c u) u = false → exec (.shardRead c) s = .next (finish c stOk (countRead (ctxGet c u).fn
              ((dword sqe 12 + 1) * 4096) (sendGranules (ctxGet c u) ((dword sqe 12 + 1) * 4096) gs u)))))) ∧
      (holdsCmd c 0x94 true s = true → sqeNsid sqe = 0 → id ≠ 0 → dword sqe 12 < 16 → dword sqe 13 = 0 → dword sqe 14 = 0 →
        dword sqe 15 = 0 → stripeGate c s = none →
        (dword sqe 12 = 1 →
          (e.state = .damaged → exec (.mendRepair c) s = .next (finishDw c stOk 2 0 s)) ∧
          (e.state ≠ .damaged → lostShards e s = [] → ownLoss e s = none → exec (.mendRepair c) s = .next (finishDw c stOk 4 0 s)) ∧
          (e.state ≠ .damaged → lostShards e s ≠ [] → leadOf e s = some s.party.index → exec (.mendRepair c) s =
            .next (finishDw c stOk 0 0 { s with mender := { s.mender with queue := e.id :: s.mender.queue.filter (· ≠ e.id) } }))) ∧
        (dword sqe 12 = 2 → x.started = false → e.step = 0 → exec (.mendVerify c) s = .next (askDigests e.id 5
          (stripePut n { e with ctx := some c } (ctxMod c (fun y => { y with started := true }) (openExtents c [] [] s))))) ∧
        (dword sqe 12 = 2 → e.step ≠ 0 → exec (.mendVerify c) s = .next s) ∧
        (dword sqe 12 = 3 → x.phase = 20 → msgWaits 0x49 id s = false → exec (.mendDrop c) s =
          .next (finishDw c stOk (if msgDropped 0x49 id s then 5 else 0) 0 (msgForget id s))) ∧
        (dword sqe 12 = 3 → x.phase = 20 → msgWaits 0x49 id s = true → exec (.mendDrop c) s = .next s) ∧
        (dword sqe 12 = 3 → x.phase ≠ 20 → x.open_ = false → (∀ y ∈ s.qe.ctxs, y.2.order < x.order → y.2.nsid ≠ storeNsid) →
          guardWait x s = false →
          exec (.mendDrop c) s = .next (ctxMod c (fun y => { y with phase := 20 }) (stripeDropAll e.id s))))) ∧
    (∀ stream p, (s.mender.plans.find? fun p => p.stream = stream && p.role ≠ .target && p.lastOk + 4096 ≤ boltN s) = some p →
      (p.role = .lead → p.length ≤ p.done → exec (.relayTimeout stream) s = .next s) ∧
      (p.role = .lead → p.done < p.length → ∃ u, exec (.relayTimeout stream) s = .next u ∧
        (∀ q ∈ u.mender.plans, q.stream = stream → q.role ≠ .lead) ∧ ∃ r, r ∈ s.mender.plans ∧ u.mender.queue.head? = some r.stripe) ∧
      (p.role = .helper → (∃ h ∈ s.mender.hops, h.stream = stream ∧ h.flying ≠ []) →
        exec (.relayTimeout stream) s = .next (planEnd stream .helper
          (hopFail (streamOwner stream) stream p.next 3 (p.offset + p.done) s)))) ∧
    (∀ stream, (∀ p ∈ s.mender.plans, p.stream = stream → boltN s < p.lastOk + 4096) → exec (.relayTimeout stream) s = .next s) ∧
    (holdsCmd c 0x94 true s = true → dword sqe 12 % 16 ∉ [1, 2, 3] → exec (.mendRepair c) s = .next (finish c stField s)) ∧
    (∀ slot, slot < 16384 → s.mender.table = 1 → ∀ row ∈ [Instr.msgPlan slot, .msgDigestReq slot, .msgDigest slot, .msgStripeSet slot,
      .msgStripeDrop slot, .msgSpreadOpen slot, .msgRecordReq slot, .msgRecord slot], exec row s = .next s)
end

