-- ==== Sys2Proof/Laws/Dispatch.lean ====
section
/-!
SUPPORT. What `exec` is on each command: one equation per constructor, so that no proof unfolds the dispatch.
-/
namespace Sys2Proof.Machine

set_option linter.all false

variable {s : State}

@[simp] theorem exec_powerOnReset {straps} : exec (.powerOnReset straps) s = execPowerOnReset straps s := rfl
@[simp] theorem exec_vddAonLoss : exec (.vddAonLoss) s = execVddAonLoss s := rfl
@[simp] theorem exec_corePllLockLost : exec (.corePllLockLost) s = execCorePllLockLost s := rfl
@[simp] theorem exec_bootSlotSelect : exec (.bootSlotSelect) s = execBootSlotSelect s := rfl
@[simp] theorem exec_dieTableValidation {agree} {bad} : exec (.dieTableValidation agree bad) s = execDieTableValidation agree s bad := rfl
@[simp] theorem exec_channelTraining {chan} {bin} : exec (.channelTraining chan bin) s = execChannelTraining chan bin s := rfl
@[simp] theorem exec_dramTraining {speeds} {gib} {bolts} {module} : exec (.dramTraining speeds gib bolts module) s = execDramTraining speeds gib bolts s module := rfl
@[simp] theorem exec_restartIndex {picks} : exec (.restartIndex picks) s = execRestartIndex picks s := rfl
@[simp] theorem exec_segmentRebuild {seg} {ok} : exec (.segmentRebuild seg ok) s = execSegmentRebuild seg ok s := rfl
@[simp] theorem exec_pwrfailNAssert {ns} : exec (.pwrfailNAssert ns) s = execPwrfailNAssert ns s := rfl
@[simp] theorem exec_supplyMonitorTrip {rail} : exec (.supplyMonitorTrip rail) s = execSupplyMonitorTrip rail s := rfl
@[simp] theorem exec_latchOpen : exec (.latchOpen) s = execLatchOpen s := rfl
@[simp] theorem exec_latchClose : exec (.latchClose) s = execLatchClose s := rfl
@[simp] theorem exec_powerFailAct : exec (.powerFailAct) s = execPowerFailAct s := rfl
@[simp] theorem exec_sealRing {dieOk} : exec (.sealRing dieOk) s = execSeal dieOk s := rfl
@[simp] theorem exec_powerRestoredReset : exec (.powerRestoredReset) s = execPowerRestoredReset s := rfl
@[simp] theorem exec_perstAssert : exec (.perstAssert) s = execPerstAssert s := rfl
@[simp] theorem exec_linkDown : exec (.linkDown) s = execLinkDown s := rfl
@[simp] theorem exec_linkUp {width} {speed} {flit} {uio} {lanes} : exec (.linkUp width speed flit uio lanes) s = execLinkUp width speed flit uio lanes s := rfl
@[simp] theorem exec_linkRecovery {width} {speed} : exec (.linkRecovery width speed) s = execLinkRecovery width speed s := rfl
@[simp] theorem exec_linkTrainingRetry : exec (.linkTrainingRetry) s = execLinkTrainingRetry s := rfl
@[simp] theorem exec_cxlMemRead {hpa} : exec (.cxlMemRead hpa) s = execCxlMemRead hpa s := rfl
@[simp] theorem exec_cxlMemWrite {hpa} {data} {mask} {poison} : exec (.cxlMemWrite hpa data mask poison) s = execCxlMemWrite hpa data mask poison s := rfl
@[simp] theorem exec_hdmDecoderCommit {dec} {base} {size} {ways} {commit} : exec (.hdmDecoderCommit dec base size ways commit) s = execHdmDecoderCommit dec base size ways commit s := rfl
@[simp] theorem exec_hostReadCompletion {ctx} {kind} {result} {bytes} : exec (.hostReadCompletion ctx kind result bytes) s = execHostReadCompletion ctx kind result bytes s := rfl
@[simp] theorem exec_uioWriteCompletion {member} {ok} : exec (.uioWriteCompletion member ok) s = execUioWriteCompletion member ok s := rfl
@[simp] theorem exec_identifyMemoryDevice : exec (.identifyMemoryDevice) s = execIdentifyMemoryDevice s := rfl
@[simp] theorem exec_getSupportedLogs : exec (.getSupportedLogs) s = execGetSupportedLogs s := rfl
@[simp] theorem exec_getLog {payload} : exec (.getLog payload) s = execGetLog payload s := rfl
@[simp] theorem exec_getEventRecords {payload} : exec (.getEventRecords payload) s = execGetEventRecords payload s := rfl
@[simp] theorem exec_clearEventRecords {payload} : exec (.clearEventRecords payload) s = execClearEventRecords payload s := rfl
@[simp] theorem exec_getEventInterruptPolicy : exec (.getEventInterruptPolicy) s = execGetEventInterruptPolicy s := rfl
@[simp] theorem exec_setEventInterruptPolicy {payload} : exec (.setEventInterruptPolicy payload) s = execSetEventInterruptPolicy payload s := rfl
@[simp] theorem exec_getTimestamp : exec (.getTimestamp) s = execGetTimestamp s := rfl
@[simp] theorem exec_setTimestamp {payload} : exec (.setTimestamp payload) s = execSetTimestamp payload s := rfl
@[simp] theorem exec_doeDiscovery {index} : exec (.doeDiscovery index) s = execDoeDiscovery index s := rfl
@[simp] theorem exec_cdatTableAccess {handle} : exec (.cdatTableAccess handle) s = execCdatTableAccess handle s := rfl
@[simp] theorem exec_doeAbort : exec (.doeAbort) s = execDoeAbort s := rfl
@[simp] theorem exec_doorbellWrite {fn} {q} {cq} {value} : exec (.doorbellWrite fn q cq value) s = execDoorbellWrite fn q cq value s := rfl
@[simp] theorem exec_ccEnClear {fn} : exec (.ccEnClear fn) s = execCcEnClear fn s := rfl
@[simp] theorem exec_ccEnSet {fn} {cc} {aqa} {asq} {acq} : exec (.ccEnSet fn cc aqa asq acq) s = execCcEnSet fn cc aqa asq acq s := rfl
@[simp] theorem exec_normalShutdown {fn} : exec (.normalShutdown fn) s = execNormalShutdown fn s := rfl
@[simp] theorem exec_abruptShutdown {fn} : exec (.abruptShutdown fn) s = execAbruptShutdown fn s := rfl
@[simp] theorem exec_flr {fn} : exec (.flr fn) s = execFlr fn s := rfl
@[simp] theorem exec_vfEnableClear : exec (.vfEnableClear) s = execVfEnableClear s := rfl
@[simp] theorem exec_busMasterEnableClear {fn} : exec (.busMasterEnableClear fn) s = execBusMasterEnableClear fn s := rfl
@[simp] theorem exec_busMasterEnableSet {fn} : exec (.busMasterEnableSet fn) s = execBusMasterEnableSet fn s := rfl
@[simp] theorem exec_memorySpaceEnableClear {fn} : exec (.memorySpaceEnableClear fn) s = execMemorySpaceEnableClear fn s := rfl
@[simp] theorem exec_sqeFetch {sqes} {ok} : exec (.sqeFetch sqes ok) s = execSqeFetch sqes ok s := rfl
@[simp] theorem exec_createIoSq {ctx} : exec (.createIoSq ctx) s = execCreateIoSq ctx s := rfl
@[simp] theorem exec_createIoCq {ctx} : exec (.createIoCq ctx) s = execCreateIoCq ctx s := rfl
@[simp] theorem exec_deleteIoSq {ctx} : exec (.deleteIoSq ctx) s = execDeleteIoSq ctx s := rfl
@[simp] theorem exec_deleteIoCq {ctx} : exec (.deleteIoCq ctx) s = execDeleteIoCq ctx s := rfl
@[simp] theorem exec_getLogPage {ctx} : exec (.getLogPage ctx) s = execGetLogPage ctx s := rfl
@[simp] theorem exec_identify {ctx} : exec (.identify ctx) s = execIdentify ctx s := rfl
@[simp] theorem exec_abort {ctx} : exec (.abort ctx) s = execAbort ctx s := rfl
@[simp] theorem exec_setFeatures {ctx} : exec (.setFeatures ctx) s = execSetFeatures ctx s := rfl
@[simp] theorem exec_getFeatures {ctx} : exec (.getFeatures ctx) s = execGetFeatures ctx s := rfl
@[simp] theorem exec_asynchronousEventRequest {ctx} : exec (.asynchronousEventRequest ctx) s = execAsynchronousEventRequest ctx s := rfl
@[simp] theorem exec_namespaceCreate {ctx} : exec (.namespaceCreate ctx) s = execNamespaceCreate ctx s := rfl
@[simp] theorem exec_namespaceDelete {ctx} : exec (.namespaceDelete ctx) s = execNamespaceDelete ctx s := rfl
@[simp] theorem exec_namespaceAttachment {ctx} : exec (.namespaceAttachment ctx) s = execNamespaceAttachment ctx s := rfl
@[simp] theorem exec_firmwareImageDownload {ctx} : exec (.firmwareImageDownload ctx) s = execFirmwareImageDownload ctx s := rfl
@[simp] theorem exec_firmwareCommitActivate {ctx} : exec (.firmwareCommitActivate ctx) s = execFirmwareCommitActivate ctx s := rfl
@[simp] theorem exec_firmwareCommitAtReset {ctx} : exec (.firmwareCommitAtReset ctx) s = execFirmwareCommitAtReset ctx s := rfl
@[simp] theorem exec_activationDrainEnd : exec (.activationDrainEnd) s = execActivationDrainEnd s := rfl
@[simp] theorem exec_activationEnd {ok} : exec (.activationEnd ok) s = execActivationEnd ok s := rfl
@[simp] theorem exec_activationDrainLimit : exec (.activationDrainLimit) s = execActivationDrainLimit s := rfl
@[simp] theorem exec_deviceSelfTestShort {ctx} : exec (.deviceSelfTestShort ctx) s = execDeviceSelfTestShort ctx s := rfl
@[simp] theorem exec_deviceSelfTestExtended {ctx} : exec (.deviceSelfTestExtended ctx) s = execDeviceSelfTestExtended ctx s := rfl
@[simp] theorem exec_deviceSelfTestAbort {ctx} : exec (.deviceSelfTestAbort ctx) s = execDeviceSelfTestAbort ctx s := rfl
@[simp] theorem exec_selfTestStep {ok} : exec (.selfTestStep ok) s = execSelfTestStep ok s := rfl
@[simp] theorem exec_virtualizationManagement {ctx} : exec (.virtualizationManagement ctx) s = execVirtualizationManagement ctx s := rfl
@[simp] theorem exec_formatNvm {ctx} : exec (.formatNvm ctx) s = execFormatNvm ctx s := rfl
@[simp] theorem exec_sanitize {ctx} : exec (.sanitize ctx) s = execSanitize ctx s := rfl
@[simp] theorem exec_read {ctx} : exec (.read ctx) s = execRead ctx s := rfl
@[simp] theorem exec_write {ctx} : exec (.write ctx) s = execWrite ctx s := rfl
@[simp] theorem exec_flush {ctx} : exec (.flush ctx) s = execFlush ctx s := rfl
@[simp] theorem exec_datasetManagement {ctx} : exec (.datasetManagement ctx) s = execDatasetManagement ctx s := rfl
@[simp] theorem exec_arm {ctx} : exec (.arm ctx) s = execArm ctx s := rfl
@[simp] theorem exec_lockoutEnd {fn} : exec (.lockoutEnd fn) s = execLockoutEnd fn s := rfl
@[simp] theorem exec_setPortion {ctx} : exec (.setPortion ctx) s = execSetPortion ctx s := rfl
@[simp] theorem exec_getPortion {ctx} : exec (.getPortion ctx) s = execGetPortion ctx s := rfl
@[simp] theorem exec_loadProgram {ctx} : exec (.loadProgram ctx) s = execLoadProgram ctx s := rfl
@[simp] theorem exec_partialLoadDiscard {fn} {handle} : exec (.partialLoadDiscard fn handle) s = execPartialLoadDiscard fn handle s := rfl
@[simp] theorem exec_unloadProgram {ctx} : exec (.unloadProgram ctx) s = execUnloadProgram ctx s := rfl
@[simp] theorem exec_runProgram {ctx} : exec (.runProgram ctx) s = execRunProgram ctx s := rfl
@[simp] theorem exec_runResourceAcquire {ctx} : exec (.runResourceAcquire ctx) s = execRunResourceAcquire ctx s := rfl
@[simp] theorem exec_runEntryTaskCreate {run} : exec (.runEntryTaskCreate run) s = execRunEntryTaskCreate run s := rfl
@[simp] theorem exec_runEnd {run} : exec (.runEnd run) s = execRunEnd run s := rfl
@[simp] theorem exec_runTimeout {run} : exec (.runTimeout run) s = execRunTimeout run s := rfl
@[simp] theorem exec_keyLoad {ctx} : exec (.keyLoad ctx) s = execKeyLoad ctx s := rfl
@[simp] theorem exec_keyErase {ctx} : exec (.keyErase ctx) s = execKeyErase ctx s := rfl
@[simp] theorem exec_partyJoinFound {ctx} : exec (.partyJoinFound ctx) s = execPartyJoinFound ctx s := rfl
@[simp] theorem exec_partyJoin {ctx} : exec (.partyJoin ctx) s = execPartyJoin ctx s := rfl
@[simp] theorem exec_joinTimeout : exec (.joinTimeout) s = execJoinTimeout s := rfl
@[simp] theorem exec_partyLeave {ctx} : exec (.partyLeave ctx) s = execPartyLeave ctx s := rfl
@[simp] theorem exec_leaveTimeout : exec (.leaveTimeout) s = execLeaveTimeout s := rfl
@[simp] theorem exec_partyStatus {ctx} : exec (.partyStatus ctx) s = execPartyStatus ctx s := rfl
@[simp] theorem exec_logSwapStart {ctx} : exec (.logSwapStart ctx) s = execLogSwapStart ctx s := rfl
@[simp] theorem exec_logSwapSwap {ctx} : exec (.logSwapSwap ctx) s = execLogSwapSwap ctx s := rfl
@[simp] theorem exec_logSwapStop {ctx} : exec (.logSwapStop ctx) s = execLogSwapStop ctx s := rfl
@[simp] theorem exec_dirtyLineWrite {fn} {line} : exec (.dirtyLineWrite fn line) s = execDirtyLineWrite fn line s := rfl
@[simp] theorem exec_fuseRepair {ctx} : exec (.fuseRepair ctx) s = execFuseRepair ctx s := rfl
@[simp] theorem exec_compressWrite {ctx} : exec (.compressWrite ctx) s = execCompressWrite ctx s := rfl
@[simp] theorem exec_decompressRead {ctx} : exec (.decompressRead ctx) s = execDecompressRead ctx s := rfl
@[simp] theorem exec_scanRead {ctx} : exec (.scanRead ctx) s = execScanRead ctx s := rfl
@[simp] theorem exec_digestRead {ctx} : exec (.digestRead ctx) s = execDigestRead ctx s := rfl
@[simp] theorem exec_spreadWrite {ctx} : exec (.spreadWrite ctx) s = execSpreadWrite ctx s := rfl
@[simp] theorem exec_spreadOpenTimeout {stripe} : exec (.spreadOpenTimeout stripe) s = execSpreadOpenTimeout stripe s := rfl
@[simp] theorem exec_openStripeTimeout {stripe} : exec (.openStripeTimeout stripe) s = execOpenStripeTimeout stripe s := rfl
@[simp] theorem exec_shardRead {ctx} : exec (.shardRead ctx) s = execShardRead ctx s := rfl
@[simp] theorem exec_mendRepair {ctx} : exec (.mendRepair ctx) s = execMendRepair ctx s := rfl
@[simp] theorem exec_mendVerify {ctx} : exec (.mendVerify ctx) s = execMendVerify ctx s := rfl
@[simp] theorem exec_mendDrop {ctx} : exec (.mendDrop ctx) s = execMendDrop ctx s := rfl
@[simp] theorem exec_writeClaim {ctx} : exec (.writeClaim ctx) s = execWriteClaim ctx s := rfl
@[simp] theorem exec_stagingUnitComplete {ctx} : exec (.stagingUnitComplete ctx) s = execStagingUnitComplete ctx s := rfl
@[simp] theorem exec_journalWordDurable {ok} : exec (.journalWordDurable ok) s = execJournalWordDurable ok s := rfl
@[simp] theorem exec_checkpointStart {seg} : exec (.checkpointStart seg) s = execCheckpointStart seg s := rfl
@[simp] theorem exec_ctrlFieldFold : exec (.ctrlFieldFold) s = execCtrlFieldFold s := rfl
@[simp] theorem exec_unitProgramStart {die} : exec (.unitProgramStart die) s = execUnitProgramStart die s := rfl
@[simp] theorem exec_flashReadDone {pua} {outcomes} {task} : exec (.flashReadDone pua outcomes task) s = execFlashReadDone pua outcomes s task := rfl
@[simp] theorem exec_flashProgramDone {die} {ok} {task} : exec (.flashProgramDone die ok task) s = execFlashProgramDone die ok s task := rfl
@[simp] theorem exec_flashEraseDone {sb} {ok} {chan} {task} : exec (.flashEraseDone sb ok chan task) s = execFlashEraseDone sb ok chan s task := rfl
@[simp] theorem exec_dieReadyTimeout {die} {resetOk} : exec (.dieReadyTimeout die resetOk) s = execDieReadyTimeout die resetOk s := rfl
@[simp] theorem exec_dieRebuild {die} : exec (.dieRebuild die) s = execDieRebuild die s := rfl
@[simp] theorem exec_fold {sb} : exec (.fold sb) s = execFold sb s := rfl
@[simp] theorem exec_garbageCollection : exec (.garbageCollection) s = execGarbageCollection s := rfl
@[simp] theorem exec_refresh {blk} : exec (.refresh blk) s = execRefresh blk s := rfl
@[simp] theorem exec_staticWearLevelling : exec (.staticWearLevelling) s = execStaticWearLevelling s := rfl
@[simp] theorem exec_patrolRead : exec (.patrolRead) s = execPatrolRead s := rfl
@[simp] theorem exec_dumpStandbyErase : exec (.dumpStandbyErase) s = execDumpStandbyErase s := rfl
@[simp] theorem exec_slcTargetUpdate : exec (.slcTargetUpdate) s = execSlcTargetUpdate s := rfl
@[simp] theorem exec_dieTemperatureRead {die} {temp} : exec (.dieTemperatureRead die temp) s = execDieTemperatureRead die temp s := rfl
@[simp] theorem exec_pickBoundary {env} : exec (.pickBoundary env) s = execPickBoundary s env := rfl
@[simp] theorem exec_pickDistributionFailure : exec (.pickDistributionFailure) s = execPickDistributionFailure s := rfl
@[simp] theorem exec_activationPreempt {core} : exec (.activationPreempt core) s = execActivationPreempt core s := rfl
@[simp] theorem exec_coalescingWindowEnd {fn} {vec} : exec (.coalescingWindowEnd fn vec) s = execCoalescingWindowEnd fn vec s := rfl
@[simp] theorem exec_apstTransition : exec (.apstTransition) s = execApstTransition s := rfl
@[simp] theorem exec_thermalUpdate {tj} {dram} : exec (.thermalUpdate tj dram) s = execThermalUpdate tj dram s := rfl
@[simp] theorem exec_hamperScrubStep {syms} : exec (.hamperScrubStep syms) s = execHamperScrubStep syms s := rfl
@[simp] theorem exec_dramScrubStep {syms} : exec (.dramScrubStep syms) s = execDramScrubStep syms s := rfl
@[simp] theorem exec_heddleCheck {tile} {row} {kind} : exec (.heddleCheck tile row kind) s = execHeddleCheck tile row kind s := rfl
@[simp] theorem exec_blockFatalEvent {page} {code} {arg} : exec (.blockFatalEvent page code arg) s = execBlockFatalEvent page code arg s := rfl
@[simp] theorem exec_deviceFatalEvent {code} : exec (.deviceFatalEvent code) s = execDeviceFatalEvent code s := rfl
@[simp] theorem exec_fatalReset : exec (.fatalReset) s = execFatalReset s := rfl
@[simp] theorem exec_deviceReset : exec (.deviceReset) s = execDeviceReset s := rfl
@[simp] theorem exec_bootWatchdogExpiry : exec (.bootWatchdogExpiry) s = execBootWatchdogExpiry s := rfl
@[simp] theorem exec_crossingWatchdogExpiry {id} {far} : exec (.crossingWatchdogExpiry id far) s = execCrossingWatchdogExpiry id far s := rfl
@[simp] theorem exec_branchNotAnswering {branch} : exec (.branchNotAnswering branch) s = execBranchNotAnswering branch s := rfl
@[simp] theorem exec_serviceButtonRelease {ms} : exec (.serviceButtonRelease ms) s = execServiceButtonRelease ms s := rfl
@[simp] theorem exec_serviceButtonCancel : exec (.serviceButtonCancel) s = execServiceButtonCancel s := rfl
@[simp] theorem exec_removalRequest : exec (.removalRequest) s = execRemovalRequest s := rfl
@[simp] theorem exec_removalDrainLimit : exec (.removalDrainLimit) s = execRemovalDrainLimit s := rfl
@[simp] theorem exec_removalSeal : exec (.removalSeal) s = execRemovalSeal s := rfl
@[simp] theorem exec_removalAwayTimeout : exec (.removalAwayTimeout) s = execRemovalAwayTimeout s := rfl
@[simp] theorem exec_prsntNRise : exec (.prsntNRise) s = execPrsntNRise s := rfl
@[simp] theorem exec_shuttleDescriptor {sh} {res} {data} : exec (.shuttleDescriptor sh res data) s = execShuttleDescriptor sh res data s := rfl
@[simp] theorem exec_shuttleDescriptorEnd {sh} : exec (.shuttleDescriptorEnd sh) s = execShuttleDescriptorEnd sh s := rfl
@[simp] theorem exec_linePost {line} {agent} {last} {len} : exec (.linePost line agent last len) s = execLinePost line agent last len s := rfl
@[simp] theorem exec_lineRelease {line} {agent} : exec (.lineRelease line agent) s = execLineRelease line agent s := rfl
@[simp] theorem exec_twillCompress {eng} : exec (.twillCompress eng) s = execTwillCompress eng s := rfl
@[simp] theorem exec_twillDecompress {eng} : exec (.twillDecompress eng) s = execTwillDecompress eng s := rfl
@[simp] theorem exec_twillVerify {eng} : exec (.twillVerify eng) s = execTwillVerify eng s := rfl
@[simp] theorem exec_twillJobEnd {eng} : exec (.twillJobEnd eng) s = execTwillJobEnd eng s := rfl
@[simp] theorem exec_digestInit {eng} : exec (.digestInit eng) s = execDigestInit eng s := rfl
@[simp] theorem exec_digestUpdate {eng} {lost} : exec (.digestUpdate eng lost) s = execDigestUpdate eng lost s := rfl
@[simp] theorem exec_digestFinal {eng} {lost} : exec (.digestFinal eng lost) s = execDigestFinal eng lost s := rfl
@[simp] theorem exec_digestOneshot {eng} : exec (.digestOneshot eng) s = execDigestOneshot eng s := rfl
@[simp] theorem exec_digestCompare {eng} {lost} : exec (.digestCompare eng lost) s = execDigestCompare eng lost s := rfl
@[simp] theorem exec_digestRelease {eng} : exec (.digestRelease eng) s = execDigestRelease eng s := rfl
@[simp] theorem exec_digestJobEnd {eng} : exec (.digestJobEnd eng) s = execDigestJobEnd eng s := rfl
@[simp] theorem exec_kckGenerate {eng} : exec (.kckGenerate eng) s = execKckGenerate eng s := rfl
@[simp] theorem exec_kckVerify {eng} : exec (.kckVerify eng) s = execKckVerify eng s := rfl
@[simp] theorem exec_kckJobEnd {eng} : exec (.kckJobEnd eng) s = execKckJobEnd eng s := rfl
@[simp] theorem exec_scanJob {eng} : exec (.scanJob eng) s = execScanJob eng s := rfl
@[simp] theorem exec_scanJobEnd {eng} : exec (.scanJobEnd eng) s = execScanJobEnd eng s := rfl
@[simp] theorem exec_menderMac : exec (.menderMac) s = execMenderMac s := rfl
@[simp] theorem exec_menderJobEnd : exec (.menderJobEnd) s = execMenderJobEnd s := rfl
@[simp] theorem exec_taskDispatch {core} : exec (.taskDispatch core) s = execTaskDispatch core s := rfl
@[simp] theorem exec_dependenceDecrement {task} : exec (.dependenceDecrement task) s = execDependenceDecrement task s := rfl
@[simp] theorem exec_taskAgeing {task} : exec (.taskAgeing task) s = execTaskAgeing task s := rfl
@[simp] theorem exec_heartbeatSend : exec (.heartbeatSend) s = execHeartbeatSend s := rfl
@[simp] theorem exec_heartbeat {member} : exec (.heartbeat member) s = execHeartbeat member s := rfl
@[simp] theorem exec_silentMark {member} : exec (.silentMark member) s = execSilentMark member s := rfl
@[simp] theorem exec_suspectSend {member} : exec (.suspectSend member) s = execSuspectSend member s := rfl
@[simp] theorem exec_epochIssue : exec (.epochIssue) s = execEpochIssue s := rfl
@[simp] theorem exec_lostMemberFree {member} : exec (.lostMemberFree member) s = execLostMemberFree member s := rfl
@[simp] theorem exec_messageResend {member} {counter} : exec (.messageResend member counter) s = execMessageResend member counter s := rfl
@[simp] theorem exec_ackSend {member} : exec (.ackSend member) s = execAckSend member s := rfl
@[simp] theorem exec_capSend : exec (.capSend) s = execCapSend s := rfl
@[simp] theorem exec_bar4Write {off} {data} {poison} : exec (.bar4Write off data poison) s = execBar4Write off data poison s := rfl
@[simp] theorem exec_msgAck {slot} : exec (.msgAck slot) s = execMsgAck slot s := rfl
@[simp] theorem exec_msgChunkNak {slot} : exec (.msgChunkNak slot) s = execMsgChunkNak slot s := rfl
@[simp] theorem exec_msgJoinReq {slot} : exec (.msgJoinReq slot) s = execMsgJoinReq slot s := rfl
@[simp] theorem exec_msgJoinNak {slot} : exec (.msgJoinNak slot) s = execMsgJoinNak slot s := rfl
@[simp] theorem exec_msgEpoch {slot} : exec (.msgEpoch slot) s = execMsgEpoch slot s := rfl
@[simp] theorem exec_msgSyncReq {slot} : exec (.msgSyncReq slot) s = execMsgSyncReq slot s := rfl
@[simp] theorem exec_msgRosterPart {slot} : exec (.msgRosterPart slot) s = execMsgRosterPart slot s := rfl
@[simp] theorem exec_msgSuspect {slot} : exec (.msgSuspect slot) s = execMsgSuspect slot s := rfl
@[simp] theorem exec_msgRetract {slot} : exec (.msgRetract slot) s = execMsgRetract slot s := rfl
@[simp] theorem exec_msgAway {slot} : exec (.msgAway slot) s = execMsgAway slot s := rfl
@[simp] theorem exec_msgBack {slot} : exec (.msgBack slot) s = execMsgBack slot s := rfl
@[simp] theorem exec_msgLeave {slot} : exec (.msgLeave slot) s = execMsgLeave slot s := rfl
@[simp] theorem exec_msgDepart {slot} : exec (.msgDepart slot) s = execMsgDepart slot s := rfl
@[simp] theorem exec_msgCap {slot} : exec (.msgCap slot) s = execMsgCap slot s := rfl
@[simp] theorem exec_msgSyncHint {slot} : exec (.msgSyncHint slot) s = execMsgSyncHint slot s := rfl
@[simp] theorem exec_chunkHeaderArrival {slot} : exec (.chunkHeaderArrival slot) s = execChunkHeaderArrival slot s := rfl
@[simp] theorem exec_msgPlan {slot} : exec (.msgPlan slot) s = execMsgPlan slot s := rfl
@[simp] theorem exec_msgPlanAck {slot} : exec (.msgPlanAck slot) s = execMsgPlanAck slot s := rfl
@[simp] theorem exec_msgGrant {slot} : exec (.msgGrant slot) s = execMsgGrant slot s := rfl
@[simp] theorem exec_msgChunkOk {slot} : exec (.msgChunkOk slot) s = execMsgChunkOk slot s := rfl
@[simp] theorem exec_msgHopFail {slot} : exec (.msgHopFail slot) s = execMsgHopFail slot s := rfl
@[simp] theorem exec_msgPlanAbort {slot} : exec (.msgPlanAbort slot) s = execMsgPlanAbort slot s := rfl
@[simp] theorem exec_msgDigestReq {slot} : exec (.msgDigestReq slot) s = execMsgDigestReq slot s := rfl
@[simp] theorem exec_msgDigest {slot} : exec (.msgDigest slot) s = execMsgDigest slot s := rfl
@[simp] theorem exec_msgStripeSet {slot} : exec (.msgStripeSet slot) s = execMsgStripeSet slot s := rfl
@[simp] theorem exec_msgStripeDrop {slot} : exec (.msgStripeDrop slot) s = execMsgStripeDrop slot s := rfl
@[simp] theorem exec_msgSpreadOpen {slot} : exec (.msgSpreadOpen slot) s = execMsgSpreadOpen slot s := rfl
@[simp] theorem exec_msgRecordReq {slot} : exec (.msgRecordReq slot) s = execMsgRecordReq slot s := rfl
@[simp] theorem exec_msgRecord {slot} : exec (.msgRecord slot) s = execMsgRecord slot s := rfl
@[simp] theorem exec_relayTimeout {stream} : exec (.relayTimeout stream) s = execRelayTimeout stream s := rfl
@[simp] theorem exec_softRst {page} : exec (.softRst page) s = execSoftRst page s := rfl
@[simp] theorem exec_softResetEnd {page} {selfOk} : exec (.softResetEnd page selfOk) s = execSoftResetEnd page selfOk s := rfl
@[simp] theorem exec_selvReq {page} : exec (.selvReq page) s = execSelvReq page s := rfl
@[simp] theorem exec_snap {page} : exec (.snap page) s = execSnap page s := rfl
@[simp] theorem exec_glbSnapAll : exec (.glbSnapAll) s = execGlbSnapAll s := rfl
@[simp] theorem exec_errStatClear {page} {value} : exec (.errStatClear page value) s = execErrStatClear page value s := rfl
@[simp] theorem exec_irqStatClear {page} {value} : exec (.irqStatClear page value) s = execIrqStatClear page value s := rfl
@[simp] theorem exec_weftSkewClr {value} : exec (.weftSkewClr value) s = execWeftSkewClr value s := rfl
@[simp] theorem exec_rstCtlDevice {value} : exec (.rstCtlDevice value) s = execRstCtlDevice value s := rfl
@[simp] theorem exec_rstBootOk {value} : exec (.rstBootOk value) s = execRstBootOk value s := rfl
@[simp] theorem exec_drill {value} : exec (.drill value) s = execDrill value s := rfl
@[simp] theorem exec_ddrTrainFull {value} : exec (.ddrTrainFull value) s = execDdrTrainFull value s := rfl
@[simp] theorem exec_retrain {value} : exec (.retrain value) s = execRetrain value s := rfl
@[simp] theorem exec_qenFetchHold {value} : exec (.qenFetchHold value) s = execQenFetchHold value s := rfl
@[simp] theorem exec_warpArbWeightWrite {port} {value} : exec (.warpArbWeightWrite port value) s = execWarpArbWeightWrite port value s := rfl
@[simp] theorem exec_hamperRegionCfg {region} {value} : exec (.hamperRegionCfg region value) s = execHamperRegionCfg region value s := rfl
@[simp] theorem exec_jnlMapcCfgWrite {value} : exec (.jnlMapcCfgWrite value) s = execJnlMapcCfgWrite value s := rfl
@[simp] theorem exec_shuTailAdvance {sh} {value} : exec (.shuTailAdvance sh value) s = execShuTailAdvance sh value s := rfl
@[simp] theorem exec_shuStop {sh} {value} : exec (.shuStop sh value) s = execShuStop sh value s := rfl
@[simp] theorem exec_shuFlush {sh} {value} : exec (.shuFlush sh value) s = execShuFlush sh value s := rfl
@[simp] theorem exec_shuLineCfgWrite {line} {value} : exec (.shuLineCfgWrite line value) s = execShuLineCfgWrite line value s := rfl
@[simp] theorem exec_softwareLinePost {value} : exec (.softwareLinePost value) s = execSoftwareLinePost value s := rfl
@[simp] theorem exec_softwareLineRelease {value} : exec (.softwareLineRelease value) s = execSoftwareLineRelease value s := rfl
@[simp] theorem exec_twillTailAdvance {eng} {value} : exec (.twillTailAdvance eng value) s = execTwillTailAdvance eng value s := rfl
@[simp] theorem exec_twillStop {eng} {value} : exec (.twillStop eng value) s = execTwillStop eng value s := rfl
@[simp] theorem exec_twillFlush {eng} {value} : exec (.twillFlush eng value) s = execTwillFlush eng value s := rfl
@[simp] theorem exec_digTailAdvance {eng} {value} : exec (.digTailAdvance eng value) s = execDigTailAdvance eng value s := rfl
@[simp] theorem exec_digStop {eng} {value} : exec (.digStop eng value) s = execDigStop eng value s := rfl
@[simp] theorem exec_digFlush {eng} {value} : exec (.digFlush eng value) s = execDigFlush eng value s := rfl
@[simp] theorem exec_kckTailAdvance {eng} {value} : exec (.kckTailAdvance eng value) s = execKckTailAdvance eng value s := rfl
@[simp] theorem exec_kckStop {eng} {value} : exec (.kckStop eng value) s = execKckStop eng value s := rfl
@[simp] theorem exec_kckFlush {eng} {value} : exec (.kckFlush eng value) s = execKckFlush eng value s := rfl
@[simp] theorem exec_scnTailAdvance {eng} {value} : exec (.scnTailAdvance eng value) s = execScnTailAdvance eng value s := rfl
@[simp] theorem exec_scnStop {eng} {value} : exec (.scnStop eng value) s = execScnStop eng value s := rfl
@[simp] theorem exec_scnFlush {eng} {value} : exec (.scnFlush eng value) s = execScnFlush eng value s := rfl
@[simp] theorem exec_mndTailAdvance {value} : exec (.mndTailAdvance value) s = execMndTailAdvance value s := rfl
@[simp] theorem exec_mndStop {value} : exec (.mndStop value) s = execMndStop value s := rfl
@[simp] theorem exec_mndFlush {value} : exec (.mndFlush value) s = execMndFlush value s := rfl
@[simp] theorem exec_hedGroupCfgWrite {grp} {value} : exec (.hedGroupCfgWrite grp value) s = execHedGroupCfgWrite grp value s := rfl
@[simp] theorem exec_hedCompactPack {grp} : exec (.hedCompactPack grp) s = execHedCompactPack grp s := rfl
@[simp] theorem exec_hedCompactSpread {grp} : exec (.hedCompactSpread grp) s = execHedCompactSpread grp s := rfl
@[simp] theorem exec_hedGroupClear {grp} : exec (.hedGroupClear grp) s = execHedGroupClear grp s := rfl
@[simp] theorem exec_itnDec {value} : exec (.itnDec value) s = execItnDec value s := rfl
@[simp] theorem exec_itnQuery {value} : exec (.itnQuery value) s = execItnQuery value s := rfl
@[simp] theorem exec_glbLogIndex {value} : exec (.glbLogIndex value) s = execGlbLogIndex value s := rfl
@[simp] theorem exec_killRuns {fn} {value} : exec (.killRuns fn value) s = execKillRuns fn value s := rfl
@[simp] theorem exec_registerWrite {master} {fn} {addr} {width} {value} : exec (.registerWrite master fn addr width value) s = execRegisterWrite master fn addr width value s := rfl
@[simp] theorem exec_izNop {core} : exec (.izNop core) s = execIzNop core s := rfl
@[simp] theorem exec_izLit8 {core} {imm} : exec (.izLit8 core imm) s = execIzLit8 core imm s := rfl
@[simp] theorem exec_izLit16 {core} {imm} : exec (.izLit16 core imm) s = execIzLit16 core imm s := rfl
@[simp] theorem exec_izLit32 {core} {imm} : exec (.izLit32 core imm) s = execIzLit32 core imm s := rfl
@[simp] theorem exec_izLit64 {core} {imm} : exec (.izLit64 core imm) s = execIzLit64 core imm s := rfl
@[simp] theorem exec_izDup {core} : exec (.izDup core) s = execIzDup core s := rfl
@[simp] theorem exec_izDrop {core} : exec (.izDrop core) s = execIzDrop core s := rfl
@[simp] theorem exec_izSwap {core} : exec (.izSwap core) s = execIzSwap core s := rfl
@[simp] theorem exec_izOver {core} : exec (.izOver core) s = execIzOver core s := rfl
@[simp] theorem exec_izRot {core} : exec (.izRot core) s = execIzRot core s := rfl
@[simp] theorem exec_izNip {core} : exec (.izNip core) s = execIzNip core s := rfl
@[simp] theorem exec_izTuck {core} : exec (.izTuck core) s = execIzTuck core s := rfl
@[simp] theorem exec_izNth {core} {imm} : exec (.izNth core imm) s = execIzNth core imm s := rfl
@[simp] theorem exec_izSetn {core} {imm} : exec (.izSetn core imm) s = execIzSetn core imm s := rfl
@[simp] theorem exec_izDropn {core} {imm} : exec (.izDropn core imm) s = execIzDropn core imm s := rfl
@[simp] theorem exec_izDup2 {core} : exec (.izDup2 core) s = execIzDup2 core s := rfl
@[simp] theorem exec_izTor {core} : exec (.izTor core) s = execIzTor core s := rfl
@[simp] theorem exec_izFromr {core} : exec (.izFromr core) s = execIzFromr core s := rfl
@[simp] theorem exec_izRfetch {core} : exec (.izRfetch core) s = execIzRfetch core s := rfl
@[simp] theorem exec_izDepth {core} : exec (.izDepth core) s = execIzDepth core s := rfl
@[simp] theorem exec_izLitw {core} {imm} : exec (.izLitw core imm) s = execIzLitw core imm s := rfl
@[simp] theorem exec_izAdd {core} : exec (.izAdd core) s = execIzAdd core s := rfl
@[simp] theorem exec_izSub {core} : exec (.izSub core) s = execIzSub core s := rfl
@[simp] theorem exec_izMul {core} : exec (.izMul core) s = execIzMul core s := rfl
@[simp] theorem exec_izMulhu {core} : exec (.izMulhu core) s = execIzMulhu core s := rfl
@[simp] theorem exec_izMulhs {core} : exec (.izMulhs core) s = execIzMulhs core s := rfl
@[simp] theorem exec_izDivu {core} : exec (.izDivu core) s = execIzDivu core s := rfl
@[simp] theorem exec_izRemu {core} : exec (.izRemu core) s = execIzRemu core s := rfl
@[simp] theorem exec_izDivs {core} : exec (.izDivs core) s = execIzDivs core s := rfl
@[simp] theorem exec_izRems {core} : exec (.izRems core) s = execIzRems core s := rfl
@[simp] theorem exec_izNeg {core} : exec (.izNeg core) s = execIzNeg core s := rfl
@[simp] theorem exec_izAnd {core} : exec (.izAnd core) s = execIzAnd core s := rfl
@[simp] theorem exec_izOr {core} : exec (.izOr core) s = execIzOr core s := rfl
@[simp] theorem exec_izXor {core} : exec (.izXor core) s = execIzXor core s := rfl
@[simp] theorem exec_izNot {core} : exec (.izNot core) s = execIzNot core s := rfl
@[simp] theorem exec_izShl {core} : exec (.izShl core) s = execIzShl core s := rfl
@[simp] theorem exec_izShr {core} : exec (.izShr core) s = execIzShr core s := rfl
@[simp] theorem exec_izSar {core} : exec (.izSar core) s = execIzSar core s := rfl
@[simp] theorem exec_izRol {core} : exec (.izRol core) s = execIzRol core s := rfl
@[simp] theorem exec_izRor {core} : exec (.izRor core) s = execIzRor core s := rfl
@[simp] theorem exec_izAddi {core} {imm} : exec (.izAddi core imm) s = execIzAddi core imm s := rfl
@[simp] theorem exec_izAddi32 {core} {imm} : exec (.izAddi32 core imm) s = execIzAddi32 core imm s := rfl
@[simp] theorem exec_izAndi {core} {imm} : exec (.izAndi core imm) s = execIzAndi core imm s := rfl
@[simp] theorem exec_izShli {core} {imm} : exec (.izShli core imm) s = execIzShli core imm s := rfl
@[simp] theorem exec_izShri {core} {imm} : exec (.izShri core imm) s = execIzShri core imm s := rfl
@[simp] theorem exec_izSari {core} {imm} : exec (.izSari core imm) s = execIzSari core imm s := rfl
@[simp] theorem exec_izMinu {core} : exec (.izMinu core) s = execIzMinu core s := rfl
@[simp] theorem exec_izMaxu {core} : exec (.izMaxu core) s = execIzMaxu core s := rfl
@[simp] theorem exec_izMins {core} : exec (.izMins core) s = execIzMins core s := rfl
@[simp] theorem exec_izMaxs {core} : exec (.izMaxs core) s = execIzMaxs core s := rfl
@[simp] theorem exec_izSext {core} {imm} : exec (.izSext core imm) s = execIzSext core imm s := rfl
@[simp] theorem exec_izZext {core} {imm} : exec (.izZext core imm) s = execIzZext core imm s := rfl
@[simp] theorem exec_izClz {core} : exec (.izClz core) s = execIzClz core s := rfl
@[simp] theorem exec_izCtz {core} : exec (.izCtz core) s = execIzCtz core s := rfl
@[simp] theorem exec_izPopc {core} : exec (.izPopc core) s = execIzPopc core s := rfl
@[simp] theorem exec_izBfx {core} {imm} : exec (.izBfx core imm) s = execIzBfx core imm s := rfl
@[simp] theorem exec_izBfxs {core} {imm} : exec (.izBfxs core imm) s = execIzBfxs core imm s := rfl
@[simp] theorem exec_izBfi {core} {imm} : exec (.izBfi core imm) s = execIzBfi core imm s := rfl
@[simp] theorem exec_izBperm {core} : exec (.izBperm core) s = execIzBperm core s := rfl
@[simp] theorem exec_izBswap {core} : exec (.izBswap core) s = execIzBswap core s := rfl
@[simp] theorem exec_izBfxv {core} : exec (.izBfxv core) s = execIzBfxv core s := rfl
@[simp] theorem exec_izBfiv {core} : exec (.izBfiv core) s = execIzBfiv core s := rfl
@[simp] theorem exec_izBpermi {core} {imm} : exec (.izBpermi core imm) s = execIzBpermi core imm s := rfl
@[simp] theorem exec_izEq {core} : exec (.izEq core) s = execIzEq core s := rfl
@[simp] theorem exec_izNe {core} : exec (.izNe core) s = execIzNe core s := rfl
@[simp] theorem exec_izLtu {core} : exec (.izLtu core) s = execIzLtu core s := rfl
@[simp] theorem exec_izLeu {core} : exec (.izLeu core) s = execIzLeu core s := rfl
@[simp] theorem exec_izGtu {core} : exec (.izGtu core) s = execIzGtu core s := rfl
@[simp] theorem exec_izGeu {core} : exec (.izGeu core) s = execIzGeu core s := rfl
@[simp] theorem exec_izLts {core} : exec (.izLts core) s = execIzLts core s := rfl
@[simp] theorem exec_izLes {core} : exec (.izLes core) s = execIzLes core s := rfl
@[simp] theorem exec_izGts {core} : exec (.izGts core) s = execIzGts core s := rfl
@[simp] theorem exec_izGes {core} : exec (.izGes core) s = execIzGes core s := rfl
@[simp] theorem exec_izEqz {core} : exec (.izEqz core) s = execIzEqz core s := rfl
@[simp] theorem exec_izNez {core} : exec (.izNez core) s = execIzNez core s := rfl
@[simp] theorem exec_izSelect {core} : exec (.izSelect core) s = execIzSelect core s := rfl
@[simp] theorem exec_izJmp {core} {imm} : exec (.izJmp core imm) s = execIzJmp core imm s := rfl
@[simp] theorem exec_izJz {core} {imm} : exec (.izJz core imm) s = execIzJz core imm s := rfl
@[simp] theorem exec_izJnz {core} {imm} : exec (.izJnz core imm) s = execIzJnz core imm s := rfl
@[simp] theorem exec_izJmpl {core} {imm} : exec (.izJmpl core imm) s = execIzJmpl core imm s := rfl
@[simp] theorem exec_izJzl {core} {imm} : exec (.izJzl core imm) s = execIzJzl core imm s := rfl
@[simp] theorem exec_izJnzl {core} {imm} : exec (.izJnzl core imm) s = execIzJnzl core imm s := rfl
@[simp] theorem exec_izCall {core} {imm} : exec (.izCall core imm) s = execIzCall core imm s := rfl
@[simp] theorem exec_izRet {core} : exec (.izRet core) s = execIzRet core s := rfl
@[simp] theorem exec_izLoop {core} {imm} : exec (.izLoop core imm) s = execIzLoop core imm s := rfl
@[simp] theorem exec_izTrap {core} {imm} : exec (.izTrap core imm) s = execIzTrap core imm s := rfl
@[simp] theorem exec_izLd8 {core} : exec (.izLd8 core) s = execIzLd8 core s := rfl
@[simp] theorem exec_izLd16 {core} : exec (.izLd16 core) s = execIzLd16 core s := rfl
@[simp] theorem exec_izLd32 {core} : exec (.izLd32 core) s = execIzLd32 core s := rfl
@[simp] theorem exec_izLd64 {core} : exec (.izLd64 core) s = execIzLd64 core s := rfl
@[simp] theorem exec_izLds8 {core} : exec (.izLds8 core) s = execIzLds8 core s := rfl
@[simp] theorem exec_izLds16 {core} : exec (.izLds16 core) s = execIzLds16 core s := rfl
@[simp] theorem exec_izLds32 {core} : exec (.izLds32 core) s = execIzLds32 core s := rfl
@[simp] theorem exec_izSt8 {core} : exec (.izSt8 core) s = execIzSt8 core s := rfl
@[simp] theorem exec_izSt16 {core} : exec (.izSt16 core) s = execIzSt16 core s := rfl
@[simp] theorem exec_izSt32 {core} : exec (.izSt32 core) s = execIzSt32 core s := rfl
@[simp] theorem exec_izSt64 {core} : exec (.izSt64 core) s = execIzSt64 core s := rfl
@[simp] theorem exec_izAadd {core} : exec (.izAadd core) s = execIzAadd core s := rfl
@[simp] theorem exec_izCas {core} : exec (.izCas core) s = execIzCas core s := rfl
@[simp] theorem exec_izColl {core} : exec (.izColl core) s = execIzColl core s := rfl
@[simp] theorem exec_izCopy {core} : exec (.izCopy core) s = execIzCopy core s := rfl
@[simp] theorem exec_izFence {core} : exec (.izFence core) s = execIzFence core s := rfl
@[simp] theorem exec_izSubmit {core} : exec (.izSubmit core) s = execIzSubmit core s := rfl
@[simp] theorem exec_izWait {core} : exec (.izWait core) s = execIzWait core s := rfl
@[simp] theorem exec_izSpawn {core} : exec (.izSpawn core) s = execIzSpawn core s := rfl
@[simp] theorem exec_izSignal {core} : exec (.izSignal core) s = execIzSignal core s := rfl
@[simp] theorem exec_izYield {core} : exec (.izYield core) s = execIzYield core s := rfl
@[simp] theorem exec_izEnd {core} : exec (.izEnd core) s = execIzEnd core s := rfl
@[simp] theorem exec_izSelf {core} : exec (.izSelf core) s = execIzSelf core s := rfl
@[simp] theorem exec_izPnow {core} : exec (.izPnow core) s = execIzPnow core s := rfl
@[simp] theorem exec_izHsrch {core} : exec (.izHsrch core) s = execIzHsrch core s := rfl
@[simp] theorem exec_izHsrchm {core} : exec (.izHsrchm core) s = execIzHsrchm core s := rfl
@[simp] theorem exec_izHnext {core} : exec (.izHnext core) s = execIzHnext core s := rfl
@[simp] theorem exec_izHins {core} : exec (.izHins core) s = execIzHins core s := rfl
@[simp] theorem exec_izHdel {core} : exec (.izHdel core) s = execIzHdel core s := rfl
@[simp] theorem exec_izFeat {core} {imm} : exec (.izFeat core imm) s = execIzFeat core imm s := rfl
@[simp] theorem exec_izCore {core} : exec (.izCore core) s = execIzCore core s := rfl
@[simp] theorem exec_izFuncn {core} : exec (.izFuncn core) s = execIzFuncn core s := rfl
@[simp] theorem exec_izWld {core} : exec (.izWld core) s = execIzWld core s := rfl
@[simp] theorem exec_izWst {core} : exec (.izWst core) s = execIzWst core s := rfl
@[simp] theorem exec_izWld64 {core} : exec (.izWld64 core) s = execIzWld64 core s := rfl
@[simp] theorem exec_izWst64 {core} : exec (.izWst64 core) s = execIzWst64 core s := rfl
@[simp] theorem exec_izEvt {core} : exec (.izEvt core) s = execIzEvt core s := rfl
@[simp] theorem exec_izCrc32c {core} : exec (.izCrc32c core) s = execIzCrc32c core s := rfl
@[simp] theorem exec_izGfmul {core} : exec (.izGfmul core) s = execIzGfmul core s := rfl
@[simp] theorem exec_izClmul {core} : exec (.izClmul core) s = execIzClmul core s := rfl
@[simp] theorem exec_izClmulh {core} : exec (.izClmulh core) s = execIzClmulh core s := rfl
@[simp] theorem exec_porNAssert : exec (.porNAssert) s = execPorNAssert s := rfl
@[simp] theorem exec_pwrfailNDeassert : exec (.pwrfailNDeassert) s = execPwrfailNDeassert s := rfl
@[simp] theorem exec_railBackInRange {rail} : exec (.railBackInRange rail) s = execRailBackInRange rail s := rfl
@[simp] theorem exec_perstDeassert : exec (.perstDeassert) s = execPerstDeassert s := rfl
@[simp] theorem exec_serviceButtonPress : exec (.serviceButtonPress) s = execServiceButtonPress s := rfl
@[simp] theorem exec_vfEnableSet {num} : exec (.vfEnableSet num) s = execVfEnableSet num s := rfl
@[simp] theorem exec_msixVectorUnmask {fn} {vec} : exec (.msixVectorUnmask fn vec) s = execMsixVectorUnmask fn vec s := rfl

end Sys2Proof.Machine
end

