-- ==== Sys2Proof/Laws/State.lean ====
section
/-!
SUPPORT. One lemma per field of State per basic update, true by rfl: no later proof unfolds a record update.
-/
namespace Sys2Proof.Machine

variable (s : State)

/-! ### regSet -/

@[simp] theorem regSet_pending (a v : Nat) : (regSet a v s).pending = s.pending := rfl
@[simp] theorem regSet_free (a v : Nat) : (regSet a v s).free = s.free := rfl
@[simp] theorem regSet_sent (a v : Nat) : (regSet a v s).sent = s.sent := rfl
@[simp] theorem regSet_pick (a v : Nat) : (regSet a v s).pick = s.pick := rfl
@[simp] theorem regSet_regs (a v : Nat) : (regSet a v s).regs = tset (BitVec.ofNat 64 (regReset a)) a (BitVec.ofNat 64 v) s.regs := rfl
@[simp] theorem regSet_snaps (a v : Nat) : (regSet a v s).snaps = s.snaps := rfl
@[simp] theorem regSet_due (a v : Nat) : (regSet a v s).due = s.due := rfl
@[simp] theorem regSet_lag (a v : Nat) : (regSet a v s).lag = s.lag := rfl
@[simp] theorem regSet_missed (a v : Nat) : (regSet a v s).missed = s.missed := rfl
@[simp] theorem regSet_weights (a v : Nat) : (regSet a v s).weights = s.weights := rfl
@[simp] theorem regSet_fenceTimes (a v : Nat) : (regSet a v s).fenceTimes = s.fenceTimes := rfl
@[simp] theorem regSet_fenceHeld (a v : Nat) : (regSet a v s).fenceHeld = s.fenceHeld := rfl
@[simp] theorem regSet_log (a v : Nat) : (regSet a v s).log = s.log := rfl
@[simp] theorem regSet_boot (a v : Nat) : (regSet a v s).boot = s.boot := rfl
@[simp] theorem regSet_cxl (a v : Nat) : (regSet a v s).cxl = s.cxl := rfl
@[simp] theorem regSet_fns (a v : Nat) : (regSet a v s).fns = s.fns := rfl
@[simp] theorem regSet_qe (a v : Nat) : (regSet a v s).qe = s.qe := rfl
@[simp] theorem regSet_nss (a v : Nat) : (regSet a v s).nss = s.nss := rfl
@[simp] theorem regSet_media (a v : Nat) : (regSet a v s).media = s.media := rfl
@[simp] theorem regSet_map (a v : Nat) : (regSet a v s).map = s.map := rfl
@[simp] theorem regSet_jnl (a v : Nat) : (regSet a v s).jnl = s.jnl := rfl
@[simp] theorem regSet_die (a v : Nat) : (regSet a v s).die = s.die := rfl
@[simp] theorem regSet_ddr (a v : Nat) : (regSet a v s).ddr = s.ddr := rfl
@[simp] theorem regSet_ham (a v : Nat) : (regSet a v s).ham = s.ham := rfl
@[simp] theorem regSet_hamPoison (a v : Nat) : (regSet a v s).hamPoison = s.hamPoison := rfl
@[simp] theorem regSet_hamErr (a v : Nat) : (regSet a v s).hamErr = s.hamErr := rfl
@[simp] theorem regSet_dram (a v : Nat) : (regSet a v s).dram = s.dram := rfl
@[simp] theorem regSet_dramPoison (a v : Nat) : (regSet a v s).dramPoison = s.dramPoison := rfl
@[simp] theorem regSet_dramErr (a v : Nat) : (regSet a v s).dramErr = s.dramErr := rfl
@[simp] theorem regSet_hamx (a v : Nat) : (regSet a v s).hamx = s.hamx := rfl
@[simp] theorem regSet_shus (a v : Nat) : (regSet a v s).shus = s.shus := rfl
@[simp] theorem regSet_lines (a v : Nat) : (regSet a v s).lines = s.lines := rfl
@[simp] theorem regSet_engs (a v : Nat) : (regSet a v s).engs = s.engs := rfl
@[simp] theorem regSet_jobSeq (a v : Nat) : (regSet a v s).jobSeq = s.jobSeq := rfl
@[simp] theorem regSet_digs (a v : Nat) : (regSet a v s).digs = s.digs := rfl
@[simp] theorem regSet_keys (a v : Nat) : (regSet a v s).keys = s.keys := rfl
@[simp] theorem regSet_hed (a v : Nat) : (regSet a v s).hed = s.hed := rfl
@[simp] theorem regSet_hgrp (a v : Nat) : (regSet a v s).hgrp = s.hgrp := rfl
@[simp] theorem regSet_laneSearch (a v : Nat) : (regSet a v s).laneSearch = s.laneSearch := rfl
@[simp] theorem regSet_icache (a v : Nat) : (regSet a v s).icache = s.icache := rfl
@[simp] theorem regSet_cores (a v : Nat) : (regSet a v s).cores = s.cores := rfl
@[simp] theorem regSet_tasks (a v : Nat) : (regSet a v s).tasks = s.tasks := rfl
@[simp] theorem regSet_ready (a v : Nat) : (regSet a v s).ready = s.ready := rfl
@[simp] theorem regSet_progs (a v : Nat) : (regSet a v s).progs = s.progs := rfl
@[simp] theorem regSet_runs (a v : Nat) : (regSet a v s).runs = s.runs := rfl
@[simp] theorem regSet_party (a v : Nat) : (regSet a v s).party = s.party := rfl
@[simp] theorem regSet_mender (a v : Nat) : (regSet a v s).mender = s.mender := rfl
@[simp] theorem regSet_svc (a v : Nat) : (regSet a v s).svc = s.svc := rfl
@[simp] theorem regSet_pwr (a v : Nat) : (regSet a v s).pwr = s.pwr := rfl

/-! ### later -/

@[simp] theorem later_pending (d : Due) : (later d s).pending = s.pending := rfl
@[simp] theorem later_free (d : Due) : (later d s).free = s.free := rfl
@[simp] theorem later_sent (d : Due) : (later d s).sent = s.sent := rfl
@[simp] theorem later_pick (d : Due) : (later d s).pick = s.pick := rfl
@[simp] theorem later_regs (d : Due) : (later d s).regs = s.regs := rfl
@[simp] theorem later_snaps (d : Due) : (later d s).snaps = s.snaps := rfl
@[simp] theorem later_due (d : Due) : (later d s).due = s.due ++ [d] := rfl
@[simp] theorem later_lag (d : Due) : (later d s).lag = s.lag := rfl
@[simp] theorem later_missed (d : Due) : (later d s).missed = s.missed := rfl
@[simp] theorem later_weights (d : Due) : (later d s).weights = s.weights := rfl
@[simp] theorem later_fenceTimes (d : Due) : (later d s).fenceTimes = s.fenceTimes := rfl
@[simp] theorem later_fenceHeld (d : Due) : (later d s).fenceHeld = s.fenceHeld := rfl
@[simp] theorem later_log (d : Due) : (later d s).log = s.log := rfl
@[simp] theorem later_boot (d : Due) : (later d s).boot = s.boot := rfl
@[simp] theorem later_cxl (d : Due) : (later d s).cxl = s.cxl := rfl
@[simp] theorem later_fns (d : Due) : (later d s).fns = s.fns := rfl
@[simp] theorem later_qe (d : Due) : (later d s).qe = s.qe := rfl
@[simp] theorem later_nss (d : Due) : (later d s).nss = s.nss := rfl
@[simp] theorem later_media (d : Due) : (later d s).media = s.media := rfl
@[simp] theorem later_map (d : Due) : (later d s).map = s.map := rfl
@[simp] theorem later_jnl (d : Due) : (later d s).jnl = s.jnl := rfl
@[simp] theorem later_die (d : Due) : (later d s).die = s.die := rfl
@[simp] theorem later_ddr (d : Due) : (later d s).ddr = s.ddr := rfl
@[simp] theorem later_ham (d : Due) : (later d s).ham = s.ham := rfl
@[simp] theorem later_hamPoison (d : Due) : (later d s).hamPoison = s.hamPoison := rfl
@[simp] theorem later_hamErr (d : Due) : (later d s).hamErr = s.hamErr := rfl
@[simp] theorem later_dram (d : Due) : (later d s).dram = s.dram := rfl
@[simp] theorem later_dramPoison (d : Due) : (later d s).dramPoison = s.dramPoison := rfl
@[simp] theorem later_dramErr (d : Due) : (later d s).dramErr = s.dramErr := rfl
@[simp] theorem later_hamx (d : Due) : (later d s).hamx = s.hamx := rfl
@[simp] theorem later_shus (d : Due) : (later d s).shus = s.shus := rfl
@[simp] theorem later_lines (d : Due) : (later d s).lines = s.lines := rfl
@[simp] theorem later_engs (d : Due) : (later d s).engs = s.engs := rfl
@[simp] theorem later_jobSeq (d : Due) : (later d s).jobSeq = s.jobSeq := rfl
@[simp] theorem later_digs (d : Due) : (later d s).digs = s.digs := rfl
@[simp] theorem later_keys (d : Due) : (later d s).keys = s.keys := rfl
@[simp] theorem later_hed (d : Due) : (later d s).hed = s.hed := rfl
@[simp] theorem later_hgrp (d : Due) : (later d s).hgrp = s.hgrp := rfl
@[simp] theorem later_laneSearch (d : Due) : (later d s).laneSearch = s.laneSearch := rfl
@[simp] theorem later_icache (d : Due) : (later d s).icache = s.icache := rfl
@[simp] theorem later_cores (d : Due) : (later d s).cores = s.cores := rfl
@[simp] theorem later_tasks (d : Due) : (later d s).tasks = s.tasks := rfl
@[simp] theorem later_ready (d : Due) : (later d s).ready = s.ready := rfl
@[simp] theorem later_progs (d : Due) : (later d s).progs = s.progs := rfl
@[simp] theorem later_runs (d : Due) : (later d s).runs = s.runs := rfl
@[simp] theorem later_party (d : Due) : (later d s).party = s.party := rfl
@[simp] theorem later_mender (d : Due) : (later d s).mender = s.mender := rfl
@[simp] theorem later_svc (d : Due) : (later d s).svc = s.svc := rfl
@[simp] theorem later_pwr (d : Due) : (later d s).pwr = s.pwr := rfl

/-! ### emit -/

@[simp] theorem emit_pending (m : Sent) : (emit m s).pending = s.pending := rfl
@[simp] theorem emit_free (m : Sent) : (emit m s).free = s.free := rfl
@[simp] theorem emit_sent (m : Sent) : (emit m s).sent = s.sent ++ [m] := rfl
@[simp] theorem emit_pick (m : Sent) : (emit m s).pick = s.pick := rfl
@[simp] theorem emit_regs (m : Sent) : (emit m s).regs = s.regs := rfl
@[simp] theorem emit_snaps (m : Sent) : (emit m s).snaps = s.snaps := rfl
@[simp] theorem emit_due (m : Sent) : (emit m s).due = s.due := rfl
@[simp] theorem emit_lag (m : Sent) : (emit m s).lag = s.lag := rfl
@[simp] theorem emit_missed (m : Sent) : (emit m s).missed = s.missed := rfl
@[simp] theorem emit_weights (m : Sent) : (emit m s).weights = s.weights := rfl
@[simp] theorem emit_fenceTimes (m : Sent) : (emit m s).fenceTimes = s.fenceTimes := rfl
@[simp] theorem emit_fenceHeld (m : Sent) : (emit m s).fenceHeld = s.fenceHeld := rfl
@[simp] theorem emit_log (m : Sent) : (emit m s).log = s.log := rfl
@[simp] theorem emit_boot (m : Sent) : (emit m s).boot = s.boot := rfl
@[simp] theorem emit_cxl (m : Sent) : (emit m s).cxl = s.cxl := rfl
@[simp] theorem emit_fns (m : Sent) : (emit m s).fns = s.fns := rfl
@[simp] theorem emit_qe (m : Sent) : (emit m s).qe = s.qe := rfl
@[simp] theorem emit_nss (m : Sent) : (emit m s).nss = s.nss := rfl
@[simp] theorem emit_media (m : Sent) : (emit m s).media = s.media := rfl
@[simp] theorem emit_map (m : Sent) : (emit m s).map = s.map := rfl
@[simp] theorem emit_jnl (m : Sent) : (emit m s).jnl = s.jnl := rfl
@[simp] theorem emit_die (m : Sent) : (emit m s).die = s.die := rfl
@[simp] theorem emit_ddr (m : Sent) : (emit m s).ddr = s.ddr := rfl
@[simp] theorem emit_ham (m : Sent) : (emit m s).ham = s.ham := rfl
@[simp] theorem emit_hamPoison (m : Sent) : (emit m s).hamPoison = s.hamPoison := rfl
@[simp] theorem emit_hamErr (m : Sent) : (emit m s).hamErr = s.hamErr := rfl
@[simp] theorem emit_dram (m : Sent) : (emit m s).dram = s.dram := rfl
@[simp] theorem emit_dramPoison (m : Sent) : (emit m s).dramPoison = s.dramPoison := rfl
@[simp] theorem emit_dramErr (m : Sent) : (emit m s).dramErr = s.dramErr := rfl
@[simp] theorem emit_hamx (m : Sent) : (emit m s).hamx = s.hamx := rfl
@[simp] theorem emit_shus (m : Sent) : (emit m s).shus = s.shus := rfl
@[simp] theorem emit_lines (m : Sent) : (emit m s).lines = s.lines := rfl
@[simp] theorem emit_engs (m : Sent) : (emit m s).engs = s.engs := rfl
@[simp] theorem emit_jobSeq (m : Sent) : (emit m s).jobSeq = s.jobSeq := rfl
@[simp] theorem emit_digs (m : Sent) : (emit m s).digs = s.digs := rfl
@[simp] theorem emit_keys (m : Sent) : (emit m s).keys = s.keys := rfl
@[simp] theorem emit_hed (m : Sent) : (emit m s).hed = s.hed := rfl
@[simp] theorem emit_hgrp (m : Sent) : (emit m s).hgrp = s.hgrp := rfl
@[simp] theorem emit_laneSearch (m : Sent) : (emit m s).laneSearch = s.laneSearch := rfl
@[simp] theorem emit_icache (m : Sent) : (emit m s).icache = s.icache := rfl
@[simp] theorem emit_cores (m : Sent) : (emit m s).cores = s.cores := rfl
@[simp] theorem emit_tasks (m : Sent) : (emit m s).tasks = s.tasks := rfl
@[simp] theorem emit_ready (m : Sent) : (emit m s).ready = s.ready := rfl
@[simp] theorem emit_progs (m : Sent) : (emit m s).progs = s.progs := rfl
@[simp] theorem emit_runs (m : Sent) : (emit m s).runs = s.runs := rfl
@[simp] theorem emit_party (m : Sent) : (emit m s).party = s.party := rfl
@[simp] theorem emit_mender (m : Sent) : (emit m s).mender = s.mender := rfl
@[simp] theorem emit_svc (m : Sent) : (emit m s).svc = s.svc := rfl
@[simp] theorem emit_pwr (m : Sent) : (emit m s).pwr = s.pwr := rfl

/-! ### fnSet -/

@[simp] theorem fnSet_pending (f : Nat) (x : Fn) : (fnSet f x s).pending = s.pending := rfl
@[simp] theorem fnSet_free (f : Nat) (x : Fn) : (fnSet f x s).free = s.free := rfl
@[simp] theorem fnSet_sent (f : Nat) (x : Fn) : (fnSet f x s).sent = s.sent := rfl
@[simp] theorem fnSet_pick (f : Nat) (x : Fn) : (fnSet f x s).pick = s.pick := rfl
@[simp] theorem fnSet_regs (f : Nat) (x : Fn) : (fnSet f x s).regs = s.regs := rfl
@[simp] theorem fnSet_snaps (f : Nat) (x : Fn) : (fnSet f x s).snaps = s.snaps := rfl
@[simp] theorem fnSet_due (f : Nat) (x : Fn) : (fnSet f x s).due = s.due := rfl
@[simp] theorem fnSet_lag (f : Nat) (x : Fn) : (fnSet f x s).lag = s.lag := rfl
@[simp] theorem fnSet_missed (f : Nat) (x : Fn) : (fnSet f x s).missed = s.missed := rfl
@[simp] theorem fnSet_weights (f : Nat) (x : Fn) : (fnSet f x s).weights = s.weights := rfl
@[simp] theorem fnSet_fenceTimes (f : Nat) (x : Fn) : (fnSet f x s).fenceTimes = s.fenceTimes := rfl
@[simp] theorem fnSet_fenceHeld (f : Nat) (x : Fn) : (fnSet f x s).fenceHeld = s.fenceHeld := rfl
@[simp] theorem fnSet_log (f : Nat) (x : Fn) : (fnSet f x s).log = s.log := rfl
@[simp] theorem fnSet_boot (f : Nat) (x : Fn) : (fnSet f x s).boot = s.boot := rfl
@[simp] theorem fnSet_cxl (f : Nat) (x : Fn) : (fnSet f x s).cxl = s.cxl := rfl
@[simp] theorem fnSet_fns (f : Nat) (x : Fn) : (fnSet f x s).fns = tset {} f x s.fns := rfl
@[simp] theorem fnSet_qe (f : Nat) (x : Fn) : (fnSet f x s).qe = s.qe := rfl
@[simp] theorem fnSet_nss (f : Nat) (x : Fn) : (fnSet f x s).nss = s.nss := rfl
@[simp] theorem fnSet_media (f : Nat) (x : Fn) : (fnSet f x s).media = s.media := rfl
@[simp] theorem fnSet_map (f : Nat) (x : Fn) : (fnSet f x s).map = s.map := rfl
@[simp] theorem fnSet_jnl (f : Nat) (x : Fn) : (fnSet f x s).jnl = s.jnl := rfl
@[simp] theorem fnSet_die (f : Nat) (x : Fn) : (fnSet f x s).die = s.die := rfl
@[simp] theorem fnSet_ddr (f : Nat) (x : Fn) : (fnSet f x s).ddr = s.ddr := rfl
@[simp] theorem fnSet_ham (f : Nat) (x : Fn) : (fnSet f x s).ham = s.ham := rfl
@[simp] theorem fnSet_hamPoison (f : Nat) (x : Fn) : (fnSet f x s).hamPoison = s.hamPoison := rfl
@[simp] theorem fnSet_hamErr (f : Nat) (x : Fn) : (fnSet f x s).hamErr = s.hamErr := rfl
@[simp] theorem fnSet_dram (f : Nat) (x : Fn) : (fnSet f x s).dram = s.dram := rfl
@[simp] theorem fnSet_dramPoison (f : Nat) (x : Fn) : (fnSet f x s).dramPoison = s.dramPoison := rfl
@[simp] theorem fnSet_dramErr (f : Nat) (x : Fn) : (fnSet f x s).dramErr = s.dramErr := rfl
@[simp] theorem fnSet_hamx (f : Nat) (x : Fn) : (fnSet f x s).hamx = s.hamx := rfl
@[simp] theorem fnSet_shus (f : Nat) (x : Fn) : (fnSet f x s).shus = s.shus := rfl
@[simp] theorem fnSet_lines (f : Nat) (x : Fn) : (fnSet f x s).lines = s.lines := rfl
@[simp] theorem fnSet_engs (f : Nat) (x : Fn) : (fnSet f x s).engs = s.engs := rfl
@[simp] theorem fnSet_jobSeq (f : Nat) (x : Fn) : (fnSet f x s).jobSeq = s.jobSeq := rfl
@[simp] theorem fnSet_digs (f : Nat) (x : Fn) : (fnSet f x s).digs = s.digs := rfl
@[simp] theorem fnSet_keys (f : Nat) (x : Fn) : (fnSet f x s).keys = s.keys := rfl
@[simp] theorem fnSet_hed (f : Nat) (x : Fn) : (fnSet f x s).hed = s.hed := rfl
@[simp] theorem fnSet_hgrp (f : Nat) (x : Fn) : (fnSet f x s).hgrp = s.hgrp := rfl
@[simp] theorem fnSet_laneSearch (f : Nat) (x : Fn) : (fnSet f x s).laneSearch = s.laneSearch := rfl
@[simp] theorem fnSet_icache (f : Nat) (x : Fn) : (fnSet f x s).icache = s.icache := rfl
@[simp] theorem fnSet_cores (f : Nat) (x : Fn) : (fnSet f x s).cores = s.cores := rfl
@[simp] theorem fnSet_tasks (f : Nat) (x : Fn) : (fnSet f x s).tasks = s.tasks := rfl
@[simp] theorem fnSet_ready (f : Nat) (x : Fn) : (fnSet f x s).ready = s.ready := rfl
@[simp] theorem fnSet_progs (f : Nat) (x : Fn) : (fnSet f x s).progs = s.progs := rfl
@[simp] theorem fnSet_runs (f : Nat) (x : Fn) : (fnSet f x s).runs = s.runs := rfl
@[simp] theorem fnSet_party (f : Nat) (x : Fn) : (fnSet f x s).party = s.party := rfl
@[simp] theorem fnSet_mender (f : Nat) (x : Fn) : (fnSet f x s).mender = s.mender := rfl
@[simp] theorem fnSet_svc (f : Nat) (x : Fn) : (fnSet f x s).svc = s.svc := rfl
@[simp] theorem fnSet_pwr (f : Nat) (x : Fn) : (fnSet f x s).pwr = s.pwr := rfl

/-! ### ctxSet -/

@[simp] theorem ctxSet_pending (c : Nat) (x : Ctx) : (ctxSet c x s).pending = s.pending := rfl
@[simp] theorem ctxSet_free (c : Nat) (x : Ctx) : (ctxSet c x s).free = s.free := rfl
@[simp] theorem ctxSet_sent (c : Nat) (x : Ctx) : (ctxSet c x s).sent = s.sent := rfl
@[simp] theorem ctxSet_pick (c : Nat) (x : Ctx) : (ctxSet c x s).pick = s.pick := rfl
@[simp] theorem ctxSet_regs (c : Nat) (x : Ctx) : (ctxSet c x s).regs = s.regs := rfl
@[simp] theorem ctxSet_snaps (c : Nat) (x : Ctx) : (ctxSet c x s).snaps = s.snaps := rfl
@[simp] theorem ctxSet_due (c : Nat) (x : Ctx) : (ctxSet c x s).due = s.due := rfl
@[simp] theorem ctxSet_lag (c : Nat) (x : Ctx) : (ctxSet c x s).lag = s.lag := rfl
@[simp] theorem ctxSet_missed (c : Nat) (x : Ctx) : (ctxSet c x s).missed = s.missed := rfl
@[simp] theorem ctxSet_weights (c : Nat) (x : Ctx) : (ctxSet c x s).weights = s.weights := rfl
@[simp] theorem ctxSet_fenceTimes (c : Nat) (x : Ctx) : (ctxSet c x s).fenceTimes = s.fenceTimes := rfl
@[simp] theorem ctxSet_fenceHeld (c : Nat) (x : Ctx) : (ctxSet c x s).fenceHeld = s.fenceHeld := rfl
@[simp] theorem ctxSet_log (c : Nat) (x : Ctx) : (ctxSet c x s).log = s.log := rfl
@[simp] theorem ctxSet_boot (c : Nat) (x : Ctx) : (ctxSet c x s).boot = s.boot := rfl
@[simp] theorem ctxSet_cxl (c : Nat) (x : Ctx) : (ctxSet c x s).cxl = s.cxl := rfl
@[simp] theorem ctxSet_fns (c : Nat) (x : Ctx) : (ctxSet c x s).fns = s.fns := rfl
@[simp] theorem ctxSet_qe (c : Nat) (x : Ctx) : (ctxSet c x s).qe = { s.qe with ctxs := tset {} c x s.qe.ctxs } := rfl
@[simp] theorem ctxSet_nss (c : Nat) (x : Ctx) : (ctxSet c x s).nss = s.nss := rfl
@[simp] theorem ctxSet_media (c : Nat) (x : Ctx) : (ctxSet c x s).media = s.media := rfl
@[simp] theorem ctxSet_map (c : Nat) (x : Ctx) : (ctxSet c x s).map = s.map := rfl
@[simp] theorem ctxSet_jnl (c : Nat) (x : Ctx) : (ctxSet c x s).jnl = s.jnl := rfl
@[simp] theorem ctxSet_die (c : Nat) (x : Ctx) : (ctxSet c x s).die = s.die := rfl
@[simp] theorem ctxSet_ddr (c : Nat) (x : Ctx) : (ctxSet c x s).ddr = s.ddr := rfl
@[simp] theorem ctxSet_ham (c : Nat) (x : Ctx) : (ctxSet c x s).ham = s.ham := rfl
@[simp] theorem ctxSet_hamPoison (c : Nat) (x : Ctx) : (ctxSet c x s).hamPoison = s.hamPoison := rfl
@[simp] theorem ctxSet_hamErr (c : Nat) (x : Ctx) : (ctxSet c x s).hamErr = s.hamErr := rfl
@[simp] theorem ctxSet_dram (c : Nat) (x : Ctx) : (ctxSet c x s).dram = s.dram := rfl
@[simp] theorem ctxSet_dramPoison (c : Nat) (x : Ctx) : (ctxSet c x s).dramPoison = s.dramPoison := rfl
@[simp] theorem ctxSet_dramErr (c : Nat) (x : Ctx) : (ctxSet c x s).dramErr = s.dramErr := rfl
@[simp] theorem ctxSet_hamx (c : Nat) (x : Ctx) : (ctxSet c x s).hamx = s.hamx := rfl
@[simp] theorem ctxSet_shus (c : Nat) (x : Ctx) : (ctxSet c x s).shus = s.shus := rfl
@[simp] theorem ctxSet_lines (c : Nat) (x : Ctx) : (ctxSet c x s).lines = s.lines := rfl
@[simp] theorem ctxSet_engs (c : Nat) (x : Ctx) : (ctxSet c x s).engs = s.engs := rfl
@[simp] theorem ctxSet_jobSeq (c : Nat) (x : Ctx) : (ctxSet c x s).jobSeq = s.jobSeq := rfl
@[simp] theorem ctxSet_digs (c : Nat) (x : Ctx) : (ctxSet c x s).digs = s.digs := rfl
@[simp] theorem ctxSet_keys (c : Nat) (x : Ctx) : (ctxSet c x s).keys = s.keys := rfl
@[simp] theorem ctxSet_hed (c : Nat) (x : Ctx) : (ctxSet c x s).hed = s.hed := rfl
@[simp] theorem ctxSet_hgrp (c : Nat) (x : Ctx) : (ctxSet c x s).hgrp = s.hgrp := rfl
@[simp] theorem ctxSet_laneSearch (c : Nat) (x : Ctx) : (ctxSet c x s).laneSearch = s.laneSearch := rfl
@[simp] theorem ctxSet_icache (c : Nat) (x : Ctx) : (ctxSet c x s).icache = s.icache := rfl
@[simp] theorem ctxSet_cores (c : Nat) (x : Ctx) : (ctxSet c x s).cores = s.cores := rfl
@[simp] theorem ctxSet_tasks (c : Nat) (x : Ctx) : (ctxSet c x s).tasks = s.tasks := rfl
@[simp] theorem ctxSet_ready (c : Nat) (x : Ctx) : (ctxSet c x s).ready = s.ready := rfl
@[simp] theorem ctxSet_progs (c : Nat) (x : Ctx) : (ctxSet c x s).progs = s.progs := rfl
@[simp] theorem ctxSet_runs (c : Nat) (x : Ctx) : (ctxSet c x s).runs = s.runs := rfl
@[simp] theorem ctxSet_party (c : Nat) (x : Ctx) : (ctxSet c x s).party = s.party := rfl
@[simp] theorem ctxSet_mender (c : Nat) (x : Ctx) : (ctxSet c x s).mender = s.mender := rfl
@[simp] theorem ctxSet_svc (c : Nat) (x : Ctx) : (ctxSet c x s).svc = s.svc := rfl
@[simp] theorem ctxSet_pwr (c : Nat) (x : Ctx) : (ctxSet c x s).pwr = s.pwr := rfl

/-! ### nsSet -/

@[simp] theorem nsSet_pending (n : Nat) (x : Namespace) : (nsSet n x s).pending = s.pending := rfl
@[simp] theorem nsSet_free (n : Nat) (x : Namespace) : (nsSet n x s).free = s.free := rfl
@[simp] theorem nsSet_sent (n : Nat) (x : Namespace) : (nsSet n x s).sent = s.sent := rfl
@[simp] theorem nsSet_pick (n : Nat) (x : Namespace) : (nsSet n x s).pick = s.pick := rfl
@[simp] theorem nsSet_regs (n : Nat) (x : Namespace) : (nsSet n x s).regs = s.regs := rfl
@[simp] theorem nsSet_snaps (n : Nat) (x : Namespace) : (nsSet n x s).snaps = s.snaps := rfl
@[simp] theorem nsSet_due (n : Nat) (x : Namespace) : (nsSet n x s).due = s.due := rfl
@[simp] theorem nsSet_lag (n : Nat) (x : Namespace) : (nsSet n x s).lag = s.lag := rfl
@[simp] theorem nsSet_missed (n : Nat) (x : Namespace) : (nsSet n x s).missed = s.missed := rfl
@[simp] theorem nsSet_weights (n : Nat) (x : Namespace) : (nsSet n x s).weights = s.weights := rfl
@[simp] theorem nsSet_fenceTimes (n : Nat) (x : Namespace) : (nsSet n x s).fenceTimes = s.fenceTimes := rfl
@[simp] theorem nsSet_fenceHeld (n : Nat) (x : Namespace) : (nsSet n x s).fenceHeld = s.fenceHeld := rfl
@[simp] theorem nsSet_log (n : Nat) (x : Namespace) : (nsSet n x s).log = s.log := rfl
@[simp] theorem nsSet_boot (n : Nat) (x : Namespace) : (nsSet n x s).boot = s.boot := rfl
@[simp] theorem nsSet_cxl (n : Nat) (x : Namespace) : (nsSet n x s).cxl = s.cxl := rfl
@[simp] theorem nsSet_fns (n : Nat) (x : Namespace) : (nsSet n x s).fns = s.fns := rfl
@[simp] theorem nsSet_qe (n : Nat) (x : Namespace) : (nsSet n x s).qe = s.qe := rfl
@[simp] theorem nsSet_nss (n : Nat) (x : Namespace) : (nsSet n x s).nss = tset {} n x s.nss := rfl
@[simp] theorem nsSet_media (n : Nat) (x : Namespace) : (nsSet n x s).media = s.media := rfl
@[simp] theorem nsSet_map (n : Nat) (x : Namespace) : (nsSet n x s).map = s.map := rfl
@[simp] theorem nsSet_jnl (n : Nat) (x : Namespace) : (nsSet n x s).jnl = s.jnl := rfl
@[simp] theorem nsSet_die (n : Nat) (x : Namespace) : (nsSet n x s).die = s.die := rfl
@[simp] theorem nsSet_ddr (n : Nat) (x : Namespace) : (nsSet n x s).ddr = s.ddr := rfl
@[simp] theorem nsSet_ham (n : Nat) (x : Namespace) : (nsSet n x s).ham = s.ham := rfl
@[simp] theorem nsSet_hamPoison (n : Nat) (x : Namespace) : (nsSet n x s).hamPoison = s.hamPoison := rfl
@[simp] theorem nsSet_hamErr (n : Nat) (x : Namespace) : (nsSet n x s).hamErr = s.hamErr := rfl
@[simp] theorem nsSet_dram (n : Nat) (x : Namespace) : (nsSet n x s).dram = s.dram := rfl
@[simp] theorem nsSet_dramPoison (n : Nat) (x : Namespace) : (nsSet n x s).dramPoison = s.dramPoison := rfl
@[simp] theorem nsSet_dramErr (n : Nat) (x : Namespace) : (nsSet n x s).dramErr = s.dramErr := rfl
@[simp] theorem nsSet_hamx (n : Nat) (x : Namespace) : (nsSet n x s).hamx = s.hamx := rfl
@[simp] theorem nsSet_shus (n : Nat) (x : Namespace) : (nsSet n x s).shus = s.shus := rfl
@[simp] theorem nsSet_lines (n : Nat) (x : Namespace) : (nsSet n x s).lines = s.lines := rfl
@[simp] theorem nsSet_engs (n : Nat) (x : Namespace) : (nsSet n x s).engs = s.engs := rfl
@[simp] theorem nsSet_jobSeq (n : Nat) (x : Namespace) : (nsSet n x s).jobSeq = s.jobSeq := rfl
@[simp] theorem nsSet_digs (n : Nat) (x : Namespace) : (nsSet n x s).digs = s.digs := rfl
@[simp] theorem nsSet_keys (n : Nat) (x : Namespace) : (nsSet n x s).keys = s.keys := rfl
@[simp] theorem nsSet_hed (n : Nat) (x : Namespace) : (nsSet n x s).hed = s.hed := rfl
@[simp] theorem nsSet_hgrp (n : Nat) (x : Namespace) : (nsSet n x s).hgrp = s.hgrp := rfl
@[simp] theorem nsSet_laneSearch (n : Nat) (x : Namespace) : (nsSet n x s).laneSearch = s.laneSearch := rfl
@[simp] theorem nsSet_icache (n : Nat) (x : Namespace) : (nsSet n x s).icache = s.icache := rfl
@[simp] theorem nsSet_cores (n : Nat) (x : Namespace) : (nsSet n x s).cores = s.cores := rfl
@[simp] theorem nsSet_tasks (n : Nat) (x : Namespace) : (nsSet n x s).tasks = s.tasks := rfl
@[simp] theorem nsSet_ready (n : Nat) (x : Namespace) : (nsSet n x s).ready = s.ready := rfl
@[simp] theorem nsSet_progs (n : Nat) (x : Namespace) : (nsSet n x s).progs = s.progs := rfl
@[simp] theorem nsSet_runs (n : Nat) (x : Namespace) : (nsSet n x s).runs = s.runs := rfl
@[simp] theorem nsSet_party (n : Nat) (x : Namespace) : (nsSet n x s).party = s.party := rfl
@[simp] theorem nsSet_mender (n : Nat) (x : Namespace) : (nsSet n x s).mender = s.mender := rfl
@[simp] theorem nsSet_svc (n : Nat) (x : Namespace) : (nsSet n x s).svc = s.svc := rfl
@[simp] theorem nsSet_pwr (n : Nat) (x : Namespace) : (nsSet n x s).pwr = s.pwr := rfl

/-! ### taskSet -/

@[simp] theorem taskSet_pending (t : Nat) (x : Task) : (taskSet t x s).pending = s.pending := rfl
@[simp] theorem taskSet_free (t : Nat) (x : Task) : (taskSet t x s).free = s.free := rfl
@[simp] theorem taskSet_sent (t : Nat) (x : Task) : (taskSet t x s).sent = s.sent := rfl
@[simp] theorem taskSet_pick (t : Nat) (x : Task) : (taskSet t x s).pick = s.pick := rfl
@[simp] theorem taskSet_regs (t : Nat) (x : Task) : (taskSet t x s).regs = s.regs := rfl
@[simp] theorem taskSet_snaps (t : Nat) (x : Task) : (taskSet t x s).snaps = s.snaps := rfl
@[simp] theorem taskSet_due (t : Nat) (x : Task) : (taskSet t x s).due = s.due := rfl
@[simp] theorem taskSet_lag (t : Nat) (x : Task) : (taskSet t x s).lag = s.lag := rfl
@[simp] theorem taskSet_missed (t : Nat) (x : Task) : (taskSet t x s).missed = s.missed := rfl
@[simp] theorem taskSet_weights (t : Nat) (x : Task) : (taskSet t x s).weights = s.weights := rfl
@[simp] theorem taskSet_fenceTimes (t : Nat) (x : Task) : (taskSet t x s).fenceTimes = s.fenceTimes := rfl
@[simp] theorem taskSet_fenceHeld (t : Nat) (x : Task) : (taskSet t x s).fenceHeld = s.fenceHeld := rfl
@[simp] theorem taskSet_log (t : Nat) (x : Task) : (taskSet t x s).log = s.log := rfl
@[simp] theorem taskSet_boot (t : Nat) (x : Task) : (taskSet t x s).boot = s.boot := rfl
@[simp] theorem taskSet_cxl (t : Nat) (x : Task) : (taskSet t x s).cxl = s.cxl := rfl
@[simp] theorem taskSet_fns (t : Nat) (x : Task) : (taskSet t x s).fns = s.fns := rfl
@[simp] theorem taskSet_qe (t : Nat) (x : Task) : (taskSet t x s).qe = s.qe := rfl
@[simp] theorem taskSet_nss (t : Nat) (x : Task) : (taskSet t x s).nss = s.nss := rfl
@[simp] theorem taskSet_media (t : Nat) (x : Task) : (taskSet t x s).media = s.media := rfl
@[simp] theorem taskSet_map (t : Nat) (x : Task) : (taskSet t x s).map = s.map := rfl
@[simp] theorem taskSet_jnl (t : Nat) (x : Task) : (taskSet t x s).jnl = s.jnl := rfl
@[simp] theorem taskSet_die (t : Nat) (x : Task) : (taskSet t x s).die = s.die := rfl
@[simp] theorem taskSet_ddr (t : Nat) (x : Task) : (taskSet t x s).ddr = s.ddr := rfl
@[simp] theorem taskSet_ham (t : Nat) (x : Task) : (taskSet t x s).ham = s.ham := rfl
@[simp] theorem taskSet_hamPoison (t : Nat) (x : Task) : (taskSet t x s).hamPoison = s.hamPoison := rfl
@[simp] theorem taskSet_hamErr (t : Nat) (x : Task) : (taskSet t x s).hamErr = s.hamErr := rfl
@[simp] theorem taskSet_dram (t : Nat) (x : Task) : (taskSet t x s).dram = s.dram := rfl
@[simp] theorem taskSet_dramPoison (t : Nat) (x : Task) : (taskSet t x s).dramPoison = s.dramPoison := rfl
@[simp] theorem taskSet_dramErr (t : Nat) (x : Task) : (taskSet t x s).dramErr = s.dramErr := rfl
@[simp] theorem taskSet_hamx (t : Nat) (x : Task) : (taskSet t x s).hamx = s.hamx := rfl
@[simp] theorem taskSet_shus (t : Nat) (x : Task) : (taskSet t x s).shus = s.shus := rfl
@[simp] theorem taskSet_lines (t : Nat) (x : Task) : (taskSet t x s).lines = s.lines := rfl
@[simp] theorem taskSet_engs (t : Nat) (x : Task) : (taskSet t x s).engs = s.engs := rfl
@[simp] theorem taskSet_jobSeq (t : Nat) (x : Task) : (taskSet t x s).jobSeq = s.jobSeq := rfl
@[simp] theorem taskSet_digs (t : Nat) (x : Task) : (taskSet t x s).digs = s.digs := rfl
@[simp] theorem taskSet_keys (t : Nat) (x : Task) : (taskSet t x s).keys = s.keys := rfl
@[simp] theorem taskSet_hed (t : Nat) (x : Task) : (taskSet t x s).hed = s.hed := rfl
@[simp] theorem taskSet_hgrp (t : Nat) (x : Task) : (taskSet t x s).hgrp = s.hgrp := rfl
@[simp] theorem taskSet_laneSearch (t : Nat) (x : Task) : (taskSet t x s).laneSearch = s.laneSearch := rfl
@[simp] theorem taskSet_icache (t : Nat) (x : Task) : (taskSet t x s).icache = s.icache := rfl
@[simp] theorem taskSet_cores (t : Nat) (x : Task) : (taskSet t x s).cores = s.cores := rfl
@[simp] theorem taskSet_tasks (t : Nat) (x : Task) : (taskSet t x s).tasks = tset {} t x s.tasks := rfl
@[simp] theorem taskSet_ready (t : Nat) (x : Task) : (taskSet t x s).ready = s.ready := rfl
@[simp] theorem taskSet_progs (t : Nat) (x : Task) : (taskSet t x s).progs = s.progs := rfl
@[simp] theorem taskSet_runs (t : Nat) (x : Task) : (taskSet t x s).runs = s.runs := rfl
@[simp] theorem taskSet_party (t : Nat) (x : Task) : (taskSet t x s).party = s.party := rfl
@[simp] theorem taskSet_mender (t : Nat) (x : Task) : (taskSet t x s).mender = s.mender := rfl
@[simp] theorem taskSet_svc (t : Nat) (x : Task) : (taskSet t x s).svc = s.svc := rfl
@[simp] theorem taskSet_pwr (t : Nat) (x : Task) : (taskSet t x s).pwr = s.pwr := rfl

/-! ### coreSet -/

@[simp] theorem coreSet_pending (n : Nat) (x : Core) : (coreSet n x s).pending = s.pending := rfl
@[simp] theorem coreSet_free (n : Nat) (x : Core) : (coreSet n x s).free = s.free := rfl
@[simp] theorem coreSet_sent (n : Nat) (x : Core) : (coreSet n x s).sent = s.sent := rfl
@[simp] theorem coreSet_pick (n : Nat) (x : Core) : (coreSet n x s).pick = s.pick := rfl
@[simp] theorem coreSet_regs (n : Nat) (x : Core) : (coreSet n x s).regs = s.regs := rfl
@[simp] theorem coreSet_snaps (n : Nat) (x : Core) : (coreSet n x s).snaps = s.snaps := rfl
@[simp] theorem coreSet_due (n : Nat) (x : Core) : (coreSet n x s).due = s.due := rfl
@[simp] theorem coreSet_lag (n : Nat) (x : Core) : (coreSet n x s).lag = s.lag := rfl
@[simp] theorem coreSet_missed (n : Nat) (x : Core) : (coreSet n x s).missed = s.missed := rfl
@[simp] theorem coreSet_weights (n : Nat) (x : Core) : (coreSet n x s).weights = s.weights := rfl
@[simp] theorem coreSet_fenceTimes (n : Nat) (x : Core) : (coreSet n x s).fenceTimes = s.fenceTimes := rfl
@[simp] theorem coreSet_fenceHeld (n : Nat) (x : Core) : (coreSet n x s).fenceHeld = s.fenceHeld := rfl
@[simp] theorem coreSet_log (n : Nat) (x : Core) : (coreSet n x s).log = s.log := rfl
@[simp] theorem coreSet_boot (n : Nat) (x : Core) : (coreSet n x s).boot = s.boot := rfl
@[simp] theorem coreSet_cxl (n : Nat) (x : Core) : (coreSet n x s).cxl = s.cxl := rfl
@[simp] theorem coreSet_fns (n : Nat) (x : Core) : (coreSet n x s).fns = s.fns := rfl
@[simp] theorem coreSet_qe (n : Nat) (x : Core) : (coreSet n x s).qe = s.qe := rfl
@[simp] theorem coreSet_nss (n : Nat) (x : Core) : (coreSet n x s).nss = s.nss := rfl
@[simp] theorem coreSet_media (n : Nat) (x : Core) : (coreSet n x s).media = s.media := rfl
@[simp] theorem coreSet_map (n : Nat) (x : Core) : (coreSet n x s).map = s.map := rfl
@[simp] theorem coreSet_jnl (n : Nat) (x : Core) : (coreSet n x s).jnl = s.jnl := rfl
@[simp] theorem coreSet_die (n : Nat) (x : Core) : (coreSet n x s).die = s.die := rfl
@[simp] theorem coreSet_ddr (n : Nat) (x : Core) : (coreSet n x s).ddr = s.ddr := rfl
@[simp] theorem coreSet_ham (n : Nat) (x : Core) : (coreSet n x s).ham = s.ham := rfl
@[simp] theorem coreSet_hamPoison (n : Nat) (x : Core) : (coreSet n x s).hamPoison = s.hamPoison := rfl
@[simp] theorem coreSet_hamErr (n : Nat) (x : Core) : (coreSet n x s).hamErr = s.hamErr := rfl
@[simp] theorem coreSet_dram (n : Nat) (x : Core) : (coreSet n x s).dram = s.dram := rfl
@[simp] theorem coreSet_dramPoison (n : Nat) (x : Core) : (coreSet n x s).dramPoison = s.dramPoison := rfl
@[simp] theorem coreSet_dramErr (n : Nat) (x : Core) : (coreSet n x s).dramErr = s.dramErr := rfl
@[simp] theorem coreSet_hamx (n : Nat) (x : Core) : (coreSet n x s).hamx = s.hamx := rfl
@[simp] theorem coreSet_shus (n : Nat) (x : Core) : (coreSet n x s).shus = s.shus := rfl
@[simp] theorem coreSet_lines (n : Nat) (x : Core) : (coreSet n x s).lines = s.lines := rfl
@[simp] theorem coreSet_engs (n : Nat) (x : Core) : (coreSet n x s).engs = s.engs := rfl
@[simp] theorem coreSet_jobSeq (n : Nat) (x : Core) : (coreSet n x s).jobSeq = s.jobSeq := rfl
@[simp] theorem coreSet_digs (n : Nat) (x : Core) : (coreSet n x s).digs = s.digs := rfl
@[simp] theorem coreSet_keys (n : Nat) (x : Core) : (coreSet n x s).keys = s.keys := rfl
@[simp] theorem coreSet_hed (n : Nat) (x : Core) : (coreSet n x s).hed = s.hed := rfl
@[simp] theorem coreSet_hgrp (n : Nat) (x : Core) : (coreSet n x s).hgrp = s.hgrp := rfl
@[simp] theorem coreSet_laneSearch (n : Nat) (x : Core) : (coreSet n x s).laneSearch = s.laneSearch := rfl
@[simp] theorem coreSet_icache (n : Nat) (x : Core) : (coreSet n x s).icache = s.icache := rfl
@[simp] theorem coreSet_cores (n : Nat) (x : Core) : (coreSet n x s).cores = tset {} n x s.cores := rfl
@[simp] theorem coreSet_tasks (n : Nat) (x : Core) : (coreSet n x s).tasks = s.tasks := rfl
@[simp] theorem coreSet_ready (n : Nat) (x : Core) : (coreSet n x s).ready = s.ready := rfl
@[simp] theorem coreSet_progs (n : Nat) (x : Core) : (coreSet n x s).progs = s.progs := rfl
@[simp] theorem coreSet_runs (n : Nat) (x : Core) : (coreSet n x s).runs = s.runs := rfl
@[simp] theorem coreSet_party (n : Nat) (x : Core) : (coreSet n x s).party = s.party := rfl
@[simp] theorem coreSet_mender (n : Nat) (x : Core) : (coreSet n x s).mender = s.mender := rfl
@[simp] theorem coreSet_svc (n : Nat) (x : Core) : (coreSet n x s).svc = s.svc := rfl
@[simp] theorem coreSet_pwr (n : Nat) (x : Core) : (coreSet n x s).pwr = s.pwr := rfl

/-! ### readySet -/

@[simp] theorem readySet_pending (k : Nat) (l : List Nat) : (readySet k l s).pending = s.pending := rfl
@[simp] theorem readySet_free (k : Nat) (l : List Nat) : (readySet k l s).free = s.free := rfl
@[simp] theorem readySet_sent (k : Nat) (l : List Nat) : (readySet k l s).sent = s.sent := rfl
@[simp] theorem readySet_pick (k : Nat) (l : List Nat) : (readySet k l s).pick = s.pick := rfl
@[simp] theorem readySet_regs (k : Nat) (l : List Nat) : (readySet k l s).regs = s.regs := rfl
@[simp] theorem readySet_snaps (k : Nat) (l : List Nat) : (readySet k l s).snaps = s.snaps := rfl
@[simp] theorem readySet_due (k : Nat) (l : List Nat) : (readySet k l s).due = s.due := rfl
@[simp] theorem readySet_lag (k : Nat) (l : List Nat) : (readySet k l s).lag = s.lag := rfl
@[simp] theorem readySet_missed (k : Nat) (l : List Nat) : (readySet k l s).missed = s.missed := rfl
@[simp] theorem readySet_weights (k : Nat) (l : List Nat) : (readySet k l s).weights = s.weights := rfl
@[simp] theorem readySet_fenceTimes (k : Nat) (l : List Nat) : (readySet k l s).fenceTimes = s.fenceTimes := rfl
@[simp] theorem readySet_fenceHeld (k : Nat) (l : List Nat) : (readySet k l s).fenceHeld = s.fenceHeld := rfl
@[simp] theorem readySet_log (k : Nat) (l : List Nat) : (readySet k l s).log = s.log := rfl
@[simp] theorem readySet_boot (k : Nat) (l : List Nat) : (readySet k l s).boot = s.boot := rfl
@[simp] theorem readySet_cxl (k : Nat) (l : List Nat) : (readySet k l s).cxl = s.cxl := rfl
@[simp] theorem readySet_fns (k : Nat) (l : List Nat) : (readySet k l s).fns = s.fns := rfl
@[simp] theorem readySet_qe (k : Nat) (l : List Nat) : (readySet k l s).qe = s.qe := rfl
@[simp] theorem readySet_nss (k : Nat) (l : List Nat) : (readySet k l s).nss = s.nss := rfl
@[simp] theorem readySet_media (k : Nat) (l : List Nat) : (readySet k l s).media = s.media := rfl
@[simp] theorem readySet_map (k : Nat) (l : List Nat) : (readySet k l s).map = s.map := rfl
@[simp] theorem readySet_jnl (k : Nat) (l : List Nat) : (readySet k l s).jnl = s.jnl := rfl
@[simp] theorem readySet_die (k : Nat) (l : List Nat) : (readySet k l s).die = s.die := rfl
@[simp] theorem readySet_ddr (k : Nat) (l : List Nat) : (readySet k l s).ddr = s.ddr := rfl
@[simp] theorem readySet_ham (k : Nat) (l : List Nat) : (readySet k l s).ham = s.ham := rfl
@[simp] theorem readySet_hamPoison (k : Nat) (l : List Nat) : (readySet k l s).hamPoison = s.hamPoison := rfl
@[simp] theorem readySet_hamErr (k : Nat) (l : List Nat) : (readySet k l s).hamErr = s.hamErr := rfl
@[simp] theorem readySet_dram (k : Nat) (l : List Nat) : (readySet k l s).dram = s.dram := rfl
@[simp] theorem readySet_dramPoison (k : Nat) (l : List Nat) : (readySet k l s).dramPoison = s.dramPoison := rfl
@[simp] theorem readySet_dramErr (k : Nat) (l : List Nat) : (readySet k l s).dramErr = s.dramErr := rfl
@[simp] theorem readySet_hamx (k : Nat) (l : List Nat) : (readySet k l s).hamx = s.hamx := rfl
@[simp] theorem readySet_shus (k : Nat) (l : List Nat) : (readySet k l s).shus = s.shus := rfl
@[simp] theorem readySet_lines (k : Nat) (l : List Nat) : (readySet k l s).lines = s.lines := rfl
@[simp] theorem readySet_engs (k : Nat) (l : List Nat) : (readySet k l s).engs = s.engs := rfl
@[simp] theorem readySet_jobSeq (k : Nat) (l : List Nat) : (readySet k l s).jobSeq = s.jobSeq := rfl
@[simp] theorem readySet_digs (k : Nat) (l : List Nat) : (readySet k l s).digs = s.digs := rfl
@[simp] theorem readySet_keys (k : Nat) (l : List Nat) : (readySet k l s).keys = s.keys := rfl
@[simp] theorem readySet_hed (k : Nat) (l : List Nat) : (readySet k l s).hed = s.hed := rfl
@[simp] theorem readySet_hgrp (k : Nat) (l : List Nat) : (readySet k l s).hgrp = s.hgrp := rfl
@[simp] theorem readySet_laneSearch (k : Nat) (l : List Nat) : (readySet k l s).laneSearch = s.laneSearch := rfl
@[simp] theorem readySet_icache (k : Nat) (l : List Nat) : (readySet k l s).icache = s.icache := rfl
@[simp] theorem readySet_cores (k : Nat) (l : List Nat) : (readySet k l s).cores = s.cores := rfl
@[simp] theorem readySet_tasks (k : Nat) (l : List Nat) : (readySet k l s).tasks = s.tasks := rfl
@[simp] theorem readySet_ready (k : Nat) (l : List Nat) : (readySet k l s).ready = tset [] k l s.ready := rfl
@[simp] theorem readySet_progs (k : Nat) (l : List Nat) : (readySet k l s).progs = s.progs := rfl
@[simp] theorem readySet_runs (k : Nat) (l : List Nat) : (readySet k l s).runs = s.runs := rfl
@[simp] theorem readySet_party (k : Nat) (l : List Nat) : (readySet k l s).party = s.party := rfl
@[simp] theorem readySet_mender (k : Nat) (l : List Nat) : (readySet k l s).mender = s.mender := rfl
@[simp] theorem readySet_svc (k : Nat) (l : List Nat) : (readySet k l s).svc = s.svc := rfl
@[simp] theorem readySet_pwr (k : Nat) (l : List Nat) : (readySet k l s).pwr = s.pwr := rfl

/-! ### runSet -/

@[simp] theorem runSet_pending (r : Nat) (x : Run) : (runSet r x s).pending = s.pending := rfl
@[simp] theorem runSet_free (r : Nat) (x : Run) : (runSet r x s).free = s.free := rfl
@[simp] theorem runSet_sent (r : Nat) (x : Run) : (runSet r x s).sent = s.sent := rfl
@[simp] theorem runSet_pick (r : Nat) (x : Run) : (runSet r x s).pick = s.pick := rfl
@[simp] theorem runSet_regs (r : Nat) (x : Run) : (runSet r x s).regs = s.regs := rfl
@[simp] theorem runSet_snaps (r : Nat) (x : Run) : (runSet r x s).snaps = s.snaps := rfl
@[simp] theorem runSet_due (r : Nat) (x : Run) : (runSet r x s).due = s.due := rfl
@[simp] theorem runSet_lag (r : Nat) (x : Run) : (runSet r x s).lag = s.lag := rfl
@[simp] theorem runSet_missed (r : Nat) (x : Run) : (runSet r x s).missed = s.missed := rfl
@[simp] theorem runSet_weights (r : Nat) (x : Run) : (runSet r x s).weights = s.weights := rfl
@[simp] theorem runSet_fenceTimes (r : Nat) (x : Run) : (runSet r x s).fenceTimes = s.fenceTimes := rfl
@[simp] theorem runSet_fenceHeld (r : Nat) (x : Run) : (runSet r x s).fenceHeld = s.fenceHeld := rfl
@[simp] theorem runSet_log (r : Nat) (x : Run) : (runSet r x s).log = s.log := rfl
@[simp] theorem runSet_boot (r : Nat) (x : Run) : (runSet r x s).boot = s.boot := rfl
@[simp] theorem runSet_cxl (r : Nat) (x : Run) : (runSet r x s).cxl = s.cxl := rfl
@[simp] theorem runSet_fns (r : Nat) (x : Run) : (runSet r x s).fns = s.fns := rfl
@[simp] theorem runSet_qe (r : Nat) (x : Run) : (runSet r x s).qe = s.qe := rfl
@[simp] theorem runSet_nss (r : Nat) (x : Run) : (runSet r x s).nss = s.nss := rfl
@[simp] theorem runSet_media (r : Nat) (x : Run) : (runSet r x s).media = s.media := rfl
@[simp] theorem runSet_map (r : Nat) (x : Run) : (runSet r x s).map = s.map := rfl
@[simp] theorem runSet_jnl (r : Nat) (x : Run) : (runSet r x s).jnl = s.jnl := rfl
@[simp] theorem runSet_die (r : Nat) (x : Run) : (runSet r x s).die = s.die := rfl
@[simp] theorem runSet_ddr (r : Nat) (x : Run) : (runSet r x s).ddr = s.ddr := rfl
@[simp] theorem runSet_ham (r : Nat) (x : Run) : (runSet r x s).ham = s.ham := rfl
@[simp] theorem runSet_hamPoison (r : Nat) (x : Run) : (runSet r x s).hamPoison = s.hamPoison := rfl
@[simp] theorem runSet_hamErr (r : Nat) (x : Run) : (runSet r x s).hamErr = s.hamErr := rfl
@[simp] theorem runSet_dram (r : Nat) (x : Run) : (runSet r x s).dram = s.dram := rfl
@[simp] theorem runSet_dramPoison (r : Nat) (x : Run) : (runSet r x s).dramPoison = s.dramPoison := rfl
@[simp] theorem runSet_dramErr (r : Nat) (x : Run) : (runSet r x s).dramErr = s.dramErr := rfl
@[simp] theorem runSet_hamx (r : Nat) (x : Run) : (runSet r x s).hamx = s.hamx := rfl
@[simp] theorem runSet_shus (r : Nat) (x : Run) : (runSet r x s).shus = s.shus := rfl
@[simp] theorem runSet_lines (r : Nat) (x : Run) : (runSet r x s).lines = s.lines := rfl
@[simp] theorem runSet_engs (r : Nat) (x : Run) : (runSet r x s).engs = s.engs := rfl
@[simp] theorem runSet_jobSeq (r : Nat) (x : Run) : (runSet r x s).jobSeq = s.jobSeq := rfl
@[simp] theorem runSet_digs (r : Nat) (x : Run) : (runSet r x s).digs = s.digs := rfl
@[simp] theorem runSet_keys (r : Nat) (x : Run) : (runSet r x s).keys = s.keys := rfl
@[simp] theorem runSet_hed (r : Nat) (x : Run) : (runSet r x s).hed = s.hed := rfl
@[simp] theorem runSet_hgrp (r : Nat) (x : Run) : (runSet r x s).hgrp = s.hgrp := rfl
@[simp] theorem runSet_laneSearch (r : Nat) (x : Run) : (runSet r x s).laneSearch = s.laneSearch := rfl
@[simp] theorem runSet_icache (r : Nat) (x : Run) : (runSet r x s).icache = s.icache := rfl
@[simp] theorem runSet_cores (r : Nat) (x : Run) : (runSet r x s).cores = s.cores := rfl
@[simp] theorem runSet_tasks (r : Nat) (x : Run) : (runSet r x s).tasks = s.tasks := rfl
@[simp] theorem runSet_ready (r : Nat) (x : Run) : (runSet r x s).ready = s.ready := rfl
@[simp] theorem runSet_progs (r : Nat) (x : Run) : (runSet r x s).progs = s.progs := rfl
@[simp] theorem runSet_runs (r : Nat) (x : Run) : (runSet r x s).runs = tset {} r x s.runs := rfl
@[simp] theorem runSet_party (r : Nat) (x : Run) : (runSet r x s).party = s.party := rfl
@[simp] theorem runSet_mender (r : Nat) (x : Run) : (runSet r x s).mender = s.mender := rfl
@[simp] theorem runSet_svc (r : Nat) (x : Run) : (runSet r x s).svc = s.svc := rfl
@[simp] theorem runSet_pwr (r : Nat) (x : Run) : (runSet r x s).pwr = s.pwr := rfl

/-! ### imgSet -/

@[simp] theorem imgSet_pending (k : Nat) (x : Image) : (imgSet k x s).pending = s.pending := rfl
@[simp] theorem imgSet_free (k : Nat) (x : Image) : (imgSet k x s).free = s.free := rfl
@[simp] theorem imgSet_sent (k : Nat) (x : Image) : (imgSet k x s).sent = s.sent := rfl
@[simp] theorem imgSet_pick (k : Nat) (x : Image) : (imgSet k x s).pick = s.pick := rfl
@[simp] theorem imgSet_regs (k : Nat) (x : Image) : (imgSet k x s).regs = s.regs := rfl
@[simp] theorem imgSet_snaps (k : Nat) (x : Image) : (imgSet k x s).snaps = s.snaps := rfl
@[simp] theorem imgSet_due (k : Nat) (x : Image) : (imgSet k x s).due = s.due := rfl
@[simp] theorem imgSet_lag (k : Nat) (x : Image) : (imgSet k x s).lag = s.lag := rfl
@[simp] theorem imgSet_missed (k : Nat) (x : Image) : (imgSet k x s).missed = s.missed := rfl
@[simp] theorem imgSet_weights (k : Nat) (x : Image) : (imgSet k x s).weights = s.weights := rfl
@[simp] theorem imgSet_fenceTimes (k : Nat) (x : Image) : (imgSet k x s).fenceTimes = s.fenceTimes := rfl
@[simp] theorem imgSet_fenceHeld (k : Nat) (x : Image) : (imgSet k x s).fenceHeld = s.fenceHeld := rfl
@[simp] theorem imgSet_log (k : Nat) (x : Image) : (imgSet k x s).log = s.log := rfl
@[simp] theorem imgSet_boot (k : Nat) (x : Image) : (imgSet k x s).boot = s.boot := rfl
@[simp] theorem imgSet_cxl (k : Nat) (x : Image) : (imgSet k x s).cxl = s.cxl := rfl
@[simp] theorem imgSet_fns (k : Nat) (x : Image) : (imgSet k x s).fns = s.fns := rfl
@[simp] theorem imgSet_qe (k : Nat) (x : Image) : (imgSet k x s).qe = s.qe := rfl
@[simp] theorem imgSet_nss (k : Nat) (x : Image) : (imgSet k x s).nss = s.nss := rfl
@[simp] theorem imgSet_media (k : Nat) (x : Image) : (imgSet k x s).media = s.media := rfl
@[simp] theorem imgSet_map (k : Nat) (x : Image) : (imgSet k x s).map = s.map := rfl
@[simp] theorem imgSet_jnl (k : Nat) (x : Image) : (imgSet k x s).jnl = s.jnl := rfl
@[simp] theorem imgSet_die (k : Nat) (x : Image) : (imgSet k x s).die = s.die := rfl
@[simp] theorem imgSet_ddr (k : Nat) (x : Image) : (imgSet k x s).ddr = s.ddr := rfl
@[simp] theorem imgSet_ham (k : Nat) (x : Image) : (imgSet k x s).ham = s.ham := rfl
@[simp] theorem imgSet_hamPoison (k : Nat) (x : Image) : (imgSet k x s).hamPoison = s.hamPoison := rfl
@[simp] theorem imgSet_hamErr (k : Nat) (x : Image) : (imgSet k x s).hamErr = s.hamErr := rfl
@[simp] theorem imgSet_dram (k : Nat) (x : Image) : (imgSet k x s).dram = s.dram := rfl
@[simp] theorem imgSet_dramPoison (k : Nat) (x : Image) : (imgSet k x s).dramPoison = s.dramPoison := rfl
@[simp] theorem imgSet_dramErr (k : Nat) (x : Image) : (imgSet k x s).dramErr = s.dramErr := rfl
@[simp] theorem imgSet_hamx (k : Nat) (x : Image) : (imgSet k x s).hamx = s.hamx := rfl
@[simp] theorem imgSet_shus (k : Nat) (x : Image) : (imgSet k x s).shus = s.shus := rfl
@[simp] theorem imgSet_lines (k : Nat) (x : Image) : (imgSet k x s).lines = s.lines := rfl
@[simp] theorem imgSet_engs (k : Nat) (x : Image) : (imgSet k x s).engs = s.engs := rfl
@[simp] theorem imgSet_jobSeq (k : Nat) (x : Image) : (imgSet k x s).jobSeq = s.jobSeq := rfl
@[simp] theorem imgSet_digs (k : Nat) (x : Image) : (imgSet k x s).digs = s.digs := rfl
@[simp] theorem imgSet_keys (k : Nat) (x : Image) : (imgSet k x s).keys = s.keys := rfl
@[simp] theorem imgSet_hed (k : Nat) (x : Image) : (imgSet k x s).hed = s.hed := rfl
@[simp] theorem imgSet_hgrp (k : Nat) (x : Image) : (imgSet k x s).hgrp = s.hgrp := rfl
@[simp] theorem imgSet_laneSearch (k : Nat) (x : Image) : (imgSet k x s).laneSearch = s.laneSearch := rfl
@[simp] theorem imgSet_icache (k : Nat) (x : Image) : (imgSet k x s).icache = s.icache := rfl
@[simp] theorem imgSet_cores (k : Nat) (x : Image) : (imgSet k x s).cores = s.cores := rfl
@[simp] theorem imgSet_tasks (k : Nat) (x : Image) : (imgSet k x s).tasks = s.tasks := rfl
@[simp] theorem imgSet_ready (k : Nat) (x : Image) : (imgSet k x s).ready = s.ready := rfl
@[simp] theorem imgSet_progs (k : Nat) (x : Image) : (imgSet k x s).progs = tset {} k x s.progs := rfl
@[simp] theorem imgSet_runs (k : Nat) (x : Image) : (imgSet k x s).runs = s.runs := rfl
@[simp] theorem imgSet_party (k : Nat) (x : Image) : (imgSet k x s).party = s.party := rfl
@[simp] theorem imgSet_mender (k : Nat) (x : Image) : (imgSet k x s).mender = s.mender := rfl
@[simp] theorem imgSet_svc (k : Nat) (x : Image) : (imgSet k x s).svc = s.svc := rfl
@[simp] theorem imgSet_pwr (k : Nat) (x : Image) : (imgSet k x s).pwr = s.pwr := rfl

/-! ### lineSet -/

@[simp] theorem lineSet_pending (l : Nat) (x : Line) : (lineSet l x s).pending = s.pending := rfl
@[simp] theorem lineSet_free (l : Nat) (x : Line) : (lineSet l x s).free = s.free := rfl
@[simp] theorem lineSet_sent (l : Nat) (x : Line) : (lineSet l x s).sent = s.sent := rfl
@[simp] theorem lineSet_pick (l : Nat) (x : Line) : (lineSet l x s).pick = s.pick := rfl
@[simp] theorem lineSet_regs (l : Nat) (x : Line) : (lineSet l x s).regs = s.regs := rfl
@[simp] theorem lineSet_snaps (l : Nat) (x : Line) : (lineSet l x s).snaps = s.snaps := rfl
@[simp] theorem lineSet_due (l : Nat) (x : Line) : (lineSet l x s).due = s.due := rfl
@[simp] theorem lineSet_lag (l : Nat) (x : Line) : (lineSet l x s).lag = s.lag := rfl
@[simp] theorem lineSet_missed (l : Nat) (x : Line) : (lineSet l x s).missed = s.missed := rfl
@[simp] theorem lineSet_weights (l : Nat) (x : Line) : (lineSet l x s).weights = s.weights := rfl
@[simp] theorem lineSet_fenceTimes (l : Nat) (x : Line) : (lineSet l x s).fenceTimes = s.fenceTimes := rfl
@[simp] theorem lineSet_fenceHeld (l : Nat) (x : Line) : (lineSet l x s).fenceHeld = s.fenceHeld := rfl
@[simp] theorem lineSet_log (l : Nat) (x : Line) : (lineSet l x s).log = s.log := rfl
@[simp] theorem lineSet_boot (l : Nat) (x : Line) : (lineSet l x s).boot = s.boot := rfl
@[simp] theorem lineSet_cxl (l : Nat) (x : Line) : (lineSet l x s).cxl = s.cxl := rfl
@[simp] theorem lineSet_fns (l : Nat) (x : Line) : (lineSet l x s).fns = s.fns := rfl
@[simp] theorem lineSet_qe (l : Nat) (x : Line) : (lineSet l x s).qe = s.qe := rfl
@[simp] theorem lineSet_nss (l : Nat) (x : Line) : (lineSet l x s).nss = s.nss := rfl
@[simp] theorem lineSet_media (l : Nat) (x : Line) : (lineSet l x s).media = s.media := rfl
@[simp] theorem lineSet_map (l : Nat) (x : Line) : (lineSet l x s).map = s.map := rfl
@[simp] theorem lineSet_jnl (l : Nat) (x : Line) : (lineSet l x s).jnl = s.jnl := rfl
@[simp] theorem lineSet_die (l : Nat) (x : Line) : (lineSet l x s).die = s.die := rfl
@[simp] theorem lineSet_ddr (l : Nat) (x : Line) : (lineSet l x s).ddr = s.ddr := rfl
@[simp] theorem lineSet_ham (l : Nat) (x : Line) : (lineSet l x s).ham = s.ham := rfl
@[simp] theorem lineSet_hamPoison (l : Nat) (x : Line) : (lineSet l x s).hamPoison = s.hamPoison := rfl
@[simp] theorem lineSet_hamErr (l : Nat) (x : Line) : (lineSet l x s).hamErr = s.hamErr := rfl
@[simp] theorem lineSet_dram (l : Nat) (x : Line) : (lineSet l x s).dram = s.dram := rfl
@[simp] theorem lineSet_dramPoison (l : Nat) (x : Line) : (lineSet l x s).dramPoison = s.dramPoison := rfl
@[simp] theorem lineSet_dramErr (l : Nat) (x : Line) : (lineSet l x s).dramErr = s.dramErr := rfl
@[simp] theorem lineSet_hamx (l : Nat) (x : Line) : (lineSet l x s).hamx = s.hamx := rfl
@[simp] theorem lineSet_shus (l : Nat) (x : Line) : (lineSet l x s).shus = s.shus := rfl
@[simp] theorem lineSet_lines (l : Nat) (x : Line) : (lineSet l x s).lines = tset {} l x s.lines := rfl
@[simp] theorem lineSet_engs (l : Nat) (x : Line) : (lineSet l x s).engs = s.engs := rfl
@[simp] theorem lineSet_jobSeq (l : Nat) (x : Line) : (lineSet l x s).jobSeq = s.jobSeq := rfl
@[simp] theorem lineSet_digs (l : Nat) (x : Line) : (lineSet l x s).digs = s.digs := rfl
@[simp] theorem lineSet_keys (l : Nat) (x : Line) : (lineSet l x s).keys = s.keys := rfl
@[simp] theorem lineSet_hed (l : Nat) (x : Line) : (lineSet l x s).hed = s.hed := rfl
@[simp] theorem lineSet_hgrp (l : Nat) (x : Line) : (lineSet l x s).hgrp = s.hgrp := rfl
@[simp] theorem lineSet_laneSearch (l : Nat) (x : Line) : (lineSet l x s).laneSearch = s.laneSearch := rfl
@[simp] theorem lineSet_icache (l : Nat) (x : Line) : (lineSet l x s).icache = s.icache := rfl
@[simp] theorem lineSet_cores (l : Nat) (x : Line) : (lineSet l x s).cores = s.cores := rfl
@[simp] theorem lineSet_tasks (l : Nat) (x : Line) : (lineSet l x s).tasks = s.tasks := rfl
@[simp] theorem lineSet_ready (l : Nat) (x : Line) : (lineSet l x s).ready = s.ready := rfl
@[simp] theorem lineSet_progs (l : Nat) (x : Line) : (lineSet l x s).progs = s.progs := rfl
@[simp] theorem lineSet_runs (l : Nat) (x : Line) : (lineSet l x s).runs = s.runs := rfl
@[simp] theorem lineSet_party (l : Nat) (x : Line) : (lineSet l x s).party = s.party := rfl
@[simp] theorem lineSet_mender (l : Nat) (x : Line) : (lineSet l x s).mender = s.mender := rfl
@[simp] theorem lineSet_svc (l : Nat) (x : Line) : (lineSet l x s).svc = s.svc := rfl
@[simp] theorem lineSet_pwr (l : Nat) (x : Line) : (lineSet l x s).pwr = s.pwr := rfl

/-! ### shuSet -/

@[simp] theorem shuSet_pending (k : Nat) (x : Shuttle) : (shuSet k x s).pending = s.pending := rfl
@[simp] theorem shuSet_free (k : Nat) (x : Shuttle) : (shuSet k x s).free = s.free := rfl
@[simp] theorem shuSet_sent (k : Nat) (x : Shuttle) : (shuSet k x s).sent = s.sent := rfl
@[simp] theorem shuSet_pick (k : Nat) (x : Shuttle) : (shuSet k x s).pick = s.pick := rfl
@[simp] theorem shuSet_regs (k : Nat) (x : Shuttle) : (shuSet k x s).regs = s.regs := rfl
@[simp] theorem shuSet_snaps (k : Nat) (x : Shuttle) : (shuSet k x s).snaps = s.snaps := rfl
@[simp] theorem shuSet_due (k : Nat) (x : Shuttle) : (shuSet k x s).due = s.due := rfl
@[simp] theorem shuSet_lag (k : Nat) (x : Shuttle) : (shuSet k x s).lag = s.lag := rfl
@[simp] theorem shuSet_missed (k : Nat) (x : Shuttle) : (shuSet k x s).missed = s.missed := rfl
@[simp] theorem shuSet_weights (k : Nat) (x : Shuttle) : (shuSet k x s).weights = s.weights := rfl
@[simp] theorem shuSet_fenceTimes (k : Nat) (x : Shuttle) : (shuSet k x s).fenceTimes = s.fenceTimes := rfl
@[simp] theorem shuSet_fenceHeld (k : Nat) (x : Shuttle) : (shuSet k x s).fenceHeld = s.fenceHeld := rfl
@[simp] theorem shuSet_log (k : Nat) (x : Shuttle) : (shuSet k x s).log = s.log := rfl
@[simp] theorem shuSet_boot (k : Nat) (x : Shuttle) : (shuSet k x s).boot = s.boot := rfl
@[simp] theorem shuSet_cxl (k : Nat) (x : Shuttle) : (shuSet k x s).cxl = s.cxl := rfl
@[simp] theorem shuSet_fns (k : Nat) (x : Shuttle) : (shuSet k x s).fns = s.fns := rfl
@[simp] theorem shuSet_qe (k : Nat) (x : Shuttle) : (shuSet k x s).qe = s.qe := rfl
@[simp] theorem shuSet_nss (k : Nat) (x : Shuttle) : (shuSet k x s).nss = s.nss := rfl
@[simp] theorem shuSet_media (k : Nat) (x : Shuttle) : (shuSet k x s).media = s.media := rfl
@[simp] theorem shuSet_map (k : Nat) (x : Shuttle) : (shuSet k x s).map = s.map := rfl
@[simp] theorem shuSet_jnl (k : Nat) (x : Shuttle) : (shuSet k x s).jnl = s.jnl := rfl
@[simp] theorem shuSet_die (k : Nat) (x : Shuttle) : (shuSet k x s).die = s.die := rfl
@[simp] theorem shuSet_ddr (k : Nat) (x : Shuttle) : (shuSet k x s).ddr = s.ddr := rfl
@[simp] theorem shuSet_ham (k : Nat) (x : Shuttle) : (shuSet k x s).ham = s.ham := rfl
@[simp] theorem shuSet_hamPoison (k : Nat) (x : Shuttle) : (shuSet k x s).hamPoison = s.hamPoison := rfl
@[simp] theorem shuSet_hamErr (k : Nat) (x : Shuttle) : (shuSet k x s).hamErr = s.hamErr := rfl
@[simp] theorem shuSet_dram (k : Nat) (x : Shuttle) : (shuSet k x s).dram = s.dram := rfl
@[simp] theorem shuSet_dramPoison (k : Nat) (x : Shuttle) : (shuSet k x s).dramPoison = s.dramPoison := rfl
@[simp] theorem shuSet_dramErr (k : Nat) (x : Shuttle) : (shuSet k x s).dramErr = s.dramErr := rfl
@[simp] theorem shuSet_hamx (k : Nat) (x : Shuttle) : (shuSet k x s).hamx = s.hamx := rfl
@[simp] theorem shuSet_shus (k : Nat) (x : Shuttle) : (shuSet k x s).shus = tset {} k x s.shus := rfl
@[simp] theorem shuSet_lines (k : Nat) (x : Shuttle) : (shuSet k x s).lines = s.lines := rfl
@[simp] theorem shuSet_engs (k : Nat) (x : Shuttle) : (shuSet k x s).engs = s.engs := rfl
@[simp] theorem shuSet_jobSeq (k : Nat) (x : Shuttle) : (shuSet k x s).jobSeq = s.jobSeq := rfl
@[simp] theorem shuSet_digs (k : Nat) (x : Shuttle) : (shuSet k x s).digs = s.digs := rfl
@[simp] theorem shuSet_keys (k : Nat) (x : Shuttle) : (shuSet k x s).keys = s.keys := rfl
@[simp] theorem shuSet_hed (k : Nat) (x : Shuttle) : (shuSet k x s).hed = s.hed := rfl
@[simp] theorem shuSet_hgrp (k : Nat) (x : Shuttle) : (shuSet k x s).hgrp = s.hgrp := rfl
@[simp] theorem shuSet_laneSearch (k : Nat) (x : Shuttle) : (shuSet k x s).laneSearch = s.laneSearch := rfl
@[simp] theorem shuSet_icache (k : Nat) (x : Shuttle) : (shuSet k x s).icache = s.icache := rfl
@[simp] theorem shuSet_cores (k : Nat) (x : Shuttle) : (shuSet k x s).cores = s.cores := rfl
@[simp] theorem shuSet_tasks (k : Nat) (x : Shuttle) : (shuSet k x s).tasks = s.tasks := rfl
@[simp] theorem shuSet_ready (k : Nat) (x : Shuttle) : (shuSet k x s).ready = s.ready := rfl
@[simp] theorem shuSet_progs (k : Nat) (x : Shuttle) : (shuSet k x s).progs = s.progs := rfl
@[simp] theorem shuSet_runs (k : Nat) (x : Shuttle) : (shuSet k x s).runs = s.runs := rfl
@[simp] theorem shuSet_party (k : Nat) (x : Shuttle) : (shuSet k x s).party = s.party := rfl
@[simp] theorem shuSet_mender (k : Nat) (x : Shuttle) : (shuSet k x s).mender = s.mender := rfl
@[simp] theorem shuSet_svc (k : Nat) (x : Shuttle) : (shuSet k x s).svc = s.svc := rfl
@[simp] theorem shuSet_pwr (k : Nat) (x : Shuttle) : (shuSet k x s).pwr = s.pwr := rfl

/-! ### engSet -/

@[simp] theorem engSet_pending (a : Nat) (x : Engine) : (engSet a x s).pending = s.pending := rfl
@[simp] theorem engSet_free (a : Nat) (x : Engine) : (engSet a x s).free = s.free := rfl
@[simp] theorem engSet_sent (a : Nat) (x : Engine) : (engSet a x s).sent = s.sent := rfl
@[simp] theorem engSet_pick (a : Nat) (x : Engine) : (engSet a x s).pick = s.pick := rfl
@[simp] theorem engSet_regs (a : Nat) (x : Engine) : (engSet a x s).regs = s.regs := rfl
@[simp] theorem engSet_snaps (a : Nat) (x : Engine) : (engSet a x s).snaps = s.snaps := rfl
@[simp] theorem engSet_due (a : Nat) (x : Engine) : (engSet a x s).due = s.due := rfl
@[simp] theorem engSet_lag (a : Nat) (x : Engine) : (engSet a x s).lag = s.lag := rfl
@[simp] theorem engSet_missed (a : Nat) (x : Engine) : (engSet a x s).missed = s.missed := rfl
@[simp] theorem engSet_weights (a : Nat) (x : Engine) : (engSet a x s).weights = s.weights := rfl
@[simp] theorem engSet_fenceTimes (a : Nat) (x : Engine) : (engSet a x s).fenceTimes = s.fenceTimes := rfl
@[simp] theorem engSet_fenceHeld (a : Nat) (x : Engine) : (engSet a x s).fenceHeld = s.fenceHeld := rfl
@[simp] theorem engSet_log (a : Nat) (x : Engine) : (engSet a x s).log = s.log := rfl
@[simp] theorem engSet_boot (a : Nat) (x : Engine) : (engSet a x s).boot = s.boot := rfl
@[simp] theorem engSet_cxl (a : Nat) (x : Engine) : (engSet a x s).cxl = s.cxl := rfl
@[simp] theorem engSet_fns (a : Nat) (x : Engine) : (engSet a x s).fns = s.fns := rfl
@[simp] theorem engSet_qe (a : Nat) (x : Engine) : (engSet a x s).qe = s.qe := rfl
@[simp] theorem engSet_nss (a : Nat) (x : Engine) : (engSet a x s).nss = s.nss := rfl
@[simp] theorem engSet_media (a : Nat) (x : Engine) : (engSet a x s).media = s.media := rfl
@[simp] theorem engSet_map (a : Nat) (x : Engine) : (engSet a x s).map = s.map := rfl
@[simp] theorem engSet_jnl (a : Nat) (x : Engine) : (engSet a x s).jnl = s.jnl := rfl
@[simp] theorem engSet_die (a : Nat) (x : Engine) : (engSet a x s).die = s.die := rfl
@[simp] theorem engSet_ddr (a : Nat) (x : Engine) : (engSet a x s).ddr = s.ddr := rfl
@[simp] theorem engSet_ham (a : Nat) (x : Engine) : (engSet a x s).ham = s.ham := rfl
@[simp] theorem engSet_hamPoison (a : Nat) (x : Engine) : (engSet a x s).hamPoison = s.hamPoison := rfl
@[simp] theorem engSet_hamErr (a : Nat) (x : Engine) : (engSet a x s).hamErr = s.hamErr := rfl
@[simp] theorem engSet_dram (a : Nat) (x : Engine) : (engSet a x s).dram = s.dram := rfl
@[simp] theorem engSet_dramPoison (a : Nat) (x : Engine) : (engSet a x s).dramPoison = s.dramPoison := rfl
@[simp] theorem engSet_dramErr (a : Nat) (x : Engine) : (engSet a x s).dramErr = s.dramErr := rfl
@[simp] theorem engSet_hamx (a : Nat) (x : Engine) : (engSet a x s).hamx = s.hamx := rfl
@[simp] theorem engSet_shus (a : Nat) (x : Engine) : (engSet a x s).shus = s.shus := rfl
@[simp] theorem engSet_lines (a : Nat) (x : Engine) : (engSet a x s).lines = s.lines := rfl
@[simp] theorem engSet_engs (a : Nat) (x : Engine) : (engSet a x s).engs = tset {} a x s.engs := rfl
@[simp] theorem engSet_jobSeq (a : Nat) (x : Engine) : (engSet a x s).jobSeq = s.jobSeq := rfl
@[simp] theorem engSet_digs (a : Nat) (x : Engine) : (engSet a x s).digs = s.digs := rfl
@[simp] theorem engSet_keys (a : Nat) (x : Engine) : (engSet a x s).keys = s.keys := rfl
@[simp] theorem engSet_hed (a : Nat) (x : Engine) : (engSet a x s).hed = s.hed := rfl
@[simp] theorem engSet_hgrp (a : Nat) (x : Engine) : (engSet a x s).hgrp = s.hgrp := rfl
@[simp] theorem engSet_laneSearch (a : Nat) (x : Engine) : (engSet a x s).laneSearch = s.laneSearch := rfl
@[simp] theorem engSet_icache (a : Nat) (x : Engine) : (engSet a x s).icache = s.icache := rfl
@[simp] theorem engSet_cores (a : Nat) (x : Engine) : (engSet a x s).cores = s.cores := rfl
@[simp] theorem engSet_tasks (a : Nat) (x : Engine) : (engSet a x s).tasks = s.tasks := rfl
@[simp] theorem engSet_ready (a : Nat) (x : Engine) : (engSet a x s).ready = s.ready := rfl
@[simp] theorem engSet_progs (a : Nat) (x : Engine) : (engSet a x s).progs = s.progs := rfl
@[simp] theorem engSet_runs (a : Nat) (x : Engine) : (engSet a x s).runs = s.runs := rfl
@[simp] theorem engSet_party (a : Nat) (x : Engine) : (engSet a x s).party = s.party := rfl
@[simp] theorem engSet_mender (a : Nat) (x : Engine) : (engSet a x s).mender = s.mender := rfl
@[simp] theorem engSet_svc (a : Nat) (x : Engine) : (engSet a x s).svc = s.svc := rfl
@[simp] theorem engSet_pwr (a : Nat) (x : Engine) : (engSet a x s).pwr = s.pwr := rfl

/-! ### slotSet -/

@[simp] theorem slotSet_pending (k : Nat) (x : Slot) : (slotSet k x s).pending = s.pending := rfl
@[simp] theorem slotSet_free (k : Nat) (x : Slot) : (slotSet k x s).free = s.free := rfl
@[simp] theorem slotSet_sent (k : Nat) (x : Slot) : (slotSet k x s).sent = s.sent := rfl
@[simp] theorem slotSet_pick (k : Nat) (x : Slot) : (slotSet k x s).pick = s.pick := rfl
@[simp] theorem slotSet_regs (k : Nat) (x : Slot) : (slotSet k x s).regs = s.regs := rfl
@[simp] theorem slotSet_snaps (k : Nat) (x : Slot) : (slotSet k x s).snaps = s.snaps := rfl
@[simp] theorem slotSet_due (k : Nat) (x : Slot) : (slotSet k x s).due = s.due := rfl
@[simp] theorem slotSet_lag (k : Nat) (x : Slot) : (slotSet k x s).lag = s.lag := rfl
@[simp] theorem slotSet_missed (k : Nat) (x : Slot) : (slotSet k x s).missed = s.missed := rfl
@[simp] theorem slotSet_weights (k : Nat) (x : Slot) : (slotSet k x s).weights = s.weights := rfl
@[simp] theorem slotSet_fenceTimes (k : Nat) (x : Slot) : (slotSet k x s).fenceTimes = s.fenceTimes := rfl
@[simp] theorem slotSet_fenceHeld (k : Nat) (x : Slot) : (slotSet k x s).fenceHeld = s.fenceHeld := rfl
@[simp] theorem slotSet_log (k : Nat) (x : Slot) : (slotSet k x s).log = s.log := rfl
@[simp] theorem slotSet_boot (k : Nat) (x : Slot) : (slotSet k x s).boot = s.boot := rfl
@[simp] theorem slotSet_cxl (k : Nat) (x : Slot) : (slotSet k x s).cxl = s.cxl := rfl
@[simp] theorem slotSet_fns (k : Nat) (x : Slot) : (slotSet k x s).fns = s.fns := rfl
@[simp] theorem slotSet_qe (k : Nat) (x : Slot) : (slotSet k x s).qe = s.qe := rfl
@[simp] theorem slotSet_nss (k : Nat) (x : Slot) : (slotSet k x s).nss = s.nss := rfl
@[simp] theorem slotSet_media (k : Nat) (x : Slot) : (slotSet k x s).media = s.media := rfl
@[simp] theorem slotSet_map (k : Nat) (x : Slot) : (slotSet k x s).map = s.map := rfl
@[simp] theorem slotSet_jnl (k : Nat) (x : Slot) : (slotSet k x s).jnl = { s.jnl with slots := tset {} k x s.jnl.slots } := rfl
@[simp] theorem slotSet_die (k : Nat) (x : Slot) : (slotSet k x s).die = s.die := rfl
@[simp] theorem slotSet_ddr (k : Nat) (x : Slot) : (slotSet k x s).ddr = s.ddr := rfl
@[simp] theorem slotSet_ham (k : Nat) (x : Slot) : (slotSet k x s).ham = s.ham := rfl
@[simp] theorem slotSet_hamPoison (k : Nat) (x : Slot) : (slotSet k x s).hamPoison = s.hamPoison := rfl
@[simp] theorem slotSet_hamErr (k : Nat) (x : Slot) : (slotSet k x s).hamErr = s.hamErr := rfl
@[simp] theorem slotSet_dram (k : Nat) (x : Slot) : (slotSet k x s).dram = s.dram := rfl
@[simp] theorem slotSet_dramPoison (k : Nat) (x : Slot) : (slotSet k x s).dramPoison = s.dramPoison := rfl
@[simp] theorem slotSet_dramErr (k : Nat) (x : Slot) : (slotSet k x s).dramErr = s.dramErr := rfl
@[simp] theorem slotSet_hamx (k : Nat) (x : Slot) : (slotSet k x s).hamx = s.hamx := rfl
@[simp] theorem slotSet_shus (k : Nat) (x : Slot) : (slotSet k x s).shus = s.shus := rfl
@[simp] theorem slotSet_lines (k : Nat) (x : Slot) : (slotSet k x s).lines = s.lines := rfl
@[simp] theorem slotSet_engs (k : Nat) (x : Slot) : (slotSet k x s).engs = s.engs := rfl
@[simp] theorem slotSet_jobSeq (k : Nat) (x : Slot) : (slotSet k x s).jobSeq = s.jobSeq := rfl
@[simp] theorem slotSet_digs (k : Nat) (x : Slot) : (slotSet k x s).digs = s.digs := rfl
@[simp] theorem slotSet_keys (k : Nat) (x : Slot) : (slotSet k x s).keys = s.keys := rfl
@[simp] theorem slotSet_hed (k : Nat) (x : Slot) : (slotSet k x s).hed = s.hed := rfl
@[simp] theorem slotSet_hgrp (k : Nat) (x : Slot) : (slotSet k x s).hgrp = s.hgrp := rfl
@[simp] theorem slotSet_laneSearch (k : Nat) (x : Slot) : (slotSet k x s).laneSearch = s.laneSearch := rfl
@[simp] theorem slotSet_icache (k : Nat) (x : Slot) : (slotSet k x s).icache = s.icache := rfl
@[simp] theorem slotSet_cores (k : Nat) (x : Slot) : (slotSet k x s).cores = s.cores := rfl
@[simp] theorem slotSet_tasks (k : Nat) (x : Slot) : (slotSet k x s).tasks = s.tasks := rfl
@[simp] theorem slotSet_ready (k : Nat) (x : Slot) : (slotSet k x s).ready = s.ready := rfl
@[simp] theorem slotSet_progs (k : Nat) (x : Slot) : (slotSet k x s).progs = s.progs := rfl
@[simp] theorem slotSet_runs (k : Nat) (x : Slot) : (slotSet k x s).runs = s.runs := rfl
@[simp] theorem slotSet_party (k : Nat) (x : Slot) : (slotSet k x s).party = s.party := rfl
@[simp] theorem slotSet_mender (k : Nat) (x : Slot) : (slotSet k x s).mender = s.mender := rfl
@[simp] theorem slotSet_svc (k : Nat) (x : Slot) : (slotSet k x s).svc = s.svc := rfl
@[simp] theorem slotSet_pwr (k : Nat) (x : Slot) : (slotSet k x s).pwr = s.pwr := rfl

/-! ### dieSet -/

@[simp] theorem dieSet_pending (k : Nat) (x : Die) : (dieSet k x s).pending = s.pending := rfl
@[simp] theorem dieSet_free (k : Nat) (x : Die) : (dieSet k x s).free = s.free := rfl
@[simp] theorem dieSet_sent (k : Nat) (x : Die) : (dieSet k x s).sent = s.sent := rfl
@[simp] theorem dieSet_pick (k : Nat) (x : Die) : (dieSet k x s).pick = s.pick := rfl
@[simp] theorem dieSet_regs (k : Nat) (x : Die) : (dieSet k x s).regs = s.regs := rfl
@[simp] theorem dieSet_snaps (k : Nat) (x : Die) : (dieSet k x s).snaps = s.snaps := rfl
@[simp] theorem dieSet_due (k : Nat) (x : Die) : (dieSet k x s).due = s.due := rfl
@[simp] theorem dieSet_lag (k : Nat) (x : Die) : (dieSet k x s).lag = s.lag := rfl
@[simp] theorem dieSet_missed (k : Nat) (x : Die) : (dieSet k x s).missed = s.missed := rfl
@[simp] theorem dieSet_weights (k : Nat) (x : Die) : (dieSet k x s).weights = s.weights := rfl
@[simp] theorem dieSet_fenceTimes (k : Nat) (x : Die) : (dieSet k x s).fenceTimes = s.fenceTimes := rfl
@[simp] theorem dieSet_fenceHeld (k : Nat) (x : Die) : (dieSet k x s).fenceHeld = s.fenceHeld := rfl
@[simp] theorem dieSet_log (k : Nat) (x : Die) : (dieSet k x s).log = s.log := rfl
@[simp] theorem dieSet_boot (k : Nat) (x : Die) : (dieSet k x s).boot = s.boot := rfl
@[simp] theorem dieSet_cxl (k : Nat) (x : Die) : (dieSet k x s).cxl = s.cxl := rfl
@[simp] theorem dieSet_fns (k : Nat) (x : Die) : (dieSet k x s).fns = s.fns := rfl
@[simp] theorem dieSet_qe (k : Nat) (x : Die) : (dieSet k x s).qe = s.qe := rfl
@[simp] theorem dieSet_nss (k : Nat) (x : Die) : (dieSet k x s).nss = s.nss := rfl
@[simp] theorem dieSet_media (k : Nat) (x : Die) : (dieSet k x s).media = { s.media with dies := tset {} k x s.media.dies } := rfl
@[simp] theorem dieSet_map (k : Nat) (x : Die) : (dieSet k x s).map = s.map := rfl
@[simp] theorem dieSet_jnl (k : Nat) (x : Die) : (dieSet k x s).jnl = s.jnl := rfl
@[simp] theorem dieSet_die (k : Nat) (x : Die) : (dieSet k x s).die = s.die := rfl
@[simp] theorem dieSet_ddr (k : Nat) (x : Die) : (dieSet k x s).ddr = s.ddr := rfl
@[simp] theorem dieSet_ham (k : Nat) (x : Die) : (dieSet k x s).ham = s.ham := rfl
@[simp] theorem dieSet_hamPoison (k : Nat) (x : Die) : (dieSet k x s).hamPoison = s.hamPoison := rfl
@[simp] theorem dieSet_hamErr (k : Nat) (x : Die) : (dieSet k x s).hamErr = s.hamErr := rfl
@[simp] theorem dieSet_dram (k : Nat) (x : Die) : (dieSet k x s).dram = s.dram := rfl
@[simp] theorem dieSet_dramPoison (k : Nat) (x : Die) : (dieSet k x s).dramPoison = s.dramPoison := rfl
@[simp] theorem dieSet_dramErr (k : Nat) (x : Die) : (dieSet k x s).dramErr = s.dramErr := rfl
@[simp] theorem dieSet_hamx (k : Nat) (x : Die) : (dieSet k x s).hamx = s.hamx := rfl
@[simp] theorem dieSet_shus (k : Nat) (x : Die) : (dieSet k x s).shus = s.shus := rfl
@[simp] theorem dieSet_lines (k : Nat) (x : Die) : (dieSet k x s).lines = s.lines := rfl
@[simp] theorem dieSet_engs (k : Nat) (x : Die) : (dieSet k x s).engs = s.engs := rfl
@[simp] theorem dieSet_jobSeq (k : Nat) (x : Die) : (dieSet k x s).jobSeq = s.jobSeq := rfl
@[simp] theorem dieSet_digs (k : Nat) (x : Die) : (dieSet k x s).digs = s.digs := rfl
@[simp] theorem dieSet_keys (k : Nat) (x : Die) : (dieSet k x s).keys = s.keys := rfl
@[simp] theorem dieSet_hed (k : Nat) (x : Die) : (dieSet k x s).hed = s.hed := rfl
@[simp] theorem dieSet_hgrp (k : Nat) (x : Die) : (dieSet k x s).hgrp = s.hgrp := rfl
@[simp] theorem dieSet_laneSearch (k : Nat) (x : Die) : (dieSet k x s).laneSearch = s.laneSearch := rfl
@[simp] theorem dieSet_icache (k : Nat) (x : Die) : (dieSet k x s).icache = s.icache := rfl
@[simp] theorem dieSet_cores (k : Nat) (x : Die) : (dieSet k x s).cores = s.cores := rfl
@[simp] theorem dieSet_tasks (k : Nat) (x : Die) : (dieSet k x s).tasks = s.tasks := rfl
@[simp] theorem dieSet_ready (k : Nat) (x : Die) : (dieSet k x s).ready = s.ready := rfl
@[simp] theorem dieSet_progs (k : Nat) (x : Die) : (dieSet k x s).progs = s.progs := rfl
@[simp] theorem dieSet_runs (k : Nat) (x : Die) : (dieSet k x s).runs = s.runs := rfl
@[simp] theorem dieSet_party (k : Nat) (x : Die) : (dieSet k x s).party = s.party := rfl
@[simp] theorem dieSet_mender (k : Nat) (x : Die) : (dieSet k x s).mender = s.mender := rfl
@[simp] theorem dieSet_svc (k : Nat) (x : Die) : (dieSet k x s).svc = s.svc := rfl
@[simp] theorem dieSet_pwr (k : Nat) (x : Die) : (dieSet k x s).pwr = s.pwr := rfl

/-! ### sbSet -/

@[simp] theorem sbSet_pending (k : Nat) (x : Superblock) : (sbSet k x s).pending = s.pending := rfl
@[simp] theorem sbSet_free (k : Nat) (x : Superblock) : (sbSet k x s).free = s.free := rfl
@[simp] theorem sbSet_sent (k : Nat) (x : Superblock) : (sbSet k x s).sent = s.sent := rfl
@[simp] theorem sbSet_pick (k : Nat) (x : Superblock) : (sbSet k x s).pick = s.pick := rfl
@[simp] theorem sbSet_regs (k : Nat) (x : Superblock) : (sbSet k x s).regs = s.regs := rfl
@[simp] theorem sbSet_snaps (k : Nat) (x : Superblock) : (sbSet k x s).snaps = s.snaps := rfl
@[simp] theorem sbSet_due (k : Nat) (x : Superblock) : (sbSet k x s).due = s.due := rfl
@[simp] theorem sbSet_lag (k : Nat) (x : Superblock) : (sbSet k x s).lag = s.lag := rfl
@[simp] theorem sbSet_missed (k : Nat) (x : Superblock) : (sbSet k x s).missed = s.missed := rfl
@[simp] theorem sbSet_weights (k : Nat) (x : Superblock) : (sbSet k x s).weights = s.weights := rfl
@[simp] theorem sbSet_fenceTimes (k : Nat) (x : Superblock) : (sbSet k x s).fenceTimes = s.fenceTimes := rfl
@[simp] theorem sbSet_fenceHeld (k : Nat) (x : Superblock) : (sbSet k x s).fenceHeld = s.fenceHeld := rfl
@[simp] theorem sbSet_log (k : Nat) (x : Superblock) : (sbSet k x s).log = s.log := rfl
@[simp] theorem sbSet_boot (k : Nat) (x : Superblock) : (sbSet k x s).boot = s.boot := rfl
@[simp] theorem sbSet_cxl (k : Nat) (x : Superblock) : (sbSet k x s).cxl = s.cxl := rfl
@[simp] theorem sbSet_fns (k : Nat) (x : Superblock) : (sbSet k x s).fns = s.fns := rfl
@[simp] theorem sbSet_qe (k : Nat) (x : Superblock) : (sbSet k x s).qe = s.qe := rfl
@[simp] theorem sbSet_nss (k : Nat) (x : Superblock) : (sbSet k x s).nss = s.nss := rfl
@[simp] theorem sbSet_media (k : Nat) (x : Superblock) : (sbSet k x s).media = { s.media with sbs := tset {} k x s.media.sbs } := rfl
@[simp] theorem sbSet_map (k : Nat) (x : Superblock) : (sbSet k x s).map = s.map := rfl
@[simp] theorem sbSet_jnl (k : Nat) (x : Superblock) : (sbSet k x s).jnl = s.jnl := rfl
@[simp] theorem sbSet_die (k : Nat) (x : Superblock) : (sbSet k x s).die = s.die := rfl
@[simp] theorem sbSet_ddr (k : Nat) (x : Superblock) : (sbSet k x s).ddr = s.ddr := rfl
@[simp] theorem sbSet_ham (k : Nat) (x : Superblock) : (sbSet k x s).ham = s.ham := rfl
@[simp] theorem sbSet_hamPoison (k : Nat) (x : Superblock) : (sbSet k x s).hamPoison = s.hamPoison := rfl
@[simp] theorem sbSet_hamErr (k : Nat) (x : Superblock) : (sbSet k x s).hamErr = s.hamErr := rfl
@[simp] theorem sbSet_dram (k : Nat) (x : Superblock) : (sbSet k x s).dram = s.dram := rfl
@[simp] theorem sbSet_dramPoison (k : Nat) (x : Superblock) : (sbSet k x s).dramPoison = s.dramPoison := rfl
@[simp] theorem sbSet_dramErr (k : Nat) (x : Superblock) : (sbSet k x s).dramErr = s.dramErr := rfl
@[simp] theorem sbSet_hamx (k : Nat) (x : Superblock) : (sbSet k x s).hamx = s.hamx := rfl
@[simp] theorem sbSet_shus (k : Nat) (x : Superblock) : (sbSet k x s).shus = s.shus := rfl
@[simp] theorem sbSet_lines (k : Nat) (x : Superblock) : (sbSet k x s).lines = s.lines := rfl
@[simp] theorem sbSet_engs (k : Nat) (x : Superblock) : (sbSet k x s).engs = s.engs := rfl
@[simp] theorem sbSet_jobSeq (k : Nat) (x : Superblock) : (sbSet k x s).jobSeq = s.jobSeq := rfl
@[simp] theorem sbSet_digs (k : Nat) (x : Superblock) : (sbSet k x s).digs = s.digs := rfl
@[simp] theorem sbSet_keys (k : Nat) (x : Superblock) : (sbSet k x s).keys = s.keys := rfl
@[simp] theorem sbSet_hed (k : Nat) (x : Superblock) : (sbSet k x s).hed = s.hed := rfl
@[simp] theorem sbSet_hgrp (k : Nat) (x : Superblock) : (sbSet k x s).hgrp = s.hgrp := rfl
@[simp] theorem sbSet_laneSearch (k : Nat) (x : Superblock) : (sbSet k x s).laneSearch = s.laneSearch := rfl
@[simp] theorem sbSet_icache (k : Nat) (x : Superblock) : (sbSet k x s).icache = s.icache := rfl
@[simp] theorem sbSet_cores (k : Nat) (x : Superblock) : (sbSet k x s).cores = s.cores := rfl
@[simp] theorem sbSet_tasks (k : Nat) (x : Superblock) : (sbSet k x s).tasks = s.tasks := rfl
@[simp] theorem sbSet_ready (k : Nat) (x : Superblock) : (sbSet k x s).ready = s.ready := rfl
@[simp] theorem sbSet_progs (k : Nat) (x : Superblock) : (sbSet k x s).progs = s.progs := rfl
@[simp] theorem sbSet_runs (k : Nat) (x : Superblock) : (sbSet k x s).runs = s.runs := rfl
@[simp] theorem sbSet_party (k : Nat) (x : Superblock) : (sbSet k x s).party = s.party := rfl
@[simp] theorem sbSet_mender (k : Nat) (x : Superblock) : (sbSet k x s).mender = s.mender := rfl
@[simp] theorem sbSet_svc (k : Nat) (x : Superblock) : (sbSet k x s).svc = s.svc := rfl
@[simp] theorem sbSet_pwr (k : Nat) (x : Superblock) : (sbSet k x s).pwr = s.pwr := rfl

/-! ### cxlMod -/

@[simp] theorem cxlMod_pending (g : Cxl → Cxl) : (cxlMod g s).pending = s.pending := rfl
@[simp] theorem cxlMod_free (g : Cxl → Cxl) : (cxlMod g s).free = s.free := rfl
@[simp] theorem cxlMod_sent (g : Cxl → Cxl) : (cxlMod g s).sent = s.sent := rfl
@[simp] theorem cxlMod_pick (g : Cxl → Cxl) : (cxlMod g s).pick = s.pick := rfl
@[simp] theorem cxlMod_regs (g : Cxl → Cxl) : (cxlMod g s).regs = s.regs := rfl
@[simp] theorem cxlMod_snaps (g : Cxl → Cxl) : (cxlMod g s).snaps = s.snaps := rfl
@[simp] theorem cxlMod_due (g : Cxl → Cxl) : (cxlMod g s).due = s.due := rfl
@[simp] theorem cxlMod_lag (g : Cxl → Cxl) : (cxlMod g s).lag = s.lag := rfl
@[simp] theorem cxlMod_missed (g : Cxl → Cxl) : (cxlMod g s).missed = s.missed := rfl
@[simp] theorem cxlMod_weights (g : Cxl → Cxl) : (cxlMod g s).weights = s.weights := rfl
@[simp] theorem cxlMod_fenceTimes (g : Cxl → Cxl) : (cxlMod g s).fenceTimes = s.fenceTimes := rfl
@[simp] theorem cxlMod_fenceHeld (g : Cxl → Cxl) : (cxlMod g s).fenceHeld = s.fenceHeld := rfl
@[simp] theorem cxlMod_log (g : Cxl → Cxl) : (cxlMod g s).log = s.log := rfl
@[simp] theorem cxlMod_boot (g : Cxl → Cxl) : (cxlMod g s).boot = s.boot := rfl
@[simp] theorem cxlMod_cxl (g : Cxl → Cxl) : (cxlMod g s).cxl = g s.cxl := rfl
@[simp] theorem cxlMod_fns (g : Cxl → Cxl) : (cxlMod g s).fns = s.fns := rfl
@[simp] theorem cxlMod_qe (g : Cxl → Cxl) : (cxlMod g s).qe = s.qe := rfl
@[simp] theorem cxlMod_nss (g : Cxl → Cxl) : (cxlMod g s).nss = s.nss := rfl
@[simp] theorem cxlMod_media (g : Cxl → Cxl) : (cxlMod g s).media = s.media := rfl
@[simp] theorem cxlMod_map (g : Cxl → Cxl) : (cxlMod g s).map = s.map := rfl
@[simp] theorem cxlMod_jnl (g : Cxl → Cxl) : (cxlMod g s).jnl = s.jnl := rfl
@[simp] theorem cxlMod_die (g : Cxl → Cxl) : (cxlMod g s).die = s.die := rfl
@[simp] theorem cxlMod_ddr (g : Cxl → Cxl) : (cxlMod g s).ddr = s.ddr := rfl
@[simp] theorem cxlMod_ham (g : Cxl → Cxl) : (cxlMod g s).ham = s.ham := rfl
@[simp] theorem cxlMod_hamPoison (g : Cxl → Cxl) : (cxlMod g s).hamPoison = s.hamPoison := rfl
@[simp] theorem cxlMod_hamErr (g : Cxl → Cxl) : (cxlMod g s).hamErr = s.hamErr := rfl
@[simp] theorem cxlMod_dram (g : Cxl → Cxl) : (cxlMod g s).dram = s.dram := rfl
@[simp] theorem cxlMod_dramPoison (g : Cxl → Cxl) : (cxlMod g s).dramPoison = s.dramPoison := rfl
@[simp] theorem cxlMod_dramErr (g : Cxl → Cxl) : (cxlMod g s).dramErr = s.dramErr := rfl
@[simp] theorem cxlMod_hamx (g : Cxl → Cxl) : (cxlMod g s).hamx = s.hamx := rfl
@[simp] theorem cxlMod_shus (g : Cxl → Cxl) : (cxlMod g s).shus = s.shus := rfl
@[simp] theorem cxlMod_lines (g : Cxl → Cxl) : (cxlMod g s).lines = s.lines := rfl
@[simp] theorem cxlMod_engs (g : Cxl → Cxl) : (cxlMod g s).engs = s.engs := rfl
@[simp] theorem cxlMod_jobSeq (g : Cxl → Cxl) : (cxlMod g s).jobSeq = s.jobSeq := rfl
@[simp] theorem cxlMod_digs (g : Cxl → Cxl) : (cxlMod g s).digs = s.digs := rfl
@[simp] theorem cxlMod_keys (g : Cxl → Cxl) : (cxlMod g s).keys = s.keys := rfl
@[simp] theorem cxlMod_hed (g : Cxl → Cxl) : (cxlMod g s).hed = s.hed := rfl
@[simp] theorem cxlMod_hgrp (g : Cxl → Cxl) : (cxlMod g s).hgrp = s.hgrp := rfl
@[simp] theorem cxlMod_laneSearch (g : Cxl → Cxl) : (cxlMod g s).laneSearch = s.laneSearch := rfl
@[simp] theorem cxlMod_icache (g : Cxl → Cxl) : (cxlMod g s).icache = s.icache := rfl
@[simp] theorem cxlMod_cores (g : Cxl → Cxl) : (cxlMod g s).cores = s.cores := rfl
@[simp] theorem cxlMod_tasks (g : Cxl → Cxl) : (cxlMod g s).tasks = s.tasks := rfl
@[simp] theorem cxlMod_ready (g : Cxl → Cxl) : (cxlMod g s).ready = s.ready := rfl
@[simp] theorem cxlMod_progs (g : Cxl → Cxl) : (cxlMod g s).progs = s.progs := rfl
@[simp] theorem cxlMod_runs (g : Cxl → Cxl) : (cxlMod g s).runs = s.runs := rfl
@[simp] theorem cxlMod_party (g : Cxl → Cxl) : (cxlMod g s).party = s.party := rfl
@[simp] theorem cxlMod_mender (g : Cxl → Cxl) : (cxlMod g s).mender = s.mender := rfl
@[simp] theorem cxlMod_svc (g : Cxl → Cxl) : (cxlMod g s).svc = s.svc := rfl
@[simp] theorem cxlMod_pwr (g : Cxl → Cxl) : (cxlMod g s).pwr = s.pwr := rfl

/-! ### bootMod -/

@[simp] theorem bootMod_pending (g : Boot → Boot) : (bootMod g s).pending = s.pending := rfl
@[simp] theorem bootMod_free (g : Boot → Boot) : (bootMod g s).free = s.free := rfl
@[simp] theorem bootMod_sent (g : Boot → Boot) : (bootMod g s).sent = s.sent := rfl
@[simp] theorem bootMod_pick (g : Boot → Boot) : (bootMod g s).pick = s.pick := rfl
@[simp] theorem bootMod_regs (g : Boot → Boot) : (bootMod g s).regs = s.regs := rfl
@[simp] theorem bootMod_snaps (g : Boot → Boot) : (bootMod g s).snaps = s.snaps := rfl
@[simp] theorem bootMod_due (g : Boot → Boot) : (bootMod g s).due = s.due := rfl
@[simp] theorem bootMod_lag (g : Boot → Boot) : (bootMod g s).lag = s.lag := rfl
@[simp] theorem bootMod_missed (g : Boot → Boot) : (bootMod g s).missed = s.missed := rfl
@[simp] theorem bootMod_weights (g : Boot → Boot) : (bootMod g s).weights = s.weights := rfl
@[simp] theorem bootMod_fenceTimes (g : Boot → Boot) : (bootMod g s).fenceTimes = s.fenceTimes := rfl
@[simp] theorem bootMod_fenceHeld (g : Boot → Boot) : (bootMod g s).fenceHeld = s.fenceHeld := rfl
@[simp] theorem bootMod_log (g : Boot → Boot) : (bootMod g s).log = s.log := rfl
@[simp] theorem bootMod_boot (g : Boot → Boot) : (bootMod g s).boot = g s.boot := rfl
@[simp] theorem bootMod_cxl (g : Boot → Boot) : (bootMod g s).cxl = s.cxl := rfl
@[simp] theorem bootMod_fns (g : Boot → Boot) : (bootMod g s).fns = s.fns := rfl
@[simp] theorem bootMod_qe (g : Boot → Boot) : (bootMod g s).qe = s.qe := rfl
@[simp] theorem bootMod_nss (g : Boot → Boot) : (bootMod g s).nss = s.nss := rfl
@[simp] theorem bootMod_media (g : Boot → Boot) : (bootMod g s).media = s.media := rfl
@[simp] theorem bootMod_map (g : Boot → Boot) : (bootMod g s).map = s.map := rfl
@[simp] theorem bootMod_jnl (g : Boot → Boot) : (bootMod g s).jnl = s.jnl := rfl
@[simp] theorem bootMod_die (g : Boot → Boot) : (bootMod g s).die = s.die := rfl
@[simp] theorem bootMod_ddr (g : Boot → Boot) : (bootMod g s).ddr = s.ddr := rfl
@[simp] theorem bootMod_ham (g : Boot → Boot) : (bootMod g s).ham = s.ham := rfl
@[simp] theorem bootMod_hamPoison (g : Boot → Boot) : (bootMod g s).hamPoison = s.hamPoison := rfl
@[simp] theorem bootMod_hamErr (g : Boot → Boot) : (bootMod g s).hamErr = s.hamErr := rfl
@[simp] theorem bootMod_dram (g : Boot → Boot) : (bootMod g s).dram = s.dram := rfl
@[simp] theorem bootMod_dramPoison (g : Boot → Boot) : (bootMod g s).dramPoison = s.dramPoison := rfl
@[simp] theorem bootMod_dramErr (g : Boot → Boot) : (bootMod g s).dramErr = s.dramErr := rfl
@[simp] theorem bootMod_hamx (g : Boot → Boot) : (bootMod g s).hamx = s.hamx := rfl
@[simp] theorem bootMod_shus (g : Boot → Boot) : (bootMod g s).shus = s.shus := rfl
@[simp] theorem bootMod_lines (g : Boot → Boot) : (bootMod g s).lines = s.lines := rfl
@[simp] theorem bootMod_engs (g : Boot → Boot) : (bootMod g s).engs = s.engs := rfl
@[simp] theorem bootMod_jobSeq (g : Boot → Boot) : (bootMod g s).jobSeq = s.jobSeq := rfl
@[simp] theorem bootMod_digs (g : Boot → Boot) : (bootMod g s).digs = s.digs := rfl
@[simp] theorem bootMod_keys (g : Boot → Boot) : (bootMod g s).keys = s.keys := rfl
@[simp] theorem bootMod_hed (g : Boot → Boot) : (bootMod g s).hed = s.hed := rfl
@[simp] theorem bootMod_hgrp (g : Boot → Boot) : (bootMod g s).hgrp = s.hgrp := rfl
@[simp] theorem bootMod_laneSearch (g : Boot → Boot) : (bootMod g s).laneSearch = s.laneSearch := rfl
@[simp] theorem bootMod_icache (g : Boot → Boot) : (bootMod g s).icache = s.icache := rfl
@[simp] theorem bootMod_cores (g : Boot → Boot) : (bootMod g s).cores = s.cores := rfl
@[simp] theorem bootMod_tasks (g : Boot → Boot) : (bootMod g s).tasks = s.tasks := rfl
@[simp] theorem bootMod_ready (g : Boot → Boot) : (bootMod g s).ready = s.ready := rfl
@[simp] theorem bootMod_progs (g : Boot → Boot) : (bootMod g s).progs = s.progs := rfl
@[simp] theorem bootMod_runs (g : Boot → Boot) : (bootMod g s).runs = s.runs := rfl
@[simp] theorem bootMod_party (g : Boot → Boot) : (bootMod g s).party = s.party := rfl
@[simp] theorem bootMod_mender (g : Boot → Boot) : (bootMod g s).mender = s.mender := rfl
@[simp] theorem bootMod_svc (g : Boot → Boot) : (bootMod g s).svc = s.svc := rfl
@[simp] theorem bootMod_pwr (g : Boot → Boot) : (bootMod g s).pwr = s.pwr := rfl

/-! ### svcMod -/

@[simp] theorem svcMod_pending (g : Svc → Svc) : (svcMod g s).pending = s.pending := rfl
@[simp] theorem svcMod_free (g : Svc → Svc) : (svcMod g s).free = s.free := rfl
@[simp] theorem svcMod_sent (g : Svc → Svc) : (svcMod g s).sent = s.sent := rfl
@[simp] theorem svcMod_pick (g : Svc → Svc) : (svcMod g s).pick = s.pick := rfl
@[simp] theorem svcMod_regs (g : Svc → Svc) : (svcMod g s).regs = s.regs := rfl
@[simp] theorem svcMod_snaps (g : Svc → Svc) : (svcMod g s).snaps = s.snaps := rfl
@[simp] theorem svcMod_due (g : Svc → Svc) : (svcMod g s).due = s.due := rfl
@[simp] theorem svcMod_lag (g : Svc → Svc) : (svcMod g s).lag = s.lag := rfl
@[simp] theorem svcMod_missed (g : Svc → Svc) : (svcMod g s).missed = s.missed := rfl
@[simp] theorem svcMod_weights (g : Svc → Svc) : (svcMod g s).weights = s.weights := rfl
@[simp] theorem svcMod_fenceTimes (g : Svc → Svc) : (svcMod g s).fenceTimes = s.fenceTimes := rfl
@[simp] theorem svcMod_fenceHeld (g : Svc → Svc) : (svcMod g s).fenceHeld = s.fenceHeld := rfl
@[simp] theorem svcMod_log (g : Svc → Svc) : (svcMod g s).log = s.log := rfl
@[simp] theorem svcMod_boot (g : Svc → Svc) : (svcMod g s).boot = s.boot := rfl
@[simp] theorem svcMod_cxl (g : Svc → Svc) : (svcMod g s).cxl = s.cxl := rfl
@[simp] theorem svcMod_fns (g : Svc → Svc) : (svcMod g s).fns = s.fns := rfl
@[simp] theorem svcMod_qe (g : Svc → Svc) : (svcMod g s).qe = s.qe := rfl
@[simp] theorem svcMod_nss (g : Svc → Svc) : (svcMod g s).nss = s.nss := rfl
@[simp] theorem svcMod_media (g : Svc → Svc) : (svcMod g s).media = s.media := rfl
@[simp] theorem svcMod_map (g : Svc → Svc) : (svcMod g s).map = s.map := rfl
@[simp] theorem svcMod_jnl (g : Svc → Svc) : (svcMod g s).jnl = s.jnl := rfl
@[simp] theorem svcMod_die (g : Svc → Svc) : (svcMod g s).die = s.die := rfl
@[simp] theorem svcMod_ddr (g : Svc → Svc) : (svcMod g s).ddr = s.ddr := rfl
@[simp] theorem svcMod_ham (g : Svc → Svc) : (svcMod g s).ham = s.ham := rfl
@[simp] theorem svcMod_hamPoison (g : Svc → Svc) : (svcMod g s).hamPoison = s.hamPoison := rfl
@[simp] theorem svcMod_hamErr (g : Svc → Svc) : (svcMod g s).hamErr = s.hamErr := rfl
@[simp] theorem svcMod_dram (g : Svc → Svc) : (svcMod g s).dram = s.dram := rfl
@[simp] theorem svcMod_dramPoison (g : Svc → Svc) : (svcMod g s).dramPoison = s.dramPoison := rfl
@[simp] theorem svcMod_dramErr (g : Svc → Svc) : (svcMod g s).dramErr = s.dramErr := rfl
@[simp] theorem svcMod_hamx (g : Svc → Svc) : (svcMod g s).hamx = s.hamx := rfl
@[simp] theorem svcMod_shus (g : Svc → Svc) : (svcMod g s).shus = s.shus := rfl
@[simp] theorem svcMod_lines (g : Svc → Svc) : (svcMod g s).lines = s.lines := rfl
@[simp] theorem svcMod_engs (g : Svc → Svc) : (svcMod g s).engs = s.engs := rfl
@[simp] theorem svcMod_jobSeq (g : Svc → Svc) : (svcMod g s).jobSeq = s.jobSeq := rfl
@[simp] theorem svcMod_digs (g : Svc → Svc) : (svcMod g s).digs = s.digs := rfl
@[simp] theorem svcMod_keys (g : Svc → Svc) : (svcMod g s).keys = s.keys := rfl
@[simp] theorem svcMod_hed (g : Svc → Svc) : (svcMod g s).hed = s.hed := rfl
@[simp] theorem svcMod_hgrp (g : Svc → Svc) : (svcMod g s).hgrp = s.hgrp := rfl
@[simp] theorem svcMod_laneSearch (g : Svc → Svc) : (svcMod g s).laneSearch = s.laneSearch := rfl
@[simp] theorem svcMod_icache (g : Svc → Svc) : (svcMod g s).icache = s.icache := rfl
@[simp] theorem svcMod_cores (g : Svc → Svc) : (svcMod g s).cores = s.cores := rfl
@[simp] theorem svcMod_tasks (g : Svc → Svc) : (svcMod g s).tasks = s.tasks := rfl
@[simp] theorem svcMod_ready (g : Svc → Svc) : (svcMod g s).ready = s.ready := rfl
@[simp] theorem svcMod_progs (g : Svc → Svc) : (svcMod g s).progs = s.progs := rfl
@[simp] theorem svcMod_runs (g : Svc → Svc) : (svcMod g s).runs = s.runs := rfl
@[simp] theorem svcMod_party (g : Svc → Svc) : (svcMod g s).party = s.party := rfl
@[simp] theorem svcMod_mender (g : Svc → Svc) : (svcMod g s).mender = s.mender := rfl
@[simp] theorem svcMod_svc (g : Svc → Svc) : (svcMod g s).svc = g s.svc := rfl
@[simp] theorem svcMod_pwr (g : Svc → Svc) : (svcMod g s).pwr = s.pwr := rfl

/-! ### ptyMod -/

@[simp] theorem ptyMod_pending (g : Party → Party) : (ptyMod g s).pending = s.pending := rfl
@[simp] theorem ptyMod_free (g : Party → Party) : (ptyMod g s).free = s.free := rfl
@[simp] theorem ptyMod_sent (g : Party → Party) : (ptyMod g s).sent = s.sent := rfl
@[simp] theorem ptyMod_pick (g : Party → Party) : (ptyMod g s).pick = s.pick := rfl
@[simp] theorem ptyMod_regs (g : Party → Party) : (ptyMod g s).regs = s.regs := rfl
@[simp] theorem ptyMod_snaps (g : Party → Party) : (ptyMod g s).snaps = s.snaps := rfl
@[simp] theorem ptyMod_due (g : Party → Party) : (ptyMod g s).due = s.due := rfl
@[simp] theorem ptyMod_lag (g : Party → Party) : (ptyMod g s).lag = s.lag := rfl
@[simp] theorem ptyMod_missed (g : Party → Party) : (ptyMod g s).missed = s.missed := rfl
@[simp] theorem ptyMod_weights (g : Party → Party) : (ptyMod g s).weights = s.weights := rfl
@[simp] theorem ptyMod_fenceTimes (g : Party → Party) : (ptyMod g s).fenceTimes = s.fenceTimes := rfl
@[simp] theorem ptyMod_fenceHeld (g : Party → Party) : (ptyMod g s).fenceHeld = s.fenceHeld := rfl
@[simp] theorem ptyMod_log (g : Party → Party) : (ptyMod g s).log = s.log := rfl
@[simp] theorem ptyMod_boot (g : Party → Party) : (ptyMod g s).boot = s.boot := rfl
@[simp] theorem ptyMod_cxl (g : Party → Party) : (ptyMod g s).cxl = s.cxl := rfl
@[simp] theorem ptyMod_fns (g : Party → Party) : (ptyMod g s).fns = s.fns := rfl
@[simp] theorem ptyMod_qe (g : Party → Party) : (ptyMod g s).qe = s.qe := rfl
@[simp] theorem ptyMod_nss (g : Party → Party) : (ptyMod g s).nss = s.nss := rfl
@[simp] theorem ptyMod_media (g : Party → Party) : (ptyMod g s).media = s.media := rfl
@[simp] theorem ptyMod_map (g : Party → Party) : (ptyMod g s).map = s.map := rfl
@[simp] theorem ptyMod_jnl (g : Party → Party) : (ptyMod g s).jnl = s.jnl := rfl
@[simp] theorem ptyMod_die (g : Party → Party) : (ptyMod g s).die = s.die := rfl
@[simp] theorem ptyMod_ddr (g : Party → Party) : (ptyMod g s).ddr = s.ddr := rfl
@[simp] theorem ptyMod_ham (g : Party → Party) : (ptyMod g s).ham = s.ham := rfl
@[simp] theorem ptyMod_hamPoison (g : Party → Party) : (ptyMod g s).hamPoison = s.hamPoison := rfl
@[simp] theorem ptyMod_hamErr (g : Party → Party) : (ptyMod g s).hamErr = s.hamErr := rfl
@[simp] theorem ptyMod_dram (g : Party → Party) : (ptyMod g s).dram = s.dram := rfl
@[simp] theorem ptyMod_dramPoison (g : Party → Party) : (ptyMod g s).dramPoison = s.dramPoison := rfl
@[simp] theorem ptyMod_dramErr (g : Party → Party) : (ptyMod g s).dramErr = s.dramErr := rfl
@[simp] theorem ptyMod_hamx (g : Party → Party) : (ptyMod g s).hamx = s.hamx := rfl
@[simp] theorem ptyMod_shus (g : Party → Party) : (ptyMod g s).shus = s.shus := rfl
@[simp] theorem ptyMod_lines (g : Party → Party) : (ptyMod g s).lines = s.lines := rfl
@[simp] theorem ptyMod_engs (g : Party → Party) : (ptyMod g s).engs = s.engs := rfl
@[simp] theorem ptyMod_jobSeq (g : Party → Party) : (ptyMod g s).jobSeq = s.jobSeq := rfl
@[simp] theorem ptyMod_digs (g : Party → Party) : (ptyMod g s).digs = s.digs := rfl
@[simp] theorem ptyMod_keys (g : Party → Party) : (ptyMod g s).keys = s.keys := rfl
@[simp] theorem ptyMod_hed (g : Party → Party) : (ptyMod g s).hed = s.hed := rfl
@[simp] theorem ptyMod_hgrp (g : Party → Party) : (ptyMod g s).hgrp = s.hgrp := rfl
@[simp] theorem ptyMod_laneSearch (g : Party → Party) : (ptyMod g s).laneSearch = s.laneSearch := rfl
@[simp] theorem ptyMod_icache (g : Party → Party) : (ptyMod g s).icache = s.icache := rfl
@[simp] theorem ptyMod_cores (g : Party → Party) : (ptyMod g s).cores = s.cores := rfl
@[simp] theorem ptyMod_tasks (g : Party → Party) : (ptyMod g s).tasks = s.tasks := rfl
@[simp] theorem ptyMod_ready (g : Party → Party) : (ptyMod g s).ready = s.ready := rfl
@[simp] theorem ptyMod_progs (g : Party → Party) : (ptyMod g s).progs = s.progs := rfl
@[simp] theorem ptyMod_runs (g : Party → Party) : (ptyMod g s).runs = s.runs := rfl
@[simp] theorem ptyMod_party (g : Party → Party) : (ptyMod g s).party = g s.party := rfl
@[simp] theorem ptyMod_mender (g : Party → Party) : (ptyMod g s).mender = s.mender := rfl
@[simp] theorem ptyMod_svc (g : Party → Party) : (ptyMod g s).svc = s.svc := rfl
@[simp] theorem ptyMod_pwr (g : Party → Party) : (ptyMod g s).pwr = s.pwr := rfl

/-! ### mndMod -/

@[simp] theorem mndMod_pending (g : Mender → Mender) : (mndMod g s).pending = s.pending := rfl
@[simp] theorem mndMod_free (g : Mender → Mender) : (mndMod g s).free = s.free := rfl
@[simp] theorem mndMod_sent (g : Mender → Mender) : (mndMod g s).sent = s.sent := rfl
@[simp] theorem mndMod_pick (g : Mender → Mender) : (mndMod g s).pick = s.pick := rfl
@[simp] theorem mndMod_regs (g : Mender → Mender) : (mndMod g s).regs = s.regs := rfl
@[simp] theorem mndMod_snaps (g : Mender → Mender) : (mndMod g s).snaps = s.snaps := rfl
@[simp] theorem mndMod_due (g : Mender → Mender) : (mndMod g s).due = s.due := rfl
@[simp] theorem mndMod_lag (g : Mender → Mender) : (mndMod g s).lag = s.lag := rfl
@[simp] theorem mndMod_missed (g : Mender → Mender) : (mndMod g s).missed = s.missed := rfl
@[simp] theorem mndMod_weights (g : Mender → Mender) : (mndMod g s).weights = s.weights := rfl
@[simp] theorem mndMod_fenceTimes (g : Mender → Mender) : (mndMod g s).fenceTimes = s.fenceTimes := rfl
@[simp] theorem mndMod_fenceHeld (g : Mender → Mender) : (mndMod g s).fenceHeld = s.fenceHeld := rfl
@[simp] theorem mndMod_log (g : Mender → Mender) : (mndMod g s).log = s.log := rfl
@[simp] theorem mndMod_boot (g : Mender → Mender) : (mndMod g s).boot = s.boot := rfl
@[simp] theorem mndMod_cxl (g : Mender → Mender) : (mndMod g s).cxl = s.cxl := rfl
@[simp] theorem mndMod_fns (g : Mender → Mender) : (mndMod g s).fns = s.fns := rfl
@[simp] theorem mndMod_qe (g : Mender → Mender) : (mndMod g s).qe = s.qe := rfl
@[simp] theorem mndMod_nss (g : Mender → Mender) : (mndMod g s).nss = s.nss := rfl
@[simp] theorem mndMod_media (g : Mender → Mender) : (mndMod g s).media = s.media := rfl
@[simp] theorem mndMod_map (g : Mender → Mender) : (mndMod g s).map = s.map := rfl
@[simp] theorem mndMod_jnl (g : Mender → Mender) : (mndMod g s).jnl = s.jnl := rfl
@[simp] theorem mndMod_die (g : Mender → Mender) : (mndMod g s).die = s.die := rfl
@[simp] theorem mndMod_ddr (g : Mender → Mender) : (mndMod g s).ddr = s.ddr := rfl
@[simp] theorem mndMod_ham (g : Mender → Mender) : (mndMod g s).ham = s.ham := rfl
@[simp] theorem mndMod_hamPoison (g : Mender → Mender) : (mndMod g s).hamPoison = s.hamPoison := rfl
@[simp] theorem mndMod_hamErr (g : Mender → Mender) : (mndMod g s).hamErr = s.hamErr := rfl
@[simp] theorem mndMod_dram (g : Mender → Mender) : (mndMod g s).dram = s.dram := rfl
@[simp] theorem mndMod_dramPoison (g : Mender → Mender) : (mndMod g s).dramPoison = s.dramPoison := rfl
@[simp] theorem mndMod_dramErr (g : Mender → Mender) : (mndMod g s).dramErr = s.dramErr := rfl
@[simp] theorem mndMod_hamx (g : Mender → Mender) : (mndMod g s).hamx = s.hamx := rfl
@[simp] theorem mndMod_shus (g : Mender → Mender) : (mndMod g s).shus = s.shus := rfl
@[simp] theorem mndMod_lines (g : Mender → Mender) : (mndMod g s).lines = s.lines := rfl
@[simp] theorem mndMod_engs (g : Mender → Mender) : (mndMod g s).engs = s.engs := rfl
@[simp] theorem mndMod_jobSeq (g : Mender → Mender) : (mndMod g s).jobSeq = s.jobSeq := rfl
@[simp] theorem mndMod_digs (g : Mender → Mender) : (mndMod g s).digs = s.digs := rfl
@[simp] theorem mndMod_keys (g : Mender → Mender) : (mndMod g s).keys = s.keys := rfl
@[simp] theorem mndMod_hed (g : Mender → Mender) : (mndMod g s).hed = s.hed := rfl
@[simp] theorem mndMod_hgrp (g : Mender → Mender) : (mndMod g s).hgrp = s.hgrp := rfl
@[simp] theorem mndMod_laneSearch (g : Mender → Mender) : (mndMod g s).laneSearch = s.laneSearch := rfl
@[simp] theorem mndMod_icache (g : Mender → Mender) : (mndMod g s).icache = s.icache := rfl
@[simp] theorem mndMod_cores (g : Mender → Mender) : (mndMod g s).cores = s.cores := rfl
@[simp] theorem mndMod_tasks (g : Mender → Mender) : (mndMod g s).tasks = s.tasks := rfl
@[simp] theorem mndMod_ready (g : Mender → Mender) : (mndMod g s).ready = s.ready := rfl
@[simp] theorem mndMod_progs (g : Mender → Mender) : (mndMod g s).progs = s.progs := rfl
@[simp] theorem mndMod_runs (g : Mender → Mender) : (mndMod g s).runs = s.runs := rfl
@[simp] theorem mndMod_party (g : Mender → Mender) : (mndMod g s).party = s.party := rfl
@[simp] theorem mndMod_mender (g : Mender → Mender) : (mndMod g s).mender = g s.mender := rfl
@[simp] theorem mndMod_svc (g : Mender → Mender) : (mndMod g s).svc = s.svc := rfl
@[simp] theorem mndMod_pwr (g : Mender → Mender) : (mndMod g s).pwr = s.pwr := rfl

end Sys2Proof.Machine
end

