-- ==== Sys2Proof/Laws/Frame.lean ====
section
/-!
SUPPORT. What the shared operations can change at all. Events, interrupts, decrements, completions and charges touch messages, registers,
due effects, the event log, functions, cores, tasks, ready lists and fence records, and nothing else; a completion marks staging slots,
and ending a command touches the queue engine and the reads of the flash besides.
-/
namespace Sys2Proof.Machine

variable {s t u : State}

/-- `t` differs from `s` only where events, interrupts and decrements reach. -/
def Quiet (s t : State) : Prop :=
  t = { s with
    sent := t.sent, regs := t.regs, due := t.due, log := t.log, fns := t.fns, cores := t.cores, tasks := t.tasks, ready := t.ready,
    fenceTimes := t.fenceTimes, fenceHeld := t.fenceHeld }

theorem Quiet.refl : Quiet s s := rfl
theorem Quiet.trans (h : Quiet s t) (g : Quiet t u) : Quiet s u := by
  unfold Quiet at *
  rw [g, h]

theorem Quiet.pick (h : Quiet s t) : t.pick = s.pick := by rw [h]
theorem Quiet.pending (h : Quiet s t) : t.pending = s.pending := by rw [h]
theorem Quiet.map (h : Quiet s t) : t.map = s.map := by rw [h]
theorem Quiet.jnl (h : Quiet s t) : t.jnl = s.jnl := by rw [h]
theorem Quiet.die (h : Quiet s t) : t.die = s.die := by rw [h]
theorem Quiet.ham (h : Quiet s t) : t.ham = s.ham := by rw [h]
theorem Quiet.hamPoison (h : Quiet s t) : t.hamPoison = s.hamPoison := by rw [h]
theorem Quiet.dram (h : Quiet s t) : t.dram = s.dram := by rw [h]
theorem Quiet.dramPoison (h : Quiet s t) : t.dramPoison = s.dramPoison := by rw [h]
theorem Quiet.boot (h : Quiet s t) : t.boot = s.boot := by rw [h]
theorem Quiet.cxl (h : Quiet s t) : t.cxl = s.cxl := by rw [h]
theorem Quiet.qe (h : Quiet s t) : t.qe = s.qe := by rw [h]
theorem Quiet.nss (h : Quiet s t) : t.nss = s.nss := by rw [h]
theorem Quiet.media (h : Quiet s t) : t.media = s.media := by rw [h]
theorem Quiet.party (h : Quiet s t) : t.party = s.party := by rw [h]
theorem Quiet.mender (h : Quiet s t) : t.mender = s.mender := by rw [h]
theorem Quiet.engs (h : Quiet s t) : t.engs = s.engs := by rw [h]
theorem Quiet.shus (h : Quiet s t) : t.shus = s.shus := by rw [h]
theorem Quiet.lines (h : Quiet s t) : t.lines = s.lines := by rw [h]
theorem Quiet.hed (h : Quiet s t) : t.hed = s.hed := by rw [h]
theorem Quiet.keys (h : Quiet s t) : t.keys = s.keys := by rw [h]
theorem Quiet.runs (h : Quiet s t) : t.runs = s.runs := by rw [h]
theorem Quiet.progs (h : Quiet s t) : t.progs = s.progs := by rw [h]
theorem Quiet.svc (h : Quiet s t) : t.svc = s.svc := by rw [h]
theorem Quiet.pwr (h : Quiet s t) : t.pwr = s.pwr := by rw [h]
theorem Quiet.snaps (h : Quiet s t) : t.snaps = s.snaps := by rw [h]

theorem quiet_ite {c : Prop} [Decidable c] (ht : Quiet s t) (hu : Quiet s u) : Quiet s (if c then t else u) := by
  split
  · exact ht
  · exact hu

theorem quiet_foldl {α : Type} {g : State → α → State} {l : List α} (hg : ∀ s x, Quiet s (g s x)) : Quiet s (l.foldl g s) := by
  induction l generalizing s with
  | nil => exact .refl
  | cons x l ih => exact (hg s x).trans ih

/-! ### Basic updates -/

theorem regSet_quiet (a v : Nat) (s : State) : Quiet s (regSet a v s) := rfl
theorem regAdd_quiet (a n : Nat) (s : State) : Quiet s (regAdd a n s) := rfl
theorem regAdd32_quiet (a n : Nat) (s : State) : Quiet s (regAdd32 a n s) := rfl
theorem regSat_quiet (a n : Nat) (s : State) : Quiet s (regSat a n s) := rfl
theorem regSetFld_quiet (a hi lo v : Nat) (s : State) : Quiet s (regSetFld a hi lo v s) := rfl
theorem regMax_quiet (a v : Nat) (s : State) : Quiet s (regMax a v s) := quiet_ite rfl .refl
theorem emit_quiet (m : Sent) (s : State) : Quiet s (emit m s) := rfl
theorem later_quiet (d : Due) (s : State) : Quiet s (later d s) := rfl
theorem fnSet_quiet (f : Nat) (x : Fn) (s : State) : Quiet s (fnSet f x s) := rfl
theorem fnMod_quiet (f : Nat) (g : Fn → Fn) (s : State) : Quiet s (fnMod f g s) := rfl
theorem taskSet_quiet (k : Nat) (x : Task) (s : State) : Quiet s (taskSet k x s) := rfl
theorem taskMod_quiet (k : Nat) (g : Task → Task) (s : State) : Quiet s (taskMod k g s) := rfl
theorem coreMod_quiet (n : Nat) (g : Core → Core) (s : State) : Quiet s (coreMod n g s) := rfl
theorem readySet_quiet (k : Nat) (l : List Nat) (s : State) : Quiet s (readySet k l s) := rfl
theorem charge_quiet (f r n : Nat) (s : State) : Quiet s (charge f r n s) := by
  unfold charge
  repeat' split
  all_goals exact rfl

/-! ### Decrements and interrupts -/

theorem joinList_quiet (k n : Nat) (b : Bool) (s : State) : Quiet s (joinList k n b s) :=
  ((readySet_quiet _ _ _).trans (taskMod_quiet _ _ _)).trans ((regAdd_quiet _ _ _).trans (regMax_quiet _ _ _))
theorem slotTask_quiet (k n : Nat) (s : State) : Quiet s (slotTask k n s) := (taskMod_quiet _ _ _).trans (coreMod_quiet _ _ _)

theorem placeReady_quiet {k : Nat} (h : placeReady k s = some t) : Quiet s t := by
  unfold placeReady at h
  have h0 := taskMod_quiet k (fun x => { x with state := .ready, readyPick := pickN s % 2 ^ 32, agePick := pickN s }) s
  simp only at h
  split at h
  · cases h; exact h0.trans (slotTask_quiet _ _ _)
  · split at h
    · cases h; exact h0.trans (joinList_quiet _ _ _ _)
    · split at h
      · split at h
        · cases h; exact h0.trans ((joinList_quiet _ _ _ _).trans (slotTask_quiet _ _ _))
        · split at h
          · cases h
          · cases h; exact h0.trans (joinList_quiet _ _ _ _)
      · split at h
        · cases h
        · cases h; exact h0.trans (joinList_quiet _ _ _ _)

theorem tryDec_quiet {k : Nat} (h : tryDec k s = some t) : Quiet s t := by
  unfold tryDec at h
  simp only at h
  split at h
  · cases h; exact rfl
  · cases h; exact rfl
  · split at h
    · exact Quiet.trans (t := regAdd _ _ (taskMod _ _ s)) rfl (placeReady_quiet h)
    · cases h; exact rfl
  · cases h; exact rfl

theorem decTask_quiet (k : Nat) (s : State) : Quiet s (decTask k s) := by
  unfold decTask
  cases h : tryDec k s with
  | none => exact later_quiet _ _
  | some t => exact tryDec_quiet h

theorem msix_quiet (f v : Nat) (s : State) : Quiet s (msix f v s) := by
  unfold msix
  simp only
  split
  · exact .refl
  · split
    · exact fnSet_quiet _ _ _
    · split
      · exact rfl
      · exact (emit_quiet _ _).trans ((charge_quiet _ _ _ _).trans (regAdd_quiet _ _ _))

theorem vecPost_quiet (f v : Nat) (s : State) : Quiet s (vecPost f v s) := by
  unfold vecPost
  simp only
  exact quiet_ite (msix_quiet _ _ _) (quiet_ite ((fnMod_quiet _ _ _).trans (msix_quiet _ _ _)) (fnMod_quiet _ _ _))

theorem irqMessage_quiet (page : Nat) (s : State) : Quiet s (irqMessage page s) := by
  unfold irqMessage
  simp only
  split
  · exact quiet_ite (decTask_quiet _ _) (regAdd_quiet _ _ _)
  · exact quiet_ite .refl (vecPost_quiet _ _ _)
  · exact .refl

theorem irqCause_quiet (page mask : Nat) (s : State) : Quiet s (irqCause page mask s) := by
  unfold irqCause
  exact quiet_ite ((regSet_quiet _ _ _).trans (irqMessage_quiet _ _)) (regSet_quiet _ _ _)

/-! ### Events and fences -/

theorem logEvent_quiet (e : LogEntry) (s : State) : Quiet s (logEvent e s) := by
  unfold logEvent
  simp only
  repeat' split
  all_goals exact rfl

theorem errRecord_quiet (code page : Nat) (s : State) : Quiet s (errRecord code page s) := by
  unfold errRecord
  split
  · exact .refl
  · simp only
    split
    · exact rfl
    · split
      · exact Quiet.trans (t := regSet _ _ (regSat _ _ (regSet _ _ s))) rfl (irqCause_quiet _ _ _)
      · exact rfl

/-- An event that fences nothing changes only what `Quiet` names. -/
theorem note_quiet (code page detail : Nat) (s : State) : Quiet s (note code page detail s) :=
  (logEvent_quiet _ _).trans (errRecord_quiet _ _ _)

theorem fencePage_quiet (page code : Nat) (b : Bool) (s : State) : Quiet s (fencePage page code b s) := by
  unfold fencePage
  split
  · exact .refl
  · simp only
    have h2 (x : State) : Quiet x { x with fenceTimes := tset [] page (fenceCount page s) x.fenceTimes } := rfl
    have h3 (x : State) : Quiet x { x with fenceHeld := tset false page true x.fenceHeld } := rfl
    refine Quiet.trans ((regSet_quiet (page + 0x044) (1 + (if b then 2 else 4) + code * 2 ^ 16) s).trans (h2 _)) ?_
    refine quiet_ite (Quiet.trans ?_ (later_quiet _ _)) (Quiet.trans ?_ (later_quiet _ _))
    all_goals exact quiet_ite ((h3 _).trans (note_quiet _ _ _ _)) .refl

/-- An event that is not device-fatal changes only what `Quiet` names. -/
theorem raise_quiet {code : Nat} (h : deviceFatal code = false) (page detail : Nat) (s : State) : Quiet s (raise code page detail s) := by
  unfold raise
  simp only [h, Bool.false_eq_true, if_false]
  exact quiet_ite ((note_quiet _ _ _ _).trans (quiet_foldl fun _ _ => fencePage_quiet _ _ _ _)) (note_quiet _ _ _ _)

/-! ### Completions -/

theorem cqInterrupt_quiet (f q : Nat) (c : Cq) (s : State) : Quiet s (cqInterrupt f q c s) := by
  unfold cqInterrupt
  exact quiet_ite .refl (quiet_ite (msix_quiet _ _ _) (vecPost_quiet _ _ _))

theorem dlogPage_quiet (f page : Nat) (s : State) : Quiet s (dlogPage f page s) := by
  unfold dlogPage
  simp only
  split
  · exact quiet_ite .refl (fnMod_quiet _ _ _)
  · exact (fnMod_quiet _ _ _).trans (note_quiet _ _ _ _)

theorem dlogWrite_quiet (f a n : Nat) (s : State) : Quiet s (dlogWrite f a n s) :=
  quiet_ite (quiet_foldl fun _ _ => dlogPage_quiet _ _ _) .refl

/-- `t` differs from `s` as `Quiet` says, and in the mark that a posted completion leaves on staging slots (R93). -/
def Posted (s t : State) : Prop := Quiet { s with jnl := { s.jnl with slots := t.jnl.slots } } t

theorem Quiet.posted (h : Quiet s t) : Posted s t := by
  unfold Posted
  rw [h.jnl]
  exact h
theorem Posted.trans (h : Posted s t) (g : Posted t u) : Posted s u := by
  unfold Posted Quiet at *
  rw [g, h]
theorem posted_ite {c : Prop} [Decidable c] (ht : Posted s t) (hu : Posted s u) : Posted s (if c then t else u) := by
  split
  · exact ht
  · exact hu

theorem slotsPosted_posted (e : Cpl) (s : State) : Posted s (slotsPosted e s) := posted_ite Quiet.refl.posted rfl

theorem writeCpl_posted (f : Nat) (e : Cpl) (s : State) : Posted s (writeCpl f e s) := by
  unfold writeCpl
  simp only
  exact ((emit_quiet _ _).trans (fnMod_quiet _ _ _)).posted.trans ((dlogWrite_quiet _ _ _ _).posted.trans ((charge_quiet _ _ _ _).posted.trans
    ((regAdd_quiet _ _ _).posted.trans ((regAdd_quiet _ _ _).posted.trans ((slotsPosted_posted _ _).trans (cqInterrupt_quiet _ _ _ _).posted)))))

theorem postCpl_posted (f : Nat) (e : Cpl) (s : State) : Posted s (postCpl f e s) := by
  unfold postCpl
  exact posted_ite (fnSet_quiet _ _ _).posted (writeCpl_posted _ _ _)

theorem countStatus_quiet (c : Ctx) (st : Status) (s : State) : Quiet s (countStatus c st s) := by
  unfold countStatus
  simp only
  exact quiet_ite .refl (quiet_ite rfl rfl)

theorem countRefusal_quiet (f : Nat) (s : State) : Quiet s (countRefusal f s) := by
  unfold countRefusal
  simp only
  split
  · exact rfl
  · have h := ((regAdd_quiet (pgFun f + 0x230) 1 s).trans (fnMod_quiet f (fun x => { x with refuseBolts := [] }) _)).trans
      (note_quiet 0x6104 (pgFun f) f _)
    exact quiet_ite (h.trans (fencePage_quiet _ _ _ _)) h

/-- Freeing a context touches the queue engine and the reads of the flash. -/
theorem ctxFree_frame (c : Nat) (s : State) :
    ctxFree c s = { s with qe := (ctxFree c s).qe, media := { s.media with reads := (ctxFree c s).media.reads,
                                                                           dies := (ctxFree c s).media.dies,
                                                                           rebuilds := (ctxFree c s).media.rebuilds } } := rfl

/-- Ending a command frees its context, and otherwise changes only what `Posted` names. -/
theorem finishDw_frame (c : Nat) (st : Status) (a b : Nat) (s : State) :
    (ctxGet c s).used = false ∧ finishDw c st a b s = s ∨ (ctxGet c s).used = true ∧ Posted (ctxFree c s) (finishDw c st a b s) := by
  unfold finishDw
  cases h : (ctxGet c s).used
  · exact .inl ⟨rfl, by simp [h]⟩
  · refine .inr ⟨rfl, ?_⟩
    simp only [h, Bool.not_true, Bool.false_eq_true, if_false]
    have h1 := (countStatus_quiet (ctxGet c s) st (ctxFree c s)).posted.trans (postCpl_posted (ctxGet c s).fn
      { sq := (ctxGet c s).sq, cid := (ctxGet c s).cid, st := st, dw0 := BitVec.ofNat 32 a, dw1 := BitVec.ofNat 32 b, ctx := c,
        nsid := if ((ctxGet c s).cls = 2 && st = stOk) = true then (ctxGet c s).nsid else 0,
        seq := if ((ctxGet c s).cls = 2 && st = stOk) = true then (ctxGet c s).seq else 0 } _)
    exact posted_ite (h1.trans (countRefusal_quiet _ _).posted) h1

theorem finish_frame (c : Nat) (st : Status) (s : State) :
    (ctxGet c s).used = false ∧ finish c st s = s ∨ (ctxGet c s).used = true ∧ Posted (ctxFree c s) (finish c st s) :=
  finishDw_frame c st 0 0 s

end Sys2Proof.Machine
end

