-- ==== Sys2Proof/Laws/Izkin.lean ====
section
/-!
SUPPORT. What the shared operation of the Izkin cores can do (R312, R335, R336): one lemma per way an instruction ends, so that no
proof about an instruction unfolds `izRun`.
-/
namespace Sys2Proof.Machine

variable {n len t clk : Nat} {x y : Task} {s u : State} {f : Nat → Task → State → IzOut}

/-- An instruction that completes with stacks that fit. -/
theorem izRun_go (h : Runs n t x s) (hf : f t { x with pc := x.pc + BitVec.ofNat 24 len } s = .go y u clk) (fit : Fits y) :
    izRun n len f s = .next (izDone n t clk (taskSet t y u)) := by
  obtain ⟨h1, h2, h3, h4⟩ := h
  obtain ⟨f1, f2⟩ := fit
  unfold izRun
  rw [if_neg (by omega), h2]
  simp only [h3]
  rw [if_neg (by simp [h4]), hf]
  simp only
  rw [if_neg (by simp; omega)]

/-- An instruction whose effect includes the task's own entry. -/
theorem izRun_done (h : Runs n t x s) (hf : f t { x with pc := x.pc + BitVec.ofNat 24 len } s = .done u clk) :
    izRun n len f s = .next (izDone n t clk u) := by
  obtain ⟨h1, h2, h3, h4⟩ := h
  unfold izRun
  rw [if_neg (by omega), h2]
  simp only [h3]
  rw [if_neg (by simp [h4]), hf]

/-- An instruction that traps. -/
theorem izRun_trap {code user addr : Nat} (h : Runs n t x s)
    (hf : f t { x with pc := x.pc + BitVec.ofNat 24 len } s = .trap code user addr u) :
    izRun n len f s = .next (trapTask n t code user addr u) := by
  obtain ⟨h1, h2, h3, h4⟩ := h
  unfold izRun
  rw [if_neg (by omega), h2]
  simp only [h3]
  rw [if_neg (by simp [h4]), hf]

/-- An instruction that waits. -/
theorem izRun_stall {k : Nat} (h : Runs n t x s) (hf : f t { x with pc := x.pc + BitVec.ofNat 24 len } s = .stall k) :
    izRun n len f s = .next (coreMod n (fun c => { c with stat := k }) s) := by
  obtain ⟨h1, h2, h3, h4⟩ := h
  unfold izRun
  rw [if_neg (by omega), h2]
  simp only [h3]
  rw [if_neg (by simp [h4]), hf]

/-- With no task on the core nothing happens. -/
theorem izRun_idle (h : n < 128) (hn : izTask n s = none) : izRun n len f s = .next s := by
  unfold izRun
  rw [if_neg (by omega), hn]

end Sys2Proof.Machine
end

