-- ==== Sys2Proof/Laws/IzkinFrame.lean ====
section
/-!
SUPPORT. What landing and trapping on an Izkin core can change at all (R335 to R337, R359).
-/
namespace Sys2Proof.Machine

/-- `t` differs from `s` only in registers, functions, instruction caches, cores, tasks and runs. -/
def Landed (s t : State) : Prop :=
  t = { s with regs := t.regs, fns := t.fns, icache := t.icache, cores := t.cores, tasks := t.tasks, runs := t.runs }

theorem Landed.trans {s t u : State} (h : Landed s t) (g : Landed t u) : Landed s u := by
  unfold Landed at *
  rw [g, h]

theorem chargeClk_landed (n t clk : Nat) (s : State) : Landed s (chargeClk n t clk s) := by
  have h : Landed s (regAdd (pgIzk n + 0x128) clk (taskSet t { taskGet t s with actClk := (taskGet t s).actClk + clk } s)) := rfl
  have g (f r : Nat) (u : State) : Landed u (runMod r (fun q => { q with coreClk := q.coreClk + clk })
    (regAdd (pgFun f + 0x218) clk (charge f rCore clk u))) :=
    Landed.trans (t := charge f rCore clk u) rfl (Landed.trans (t := regAdd (pgFun f + 0x218) clk (charge f rCore clk u)) rfl rfl)
  unfold chargeClk
  simp only
  split
  · exact h
  · exact h.trans (g _ _ _)

/-- A code fetch changes the cache of the core's cluster and its counters, and charges a miss. -/
theorem codeFetch_landed (n : Nat) (s : State) : Landed s (codeFetch n s) := by
  unfold codeFetch
  split
  · exact rfl
  · simp only
    split
    · exact rfl
    · refine Landed.trans ?_ (chargeClk_landed _ _ _ _)
      exact rfl

/-- Landing changes the counters, the charged function, the cache, cores, tasks and runs, and nothing else. -/
theorem izDone_landed (n t clk : Nat) (s : State) : Landed s (izDone n t clk s) :=
  Landed.trans (t := coreMod n (fun c => { c with stat := if c.task.isSome then 1 else c.stat }) s) rfl
    (Landed.trans (t := regAdd (pgIzk n + 0x120) 1 (coreMod n (fun c => { c with stat := if c.task.isSome then 1 else c.stat }) s))
      rfl ((chargeClk_landed _ _ _ _).trans (Landed.trans (t := taskMod t _ _) rfl (codeFetch_landed _ _))))

theorem dropFrame_quiet (n t : Nat) (s : State) : Quiet s (dropFrame n t s) := rfl
theorem taskEnd_quiet (n t : Nat) (s : State) : Quiet s (taskEnd n t s) :=
  rfl

theorem countTrap_quiet (f : Nat) (s : State) : Quiet s (countTrap f s) := by
  unfold countTrap
  simp only
  split
  · exact rfl
  · have h := ((regAdd_quiet (pgFun f + 0x238) 1 s).trans (fnMod_quiet f (fun x => { x with trapBolts := [] }) _)).trans
      (note_quiet 0x6103 (pgFun f) f _)
    exact quiet_ite (h.trans (fencePage_quiet _ _ _ _)) h

/-- A trap changes only what `Quiet` names. -/
theorem trapTask_quiet (n t code user addr : Nat) (s : State) : Quiet s (trapTask n t code user addr s) := by
  unfold trapTask
  simp only
  have h (c : Nat) (v : State) (hv : Quiet s v) : Quiet s (taskEnd n t (note c (pgIzk n) t (irqCause (pgIzk n) 2 v))) :=
    hv.trans ((irqCause_quiet _ _ _).trans ((note_quiet _ _ _ _).trans (taskEnd_quiet _ _ _)))
  have h1 (c : Nat) := h c _ ((regSet_quiet (pgIzk n + 0x110) (code + user * 256 + t * 65536) s).trans
    ((regSet_quiet (pgIzk n + 0x114) (taskGet t s).pc.toNat _).trans ((regSet_quiet (pgIzk n + 0x118) addr _).trans
      (regAdd_quiet (pgIzk n + 0x138) 1 _))))
  split
  · exact h1 _
  · exact (h1 _).trans ((later_quiet _ _).trans (countTrap_quiet _ _))

end Sys2Proof.Machine
end

