-- ==== Sys2Proof/Laws/Kept.lean ====
section
/-!
SUPPORT. What the operations of the model keep: the queue, the pick counter and the canonical form of the sparse tables (`Kept`). The
predicates for other results than a state, and the rules for folds, records and pairs.
-/
namespace Sys2Proof.Machine

/-- The sparse tables are in their form: `canonical` and `ordered` clause by clause. -/
structure Tabs (s : State) : Prop where
  regs : regsWf s.regs = true
  snaps : tabWf 0 s.snaps = true
  map : tabWf 0 s.map = true
  ham : tabWf 0 s.ham = true
  hamPoison : tabWf false s.hamPoison = true
  hamErr : tabWf [] s.hamErr = true
  dram : tabWf 0 s.dram = true
  dramPoison : tabWf false s.dramPoison = true
  dramErr : tabWf [] s.dramErr = true
  lag : tabUp s.lag = true
  missed : tabUp s.missed = true
  weights : tabUp s.weights = true
  fns : tabUp s.fns = true
  shus : tabUp s.shus = true
  lines : tabUp s.lines = true
  engs : tabUp s.engs = true
  digs : tabUp s.digs = true
  hed : tabUp s.hed = true
  hgrp : tabUp s.hgrp = true
  icache : tabUp s.icache = true
  cores : tabUp s.cores = true
  tasks : tabUp s.tasks = true
  ready : tabUp s.ready = true
  progs : tabUp s.progs = true
  runs : tabUp s.runs = true

/-- The queue is `q`, the pick counter is `k`, the sparse tables are in their form. -/
structure Kept (q : List Instr) (k : W64) (s : State) : Prop where
  pending : s.pending = q
  pick : s.pick = k
  tabs : Tabs s

/-- `Kept` of an optional state. -/
def KeptO (q : List Instr) (k : W64) : Option State → Prop
  | some s => Kept q k s
  | none => True
/-- `Kept` of a pair's state. -/
def KeptP {α : Type} (q : List Instr) (k : W64) (p : α × State) : Prop := Kept q k p.2
/-- `Kept` of an optional pair's state. -/
def KeptOP {α : Type} (q : List Instr) (k : W64) : Option (α × State) → Prop
  | some p => Kept q k p.2
  | none => True
/-- `Kept` of a result that may be an error. -/
def KeptE {ε : Type} (q : List Instr) (k : W64) : Except ε State → Prop
  | .ok s => Kept q k s
  | .error _ => True
/-- `Kept` of a paired result that may be an error. -/
def KeptEP {ε α : Type} (q : List Instr) (k : W64) : Except ε (α × State) → Prop
  | .ok p => Kept q k p.2
  | .error _ => True
/-- `Kept` of the state in a result, or of the state beside the error. -/
def KeptF {ε α : Type} (q : List Instr) (k : W64) (f : α → State) : Except (ε × State) α → Prop
  | .ok a => Kept q k (f a)
  | .error e => Kept q k e.2
/-- `Kept` of an optional state and of the state beside it. -/
def KeptB (q : List Instr) (k : W64) (p : Option State × State) : Prop := KeptO q k p.1 ∧ Kept q k p.2
/-- `Kept` of what placing a unit comes to. -/
def KeptL (q : List Instr) (k : W64) : Placing → Prop
  | .done t => Kept q k t
  | _ => True
/-- `Kept` of what an instruction comes to. -/
def KeptZ (q : List Instr) (k : W64) : IzOut → Prop
  | .go _ s _ => Kept q k s
  | .done s _ => Kept q k s
  | .trap _ _ _ s => Kept q k s
  | .stall _ => True
  | .undef => True
/-- `Kept` of a command's outcome. -/
def KeptX (q : List Instr) (k : W64) : Host.Outcome State Fault Refusal → Prop
  | .next s => Kept q k s
  | .fault _ => True
  | .refused _ => True

variable {q : List Instr} {k : W64}

/-! ### Tables -/

theorem tabAbove_tput {α : Type} {n k' : Nat} {v : α} {t : Tab α} (h : tabAbove n t = true) (hk : n < k') :
    tabAbove n (tput k' v t) = true := by
  induction t with
  | nil => simp [tput, tabAbove, hk]
  | cons e t ih =>
    obtain ⟨a, b⟩ := e
    simp only [tabAbove, Bool.and_eq_true, decide_eq_true_eq] at h
    simp only [tput]
    split
    · simp [tabAbove, h, hk]
    · split
      · simp [tabAbove, h, hk]
      · simp [tabAbove, h.1, ih h.2]

theorem tabAbove_trans {α : Type} {n m : Nat} {t : Tab α} (h : tabAbove m t = true) (hn : n ≤ m) : tabAbove n t = true := by
  induction t with
  | nil => rfl
  | cons e t ih =>
    obtain ⟨a, b⟩ := e
    simp only [tabAbove, Bool.and_eq_true, decide_eq_true_eq] at h ⊢
    exact ⟨by omega, ih h.2⟩

theorem tabAbove_tdel {α : Type} {n k' : Nat} {t : Tab α} (h : tabAbove n t = true) : tabAbove n (tdel k' t) = true := by
  induction t with
  | nil => rfl
  | cons e t ih =>
    obtain ⟨a, b⟩ := e
    simp only [tabAbove, Bool.and_eq_true, decide_eq_true_eq] at h
    simp only [tdel]
    split
    · exact h.2
    · simp [tabAbove, h.1, ih h.2]

theorem tabAbove_filter {α : Type} {n : Nat} {p : Nat × α → Bool} {t : Tab α} (h : tabAbove n t = true) :
    tabAbove n (t.filter p) = true := by
  induction t with
  | nil => rfl
  | cons e t ih =>
    obtain ⟨a, b⟩ := e
    simp only [tabAbove, Bool.and_eq_true, decide_eq_true_eq] at h
    simp only [List.filter_cons]
    split
    · simp [tabAbove, h.1, ih h.2]
    · exact ih h.2

theorem tabWf_tput {α : Type} [DecidableEq α] {d v : α} {k' : Nat} {t : Tab α} (h : tabWf d t = true) (hv : v ≠ d) :
    tabWf d (tput k' v t) = true := by
  induction t with
  | nil => simp [tput, tabWf, tabAbove, hv]
  | cons e t ih =>
    obtain ⟨a, b⟩ := e
    simp only [tabWf, Bool.and_eq_true, decide_eq_true_eq] at h
    simp only [tput]
    split
    · rename_i hlt
      simp only [tabWf, tabAbove, Bool.and_eq_true, decide_eq_true_eq]
      exact ⟨⟨hv, hlt, tabAbove_trans h.1.2 (Nat.le_of_lt hlt)⟩, h⟩
    · split
      · rename_i he; subst he; simp [tabWf, hv, h.1.2, h.2]
      · simp only [tabWf, Bool.and_eq_true, decide_eq_true_eq]
        exact ⟨⟨h.1.1, tabAbove_tput h.1.2 (by omega)⟩, ih h.2⟩

theorem tabWf_tdel {α : Type} [DecidableEq α] {d : α} {k' : Nat} {t : Tab α} (h : tabWf d t = true) : tabWf d (tdel k' t) = true := by
  induction t with
  | nil => rfl
  | cons e t ih =>
    obtain ⟨a, b⟩ := e
    simp only [tabWf, Bool.and_eq_true, decide_eq_true_eq] at h
    simp only [tdel]
    split
    · exact h.2
    · simp [tabWf, h.1.1, tabAbove_tdel h.1.2, ih h.2]

/-- A write keeps the canonical form. -/
theorem tabWf_tset {α : Type} [DecidableEq α] {d v : α} {k' : Nat} {t : Tab α} (h : tabWf d t = true) : tabWf d (tset d k' v t) = true := by
  unfold tset
  split
  · exact tabWf_tdel h
  · exact tabWf_tput h (by assumption)

theorem tabWf_filter {α : Type} [DecidableEq α] {d : α} {p : Nat × α → Bool} {t : Tab α} (h : tabWf d t = true) :
    tabWf d (t.filter p) = true := by
  induction t with
  | nil => rfl
  | cons e t ih =>
    obtain ⟨a, b⟩ := e
    simp only [tabWf, Bool.and_eq_true, decide_eq_true_eq] at h
    simp only [List.filter_cons]
    split
    · simp [tabWf, h.1.1, tabAbove_filter h.1.2, ih h.2]
    · exact ih h.2

theorem regsWf_tput {v : W64} {a : Nat} {t : Tab W64} (h : regsWf t = true) (hv : v ≠ BitVec.ofNat 64 (regReset a)) :
    regsWf (tput a v t) = true := by
  induction t with
  | nil => simp [tput, regsWf, tabAbove, hv]
  | cons e t ih =>
    obtain ⟨b, w⟩ := e
    simp only [regsWf, Bool.and_eq_true, decide_eq_true_eq] at h
    simp only [tput]
    split
    · rename_i hlt
      simp only [regsWf, tabAbove, Bool.and_eq_true, decide_eq_true_eq]
      exact ⟨⟨hv, hlt, tabAbove_trans h.1.2 (Nat.le_of_lt hlt)⟩, h⟩
    · split
      · rename_i he; subst he; simp [regsWf, hv, h.1.2, h.2]
      · simp only [regsWf, Bool.and_eq_true, decide_eq_true_eq]
        exact ⟨⟨h.1.1, tabAbove_tput h.1.2 (by omega)⟩, ih h.2⟩

theorem regsWf_tdel {a : Nat} {t : Tab W64} (h : regsWf t = true) : regsWf (tdel a t) = true := by
  induction t with
  | nil => rfl
  | cons e t ih =>
    obtain ⟨b, w⟩ := e
    simp only [regsWf, Bool.and_eq_true, decide_eq_true_eq] at h
    simp only [tdel]
    split
    · exact h.2
    · simp [regsWf, h.1.1, tabAbove_tdel h.1.2, ih h.2]

theorem regsWf_tset {v : W64} {a : Nat} {t : Tab W64} (h : regsWf t = true) :
    regsWf (tset (BitVec.ofNat 64 (regReset a)) a v t) = true := by
  unfold tset
  split
  · exact regsWf_tdel h
  · exact regsWf_tput h (by assumption)

theorem regsWf_filter {p : Nat × W64 → Bool} {t : Tab W64} (h : regsWf t = true) : regsWf (t.filter p) = true := by
  induction t with
  | nil => rfl
  | cons e t ih =>
    obtain ⟨a, b⟩ := e
    simp only [regsWf, Bool.and_eq_true, decide_eq_true_eq] at h
    simp only [List.filter_cons]
    split
    · simp [regsWf, h.1.1, tabAbove_filter h.1.2, ih h.2]
    · exact ih h.2

theorem tabWf_tsetBytes {bs : Bytes} {k' : Nat} {t : Tab Byte} (h : tabWf 0 t = true) : tabWf 0 (tsetBytes k' bs t) = true := by
  induction bs generalizing k' t with
  | nil => exact h
  | cons b bs ih => exact ih (tabWf_tset h)

theorem tabUp_nil {α : Type} : tabUp ([] : Tab α) = true := rfl
theorem tabWf_nil {α : Type} [DecidableEq α] {d : α} : tabWf d ([] : Tab α) = true := rfl
theorem tabUp_tput {α : Type} {v : α} {k' : Nat} {t : Tab α} (h : tabUp t = true) : tabUp (tput k' v t) = true := by
  induction t with
  | nil => rfl
  | cons e t ih =>
    obtain ⟨a, b⟩ := e
    simp only [tabUp, Bool.and_eq_true] at h
    simp only [tput]
    split
    · rename_i hlt
      simp only [tabUp, tabAbove, Bool.and_eq_true, decide_eq_true_eq]
      exact ⟨⟨hlt, tabAbove_trans h.1 (Nat.le_of_lt hlt)⟩, h⟩
    · split
      · rename_i he; subst he; simpa [tabUp] using h
      · simp only [tabUp, Bool.and_eq_true]
        exact ⟨tabAbove_tput h.1 (by omega), ih h.2⟩

theorem tabUp_tdel {α : Type} {k' : Nat} {t : Tab α} (h : tabUp t = true) : tabUp (tdel k' t) = true := by
  induction t with
  | nil => rfl
  | cons e t ih =>
    obtain ⟨a, b⟩ := e
    simp only [tabUp, Bool.and_eq_true] at h
    simp only [tdel]
    split
    · exact h.2
    · simp [tabUp, tabAbove_tdel h.1, ih h.2]

/-- A write keeps the order of the keys. -/
theorem tabUp_tset {α : Type} [DecidableEq α] {d v : α} {k' : Nat} {t : Tab α} (h : tabUp t = true) : tabUp (tset d k' v t) = true := by
  unfold tset
  split
  · exact tabUp_tdel h
  · exact tabUp_tput h

theorem tabUp_filter {α : Type} {p : Nat × α → Bool} {t : Tab α} (h : tabUp t = true) : tabUp (t.filter p) = true := by
  induction t with
  | nil => rfl
  | cons e t ih =>
    obtain ⟨a, b⟩ := e
    simp only [tabUp, Bool.and_eq_true] at h
    simp only [List.filter_cons]
    split
    · simp [tabUp, tabAbove_filter h.1, ih h.2]
    · exact ih h.2

theorem tabAbove_map {α β : Type} {g : Nat × α → β} {n : Nat} {t : Tab α} (h : tabAbove n t = true) :
    tabAbove n (t.map fun e => (e.1, g e)) = true := by
  induction t with
  | nil => rfl
  | cons e t ih =>
    obtain ⟨a, b⟩ := e
    simp only [tabAbove, Bool.and_eq_true, decide_eq_true_eq, List.map_cons] at h ⊢
    exact ⟨h.1, ih h.2⟩

theorem tabUp_map {α β : Type} {g : Nat × α → β} {t : Tab α} (h : tabUp t = true) :
    tabUp (t.map fun e => (e.1, g e)) = true := by
  induction t with
  | nil => rfl
  | cons e t ih =>
    obtain ⟨a, b⟩ := e
    simp only [tabUp, Bool.and_eq_true, List.map_cons] at h ⊢
    exact ⟨tabAbove_map h.1, ih h.2⟩

theorem tabAbove_filterMap {α : Type} {g : Nat × α → Option (Nat × α)} {n : Nat} {t : Tab α} (hg : ∀ e x, g e = some x → x.1 = e.1)
    (h : tabAbove n t = true) : tabAbove n (t.filterMap g) = true := by
  induction t with
  | nil => rfl
  | cons e t ih =>
    obtain ⟨a, b⟩ := e
    simp only [tabAbove, Bool.and_eq_true, decide_eq_true_eq] at h
    simp only [List.filterMap_cons]
    split
    · exact ih h.2
    · rename_i x hx
      obtain ⟨c, d⟩ := x
      have hc := hg _ _ hx
      simp only [tabAbove, Bool.and_eq_true, decide_eq_true_eq]
      exact ⟨by simp only at hc; omega, ih h.2⟩

theorem tabUp_filterMap {α : Type} {g : Nat × α → Option (Nat × α)} {t : Tab α} (hg : ∀ e x, g e = some x → x.1 = e.1)
    (h : tabUp t = true) : tabUp (t.filterMap g) = true := by
  induction t with
  | nil => rfl
  | cons e t ih =>
    obtain ⟨a, b⟩ := e
    simp only [tabUp, Bool.and_eq_true] at h
    simp only [List.filterMap_cons]
    split
    · exact ih h.2
    · rename_i x hx
      obtain ⟨c, d⟩ := x
      have hc : c = a := hg _ _ hx
      subst hc
      simp only [tabUp, Bool.and_eq_true]
      exact ⟨tabAbove_filterMap hg h.1, ih h.2⟩

theorem foldl_pred {α β : Type} {P : β → Prop} {g : β → α → β} {l : List α} {b : β} (hs : ∀ b x, P b → P (g b x)) (h0 : P b) :
    P (l.foldl g b) := by
  induction l generalizing b with
  | nil => exact h0
  | cons x l ih => exact ih (hs b x h0)

theorem tabUp_tmod {α : Type} [DecidableEq α] {d : α} {f : α → α} {k' : Nat} {t : Tab α} (h : tabUp t = true) :
    tabUp (tmod d k' f t) = true := tabUp_tset h
theorem tabUp_foldl {α β : Type} {g : Tab α → β → Tab α} {l : List β} {t : Tab α} (hs : ∀ t x, tabUp t = true → tabUp (g t x) = true)
    (h : tabUp t = true) : tabUp (l.foldl g t) = true := foldl_pred (P := fun t => tabUp t = true) hs h
theorem tabWf_foldl {α β : Type} [DecidableEq α] {d : α} {g : Tab α → β → Tab α} {l : List β} {t : Tab α}
    (hs : ∀ t x, tabWf d t = true → tabWf d (g t x) = true) (h : tabWf d t = true) : tabWf d (l.foldl g t) = true :=
  foldl_pred (P := fun t => tabWf d t = true) hs h

/-! ### Rules for the proofs below -/

theorem kept_pair {α : Type} {p : α × State} (h : KeptP q k p) : Kept q k p.2 := h
theorem keptP_mk {α : Type} {a : α} {s : State} (h : Kept q k s) : KeptP q k (a, s) := h
theorem keptO_some {s : State} (h : Kept q k s) : KeptO q k (some s) := h
theorem keptO_none : KeptO q k none := trivial
theorem keptOP_some {α : Type} {a : α} {s : State} (h : Kept q k s) : KeptOP q k (some (a, s)) := h
theorem keptOP_none {α : Type} : KeptOP (α := α) q k none := trivial
theorem keptE_ok {ε : Type} {s : State} (h : Kept q k s) : KeptE (ε := ε) q k (.ok s) := h
theorem keptE_error {ε : Type} {e : ε} : KeptE q k (.error e) := trivial
theorem keptEP_ok {ε α : Type} {a : α} {s : State} (h : Kept q k s) : KeptEP (ε := ε) q k (.ok (a, s)) := h
theorem keptEP_error {ε α : Type} {e : ε} : KeptEP (α := α) q k (.error e) := trivial
theorem keptF_ok {ε α : Type} {f : α → State} {a : α} (h : Kept q k (f a)) : KeptF (ε := ε) q k f (.ok a) := h
theorem keptF_error {ε α : Type} {f : α → State} {e : ε × State} (h : Kept q k e.2) : KeptF q k f (.error e) := h
theorem keptL_done {s : State} (h : Kept q k s) : KeptL q k (.done s) := h
theorem keptL_wait : KeptL q k .wait := trivial
theorem keptL_full : KeptL q k .full := trivial
theorem keptL_ite {c : Prop} [Decidable c] {a b : Placing} (ha : KeptL q k a) (hb : KeptL q k b) : KeptL q k (if c then a else b) := by
  split <;> assumption
theorem keptB_some {a s : State} (ha : Kept q k a) (h : Kept q k s) : KeptB q k (some a, s) := ⟨ha, h⟩
theorem keptB_none {s : State} (h : Kept q k s) : KeptB q k (none, s) := ⟨trivial, h⟩
theorem keptB_mk {o : Option State} {s : State} (ho : KeptO q k o) (h : Kept q k s) : KeptB q k (o, s) := ⟨ho, h⟩
theorem keptB_ite {c : Prop} [Decidable c] {a b : Option State × State} (ha : KeptB q k a) (hb : KeptB q k b) :
    KeptB q k (if c then a else b) := by split <;> assumption
theorem keptZ_go {x : Task} {s : State} {c : Nat} (h : Kept q k s) : KeptZ q k (.go x s c) := h
theorem keptZ_done {s : State} {c : Nat} (h : Kept q k s) : KeptZ q k (.done s c) := h
theorem keptZ_trap {a b c : Nat} {s : State} (h : Kept q k s) : KeptZ q k (.trap a b c s) := h
theorem keptZ_stall {c : Nat} : KeptZ q k (.stall c) := trivial
theorem keptZ_undef : KeptZ q k .undef := trivial
theorem keptX_next {s : State} (h : Kept q k s) : KeptX q k (.next s) := h
theorem keptX_fault {r : Fault} : KeptX q k (.fault r) := trivial
/-- What is there comes from a list that keeps it. -/
theorem kept_getD {o : Option State} {s : State} (ho : KeptO q k o) (h : Kept q k s) : Kept q k (o.getD s) := by
  cases o with
  | none => exact h
  | some t => exact ho
theorem keptP_getD {α : Type} {o : Option (α × State)} {p : α × State} (ho : KeptOP q k o) (h : Kept q k p.2) : Kept q k (o.getD p).2 := by
  cases o with
  | none => exact h
  | some t => exact ho
theorem kept_elim {α : Type} {o : Option α} {f : α → State → State} {s : State} (h : Kept q k s) (hf : ∀ a, Kept q k (f a s)) :
    Kept q k (o.elim id f s) := by
  cases o with
  | none => exact h
  | some a => exact hf a
theorem keptO_map {o : Option State} {g : State → State} (ho : KeptO q k o) (hg : ∀ s, Kept q k s → Kept q k (g s)) : KeptO q k (o.map g) := by
  cases o with
  | none => trivial
  | some t => exact hg t ho
theorem keptOP_map {α : Type} {o : Option State} {g : State → α × State} (ho : KeptO q k o) (hg : ∀ s, Kept q k s → Kept q k (g s).2) :
    KeptOP q k (o.map g) := by
  cases o with
  | none => trivial
  | some t => exact hg t ho
theorem keptO_mapP {α : Type} {o : Option (α × State)} {g : α × State → State} (ho : KeptOP q k o) (hg : ∀ e, Kept q k e.2 → Kept q k (g e)) :
    KeptO q k (o.map g) := by
  cases o with
  | none => trivial
  | some t => exact hg t ho
theorem keptOP_mapP {α β : Type} {o : Option (α × State)} {g : α × State → β × State} (ho : KeptOP q k o)
    (hg : ∀ e, Kept q k e.2 → Kept q k (g e).2) : KeptOP q k (o.map g) := by
  cases o with
  | none => trivial
  | some t => exact hg t ho
theorem keptO_mapA {α : Type} {o : Option α} {g : α → State} (hg : ∀ a, Kept q k (g a)) : KeptO q k (o.map g) := by
  cases o with
  | none => trivial
  | some t => exact hg t
theorem keptOP_mapA {α β : Type} {o : Option α} {g : α → β × State} (hg : ∀ a, Kept q k (g a).2) : KeptOP q k (o.map g) := by
  cases o with
  | none => trivial
  | some t => exact hg t
theorem keptO_bindS {o : Option State} {g : State → Option State} (ho : KeptO q k o) (h : ∀ s, Kept q k s → KeptO q k (g s)) :
    KeptO q k (o.bind g) := by
  cases o with
  | none => trivial
  | some a => exact h a ho
theorem keptO_bind {α : Type} {o : Option α} {g : α → Option State} (h : ∀ a, KeptO q k (g a)) : KeptO q k (o.bind g) := by
  cases o with
  | none => trivial
  | some a => exact h a
theorem keptOP_bind {α β : Type} {o : Option α} {g : α → Option (β × State)} (h : ∀ a, KeptOP q k (g a)) : KeptOP q k (o.bind g) := by
  cases o with
  | none => trivial
  | some a => exact h a
theorem keptOP_bindP {α β : Type} {o : Option (α × State)} {g : α × State → Option (β × State)} (ho : KeptOP q k o)
    (h : ∀ p, Kept q k p.2 → KeptOP q k (g p)) : KeptOP q k (o.bind g) := by
  cases o with
  | none => trivial
  | some p => exact h p ho
theorem kept_foldl {α : Type} {g : State → α → State} {l : List α} {s : State} (hs : ∀ s x, Kept q k s → Kept q k (g s x))
    (h : Kept q k s) : Kept q k (l.foldl g s) := foldl_pred hs h
theorem keptP_foldl {α β : Type} {g : β × State → α → β × State} {l : List α} {p : β × State}
    (hs : ∀ b s x, Kept q k s → KeptP q k (g (b, s) x)) (h : KeptP q k p) : KeptP q k (l.foldl g p) :=
  foldl_pred (P := KeptP q k) (fun p x h => hs p.1 p.2 x h) h

theorem keptO_foldl {α : Type} {g : Option State → α → Option State} {l : List α} {o : Option State}
    (hs : ∀ o x, KeptO q k o → KeptO q k (g o x)) (h : KeptO q k o) : KeptO q k (l.foldl g o) := foldl_pred (P := KeptO q k) hs h
theorem kept_foldl2 {α β : Type} {g : β × State → α → β × State} {l : List α} {p : β × State}
    (hs : ∀ (p : β × State) x, Kept q k p.2 → Kept q k (g p x).2) (h : Kept q k p.2) : Kept q k (l.foldl g p).2 :=
  foldl_pred (P := fun p : β × State => Kept q k p.2) hs h

/-! ### Conditionals -/

theorem kept_ite {c : Prop} [Decidable c] {a b : State} (ha : Kept q k a) (hb : Kept q k b) :
    Kept q k (if c then a else b) := by split <;> assumption
theorem keptP_ite {β : Type} {c : Prop} [Decidable c] {a b : β × State} (ha : Kept q k a.2) (hb : Kept q k b.2) :
    Kept q k (if c then a else b).2 := by split <;> assumption
theorem keptPP_ite {β : Type} {γ : Type} {c : Prop} [Decidable c] {a b : β × γ × State} (ha : Kept q k a.2.2) (hb : Kept q k b.2.2) :
    Kept q k (if c then a else b).2.2 := by split <;> assumption
theorem keptO_ite {c : Prop} [Decidable c] {a b : Option State} (ha : KeptO q k a) (hb : KeptO q k b) :
    KeptO q k (if c then a else b) := by split <;> assumption
theorem keptOP_ite {β : Type} {c : Prop} [Decidable c] {a b : Option (β × State)} (ha : KeptOP q k a) (hb : KeptOP q k b) :
    KeptOP q k (if c then a else b) := by split <;> assumption
theorem keptE_ite {β : Type} {c : Prop} [Decidable c] {a b : Except β State} (ha : KeptE q k a) (hb : KeptE q k b) :
    KeptE q k (if c then a else b) := by split <;> assumption
theorem keptF_ite {ε α : Type} {f : α → State} {c : Prop} [Decidable c] {a b : Except (ε × State) α} (ha : KeptF q k f a)
    (hb : KeptF q k f b) : KeptF q k f (if c then a else b) := by split <;> assumption
theorem keptEP_ite {β : Type} {γ : Type} {c : Prop} [Decidable c] {a b : Except β (γ × State)} (ha : KeptEP q k a) (hb : KeptEP q k b) :
    KeptEP q k (if c then a else b) := by split <;> assumption
theorem keptZ_ite {c : Prop} [Decidable c] {a b : IzOut} (ha : KeptZ q k a) (hb : KeptZ q k b) :
    KeptZ q k (if c then a else b) := by split <;> assumption
theorem keptX_ite {c : Prop} [Decidable c] {a b : Host.Outcome State Fault Refusal} (ha : KeptX q k a) (hb : KeptX q k b) :
    KeptX q k (if c then a else b) := by split <;> assumption

theorem kept_iter {n : Nat} {g : Nat → State → State} {s : State} (hs : ∀ i s, Kept q k s → Kept q k (g i s)) (h : Kept q k s) :
    Kept q k (iter n g s) := kept_foldl (fun s i h => hs i s h) h

/-- An update of any other field. -/
theorem kept_upd {s : State} {free : Nat} {sent : List Sent} {due : List Due} {fenceTimes : Tab (List Nat)} {fenceHeld : Tab
    Bool} {log : EventLog} {boot : Boot} {cxl : Cxl} {qe : Qe} {nss : Tab Namespace} {media : Media} {jnl : Jnl} {die : JnlDie}
    {ddr : Ddr} {hamx : HamperAux} {jobSeq : Nat} {keys : Tab KeySlot} {laneSearch : Tab Search} {party : Party} {mender :
    Mender} {svc : Svc} {pwr : Pwr} :
    Kept q k ⟨s.pending, free, sent, s.pick, s.regs, s.snaps, due, s.lag, s.missed, s.weights, fenceTimes, fenceHeld, log, boot,
      cxl, s.fns, qe, nss, media, s.map, jnl, die, ddr, s.ham, s.hamPoison, s.hamErr, s.dram, s.dramPoison, s.dramErr, hamx,
      s.shus, s.lines, s.engs, jobSeq, s.digs, keys, s.hed, s.hgrp, laneSearch, s.icache, s.cores, s.tasks, s.ready, s.progs,
      s.runs, party, mender, svc, pwr⟩ ↔ Kept q k s :=
  ⟨fun h => ⟨h.pending, h.pick, ⟨h.tabs.regs, h.tabs.snaps, h.tabs.map, h.tabs.ham, h.tabs.hamPoison, h.tabs.hamErr, h.tabs.dram,
      h.tabs.dramPoison, h.tabs.dramErr, h.tabs.lag, h.tabs.missed, h.tabs.weights, h.tabs.fns, h.tabs.shus, h.tabs.lines,
      h.tabs.engs, h.tabs.digs, h.tabs.hed, h.tabs.hgrp, h.tabs.icache, h.tabs.cores, h.tabs.tasks, h.tabs.ready, h.tabs.progs,
      h.tabs.runs⟩⟩, fun h => ⟨h.pending, h.pick, ⟨h.tabs.regs, h.tabs.snaps, h.tabs.map, h.tabs.ham, h.tabs.hamPoison,
      h.tabs.hamErr, h.tabs.dram, h.tabs.dramPoison, h.tabs.dramErr, h.tabs.lag, h.tabs.missed, h.tabs.weights, h.tabs.fns,
      h.tabs.shus, h.tabs.lines, h.tabs.engs, h.tabs.digs, h.tabs.hed, h.tabs.hgrp, h.tabs.icache, h.tabs.cores, h.tabs.tasks,
      h.tabs.ready, h.tabs.progs, h.tabs.runs⟩⟩⟩

/-! ### An update of one table, and of fields that are no tables -/

variable {s : State} {free : Nat} {sent : List Sent} {due : List Due} {fenceTimes : Tab (List Nat)} {fenceHeld : Tab Bool} {log
    : EventLog} {boot : Boot} {cxl : Cxl} {qe : Qe} {nss : Tab Namespace} {media : Media} {jnl : Jnl} {die : JnlDie} {ddr : Ddr}
    {hamx : HamperAux} {jobSeq : Nat} {keys : Tab KeySlot} {laneSearch : Tab Search} {party : Party} {mender : Mender} {svc :
    Svc} {pwr : Pwr}

theorem kept_regs {t : Tab W64} (h : Kept q k s) (ht : regsWf t = true) :
    Kept q k ⟨s.pending, free, sent, s.pick, t, s.snaps, due, s.lag, s.missed, s.weights, fenceTimes, fenceHeld, log, boot, cxl,
      s.fns, qe, nss, media, s.map, jnl, die, ddr, s.ham, s.hamPoison, s.hamErr, s.dram, s.dramPoison, s.dramErr, hamx, s.shus,
      s.lines, s.engs, jobSeq, s.digs, keys, s.hed, s.hgrp, laneSearch, s.icache, s.cores, s.tasks, s.ready, s.progs, s.runs,
      party, mender, svc, pwr⟩ :=
  ⟨h.pending, h.pick, { h.tabs with regs := ht }⟩
theorem kept_snaps {t : Tab W64} (h : Kept q k s) (ht : tabWf 0 t = true) :
    Kept q k ⟨s.pending, free, sent, s.pick, s.regs, t, due, s.lag, s.missed, s.weights, fenceTimes, fenceHeld, log, boot, cxl,
      s.fns, qe, nss, media, s.map, jnl, die, ddr, s.ham, s.hamPoison, s.hamErr, s.dram, s.dramPoison, s.dramErr, hamx, s.shus,
      s.lines, s.engs, jobSeq, s.digs, keys, s.hed, s.hgrp, laneSearch, s.icache, s.cores, s.tasks, s.ready, s.progs, s.runs,
      party, mender, svc, pwr⟩ :=
  ⟨h.pending, h.pick, { h.tabs with snaps := ht }⟩
theorem kept_map {t : Tab (BitVec 40)} (h : Kept q k s) (ht : tabWf 0 t = true) :
    Kept q k ⟨s.pending, free, sent, s.pick, s.regs, s.snaps, due, s.lag, s.missed, s.weights, fenceTimes, fenceHeld, log, boot,
      cxl, s.fns, qe, nss, media, t, jnl, die, ddr, s.ham, s.hamPoison, s.hamErr, s.dram, s.dramPoison, s.dramErr, hamx, s.shus,
      s.lines, s.engs, jobSeq, s.digs, keys, s.hed, s.hgrp, laneSearch, s.icache, s.cores, s.tasks, s.ready, s.progs, s.runs,
      party, mender, svc, pwr⟩ :=
  ⟨h.pending, h.pick, { h.tabs with map := ht }⟩
theorem kept_ham {t : Tab Byte} (h : Kept q k s) (ht : tabWf 0 t = true) :
    Kept q k ⟨s.pending, free, sent, s.pick, s.regs, s.snaps, due, s.lag, s.missed, s.weights, fenceTimes, fenceHeld, log, boot,
      cxl, s.fns, qe, nss, media, s.map, jnl, die, ddr, t, s.hamPoison, s.hamErr, s.dram, s.dramPoison, s.dramErr, hamx, s.shus,
      s.lines, s.engs, jobSeq, s.digs, keys, s.hed, s.hgrp, laneSearch, s.icache, s.cores, s.tasks, s.ready, s.progs, s.runs,
      party, mender, svc, pwr⟩ :=
  ⟨h.pending, h.pick, { h.tabs with ham := ht }⟩
theorem kept_hamPoison {t : Tab Bool} (h : Kept q k s) (ht : tabWf false t = true) :
    Kept q k ⟨s.pending, free, sent, s.pick, s.regs, s.snaps, due, s.lag, s.missed, s.weights, fenceTimes, fenceHeld, log, boot,
      cxl, s.fns, qe, nss, media, s.map, jnl, die, ddr, s.ham, t, s.hamErr, s.dram, s.dramPoison, s.dramErr, hamx, s.shus,
      s.lines, s.engs, jobSeq, s.digs, keys, s.hed, s.hgrp, laneSearch, s.icache, s.cores, s.tasks, s.ready, s.progs, s.runs,
      party, mender, svc, pwr⟩ :=
  ⟨h.pending, h.pick, { h.tabs with hamPoison := ht }⟩
theorem kept_hamErr {t : Tab (List (Nat × Nat))} (h : Kept q k s) (ht : tabWf [] t = true) :
    Kept q k ⟨s.pending, free, sent, s.pick, s.regs, s.snaps, due, s.lag, s.missed, s.weights, fenceTimes, fenceHeld, log, boot,
      cxl, s.fns, qe, nss, media, s.map, jnl, die, ddr, s.ham, s.hamPoison, t, s.dram, s.dramPoison, s.dramErr, hamx, s.shus,
      s.lines, s.engs, jobSeq, s.digs, keys, s.hed, s.hgrp, laneSearch, s.icache, s.cores, s.tasks, s.ready, s.progs, s.runs,
      party, mender, svc, pwr⟩ :=
  ⟨h.pending, h.pick, { h.tabs with hamErr := ht }⟩
theorem kept_dram {t : Tab Byte} (h : Kept q k s) (ht : tabWf 0 t = true) :
    Kept q k ⟨s.pending, free, sent, s.pick, s.regs, s.snaps, due, s.lag, s.missed, s.weights, fenceTimes, fenceHeld, log, boot,
      cxl, s.fns, qe, nss, media, s.map, jnl, die, ddr, s.ham, s.hamPoison, s.hamErr, t, s.dramPoison, s.dramErr, hamx, s.shus,
      s.lines, s.engs, jobSeq, s.digs, keys, s.hed, s.hgrp, laneSearch, s.icache, s.cores, s.tasks, s.ready, s.progs, s.runs,
      party, mender, svc, pwr⟩ :=
  ⟨h.pending, h.pick, { h.tabs with dram := ht }⟩
theorem kept_dramPoison {t : Tab Bool} (h : Kept q k s) (ht : tabWf false t = true) :
    Kept q k ⟨s.pending, free, sent, s.pick, s.regs, s.snaps, due, s.lag, s.missed, s.weights, fenceTimes, fenceHeld, log, boot,
      cxl, s.fns, qe, nss, media, s.map, jnl, die, ddr, s.ham, s.hamPoison, s.hamErr, s.dram, t, s.dramErr, hamx, s.shus,
      s.lines, s.engs, jobSeq, s.digs, keys, s.hed, s.hgrp, laneSearch, s.icache, s.cores, s.tasks, s.ready, s.progs, s.runs,
      party, mender, svc, pwr⟩ :=
  ⟨h.pending, h.pick, { h.tabs with dramPoison := ht }⟩
theorem kept_dramErr {t : Tab (List (Nat × Nat))} (h : Kept q k s) (ht : tabWf [] t = true) :
    Kept q k ⟨s.pending, free, sent, s.pick, s.regs, s.snaps, due, s.lag, s.missed, s.weights, fenceTimes, fenceHeld, log, boot,
      cxl, s.fns, qe, nss, media, s.map, jnl, die, ddr, s.ham, s.hamPoison, s.hamErr, s.dram, s.dramPoison, t, hamx, s.shus,
      s.lines, s.engs, jobSeq, s.digs, keys, s.hed, s.hgrp, laneSearch, s.icache, s.cores, s.tasks, s.ready, s.progs, s.runs,
      party, mender, svc, pwr⟩ :=
  ⟨h.pending, h.pick, { h.tabs with dramErr := ht }⟩
theorem kept_lag {t : Tab Nat} (h : Kept q k s) (ht : tabUp t = true) :
    Kept q k ⟨s.pending, free, sent, s.pick, s.regs, s.snaps, due, t, s.missed, s.weights, fenceTimes, fenceHeld, log, boot, cxl,
      s.fns, qe, nss, media, s.map, jnl, die, ddr, s.ham, s.hamPoison, s.hamErr, s.dram, s.dramPoison, s.dramErr, hamx, s.shus,
      s.lines, s.engs, jobSeq, s.digs, keys, s.hed, s.hgrp, laneSearch, s.icache, s.cores, s.tasks, s.ready, s.progs, s.runs,
      party, mender, svc, pwr⟩ :=
  ⟨h.pending, h.pick, { h.tabs with lag := ht }⟩
theorem kept_missed {t : Tab Nat} (h : Kept q k s) (ht : tabUp t = true) :
    Kept q k ⟨s.pending, free, sent, s.pick, s.regs, s.snaps, due, s.lag, t, s.weights, fenceTimes, fenceHeld, log, boot, cxl,
      s.fns, qe, nss, media, s.map, jnl, die, ddr, s.ham, s.hamPoison, s.hamErr, s.dram, s.dramPoison, s.dramErr, hamx, s.shus,
      s.lines, s.engs, jobSeq, s.digs, keys, s.hed, s.hgrp, laneSearch, s.icache, s.cores, s.tasks, s.ready, s.progs, s.runs,
      party, mender, svc, pwr⟩ :=
  ⟨h.pending, h.pick, { h.tabs with missed := ht }⟩
theorem kept_weights {t : Tab Nat} (h : Kept q k s) (ht : tabUp t = true) :
    Kept q k ⟨s.pending, free, sent, s.pick, s.regs, s.snaps, due, s.lag, s.missed, t, fenceTimes, fenceHeld, log, boot, cxl, s.fns,
      qe, nss, media, s.map, jnl, die, ddr, s.ham, s.hamPoison, s.hamErr, s.dram, s.dramPoison, s.dramErr, hamx, s.shus,
      s.lines, s.engs, jobSeq, s.digs, keys, s.hed, s.hgrp, laneSearch, s.icache, s.cores, s.tasks, s.ready, s.progs, s.runs,
      party, mender, svc, pwr⟩ :=
  ⟨h.pending, h.pick, { h.tabs with weights := ht }⟩
theorem kept_fns {t : Tab Fn} (h : Kept q k s) (ht : tabUp t = true) :
    Kept q k ⟨s.pending, free, sent, s.pick, s.regs, s.snaps, due, s.lag, s.missed, s.weights, fenceTimes, fenceHeld, log, boot,
      cxl, t, qe, nss, media, s.map, jnl, die, ddr, s.ham, s.hamPoison, s.hamErr, s.dram, s.dramPoison, s.dramErr, hamx, s.shus,
      s.lines, s.engs, jobSeq, s.digs, keys, s.hed, s.hgrp, laneSearch, s.icache, s.cores, s.tasks, s.ready, s.progs, s.runs,
      party, mender, svc, pwr⟩ :=
  ⟨h.pending, h.pick, { h.tabs with fns := ht }⟩
theorem kept_shus {t : Tab Shuttle} (h : Kept q k s) (ht : tabUp t = true) :
    Kept q k ⟨s.pending, free, sent, s.pick, s.regs, s.snaps, due, s.lag, s.missed, s.weights, fenceTimes, fenceHeld, log, boot,
      cxl, s.fns, qe, nss, media, s.map, jnl, die, ddr, s.ham, s.hamPoison, s.hamErr, s.dram, s.dramPoison, s.dramErr, hamx, t,
      s.lines, s.engs, jobSeq, s.digs, keys, s.hed, s.hgrp, laneSearch, s.icache, s.cores, s.tasks, s.ready, s.progs, s.runs,
      party, mender, svc, pwr⟩ :=
  ⟨h.pending, h.pick, { h.tabs with shus := ht }⟩
theorem kept_lines {t : Tab Line} (h : Kept q k s) (ht : tabUp t = true) :
    Kept q k ⟨s.pending, free, sent, s.pick, s.regs, s.snaps, due, s.lag, s.missed, s.weights, fenceTimes, fenceHeld, log, boot,
      cxl, s.fns, qe, nss, media, s.map, jnl, die, ddr, s.ham, s.hamPoison, s.hamErr, s.dram, s.dramPoison, s.dramErr, hamx,
      s.shus, t, s.engs, jobSeq, s.digs, keys, s.hed, s.hgrp, laneSearch, s.icache, s.cores, s.tasks, s.ready, s.progs, s.runs,
      party, mender, svc, pwr⟩ :=
  ⟨h.pending, h.pick, { h.tabs with lines := ht }⟩
theorem kept_engs {t : Tab Engine} (h : Kept q k s) (ht : tabUp t = true) :
    Kept q k ⟨s.pending, free, sent, s.pick, s.regs, s.snaps, due, s.lag, s.missed, s.weights, fenceTimes, fenceHeld, log, boot,
      cxl, s.fns, qe, nss, media, s.map, jnl, die, ddr, s.ham, s.hamPoison, s.hamErr, s.dram, s.dramPoison, s.dramErr, hamx,
      s.shus, s.lines, t, jobSeq, s.digs, keys, s.hed, s.hgrp, laneSearch, s.icache, s.cores, s.tasks, s.ready, s.progs, s.runs,
      party, mender, svc, pwr⟩ :=
  ⟨h.pending, h.pick, { h.tabs with engs := ht }⟩
theorem kept_digs {t : Tab DigCtx} (h : Kept q k s) (ht : tabUp t = true) :
    Kept q k ⟨s.pending, free, sent, s.pick, s.regs, s.snaps, due, s.lag, s.missed, s.weights, fenceTimes, fenceHeld, log, boot,
      cxl, s.fns, qe, nss, media, s.map, jnl, die, ddr, s.ham, s.hamPoison, s.hamErr, s.dram, s.dramPoison, s.dramErr, hamx,
      s.shus, s.lines, s.engs, jobSeq, t, keys, s.hed, s.hgrp, laneSearch, s.icache, s.cores, s.tasks, s.ready, s.progs, s.runs,
      party, mender, svc, pwr⟩ :=
  ⟨h.pending, h.pick, { h.tabs with digs := ht }⟩
theorem kept_hed {t : Tab HedEntry} (h : Kept q k s) (ht : tabUp t = true) :
    Kept q k ⟨s.pending, free, sent, s.pick, s.regs, s.snaps, due, s.lag, s.missed, s.weights, fenceTimes, fenceHeld, log, boot,
      cxl, s.fns, qe, nss, media, s.map, jnl, die, ddr, s.ham, s.hamPoison, s.hamErr, s.dram, s.dramPoison, s.dramErr, hamx,
      s.shus, s.lines, s.engs, jobSeq, s.digs, keys, t, s.hgrp, laneSearch, s.icache, s.cores, s.tasks, s.ready, s.progs,
      s.runs, party, mender, svc, pwr⟩ :=
  ⟨h.pending, h.pick, { h.tabs with hed := ht }⟩
theorem kept_hgrp {t : Tab HedGroup} (h : Kept q k s) (ht : tabUp t = true) :
    Kept q k ⟨s.pending, free, sent, s.pick, s.regs, s.snaps, due, s.lag, s.missed, s.weights, fenceTimes, fenceHeld, log, boot,
      cxl, s.fns, qe, nss, media, s.map, jnl, die, ddr, s.ham, s.hamPoison, s.hamErr, s.dram, s.dramPoison, s.dramErr, hamx,
      s.shus, s.lines, s.engs, jobSeq, s.digs, keys, s.hed, t, laneSearch, s.icache, s.cores, s.tasks, s.ready, s.progs, s.runs,
      party, mender, svc, pwr⟩ :=
  ⟨h.pending, h.pick, { h.tabs with hgrp := ht }⟩
theorem kept_icache {t : Tab (List Nat)} (h : Kept q k s) (ht : tabUp t = true) :
    Kept q k ⟨s.pending, free, sent, s.pick, s.regs, s.snaps, due, s.lag, s.missed, s.weights, fenceTimes, fenceHeld, log, boot,
      cxl, s.fns, qe, nss, media, s.map, jnl, die, ddr, s.ham, s.hamPoison, s.hamErr, s.dram, s.dramPoison, s.dramErr, hamx,
      s.shus, s.lines, s.engs, jobSeq, s.digs, keys, s.hed, s.hgrp, laneSearch, t, s.cores, s.tasks, s.ready, s.progs, s.runs,
      party, mender, svc, pwr⟩ :=
  ⟨h.pending, h.pick, { h.tabs with icache := ht }⟩
theorem kept_cores {t : Tab Core} (h : Kept q k s) (ht : tabUp t = true) :
    Kept q k ⟨s.pending, free, sent, s.pick, s.regs, s.snaps, due, s.lag, s.missed, s.weights, fenceTimes, fenceHeld, log, boot,
      cxl, s.fns, qe, nss, media, s.map, jnl, die, ddr, s.ham, s.hamPoison, s.hamErr, s.dram, s.dramPoison, s.dramErr, hamx,
      s.shus, s.lines, s.engs, jobSeq, s.digs, keys, s.hed, s.hgrp, laneSearch, s.icache, t, s.tasks, s.ready, s.progs, s.runs,
      party, mender, svc, pwr⟩ :=
  ⟨h.pending, h.pick, { h.tabs with cores := ht }⟩
theorem kept_tasks {t : Tab Task} (h : Kept q k s) (ht : tabUp t = true) :
    Kept q k ⟨s.pending, free, sent, s.pick, s.regs, s.snaps, due, s.lag, s.missed, s.weights, fenceTimes, fenceHeld, log, boot,
      cxl, s.fns, qe, nss, media, s.map, jnl, die, ddr, s.ham, s.hamPoison, s.hamErr, s.dram, s.dramPoison, s.dramErr, hamx,
      s.shus, s.lines, s.engs, jobSeq, s.digs, keys, s.hed, s.hgrp, laneSearch, s.icache, s.cores, t, s.ready, s.progs, s.runs,
      party, mender, svc, pwr⟩ :=
  ⟨h.pending, h.pick, { h.tabs with tasks := ht }⟩
theorem kept_ready {t : Tab (List Nat)} (h : Kept q k s) (ht : tabUp t = true) :
    Kept q k ⟨s.pending, free, sent, s.pick, s.regs, s.snaps, due, s.lag, s.missed, s.weights, fenceTimes, fenceHeld, log, boot,
      cxl, s.fns, qe, nss, media, s.map, jnl, die, ddr, s.ham, s.hamPoison, s.hamErr, s.dram, s.dramPoison, s.dramErr, hamx,
      s.shus, s.lines, s.engs, jobSeq, s.digs, keys, s.hed, s.hgrp, laneSearch, s.icache, s.cores, s.tasks, t, s.progs, s.runs,
      party, mender, svc, pwr⟩ :=
  ⟨h.pending, h.pick, { h.tabs with ready := ht }⟩
theorem kept_progs {t : Tab Image} (h : Kept q k s) (ht : tabUp t = true) :
    Kept q k ⟨s.pending, free, sent, s.pick, s.regs, s.snaps, due, s.lag, s.missed, s.weights, fenceTimes, fenceHeld, log, boot,
      cxl, s.fns, qe, nss, media, s.map, jnl, die, ddr, s.ham, s.hamPoison, s.hamErr, s.dram, s.dramPoison, s.dramErr, hamx,
      s.shus, s.lines, s.engs, jobSeq, s.digs, keys, s.hed, s.hgrp, laneSearch, s.icache, s.cores, s.tasks, s.ready, t, s.runs,
      party, mender, svc, pwr⟩ :=
  ⟨h.pending, h.pick, { h.tabs with progs := ht }⟩
theorem kept_runs {t : Tab Run} (h : Kept q k s) (ht : tabUp t = true) :
    Kept q k ⟨s.pending, free, sent, s.pick, s.regs, s.snaps, due, s.lag, s.missed, s.weights, fenceTimes, fenceHeld, log, boot,
      cxl, s.fns, qe, nss, media, s.map, jnl, die, ddr, s.ham, s.hamPoison, s.hamErr, s.dram, s.dramPoison, s.dramErr, hamx,
      s.shus, s.lines, s.engs, jobSeq, s.digs, keys, s.hed, s.hgrp, laneSearch, s.icache, s.cores, s.tasks, s.ready, s.progs, t,
      party, mender, svc, pwr⟩ :=
  ⟨h.pending, h.pick, { h.tabs with runs := ht }⟩

end Sys2Proof.Machine
end

