-- ==== Sys2Proof/Laws/KeptOps.lean ====
section
/-!
SUPPORT. What the operations of Machine/Ops.lean keep (`Kept`).
-/
namespace Sys2Proof.Machine

set_option linter.all false

variable {q : List Instr} {k : W64}

theorem regSet_kept {x0 : Nat} {x1 : Nat} {x2 : State} (h2 : Kept q k x2) : Kept q k (regSet x0 x1 x2) :=
  ⟨h2.pending, h2.pick, { h2.tabs with regs := regsWf_tset h2.tabs.regs }⟩

theorem regSetFld_kept {x0 : Nat} {x1 : Nat} {x2 : Nat} {x3 : Nat} {x4 : State} (h4 : Kept q k x4) : Kept q k (regSetFld x0 x1 x2 x3 x4) := by
  unfold regSetFld
  repeat' (first | with_reducible assumption | (intro) | with_reducible apply regSet_kept | split | dsimp only)

theorem regAdd_kept {x0 : Nat} {x1 : Nat} {x2 : State} (h2 : Kept q k x2) : Kept q k (regAdd x0 x1 x2) := by
  unfold regAdd
  repeat' (first | with_reducible assumption | (intro) | with_reducible apply regSet_kept | split | dsimp only)

theorem regAdd32_kept {x0 : Nat} {x1 : Nat} {x2 : State} (h2 : Kept q k x2) : Kept q k (regAdd32 x0 x1 x2) := by
  unfold regAdd32
  repeat' (first | with_reducible assumption | (intro) | with_reducible apply regSet_kept | split | dsimp only)

theorem regSat_kept {x0 : Nat} {x1 : Nat} {x2 : State} (h2 : Kept q k x2) : Kept q k (regSat x0 x1 x2) := by
  unfold regSat
  repeat' (first | with_reducible assumption | (intro) | with_reducible apply regSet_kept | split | dsimp only)

theorem regMax_kept {x0 : Nat} {x1 : Nat} {x2 : State} (h2 : Kept q k x2) : Kept q k (regMax x0 x1 x2) := by
  unfold regMax
  repeat' (first | with_reducible assumption | (intro) | with_reducible apply regSet_kept | with_reducible apply kept_ite | split | dsimp only)

theorem draw_kept {x0 : State} (h0 : Kept q k x0) : Kept q k ((draw x0)).2 := by
  unfold draw
  repeat' (first | with_reducible assumption | (intro) | simp only [kept_upd] | split | dsimp only)
theorem draw_keptE {x0 : State} {a : Nat} {t : State} (e : draw x0 = (a, t)) (h0 : Kept q k x0) : Kept q k t := by
  have w := draw_kept (q := q) (k := k) (x0 := x0) h0
  rw [e] at w; exact w

theorem later_kept {x0 : Due} {x1 : State} (h1 : Kept q k x1) : Kept q k (later x0 x1) := by
  unfold later
  repeat' (first | with_reducible assumption | (intro) | simp only [kept_upd] | split | dsimp only)

theorem emit_kept {x0 : Sent} {x1 : State} (h1 : Kept q k x1) : Kept q k (emit x0 x1) := by
  unfold emit
  repeat' (first | with_reducible assumption | (intro) | simp only [kept_upd] | split | dsimp only)

theorem fnSet_kept {x0 : Nat} {x1 : Fn} {x2 : State} (h2 : Kept q k x2) : Kept q k (fnSet x0 x1 x2) := by
  unfold fnSet
  repeat' (first | with_reducible assumption | (intro) | split | dsimp only | with_reducible apply kept_fns | (with_reducible refine Tabs.fns (Kept.tabs (q := q) (k := k) ?_)) | with_reducible apply tabUp_tset | with_reducible apply tabUp_filter | with_reducible apply tabUp_map | with_reducible apply tabUp_tmod | with_reducible apply tabUp_foldl | with_reducible apply tabUp_tdel | with_reducible apply tabUp_tput | with_reducible apply tabUp_filterMap | with_reducible exact tabUp_nil | with_reducible apply tabWf_tset | with_reducible apply tabWf_filter | with_reducible apply tabWf_tdel | with_reducible apply tabWf_tsetBytes | with_reducible apply tabWf_foldl | with_reducible exact tabWf_nil | simp only [kept_upd])

theorem fnMod_kept {x0 : Nat} {x1 : Fn → Fn} {x2 : State} (h2 : Kept q k x2) : Kept q k (fnMod x0 x1 x2) := by
  unfold fnMod
  repeat' (first | with_reducible assumption | (intro) | with_reducible apply fnSet_kept | split | dsimp only)

theorem charge_kept {x0 : Nat} {x1 : Nat} {x2 : Nat} {x3 : State} (h3 : Kept q k x3) : Kept q k (charge x0 x1 x2 x3) := by
  unfold charge
  repeat' (first | with_reducible assumption | (intro) | with_reducible apply fnMod_kept | simp only [kept_upd] | split | dsimp only)

theorem taskSet_kept {x0 : Nat} {x1 : Task} {x2 : State} (h2 : Kept q k x2) : Kept q k (taskSet x0 x1 x2) := by
  unfold taskSet
  repeat' (first | with_reducible assumption | (intro) | split | dsimp only | with_reducible apply kept_tasks | (with_reducible refine Tabs.tasks (Kept.tabs (q := q) (k := k) ?_)) | with_reducible apply tabUp_tset | with_reducible apply tabUp_filter | with_reducible apply tabUp_map | with_reducible apply tabUp_tmod | with_reducible apply tabUp_foldl | with_reducible apply tabUp_tdel | with_reducible apply tabUp_tput | with_reducible apply tabUp_filterMap | with_reducible exact tabUp_nil | with_reducible apply tabWf_tset | with_reducible apply tabWf_filter | with_reducible apply tabWf_tdel | with_reducible apply tabWf_tsetBytes | with_reducible apply tabWf_foldl | with_reducible exact tabWf_nil | simp only [kept_upd])

theorem taskMod_kept {x0 : Nat} {x1 : Task → Task} {x2 : State} (h2 : Kept q k x2) : Kept q k (taskMod x0 x1 x2) := by
  unfold taskMod
  repeat' (first | with_reducible assumption | (intro) | with_reducible apply taskSet_kept | split | dsimp only)

theorem coreSet_kept {x0 : Nat} {x1 : Core} {x2 : State} (h2 : Kept q k x2) : Kept q k (coreSet x0 x1 x2) := by
  unfold coreSet
  repeat' (first | with_reducible assumption | (intro) | split | dsimp only | with_reducible apply kept_cores | (with_reducible refine Tabs.cores (Kept.tabs (q := q) (k := k) ?_)) | with_reducible apply tabUp_tset | with_reducible apply tabUp_filter | with_reducible apply tabUp_map | with_reducible apply tabUp_tmod | with_reducible apply tabUp_foldl | with_reducible apply tabUp_tdel | with_reducible apply tabUp_tput | with_reducible apply tabUp_filterMap | with_reducible exact tabUp_nil | with_reducible apply tabWf_tset | with_reducible apply tabWf_filter | with_reducible apply tabWf_tdel | with_reducible apply tabWf_tsetBytes | with_reducible apply tabWf_foldl | with_reducible exact tabWf_nil | simp only [kept_upd])

theorem coreMod_kept {x0 : Nat} {x1 : Core → Core} {x2 : State} (h2 : Kept q k x2) : Kept q k (coreMod x0 x1 x2) := by
  unfold coreMod
  repeat' (first | with_reducible assumption | (intro) | with_reducible apply coreSet_kept | split | dsimp only)

theorem readySet_kept {x0 : Nat} {x1 : List Nat} {x2 : State} (h2 : Kept q k x2) : Kept q k (readySet x0 x1 x2) := by
  unfold readySet
  repeat' (first | with_reducible assumption | (intro) | split | dsimp only | with_reducible apply kept_ready | (with_reducible refine Tabs.ready (Kept.tabs (q := q) (k := k) ?_)) | with_reducible apply tabUp_tset | with_reducible apply tabUp_filter | with_reducible apply tabUp_map | with_reducible apply tabUp_tmod | with_reducible apply tabUp_foldl | with_reducible apply tabUp_tdel | with_reducible apply tabUp_tput | with_reducible apply tabUp_filterMap | with_reducible exact tabUp_nil | with_reducible apply tabWf_tset | with_reducible apply tabWf_filter | with_reducible apply tabWf_tdel | with_reducible apply tabWf_tsetBytes | with_reducible apply tabWf_foldl | with_reducible exact tabWf_nil | simp only [kept_upd])

theorem joinList_kept {x0 : Nat} {x1 : Nat} {x2 : Bool} {x3 : State} (h3 : Kept q k x3) : Kept q k (joinList x0 x1 x2 x3) := by
  unfold joinList
  extract_lets l s s
  have k_s : Kept q k s := by
    dsimp only [s]
    repeat' (first | with_reducible assumption | (intro) | with_reducible apply readySet_kept | with_reducible apply taskMod_kept | with_reducible apply regMax_kept | with_reducible apply regAdd_kept | with_reducible apply kept_ite | simp only [kept_upd] | split | dsimp only)
  clear_value s
  repeat' (first | with_reducible assumption | (intro) | with_reducible apply readySet_kept | with_reducible apply taskMod_kept | with_reducible apply regMax_kept | with_reducible apply regAdd_kept | with_reducible apply kept_ite | simp only [kept_upd] | split | dsimp only)

theorem slotTask_kept {x0 : Nat} {x1 : Nat} {x2 : State} (h2 : Kept q k x2) : Kept q k (slotTask x0 x1 x2) := by
  unfold slotTask
  repeat' (first | with_reducible assumption | (intro) | with_reducible apply coreMod_kept | with_reducible apply taskMod_kept | simp only [kept_upd] | split | dsimp only)

theorem placeReady_kept {x0 : Nat} {x1 : State} (h1 : Kept q k x1) : KeptO q k (placeReady x0 x1) := by
  unfold placeReady
  repeat' (first | with_reducible assumption | (intro) | with_reducible apply taskMod_kept | with_reducible apply slotTask_kept | with_reducible apply joinList_kept | with_reducible apply readyPick_kept | with_reducible apply keptO_some | with_reducible exact keptO_none | with_reducible apply keptO_ite | with_reducible apply kept_ite | simp only [kept_upd] | split | dsimp only)
theorem placeReady_keptE {x0 : Nat} {x1 : State}  {t : State} (e : placeReady x0 x1 = some t) (h1 : Kept q k x1) : Kept q k t := by
  have w := placeReady_kept (q := q) (k := k) (x0 := x0) (x1 := x1) h1
  rw [e] at w; exact w

theorem tryDec_kept {x0 : Nat} {x1 : State} (h1 : Kept q k x1) : KeptO q k (tryDec x0 x1) := by
  unfold tryDec
  repeat' (first | with_reducible assumption | (intro) | with_reducible apply regAdd_kept | with_reducible apply taskMod_kept | with_reducible apply placeReady_kept | (with_reducible refine placeReady_keptE (by assumption) ?_) | with_reducible apply keptO_some | with_reducible exact keptO_none | with_reducible apply keptO_ite | with_reducible apply kept_ite | simp only [kept_upd] | split | dsimp only)
theorem tryDec_keptE {x0 : Nat} {x1 : State}  {t : State} (e : tryDec x0 x1 = some t) (h1 : Kept q k x1) : Kept q k t := by
  have w := tryDec_kept (q := q) (k := k) (x0 := x0) (x1 := x1) h1
  rw [e] at w; exact w

theorem decTask_kept {x0 : Nat} {x1 : State} (h1 : Kept q k x1) : Kept q k (decTask x0 x1) := by
  unfold decTask
  repeat' (first | with_reducible assumption | (intro) | with_reducible apply tryDec_kept | (with_reducible refine tryDec_keptE (by assumption) ?_) | with_reducible apply later_kept | with_reducible apply kept_getD | with_reducible apply keptP_getD | split | dsimp only)

theorem msix_kept {x0 : Nat} {x1 : Nat} {x2 : State} (h2 : Kept q k x2) : Kept q k (msix x0 x1 x2) := by
  unfold msix
  repeat' (first | with_reducible assumption | (intro) | with_reducible apply fnSet_kept | with_reducible apply regAdd_kept | with_reducible apply charge_kept | with_reducible apply emit_kept | with_reducible apply kept_ite | simp only [kept_upd] | split | dsimp only)

theorem vecPost_kept {x0 : Nat} {x1 : Nat} {x2 : State} (h2 : Kept q k x2) : Kept q k (vecPost x0 x1 x2) := by
  unfold vecPost
  repeat' (first | with_reducible assumption | (intro) | with_reducible apply msix_kept | with_reducible apply fnMod_kept | with_reducible apply kept_ite | simp only [kept_upd] | split | dsimp only)

theorem irqMessage_kept {x0 : Nat} {x1 : State} (h1 : Kept q k x1) : Kept q k (irqMessage x0 x1) := by
  unfold irqMessage
  repeat' (first | with_reducible assumption | (intro) | with_reducible apply decTask_kept | with_reducible apply regAdd_kept | with_reducible apply vecPost_kept | with_reducible apply kept_ite | simp only [kept_upd] | split | dsimp only)

theorem irqCause_kept {x0 : Nat} {x1 : Nat} {x2 : State} (h2 : Kept q k x2) : Kept q k (irqCause x0 x1 x2) := by
  unfold irqCause
  repeat' (first | with_reducible assumption | (intro) | with_reducible apply regSet_kept | with_reducible apply irqMessage_kept | with_reducible apply kept_ite | split | dsimp only)

theorem logEvent_kept {x0 : LogEntry} {x1 : State} (h1 : Kept q k x1) : Kept q k (logEvent x0 x1) := by
  unfold logEvent
  repeat' (first | with_reducible assumption | (intro) | with_reducible apply kept_ite | simp only [kept_upd] | split | dsimp only)

theorem errRecord_kept {x0 : Nat} {x1 : Nat} {x2 : State} (h2 : Kept q k x2) : Kept q k (errRecord x0 x1 x2) := by
  unfold errRecord
  repeat' (first | with_reducible assumption | (intro) | with_reducible apply regSat_kept | with_reducible apply regSet_kept | with_reducible apply irqCause_kept | with_reducible apply kept_ite | simp only [kept_upd] | split | dsimp only)

theorem note_kept {x0 : Nat} {x1 : Nat} {x2 : Nat} {x3 : State} (h3 : Kept q k x3) : Kept q k (note x0 x1 x2 x3) := by
  unfold note
  repeat' (first | with_reducible assumption | (intro) | with_reducible apply errRecord_kept | with_reducible apply logEvent_kept | split | dsimp only)

theorem mergeRw_kept {x0 : Nat} {x1 : Nat} {x2 : Nat} {x3 : Nat} {x4 : State} (h4 : Kept q k x4) : Kept q k ((mergeRw x0 x1 x2 x3 x4)).2 := by
  unfold mergeRw
  repeat' (first | with_reducible assumption | (intro) | with_reducible apply note_kept | with_reducible apply kept_foldl | with_reducible apply kept_foldl2 | with_reducible apply keptP_ite | with_reducible apply kept_ite | with_reducible apply keptPP_ite | simp only [kept_upd] | split | dsimp only)
theorem mergeRw_keptE {x0 : Nat} {x1 : Nat} {x2 : Nat} {x3 : Nat} {x4 : State} {a : Nat} {t : State} (e : mergeRw x0 x1 x2 x3 x4 = (a, t)) (h4 : Kept q k x4) : Kept q k t := by
  have w := mergeRw_kept (q := q) (k := k) (x0 := x0) (x1 := x1) (x2 := x2) (x3 := x3) (x4 := x4) h4
  rw [e] at w; exact w

theorem fencePage_kept {x0 : Nat} {x1 : Nat} {x2 : Bool} {x3 : State} (h3 : Kept q k x3) : Kept q k (fencePage x0 x1 x2 x3) := by
  unfold fencePage
  repeat' (first | with_reducible assumption | (intro) | with_reducible apply regSet_kept | with_reducible apply note_kept | with_reducible apply later_kept | with_reducible apply kept_ite | simp only [kept_upd] | split | dsimp only)

theorem goFatal_kept {x0 : Nat} {x1 : Nat} {x2 : State} (h2 : Kept q k x2) : Kept q k (goFatal x0 x1 x2) := by
  unfold goFatal
  extract_lets st st1 st2 again stuck s1 _ s2 s3 s4 cfg
  have k_s1 : Kept q k s1 := by
    dsimp only [s1]
    repeat' (first | with_reducible assumption | (intro) | with_reducible apply regSet_kept | with_reducible apply fnMod_kept | with_reducible apply note_kept | with_reducible apply later_kept | with_reducible apply kept_foldl | with_reducible apply kept_foldl2 | with_reducible apply kept_ite | simp only [kept_upd] | split | dsimp only)
  clear_value s1
  have k_s2 : Kept q k s2 := by
    dsimp only [s2]
    repeat' (first | with_reducible assumption | (intro) | with_reducible apply regSet_kept | with_reducible apply fnMod_kept | with_reducible apply note_kept | with_reducible apply later_kept | with_reducible apply kept_foldl | with_reducible apply kept_foldl2 | with_reducible apply kept_ite | simp only [kept_upd] | split | dsimp only)
  clear_value s2
  have k_s3 : Kept q k s3 := by
    dsimp only [s3]
    repeat' (first | with_reducible assumption | (intro) | with_reducible apply regSet_kept | with_reducible apply fnMod_kept | with_reducible apply note_kept | with_reducible apply later_kept | with_reducible apply kept_foldl | with_reducible apply kept_foldl2 | with_reducible apply kept_ite | simp only [kept_upd] | split | dsimp only)
  clear_value s3
  have k_s4 : Kept q k s4 := by
    dsimp only [s4]
    repeat' (first | with_reducible assumption | (intro) | with_reducible apply regSet_kept | with_reducible apply fnMod_kept | with_reducible apply note_kept | with_reducible apply later_kept | with_reducible apply kept_foldl | with_reducible apply kept_foldl2 | with_reducible apply kept_ite | simp only [kept_upd] | split | dsimp only)
  clear_value s4
  repeat' (first | with_reducible assumption | (intro) | with_reducible apply regSet_kept | with_reducible apply fnMod_kept | with_reducible apply note_kept | with_reducible apply later_kept | with_reducible apply kept_foldl | with_reducible apply kept_foldl2 | with_reducible apply kept_ite | simp only [kept_upd] | split | dsimp only)

theorem raise_kept {x0 : Nat} {x1 : Nat} {x2 : Nat} {x3 : State} (h3 : Kept q k x3) : Kept q k (raise x0 x1 x2 x3) := by
  unfold raise
  repeat' (first | with_reducible assumption | (intro) | with_reducible apply note_kept | with_reducible apply goFatal_kept | with_reducible apply fencePage_kept | with_reducible apply kept_foldl | with_reducible apply kept_foldl2 | with_reducible apply kept_ite | split | dsimp only)

theorem cqInterrupt_kept {x0 : Nat} {x1 : Nat} {x2 : Cq} {x3 : State} (h3 : Kept q k x3) : Kept q k (cqInterrupt x0 x1 x2 x3) := by
  unfold cqInterrupt
  repeat' (first | with_reducible assumption | (intro) | with_reducible apply msix_kept | with_reducible apply vecPost_kept | with_reducible apply kept_ite | split | dsimp only)

theorem errPush_kept {x0 : Nat} {x1 : ErrEntry} {x2 : State} (h2 : Kept q k x2) : Kept q k (errPush x0 x1 x2) := by
  unfold errPush
  repeat' (first | with_reducible assumption | (intro) | with_reducible apply fnMod_kept | simp only [kept_upd] | split | dsimp only)

theorem dlogPage_kept {x0 : Nat} {x1 : Nat} {x2 : State} (h2 : Kept q k x2) : Kept q k (dlogPage x0 x1 x2) := by
  unfold dlogPage
  repeat' (first | with_reducible assumption | (intro) | with_reducible apply fnMod_kept | with_reducible apply note_kept | with_reducible apply kept_ite | simp only [kept_upd] | split | dsimp only)

theorem dlogWrite_kept {x0 : Nat} {x1 : Nat} {x2 : Nat} {x3 : State} (h3 : Kept q k x3) : Kept q k (dlogWrite x0 x1 x2 x3) := by
  unfold dlogWrite
  repeat' (first | with_reducible assumption | (intro) | with_reducible apply dlogPage_kept | with_reducible apply kept_foldl | with_reducible apply kept_foldl2 | with_reducible apply kept_ite | split | dsimp only)

theorem slotsPosted_kept {x0 : Cpl} {x1 : State} (h1 : Kept q k x1) : Kept q k (slotsPosted x0 x1) := by
  unfold slotsPosted
  repeat' (first | with_reducible assumption | (intro) | with_reducible apply kept_ite | simp only [kept_upd] | split | dsimp only)

theorem writeCpl_kept {x0 : Nat} {x1 : Cpl} {x2 : State} (h2 : Kept q k x2) : Kept q k (writeCpl x0 x1 x2) := by
  unfold writeCpl
  repeat' (first | with_reducible assumption | (intro) | with_reducible apply cqInterrupt_kept | with_reducible apply slotsPosted_kept | with_reducible apply regAdd_kept | with_reducible apply charge_kept | with_reducible apply dlogWrite_kept | with_reducible apply fnMod_kept | with_reducible apply emit_kept | with_reducible apply kept_ite | simp only [kept_upd] | split | dsimp only)

theorem postCpl_kept {x0 : Nat} {x1 : Cpl} {x2 : State} (h2 : Kept q k x2) : Kept q k (postCpl x0 x1 x2) := by
  unfold postCpl
  repeat' (first | with_reducible assumption | (intro) | with_reducible apply fnSet_kept | with_reducible apply writeCpl_kept | with_reducible apply kept_ite | simp only [kept_upd] | split | dsimp only)

theorem drainCpl_kept {x0 : Nat} {x1 : List Cpl} {x2 : State} (h2 : Kept q k x2) : Kept q k (drainCpl x0 x1 x2) := by
  induction x1 generalizing x2 with
  | nil => exact fnMod_kept h2
  | cons e l ih =>
    unfold drainCpl
    split
    · exact fnMod_kept h2
    · exact ih (writeCpl_kept h2)

theorem warpMove_kept {x0 : Nat} {x1 : Nat} {x2 : Nat} {x3 : State} (h3 : Kept q k x3) : Kept q k (warpMove x0 x1 x2 x3) := by
  unfold warpMove
  repeat' (first | with_reducible assumption | (intro) | with_reducible apply regAdd_kept | with_reducible apply kept_ite | split | dsimp only)

theorem stateOr_kept {x0 : State} {x1 : Host.Outcome State Fault Refusal} (h0 : Kept q k x0) (h1 : KeptX q k x1) : Kept q k (stateOr x0 x1) := by
  cases x1 with
  | next t => exact h1
  | fault r => exact h0
  | refused r => exact h0

end Sys2Proof.Machine
end

