-- ==== Sys2Proof/Laws/KeptMemory.lean ====
section
/-!
SUPPORT. What the operations of Machine/Memory.lean keep (`Kept`).
-/
namespace Sys2Proof.Machine

set_option linter.all false

variable {q : List Instr} {k : W64}

theorem candidate_kept {x0 : Nat} {x1 : Nat} {x2 : Bool} {x3 : State} (h3 : Kept q k x3) : Kept q k (candidate x0 x1 x2 x3) := by
  unfold candidate
  repeat' (first | with_reducible assumption | (intro) | with_reducible apply note_kept | with_reducible apply kept_getD | with_reducible apply keptP_getD | with_reducible apply kept_ite | simp only [kept_upd] | split | dsimp only)

theorem ueRow_kept {x0 : Nat} {x1 : Nat} {x2 : State} (h2 : Kept q k x2) : Kept q k (ueRow x0 x1 x2) := by
  unfold ueRow
  repeat' (first | with_reducible assumption | (intro) | with_reducible apply raise_kept | with_reducible apply kept_ite | simp only [kept_upd] | split | dsimp only)

theorem hamWordMet_kept {x0 : Nat} {x1 : Nat} {x2 : State} (h2 : Kept q k x2) : Kept q k (hamWordMet x0 x1 x2) := by
  unfold hamWordMet
  repeat' (first | with_reducible assumption | (intro) | with_reducible apply regAdd_kept | with_reducible apply ueRow_kept | with_reducible apply candidate_kept | with_reducible apply raise_kept | with_reducible apply regSet_kept | simp only [kept_upd] | split | dsimp only)

theorem hamMet_kept {x0 : HamBy} {x1 : Nat} {x2 : Nat} {x3 : State} (h3 : Kept q k x3) : Kept q k (hamMet x0 x1 x2 x3) := by
  unfold hamMet
  repeat' (first | with_reducible assumption | (intro) | with_reducible apply hamWordMet_kept | with_reducible apply kept_foldl | with_reducible apply kept_foldl2 | split | dsimp only)

theorem hamMerge_kept {x0 : Nat} {x1 : Nat} {x2 : State} (h2 : Kept q k x2) : Kept q k (hamMerge x0 x1 x2) := by
  unfold hamMerge
  have h : Kept q k (hamWordMet x0 x1 x2) := hamWordMet_kept h2
  exact ⟨h.pending, h.pick, { h.tabs with ham := tabWf_tsetBytes h.tabs.ham, hamPoison := tabWf_tset h.tabs.hamPoison }⟩

theorem hamPut_kept {x0 : Nat} {x1 : Nat} {x2 : Bytes} {x3 : Bool} {x4 : State} (h4 : Kept q k x4) : Kept q k (hamPut x0 x1 x2 x3 x4) := by
  unfold hamPut
  extract_lets ws whole es s0 mark s1
  have h : Kept q k s0 := kept_foldl (fun s w h => hamMerge_kept h) h4
  have h1 : Kept q k s1 := ⟨h.pending, h.pick, { h.tabs with
    ham := tabWf_tsetBytes h.tabs.ham
    hamPoison := foldl_pred (P := fun t => tabWf false t = true) (fun t w h => tabWf_tset h) h.tabs.hamPoison
    hamErr := foldl_pred (P := fun t => tabWf [] t = true) (fun t w h => tabWf_tset h) h.tabs.hamErr }⟩
  exact kept_ite (regAdd_kept h1) h1

theorem hamCollide_kept {x0 : HamBy} {x1 : HamBy} {x2 : Nat} {x3 : State} (h3 : Kept q k x3) : Kept q k (hamCollide x0 x1 x2 x3) := by
  unfold hamCollide
  repeat' (first | with_reducible assumption | (intro) | with_reducible apply regSet_kept | with_reducible apply regAdd_kept | with_reducible apply note_kept | simp only [kept_upd] | split | dsimp only)

theorem hamWordWrite_kept {x0 : HamBy} {x1 : Nat} {x2 : Bytes} {x3 : Bool} {x4 : Nat} {x5 : State} (h5 : Kept q k x5) : Kept q k (hamWordWrite x0 x1 x2 x3 x4 x5) := by
  unfold hamWordWrite
  repeat' (first | with_reducible assumption | (intro) | with_reducible apply hamCollide_kept | with_reducible apply hamPut_kept | with_reducible apply kept_ite | simp only [kept_upd] | split | dsimp only)

theorem hamWrite_kept {x0 : HamBy} {x1 : Nat} {x2 : Bytes} {x3 : Bool} {x4 : State} (h4 : Kept q k x4) : Kept q k (hamWrite x0 x1 x2 x3 x4) := by
  unfold hamWrite
  repeat' (first | with_reducible assumption | (intro) | with_reducible apply hamPut_kept | with_reducible apply hamWordWrite_kept | with_reducible apply kept_foldl | with_reducible apply kept_foldl2 | with_reducible apply kept_ite | split | dsimp only)

theorem dramPutByte_kept {x0 : Nat} {x1 : Byte} {x2 : State} (h2 : Kept q k x2) : Kept q k (dramPutByte x0 x1 x2) := by
  unfold dramPutByte
  split
  · exact kept_map h2 (tabWf_tset h2.tabs.map)
  · exact kept_dram h2 (tabWf_tset h2.tabs.dram)

theorem dramPutBytes_kept {x0 : Nat} {x1 : Bytes} {x2 : State} (h2 : Kept q k x2) : Kept q k (dramPutBytes x0 x1 x2) := by
  unfold dramPutBytes
  repeat' (first | with_reducible assumption | (intro) | with_reducible apply dramPutByte_kept | with_reducible apply kept_iter | with_reducible apply kept_getD | with_reducible apply keptP_getD | with_reducible apply kept_ite | split | dsimp only | with_reducible apply kept_dram | (with_reducible refine Tabs.dram (Kept.tabs (q := q) (k := k) ?_)) | with_reducible apply tabWf_tset | with_reducible apply tabWf_filter | with_reducible apply tabWf_tdel | with_reducible apply tabWf_tsetBytes | with_reducible apply tabWf_foldl | with_reducible exact tabWf_nil | simp only [kept_upd])

theorem dramWordMet_kept {x0 : Nat} {x1 : State} (h1 : Kept q k x1) : Kept q k (dramWordMet x0 x1) := by
  unfold dramWordMet
  repeat' (first | with_reducible assumption | (intro) | with_reducible apply regAdd_kept | with_reducible apply raise_kept | with_reducible apply regSet_kept | simp only [kept_upd] | split | dsimp only)

theorem dramMet_kept {x0 : Nat} {x1 : Nat} {x2 : State} (h2 : Kept q k x2) : Kept q k (dramMet x0 x1 x2) := by
  unfold dramMet
  repeat' (first | with_reducible assumption | (intro) | with_reducible apply dramWordMet_kept | with_reducible apply kept_foldl | with_reducible apply kept_foldl2 | split | dsimp only)

theorem dramMerge_kept {x0 : Nat} {x1 : State} (h1 : Kept q k x1) : Kept q k (dramMerge x0 x1) := by
  unfold dramMerge
  have h : Kept q k (dramPutBytes (16 * x0) (dramWordRead x0 x1).1 (dramWordMet x0 x1)) := dramPutBytes_kept (dramWordMet_kept h1)
  exact ⟨h.pending, h.pick, { h.tabs with dramPoison := tabWf_tset h.tabs.dramPoison }⟩

theorem dramWrite_kept {x0 : Nat} {x1 : Bytes} {x2 : Bool} {x3 : State} (h3 : Kept q k x3) : Kept q k (dramWrite x0 x1 x2 x3) := by
  unfold dramWrite
  extract_lets whole es s0 mark s1
  have h : Kept q k s0 := kept_foldl (fun s w h => dramMerge_kept h) h3
  have h1 : Kept q k s1 := dramPutBytes_kept h
  exact ⟨h1.pending, h1.pick, { h1.tabs with
    dramPoison := foldl_pred (P := fun t => tabWf false t = true) (fun t w h => tabWf_tset h) h1.tabs.dramPoison
    dramErr := foldl_pred (P := fun t => tabWf [] t = true) (fun t w h => tabWf_tset h) h1.tabs.dramErr }⟩

theorem memMet_kept {x0 : HamBy} {x1 : Nat} {x2 : Nat} {x3 : Nat} {x4 : State} (h4 : Kept q k x4) : Kept q k (memMet x0 x1 x2 x3 x4) := by
  unfold memMet
  repeat' (first | with_reducible assumption | (intro) | with_reducible apply hamMet_kept | with_reducible apply dramMet_kept | with_reducible apply kept_ite | split | dsimp only)

theorem memWrite_kept {x0 : HamBy} {x1 : Nat} {x2 : Nat} {x3 : Bytes} {x4 : Bool} {x5 : State} (h5 : Kept q k x5) : KeptO q k (memWrite x0 x1 x2 x3 x4 x5) := by
  unfold memWrite
  repeat' (first | with_reducible assumption | (intro) | with_reducible apply hamWrite_kept | with_reducible apply dramWrite_kept | with_reducible apply keptO_some | with_reducible exact keptO_none | with_reducible apply keptO_ite | with_reducible apply kept_ite | split | dsimp only)
theorem memWrite_keptE {x0 : HamBy} {x1 : Nat} {x2 : Nat} {x3 : Bytes} {x4 : Bool} {x5 : State}  {t : State} (e : memWrite x0 x1 x2 x3 x4 x5 = some t) (h5 : Kept q k x5) : Kept q k t := by
  have w := memWrite_kept (q := q) (k := k) (x0 := x0) (x1 := x1) (x2 := x2) (x3 := x3) (x4 := x4) (x5 := x5) h5
  rw [e] at w; exact w

theorem errResp_kept {x0 : Nat} {x1 : State} (h1 : Kept q k x1) : Kept q k (errResp x0 x1) := by
  unfold errResp
  repeat' (first | with_reducible assumption | (intro) | with_reducible apply regAdd_kept | split | dsimp only)

end Sys2Proof.Machine
end

