-- ==== Sys2Proof/Laws/KeptHostIo.lean ====
section
/-!
SUPPORT. What the operations of Machine/HostIo.lean keep (`Kept`).
-/
namespace Sys2Proof.Machine

set_option linter.all false

variable {q : List Instr} {k : W64}

theorem freeBytes_kept {x0 : Nat} {x1 : State} (h1 : Kept q k x1) : Kept q k ((freeBytes x0 x1)).2 := by
  unfold freeBytes
  repeat' (first | with_reducible assumption | (intro) | simp only [kept_upd] | split | dsimp only)
theorem freeBytes_keptE {x0 : Nat} {x1 : State} {a : Bytes} {t : State} (e : freeBytes x0 x1 = (a, t)) (h1 : Kept q k x1) : Kept q k t := by
  have w := freeBytes_kept (q := q) (k := k) (x0 := x0) (x1 := x1) h1
  rw [e] at w; exact w

theorem hostWrite_kept {x0 : Nat} {x1 : Nat} {x2 : Bytes} {x3 : Bool} {x4 : Bool} {x5 : State} (h5 : Kept q k x5) : Kept q k (hostWrite x0 x1 x2 x3 x4 x5) := by
  unfold hostWrite
  repeat' (first | with_reducible assumption | (intro) | with_reducible apply regAdd_kept | with_reducible apply dlogWrite_kept | with_reducible apply emit_kept | with_reducible apply charge_kept | with_reducible apply kept_ite | split | dsimp only)

theorem hostReadCharge_kept {x0 : Nat} {x1 : Nat} {x2 : State} (h2 : Kept q k x2) : Kept q k (hostReadCharge x0 x1 x2) := by
  unfold hostReadCharge
  repeat' (first | with_reducible assumption | (intro) | with_reducible apply regAdd_kept | with_reducible apply charge_kept | split | dsimp only)

theorem spaceMet_kept {x0 : HamBy} {x1 : Nat} {x2 : Nat} {x3 : Nat} {x4 : Nat} {x5 : State} (h5 : Kept q k x5) : Kept q k (spaceMet x0 x1 x2 x3 x4 x5) := by
  unfold spaceMet
  repeat' (first | with_reducible assumption | (intro) | with_reducible apply memMet_kept | with_reducible apply kept_ite | split | dsimp only)

theorem spaceWrite_kept {x0 : HamBy} {x1 : Nat} {x2 : Nat} {x3 : Nat} {x4 : Bytes} {x5 : Bool} {x6 : State} (h6 : Kept q k x6) : KeptO q k (spaceWrite x0 x1 x2 x3 x4 x5 x6) := by
  unfold spaceWrite
  repeat' (first | with_reducible assumption | (intro) | with_reducible apply memWrite_kept | (with_reducible refine memWrite_keptE (by assumption) ?_) | with_reducible apply keptO_bindS | with_reducible apply keptOP_bindP | with_reducible apply keptO_bind | with_reducible apply keptOP_bind | with_reducible apply keptO_some | with_reducible exact keptO_none | simp only [kept_upd] | split | dsimp only)
theorem spaceWrite_keptE {x0 : HamBy} {x1 : Nat} {x2 : Nat} {x3 : Nat} {x4 : Bytes} {x5 : Bool} {x6 : State}  {t : State} (e : spaceWrite x0 x1 x2 x3 x4 x5 x6 = some t) (h6 : Kept q k x6) : Kept q k t := by
  have w := spaceWrite_kept (q := q) (k := k) (x0 := x0) (x1 := x1) (x2 := x2) (x3 := x3) (x4 := x4) (x5 := x5) (x6 := x6) h6
  rw [e] at w; exact w

theorem copyBack_kept {x0 : Nat} {x1 : Option Back} {x2 : Bytes} {x3 : State} (h3 : Kept q k x3) : Kept q k (copyBack x0 x1 x2 x3) := by
  unfold copyBack
  repeat' (first | with_reducible assumption | (intro) | with_reducible apply taskSet_kept | with_reducible apply hamWrite_kept | with_reducible apply memWrite_kept | (with_reducible refine memWrite_keptE (by assumption) ?_) | with_reducible apply kept_getD | with_reducible apply keptP_getD | with_reducible apply kept_ite | simp only [kept_upd] | split | dsimp only)

theorem unref_kept {x0 : Nat} {x1 : Option Back} {x2 : State} (h2 : Kept q k x2) : Kept q k (unref x0 x1 x2) := by
  unfold unref
  repeat' (first | with_reducible assumption | (intro) | with_reducible apply taskMod_kept | simp only [kept_upd] | split | dsimp only)

theorem readFault_kept {x0 : Nat} {x1 : Nat} {x2 : State} (h2 : Kept q k x2) : Kept q k (readFault x0 x1 x2) := by
  unfold readFault
  repeat' (first | with_reducible assumption | (intro) | with_reducible apply regAdd_kept | with_reducible apply note_kept | with_reducible apply kept_ite | split | dsimp only)

end Sys2Proof.Machine
end

