-- ==== Sys2Proof/Laws/KeptShuttle.lean ====
section
/-!
SUPPORT. What the operations of Machine/Shuttle.lean keep (`Kept`).
-/
namespace Sys2Proof.Machine

set_option linter.all false

variable {q : List Instr} {k : W64}

theorem lineSet_kept {x0 : Nat} {x1 : Line} {x2 : State} (h2 : Kept q k x2) : Kept q k (lineSet x0 x1 x2) := by
  unfold lineSet
  repeat' (first | with_reducible assumption | (intro) | split | dsimp only | with_reducible apply kept_lines | (with_reducible refine Tabs.lines (Kept.tabs (q := q) (k := k) ?_)) | with_reducible apply tabUp_tset | with_reducible apply tabUp_filter | with_reducible apply tabUp_map | with_reducible apply tabUp_tmod | with_reducible apply tabUp_foldl | with_reducible apply tabUp_tdel | with_reducible apply tabUp_tput | with_reducible apply tabUp_filterMap | with_reducible exact tabUp_nil | with_reducible apply tabWf_tset | with_reducible apply tabWf_filter | with_reducible apply tabWf_tdel | with_reducible apply tabWf_tsetBytes | with_reducible apply tabWf_foldl | with_reducible exact tabWf_nil | simp only [kept_upd])

theorem linePost_kept {x0 : Nat} {x1 : Nat} {x2 : Bool} {x3 : Nat} {x4 : State} (h4 : Kept q k x4) : Kept q k (linePost x0 x1 x2 x3 x4) := by
  unfold linePost
  repeat' (first | with_reducible assumption | (intro) | with_reducible apply note_kept | with_reducible apply lineSet_kept | with_reducible apply kept_ite | simp only [kept_upd] | split | dsimp only)

theorem lineRelease_kept {x0 : Nat} {x1 : Nat} {x2 : State} (h2 : Kept q k x2) : Kept q k (lineRelease x0 x1 x2) := by
  unfold lineRelease
  repeat' (first | with_reducible assumption | (intro) | with_reducible apply note_kept | with_reducible apply lineSet_kept | with_reducible apply kept_ite | simp only [kept_upd] | split | dsimp only)

theorem execLinePost_kept {x0 : Nat} {x1 : Nat} {x2 : Bool} {x3 : Nat} {x4 : State} (h4 : Kept q k x4) : KeptX q k (execLinePost x0 x1 x2 x3 x4) := by
  unfold execLinePost
  repeat' (first | with_reducible assumption | (intro) | with_reducible apply linePost_kept | with_reducible apply keptX_next | with_reducible exact keptX_fault | with_reducible apply keptX_ite | with_reducible apply kept_ite | split | dsimp only)

theorem execLineRelease_kept {x0 : Nat} {x1 : Nat} {x2 : State} (h2 : Kept q k x2) : KeptX q k (execLineRelease x0 x1 x2) := by
  unfold execLineRelease
  repeat' (first | with_reducible assumption | (intro) | with_reducible apply lineRelease_kept | with_reducible apply keptX_next | with_reducible exact keptX_fault | with_reducible apply keptX_ite | with_reducible apply kept_ite | split | dsimp only)

theorem softLine_kept {x0 : Nat} {x1 : State} (h1 : Kept q k x1) : Kept q k (softLine x0 x1) := by
  unfold softLine
  repeat' (first | with_reducible assumption | (intro) | with_reducible apply lineRelease_kept | with_reducible apply linePost_kept | with_reducible apply kept_ite | split | dsimp only)

theorem shuSet_kept {x0 : Nat} {x1 : Shuttle} {x2 : State} (h2 : Kept q k x2) : Kept q k (shuSet x0 x1 x2) := by
  unfold shuSet
  repeat' (first | with_reducible assumption | (intro) | split | dsimp only | with_reducible apply kept_shus | (with_reducible refine Tabs.shus (Kept.tabs (q := q) (k := k) ?_)) | with_reducible apply tabUp_tset | with_reducible apply tabUp_filter | with_reducible apply tabUp_map | with_reducible apply tabUp_tmod | with_reducible apply tabUp_foldl | with_reducible apply tabUp_tdel | with_reducible apply tabUp_tput | with_reducible apply tabUp_filterMap | with_reducible exact tabUp_nil | with_reducible apply tabWf_tset | with_reducible apply tabWf_filter | with_reducible apply tabWf_tdel | with_reducible apply tabWf_tsetBytes | with_reducible apply tabWf_foldl | with_reducible exact tabWf_nil | simp only [kept_upd])

theorem shuMod_kept {x0 : Nat} {x1 : Shuttle → Shuttle} {x2 : State} (h2 : Kept q k x2) : Kept q k (shuMod x0 x1 x2) := by
  unfold shuMod
  repeat' (first | with_reducible assumption | (intro) | with_reducible apply shuSet_kept | split | dsimp only)

theorem illegalDma_kept {x0 : Nat} {x1 : State} (h1 : Kept q k x1) : Kept q k (illegalDma x0 x1) := by
  unfold illegalDma
  repeat' (first | with_reducible assumption | (intro) | with_reducible apply note_kept | with_reducible apply regAdd_kept | with_reducible apply fencePage_kept | with_reducible apply kept_ite | split | dsimp only)

theorem metPieces_kept {x0 : HamBy} {x1 : Nat} {x2 : Nat} {x3 : List (Nat × Nat)} {x4 : State} (h4 : Kept q k x4) : Kept q k (metPieces x0 x1 x2 x3 x4) := by
  unfold metPieces
  repeat' (first | with_reducible assumption | (intro) | with_reducible apply spaceMet_kept | with_reducible apply kept_foldl | with_reducible apply kept_foldl2 | split | dsimp only)

theorem writePieces_kept {x0 : HamBy} {x1 : Nat} {x2 : Nat} {x3 : Bool} {x4 : List (Nat × Nat)} {x5 : Bytes} {x6 : State} (h6 : Kept q k x6) : KeptO q k (writePieces x0 x1 x2 x3 x4 x5 x6) := by
  induction x4 generalizing x5 x6 with
  | nil =>
    unfold writePieces
    repeat' (first | with_reducible assumption | (intro) | with_reducible apply spaceWrite_kept | (with_reducible refine spaceWrite_keptE (by assumption) ?_) | with_reducible apply keptO_bindS | with_reducible apply keptOP_bindP | with_reducible apply keptO_bind | with_reducible apply keptOP_bind | with_reducible apply keptO_some | with_reducible exact keptO_none | split | dsimp only)
  | cons e l ih =>
    unfold writePieces
    repeat' (first | with_reducible assumption | (intro) | with_reducible apply spaceWrite_kept | (with_reducible refine spaceWrite_keptE (by assumption) ?_) | with_reducible apply keptO_bindS | with_reducible apply keptOP_bindP | with_reducible apply keptO_bind | with_reducible apply keptOP_bind | with_reducible apply ih | with_reducible apply keptO_some | with_reducible exact keptO_none | split | dsimp only)
theorem writePieces_keptE {x0 : HamBy} {x1 : Nat} {x2 : Nat} {x3 : Bool} {x4 : List (Nat × Nat)} {x5 : Bytes} {x6 : State}  {t : State} (e : writePieces x0 x1 x2 x3 x4 x5 x6 = some t) (h6 : Kept q k x6) : Kept q k t := by
  have w := writePieces_kept (q := q) (k := k) (x0 := x0) (x1 := x1) (x2 := x2) (x3 := x3) (x4 := x4) (x5 := x5) (x6 := x6) h6
  rw [e] at w; exact w

theorem ringEvents_kept {x0 : Nat} {x1 : Bytes} {x2 : Nat} {x3 : Nat} {x4 : State} (h4 : Kept q k x4) : Kept q k (ringEvents x0 x1 x2 x3 x4) := by
  unfold ringEvents
  repeat' (first | with_reducible assumption | (intro) | with_reducible apply irqCause_kept | with_reducible apply decTask_kept | with_reducible apply kept_iter | with_reducible apply kept_ite | split | dsimp only)

theorem shuJobSet_kept {x0 : Nat} {x1 : ShuJob} {x2 : Nat} {x3 : State} (h3 : Kept q k x3) : Kept q k (shuJobSet x0 x1 x2 x3) := by
  unfold shuJobSet
  repeat' (first | with_reducible assumption | (intro) | with_reducible apply shuMod_kept | simp only [kept_upd] | split | dsimp only)

theorem shuStop_kept {x0 : Nat} {x1 : ShuJob} {x2 : Nat} {x3 : State} (h3 : Kept q k x3) : Kept q k (shuStop x0 x1 x2 x3) := by
  unfold shuStop
  repeat' (first | with_reducible assumption | (intro) | with_reducible apply shuJobSet_kept | simp only [kept_upd] | split | dsimp only)

theorem partPut_kept {x0 : Bytes} {x1 : Nat} {x2 : Nat} {x3 : Nat} {x4 : Bool} {x5 : HamBy} {x6 : Nat × Bytes × Bool} {x7 : State} (h7 : Kept q k x7) : KeptO q k (partPut x0 x1 x2 x3 x4 x5 x6 x7) := by
  unfold partPut
  repeat' (first | with_reducible assumption | (intro) | with_reducible apply memWrite_kept | (with_reducible refine memWrite_keptE (by assumption) ?_) | with_reducible apply hostWrite_kept | with_reducible apply emit_kept | with_reducible apply writePieces_kept | (with_reducible refine writePieces_keptE (by assumption) ?_) | with_reducible apply keptO_foldl | with_reducible apply kept_foldl | with_reducible apply kept_foldl2 | with_reducible apply keptO_some | with_reducible exact keptO_none | with_reducible apply keptO_ite | with_reducible apply kept_ite | simp only [kept_upd] | split | dsimp only)
theorem partPut_keptE {x0 : Bytes} {x1 : Nat} {x2 : Nat} {x3 : Nat} {x4 : Bool} {x5 : HamBy} {x6 : Nat × Bytes × Bool} {x7 : State}  {t : State} (e : partPut x0 x1 x2 x3 x4 x5 x6 x7 = some t) (h7 : Kept q k x7) : Kept q k t := by
  have w := partPut_kept (q := q) (k := k) (x0 := x0) (x1 := x1) (x2 := x2) (x3 := x3) (x4 := x4) (x5 := x5) (x6 := x6) (x7 := x7) h7
  rw [e] at w; exact w

theorem shuPut_kept {x0 : Bytes} {x1 : Nat} {x2 : Nat} {x3 : Nat} {x4 : Bool} {x5 : HamBy} {x6 : List (Nat × Bytes × Bool)} {x7 : State} (h7 : Kept q k x7) : KeptO q k (shuPut x0 x1 x2 x3 x4 x5 x6 x7) := by
  induction x6 generalizing x7 with
  | nil =>
    unfold shuPut
    repeat' (first | with_reducible assumption | (intro) | with_reducible apply partPut_kept | (with_reducible refine partPut_keptE (by assumption) ?_) | with_reducible apply keptO_bindS | with_reducible apply keptOP_bindP | with_reducible apply keptO_bind | with_reducible apply keptOP_bind | with_reducible apply keptO_some | with_reducible exact keptO_none | split | dsimp only)
  | cons e l ih =>
    unfold shuPut
    repeat' (first | with_reducible assumption | (intro) | with_reducible apply partPut_kept | (with_reducible refine partPut_keptE (by assumption) ?_) | with_reducible apply keptO_bindS | with_reducible apply keptOP_bindP | with_reducible apply keptO_bind | with_reducible apply keptOP_bind | with_reducible apply ih | with_reducible apply keptO_some | with_reducible exact keptO_none | split | dsimp only)
theorem shuPut_keptE {x0 : Bytes} {x1 : Nat} {x2 : Nat} {x3 : Nat} {x4 : Bool} {x5 : HamBy} {x6 : List (Nat × Bytes × Bool)} {x7 : State}  {t : State} (e : shuPut x0 x1 x2 x3 x4 x5 x6 x7 = some t) (h7 : Kept q k x7) : Kept q k t := by
  have w := shuPut_kept (q := q) (k := k) (x0 := x0) (x1 := x1) (x2 := x2) (x3 := x3) (x4 := x4) (x5 := x5) (x6 := x6) (x7 := x7) h7
  rw [e] at w; exact w

theorem shuAsk_kept {x0 : Nat} {x1 : Nat} {x2 : Nat × List (Nat × Nat)} {x3 : State} (h3 : Kept q k x3) : Kept q k (shuAsk x0 x1 x2 x3) := by
  unfold shuAsk
  repeat' (first | with_reducible assumption | (intro) | with_reducible apply emit_kept | with_reducible apply kept_foldl | with_reducible apply kept_foldl2 | split | dsimp only)

theorem shuBurst_kept {x0 : Nat} {x1 : ShuJob} {x2 : Nat} {x3 : Bytes} {x4 : State} (h4 : Kept q k x4) : Kept q k (shuBurst x0 x1 x2 x3 x4) := by
  unfold shuBurst
  repeat' (first | with_reducible assumption | (intro) | with_reducible apply shuJobSet_kept | with_reducible apply shuAsk_kept | with_reducible apply shuStop_kept | with_reducible apply readFault_kept | with_reducible apply note_kept | with_reducible apply errResp_kept | with_reducible apply hostReadCharge_kept | with_reducible apply metPieces_kept | with_reducible apply shuPut_kept | (with_reducible refine shuPut_keptE (by assumption) ?_) | with_reducible apply lineRelease_kept | with_reducible apply linePost_kept | with_reducible apply charge_kept | with_reducible apply ringEvents_kept | with_reducible apply regAdd_kept | with_reducible apply warpMove_kept | with_reducible apply kept_ite | simp only [kept_upd] | split | dsimp only)

theorem shuEnd_kept {x0 : Nat} {x1 : ShuJob} {x2 : Nat} {x3 : State} (h3 : Kept q k x3) : Kept q k (shuEnd x0 x1 x2 x3) := by
  unfold shuEnd
  extract_lets d tagStatus s1 s2 s3 s4 named s5 s6
  have k_s1 : Kept q k s1 := by
    dsimp only [s1]
    repeat' (first | with_reducible assumption | (intro) | with_reducible apply memWrite_kept | (with_reducible refine memWrite_keptE (by assumption) ?_) | with_reducible apply copyBack_kept | with_reducible apply shuMod_kept | with_reducible apply regAdd_kept | with_reducible apply regSet_kept | with_reducible apply unref_kept | with_reducible apply tryDec_kept | (with_reducible refine tryDec_keptE (by assumption) ?_) | with_reducible apply irqCause_kept | with_reducible apply kept_getD | with_reducible apply keptP_getD | with_reducible apply kept_ite | simp only [kept_upd] | split | dsimp only)
  clear_value s1
  have k_s2 : Kept q k s2 := by
    dsimp only [s2]
    repeat' (first | with_reducible assumption | (intro) | with_reducible apply memWrite_kept | (with_reducible refine memWrite_keptE (by assumption) ?_) | with_reducible apply copyBack_kept | with_reducible apply shuMod_kept | with_reducible apply regAdd_kept | with_reducible apply regSet_kept | with_reducible apply unref_kept | with_reducible apply tryDec_kept | (with_reducible refine tryDec_keptE (by assumption) ?_) | with_reducible apply irqCause_kept | with_reducible apply kept_getD | with_reducible apply keptP_getD | with_reducible apply kept_ite | simp only [kept_upd] | split | dsimp only)
  clear_value s2
  have k_s3 : Kept q k s3 := by
    dsimp only [s3]
    repeat' (first | with_reducible assumption | (intro) | with_reducible apply memWrite_kept | (with_reducible refine memWrite_keptE (by assumption) ?_) | with_reducible apply copyBack_kept | with_reducible apply shuMod_kept | with_reducible apply regAdd_kept | with_reducible apply regSet_kept | with_reducible apply unref_kept | with_reducible apply tryDec_kept | (with_reducible refine tryDec_keptE (by assumption) ?_) | with_reducible apply irqCause_kept | with_reducible apply kept_getD | with_reducible apply keptP_getD | with_reducible apply kept_ite | simp only [kept_upd] | split | dsimp only)
  clear_value s3
  have k_s4 : Kept q k s4 := by
    dsimp only [s4]
    repeat' (first | with_reducible assumption | (intro) | with_reducible apply memWrite_kept | (with_reducible refine memWrite_keptE (by assumption) ?_) | with_reducible apply copyBack_kept | with_reducible apply shuMod_kept | with_reducible apply regAdd_kept | with_reducible apply regSet_kept | with_reducible apply unref_kept | with_reducible apply tryDec_kept | (with_reducible refine tryDec_keptE (by assumption) ?_) | with_reducible apply irqCause_kept | with_reducible apply kept_getD | with_reducible apply keptP_getD | with_reducible apply kept_ite | simp only [kept_upd] | split | dsimp only)
  clear_value s4
  have k_s5 : Kept q k s5 := by
    dsimp only [s5]
    repeat' (first | with_reducible assumption | (intro) | with_reducible apply memWrite_kept | (with_reducible refine memWrite_keptE (by assumption) ?_) | with_reducible apply copyBack_kept | with_reducible apply shuMod_kept | with_reducible apply regAdd_kept | with_reducible apply regSet_kept | with_reducible apply unref_kept | with_reducible apply tryDec_kept | (with_reducible refine tryDec_keptE (by assumption) ?_) | with_reducible apply irqCause_kept | with_reducible apply kept_getD | with_reducible apply keptP_getD | with_reducible apply kept_ite | simp only [kept_upd] | split | dsimp only)
  clear_value s5
  have k_s6 : Kept q k s6 := by
    dsimp only [s6]
    repeat' (first | with_reducible assumption | (intro) | with_reducible apply memWrite_kept | (with_reducible refine memWrite_keptE (by assumption) ?_) | with_reducible apply copyBack_kept | with_reducible apply shuMod_kept | with_reducible apply regAdd_kept | with_reducible apply regSet_kept | with_reducible apply unref_kept | with_reducible apply tryDec_kept | (with_reducible refine tryDec_keptE (by assumption) ?_) | with_reducible apply irqCause_kept | with_reducible apply kept_getD | with_reducible apply keptP_getD | with_reducible apply kept_ite | simp only [kept_upd] | split | dsimp only)
  clear_value s6
  repeat' (first | with_reducible assumption | (intro) | with_reducible apply memWrite_kept | (with_reducible refine memWrite_keptE (by assumption) ?_) | with_reducible apply copyBack_kept | with_reducible apply shuMod_kept | with_reducible apply regAdd_kept | with_reducible apply regSet_kept | with_reducible apply unref_kept | with_reducible apply tryDec_kept | (with_reducible refine tryDec_keptE (by assumption) ?_) | with_reducible apply irqCause_kept | with_reducible apply kept_getD | with_reducible apply keptP_getD | with_reducible apply kept_ite | simp only [kept_upd] | split | dsimp only)

theorem shuSkip_kept {x0 : Nat} {x1 : Nat} {x2 : State} (h2 : Kept q k x2) : Kept q k (shuSkip x0 x1 x2) := by
  induction x1 generalizing x2 with
  | zero =>
    unfold shuSkip
    repeat' (first | with_reducible assumption | (intro) | with_reducible apply shuMod_kept | with_reducible apply regSet_kept | with_reducible apply kept_ite | simp only [kept_upd] | split | dsimp only)
  | succ n ih =>
    unfold shuSkip
    repeat' (first | with_reducible assumption | (intro) | with_reducible apply shuMod_kept | with_reducible apply regSet_kept | with_reducible apply ih | with_reducible apply kept_ite | simp only [kept_upd] | split | dsimp only)

theorem shuAccept_kept {x0 : Nat} {x1 : State} (h1 : Kept q k x1) : Kept q k (shuAccept x0 x1) := by
  unfold shuAccept
  repeat' (first | with_reducible assumption | (intro) | with_reducible apply shuMod_kept | with_reducible apply regSet_kept | with_reducible apply hamMet_kept | with_reducible apply shuJobSet_kept | with_reducible apply shuStop_kept | with_reducible apply illegalDma_kept | with_reducible apply kept_ite | simp only [kept_upd] | split | dsimp only)

theorem execShuttleDescriptor_kept {x0 : Nat} {x1 : Nat} {x2 : Bytes} {x3 : State} (h3 : Kept q k x3) : KeptX q k (execShuttleDescriptor x0 x1 x2 x3) := by
  unfold execShuttleDescriptor
  repeat' (first | with_reducible assumption | (intro) | with_reducible apply shuSkip_kept | with_reducible apply shuAccept_kept | with_reducible apply shuBurst_kept | with_reducible apply keptX_next | with_reducible exact keptX_fault | with_reducible apply keptX_ite | with_reducible apply kept_ite | simp only [kept_upd] | split | dsimp only)

theorem shuHeld_kept {x0 : State} (h0 : Kept q k x0) : Kept q k (shuHeld x0) := by
  unfold shuHeld
  repeat' (first | with_reducible assumption | (intro) | with_reducible apply tryDec_kept | (with_reducible refine tryDec_keptE (by assumption) ?_) | with_reducible apply shuMod_kept | with_reducible apply kept_foldl | with_reducible apply kept_foldl2 | simp only [kept_upd] | split | dsimp only)

theorem execShuttleDescriptorEnd_kept {x0 : Nat} {x1 : State} (h1 : Kept q k x1) : KeptX q k (execShuttleDescriptorEnd x0 x1) := by
  unfold execShuttleDescriptorEnd
  repeat' (first | with_reducible assumption | (intro) | with_reducible apply shuEnd_kept | with_reducible apply keptX_next | with_reducible exact keptX_fault | with_reducible apply keptX_ite | with_reducible apply kept_ite | simp only [kept_upd] | split | dsimp only)

theorem shuDrain_kept {x0 : Nat} {x1 : Nat} {x2 : Option Back → Nat → Bool} {x3 : Nat} {x4 : Nat} {x5 : State} (h5 : Kept q k x5) : Kept q k (shuDrain x0 x1 x2 x3 x4 x5) := by
  induction x3 generalizing x4 x5 with
  | zero =>
    unfold shuDrain
    repeat' (first | with_reducible assumption | (intro) | with_reducible apply shuMod_kept | with_reducible apply shuSet_kept | with_reducible apply shuEnd_kept | with_reducible apply kept_ite | simp only [kept_upd] | split | dsimp only)
  | succ n ih =>
    unfold shuDrain
    repeat' (first | with_reducible assumption | (intro) | with_reducible apply shuMod_kept | with_reducible apply shuSet_kept | with_reducible apply shuEnd_kept | with_reducible apply ih | with_reducible apply kept_ite | simp only [kept_upd] | split | dsimp only)

theorem shuCut_kept {x0 : Nat} {x1 : Nat} {x2 : Option Back → Nat → Bool} {x3 : State} (h3 : Kept q k x3) : Kept q k (shuCut x0 x1 x2 x3) := by
  unfold shuCut
  repeat' (first | with_reducible assumption | (intro) | with_reducible apply shuEnd_kept | with_reducible apply kept_getD | with_reducible apply keptP_getD | with_reducible apply kept_ite | simp only [kept_upd] | split | dsimp only)

theorem shuSquash_kept {x0 : Nat} {x1 : Nat} {x2 : Option Back → Nat → Bool} {x3 : State} (h3 : Kept q k x3) : Kept q k (shuSquash x0 x1 x2 x3) := by
  unfold shuSquash
  repeat' (first | with_reducible assumption | (intro) | with_reducible apply shuCut_kept | with_reducible apply shuSkip_kept | with_reducible apply shuDrain_kept | split | dsimp only)

theorem shuTail_kept {x0 : Nat} {x1 : Nat} {x2 : State} (h2 : Kept q k x2) : Kept q k (shuTail x0 x1 x2) := by
  unfold shuTail
  repeat' (first | with_reducible assumption | (intro) | with_reducible apply regSetFld_kept | split | dsimp only)

theorem shuCtl_kept {x0 : Nat} {x1 : Nat} {x2 : State} (h2 : Kept q k x2) : Kept q k (shuCtl x0 x1 x2) := by
  unfold shuCtl
  repeat' (first | with_reducible assumption | (intro) | with_reducible apply regSetFld_kept | with_reducible apply shuSquash_kept | with_reducible apply kept_ite | split | dsimp only)

theorem execShuTailAdvance_kept {x0 : Nat} {x1 : W32} {x2 : State} (h2 : Kept q k x2) : KeptX q k (execShuTailAdvance x0 x1 x2) := by
  unfold execShuTailAdvance
  repeat' (first | with_reducible assumption | (intro) | with_reducible apply shuTail_kept | with_reducible apply keptX_next | with_reducible exact keptX_fault | with_reducible apply keptX_ite | with_reducible apply kept_ite | split | dsimp only)

theorem execShuStop_kept {x0 : Nat} {x1 : W32} {x2 : State} (h2 : Kept q k x2) : KeptX q k (execShuStop x0 x1 x2) := by
  unfold execShuStop
  repeat' (first | with_reducible assumption | (intro) | with_reducible apply shuCtl_kept | with_reducible apply keptX_next | with_reducible exact keptX_fault | with_reducible apply keptX_ite | with_reducible apply kept_ite | split | dsimp only)

theorem execShuFlush_kept {x0 : Nat} {x1 : W32} {x2 : State} (h2 : Kept q k x2) : KeptX q k (execShuFlush x0 x1 x2) := by
  unfold execShuFlush
  repeat' (first | with_reducible assumption | (intro) | with_reducible apply shuCtl_kept | with_reducible apply keptX_next | with_reducible exact keptX_fault | with_reducible apply keptX_ite | with_reducible apply kept_ite | split | dsimp only)

end Sys2Proof.Machine
end

