-- ==== Sys2Proof/Laws/KeptEngine.lean ====
section
/-!
SUPPORT. What the operations of Machine/Engine.lean keep (`Kept`).
-/
namespace Sys2Proof.Machine

set_option linter.all false

variable {q : List Instr} {k : W64}

theorem engSet_kept {x0 : Nat} {x1 : Engine} {x2 : State} (h2 : Kept q k x2) : Kept q k (engSet x0 x1 x2) := by
  unfold engSet
  repeat' (first | with_reducible assumption | (intro) | split | dsimp only | with_reducible apply kept_engs | (with_reducible refine Tabs.engs (Kept.tabs (q := q) (k := k) ?_)) | with_reducible apply tabUp_tset | with_reducible apply tabUp_filter | with_reducible apply tabUp_map | with_reducible apply tabUp_tmod | with_reducible apply tabUp_foldl | with_reducible apply tabUp_tdel | with_reducible apply tabUp_tput | with_reducible apply tabUp_filterMap | with_reducible exact tabUp_nil | with_reducible apply tabWf_tset | with_reducible apply tabWf_filter | with_reducible apply tabWf_tdel | with_reducible apply tabWf_tsetBytes | with_reducible apply tabWf_foldl | with_reducible exact tabWf_nil | simp only [kept_upd])

theorem engMod_kept {x0 : Nat} {x1 : Engine → Engine} {x2 : State} (h2 : Kept q k x2) : Kept q k (engMod x0 x1 x2) := by
  unfold engMod
  repeat' (first | with_reducible assumption | (intro) | with_reducible apply engSet_kept | split | dsimp only)

theorem engJobSet_kept {x0 : Nat} {x1 : EngJob} {x2 : State} (h2 : Kept q k x2) : Kept q k (engJobSet x0 x1 x2) := by
  unfold engJobSet
  repeat' (first | with_reducible assumption | (intro) | with_reducible apply engMod_kept | with_reducible apply kept_ite | simp only [kept_upd] | split | dsimp only)

theorem engSave_kept {x0 : Nat} {x1 : EngJob} {x2 : State} (h2 : Kept q k x2) : Kept q k (engSave x0 x1 x2) := by
  unfold engSave
  repeat' (first | with_reducible assumption | (intro) | with_reducible apply freeBytes_kept | (with_reducible refine freeBytes_keptE (by assumption) ?_) | with_reducible apply memWrite_kept | (with_reducible refine memWrite_keptE (by assumption) ?_) | with_reducible apply kept_getD | with_reducible apply keptP_getD | with_reducible apply kept_ite | split | dsimp only)

theorem engTurn_kept {x0 : Nat} {x1 : Option Nat} {x2 : State} (h2 : Kept q k x2) : Kept q k (engTurn x0 x1 x2) := by
  unfold engTurn
  repeat' (first | with_reducible assumption | (intro) | with_reducible apply engSet_kept | with_reducible apply engSave_kept | with_reducible apply regAdd_kept | with_reducible apply kept_ite | simp only [kept_upd] | split | dsimp only)

theorem engPick_kept {x0 : Nat} {x1 : State} (h1 : Kept q k x1) : Kept q k (engPick x0 x1) := by
  unfold engPick
  repeat' (first | with_reducible assumption | (intro) | with_reducible apply engMod_kept | with_reducible apply engTurn_kept | with_reducible apply kept_ite | simp only [kept_upd] | split | dsimp only)

theorem engCharge_kept {x0 : Nat} {x1 : EngJob} {x2 : State} (h2 : Kept q k x2) : Kept q k (engCharge x0 x1 x2) := by
  unfold engCharge
  repeat' (first | with_reducible assumption | (intro) | with_reducible apply charge_kept | with_reducible apply regAdd_kept | with_reducible apply kept_ite | split | dsimp only)

theorem engStop_kept {x0 : Nat} {x1 : EngJob} {x2 : Nat} {x3 : Bytes} {x4 : State} (h4 : Kept q k x4) : Kept q k (engStop x0 x1 x2 x3 x4) := by
  unfold engStop
  repeat' (first | with_reducible assumption | (intro) | with_reducible apply engJobSet_kept | simp only [kept_upd] | split | dsimp only)

theorem endEvent_kept {x0 : Nat} {x1 : Nat} {x2 : Nat} {x3 : State} (h3 : Kept q k x3) : Kept q k (endEvent x0 x1 x2 x3) := by
  unfold endEvent
  repeat' (first | with_reducible assumption | (intro) | with_reducible apply note_kept | with_reducible apply kept_ite | split | dsimp only)

theorem digRelease_kept {x0 : Nat} {x1 : State} (h1 : Kept q k x1) : Kept q k (digRelease x0 x1) := by
  unfold digRelease
  repeat' (first | with_reducible assumption | (intro) | split | dsimp only | with_reducible apply kept_digs | (with_reducible refine Tabs.digs (Kept.tabs (q := q) (k := k) ?_)) | with_reducible apply tabUp_tset | with_reducible apply tabUp_filter | with_reducible apply tabUp_map | with_reducible apply tabUp_tmod | with_reducible apply tabUp_foldl | with_reducible apply tabUp_tdel | with_reducible apply tabUp_tput | with_reducible apply tabUp_filterMap | with_reducible exact tabUp_nil | with_reducible apply tabWf_tset | with_reducible apply tabWf_filter | with_reducible apply tabWf_tdel | with_reducible apply tabWf_tsetBytes | with_reducible apply tabWf_foldl | with_reducible exact tabWf_nil | simp only [kept_upd])

theorem engWrite_kept {x0 : Nat} {x1 : Nat} {x2 : Nat} {x3 : Bytes} {x4 : State} (h4 : Kept q k x4) : KeptOP q k (engWrite x0 x1 x2 x3 x4) := by
  unfold engWrite
  repeat' (first | with_reducible assumption | (intro) | with_reducible apply memWrite_kept | (with_reducible refine memWrite_keptE (by assumption) ?_) | with_reducible apply keptOP_some | with_reducible exact keptOP_none | simp only [kept_upd] | split | dsimp only)
theorem engWrite_keptE {x0 : Nat} {x1 : Nat} {x2 : Nat} {x3 : Bytes} {x4 : State} {a : Bool} {t : State} (e : engWrite x0 x1 x2 x3 x4 = some (a, t)) (h4 : Kept q k x4) : Kept q k t := by
  have w := engWrite_kept (q := q) (k := k) (x0 := x0) (x1 := x1) (x2 := x2) (x3 := x3) (x4 := x4) h4
  rw [e] at w; exact w

theorem engEnd_kept {x0 : Nat} {x1 : EngJob} {x2 : Nat} {x3 : Bytes} {x4 : State} (h4 : Kept q k x4) : Kept q k (engEnd x0 x1 x2 x3 x4) := by
  unfold engEnd
  extract_lets page d tail tail s1 s2 s3 detail err s4 s5 s6 s7 causes
  have k_s1 : Kept q k s1 := by
    dsimp only [s1]
    repeat' (first | with_reducible assumption | (intro) | with_reducible apply memWrite_kept | (with_reducible refine memWrite_keptE (by assumption) ?_) | with_reducible apply copyBack_kept | with_reducible apply regAdd_kept | with_reducible apply engMod_kept | with_reducible apply regSet_kept | with_reducible apply digRelease_kept | with_reducible apply endEvent_kept | with_reducible apply decTask_kept | with_reducible apply unref_kept | with_reducible apply irqCause_kept | with_reducible apply kept_getD | with_reducible apply keptP_getD | with_reducible apply kept_ite | simp only [kept_upd] | split | dsimp only)
  clear_value s1
  have k_s2 : Kept q k s2 := by
    dsimp only [s2]
    repeat' (first | with_reducible assumption | (intro) | with_reducible apply memWrite_kept | (with_reducible refine memWrite_keptE (by assumption) ?_) | with_reducible apply copyBack_kept | with_reducible apply regAdd_kept | with_reducible apply engMod_kept | with_reducible apply regSet_kept | with_reducible apply digRelease_kept | with_reducible apply endEvent_kept | with_reducible apply decTask_kept | with_reducible apply unref_kept | with_reducible apply irqCause_kept | with_reducible apply kept_getD | with_reducible apply keptP_getD | with_reducible apply kept_ite | simp only [kept_upd] | split | dsimp only)
  clear_value s2
  have k_s3 : Kept q k s3 := by
    dsimp only [s3]
    repeat' (first | with_reducible assumption | (intro) | with_reducible apply memWrite_kept | (with_reducible refine memWrite_keptE (by assumption) ?_) | with_reducible apply copyBack_kept | with_reducible apply regAdd_kept | with_reducible apply engMod_kept | with_reducible apply regSet_kept | with_reducible apply digRelease_kept | with_reducible apply endEvent_kept | with_reducible apply decTask_kept | with_reducible apply unref_kept | with_reducible apply irqCause_kept | with_reducible apply kept_getD | with_reducible apply keptP_getD | with_reducible apply kept_ite | simp only [kept_upd] | split | dsimp only)
  clear_value s3
  have k_s4 : Kept q k s4 := by
    dsimp only [s4]
    repeat' (first | with_reducible assumption | (intro) | with_reducible apply memWrite_kept | (with_reducible refine memWrite_keptE (by assumption) ?_) | with_reducible apply copyBack_kept | with_reducible apply regAdd_kept | with_reducible apply engMod_kept | with_reducible apply regSet_kept | with_reducible apply digRelease_kept | with_reducible apply endEvent_kept | with_reducible apply decTask_kept | with_reducible apply unref_kept | with_reducible apply irqCause_kept | with_reducible apply kept_getD | with_reducible apply keptP_getD | with_reducible apply kept_ite | simp only [kept_upd] | split | dsimp only)
  clear_value s4
  have k_s5 : Kept q k s5 := by
    dsimp only [s5]
    repeat' (first | with_reducible assumption | (intro) | with_reducible apply memWrite_kept | (with_reducible refine memWrite_keptE (by assumption) ?_) | with_reducible apply copyBack_kept | with_reducible apply regAdd_kept | with_reducible apply engMod_kept | with_reducible apply regSet_kept | with_reducible apply digRelease_kept | with_reducible apply endEvent_kept | with_reducible apply decTask_kept | with_reducible apply unref_kept | with_reducible apply irqCause_kept | with_reducible apply kept_getD | with_reducible apply keptP_getD | with_reducible apply kept_ite | simp only [kept_upd] | split | dsimp only)
  clear_value s5
  have k_s6 : Kept q k s6 := by
    dsimp only [s6]
    repeat' (first | with_reducible assumption | (intro) | with_reducible apply memWrite_kept | (with_reducible refine memWrite_keptE (by assumption) ?_) | with_reducible apply copyBack_kept | with_reducible apply regAdd_kept | with_reducible apply engMod_kept | with_reducible apply regSet_kept | with_reducible apply digRelease_kept | with_reducible apply endEvent_kept | with_reducible apply decTask_kept | with_reducible apply unref_kept | with_reducible apply irqCause_kept | with_reducible apply kept_getD | with_reducible apply keptP_getD | with_reducible apply kept_ite | simp only [kept_upd] | split | dsimp only)
  clear_value s6
  have k_s7 : Kept q k s7 := by
    dsimp only [s7]
    repeat' (first | with_reducible assumption | (intro) | with_reducible apply memWrite_kept | (with_reducible refine memWrite_keptE (by assumption) ?_) | with_reducible apply copyBack_kept | with_reducible apply regAdd_kept | with_reducible apply engMod_kept | with_reducible apply regSet_kept | with_reducible apply digRelease_kept | with_reducible apply endEvent_kept | with_reducible apply decTask_kept | with_reducible apply unref_kept | with_reducible apply irqCause_kept | with_reducible apply kept_getD | with_reducible apply keptP_getD | with_reducible apply kept_ite | simp only [kept_upd] | split | dsimp only)
  clear_value s7
  repeat' (first | with_reducible assumption | (intro) | with_reducible apply memWrite_kept | (with_reducible refine memWrite_keptE (by assumption) ?_) | with_reducible apply copyBack_kept | with_reducible apply regAdd_kept | with_reducible apply engMod_kept | with_reducible apply regSet_kept | with_reducible apply digRelease_kept | with_reducible apply endEvent_kept | with_reducible apply decTask_kept | with_reducible apply unref_kept | with_reducible apply irqCause_kept | with_reducible apply kept_getD | with_reducible apply keptP_getD | with_reducible apply kept_ite | simp only [kept_upd] | split | dsimp only)

theorem bytesIn_kept {x0 : Nat} {x1 : Nat} {x2 : State} (h2 : Kept q k x2) : Kept q k (bytesIn x0 x1 x2) := by
  unfold bytesIn
  repeat' (first | with_reducible assumption | (intro) | with_reducible apply regAdd_kept | with_reducible apply kept_ite | split | dsimp only)

theorem bytesOut_kept {x0 : Nat} {x1 : Nat} {x2 : State} (h2 : Kept q k x2) : Kept q k (bytesOut x0 x1 x2) := by
  unfold bytesOut
  repeat' (first | with_reducible assumption | (intro) | with_reducible apply regAdd_kept | with_reducible apply kept_ite | split | dsimp only)

theorem engFetch_kept {x0 : Nat} {x1 : Nat} {x2 : Nat} {x3 : Nat} {x4 : State} (h4 : Kept q k x4) : KeptF q k (fun p => p.2) (engFetch x0 x1 x2 x3 x4) := by
  unfold engFetch
  repeat' (first | with_reducible assumption | (intro) | with_reducible apply errResp_kept | with_reducible apply bytesIn_kept | with_reducible apply warpMove_kept | with_reducible apply memMet_kept | with_reducible apply keptF_ok | with_reducible apply keptF_error | with_reducible apply keptF_ite | with_reducible apply kept_ite | simp only [kept_upd] | split | dsimp only)
theorem engFetch_keptE {x0 : Nat} {x1 : Nat} {x2 : Nat} {x3 : Nat} {x4 : State} {a : _} {t : State} (e : engFetch x0 x1 x2 x3 x4 = .ok (a, t)) (h4 : Kept q k x4) : Kept q k t := by
  have w := engFetch_kept (q := q) (k := k) (x0 := x0) (x1 := x1) (x2 := x2) (x3 := x3) (x4 := x4) h4
  rw [e] at w; exact w
theorem engFetch_keptE2 {x0 : Nat} {x1 : Nat} {x2 : Nat} {x3 : Nat} {x4 : State} {a : _} {t : State} (e : engFetch x0 x1 x2 x3 x4 = .error (a, t)) (h4 : Kept q k x4) : Kept q k t := by
  have w := engFetch_kept (q := q) (k := k) (x0 := x0) (x1 := x1) (x2 := x2) (x3 := x3) (x4 := x4) h4
  rw [e] at w; exact w
theorem engFetch_keptE3 {x0 : Nat} {x1 : Nat} {x2 : Nat} {x3 : Nat} {x4 : State} {x : _} (e : engFetch x0 x1 x2 x3 x4 = .error x) (h4 : Kept q k x4) : Kept q k x.2 := by
  have w := engFetch_kept (q := q) (k := k) (x0 := x0) (x1 := x1) (x2 := x2) (x3 := x3) (x4 := x4) h4
  rw [e] at w; exact w

theorem engInput_kept {x0 : Nat} {x1 : Nat} {x2 : EngJob} {x3 : State} (h3 : Kept q k x3) : KeptF q k (fun p => p.2) (engInput x0 x1 x2 x3) := by
  unfold engInput
  repeat' (first | with_reducible assumption | (intro) | with_reducible apply engFetch_kept | (with_reducible refine engFetch_keptE (by assumption) ?_) | (with_reducible refine engFetch_keptE2 (by assumption) ?_) | (with_reducible refine engFetch_keptE3 (by assumption) ?_) | with_reducible apply lineRelease_kept | with_reducible apply keptF_ok | with_reducible apply keptF_error | with_reducible apply keptF_ite | with_reducible apply kept_ite | simp only [kept_upd] | split | dsimp only)
theorem engInput_keptE {x0 : Nat} {x1 : Nat} {x2 : EngJob} {x3 : State} {a : _} {t : State} (e : engInput x0 x1 x2 x3 = .ok (a, t)) (h3 : Kept q k x3) : Kept q k t := by
  have w := engInput_kept (q := q) (k := k) (x0 := x0) (x1 := x1) (x2 := x2) (x3 := x3) h3
  rw [e] at w; exact w
theorem engInput_keptE2 {x0 : Nat} {x1 : Nat} {x2 : EngJob} {x3 : State} {a : _} {t : State} (e : engInput x0 x1 x2 x3 = .error (a, t)) (h3 : Kept q k x3) : Kept q k t := by
  have w := engInput_kept (q := q) (k := k) (x0 := x0) (x1 := x1) (x2 := x2) (x3 := x3) h3
  rw [e] at w; exact w
theorem engInput_keptE3 {x0 : Nat} {x1 : Nat} {x2 : EngJob} {x3 : State} {x : _} (e : engInput x0 x1 x2 x3 = .error x) (h3 : Kept q k x3) : Kept q k x.2 := by
  have w := engInput_kept (q := q) (k := k) (x0 := x0) (x1 := x1) (x2 := x2) (x3 := x3) h3
  rw [e] at w; exact w

theorem givePiece_kept {x0 : Nat} {x1 : Nat} {x2 : Bool} {x3 : Bytes} {x4 : State} (h4 : Kept q k x4) : KeptF q k (fun p => p) (givePiece x0 x1 x2 x3 x4) := by
  unfold givePiece
  repeat' (first | with_reducible assumption | (intro) | with_reducible apply engWrite_kept | (with_reducible refine engWrite_keptE (by assumption) ?_) | with_reducible apply errResp_kept | with_reducible apply linePost_kept | with_reducible apply bytesOut_kept | with_reducible apply warpMove_kept | with_reducible apply keptF_ok | with_reducible apply keptF_error | simp only [kept_upd] | split | dsimp only)
theorem givePiece_keptE {x0 : Nat} {x1 : Nat} {x2 : Bool} {x3 : Bytes} {x4 : State}  {t : State} (e : givePiece x0 x1 x2 x3 x4 = .ok t) (h4 : Kept q k x4) : Kept q k t := by
  have w := givePiece_kept (q := q) (k := k) (x0 := x0) (x1 := x1) (x2 := x2) (x3 := x3) (x4 := x4) h4
  rw [e] at w; exact w
theorem givePiece_keptE2 {x0 : Nat} {x1 : Nat} {x2 : Bool} {x3 : Bytes} {x4 : State} {a : _} {t : State} (e : givePiece x0 x1 x2 x3 x4 = .error (a, t)) (h4 : Kept q k x4) : Kept q k t := by
  have w := givePiece_kept (q := q) (k := k) (x0 := x0) (x1 := x1) (x2 := x2) (x3 := x3) (x4 := x4) h4
  rw [e] at w; exact w
theorem givePiece_keptE3 {x0 : Nat} {x1 : Nat} {x2 : Bool} {x3 : Bytes} {x4 : State} {x : _} (e : givePiece x0 x1 x2 x3 x4 = .error x) (h4 : Kept q k x4) : Kept q k x.2 := by
  have w := givePiece_kept (q := q) (k := k) (x0 := x0) (x1 := x1) (x2 := x2) (x3 := x3) (x4 := x4) h4
  rw [e] at w; exact w

theorem giveLine_kept {x0 : Nat} {x1 : Nat} {x2 : Bool} {x3 : Nat} {x4 : EngJob} {x5 : Bytes} {x6 : State} (h6 : Kept q k x6) : KeptF q k (fun p => p.2.2) (giveLine x0 x1 x2 x3 x4 x5 x6) := by
  induction x3 generalizing x4 x5 x6 with
  | zero =>
    unfold giveLine
    repeat' (first | with_reducible assumption | (intro) | with_reducible apply givePiece_kept | (with_reducible refine givePiece_keptE (by assumption) ?_) | (with_reducible refine givePiece_keptE2 (by assumption) ?_) | (with_reducible refine givePiece_keptE3 (by assumption) ?_) | with_reducible apply keptF_ok | with_reducible apply keptF_error | with_reducible apply keptF_ite | with_reducible apply kept_ite | simp only [kept_upd] | split | dsimp only)
  | succ n ih =>
    unfold giveLine
    repeat' (first | with_reducible assumption | (intro) | with_reducible apply givePiece_kept | (with_reducible refine givePiece_keptE (by assumption) ?_) | (with_reducible refine givePiece_keptE2 (by assumption) ?_) | (with_reducible refine givePiece_keptE3 (by assumption) ?_) | with_reducible apply ih | with_reducible apply keptF_ok | with_reducible apply keptF_error | with_reducible apply keptF_ite | with_reducible apply kept_ite | simp only [kept_upd] | split | dsimp only)
theorem giveLine_keptE {x0 : Nat} {x1 : Nat} {x2 : Bool} {x3 : Nat} {x4 : EngJob} {x5 : Bytes} {x6 : State} {a : _} {b : _} {t : State} (e : giveLine x0 x1 x2 x3 x4 x5 x6 = .ok (a, b, t)) (h6 : Kept q k x6) : Kept q k t := by
  have w := giveLine_kept (q := q) (k := k) (x0 := x0) (x1 := x1) (x2 := x2) (x3 := x3) (x4 := x4) (x5 := x5) (x6 := x6) h6
  rw [e] at w; exact w
theorem giveLine_keptE2 {x0 : Nat} {x1 : Nat} {x2 : Bool} {x3 : Nat} {x4 : EngJob} {x5 : Bytes} {x6 : State} {a : _} {t : State} (e : giveLine x0 x1 x2 x3 x4 x5 x6 = .error (a, t)) (h6 : Kept q k x6) : Kept q k t := by
  have w := giveLine_kept (q := q) (k := k) (x0 := x0) (x1 := x1) (x2 := x2) (x3 := x3) (x4 := x4) (x5 := x5) (x6 := x6) h6
  rw [e] at w; exact w
theorem giveLine_keptE3 {x0 : Nat} {x1 : Nat} {x2 : Bool} {x3 : Nat} {x4 : EngJob} {x5 : Bytes} {x6 : State} {x : _} (e : giveLine x0 x1 x2 x3 x4 x5 x6 = .error x) (h6 : Kept q k x6) : Kept q k x.2 := by
  have w := giveLine_kept (q := q) (k := k) (x0 := x0) (x1 := x1) (x2 := x2) (x3 := x3) (x4 := x4) (x5 := x5) (x6 := x6) h6
  rw [e] at w; exact w

theorem giveMade_kept {x0 : Nat} {x1 : EngJob} {x2 : State} (h2 : Kept q k x2) : KeptF q k (fun p => p.2) (giveMade x0 x1 x2) := by
  unfold giveMade
  repeat' (first | with_reducible assumption | (intro) | with_reducible apply giveLine_kept | (with_reducible refine giveLine_keptE (by assumption) ?_) | (with_reducible refine giveLine_keptE2 (by assumption) ?_) | (with_reducible refine giveLine_keptE3 (by assumption) ?_) | with_reducible apply keptF_ok | with_reducible apply keptF_error | simp only [kept_upd] | split | dsimp only)
theorem giveMade_keptE {x0 : Nat} {x1 : EngJob} {x2 : State} {a : _} {t : State} (e : giveMade x0 x1 x2 = .ok (a, t)) (h2 : Kept q k x2) : Kept q k t := by
  have w := giveMade_kept (q := q) (k := k) (x0 := x0) (x1 := x1) (x2 := x2) h2
  rw [e] at w; exact w
theorem giveMade_keptE2 {x0 : Nat} {x1 : EngJob} {x2 : State} {a : _} {t : State} (e : giveMade x0 x1 x2 = .error (a, t)) (h2 : Kept q k x2) : Kept q k t := by
  have w := giveMade_kept (q := q) (k := k) (x0 := x0) (x1 := x1) (x2 := x2) h2
  rw [e] at w; exact w
theorem giveMade_keptE3 {x0 : Nat} {x1 : EngJob} {x2 : State} {x : _} (e : giveMade x0 x1 x2 = .error x) (h2 : Kept q k x2) : Kept q k x.2 := by
  have w := giveMade_kept (q := q) (k := k) (x0 := x0) (x1 := x1) (x2 := x2) h2
  rw [e] at w; exact w

theorem engOutput_kept {x0 : Nat} {x1 : EngJob} {x2 : Bytes} {x3 : Bytes} {x4 : State} (h4 : Kept q k x4) : Kept q k (engOutput x0 x1 x2 x3 x4) := by
  unfold engOutput
  repeat' (first | with_reducible assumption | (intro) | with_reducible apply giveLine_kept | (with_reducible refine giveLine_keptE (by assumption) ?_) | (with_reducible refine giveLine_keptE2 (by assumption) ?_) | (with_reducible refine giveLine_keptE3 (by assumption) ?_) | with_reducible apply engStop_kept | with_reducible apply engJobSet_kept | with_reducible apply engWrite_kept | (with_reducible refine engWrite_keptE (by assumption) ?_) | with_reducible apply errResp_kept | with_reducible apply bytesOut_kept | with_reducible apply warpMove_kept | simp only [kept_upd] | split | dsimp only)

theorem spoil_kept {x0 : Nat} {x1 : EngJob} {x2 : Nat} {x3 : State} (h3 : Kept q k x3) : Kept q k (spoil x0 x1 x2 x3) := by
  unfold spoil
  repeat' (first | with_reducible assumption | (intro) | with_reducible apply freeBytes_kept | (with_reducible refine freeBytes_keptE (by assumption) ?_) | with_reducible apply memWrite_kept | (with_reducible refine memWrite_keptE (by assumption) ?_) | with_reducible apply kept_getD | with_reducible apply keptP_getD | with_reducible apply kept_ite | split | dsimp only)

theorem engCut_kept {x0 : Nat} {x1 : Nat} {x2 : Option Back → Nat → Bool} {x3 : State} (h3 : Kept q k x3) : Kept q k (engCut x0 x1 x2 x3) := by
  unfold engCut
  repeat' (first | with_reducible assumption | (intro) | with_reducible apply engEnd_kept | with_reducible apply kept_foldl | with_reducible apply kept_foldl2 | with_reducible apply kept_getD | with_reducible apply keptP_getD | with_reducible apply kept_ite | split | dsimp only)

theorem engDrain_kept {x0 : Nat} {x1 : Nat} {x2 : Option Back → Nat → Bool} {x3 : Nat} {x4 : Nat} {x5 : State} (h5 : Kept q k x5) : Kept q k (engDrain x0 x1 x2 x3 x4 x5) := by
  induction x3 generalizing x4 x5 with
  | zero =>
    unfold engDrain
    repeat' (first | with_reducible assumption | (intro) | with_reducible apply engEnd_kept | with_reducible apply hamMet_kept | with_reducible apply engSet_kept | with_reducible apply kept_ite | simp only [kept_upd] | split | dsimp only)
  | succ n ih =>
    unfold engDrain
    repeat' (first | with_reducible assumption | (intro) | with_reducible apply engEnd_kept | with_reducible apply hamMet_kept | with_reducible apply engSet_kept | with_reducible apply ih | with_reducible apply kept_ite | simp only [kept_upd] | split | dsimp only)

theorem engSkip_kept {x0 : Nat} {x1 : Nat} {x2 : State} (h2 : Kept q k x2) : Kept q k (engSkip x0 x1 x2) := by
  induction x1 generalizing x2 with
  | zero =>
    unfold engSkip
    repeat' (first | with_reducible assumption | (intro) | with_reducible apply engMod_kept | with_reducible apply regSet_kept | with_reducible apply kept_ite | simp only [kept_upd] | split | dsimp only)
  | succ n ih =>
    unfold engSkip
    repeat' (first | with_reducible assumption | (intro) | with_reducible apply engMod_kept | with_reducible apply regSet_kept | with_reducible apply ih | with_reducible apply kept_ite | simp only [kept_upd] | split | dsimp only)

theorem engSquash_kept {x0 : Nat} {x1 : Nat} {x2 : Option Back → Nat → Bool} {x3 : State} (h3 : Kept q k x3) : Kept q k (engSquash x0 x1 x2 x3) := by
  unfold engSquash
  repeat' (first | with_reducible assumption | (intro) | with_reducible apply engCut_kept | with_reducible apply engSkip_kept | with_reducible apply engDrain_kept | split | dsimp only)

theorem engAccept_kept {x0 : Nat} {x1 : Bytes → Bool} {x2 : EngJob → State → Nat} {x3 : State} (h3 : Kept q k x3) : Kept q k (engAccept x0 x1 x2 x3) := by
  unfold engAccept
  repeat' (first | with_reducible assumption | (intro) | with_reducible apply h2 | with_reducible apply engSkip_kept | with_reducible apply hamMet_kept | with_reducible apply engMod_kept | with_reducible apply regSet_kept | with_reducible apply engEnd_kept | with_reducible apply illegalDma_kept | with_reducible apply kept_ite | simp only [kept_upd] | split | dsimp only)

theorem engEnds_kept {x0 : Nat} {x1 : State} (h1 : Kept q k x1) : Kept q k (engEnds x0 x1) := by
  unfold engEnds
  repeat' (first | with_reducible assumption | (intro) | with_reducible apply engEnd_kept | with_reducible apply kept_foldl | with_reducible apply kept_foldl2 | with_reducible apply kept_ite | simp only [kept_upd] | split | dsimp only)

theorem engTail_kept {x0 : Nat} {x1 : Nat} {x2 : State} (h2 : Kept q k x2) : Kept q k (engTail x0 x1 x2) := by
  unfold engTail
  repeat' (first | with_reducible assumption | (intro) | with_reducible apply regSetFld_kept | split | dsimp only)

theorem engCtl_kept {x0 : Nat} {x1 : Nat} {x2 : State} (h2 : Kept q k x2) : Kept q k (engCtl x0 x1 x2) := by
  unfold engCtl
  extract_lets page s1 s2
  have k_s1 : Kept q k s1 := by
    dsimp only [s1]
    repeat' (first | with_reducible assumption | (intro) | with_reducible apply regSetFld_kept | with_reducible apply later_kept | with_reducible apply engMod_kept | with_reducible apply engSquash_kept | with_reducible apply kept_ite | simp only [kept_upd] | split | dsimp only)
  clear_value s1
  have k_s2 : Kept q k s2 := by
    dsimp only [s2]
    repeat' (first | with_reducible assumption | (intro) | with_reducible apply regSetFld_kept | with_reducible apply later_kept | with_reducible apply engMod_kept | with_reducible apply engSquash_kept | with_reducible apply kept_ite | simp only [kept_upd] | split | dsimp only)
  clear_value s2
  repeat' (first | with_reducible assumption | (intro) | with_reducible apply regSetFld_kept | with_reducible apply later_kept | with_reducible apply engMod_kept | with_reducible apply engSquash_kept | with_reducible apply kept_ite | simp only [kept_upd] | split | dsimp only)

theorem engRow_kept {x0 : Nat} {x1 : Nat} {x2 : Nat} {x3 : Nat → State → State} {x4 : State} (h3 : ∀ y0 y1, Kept q k y1 → Kept q k (x3 y0 y1)) (h4 : Kept q k x4) : KeptX q k (engRow x0 x1 x2 x3 x4) := by
  unfold engRow
  repeat' (first | with_reducible assumption | (intro) | with_reducible apply h3 | with_reducible apply keptX_next | with_reducible exact keptX_fault | with_reducible apply keptX_ite | with_reducible apply kept_ite | split | dsimp only)

theorem lineFree_kept {x0 : Nat} {x1 : State} (h1 : Kept q k x1) : Kept q k (lineFree x0 x1) := by
  unfold lineFree
  extract_lets s1 bound s2
  have k_s1 : Kept q k s1 := by
    dsimp only [s1]
    repeat' (first | with_reducible assumption | (intro) | with_reducible apply lineSet_kept | with_reducible apply regSetFld_kept | with_reducible apply shuStop_kept | with_reducible apply engStop_kept | with_reducible apply kept_foldl | with_reducible apply kept_foldl2 | with_reducible apply kept_ite | simp only [kept_upd] | split | dsimp only)
  clear_value s1
  have k_s2 : Kept q k s2 := by
    dsimp only [s2]
    repeat' (first | with_reducible assumption | (intro) | with_reducible apply lineSet_kept | with_reducible apply regSetFld_kept | with_reducible apply shuStop_kept | with_reducible apply engStop_kept | with_reducible apply kept_foldl | with_reducible apply kept_foldl2 | with_reducible apply kept_ite | simp only [kept_upd] | split | dsimp only)
  clear_value s2
  repeat' (first | with_reducible assumption | (intro) | with_reducible apply lineSet_kept | with_reducible apply regSetFld_kept | with_reducible apply shuStop_kept | with_reducible apply engStop_kept | with_reducible apply kept_foldl | with_reducible apply kept_foldl2 | with_reducible apply kept_ite | simp only [kept_upd] | split | dsimp only)

theorem lineCfgWrite_kept {x0 : Nat} {x1 : Nat} {x2 : Nat} {x3 : Nat} {x4 : State} (h4 : Kept q k x4) : Kept q k (lineCfgWrite x0 x1 x2 x3 x4) := by
  unfold lineCfgWrite
  repeat' (first | with_reducible assumption | (intro) | with_reducible apply mergeRw_kept | (with_reducible refine mergeRw_keptE (by assumption) ?_) | with_reducible apply regSet_kept | with_reducible apply lineFree_kept | with_reducible apply lineSet_kept | with_reducible apply kept_ite | split | dsimp only)

theorem execShuLineCfgWrite_kept {x0 : Nat} {x1 : W64} {x2 : State} (h2 : Kept q k x2) : KeptX q k (execShuLineCfgWrite x0 x1 x2) := by
  unfold execShuLineCfgWrite
  repeat' (first | with_reducible assumption | (intro) | with_reducible apply lineCfgWrite_kept | with_reducible apply keptX_next | with_reducible exact keptX_fault | with_reducible apply keptX_ite | with_reducible apply kept_ite | split | dsimp only)

theorem execSoftwareLinePost_kept {x0 : W32} {x1 : State} (h1 : Kept q k x1) : KeptX q k (execSoftwareLinePost x0 x1) := by
  unfold execSoftwareLinePost
  repeat' (first | with_reducible assumption | (intro) | with_reducible apply softLine_kept | with_reducible apply keptX_next | with_reducible exact keptX_fault | with_reducible apply keptX_ite | with_reducible apply kept_ite | split | dsimp only)

theorem execSoftwareLineRelease_kept {x0 : W32} {x1 : State} (h1 : Kept q k x1) : KeptX q k (execSoftwareLineRelease x0 x1) := by
  unfold execSoftwareLineRelease
  repeat' (first | with_reducible assumption | (intro) | with_reducible apply softLine_kept | with_reducible apply keptX_next | with_reducible exact keptX_fault | with_reducible apply keptX_ite | with_reducible apply kept_ite | split | dsimp only)

end Sys2Proof.Machine
end

