-- ==== Sys2Proof/Laws/KeptHamper.lean ====
section
/-!
SUPPORT. What the operations of Machine/Hamper.lean keep (`Kept`).
-/
namespace Sys2Proof.Machine

set_option linter.all false

variable {q : List Instr} {k : W64}

theorem scrubCorrected_kept {x0 : Nat} {x1 : Nat} {x2 : State} (h2 : Kept q k x2) : Kept q k (scrubCorrected x0 x1 x2) := by
  unfold scrubCorrected
  repeat' (first | with_reducible assumption | (intro) | with_reducible apply candidate_kept | with_reducible apply kept_ite | simp only [kept_upd] | split | dsimp only)

theorem scrubWord_kept {x0 : Nat} {x1 : State} (h1 : Kept q k x1) : Kept q k (scrubWord x0 x1) := by
  unfold scrubWord
  repeat' (first | with_reducible assumption | (intro) | with_reducible apply hamWordMet_kept | with_reducible apply scrubCorrected_kept | with_reducible apply regAdd_kept | with_reducible apply hamPut_kept | simp only [kept_upd] | split | dsimp only)

theorem scrubPick_kept {x0 : State} (h0 : Kept q k x0) : Kept q k (scrubPick x0) := by
  unfold scrubPick
  split
  · exact h0
  · exact kept_upd.2 h0

theorem strike_wf {w : Nat} {f : List (Nat × Nat)} {t : Tab (List (Nat × Nat))} (h : tabWf [] t = true) :
    tabWf [] (strike w f t) = true := by
  unfold strike
  exact tabWf_tset h
theorem hamperScrub_kept {x0 : List (Nat × Nat)} {x1 : State} (h1 : Kept q k x1) : Kept q k (hamperScrub x0 x1) := by
  unfold hamperScrub
  extract_lets s cfg pos s1 x src
  have k0 : Kept q k s := scrubPick_kept h1
  clear_value s
  have k1 : Kept q k s1 := kept_iter (fun i s h => scrubWord_kept (kept_hamErr h (strike_wf h.tabs.hamErr))) k0
  clear_value s1
  exact kept_ite k0 (kept_ite (regSet_kept (kept_upd.2 k1)) (kept_upd.2 k1))

theorem execHamperScrubStep_kept {x0 : List (Nat × Nat)} {x1 : State} (h1 : Kept q k x1) : KeptX q k (execHamperScrubStep x0 x1) := by
  unfold execHamperScrubStep
  repeat' (first | with_reducible assumption | (intro) | with_reducible apply hamperScrub_kept | with_reducible apply keptX_next | with_reducible exact keptX_fault | split | dsimp only)

theorem dscrubWord_kept {x0 : Nat} {x1 : State} (h1 : Kept q k x1) : Kept q k (dscrubWord x0 x1) := by
  unfold dscrubWord
  repeat' (first | with_reducible assumption | (intro) | with_reducible apply dramWordMet_kept | with_reducible apply regAdd_kept | with_reducible apply dramWrite_kept | simp only [kept_upd] | split | dsimp only)

theorem dramScrub_kept {x0 : List (Nat × Nat)} {x1 : State} (h1 : Kept q k x1) : Kept q k (dramScrub x0 x1) := by
  unfold dramScrub
  extract_lets s cfg pos s1 src s2
  have k0 : Kept q k s := scrubPick_kept h1
  clear_value s
  have k1 : Kept q k s1 := kept_iter (fun i s h => dscrubWord_kept (kept_dramErr h (strike_wf h.tabs.dramErr))) k0
  clear_value s1
  have k2 : Kept q k s2 := kept_upd.2 k1
  clear_value s2
  exact kept_ite k0 (kept_ite (regSet_kept (kept_upd.2 k2)) (kept_upd.2 k2))

theorem execDramScrubStep_kept {x0 : List (Nat × Nat)} {x1 : State} (h1 : Kept q k x1) : KeptX q k (execDramScrubStep x0 x1) := by
  unfold execDramScrubStep
  repeat' (first | with_reducible assumption | (intro) | with_reducible apply dramScrub_kept | with_reducible apply keptX_next | with_reducible exact keptX_fault | split | dsimp only)

theorem regionWrite_kept {x0 : Nat} {x1 : Nat} {x2 : State} (h2 : Kept q k x2) : Kept q k (regionWrite x0 x1 x2) := by
  unfold regionWrite
  repeat' (first | with_reducible assumption | (intro) | with_reducible apply later_kept | with_reducible apply raise_kept | with_reducible apply kept_ite | split | dsimp only)

theorem execHamperRegionCfg_kept {x0 : Nat} {x1 : W32} {x2 : State} (h2 : Kept q k x2) : KeptX q k (execHamperRegionCfg x0 x1 x2) := by
  unfold execHamperRegionCfg
  repeat' (first | with_reducible assumption | (intro) | with_reducible apply regionWrite_kept | with_reducible apply keptX_next | with_reducible exact keptX_fault | with_reducible apply keptX_ite | with_reducible apply kept_ite | split | dsimp only)

end Sys2Proof.Machine
end

