-- ==== Sys2Proof/Laws/KeptTask.lean ====
section
/-!
SUPPORT. What the operations of Machine/Task.lean keep (`Kept`).
-/
namespace Sys2Proof.Machine

set_option linter.all false

variable {q : List Instr} {k : W64}

theorem runSet_kept {x0 : Nat} {x1 : Run} {x2 : State} (h2 : Kept q k x2) : Kept q k (runSet x0 x1 x2) := by
  unfold runSet
  repeat' (first | with_reducible assumption | (intro) | split | dsimp only | with_reducible apply kept_runs | (with_reducible refine Tabs.runs (Kept.tabs (q := q) (k := k) ?_)) | with_reducible apply tabUp_tset | with_reducible apply tabUp_filter | with_reducible apply tabUp_map | with_reducible apply tabUp_tmod | with_reducible apply tabUp_foldl | with_reducible apply tabUp_tdel | with_reducible apply tabUp_tput | with_reducible apply tabUp_filterMap | with_reducible exact tabUp_nil | with_reducible apply tabWf_tset | with_reducible apply tabWf_filter | with_reducible apply tabWf_tdel | with_reducible apply tabWf_tsetBytes | with_reducible apply tabWf_foldl | with_reducible exact tabWf_nil | simp only [kept_upd])

theorem runMod_kept {x0 : Nat} {x1 : Run → Run} {x2 : State} (h2 : Kept q k x2) : Kept q k (runMod x0 x1 x2) := by
  unfold runMod
  repeat' (first | with_reducible assumption | (intro) | with_reducible apply runSet_kept | split | dsimp only)

theorem imgSet_kept {x0 : Nat} {x1 : Image} {x2 : State} (h2 : Kept q k x2) : Kept q k (imgSet x0 x1 x2) := by
  unfold imgSet
  repeat' (first | with_reducible assumption | (intro) | split | dsimp only | with_reducible apply kept_progs | (with_reducible refine Tabs.progs (Kept.tabs (q := q) (k := k) ?_)) | with_reducible apply tabUp_tset | with_reducible apply tabUp_filter | with_reducible apply tabUp_map | with_reducible apply tabUp_tmod | with_reducible apply tabUp_foldl | with_reducible apply tabUp_tdel | with_reducible apply tabUp_tput | with_reducible apply tabUp_filterMap | with_reducible exact tabUp_nil | with_reducible apply tabWf_tset | with_reducible apply tabWf_filter | with_reducible apply tabWf_tdel | with_reducible apply tabWf_tsetBytes | with_reducible apply tabWf_foldl | with_reducible exact tabWf_nil | simp only [kept_upd])

theorem newTask_kept {x0 : Nat} {x1 : Nat} {x2 : IzFun} {x3 : W64} {x4 : W16} {x5 : Option Nat} {x6 : State} (h6 : Kept q k x6) : KeptO q k (newTask x0 x1 x2 x3 x4 x5 x6) := by
  unfold newTask
  repeat' (first | with_reducible assumption | (intro) | with_reducible apply taskSet_kept | with_reducible apply placeReady_kept | (with_reducible refine placeReady_keptE (by assumption) ?_) | with_reducible apply keptO_some | with_reducible exact keptO_none | with_reducible apply keptO_ite | with_reducible apply kept_ite | split | dsimp only)
theorem newTask_keptE {x0 : Nat} {x1 : Nat} {x2 : IzFun} {x3 : W64} {x4 : W16} {x5 : Option Nat} {x6 : State}  {t : State} (e : newTask x0 x1 x2 x3 x4 x5 x6 = some t) (h6 : Kept q k x6) : Kept q k t := by
  have w := newTask_kept (q := q) (k := k) (x0 := x0) (x1 := x1) (x2 := x2) (x3 := x3) (x4 := x4) (x5 := x5) (x6 := x6) h6
  rw [e] at w; exact w

theorem chargeClk_kept {x0 : Nat} {x1 : Nat} {x2 : Nat} {x3 : State} (h3 : Kept q k x3) : Kept q k (chargeClk x0 x1 x2 x3) := by
  unfold chargeClk
  repeat' (first | with_reducible assumption | (intro) | with_reducible apply regAdd_kept | with_reducible apply taskSet_kept | with_reducible apply runMod_kept | with_reducible apply charge_kept | with_reducible apply kept_ite | simp only [kept_upd] | split | dsimp only)

theorem codeFetch_kept {x0 : Nat} {x1 : State} (h1 : Kept q k x1) : Kept q k (codeFetch x0 x1) := by
  unfold codeFetch
  repeat' (first | with_reducible assumption | (intro) | with_reducible apply regAdd_kept | with_reducible apply chargeClk_kept | with_reducible apply kept_ite | split | dsimp only | with_reducible apply kept_icache | (with_reducible refine Tabs.icache (Kept.tabs (q := q) (k := k) ?_)) | with_reducible apply tabUp_tset | with_reducible apply tabUp_filter | with_reducible apply tabUp_map | with_reducible apply tabUp_tmod | with_reducible apply tabUp_foldl | with_reducible apply tabUp_tdel | with_reducible apply tabUp_tput | with_reducible apply tabUp_filterMap | with_reducible exact tabUp_nil | with_reducible apply tabWf_tset | with_reducible apply tabWf_filter | with_reducible apply tabWf_tdel | with_reducible apply tabWf_tsetBytes | with_reducible apply tabWf_foldl | with_reducible exact tabWf_nil | simp only [kept_upd])

theorem codeKeep_kept {x0 : Nat → Bool} {x1 : State} (h1 : Kept q k x1) : Kept q k (codeKeep x0 x1) := by
  unfold codeKeep
  refine kept_icache h1 (tabUp_filterMap (fun e x hx => ?_) h1.tabs.icache)
  dsimp only at hx
  split at hx
  · cases hx
  · rw [Option.some.injEq] at hx
    rw [← hx]

theorem codeDrop_kept {x0 : Nat} {x1 : State} (h1 : Kept q k x1) : Kept q k (codeDrop x0 x1) := by
  unfold codeDrop
  repeat' (first | with_reducible assumption | (intro) | with_reducible apply codeKeep_kept | split | dsimp only)

theorem spillFrame_kept {x0 : Nat} {x1 : Nat} {x2 : State} (h2 : Kept q k x2) : Kept q k (spillFrame x0 x1 x2) := by
  unfold spillFrame
  repeat' (first | with_reducible assumption | (intro) | with_reducible apply hamWrite_kept | with_reducible apply regAdd_kept | with_reducible apply taskSet_kept | with_reducible apply kept_ite | simp only [kept_upd] | split | dsimp only)

theorem dropFrame_kept {x0 : Nat} {x1 : Nat} {x2 : State} (h2 : Kept q k x2) : Kept q k (dropFrame x0 x1 x2) := by
  unfold dropFrame
  repeat' (first | with_reducible assumption | (intro) | with_reducible apply coreMod_kept | simp only [kept_upd] | split | dsimp only)

theorem placeFrame_kept {x0 : Nat} {x1 : Nat} {x2 : State} (h2 : Kept q k x2) : Kept q k ((placeFrame x0 x1 x2)).2 := by
  unfold placeFrame
  repeat' (first | with_reducible assumption | (intro) | with_reducible apply coreSet_kept | with_reducible apply dropFrame_kept | with_reducible apply spillFrame_kept | with_reducible apply hamMet_kept | with_reducible apply regAdd_kept | with_reducible apply coreMod_kept | with_reducible apply taskMod_kept | with_reducible apply keptP_ite | with_reducible apply kept_ite | with_reducible apply keptPP_ite | simp only [kept_upd] | split | dsimp only)
theorem placeFrame_keptE {x0 : Nat} {x1 : Nat} {x2 : State} {a : Nat} {t : State} (e : placeFrame x0 x1 x2 = (a, t)) (h2 : Kept q k x2) : Kept q k t := by
  have w := placeFrame_kept (q := q) (k := k) (x0 := x0) (x1 := x1) (x2 := x2) h2
  rw [e] at w; exact w

theorem unlist_kept {x0 : Nat} {x1 : State} (h1 : Kept q k x1) : Kept q k (unlist x0 x1) := by
  unfold unlist
  repeat' (first | with_reducible assumption | (intro) | with_reducible apply readySet_kept | with_reducible apply kept_foldl | with_reducible apply kept_foldl2 | with_reducible apply kept_ite | split | dsimp only)

theorem fillSlot_kept {x0 : Nat} {x1 : State} (h1 : Kept q k x1) : Kept q k (fillSlot x0 x1) := by
  unfold fillSlot
  repeat' (first | with_reducible assumption | (intro) | with_reducible apply slotTask_kept | with_reducible apply unlist_kept | with_reducible apply kept_ite | simp only [kept_upd] | split | dsimp only)

theorem startTask_kept {x0 : Nat} {x1 : Nat} {x2 : Bool} {x3 : State} (h3 : Kept q k x3) : Kept q k (startTask x0 x1 x2 x3) := by
  unfold startTask
  repeat' (first | with_reducible assumption | (intro) | with_reducible apply placeFrame_kept | (with_reducible refine placeFrame_keptE (by assumption) ?_) | with_reducible apply fillSlot_kept | with_reducible apply codeFetch_kept | with_reducible apply regMax_kept | with_reducible apply regAdd_kept | with_reducible apply chargeClk_kept | with_reducible apply taskMod_kept | with_reducible apply coreMod_kept | with_reducible apply readyPick_kept | with_reducible apply kept_ite | simp only [kept_upd] | split | dsimp only)

theorem execTaskDispatch_kept {x0 : Nat} {x1 : State} (h1 : Kept q k x1) : KeptX q k (execTaskDispatch x0 x1) := by
  unfold execTaskDispatch
  repeat' (first | with_reducible assumption | (intro) | with_reducible apply startTask_kept | with_reducible apply unlist_kept | with_reducible apply regAdd_kept | with_reducible apply coreSet_kept | with_reducible apply keptX_next | with_reducible exact keptX_fault | with_reducible apply keptX_ite | with_reducible apply kept_ite | simp only [kept_upd] | split | dsimp only)

theorem coreIdle_kept {x0 : Nat} {x1 : State} (h1 : Kept q k x1) : Kept q k (coreIdle x0 x1) := by
  unfold coreIdle
  repeat' (first | with_reducible assumption | (intro) | with_reducible apply coreMod_kept | simp only [kept_upd] | split | dsimp only)

theorem requeue_kept {x0 : Nat} {x1 : State} (h1 : Kept q k x1) : Kept q k (requeue x0 x1) := by
  unfold requeue
  repeat' (first | with_reducible assumption | (intro) | with_reducible apply joinList_kept | with_reducible apply taskMod_kept | with_reducible apply readyPick_kept | with_reducible apply kept_getD | with_reducible apply keptP_getD | with_reducible apply kept_ite | simp only [kept_upd] | split | dsimp only)

theorem taskEnd_kept {x0 : Nat} {x1 : Nat} {x2 : State} (h2 : Kept q k x2) : Kept q k (taskEnd x0 x1 x2) := by
  unfold taskEnd
  repeat' (first | with_reducible assumption | (intro) | with_reducible apply coreIdle_kept | with_reducible apply dropFrame_kept | with_reducible apply taskMod_kept | simp only [kept_upd] | split | dsimp only)

theorem preempt_kept {x0 : Nat} {x1 : State} (h1 : Kept q k x1) : Kept q k (preempt x0 x1) := by
  unfold preempt
  repeat' (first | with_reducible assumption | (intro) | with_reducible apply regAdd_kept | with_reducible apply requeue_kept | with_reducible apply coreIdle_kept | with_reducible apply kept_ite | simp only [kept_upd] | split | dsimp only)

theorem execActivationPreempt_kept {x0 : Nat} {x1 : State} (h1 : Kept q k x1) : KeptX q k (execActivationPreempt x0 x1) := by
  unfold execActivationPreempt
  repeat' (first | with_reducible assumption | (intro) | with_reducible apply preempt_kept | with_reducible apply keptX_next | with_reducible exact keptX_fault | with_reducible apply keptX_ite | with_reducible apply kept_ite | split | dsimp only)

theorem countTrap_kept {x0 : Nat} {x1 : State} (h1 : Kept q k x1) : Kept q k (countTrap x0 x1) := by
  unfold countTrap
  repeat' (first | with_reducible assumption | (intro) | with_reducible apply regAdd_kept | with_reducible apply fnMod_kept | with_reducible apply note_kept | with_reducible apply fencePage_kept | with_reducible apply kept_ite | simp only [kept_upd] | split | dsimp only)

theorem trapTask_kept {x0 : Nat} {x1 : Nat} {x2 : Nat} {x3 : Nat} {x4 : Nat} {x5 : State} (h5 : Kept q k x5) : Kept q k (trapTask x0 x1 x2 x3 x4 x5) := by
  unfold trapTask
  repeat' (first | with_reducible assumption | (intro) | with_reducible apply taskEnd_kept | with_reducible apply note_kept | with_reducible apply irqCause_kept | with_reducible apply regAdd_kept | with_reducible apply regSet_kept | with_reducible apply countTrap_kept | with_reducible apply later_kept | with_reducible apply kept_ite | split | dsimp only)

theorem execDependenceDecrement_kept {x0 : Nat} {x1 : State} (h1 : Kept q k x1) : KeptX q k (execDependenceDecrement x0 x1) := by
  unfold execDependenceDecrement
  repeat' (first | with_reducible assumption | (intro) | with_reducible apply decTask_kept | with_reducible apply keptX_next | with_reducible exact keptX_fault | with_reducible apply keptX_ite | with_reducible apply kept_ite | split | dsimp only)

theorem execTaskAgeing_kept {x0 : Nat} {x1 : State} (h1 : Kept q k x1) : KeptX q k (execTaskAgeing x0 x1) := by
  unfold execTaskAgeing
  repeat' (first | with_reducible assumption | (intro) | with_reducible apply taskSet_kept | with_reducible apply keptX_next | with_reducible exact keptX_fault | with_reducible apply keptX_ite | with_reducible apply kept_ite | simp only [kept_upd] | split | dsimp only)

theorem execItnDec_kept {x0 : W32} {x1 : State} (h1 : Kept q k x1) : KeptX q k (execItnDec x0 x1) := by
  unfold execItnDec
  repeat' (first | with_reducible assumption | (intro) | with_reducible apply decTask_kept | with_reducible apply keptX_next | with_reducible exact keptX_fault | with_reducible apply keptX_ite | with_reducible apply kept_ite | split | dsimp only)

theorem itnQuery_kept {x0 : Nat} {x1 : State} (h1 : Kept q k x1) : Kept q k (itnQuery x0 x1) := by
  unfold itnQuery
  repeat' (first | with_reducible assumption | (intro) | with_reducible apply regSet_kept | with_reducible apply kept_foldl | with_reducible apply kept_foldl2 | split | dsimp only)

theorem execItnQuery_kept {x0 : W32} {x1 : State} (h1 : Kept q k x1) : KeptX q k (execItnQuery x0 x1) := by
  unfold execItnQuery
  repeat' (first | with_reducible assumption | (intro) | with_reducible apply itnQuery_kept | with_reducible apply keptX_next | with_reducible exact keptX_fault | with_reducible apply keptX_ite | with_reducible apply kept_ite | split | dsimp only)

end Sys2Proof.Machine
end

