-- ==== Sys2Proof/Laws/KeptUnit.lean ====
section
/-!
SUPPORT. What the operations of Machine/Unit.lean keep (`Kept`).
-/
namespace Sys2Proof.Machine

set_option linter.all false

variable {q : List Instr} {k : W64}

theorem hamZero_kept {x0 : Nat} {x1 : Nat} {x2 : Bool} {x3 : State} (h3 : Kept q k x3) : Kept q k (hamZero x0 x1 x2 x3) := by
  unfold hamZero
  extract_lets out marks s1
  have hm : tabWf false marks = true := by
    dsimp only [marks]
    split
    · exact foldl_pred (P := fun t => tabWf false t = true) (fun t w h => tabWf_tset h) (tabWf_filter h3.tabs.hamPoison)
    · exact tabWf_filter h3.tabs.hamPoison
  clear_value marks
  have h1 : Kept q k s1 := ⟨h3.pending, h3.pick, { h3.tabs with
    ham := tabWf_filter h3.tabs.ham, hamPoison := hm, hamErr := tabWf_filter h3.tabs.hamErr }⟩
  exact kept_ite (regAdd_kept h1) h1

theorem hamPutGranule_kept {x0 : HamBy} {x1 : Nat} {x2 : Granule} {x3 : State} (h3 : Kept q k x3) : Kept q k (hamPutGranule x0 x1 x2 x3) := by
  unfold hamPutGranule
  repeat' (first | with_reducible assumption | (intro) | with_reducible apply hamZero_kept | with_reducible apply hamWrite_kept | with_reducible apply kept_ite | split | dsimp only)

theorem slotStore_kept {x0 : Nat} {x1 : BitVec 4} {x2 : List Granule} {x3 : State} (h3 : Kept q k x3) : Kept q k (slotStore x0 x1 x2 x3) := by
  unfold slotStore
  repeat' (first | with_reducible assumption | (intro) | with_reducible apply hamPutGranule_kept | with_reducible apply kept_foldl | with_reducible apply kept_foldl2 | with_reducible apply kept_getD | with_reducible apply keptP_getD | with_reducible apply kept_ite | split | dsimp only)

theorem accPut_kept {x0 : Nat} {x1 : Page} {x2 : State} (h2 : Kept q k x2) : Kept q k (accPut x0 x1 x2) := by
  unfold accPut
  repeat' (first | with_reducible assumption | (intro) | with_reducible apply hamPutGranule_kept | with_reducible apply hamWrite_kept | with_reducible apply kept_foldl | with_reducible apply kept_foldl2 | split | dsimp only)

end Sys2Proof.Machine
end

