-- ==== Sys2Proof/Laws/KeptOperands.lean ====
section
/-!
SUPPORT. What the operations of Machine/Operands.lean keep (`Kept`).
-/
namespace Sys2Proof.Machine

set_option linter.all false

variable {q : List Instr} {k : W64}

theorem ctxSet_kept {x0 : Nat} {x1 : Ctx} {x2 : State} (h2 : Kept q k x2) : Kept q k (ctxSet x0 x1 x2) := by
  unfold ctxSet
  repeat' (first | with_reducible assumption | (intro) | simp only [kept_upd] | split | dsimp only)

theorem ctxMod_kept {x0 : Nat} {x1 : Ctx → Ctx} {x2 : State} (h2 : Kept q k x2) : Kept q k (ctxMod x0 x1 x2) := by
  unfold ctxMod
  repeat' (first | with_reducible assumption | (intro) | with_reducible apply ctxSet_kept | split | dsimp only)

theorem nsSet_kept {x0 : Nat} {x1 : Namespace} {x2 : State} (h2 : Kept q k x2) : Kept q k (nsSet x0 x1 x2) := by
  unfold nsSet
  repeat' (first | with_reducible assumption | (intro) | simp only [kept_upd] | split | dsimp only)

theorem sendData_kept {x0 : Ctx} {x1 : Nat} {x2 : Nat} {x3 : Bytes} {x4 : Bool} {x5 : State} (h5 : Kept q k x5) : Kept q k (sendData x0 x1 x2 x3 x4 x5) := by
  unfold sendData
  repeat' (first | with_reducible assumption | (intro) | with_reducible apply hostWrite_kept | with_reducible apply emit_kept | with_reducible apply kept_foldl | with_reducible apply kept_foldl2 | simp only [kept_upd] | split | dsimp only)

theorem guardFree_kept {x0 : Nat} {x1 : State} (h1 : Kept q k x1) : Kept q k (guardFree x0 x1) := by
  unfold guardFree
  repeat' (first | with_reducible assumption | (intro) | simp only [kept_upd] | split | dsimp only)

theorem ctxFree_kept {x0 : Nat} {x1 : State} (h1 : Kept q k x1) : Kept q k (ctxFree x0 x1) := by
  unfold ctxFree
  repeat' (first | with_reducible assumption | (intro) | with_reducible apply guardFree_kept | simp only [kept_upd] | split | dsimp only)

theorem countStatus_kept {x0 : Ctx} {x1 : Status} {x2 : State} (h2 : Kept q k x2) : Kept q k (countStatus x0 x1 x2) := by
  unfold countStatus
  repeat' (first | with_reducible assumption | (intro) | with_reducible apply errPush_kept | with_reducible apply fnMod_kept | with_reducible apply kept_ite | simp only [kept_upd] | split | dsimp only)

theorem countRefusal_kept {x0 : Nat} {x1 : State} (h1 : Kept q k x1) : Kept q k (countRefusal x0 x1) := by
  unfold countRefusal
  repeat' (first | with_reducible assumption | (intro) | with_reducible apply regAdd_kept | with_reducible apply fnMod_kept | with_reducible apply note_kept | with_reducible apply fencePage_kept | with_reducible apply kept_ite | simp only [kept_upd] | split | dsimp only)

theorem finishDw_kept {x0 : Nat} {x1 : Status} {x2 : Nat} {x3 : Nat} {x4 : State} (h4 : Kept q k x4) : Kept q k (finishDw x0 x1 x2 x3 x4) := by
  unfold finishDw
  repeat' (first | with_reducible assumption | (intro) | with_reducible apply countStatus_kept | with_reducible apply ctxFree_kept | with_reducible apply postCpl_kept | with_reducible apply countRefusal_kept | with_reducible apply kept_ite | split | dsimp only)

theorem finish_kept {x0 : Nat} {x1 : Status} {x2 : State} (h2 : Kept q k x2) : Kept q k (finish x0 x1 x2) := by
  unfold finish
  repeat' (first | with_reducible assumption | (intro) | with_reducible apply finishDw_kept | split | dsimp only)

theorem postAev_kept {x0 : Nat} {x1 : Aev} {x2 : State} (h2 : Kept q k x2) : Kept q k (postAev x0 x1 x2) := by
  unfold postAev
  repeat' (first | with_reducible assumption | (intro) | with_reducible apply fnSet_kept | with_reducible apply finishDw_kept | with_reducible apply kept_ite | simp only [kept_upd] | split | dsimp only)

theorem drainAev_kept {x0 : Nat} {x1 : State} (h1 : Kept q k x1) : Kept q k (drainAev x0 x1) := by
  unfold drainAev
  repeat' (first | with_reducible assumption | (intro) | with_reducible apply postAev_kept | with_reducible apply fnMod_kept | with_reducible apply kept_foldl | with_reducible apply kept_foldl2 | simp only [kept_upd] | split | dsimp only)

theorem smartEvent_kept {x0 : Nat} {x1 : Nat} {x2 : State} (h2 : Kept q k x2) : Kept q k (smartEvent x0 x1 x2) := by
  unfold smartEvent
  repeat' (first | with_reducible assumption | (intro) | with_reducible apply postAev_kept | with_reducible apply kept_foldl | with_reducible apply kept_foldl2 | with_reducible apply kept_ite | split | dsimp only)

theorem vendorEvent_kept {x0 : Nat} {x1 : Nat} {x2 : Nat} {x3 : State} (h3 : Kept q k x3) : Kept q k (vendorEvent x0 x1 x2 x3) := by
  unfold vendorEvent
  repeat' (first | with_reducible assumption | (intro) | with_reducible apply postAev_kept | with_reducible apply kept_ite | split | dsimp only)

end Sys2Proof.Machine
end

