-- ==== Sys2Proof/Laws/KeptJournal.lean ====
section
/-!
SUPPORT. What the operations of Machine/Journal.lean keep (`Kept`).
-/
namespace Sys2Proof.Machine

set_option linter.all false

variable {q : List Instr} {k : W64}

theorem buildNext_kept {x0 : Nat} {x1 : State} (h1 : Kept q k x1) : Kept q k (buildNext x0 x1) := by
  induction x0 generalizing x1 with
  | zero =>
    unfold buildNext
    repeat' (first | with_reducible assumption | (intro) | with_reducible apply kept_ite | simp only [kept_upd] | split | dsimp only)
  | succ n ih =>
    unfold buildNext
    repeat' (first | with_reducible assumption | (intro) | with_reducible apply ih | with_reducible apply kept_ite | simp only [kept_upd] | split | dsimp only)

theorem promote_kept {x0 : Nat} {x1 : State} (h1 : Kept q k x1) : Kept q k (promote x0 x1) := by
  unfold promote
  repeat' (first | with_reducible assumption | (intro) | with_reducible apply buildNext_kept | with_reducible apply kept_ite | simp only [kept_upd] | split | dsimp only)

theorem saveViews_kept {x0 : Nat} {x1 : Nat} {x2 : State} (h2 : Kept q k x2) : Kept q k (saveViews x0 x1 x2) := by
  unfold saveViews
  repeat' (first | with_reducible assumption | (intro) | with_reducible apply kept_ite | simp only [kept_upd] | split | dsimp only)

theorem cacheDrop_kept {x0 : Nat} {x1 : State} (h1 : Kept q k x1) : Kept q k (cacheDrop x0 x1) := by
  unfold cacheDrop
  repeat' (first | with_reducible assumption | (intro) | simp only [kept_upd] | split | dsimp only)

theorem cacheFill_kept {x0 : Nat} {x1 : State} (h1 : Kept q k x1) : Kept q k (cacheFill x0 x1) := by
  unfold cacheFill
  repeat' (first | with_reducible assumption | (intro) | with_reducible apply hamWrite_kept | with_reducible apply kept_getD | with_reducible apply keptP_getD | simp only [kept_upd] | split | dsimp only)

theorem cacheHit_kept {x0 : Nat} {x1 : Nat} {x2 : State} (h2 : Kept q k x2) : Kept q k (cacheHit x0 x1 x2) := by
  unfold cacheHit
  repeat' (first | with_reducible assumption | (intro) | with_reducible apply regAdd_kept | with_reducible apply hamMet_kept | simp only [kept_upd] | split | dsimp only)

theorem mapFetch_kept {x0 : Nat} {x1 : State} (h1 : Kept q k x1) : Kept q k ((mapFetch x0 x1)).2 := by
  unfold mapFetch
  repeat' (first | with_reducible assumption | (intro) | with_reducible apply regAdd_kept | with_reducible apply dramMet_kept | with_reducible apply cacheFill_kept | with_reducible apply keptP_ite | with_reducible apply kept_ite | with_reducible apply keptPP_ite | split | dsimp only)
theorem mapFetch_keptE {x0 : Nat} {x1 : State} {a : Option (BitVec 40)} {t : State} (e : mapFetch x0 x1 = (a, t)) (h1 : Kept q k x1) : Kept q k t := by
  have w := mapFetch_kept (q := q) (k := k) (x0 := x0) (x1 := x1) h1
  rw [e] at w; exact w

theorem mapRead_kept {x0 : Nat} {x1 : State} (h1 : Kept q k x1) : Kept q k ((mapRead x0 x1)).2 := by
  unfold mapRead
  split
  · exact mapFetch_kept h1
  · split
    · exact mapFetch_kept (cacheDrop_kept (hamMet_kept h1))
    · exact cacheHit_kept h1
theorem mapRead_keptE {x0 : Nat} {x1 : State} {a : Option (BitVec 40)} {t : State} (e : mapRead x0 x1 = (a, t)) (h1 : Kept q k x1) : Kept q k t := by
  have w := mapRead_kept (q := q) (k := k) (x0 := x0) (x1 := x1) h1
  rw [e] at w; exact w

theorem mapPut_kept {x0 : Nat} {x1 : BitVec 40} {x2 : State} (h2 : Kept q k x2) : Kept q k (mapPut x0 x1 x2) := by
  unfold mapPut
  have h : Kept q k { x2 with map := tset 0 x0 x1 x2.map } := kept_map h2 (tabWf_tset h2.tabs.map)
  extract_lets s1
  split
  · exact h
  · exact hamWrite_kept h

theorem ringCheck_kept {x0 : State} (h0 : Kept q k x0) : Kept q k (ringCheck x0) := by
  unfold ringCheck
  repeat' (first | with_reducible assumption | (intro) | with_reducible apply note_kept | with_reducible apply kept_ite | simp only [kept_upd] | split | dsimp only)

theorem jIssue_kept {x0 : List (BitVec 128)} {x1 : List JAct} {x2 : State} (h2 : Kept q k x2) : Kept q k (jIssue x0 x1 x2) := by
  unfold jIssue
  repeat' (first | with_reducible assumption | (intro) | with_reducible apply ringCheck_kept | with_reducible apply regAdd_kept | simp only [kept_upd] | split | dsimp only)

theorem jIssueAll_kept {x0 : List (BitVec 128 × List JAct)} {x1 : State} (h1 : Kept q k x1) : Kept q k (jIssueAll x0 x1) := by
  fun_induction jIssueAll x0 x1 with
  | case1 s => exact h1
  | case2 s a => exact jIssue_kept h1
  | case3 s a b l ih => exact ih (jIssue_kept h1)

theorem windowMet_kept {x0 : Nat} {x1 : State} (h1 : Kept q k x1) : Kept q k (windowMet x0 x1) := by
  unfold windowMet
  split
  · exact h1
  · have h : Kept q k (hamMet (hamVia 1 x1) (winOffset 0 x1) (16 * x0) x1) := hamMet_kept h1
    exact ⟨h.pending, h.pick, { h.tabs with hamPoison := tabWf_filter h.tabs.hamPoison, hamErr := tabWf_filter h.tabs.hamErr }⟩

theorem jFlush_kept {x0 : State} (h0 : Kept q k x0) : Kept q k (jFlush x0) := by
  unfold jFlush
  repeat' (first | with_reducible assumption | (intro) | with_reducible apply jIssueAll_kept | with_reducible apply windowMet_kept | simp only [kept_upd] | split | dsimp only)

theorem jWindow_kept {x0 : BitVec 128} {x1 : List JAct} {x2 : State} (h2 : Kept q k x2) : Kept q k (jWindow x0 x1 x2) := by
  unfold jWindow
  extract_lets n s0 _ s1
  have k_s0 : Kept q k s0 := by
    dsimp only [s0]
    repeat' (first | with_reducible assumption | (intro) | with_reducible apply hamWrite_kept | with_reducible apply jFlush_kept | with_reducible apply kept_ite | simp only [kept_upd] | split | dsimp only)
  clear_value s0
  have k_s1 : Kept q k s1 := by
    dsimp only [s1]
    repeat' (first | with_reducible assumption | (intro) | with_reducible apply hamWrite_kept | with_reducible apply jFlush_kept | with_reducible apply kept_ite | simp only [kept_upd] | split | dsimp only)
  clear_value s1
  repeat' (first | with_reducible assumption | (intro) | with_reducible apply hamWrite_kept | with_reducible apply jFlush_kept | with_reducible apply kept_ite | simp only [kept_upd] | split | dsimp only)

theorem segCount_kept {x0 : Nat} {x1 : Nat} {x2 : State} (h2 : Kept q k x2) : Kept q k (segCount x0 x1 x2) := by
  unfold segCount
  repeat' (first | with_reducible assumption | (intro) | simp only [kept_upd] | split | dsimp only)

theorem ctlDirty_kept {x0 : Nat} {x1 : Nat} {x2 : State} (h2 : Kept q k x2) : Kept q k (ctlDirty x0 x1 x2) := by
  unfold ctlDirty
  repeat' (first | with_reducible assumption | (intro) | simp only [kept_upd] | split | dsimp only)

theorem jCtrl_kept {x0 : Nat} {x1 : Nat} {x2 : Nat} {x3 : State} (h3 : Kept q k x3) : Kept q k (jCtrl x0 x1 x2 x3) := by
  unfold jCtrl
  repeat' (first | with_reducible assumption | (intro) | with_reducible apply jIssue_kept | with_reducible apply ctlDirty_kept | split | dsimp only)

theorem ctlStore_kept {x0 : Nat} {x1 : Nat} {x2 : Nat} {x3 : State} (h3 : Kept q k x3) : Kept q k (ctlStore x0 x1 x2 x3) := by
  unfold ctlStore
  repeat' (first | with_reducible assumption | (intro) | with_reducible apply kept_ite | simp only [kept_upd] | split | dsimp only)

theorem ctlSeal_kept {x0 : State} (h0 : Kept q k x0) : Kept q k (ctlSeal x0) := by
  unfold ctlSeal
  repeat' (first | with_reducible assumption | (intro) | with_reducible apply ctlStore_kept | split | dsimp only)

theorem ctlFold_kept {x0 : State} (h0 : Kept q k x0) : Kept q k (ctlFold x0) := by
  unfold ctlFold
  repeat' (first | with_reducible assumption | (intro) | with_reducible apply ctlStore_kept | with_reducible apply kept_foldl | with_reducible apply kept_foldl2 | simp only [kept_upd] | split | dsimp only)

theorem mapUpdate_kept {x0 : Nat} {x1 : BitVec 40} {x2 : Nat} {x3 : State} (h3 : Kept q k x3) : Kept q k (mapUpdate x0 x1 x2 x3) := by
  unfold mapUpdate
  split
  · exact mapPut_kept (kept_ite h3 (saveViews_kept h3))
  · exact kept_upd.2 h3

theorem logLost_kept {x0 : Nat} {x1 : Nat} {x2 : Nat} {x3 : State} (h3 : Kept q k x3) : Kept q k (logLost x0 x1 x2 x3) := by
  unfold logLost
  repeat' (first | with_reducible assumption | (intro) | with_reducible apply errPush_kept | with_reducible apply kept_foldl | with_reducible apply kept_foldl2 | simp only [kept_upd] | split | dsimp only)

theorem segLose_kept {x0 : Nat} {x1 : State} (h1 : Kept q k x1) : Kept q k (segLose x0 x1) := by
  unfold segLose
  repeat' (first | with_reducible assumption | (intro) | with_reducible apply jFlush_kept | with_reducible apply kept_foldl | with_reducible apply kept_foldl2 | split | dsimp only | with_reducible apply kept_map | (with_reducible refine Tabs.map (Kept.tabs (q := q) (k := k) ?_)) | with_reducible apply tabWf_tset | with_reducible apply tabWf_filter | with_reducible apply tabWf_tdel | with_reducible apply tabWf_tsetBytes | with_reducible apply tabWf_foldl | with_reducible exact tabWf_nil | simp only [kept_upd])

theorem mapPoisonFound_kept {x0 : Nat} {x1 : State} (h1 : Kept q k x1) : Kept q k (mapPoisonFound x0 x1) := by
  unfold mapPoisonFound
  generalize segRange x0 = r
  obtain ⟨a, n⟩ := r
  exact note_kept (promote_kept (segLose_kept ⟨h1.pending, h1.pick, { h1.tabs with
    dramPoison := tabWf_filter h1.tabs.dramPoison, dramErr := tabWf_filter h1.tabs.dramErr }⟩))

theorem mapSeek_kept {x0 : Nat} {x1 : State} (h1 : Kept q k x1) : Kept q k ((mapSeek x0 x1)).2 := by
  unfold mapSeek
  split
  · exact mapRead_keptE (by assumption) h1
  · exact mapPoisonFound_kept (mapRead_keptE (by assumption) h1)
theorem mapSeek_keptE {x0 : Nat} {x1 : State} {a : Option (BitVec 40)} {t : State} (e : mapSeek x0 x1 = (a, t)) (h1 : Kept q k x1) : Kept q k t := by
  have w := mapSeek_kept (q := q) (k := k) (x0 := x0) (x1 := x1) h1
  rw [e] at w; exact w

theorem mapLook_kept {x0 : Nat} {x1 : State} (h1 : Kept q k x1) : Kept q k ((mapLook x0 x1)).2 := by
  unfold mapLook
  repeat' (first | with_reducible assumption | (intro) | with_reducible apply mapSeek_kept | (with_reducible refine mapSeek_keptE (by assumption) ?_) | with_reducible apply promote_kept | with_reducible apply keptP_ite | with_reducible apply kept_ite | with_reducible apply keptPP_ite | split | dsimp only)
theorem mapLook_keptE {x0 : Nat} {x1 : State} {a : Option (BitVec 40)} {t : State} (e : mapLook x0 x1 = (a, t)) (h1 : Kept q k x1) : Kept q k t := by
  have w := mapLook_kept (q := q) (k := k) (x0 := x0) (x1 := x1) h1
  rw [e] at w; exact w

theorem poisonUnit_kept {x0 : Nat} {x1 : State} (h1 : Kept q k x1) : Kept q k (poisonUnit x0 x1) := by
  unfold poisonUnit
  repeat' (first | with_reducible assumption | (intro) | with_reducible apply mapSeek_kept | (with_reducible refine mapSeek_keptE (by assumption) ?_) | with_reducible apply regAdd_kept | with_reducible apply segCount_kept | with_reducible apply jWindow_kept | with_reducible apply mapUpdate_kept | with_reducible apply kept_getD | with_reducible apply keptP_getD | with_reducible apply kept_ite | split | dsimp only)

theorem applyDiscs_kept {x0 : List Disc} {x1 : State} (h1 : Kept q k x1) : Kept q k (applyDiscs x0 x1) := by
  induction x0 generalizing x1 with
  | nil =>
    unfold applyDiscs
    repeat' (first | with_reducible assumption | (intro) | with_reducible apply jWindow_kept | with_reducible apply mapUpdate_kept | with_reducible apply segCount_kept | with_reducible apply kept_ite | simp only [kept_upd] | split | dsimp only)
  | cons e l ih =>
    unfold applyDiscs
    repeat' (first | with_reducible assumption | (intro) | with_reducible apply jWindow_kept | with_reducible apply mapUpdate_kept | with_reducible apply segCount_kept | with_reducible apply ih | with_reducible apply kept_ite | simp only [kept_upd] | split | dsimp only)

theorem discSweep_kept {x0 : State} (h0 : Kept q k x0) : Kept q k (discSweep x0) := by
  unfold discSweep
  repeat' (first | with_reducible assumption | (intro) | with_reducible apply applyDiscs_kept | split | dsimp only)

theorem slotSet_kept {x0 : Nat} {x1 : Slot} {x2 : State} (h2 : Kept q k x2) : Kept q k (slotSet x0 x1 x2) := by
  unfold slotSet
  repeat' (first | with_reducible assumption | (intro) | simp only [kept_upd] | split | dsimp only)

theorem slotMod_kept {x0 : Nat} {x1 : Slot → Slot} {x2 : State} (h2 : Kept q k x2) : Kept q k (slotMod x0 x1 x2) := by
  unfold slotMod
  repeat' (first | with_reducible assumption | (intro) | with_reducible apply slotSet_kept | split | dsimp only)

theorem slotSweep_kept {x0 : State} (h0 : Kept q k x0) : Kept q k (slotSweep x0) := by
  unfold slotSweep
  repeat' (first | with_reducible assumption | (intro) | simp only [kept_upd] | split | dsimp only)

theorem slotDrop_kept {x0 : Nat} {x1 : State} (h1 : Kept q k x1) : Kept q k (slotDrop x0 x1) := by
  unfold slotDrop
  repeat' (first | with_reducible assumption | (intro) | with_reducible apply kept_ite | simp only [kept_upd] | split | dsimp only)

theorem jAct_kept {x0 : JAct} {x1 : State} (h1 : Kept q k x1) : Kept q k (jAct x0 x1) := by
  unfold jAct
  repeat' (first | with_reducible assumption | (intro) | with_reducible apply discSweep_kept | with_reducible apply slotSweep_kept | with_reducible apply slotMod_kept | with_reducible apply ctxSet_kept | with_reducible apply finishDw_kept | with_reducible apply fnMod_kept | with_reducible apply ringCheck_kept | with_reducible apply regAdd_kept | with_reducible apply ctlDirty_kept | with_reducible apply ctxMod_kept | with_reducible apply kept_ite | simp only [kept_upd] | split | dsimp only)

theorem jDurable_kept {x0 : State} (h0 : Kept q k x0) : Kept q k (jDurable x0) := by
  unfold jDurable
  repeat' (first | with_reducible assumption | (intro) | with_reducible apply note_kept | with_reducible apply jAct_kept | with_reducible apply kept_foldl | with_reducible apply kept_foldl2 | with_reducible apply kept_ite | simp only [kept_upd] | split | dsimp only)

theorem jDrain_kept {x0 : State} (h0 : Kept q k x0) : Kept q k (jDrain x0) := by
  unfold jDrain
  repeat' (first | with_reducible assumption | (intro) | with_reducible apply jDurable_kept | with_reducible apply kept_iter | split | dsimp only)

theorem execJournalWordDurable_kept {x0 : Bool} {x1 : State} (h1 : Kept q k x1) : KeptX q k (execJournalWordDurable x0 x1) := by
  unfold execJournalWordDurable
  repeat' (first | with_reducible assumption | (intro) | with_reducible apply jDurable_kept | with_reducible apply raise_kept | with_reducible apply keptX_next | with_reducible exact keptX_fault | with_reducible apply keptX_ite | with_reducible apply kept_ite | simp only [kept_upd] | split | dsimp only)

theorem execCtrlFieldFold_kept {x0 : State} (h0 : Kept q k x0) : KeptX q k (execCtrlFieldFold x0) := by
  unfold execCtrlFieldFold
  repeat' (first | with_reducible assumption | (intro) | with_reducible apply ctlFold_kept | with_reducible apply keptX_next | with_reducible exact keptX_fault | with_reducible apply keptX_ite | with_reducible apply kept_ite | simp only [kept_upd] | split | dsimp only)

theorem mapcWrite_kept {x0 : Nat} {x1 : State} (h1 : Kept q k x1) : Kept q k (mapcWrite x0 x1) := by
  unfold mapcWrite
  repeat' (first | with_reducible assumption | (intro) | with_reducible apply mergeRw_kept | (with_reducible refine mergeRw_keptE (by assumption) ?_) | with_reducible apply later_kept | split | dsimp only)

theorem execJnlMapcCfgWrite_kept {x0 : W32} {x1 : State} (h1 : Kept q k x1) : KeptX q k (execJnlMapcCfgWrite x0 x1) := by
  unfold execJnlMapcCfgWrite
  repeat' (first | with_reducible assumption | (intro) | with_reducible apply mapcWrite_kept | with_reducible apply keptX_next | with_reducible exact keptX_fault | split | dsimp only)

end Sys2Proof.Machine
end

