-- ==== Sys2Proof/Laws/KeptDies.lean ====
section
/-!
SUPPORT. What the operations of Machine/Dies.lean keep (`Kept`).
-/
namespace Sys2Proof.Machine

set_option linter.all false

variable {q : List Instr} {k : W64}

theorem dieSet_kept {x0 : Nat} {x1 : Die} {x2 : State} (h2 : Kept q k x2) : Kept q k (dieSet x0 x1 x2) := by
  unfold dieSet
  repeat' (first | with_reducible assumption | (intro) | simp only [kept_upd] | split | dsimp only)

theorem dieMod_kept {x0 : Nat} {x1 : Die → Die} {x2 : State} (h2 : Kept q k x2) : Kept q k (dieMod x0 x1 x2) := by
  unfold dieMod
  repeat' (first | with_reducible assumption | (intro) | with_reducible apply dieSet_kept | split | dsimp only)

theorem chanMod_kept {x0 : Nat} {x1 : Channel → Channel} {x2 : State} (h2 : Kept q k x2) : Kept q k (chanMod x0 x1 x2) := by
  unfold chanMod
  repeat' (first | with_reducible assumption | (intro) | simp only [kept_upd] | split | dsimp only)

theorem replaceBlock_kept {x0 : Nat} {x1 : Nat} {x2 : State} (h2 : Kept q k x2) : Kept q k (replaceBlock x0 x1 x2) := by
  unfold replaceBlock
  repeat' (first | with_reducible assumption | (intro) | with_reducible apply dieSet_kept | simp only [kept_upd] | split | dsimp only)

theorem dieFirst_kept {x0 : Nat} {x1 : Nat} {x2 : DieType} {x3 : List Nat} {x4 : State} (h4 : Kept q k x4) : Kept q k (dieFirst x0 x1 x2 x3 x4) := by
  unfold dieFirst
  repeat' (first | with_reducible assumption | (intro) | with_reducible apply replaceBlock_kept | with_reducible apply dieMod_kept | with_reducible apply kept_foldl | with_reducible apply kept_foldl2 | simp only [kept_upd] | split | dsimp only)

theorem takeTable_kept {x0 : Bytes} {x1 : List Bool} {x2 : List Nat} {x3 : State} (h3 : Kept q k x3) : Kept q k (takeTable x0 x1 x2 x3) := by
  unfold takeTable
  extract_lets types tab first _ s1 s2 _ s3 s4
  have k_s1 : Kept q k s1 := by
    dsimp only [s1]
    repeat' (first | with_reducible assumption | (intro) | with_reducible apply dieFirst_kept | with_reducible apply dieMod_kept | with_reducible apply note_kept | with_reducible apply regSetFld_kept | with_reducible apply regSet_kept | with_reducible apply kept_foldl | with_reducible apply kept_foldl2 | with_reducible apply kept_getD | with_reducible apply keptP_getD | with_reducible apply kept_ite | simp only [kept_upd] | split | dsimp only)
  clear_value s1
  have k_s2 : Kept q k s2 := by
    dsimp only [s2]
    repeat' (first | with_reducible assumption | (intro) | with_reducible apply dieFirst_kept | with_reducible apply dieMod_kept | with_reducible apply note_kept | with_reducible apply regSetFld_kept | with_reducible apply regSet_kept | with_reducible apply kept_foldl | with_reducible apply kept_foldl2 | with_reducible apply kept_getD | with_reducible apply keptP_getD | with_reducible apply kept_ite | simp only [kept_upd] | split | dsimp only)
  clear_value s2
  have k_s3 : Kept q k s3 := by
    dsimp only [s3]
    repeat' (first | with_reducible assumption | (intro) | with_reducible apply dieFirst_kept | with_reducible apply dieMod_kept | with_reducible apply note_kept | with_reducible apply regSetFld_kept | with_reducible apply regSet_kept | with_reducible apply kept_foldl | with_reducible apply kept_foldl2 | with_reducible apply kept_getD | with_reducible apply keptP_getD | with_reducible apply kept_ite | simp only [kept_upd] | split | dsimp only)
  clear_value s3
  have k_s4 : Kept q k s4 := by
    dsimp only [s4]
    repeat' (first | with_reducible assumption | (intro) | with_reducible apply dieFirst_kept | with_reducible apply dieMod_kept | with_reducible apply note_kept | with_reducible apply regSetFld_kept | with_reducible apply regSet_kept | with_reducible apply kept_foldl | with_reducible apply kept_foldl2 | with_reducible apply kept_getD | with_reducible apply keptP_getD | with_reducible apply kept_ite | simp only [kept_upd] | split | dsimp only)
  clear_value s4
  repeat' (first | with_reducible assumption | (intro) | with_reducible apply dieFirst_kept | with_reducible apply dieMod_kept | with_reducible apply note_kept | with_reducible apply regSetFld_kept | with_reducible apply regSet_kept | with_reducible apply kept_foldl | with_reducible apply kept_foldl2 | with_reducible apply kept_getD | with_reducible apply keptP_getD | with_reducible apply kept_ite | simp only [kept_upd] | split | dsimp only)

theorem degrade_kept {x0 : State} (h0 : Kept q k x0) : Kept q k (degrade x0) := by
  unfold degrade
  repeat' (first | with_reducible assumption | (intro) | with_reducible apply note_kept | with_reducible apply regSetFld_kept | with_reducible apply kept_ite | simp only [kept_upd] | split | dsimp only)

theorem execDieTableValidation_kept {x0 : List Bool} {x1 : State} {x2 : List Nat} (h1 : Kept q k x1) : KeptX q k (execDieTableValidation x0 x1 x2) := by
  unfold execDieTableValidation
  repeat' (first | with_reducible assumption | (intro) | with_reducible apply takeTable_kept | with_reducible apply degrade_kept | with_reducible apply note_kept | with_reducible apply keptX_next | with_reducible exact keptX_fault | with_reducible apply keptX_ite | with_reducible apply kept_ite | simp only [kept_upd] | split | dsimp only)

theorem execChannelTraining_kept {x0 : Nat} {x1 : Nat} {x2 : State} (h2 : Kept q k x2) : KeptX q k (execChannelTraining x0 x1 x2) := by
  unfold execChannelTraining
  repeat' (first | with_reducible assumption | (intro) | with_reducible apply note_kept | with_reducible apply raise_kept | with_reducible apply chanMod_kept | with_reducible apply keptX_next | with_reducible exact keptX_fault | with_reducible apply keptX_ite | with_reducible apply kept_ite | simp only [kept_upd] | split | dsimp only)

theorem sbSet_kept {x0 : Nat} {x1 : Superblock} {x2 : State} (h2 : Kept q k x2) : Kept q k (sbSet x0 x1 x2) := by
  unfold sbSet
  repeat' (first | with_reducible assumption | (intro) | simp only [kept_upd] | split | dsimp only)

theorem sbMod_kept {x0 : Nat} {x1 : Superblock → Superblock} {x2 : State} (h2 : Kept q k x2) : Kept q k (sbMod x0 x1 x2) := by
  unfold sbMod
  repeat' (first | with_reducible assumption | (intro) | with_reducible apply sbSet_kept | split | dsimp only)

theorem goReadOnly_kept {x0 : State} (h0 : Kept q k x0) : Kept q k (goReadOnly x0) := by
  unfold goReadOnly
  repeat' (first | with_reducible assumption | (intro) | with_reducible apply smartEvent_kept | with_reducible apply note_kept | with_reducible apply jCtrl_kept | with_reducible apply kept_ite | simp only [kept_upd] | split | dsimp only)

theorem openAs_kept {x0 : Nat} {x1 : Nat} {x2 : State} (h2 : Kept q k x2) : Kept q k (openAs x0 x1 x2) := by
  unfold openAs
  repeat' (first | with_reducible assumption | (intro) | with_reducible apply sbSet_kept | with_reducible apply jIssue_kept | simp only [kept_upd] | split | dsimp only)

theorem takeSb_kept {x0 : Nat} {x1 : State} (h1 : Kept q k x1) : Kept q k ((takeSb x0 x1)).2 := by
  unfold takeSb
  repeat' (first | with_reducible assumption | (intro) | with_reducible apply openAs_kept | with_reducible apply goReadOnly_kept | with_reducible apply keptP_ite | with_reducible apply kept_ite | with_reducible apply keptPP_ite | simp only [kept_upd] | split | dsimp only)
theorem takeSb_keptE {x0 : Nat} {x1 : State} {a : Option Nat} {t : State} (e : takeSb x0 x1 = (a, t)) (h1 : Kept q k x1) : Kept q k t := by
  have w := takeSb_kept (q := q) (k := k) (x0 := x0) (x1 := x1) h1
  rw [e] at w; exact w

theorem placeIn_kept {x0 : Nat} {x1 : Placed} {x2 : State} (h2 : Kept q k x2) : KeptL q k (placeIn x0 x1 x2) := by
  unfold placeIn
  repeat' (first | with_reducible assumption | (intro) | with_reducible apply sbSet_kept | with_reducible apply kept_getD | with_reducible apply keptP_getD | with_reducible apply keptL_done | with_reducible exact keptL_wait | with_reducible exact keptL_full | with_reducible apply keptL_ite | with_reducible apply kept_ite | simp only [kept_upd] | split | dsimp only)
theorem placeIn_keptE {x0 : Nat} {x1 : Placed} {x2 : State}  {t : State} (e : placeIn x0 x1 x2 = .done t) (h2 : Kept q k x2) : Kept q k t := by
  have w := placeIn_kept (q := q) (k := k) (x0 := x0) (x1 := x1) (x2 := x2) h2
  rw [e] at w; exact w

theorem closeStream_kept {x0 : Nat} {x1 : State} (h1 : Kept q k x1) : Kept q k (closeStream x0 x1) := by
  unfold closeStream
  repeat' (first | with_reducible assumption | (intro) | with_reducible apply sbMod_kept | simp only [kept_upd] | split | dsimp only)

theorem placeFresh_kept {x0 : Nat} {x1 : Placed} {x2 : State} (h2 : Kept q k x2) : KeptB q k (placeFresh x0 x1 x2) := by
  unfold placeFresh
  repeat' (first | with_reducible assumption | (intro) | with_reducible apply takeSb_kept | (with_reducible refine takeSb_keptE (by assumption) ?_) | with_reducible apply closeStream_kept | with_reducible apply placeIn_kept | (with_reducible refine placeIn_keptE (by assumption) ?_) | with_reducible apply keptB_some | with_reducible apply keptB_none | with_reducible apply keptB_mk | with_reducible apply keptO_some | with_reducible exact keptO_none | simp only [kept_upd] | split | dsimp only)
theorem placeFresh_keptE {x0 : Nat} {x1 : Placed} {x2 : State} {a : _} {t : State} (e : placeFresh x0 x1 x2 = (some a, t)) (h2 : Kept q k x2) : Kept q k a := by
  have w := placeFresh_kept (q := q) (k := k) (x0 := x0) (x1 := x1) (x2 := x2) h2
  rw [e] at w; exact w.1
theorem placeFresh_keptE2 {x0 : Nat} {x1 : Placed} {x2 : State} {o : _} {t : State} (e : placeFresh x0 x1 x2 = (o, t)) (h2 : Kept q k x2) : Kept q k t := by
  have w := placeFresh_kept (q := q) (k := k) (x0 := x0) (x1 := x1) (x2 := x2) h2
  rw [e] at w; exact w.2
theorem placeFresh_kept1 {x0 : Nat} {x1 : Placed} {x2 : State} (h2 : Kept q k x2) : KeptO q k (placeFresh x0 x1 x2).1 := (placeFresh_kept (q := q) (k := k) (x0 := x0) (x1 := x1) (x2 := x2) h2).1
theorem placeFresh_kept2 {x0 : Nat} {x1 : Placed} {x2 : State} (h2 : Kept q k x2) : Kept q k (placeFresh x0 x1 x2).2 := (placeFresh_kept (q := q) (k := k) (x0 := x0) (x1 := x1) (x2 := x2) h2).2

theorem placeUnit_kept {x0 : Nat} {x1 : Placed} {x2 : State} (h2 : Kept q k x2) : KeptB q k (placeUnit x0 x1 x2) := by
  unfold placeUnit
  repeat' (first | with_reducible assumption | (intro) | with_reducible apply placeFresh_kept | with_reducible apply placeFresh_kept1 | with_reducible apply placeFresh_kept2 | (with_reducible refine placeFresh_keptE (by assumption) ?_) | (with_reducible refine placeFresh_keptE2 (by assumption) ?_) | with_reducible apply placeIn_kept | (with_reducible refine placeIn_keptE (by assumption) ?_) | with_reducible apply keptB_some | with_reducible apply keptB_none | with_reducible apply keptB_mk | with_reducible apply keptO_some | with_reducible exact keptO_none | simp only [kept_upd] | split | dsimp only)
theorem placeUnit_keptE {x0 : Nat} {x1 : Placed} {x2 : State} {a : _} {t : State} (e : placeUnit x0 x1 x2 = (some a, t)) (h2 : Kept q k x2) : Kept q k a := by
  have w := placeUnit_kept (q := q) (k := k) (x0 := x0) (x1 := x1) (x2 := x2) h2
  rw [e] at w; exact w.1
theorem placeUnit_keptE2 {x0 : Nat} {x1 : Placed} {x2 : State} {o : _} {t : State} (e : placeUnit x0 x1 x2 = (o, t)) (h2 : Kept q k x2) : Kept q k t := by
  have w := placeUnit_kept (q := q) (k := k) (x0 := x0) (x1 := x1) (x2 := x2) h2
  rw [e] at w; exact w.2
theorem placeUnit_kept1 {x0 : Nat} {x1 : Placed} {x2 : State} (h2 : Kept q k x2) : KeptO q k (placeUnit x0 x1 x2).1 := (placeUnit_kept (q := q) (k := k) (x0 := x0) (x1 := x1) (x2 := x2) h2).1
theorem placeUnit_kept2 {x0 : Nat} {x1 : Placed} {x2 : State} (h2 : Kept q k x2) : Kept q k (placeUnit x0 x1 x2).2 := (placeUnit_kept (q := q) (k := k) (x0 := x0) (x1 := x1) (x2 := x2) h2).2

theorem quadBeats_kept {x0 : Nat} {x1 : Nat} {x2 : Nat} {x3 : State} (h3 : Kept q k x3) : Kept q k (quadBeats x0 x1 x2 x3) := by
  unfold quadBeats
  repeat' (first | with_reducible assumption | (intro) | with_reducible apply regAdd_kept | split | dsimp only)

theorem dieHost_kept {x0 : Nat} {x1 : State} (h1 : Kept q k x1) : Kept q k (dieHost x0 x1) := by
  unfold dieHost
  repeat' (first | with_reducible assumption | (intro) | with_reducible apply dieMod_kept | simp only [kept_upd] | split | dsimp only)

theorem dieInternal_kept {x0 : Nat} {x1 : Nat} {x2 : State} (h2 : Kept q k x2) : Kept q k (dieInternal x0 x1 x2) := by
  unfold dieInternal
  repeat' (first | with_reducible assumption | (intro) | with_reducible apply dieMod_kept | simp only [kept_upd] | split | dsimp only)

end Sys2Proof.Machine
end

