-- ==== Sys2Proof/Laws/KeptMedia.lean ====
section
/-!
SUPPORT. What the operations of Machine/Media.lean keep (`Kept`).
-/
namespace Sys2Proof.Machine

set_option linter.all false

variable {q : List Instr} {k : W64}

theorem accRepair_kept {x0 : Nat} {x1 : State} (h1 : Kept q k x1) : Kept q k (accRepair x0 x1) := by
  unfold accRepair
  repeat' (first | with_reducible assumption | (intro) | with_reducible apply regAdd_kept | with_reducible apply accPut_kept | with_reducible apply hamMet_kept | with_reducible apply kept_ite | simp only [kept_upd] | split | dsimp only)

theorem placeDirect_kept {x0 : Placed} {x1 : State} (h1 : Kept q k x1) : Kept q k (placeDirect x0 x1) := by
  unfold placeDirect
  repeat' (first | with_reducible assumption | (intro) | with_reducible apply note_kept | with_reducible apply placeUnit_kept | with_reducible apply placeUnit_kept1 | with_reducible apply placeUnit_kept2 | (with_reducible refine placeUnit_keptE (by assumption) ?_) | (with_reducible refine placeUnit_keptE2 (by assumption) ?_) | with_reducible apply kept_getD | with_reducible apply keptP_getD | simp only [kept_upd] | split | dsimp only)

theorem placeRetry_kept {x0 : Placed} {x1 : State} (h1 : Kept q k x1) : Kept q k (placeRetry x0 x1) := by
  unfold placeRetry
  repeat' (first | with_reducible assumption | (intro) | with_reducible apply placeUnit_kept | with_reducible apply placeUnit_kept1 | with_reducible apply placeUnit_kept2 | (with_reducible refine placeUnit_keptE (by assumption) ?_) | (with_reducible refine placeUnit_keptE2 (by assumption) ?_) | with_reducible apply placeDirect_kept | with_reducible apply kept_ite | simp only [kept_upd] | split | dsimp only)

theorem placeNow_kept {x0 : Nat} {x1 : State} (h1 : Kept q k x1) : Kept q k (placeNow x0 x1) := by
  unfold placeNow
  repeat' (first | with_reducible assumption | (intro) | with_reducible apply placeUnit_kept | with_reducible apply placeUnit_kept1 | with_reducible apply placeUnit_kept2 | (with_reducible refine placeUnit_keptE (by assumption) ?_) | (with_reducible refine placeUnit_keptE2 (by assumption) ?_) | with_reducible apply placeRetry_kept | with_reducible apply placeDirect_kept | with_reducible apply kept_getD | with_reducible apply keptP_getD | with_reducible apply kept_ite | simp only [kept_upd] | split | dsimp only)

theorem queueRead_kept {x0 : FlashRead} {x1 : State} (h1 : Kept q k x1) : Kept q k (queueRead x0 x1) := by
  unfold queueRead
  repeat' (first | with_reducible assumption | (intro) | with_reducible apply dieHost_kept | with_reducible apply kept_ite | simp only [kept_upd] | split | dsimp only)

theorem placeFill_kept {x0 : Nat} {x1 : State} (h1 : Kept q k x1) : Kept q k (placeFill x0 x1) := by
  unfold placeFill
  repeat' (first | with_reducible assumption | (intro) | with_reducible apply mapSeek_kept | (with_reducible refine mapSeek_keptE (by assumption) ?_) | with_reducible apply placeNow_kept | with_reducible apply queueRead_kept | with_reducible apply kept_ite | simp only [kept_upd] | split | dsimp only)

theorem placeStaged_kept {x0 : Nat} {x1 : State} (h1 : Kept q k x1) : Kept q k (placeStaged x0 x1) := by
  unfold placeStaged
  repeat' (first | with_reducible assumption | (intro) | with_reducible apply placeNow_kept | with_reducible apply placeFill_kept | with_reducible apply promote_kept | with_reducible apply kept_ite | simp only [kept_upd] | split | dsimp only)

theorem slotRelease_kept {x0 : Nat} {x1 : State} (h1 : Kept q k x1) : Kept q k (slotRelease x0 x1) := by
  unfold slotRelease
  repeat' (first | with_reducible assumption | (intro) | with_reducible apply jWindow_kept | with_reducible apply slotSet_kept | split | dsimp only)

theorem placedClear_kept {x0 : Nat} {x1 : Nat} {x2 : State} (h2 : Kept q k x2) : Kept q k (placedClear x0 x1 x2) := by
  unfold placedClear
  repeat' (first | with_reducible assumption | (intro) | with_reducible apply kept_ite | simp only [kept_upd] | split | dsimp only)

theorem startUnit_kept {x0 : State} {x1 : ProgUnit} (h0 : Kept q k x0) : Kept q k (startUnit x0 x1) := by
  unfold startUnit
  repeat' (first | with_reducible assumption | (intro) | with_reducible apply slotMod_kept | with_reducible apply hamMet_kept | with_reducible apply charge_kept | with_reducible apply regAdd_kept | with_reducible apply kept_foldl | with_reducible apply kept_foldl2 | with_reducible apply kept_ite | simp only [kept_upd] | split | dsimp only)

theorem startProgram_kept {x0 : Program} {x1 : State} (h1 : Kept q k x1) : Kept q k (startProgram x0 x1) := by
  unfold startProgram
  extract_lets _ s1 s2
  have k_s1 : Kept q k s1 := by
    dsimp only [s1]
    repeat' (first | with_reducible assumption | (intro) | with_reducible apply quadBeats_kept | with_reducible apply regAdd_kept | with_reducible apply dieMod_kept | with_reducible apply startUnit_kept | with_reducible apply dieHost_kept | with_reducible apply dieInternal_kept | with_reducible apply kept_foldl | with_reducible apply kept_foldl2 | with_reducible apply kept_ite | simp only [kept_upd] | split | dsimp only)
  clear_value s1
  have k_s2 : Kept q k s2 := by
    dsimp only [s2]
    repeat' (first | with_reducible assumption | (intro) | with_reducible apply quadBeats_kept | with_reducible apply regAdd_kept | with_reducible apply dieMod_kept | with_reducible apply startUnit_kept | with_reducible apply dieHost_kept | with_reducible apply dieInternal_kept | with_reducible apply kept_foldl | with_reducible apply kept_foldl2 | with_reducible apply kept_ite | simp only [kept_upd] | split | dsimp only)
  clear_value s2
  repeat' (first | with_reducible assumption | (intro) | with_reducible apply quadBeats_kept | with_reducible apply regAdd_kept | with_reducible apply dieMod_kept | with_reducible apply startUnit_kept | with_reducible apply dieHost_kept | with_reducible apply dieInternal_kept | with_reducible apply kept_foldl | with_reducible apply kept_foldl2 | with_reducible apply kept_ite | simp only [kept_upd] | split | dsimp only)

theorem ckptPlace_kept {x0 : Nat} {x1 : Nat} {x2 : State} (h2 : Kept q k x2) : Kept q k (ckptPlace x0 x1 x2) := by
  induction x1 generalizing x2 with
  | zero =>
    unfold ckptPlace
    repeat' (first | with_reducible assumption | (intro) | with_reducible apply placeUnit_kept | with_reducible apply placeUnit_kept1 | with_reducible apply placeUnit_kept2 | (with_reducible refine placeUnit_keptE (by assumption) ?_) | (with_reducible refine placeUnit_keptE2 (by assumption) ?_) | with_reducible apply kept_ite | simp only [kept_upd] | split | dsimp only)
  | succ n ih =>
    unfold ckptPlace
    repeat' (first | with_reducible assumption | (intro) | with_reducible apply placeUnit_kept | with_reducible apply placeUnit_kept1 | with_reducible apply placeUnit_kept2 | (with_reducible refine placeUnit_keptE (by assumption) ?_) | (with_reducible refine placeUnit_keptE2 (by assumption) ?_) | with_reducible apply ih | with_reducible apply kept_ite | simp only [kept_upd] | split | dsimp only)

theorem placeParity_kept {x0 : Nat} {x1 : State} (h1 : Kept q k x1) : Kept q k (placeParity x0 x1) := by
  unfold placeParity
  repeat' (first | with_reducible assumption | (intro) | with_reducible apply kept_ite | simp only [kept_upd] | split | dsimp only)

theorem placeParities_kept {x0 : State} (h0 : Kept q k x0) : Kept q k (placeParities x0) := by
  unfold placeParities
  repeat' (first | with_reducible assumption | (intro) | with_reducible apply placeParity_kept | with_reducible apply accRepair_kept | with_reducible apply kept_foldl | with_reducible apply kept_foldl2 | split | dsimp only)

theorem placeAll_kept {x0 : State} (h0 : Kept q k x0) : Kept q k (placeAll x0) := by
  unfold placeAll
  repeat' (first | with_reducible assumption | (intro) | with_reducible apply placeStaged_kept | with_reducible apply placeParities_kept | with_reducible apply ckptPlace_kept | with_reducible apply kept_foldl | with_reducible apply kept_foldl2 | split | dsimp only)

theorem addParity_kept {x0 : Nat} {x1 : Page} {x2 : State} (h2 : Kept q k x2) : Kept q k (addParity x0 x1 x2) := by
  unfold addParity
  repeat' (first | with_reducible assumption | (intro) | with_reducible apply accPut_kept | with_reducible apply accRepair_kept | simp only [kept_upd] | split | dsimp only)

theorem accFree_kept {x0 : Nat} {x1 : State} (h1 : Kept q k x1) : Kept q k (accFree x0 x1) := by
  unfold accFree
  repeat' (first | with_reducible assumption | (intro) | simp only [kept_upd] | split | dsimp only)

theorem shardLost_kept {x0 : Nat} {x1 : State} (h1 : Kept q k x1) : Kept q k (shardLost x0 x1) := by
  unfold shardLost
  repeat' (first | with_reducible assumption | (intro) | with_reducible apply kept_ite | simp only [kept_upd] | split | dsimp only)

theorem hostPlaced_kept {x0 : ProgUnit} {x1 : State} (h1 : Kept q k x1) : Kept q k (hostPlaced x0 x1) := by
  unfold hostPlaced
  extract_lets e s0 _ s1 s2 runs
  have k_s0 : Kept q k s0 := by
    dsimp only [s0]
    repeat' (first | with_reducible assumption | (intro) | with_reducible apply jFlush_kept | with_reducible apply segCount_kept | with_reducible apply mapUpdate_kept | with_reducible apply jWindow_kept | with_reducible apply note_kept | with_reducible apply logLost_kept | with_reducible apply shardLost_kept | with_reducible apply kept_foldl | with_reducible apply kept_foldl2 | with_reducible apply kept_ite | split | dsimp only | with_reducible apply kept_runs | (with_reducible refine Tabs.runs (Kept.tabs (q := q) (k := k) ?_)) | with_reducible apply tabUp_tset | with_reducible apply tabUp_filter | with_reducible apply tabUp_map | with_reducible apply tabUp_tmod | with_reducible apply tabUp_foldl | with_reducible apply tabUp_tdel | with_reducible apply tabUp_tput | with_reducible apply tabUp_filterMap | with_reducible exact tabUp_nil | with_reducible apply tabWf_tset | with_reducible apply tabWf_filter | with_reducible apply tabWf_tdel | with_reducible apply tabWf_tsetBytes | with_reducible apply tabWf_foldl | with_reducible exact tabWf_nil | simp only [kept_upd])
  clear_value s0
  have k_s1 : Kept q k s1 := by
    dsimp only [s1]
    repeat' (first | with_reducible assumption | (intro) | with_reducible apply jFlush_kept | with_reducible apply segCount_kept | with_reducible apply mapUpdate_kept | with_reducible apply jWindow_kept | with_reducible apply note_kept | with_reducible apply logLost_kept | with_reducible apply shardLost_kept | with_reducible apply kept_foldl | with_reducible apply kept_foldl2 | with_reducible apply kept_ite | split | dsimp only | with_reducible apply kept_runs | (with_reducible refine Tabs.runs (Kept.tabs (q := q) (k := k) ?_)) | with_reducible apply tabUp_tset | with_reducible apply tabUp_filter | with_reducible apply tabUp_map | with_reducible apply tabUp_tmod | with_reducible apply tabUp_foldl | with_reducible apply tabUp_tdel | with_reducible apply tabUp_tput | with_reducible apply tabUp_filterMap | with_reducible exact tabUp_nil | with_reducible apply tabWf_tset | with_reducible apply tabWf_filter | with_reducible apply tabWf_tdel | with_reducible apply tabWf_tsetBytes | with_reducible apply tabWf_foldl | with_reducible exact tabWf_nil | simp only [kept_upd])
  clear_value s1
  have k_s2 : Kept q k s2 := by
    dsimp only [s2]
    repeat' (first | with_reducible assumption | (intro) | with_reducible apply jFlush_kept | with_reducible apply segCount_kept | with_reducible apply mapUpdate_kept | with_reducible apply jWindow_kept | with_reducible apply note_kept | with_reducible apply logLost_kept | with_reducible apply shardLost_kept | with_reducible apply kept_foldl | with_reducible apply kept_foldl2 | with_reducible apply kept_ite | split | dsimp only | with_reducible apply kept_runs | (with_reducible refine Tabs.runs (Kept.tabs (q := q) (k := k) ?_)) | with_reducible apply tabUp_tset | with_reducible apply tabUp_filter | with_reducible apply tabUp_map | with_reducible apply tabUp_tmod | with_reducible apply tabUp_foldl | with_reducible apply tabUp_tdel | with_reducible apply tabUp_tput | with_reducible apply tabUp_filterMap | with_reducible exact tabUp_nil | with_reducible apply tabWf_tset | with_reducible apply tabWf_filter | with_reducible apply tabWf_tdel | with_reducible apply tabWf_tsetBytes | with_reducible apply tabWf_foldl | with_reducible exact tabWf_nil | simp only [kept_upd])
  clear_value s2
  repeat' (first | with_reducible assumption | (intro) | with_reducible apply jFlush_kept | with_reducible apply segCount_kept | with_reducible apply mapUpdate_kept | with_reducible apply jWindow_kept | with_reducible apply note_kept | with_reducible apply logLost_kept | with_reducible apply shardLost_kept | with_reducible apply kept_foldl | with_reducible apply kept_foldl2 | with_reducible apply kept_ite | split | dsimp only | with_reducible apply kept_runs | (with_reducible refine Tabs.runs (Kept.tabs (q := q) (k := k) ?_)) | with_reducible apply tabUp_tset | with_reducible apply tabUp_filter | with_reducible apply tabUp_map | with_reducible apply tabUp_tmod | with_reducible apply tabUp_foldl | with_reducible apply tabUp_tdel | with_reducible apply tabUp_tput | with_reducible apply tabUp_filterMap | with_reducible exact tabUp_nil | with_reducible apply tabWf_tset | with_reducible apply tabWf_filter | with_reducible apply tabWf_tdel | with_reducible apply tabWf_tsetBytes | with_reducible apply tabWf_foldl | with_reducible exact tabWf_nil | simp only [kept_upd])

theorem movePlaced_kept {x0 : Nat} {x1 : Nat} {x2 : Nat} {x3 : State} (h3 : Kept q k x3) : Kept q k (movePlaced x0 x1 x2 x3) := by
  unfold movePlaced
  repeat' (first | with_reducible assumption | (intro) | with_reducible apply mapSeek_kept | (with_reducible refine mapSeek_keptE (by assumption) ?_) | with_reducible apply segCount_kept | with_reducible apply jWindow_kept | with_reducible apply mapUpdate_kept | with_reducible apply kept_ite | simp only [kept_upd] | split | dsimp only)

theorem ckptDone_kept {x0 : Nat} {x1 : Nat} {x2 : State} (h2 : Kept q k x2) : Kept q k (ckptDone x0 x1 x2) := by
  unfold ckptDone
  repeat' (first | with_reducible assumption | (intro) | with_reducible apply jIssue_kept | with_reducible apply kept_getD | with_reducible apply keptP_getD | with_reducible apply kept_ite | simp only [kept_upd] | split | dsimp only)

theorem unitDone_kept {x0 : State} {x1 : ProgUnit} (h0 : Kept q k x0) : Kept q k (unitDone x0 x1) := by
  unfold unitDone
  repeat' (first | with_reducible assumption | (intro) | with_reducible apply accFree_kept | with_reducible apply regAdd_kept | with_reducible apply addParity_kept | with_reducible apply ckptDone_kept | with_reducible apply queueRead_kept | with_reducible apply movePlaced_kept | with_reducible apply hostPlaced_kept | with_reducible apply kept_elim | with_reducible apply kept_ite | simp only [kept_upd] | split | dsimp only)

theorem spareCheck_kept {x0 : State} (h0 : Kept q k x0) : Kept q k (spareCheck x0) := by
  unfold spareCheck
  repeat' (first | with_reducible assumption | (intro) | with_reducible apply smartEvent_kept | with_reducible apply note_kept | with_reducible apply kept_ite | simp only [kept_upd] | split | dsimp only)

theorem retireBlock_kept {x0 : Nat} {x1 : Nat} {x2 : State} (h2 : Kept q k x2) : Kept q k (retireBlock x0 x1 x2) := by
  unfold retireBlock
  repeat' (first | with_reducible assumption | (intro) | with_reducible apply replaceBlock_kept | with_reducible apply note_kept | with_reducible apply spareCheck_kept | simp only [kept_upd] | split | dsimp only)

theorem addMove_kept {x0 : Nat} {x1 : MoveKind} {x2 : Nat × Nat} {x3 : State} (h3 : Kept q k x3) : Kept q k (addMove x0 x1 x2 x3) := by
  unfold addMove
  repeat' (first | with_reducible assumption | (intro) | with_reducible apply kept_ite | simp only [kept_upd] | split | dsimp only)

theorem addMoves_kept {x0 : Nat} {x1 : MoveKind} {x2 : List (Nat × Nat)} {x3 : State} (h3 : Kept q k x3) : Kept q k (addMoves x0 x1 x2 x3) := by
  unfold addMoves
  repeat' (first | with_reducible assumption | (intro) | with_reducible apply addMove_kept | with_reducible apply kept_foldl | with_reducible apply kept_foldl2 | split | dsimp only)

theorem placeAgain_kept {x0 : Nat} {x1 : Placed} {x2 : State} (h2 : Kept q k x2) : Kept q k (placeAgain x0 x1 x2) := by
  unfold placeAgain
  repeat' (first | with_reducible assumption | (intro) | with_reducible apply placeUnit_kept | with_reducible apply placeUnit_kept1 | with_reducible apply placeUnit_kept2 | (with_reducible refine placeUnit_keptE (by assumption) ?_) | (with_reducible refine placeUnit_keptE2 (by assumption) ?_) | with_reducible apply addMove_kept | simp only [kept_upd] | split | dsimp only)

theorem unitFailed_kept {x0 : Nat} {x1 : State} {x2 : ProgUnit} (h1 : Kept q k x1) : Kept q k (unitFailed x0 x1 x2) := by
  unfold unitFailed
  repeat' (first | with_reducible assumption | (intro) | with_reducible apply note_kept | with_reducible apply slotMod_kept | with_reducible apply placeAgain_kept | with_reducible apply kept_foldl | with_reducible apply kept_foldl2 | with_reducible apply kept_ite | simp only [kept_upd] | split | dsimp only)

theorem abandonSb_kept {x0 : Nat} {x1 : Bool} {x2 : List ProgUnit} {x3 : State} (h3 : Kept q k x3) : Kept q k (abandonSb x0 x1 x2 x3) := by
  unfold abandonSb
  extract_lets k_ again _ s1 s2 mine
  have k_s1 : Kept q k s1 := by
    dsimp only [s1]
    repeat' (first | with_reducible assumption | (intro) | with_reducible apply sbMod_kept | with_reducible apply placeAgain_kept | with_reducible apply unitFailed_kept | with_reducible apply accFree_kept | with_reducible apply addMoves_kept | with_reducible apply placeParity_kept | with_reducible apply kept_foldl | with_reducible apply kept_foldl2 | with_reducible apply kept_getD | with_reducible apply keptP_getD | with_reducible apply kept_ite | simp only [kept_upd] | split | dsimp only)
  clear_value s1
  have k_s2 : Kept q k s2 := by
    dsimp only [s2]
    repeat' (first | with_reducible assumption | (intro) | with_reducible apply sbMod_kept | with_reducible apply placeAgain_kept | with_reducible apply unitFailed_kept | with_reducible apply accFree_kept | with_reducible apply addMoves_kept | with_reducible apply placeParity_kept | with_reducible apply kept_foldl | with_reducible apply kept_foldl2 | with_reducible apply kept_getD | with_reducible apply keptP_getD | with_reducible apply kept_ite | simp only [kept_upd] | split | dsimp only)
  clear_value s2
  repeat' (first | with_reducible assumption | (intro) | with_reducible apply sbMod_kept | with_reducible apply placeAgain_kept | with_reducible apply unitFailed_kept | with_reducible apply accFree_kept | with_reducible apply addMoves_kept | with_reducible apply placeParity_kept | with_reducible apply kept_foldl | with_reducible apply kept_foldl2 | with_reducible apply kept_getD | with_reducible apply keptP_getD | with_reducible apply kept_ite | simp only [kept_upd] | split | dsimp only)

theorem programFailed_kept {x0 : Program} {x1 : State} (h1 : Kept q k x1) : Kept q k (programFailed x0 x1) := by
  unfold programFailed
  repeat' (first | with_reducible assumption | (intro) | with_reducible apply retireBlock_kept | with_reducible apply addMoves_kept | with_reducible apply abandonSb_kept | with_reducible apply note_kept | with_reducible apply regAdd_kept | split | dsimp only)

end Sys2Proof.Machine
end

