-- ==== Sys2Proof/Laws/KeptReads.lean ====
section
/-!
SUPPORT. What the operations of Machine/Reads.lean keep (`Kept`).
-/
namespace Sys2Proof.Machine

set_option linter.all false

variable {q : List Instr} {k : W64}

theorem startRead_kept {x0 : Nat} {x1 : FlashRead} {x2 : State} (h2 : Kept q k x2) : Kept q k (startRead x0 x1 x2) := by
  unfold startRead
  repeat' (first | with_reducible assumption | (intro) | with_reducible apply regAdd_kept | with_reducible apply dieMod_kept | with_reducible apply dieInternal_kept | with_reducible apply kept_ite | simp only [kept_upd] | split | dsimp only)

theorem startErase_kept {x0 : Nat} {x1 : Nat} {x2 : State} (h2 : Kept q k x2) : Kept q k (startErase x0 x1 x2) := by
  unfold startErase
  repeat' (first | with_reducible assumption | (intro) | with_reducible apply regAdd_kept | with_reducible apply dieInternal_kept | with_reducible apply dieMod_kept | simp only [kept_upd] | split | dsimp only)

theorem dieServe_kept {x0 : Nat} {x1 : State} (h1 : Kept q k x1) : Kept q k (dieServe x0 x1) := by
  unfold dieServe
  repeat' (first | with_reducible assumption | (intro) | with_reducible apply startRead_kept | with_reducible apply startErase_kept | with_reducible apply kept_ite | simp only [kept_upd] | split | dsimp only)

theorem warnLost_kept {x0 : State} (h0 : Kept q k x0) : Kept q k (warnLost x0) := by
  unfold warnLost
  repeat' (first | with_reducible assumption | (intro) | with_reducible apply smartEvent_kept | simp only [kept_upd] | split | dsimp only)

theorem loseUnit_kept {x0 : Nat} {x1 : Nat} {x2 : State} (h2 : Kept q k x2) : Kept q k (loseUnit x0 x1 x2) := by
  unfold loseUnit
  repeat' (first | with_reducible assumption | (intro) | with_reducible apply poisonUnit_kept | with_reducible apply note_kept | with_reducible apply shardLost_kept | with_reducible apply warnLost_kept | with_reducible apply logLost_kept | with_reducible apply kept_ite | split | dsimp only)

theorem queueRefresh_kept {x0 : Nat} {x1 : State} (h1 : Kept q k x1) : Kept q k (queueRefresh x0 x1) := by
  unfold queueRefresh
  repeat' (first | with_reducible assumption | (intro) | with_reducible apply kept_ite | simp only [kept_upd] | split | dsimp only)

theorem giveCtx_kept {x0 : FlashRead} {x1 : Option Page} {x2 : Nat} {x3 : State} (h3 : Kept q k x3) : Kept q k (giveCtx x0 x1 x2 x3) := by
  unfold giveCtx
  repeat' (first | with_reducible assumption | (intro) | with_reducible apply ctxMod_kept | with_reducible apply kept_foldl | with_reducible apply kept_foldl2 | with_reducible apply kept_ite | simp only [kept_upd] | split | dsimp only)

theorem placeCopy_kept {x0 : Nat} {x1 : Nat} {x2 : Nat} {x3 : MoveKind} {x4 : State} (h4 : Kept q k x4) : Kept q k (placeCopy x0 x1 x2 x3 x4) := by
  unfold placeCopy
  repeat' (first | with_reducible assumption | (intro) | with_reducible apply placeAgain_kept | with_reducible apply kept_ite | simp only [kept_upd] | split | dsimp only)

theorem giveRead_kept {x0 : Option Page} {x1 : State} {x2 : FlashRead} (h1 : Kept q k x1) : Kept q k (giveRead x0 x1 x2) := by
  unfold giveRead
  repeat' (first | with_reducible assumption | (intro) | with_reducible apply giveCtx_kept | with_reducible apply placeCopy_kept | simp only [kept_upd] | split | dsimp only)

theorem rebuildDone_kept {x0 : Rebuild} {x1 : State} (h1 : Kept q k x1) : Kept q k (rebuildDone x0 x1) := by
  unfold rebuildDone
  repeat' (first | with_reducible assumption | (intro) | with_reducible apply queueRefresh_kept | with_reducible apply regAdd_kept | with_reducible apply note_kept | with_reducible apply giveRead_kept | with_reducible apply addMoves_kept | with_reducible apply kept_foldl | with_reducible apply kept_foldl2 | with_reducible apply kept_ite | simp only [kept_upd] | split | dsimp only)

theorem rebuildFailed_kept {x0 : Rebuild} {x1 : State} (h1 : Kept q k x1) : Kept q k (rebuildFailed x0 x1) := by
  unfold rebuildFailed
  repeat' (first | with_reducible assumption | (intro) | with_reducible apply giveRead_kept | with_reducible apply loseUnit_kept | with_reducible apply kept_foldl | with_reducible apply kept_foldl2 | simp only [kept_upd] | split | dsimp only)

theorem startRebuild_kept {x0 : FlashRead} {x1 : State} (h1 : Kept q k x1) : Kept q k (startRebuild x0 x1) := by
  unfold startRebuild
  repeat' (first | with_reducible assumption | (intro) | with_reducible apply rebuildFailed_kept | with_reducible apply rebuildDone_kept | with_reducible apply queueRead_kept | with_reducible apply kept_foldl | with_reducible apply kept_foldl2 | with_reducible apply kept_ite | simp only [kept_upd] | split | dsimp only)

theorem mateRead_kept {x0 : Nat} {x1 : Nat} {x2 : Bool} {x3 : State} (h3 : Kept q k x3) : Kept q k (mateRead x0 x1 x2 x3) := by
  unfold mateRead
  repeat' (first | with_reducible assumption | (intro) | with_reducible apply rebuildFailed_kept | with_reducible apply rebuildDone_kept | with_reducible apply kept_ite | simp only [kept_upd] | split | dsimp only)

theorem readFailed_kept {x0 : State} {x1 : FlashRead} (h0 : Kept q k x0) : Kept q k (readFailed x0 x1) := by
  unfold readFailed
  repeat' (first | with_reducible assumption | (intro) | with_reducible apply mateRead_kept | with_reducible apply addMove_kept | with_reducible apply note_kept | with_reducible apply startRebuild_kept | with_reducible apply kept_getD | with_reducible apply keptP_getD | simp only [kept_upd] | split | dsimp only)

theorem issueMove_kept {x0 : State} {x1 : Move} (h0 : Kept q k x0) : Kept q k (issueMove x0 x1) := by
  unfold issueMove
  repeat' (first | with_reducible assumption | (intro) | with_reducible apply queueRead_kept | with_reducible apply kept_ite | simp only [kept_upd] | split | dsimp only)

theorem issueMoves_kept {x0 : State} (h0 : Kept q k x0) : Kept q k (issueMoves x0) := by
  unfold issueMoves
  repeat' (first | with_reducible assumption | (intro) | with_reducible apply issueMove_kept | with_reducible apply kept_foldl | with_reducible apply kept_foldl2 | with_reducible apply kept_ite | split | dsimp only)

theorem directCheck_kept {x0 : State} (h0 : Kept q k x0) : Kept q k (directCheck x0) := by
  unfold directCheck
  repeat' (first | with_reducible assumption | (intro) | with_reducible apply kept_ite | simp only [kept_upd] | split | dsimp only)

theorem serveDead_kept {x0 : State} (h0 : Kept q k x0) : Kept q k (serveDead x0) := by
  unfold serveDead
  repeat' (first | with_reducible assumption | (intro) | with_reducible apply readFailed_kept | with_reducible apply kept_foldl | with_reducible apply kept_foldl2 | simp only [kept_upd] | split | dsimp only)

theorem mediaTurn_kept {x0 : State} (h0 : Kept q k x0) : Kept q k (mediaTurn x0) := by
  unfold mediaTurn
  repeat' (first | with_reducible assumption | (intro) | with_reducible apply serveDead_kept | with_reducible apply issueMoves_kept | with_reducible apply directCheck_kept | with_reducible apply dieServe_kept | with_reducible apply kept_foldl | with_reducible apply kept_foldl2 | with_reducible apply kept_ite | split | dsimp only)

theorem arrayDone_kept {x0 : Option Nat} {x1 : State} (h1 : Kept q k x1) : Kept q k (arrayDone x0 x1) := by
  unfold arrayDone
  repeat' (first | with_reducible assumption | (intro) | with_reducible apply decTask_kept | with_reducible apply later_kept | with_reducible apply kept_ite | simp only [kept_upd] | split | dsimp only)

theorem countCw_kept {x0 : Nat} {x1 : CwOut} {x2 : State} (h2 : Kept q k x2) : Kept q k (countCw x0 x1 x2) := by
  unfold countCw
  repeat' (first | with_reducible assumption | (intro) | with_reducible apply regAdd_kept | simp only [kept_upd] | split | dsimp only)

theorem countRead1_kept {x0 : Nat} {x1 : List Nat} {x2 : List CwOut} {x3 : State} (h3 : Kept q k x3) : Kept q k (countRead1 x0 x1 x2 x3) := by
  unfold countRead1
  extract_lets c s t blk n _ s1 s2
  have k_s : Kept q k s := by
    dsimp only [s]
    repeat' (first | with_reducible assumption | (intro) | with_reducible apply quadBeats_kept | with_reducible apply countCw_kept | with_reducible apply regAdd_kept | with_reducible apply note_kept | with_reducible apply queueRefresh_kept | with_reducible apply kept_foldl | with_reducible apply kept_foldl2 | with_reducible apply kept_ite | simp only [kept_upd] | split | dsimp only)
  clear_value s
  have k_s1 : Kept q k s1 := by
    dsimp only [s1]
    repeat' (first | with_reducible assumption | (intro) | with_reducible apply quadBeats_kept | with_reducible apply countCw_kept | with_reducible apply regAdd_kept | with_reducible apply note_kept | with_reducible apply queueRefresh_kept | with_reducible apply kept_foldl | with_reducible apply kept_foldl2 | with_reducible apply kept_ite | simp only [kept_upd] | split | dsimp only)
  clear_value s1
  have k_s2 : Kept q k s2 := by
    dsimp only [s2]
    repeat' (first | with_reducible assumption | (intro) | with_reducible apply quadBeats_kept | with_reducible apply countCw_kept | with_reducible apply regAdd_kept | with_reducible apply note_kept | with_reducible apply queueRefresh_kept | with_reducible apply kept_foldl | with_reducible apply kept_foldl2 | with_reducible apply kept_ite | simp only [kept_upd] | split | dsimp only)
  clear_value s2
  repeat' (first | with_reducible assumption | (intro) | with_reducible apply quadBeats_kept | with_reducible apply countCw_kept | with_reducible apply regAdd_kept | with_reducible apply note_kept | with_reducible apply queueRefresh_kept | with_reducible apply kept_foldl | with_reducible apply kept_foldl2 | with_reducible apply kept_ite | simp only [kept_upd] | split | dsimp only)

theorem readGood_kept {x0 : FlashRead} {x1 : Bool} {x2 : State} (h2 : Kept q k x2) : Kept q k (readGood x0 x1 x2) := by
  unfold readGood
  repeat' (first | with_reducible assumption | (intro) | with_reducible apply mateRead_kept | with_reducible apply movePlaced_kept | with_reducible apply readFailed_kept | with_reducible apply giveRead_kept | with_reducible apply kept_ite | simp only [kept_upd] | split | dsimp only)

theorem execFlashReadDone_kept {x0 : Nat} {x1 : List CwOut} {x2 : State} {x3 : Option Nat} (h2 : Kept q k x2) : KeptX q k (execFlashReadDone x0 x1 x2 x3) := by
  unfold execFlashReadDone
  repeat' (first | with_reducible assumption | (intro) | with_reducible apply countRead1_kept | with_reducible apply dieMod_kept | with_reducible apply arrayDone_kept | with_reducible apply mediaTurn_kept | with_reducible apply readFailed_kept | with_reducible apply readGood_kept | with_reducible apply keptX_next | with_reducible exact keptX_fault | with_reducible apply keptX_ite | with_reducible apply kept_ite | simp only [kept_upd] | split | dsimp only)

theorem execUnitProgramStart_kept {x0 : Nat} {x1 : State} (h1 : Kept q k x1) : KeptX q k (execUnitProgramStart x0 x1) := by
  unfold execUnitProgramStart
  repeat' (first | with_reducible assumption | (intro) | with_reducible apply placeAll_kept | with_reducible apply mediaTurn_kept | with_reducible apply startProgram_kept | with_reducible apply keptX_next | with_reducible exact keptX_fault | with_reducible apply keptX_ite | with_reducible apply kept_ite | simp only [kept_upd] | split | dsimp only)

theorem execFlashProgramDone_kept {x0 : Nat} {x1 : Bool} {x2 : State} {x3 : Option Nat} (h2 : Kept q k x2) : KeptX q k (execFlashProgramDone x0 x1 x2 x3) := by
  unfold execFlashProgramDone
  repeat' (first | with_reducible assumption | (intro) | with_reducible apply dieMod_kept | with_reducible apply arrayDone_kept | with_reducible apply mediaTurn_kept | with_reducible apply placeParities_kept | with_reducible apply unitDone_kept | with_reducible apply programFailed_kept | with_reducible apply kept_foldl | with_reducible apply kept_foldl2 | with_reducible apply keptX_next | with_reducible exact keptX_fault | with_reducible apply keptX_ite | with_reducible apply kept_ite | simp only [kept_upd] | split | dsimp only)

end Sys2Proof.Machine
end

