-- ==== Sys2Proof/Laws/KeptMoves.lean ====
section
/-!
SUPPORT. What the operations of Machine/Moves.lean keep (`Kept`).
-/
namespace Sys2Proof.Machine

set_option linter.all false

variable {q : List Instr} {k : W64}

theorem vacate_kept {x0 : Nat} {x1 : Nat} {x2 : MoveKind} {x3 : State} (h3 : Kept q k x3) : Kept q k (vacate x0 x1 x2 x3) := by
  unfold vacate
  repeat' (first | with_reducible assumption | (intro) | with_reducible apply addMoves_kept | with_reducible apply kept_ite | simp only [kept_upd] | split | dsimp only)

theorem execFold_kept {x0 : Nat} {x1 : State} (h1 : Kept q k x1) : KeptX q k (execFold x0 x1) := by
  unfold execFold
  repeat' (first | with_reducible assumption | (intro) | with_reducible apply mediaTurn_kept | with_reducible apply vacate_kept | with_reducible apply keptX_next | with_reducible exact keptX_fault | with_reducible apply keptX_ite | with_reducible apply kept_ite | split | dsimp only)

theorem execGarbageCollection_kept {x0 : State} (h0 : Kept q k x0) : KeptX q k (execGarbageCollection x0) := by
  unfold execGarbageCollection
  repeat' (first | with_reducible assumption | (intro) | with_reducible apply mediaTurn_kept | with_reducible apply vacate_kept | with_reducible apply keptX_next | with_reducible exact keptX_fault | with_reducible apply keptX_ite | with_reducible apply kept_ite | simp only [kept_upd] | split | dsimp only)

theorem execRefresh_kept {x0 : Nat} {x1 : State} (h1 : Kept q k x1) : KeptX q k (execRefresh x0 x1) := by
  unfold execRefresh
  repeat' (first | with_reducible assumption | (intro) | with_reducible apply mediaTurn_kept | with_reducible apply addMoves_kept | with_reducible apply keptX_next | with_reducible exact keptX_fault | with_reducible apply keptX_ite | with_reducible apply kept_ite | simp only [kept_upd] | split | dsimp only)

theorem execStaticWearLevelling_kept {x0 : State} (h0 : Kept q k x0) : KeptX q k (execStaticWearLevelling x0) := by
  unfold execStaticWearLevelling
  repeat' (first | with_reducible assumption | (intro) | with_reducible apply mediaTurn_kept | with_reducible apply vacate_kept | with_reducible apply openAs_kept | with_reducible apply closeStream_kept | with_reducible apply kept_foldl | with_reducible apply kept_foldl2 | with_reducible apply keptX_next | with_reducible exact keptX_fault | with_reducible apply keptX_ite | with_reducible apply kept_ite | simp only [kept_upd] | split | dsimp only)

theorem execPatrolRead_kept {x0 : State} (h0 : Kept q k x0) : KeptX q k (execPatrolRead x0) := by
  unfold execPatrolRead
  repeat' (first | with_reducible assumption | (intro) | with_reducible apply mediaTurn_kept | with_reducible apply queueRead_kept | with_reducible apply regSet_kept | with_reducible apply keptX_next | with_reducible exact keptX_fault | with_reducible apply keptX_ite | with_reducible apply kept_ite | simp only [kept_upd] | split | dsimp only)

theorem execDumpStandbyErase_kept {x0 : State} (h0 : Kept q k x0) : KeptX q k (execDumpStandbyErase x0) := by
  unfold execDumpStandbyErase
  repeat' (first | with_reducible assumption | (intro) | with_reducible apply sbMod_kept | with_reducible apply keptX_next | with_reducible exact keptX_fault | with_reducible apply keptX_ite | with_reducible apply kept_ite | simp only [kept_upd] | split | dsimp only)

theorem execSlcTargetUpdate_kept {x0 : State} (h0 : Kept q k x0) : KeptX q k (execSlcTargetUpdate x0) := by
  unfold execSlcTargetUpdate
  repeat' (first | with_reducible assumption | (intro) | with_reducible apply directCheck_kept | with_reducible apply jCtrl_kept | with_reducible apply kept_foldl | with_reducible apply kept_foldl2 | with_reducible apply keptX_next | with_reducible exact keptX_fault | with_reducible apply keptX_ite | with_reducible apply kept_ite | simp only [kept_upd] | split | dsimp only)

theorem countErase_kept {x0 : Nat} {x1 : Nat} {x2 : State} (h2 : Kept q k x2) : Kept q k (countErase x0 x1 x2) := by
  unfold countErase
  repeat' (first | with_reducible assumption | (intro) | with_reducible apply kept_ite | simp only [kept_upd] | split | dsimp only)

theorem eraseOver_kept {x0 : Nat} {x1 : State} (h1 : Kept q k x1) : Kept q k (eraseOver x0 x1) := by
  unfold eraseOver
  repeat' (first | with_reducible assumption | (intro) | with_reducible apply directCheck_kept | with_reducible apply kept_ite | simp only [kept_upd] | split | dsimp only)

theorem execFlashEraseDone_kept {x0 : Nat} {x1 : Bool} {x2 : Nat} {x3 : State} {x4 : Option Nat} (h3 : Kept q k x3) : KeptX q k (execFlashEraseDone x0 x1 x2 x3 x4) := by
  unfold execFlashEraseDone
  repeat' (first | with_reducible assumption | (intro) | with_reducible apply countErase_kept | with_reducible apply dieMod_kept | with_reducible apply retireBlock_kept | with_reducible apply note_kept | with_reducible apply regAdd_kept | with_reducible apply arrayDone_kept | with_reducible apply mediaTurn_kept | with_reducible apply eraseOver_kept | with_reducible apply keptX_next | with_reducible exact keptX_fault | with_reducible apply keptX_ite | with_reducible apply kept_ite | simp only [kept_upd] | split | dsimp only)

theorem sweepEmpty_kept {x0 : State} (h0 : Kept q k x0) : Kept q k (sweepEmpty x0) := by
  unfold sweepEmpty
  repeat' (first | with_reducible assumption | (intro) | with_reducible apply kept_ite | simp only [kept_upd] | split | dsimp only)

theorem doubleLoss_kept {x0 : Nat} {x1 : State} (h1 : Kept q k x1) : Kept q k (doubleLoss x0 x1) := by
  unfold doubleLoss
  repeat' (first | with_reducible assumption | (intro) | with_reducible apply loseUnit_kept | with_reducible apply kept_foldl | with_reducible apply kept_foldl2 | simp only [kept_upd] | split | dsimp only)

theorem dieAbandon_kept {x0 : Nat} {x1 : State} (h1 : Kept q k x1) : Kept q k (dieAbandon x0 x1) := by
  unfold dieAbandon
  repeat' (first | with_reducible assumption | (intro) | with_reducible apply dieMod_kept | with_reducible apply abandonSb_kept | with_reducible apply kept_foldl | with_reducible apply kept_foldl2 | simp only [kept_upd] | split | dsimp only)

theorem dieFail_kept {x0 : Nat} {x1 : State} (h1 : Kept q k x1) : Kept q k (dieFail x0 x1) := by
  unfold dieFail
  repeat' (first | with_reducible assumption | (intro) | with_reducible apply doubleLoss_kept | with_reducible apply dieAbandon_kept | with_reducible apply note_kept | with_reducible apply dieMod_kept | with_reducible apply spareCheck_kept | with_reducible apply kept_ite | simp only [kept_upd] | split | dsimp only)

theorem execDieReadyTimeout_kept {x0 : Nat} {x1 : Bool} {x2 : State} (h2 : Kept q k x2) : KeptX q k (execDieReadyTimeout x0 x1 x2) := by
  unfold execDieReadyTimeout
  repeat' (first | with_reducible assumption | (intro) | with_reducible apply note_kept | with_reducible apply dieMod_kept | with_reducible apply programFailed_kept | with_reducible apply mediaTurn_kept | with_reducible apply dieFail_kept | with_reducible apply keptX_next | with_reducible exact keptX_fault | with_reducible apply keptX_ite | with_reducible apply kept_ite | simp only [kept_upd] | split | dsimp only)

theorem execDieRebuild_kept {x0 : Nat} {x1 : State} (h1 : Kept q k x1) : KeptX q k (execDieRebuild x0 x1) := by
  unfold execDieRebuild
  repeat' (first | with_reducible assumption | (intro) | with_reducible apply mediaTurn_kept | with_reducible apply addMoves_kept | with_reducible apply keptX_next | with_reducible exact keptX_fault | with_reducible apply keptX_ite | with_reducible apply kept_ite | simp only [kept_upd] | split | dsimp only)

theorem dieHeat_kept {x0 : Int} {x1 : State} {x2 : Nat} (h1 : Kept q k x1) : Kept q k (dieHeat x0 x1 x2) := by
  unfold dieHeat
  repeat' (first | with_reducible assumption | (intro) | with_reducible apply dieMod_kept | with_reducible apply note_kept | with_reducible apply kept_ite | simp only [kept_upd] | split | dsimp only)

theorem execDieTemperatureRead_kept {x0 : Nat} {x1 : Int} {x2 : State} (h2 : Kept q k x2) : KeptX q k (execDieTemperatureRead x0 x1 x2) := by
  unfold execDieTemperatureRead
  repeat' (first | with_reducible assumption | (intro) | with_reducible apply mediaTurn_kept | with_reducible apply dieHeat_kept | with_reducible apply chanMod_kept | with_reducible apply kept_foldl | with_reducible apply kept_foldl2 | with_reducible apply kept_getD | with_reducible apply keptP_getD | with_reducible apply keptX_next | with_reducible exact keptX_fault | with_reducible apply keptX_ite | with_reducible apply kept_ite | simp only [kept_upd] | split | dsimp only)

end Sys2Proof.Machine
end

