-- ==== Sys2Proof/Laws/KeptRestart.lean ====
section
/-!
SUPPORT. What the operations of Machine/Restart.lean keep (`Kept`).
-/
namespace Sys2Proof.Machine

set_option linter.all false

variable {q : List Instr} {k : W64}

theorem applyLoss_kept {x0 : Late} {x1 : State} (h1 : Kept q k x1) : Kept q k (applyLoss x0 x1) := by
  unfold applyLoss
  repeat' (first | with_reducible assumption | (intro) | with_reducible apply regAdd_kept | with_reducible apply segCount_kept | with_reducible apply jWindow_kept | with_reducible apply mapPut_kept | with_reducible apply kept_ite | split | dsimp only)

theorem applyLate_kept {x0 : Nat} {x1 : State} (h1 : Kept q k x1) : Kept q k (applyLate x0 x1) := by
  unfold applyLate
  repeat' (first | with_reducible assumption | (intro) | with_reducible apply applyLoss_kept | with_reducible apply mapUpdate_kept | with_reducible apply kept_foldl | with_reducible apply kept_foldl2 | with_reducible apply kept_ite | simp only [kept_upd] | split | dsimp only)

theorem execSegmentRebuild_kept {x0 : Nat} {x1 : Bool} {x2 : State} (h2 : Kept q k x2) : KeptX q k (execSegmentRebuild x0 x1 x2) := by
  unfold execSegmentRebuild
  repeat' (first | with_reducible assumption | (intro) | with_reducible apply raise_kept | with_reducible apply buildNext_kept | with_reducible apply regMax_kept | with_reducible apply applyLate_kept | with_reducible apply regAdd_kept | with_reducible apply note_kept | with_reducible apply regSet_kept | with_reducible apply readyPick_kept | with_reducible apply kept_foldl | with_reducible apply kept_foldl2 | with_reducible apply keptX_next | with_reducible exact keptX_fault | with_reducible apply keptX_ite | with_reducible apply kept_ite | split | dsimp only | with_reducible apply kept_map | (with_reducible refine Tabs.map (Kept.tabs (q := q) (k := k) ?_)) | with_reducible apply tabWf_tset | with_reducible apply tabWf_filter | with_reducible apply tabWf_tdel | with_reducible apply tabWf_tsetBytes | with_reducible apply tabWf_foldl | with_reducible exact tabWf_nil | simp only [kept_upd])

theorem checkpoint_kept {x0 : Nat} {x1 : State} (h1 : Kept q k x1) : Kept q k (checkpoint x0 x1) := by
  unfold checkpoint
  repeat' (first | with_reducible assumption | (intro) | with_reducible apply mapPoisonFound_kept | with_reducible apply dramMet_kept | with_reducible apply kept_ite | simp only [kept_upd] | split | dsimp only)

theorem execCheckpointStart_kept {x0 : Nat} {x1 : State} (h1 : Kept q k x1) : KeptX q k (execCheckpointStart x0 x1) := by
  unfold execCheckpointStart
  repeat' (first | with_reducible assumption | (intro) | with_reducible apply mediaTurn_kept | with_reducible apply placeAll_kept | with_reducible apply checkpoint_kept | with_reducible apply keptX_next | with_reducible exact keptX_fault | with_reducible apply keptX_ite | with_reducible apply kept_ite | split | dsimp only)

theorem parityNow_kept {x0 : Nat} {x1 : State} (h1 : Kept q k x1) : Kept q k (parityNow x0 x1) := by
  unfold parityNow
  repeat' (first | with_reducible assumption | (intro) | with_reducible apply accRepair_kept | with_reducible apply accFree_kept | simp only [kept_upd] | split | dsimp only)

theorem dumpPage_kept {x0 : Superblock → Page} {x1 : State} (h1 : Kept q k x1) : Kept q k ((dumpPage x0 x1)).2 := by
  unfold dumpPage
  repeat' (first | with_reducible assumption | (intro) | with_reducible apply takeSb_kept | (with_reducible refine takeSb_keptE (by assumption) ?_) | with_reducible apply sbMod_kept | with_reducible apply addParity_kept | with_reducible apply quadBeats_kept | with_reducible apply regAdd_kept | with_reducible apply parityNow_kept | with_reducible apply keptP_ite | with_reducible apply kept_ite | with_reducible apply keptPP_ite | simp only [kept_upd] | split | dsimp only)
theorem dumpPage_keptE {x0 : Superblock → Page} {x1 : State} {a : Option Nat} {t : State} (e : dumpPage x0 x1 = (a, t)) (h1 : Kept q k x1) : Kept q k t := by
  have w := dumpPage_kept (q := q) (k := k) (x0 := x0) (x1 := x1) h1
  rw [e] at w; exact w

theorem dumpPage2_kept {x0 : Superblock → Page} {x1 : State} (h1 : Kept q k x1) : Kept q k ((dumpPage2 x0 x1)).2 := by
  unfold dumpPage2
  repeat' (first | with_reducible assumption | (intro) | with_reducible apply dumpPage_kept | (with_reducible refine dumpPage_keptE (by assumption) ?_) | simp only [kept_upd] | split | dsimp only)
theorem dumpPage2_keptE {x0 : Superblock → Page} {x1 : State} {a : Option Nat} {t : State} (e : dumpPage2 x0 x1 = (a, t)) (h1 : Kept q k x1) : Kept q k t := by
  have w := dumpPage2_kept (q := q) (k := k) (x0 := x0) (x1 := x1) h1
  rw [e] at w; exact w

theorem pageClose_kept {x0 : Nat} {x1 : State} (h1 : Kept q k x1) : Kept q k (pageClose x0 x1) := by
  unfold pageClose
  repeat' (first | with_reducible assumption | (intro) | with_reducible apply sbSet_kept | simp only [kept_upd] | split | dsimp only)

theorem paritiesNow_kept {x0 : State} (h0 : Kept q k x0) : Kept q k (paritiesNow x0) := by
  unfold paritiesNow
  repeat' (first | with_reducible assumption | (intro) | with_reducible apply pageClose_kept | with_reducible apply parityNow_kept | with_reducible apply kept_foldl | with_reducible apply kept_foldl2 | split | dsimp only)

theorem dumpSlot_kept {x0 : Nat × State} {x1 : Nat × Slot} (h0 : Kept q k x0.2) : Kept q k ((dumpSlot x0 x1)).2 := by
  unfold dumpSlot
  repeat' (first | with_reducible assumption | (intro) | with_reducible apply hamMet_kept | with_reducible apply dumpPage2_kept | (with_reducible refine dumpPage2_keptE (by assumption) ?_) | with_reducible apply jDrain_kept | with_reducible apply jIssue_kept | with_reducible apply slotMod_kept | simp only [kept_upd] | split | dsimp only)
theorem dumpSlot_keptE {x0 : Nat × State} {x1 : Nat × Slot} {a : Nat} {t : State} (e : dumpSlot x0 x1 = (a, t)) (h0 : Kept q k x0.2) : Kept q k t := by
  have w := dumpSlot_kept (q := q) (k := k) (x0 := x0) (x1 := x1) h0
  rw [e] at w; exact w

theorem dumpSlots_kept {x0 : Nat} {x1 : State} (h1 : Kept q k x1) : Kept q k ((dumpSlots x0 x1)).2 := by
  unfold dumpSlots
  repeat' (first | with_reducible assumption | (intro) | with_reducible apply dumpSlot_kept | (with_reducible refine dumpSlot_keptE (by assumption) ?_) | with_reducible apply kept_foldl | with_reducible apply kept_foldl2 | split | dsimp only)
theorem dumpSlots_keptE {x0 : Nat} {x1 : State} {a : Nat} {t : State} (e : dumpSlots x0 x1 = (a, t)) (h1 : Kept q k x1) : Kept q k t := by
  have w := dumpSlots_kept (q := q) (k := k) (x0 := x0) (x1 := x1) h1
  rw [e] at w; exact w

theorem dumpParity_kept {x0 : State} (h0 : Kept q k x0) : Kept q k (dumpParity x0) := by
  unfold dumpParity
  repeat' (first | with_reducible assumption | (intro) | with_reducible apply dumpPage2_kept | (with_reducible refine dumpPage2_keptE (by assumption) ?_) | with_reducible apply accRepair_kept | with_reducible apply kept_foldl | with_reducible apply kept_foldl2 | simp only [kept_upd] | split | dsimp only)

theorem dumpPads_kept {x0 : Nat} {x1 : State} (h1 : Kept q k x1) : Kept q k (dumpPads x0 x1) := by
  unfold dumpPads
  repeat' (first | with_reducible assumption | (intro) | with_reducible apply sbSet_kept | with_reducible apply kept_foldl | with_reducible apply kept_foldl2 | with_reducible apply kept_ite | simp only [kept_upd] | split | dsimp only)

theorem dumpEnd_kept {x0 : State} (h0 : Kept q k x0) : Kept q k (dumpEnd x0) := by
  unfold dumpEnd
  repeat' (first | with_reducible assumption | (intro) | with_reducible apply parityNow_kept | with_reducible apply dumpPads_kept | with_reducible apply kept_foldl | with_reducible apply kept_foldl2 | split | dsimp only)

theorem dumpRun_kept {x0 : Nat} {x1 : State} (h1 : Kept q k x1) : Kept q k ((dumpRun x0 x1)).2 := by
  unfold dumpRun
  repeat' (first | with_reducible assumption | (intro) | with_reducible apply dumpSlots_kept | (with_reducible refine dumpSlots_keptE (by assumption) ?_) | with_reducible apply dumpEnd_kept | with_reducible apply dumpParity_kept | with_reducible apply keptP_ite | with_reducible apply kept_ite | with_reducible apply keptPP_ite | split | dsimp only)
theorem dumpRun_keptE {x0 : Nat} {x1 : State} {a : Nat} {t : State} (e : dumpRun x0 x1 = (a, t)) (h1 : Kept q k x1) : Kept q k t := by
  have w := dumpRun_kept (q := q) (k := k) (x0 := x0) (x1 := x1) h1
  rw [e] at w; exact w

theorem loseStaged_kept {x0 : Nat} {x1 : Nat} {x2 : State} (h2 : Kept q k x2) : Kept q k (loseStaged x0 x1 x2) := by
  unfold loseStaged
  repeat' (first | with_reducible assumption | (intro) | with_reducible apply note_kept | with_reducible apply logLost_kept | simp only [kept_upd] | split | dsimp only)

theorem restoreSlot_kept {x0 : List (Nat × Nat × Nat)} {x1 : Option Nat} {x2 : Staged} {x3 : State} (h3 : Kept q k x3) : Kept q k (restoreSlot x0 x1 x2 x3) := by
  unfold restoreSlot
  repeat' (first | with_reducible assumption | (intro) | with_reducible apply slotSet_kept | with_reducible apply slotStore_kept | with_reducible apply loseStaged_kept | simp only [kept_upd] | split | dsimp only)

theorem restoreDiscs_kept {x0 : Nat} {x1 : List (Nat × Nat × Nat)} {x2 : State} (h2 : Kept q k x2) : Kept q k (restoreDiscs x0 x1 x2) := by
  unfold restoreDiscs
  repeat' (first | with_reducible assumption | (intro) | with_reducible apply kept_foldl | with_reducible apply kept_foldl2 | with_reducible apply kept_ite | simp only [kept_upd] | split | dsimp only)

theorem accLoad_kept {x0 : State} (h0 : Kept q k x0) : Kept q k (accLoad x0) := by
  unfold accLoad
  extract_lets s1 open_ s2 holes
  have k_s1 : Kept q k s1 := by
    dsimp only [s1]
    repeat' (first | with_reducible assumption | (intro) | with_reducible apply addParity_kept | with_reducible apply sbMod_kept | with_reducible apply kept_foldl | with_reducible apply kept_foldl2 | simp only [kept_upd] | split | dsimp only)
  clear_value s1
  have k_s2 : Kept q k s2 := by
    dsimp only [s2]
    repeat' (first | with_reducible assumption | (intro) | with_reducible apply addParity_kept | with_reducible apply sbMod_kept | with_reducible apply kept_foldl | with_reducible apply kept_foldl2 | simp only [kept_upd] | split | dsimp only)
  clear_value s2
  repeat' (first | with_reducible assumption | (intro) | with_reducible apply addParity_kept | with_reducible apply sbMod_kept | with_reducible apply kept_foldl | with_reducible apply kept_foldl2 | simp only [kept_upd] | split | dsimp only)

end Sys2Proof.Machine
end

