-- ==== Sys2Proof/Laws/KeptKeys.lean ====
section
/-!
SUPPORT. What the operations of Machine/Keys.lean keep (`Kept`).
-/
namespace Sys2Proof.Machine

set_option linter.all false

variable {q : List Instr} {k : W64}

theorem keyPut_kept {x0 : Nat} {x1 : KeySlot} {x2 : State} (h2 : Kept q k x2) : Kept q k (keyPut x0 x1 x2) := by
  unfold keyPut
  repeat' (first | with_reducible assumption | (intro) | simp only [kept_upd] | split | dsimp only)

theorem keyRecord_kept {x0 : Nat} {x1 : Nat} {x2 : State} (h2 : Kept q k x2) : Kept q k (keyRecord x0 x1 x2) := by
  unfold keyRecord
  repeat' (first | with_reducible assumption | (intro) | simp only [kept_upd] | split | dsimp only)

theorem keyRetire_kept {x0 : Nat} {x1 : State} (h1 : Kept q k x1) : Kept q k (keyRetire x0 x1) := by
  unfold keyRetire
  repeat' (first | with_reducible assumption | (intro) | with_reducible apply note_kept | with_reducible apply keyPut_kept | split | dsimp only)

theorem keyUse_kept {x0 : Nat} {x1 : Nat} {x2 : State} (h2 : Kept q k x2) : Kept q k ((keyUse x0 x1 x2)).2 := by
  unfold keyUse
  repeat' (first | with_reducible assumption | (intro) | with_reducible apply keyRetire_kept | with_reducible apply keyRecord_kept | with_reducible apply vendorEvent_kept | with_reducible apply note_kept | with_reducible apply keptP_ite | with_reducible apply kept_ite | with_reducible apply keptPP_ite | simp only [kept_upd] | split | dsimp only)
theorem keyUse_keptE {x0 : Nat} {x1 : Nat} {x2 : State} {a : Bool} {t : State} (e : keyUse x0 x1 x2 = (a, t)) (h2 : Kept q k x2) : Kept q k t := by
  have w := keyUse_kept (q := q) (k := k) (x0 := x0) (x1 := x1) (x2 := x2) h2
  rw [e] at w; exact w

theorem keyReload_kept {x0 : State} (h0 : Kept q k x0) : Kept q k (keyReload x0) := by
  unfold keyReload
  repeat' (first | with_reducible assumption | (intro) | with_reducible apply keyRecord_kept | with_reducible apply kept_foldl | with_reducible apply kept_foldl2 | with_reducible apply kept_ite | simp only [kept_upd] | split | dsimp only)

theorem keyBad_kept {x0 : Nat} {x1 : Bool} {x2 : State} (h2 : Kept q k x2) : Kept q k (keyBad x0 x1 x2) := by
  unfold keyBad
  repeat' (first | with_reducible assumption | (intro) | with_reducible apply keyPut_kept | with_reducible apply note_kept | with_reducible apply kept_ite | simp only [kept_upd] | split | dsimp only)

theorem kdStart_kept {x0 : Nat} {x1 : EngJob} {x2 : State} (h2 : Kept q k x2) : Kept q k (kdStart x0 x1 x2) := by
  unfold kdStart
  repeat' (first | with_reducible assumption | (intro) | with_reducible apply engStop_kept | with_reducible apply keyUse_kept | (with_reducible refine keyUse_keptE (by assumption) ?_) | with_reducible apply engJobSet_kept | with_reducible apply regAdd_kept | with_reducible apply kept_ite | simp only [kept_upd] | split | dsimp only)

theorem kdWork_kept {x0 : EngJob} {x1 : State} (h1 : Kept q k x1) : Kept q k ((kdWork x0 x1)).2 := by
  unfold kdWork
  repeat' (first | with_reducible assumption | (intro) | with_reducible apply draw_kept | (with_reducible refine draw_keptE (by assumption) ?_) | with_reducible apply keptP_ite | with_reducible apply kept_ite | with_reducible apply keptPP_ite | simp only [kept_upd] | split | dsimp only)
theorem kdWork_keptE {x0 : EngJob} {x1 : State} {a : EngJob} {t : State} (e : kdWork x0 x1 = (a, t)) (h1 : Kept q k x1) : Kept q k t := by
  have w := kdWork_kept (q := q) (k := k) (x0 := x0) (x1 := x1) h1
  rw [e] at w; exact w

theorem kckFinish_kept {x0 : Nat} {x1 : EngJob} {x2 : State} (h2 : Kept q k x2) : Kept q k (kckFinish x0 x1 x2) := by
  unfold kckFinish
  repeat' (first | with_reducible assumption | (intro) | with_reducible apply engStop_kept | with_reducible apply engWrite_kept | (with_reducible refine engWrite_keptE (by assumption) ?_) | with_reducible apply errResp_kept | with_reducible apply warpMove_kept | with_reducible apply memMet_kept | with_reducible apply regAdd_kept | with_reducible apply kept_ite | simp only [kept_upd] | split | dsimp only)

theorem execKckGenerate_kept {x0 : Nat} {x1 : State} (h1 : Kept q k x1) : KeptX q k (execKckGenerate x0 x1) := by
  unfold execKckGenerate
  repeat' (first | with_reducible assumption | (intro) | with_reducible apply engAccept_kept | with_reducible apply keptX_next | with_reducible exact keptX_fault | with_reducible apply keptX_ite | with_reducible apply kept_ite | split | dsimp only)

theorem execKckVerify_kept {x0 : Nat} {x1 : State} (h1 : Kept q k x1) : KeptX q k (execKckVerify x0 x1) := by
  unfold execKckVerify
  repeat' (first | with_reducible assumption | (intro) | with_reducible apply engAccept_kept | with_reducible apply keptX_next | with_reducible exact keptX_fault | with_reducible apply keptX_ite | with_reducible apply kept_ite | split | dsimp only)

theorem execKckJobEnd_kept {x0 : Nat} {x1 : State} (h1 : Kept q k x1) : KeptX q k (execKckJobEnd x0 x1) := by
  unfold execKckJobEnd
  repeat' (first | with_reducible assumption | (intro) | with_reducible apply engEnds_kept | with_reducible apply keptX_next | with_reducible exact keptX_fault | with_reducible apply keptX_ite | with_reducible apply kept_ite | split | dsimp only)

theorem execKckTailAdvance_kept {x0 : Nat} {x1 : W32} {x2 : State} (h2 : Kept q k x2) : KeptX q k (execKckTailAdvance x0 x1 x2) := by
  unfold execKckTailAdvance
  repeat' (first | with_reducible assumption | (intro) | with_reducible apply engRow_kept | with_reducible apply engTail_kept | with_reducible apply keptX_next | with_reducible exact keptX_fault | split | dsimp only)

theorem execKckStop_kept {x0 : Nat} {x1 : W32} {x2 : State} (h2 : Kept q k x2) : KeptX q k (execKckStop x0 x1 x2) := by
  unfold execKckStop
  repeat' (first | with_reducible assumption | (intro) | with_reducible apply engRow_kept | with_reducible apply engCtl_kept | with_reducible apply keptX_next | with_reducible exact keptX_fault | split | dsimp only)

theorem execKckFlush_kept {x0 : Nat} {x1 : W32} {x2 : State} (h2 : Kept q k x2) : KeptX q k (execKckFlush x0 x1 x2) := by
  unfold execKckFlush
  repeat' (first | with_reducible assumption | (intro) | with_reducible apply engRow_kept | with_reducible apply engCtl_kept | with_reducible apply keptX_next | with_reducible exact keptX_fault | split | dsimp only)

end Sys2Proof.Machine
end

