-- ==== Sys2Proof/Laws/KeptCmd.lean ====
section
/-!
SUPPORT. What the operations of Machine/Cmd.lean keep (`Kept`).
-/
namespace Sys2Proof.Machine

set_option linter.all false

variable {q : List Instr} {k : W64}

theorem guardTake_kept {x0 : Nat} {x1 : Ctx} {x2 : State} (h2 : Kept q k x2) : Kept q k (guardTake x0 x1 x2) := by
  unfold guardTake
  repeat' (first | with_reducible assumption | (intro) | with_reducible apply ctxSet_kept | with_reducible apply guardFree_kept | with_reducible apply regMax_kept | with_reducible apply kept_foldl | with_reducible apply kept_foldl2 | with_reducible apply kept_ite | simp only [kept_upd] | split | dsimp only)

theorem askHost_kept {x0 : Nat} {x1 : Nat} {x2 : List (Nat × Nat)} {x3 : State} (h3 : Kept q k x3) : Kept q k (askHost x0 x1 x2 x3) := by
  unfold askHost
  repeat' (first | with_reducible assumption | (intro) | with_reducible apply hostReadCharge_kept | with_reducible apply emit_kept | with_reducible apply ctxMod_kept | with_reducible apply kept_foldl | with_reducible apply kept_foldl2 | with_reducible apply kept_ite | simp only [kept_upd] | split | dsimp only)

theorem bufferOf_kept {x0 : Nat} {x1 : Nat} {x2 : State} (h2 : Kept q k x2) : Kept q k ((bufferOf x0 x1 x2)).2 := by
  unfold bufferOf
  repeat' (first | with_reducible assumption | (intro) | with_reducible apply finish_kept | with_reducible apply askHost_kept | with_reducible apply keptP_ite | with_reducible apply kept_ite | with_reducible apply keptPP_ite | simp only [kept_upd] | split | dsimp only)
theorem bufferOf_keptE {x0 : Nat} {x1 : Nat} {x2 : State} {a : Option (List (Nat × Nat))} {t : State} (e : bufferOf x0 x1 x2 = (a, t)) (h2 : Kept q k x2) : Kept q k t := by
  have w := bufferOf_kept (q := q) (k := k) (x0 := x0) (x1 := x1) (x2 := x2) h2
  rw [e] at w; exact w

theorem hostData_kept {x0 : Nat} {x1 : Nat} {x2 : State} (h2 : Kept q k x2) : Kept q k ((hostData x0 x1 x2)).2 := by
  unfold hostData
  repeat' (first | with_reducible assumption | (intro) | with_reducible apply bufferOf_kept | (with_reducible refine bufferOf_keptE (by assumption) ?_) | with_reducible apply askHost_kept | with_reducible apply keptP_ite | with_reducible apply kept_ite | with_reducible apply keptPP_ite | simp only [kept_upd] | split | dsimp only)
theorem hostData_keptE {x0 : Nat} {x1 : Nat} {x2 : State} {a : Option Bytes} {t : State} (e : hostData x0 x1 x2 = (a, t)) (h2 : Kept q k x2) : Kept q k t := by
  have w := hostData_kept (q := q) (k := k) (x0 := x0) (x1 := x1) (x2 := x2) h2
  rw [e] at w; exact w

theorem execHostReadCompletion_kept {x0 : Nat} {x1 : Nat} {x2 : Nat} {x3 : Bytes} {x4 : State} (h4 : Kept q k x4) : KeptX q k (execHostReadCompletion x0 x1 x2 x3 x4) := by
  unfold execHostReadCompletion
  repeat' (first | with_reducible assumption | (intro) | with_reducible apply readFault_kept | with_reducible apply ctxMod_kept | with_reducible apply keptX_next | with_reducible exact keptX_fault | with_reducible apply keptX_ite | with_reducible apply kept_ite | simp only [kept_upd] | split | dsimp only)

theorem gotGranule_kept {x0 : Nat} {x1 : Nat} {x2 : Granule} {x3 : State} (h3 : Kept q k x3) : Kept q k (gotGranule x0 x1 x2 x3) := by
  unfold gotGranule
  repeat' (first | with_reducible assumption | (intro) | with_reducible apply ctxMod_kept | with_reducible apply kept_ite | simp only [kept_upd] | split | dsimp only)

theorem gotSlot_kept {x0 : Nat} {x1 : Nat} {x2 : Nat} {x3 : State} (h3 : Kept q k x3) : Kept q k (gotSlot x0 x1 x2 x3) := by
  unfold gotSlot
  repeat' (first | with_reducible assumption | (intro) | with_reducible apply gotGranule_kept | with_reducible apply hamMet_kept | split | dsimp only)

theorem countWait_kept {x0 : Nat} {x1 : State} (h1 : Kept q k x1) : Kept q k (countWait x0 x1) := by
  unfold countWait
  repeat' (first | with_reducible assumption | (intro) | with_reducible apply ctxMod_kept | with_reducible apply regAdd_kept | with_reducible apply kept_ite | simp only [kept_upd] | split | dsimp only)

theorem resolveMap_kept {x0 : Nat} {x1 : Nat} {x2 : List Nat} {x3 : State} (h3 : Kept q k x3) : Kept q k (resolveMap x0 x1 x2 x3) := by
  unfold resolveMap
  repeat' (first | with_reducible assumption | (intro) | with_reducible apply mapLook_kept | (with_reducible refine mapLook_keptE (by assumption) ?_) | with_reducible apply gotGranule_kept | with_reducible apply regAdd_kept | with_reducible apply charge_kept | with_reducible apply queueRead_kept | with_reducible apply kept_foldl | with_reducible apply kept_foldl2 | with_reducible apply kept_ite | simp only [kept_upd] | split | dsimp only)

theorem resolveUnit_kept {x0 : Nat} {x1 : Nat} {x2 : State} (h2 : Kept q k x2) : Kept q k (resolveUnit x0 x1 x2) := by
  unfold resolveUnit
  extract_lets x miss found s1 s2
  have k_s1 : Kept q k s1 := by
    dsimp only [s1]
    repeat' (first | with_reducible assumption | (intro) | with_reducible apply gotSlot_kept | with_reducible apply gotGranule_kept | with_reducible apply countWait_kept | with_reducible apply resolveMap_kept | with_reducible apply kept_foldl | with_reducible apply kept_foldl2 | with_reducible apply kept_ite | simp only [kept_upd] | split | dsimp only)
  clear_value s1
  have k_s2 : Kept q k s2 := by
    dsimp only [s2]
    repeat' (first | with_reducible assumption | (intro) | with_reducible apply gotSlot_kept | with_reducible apply gotGranule_kept | with_reducible apply countWait_kept | with_reducible apply resolveMap_kept | with_reducible apply kept_foldl | with_reducible apply kept_foldl2 | with_reducible apply kept_ite | simp only [kept_upd] | split | dsimp only)
  clear_value s2
  repeat' (first | with_reducible assumption | (intro) | with_reducible apply gotSlot_kept | with_reducible apply gotGranule_kept | with_reducible apply countWait_kept | with_reducible apply resolveMap_kept | with_reducible apply kept_foldl | with_reducible apply kept_foldl2 | with_reducible apply kept_ite | simp only [kept_upd] | split | dsimp only)

theorem gather_kept {x0 : Nat} {x1 : State} (h1 : Kept q k x1) : Kept q k ((gather x0 x1)).2 := by
  unfold gather
  repeat' (first | with_reducible assumption | (intro) | with_reducible apply mediaTurn_kept | with_reducible apply resolveUnit_kept | with_reducible apply kept_foldl | with_reducible apply kept_foldl2 | with_reducible apply keptP_ite | with_reducible apply kept_ite | with_reducible apply keptPP_ite | split | dsimp only)
theorem gather_keptE {x0 : Nat} {x1 : State} {a : Option (List Granule)} {t : State} (e : gather x0 x1 = (a, t)) (h1 : Kept q k x1) : Kept q k t := by
  have w := gather_kept (q := q) (k := k) (x0 := x0) (x1 := x1) h1
  rw [e] at w; exact w

theorem setPlan_kept {x0 : Nat} {x1 : List Tx} {x2 : State} (h2 : Kept q k x2) : Kept q k (setPlan x0 x1 x2) := by
  unfold setPlan
  repeat' (first | with_reducible assumption | (intro) | with_reducible apply ctxMod_kept | simp only [kept_upd] | split | dsimp only)

theorem countStaged_kept {x0 : Nat} {x1 : State} (h1 : Kept q k x1) : Kept q k (countStaged x0 x1) := by
  unfold countStaged
  repeat' (first | with_reducible assumption | (intro) | simp only [kept_upd] | split | dsimp only)

theorem stageNext_kept {x0 : Nat} {x1 : State} (h1 : Kept q k x1) : Kept q k (stageNext x0 x1) := by
  unfold stageNext
  repeat' (first | with_reducible assumption | (intro) | with_reducible apply ctxSet_kept | with_reducible apply countStaged_kept | with_reducible apply slotStore_kept | with_reducible apply slotSet_kept | with_reducible apply jIssue_kept | with_reducible apply kept_getD | with_reducible apply keptP_getD | with_reducible apply kept_ite | simp only [kept_upd] | split | dsimp only)

theorem execStagingUnitComplete_kept {x0 : Nat} {x1 : State} (h1 : Kept q k x1) : KeptX q k (execStagingUnitComplete x0 x1) := by
  unfold execStagingUnitComplete
  repeat' (first | with_reducible assumption | (intro) | with_reducible apply stageNext_kept | with_reducible apply keptX_next | with_reducible exact keptX_fault | with_reducible apply keptX_ite | with_reducible apply kept_ite | split | dsimp only)

theorem discardUnit_kept {x0 : Nat} {x1 : Nat} {x2 : Nat} {x3 : State} (h3 : Kept q k x3) : Kept q k (discardUnit x0 x1 x2 x3) := by
  unfold discardUnit
  repeat' (first | with_reducible assumption | (intro) | with_reducible apply mapUpdate_kept | with_reducible apply kept_ite | simp only [kept_upd] | split | dsimp only)

theorem discardRun_kept {x0 : Nat} {x1 : Nat} {x2 : Nat × Nat} {x3 : State} (h3 : Kept q k x3) : Kept q k (discardRun x0 x1 x2 x3) := by
  unfold discardRun
  repeat' (first | with_reducible assumption | (intro) | with_reducible apply discardUnit_kept | with_reducible apply segCount_kept | with_reducible apply kept_foldl | with_reducible apply kept_foldl2 | split | dsimp only)

theorem commitTx_kept {x0 : Nat} {x1 : Bool} {x2 : Tx} {x3 : State} (h3 : Kept q k x3) : Kept q k (commitTx x0 x1 x2 x3) := by
  unfold commitTx
  extract_lets x ds com act s0 s1
  have k_s0 : Kept q k s0 := by
    dsimp only [s0]
    repeat' (first | with_reducible assumption | (intro) | with_reducible apply jFlush_kept | with_reducible apply jIssue_kept | with_reducible apply jIssueAll_kept | with_reducible apply discardRun_kept | with_reducible apply kept_foldl | with_reducible apply kept_foldl2 | with_reducible apply kept_ite | simp only [kept_upd] | split | dsimp only)
  clear_value s0
  have k_s1 : Kept q k s1 := by
    dsimp only [s1]
    repeat' (first | with_reducible assumption | (intro) | with_reducible apply jFlush_kept | with_reducible apply jIssue_kept | with_reducible apply jIssueAll_kept | with_reducible apply discardRun_kept | with_reducible apply kept_foldl | with_reducible apply kept_foldl2 | with_reducible apply kept_ite | simp only [kept_upd] | split | dsimp only)
  clear_value s1
  repeat' (first | with_reducible assumption | (intro) | with_reducible apply jFlush_kept | with_reducible apply jIssue_kept | with_reducible apply jIssueAll_kept | with_reducible apply discardRun_kept | with_reducible apply kept_foldl | with_reducible apply kept_foldl2 | with_reducible apply kept_ite | simp only [kept_upd] | split | dsimp only)

theorem claimTxs_kept {x0 : Nat} {x1 : List Nat} {x2 : State} (h2 : Kept q k x2) : Kept q k (claimTxs x0 x1 x2) := by
  unfold claimTxs
  repeat' (first | with_reducible assumption | (intro) | with_reducible apply commitTx_kept | with_reducible apply ctxSet_kept | with_reducible apply kept_foldl | with_reducible apply kept_foldl2 | with_reducible apply kept_getD | with_reducible apply keptP_getD | simp only [kept_upd] | split | dsimp only)

theorem claimWrite_kept {x0 : Nat} {x1 : State} (h1 : Kept q k x1) : Kept q k (claimWrite x0 x1) := by
  unfold claimWrite
  repeat' (first | with_reducible assumption | (intro) | with_reducible apply claimTxs_kept | split | dsimp only)

theorem claimPiece_kept {x0 : Nat} {x1 : State} (h1 : Kept q k x1) : Kept q k (claimPiece x0 x1) := by
  unfold claimPiece
  repeat' (first | with_reducible assumption | (intro) | with_reducible apply claimTxs_kept | with_reducible apply kept_getD | with_reducible apply keptP_getD | with_reducible apply kept_ite | simp only [kept_upd] | split | dsimp only)

theorem execWriteClaim_kept {x0 : Nat} {x1 : State} (h1 : Kept q k x1) : KeptX q k (execWriteClaim x0 x1) := by
  unfold execWriteClaim
  repeat' (first | with_reducible assumption | (intro) | with_reducible apply claimPiece_kept | with_reducible apply ctxSet_kept | with_reducible apply finishDw_kept | with_reducible apply claimWrite_kept | with_reducible apply keptX_next | with_reducible exact keptX_fault | with_reducible apply keptX_ite | with_reducible apply kept_ite | simp only [kept_upd] | split | dsimp only)

theorem squash_kept {x0 : Nat} {x1 : State} (h1 : Kept q k x1) : Kept q k (squash x0 x1) := by
  unfold squash
  repeat' (first | with_reducible assumption | (intro) | with_reducible apply discSweep_kept | with_reducible apply slotSweep_kept | with_reducible apply regAdd_kept | with_reducible apply ctxFree_kept | with_reducible apply slotDrop_kept | split | dsimp only)

theorem armDrop_kept {x0 : Nat} {x1 : State} (h1 : Kept q k x1) : Kept q k (armDrop x0 x1) := by
  unfold armDrop
  repeat' (first | with_reducible assumption | (intro) | with_reducible apply note_kept | with_reducible apply fnMod_kept | with_reducible apply kept_ite | simp only [kept_upd] | split | dsimp only)

theorem authFail_kept {x0 : Nat} {x1 : State} (h1 : Kept q k x1) : Kept q k (authFail x0 x1) := by
  unfold authFail
  repeat' (first | with_reducible assumption | (intro) | with_reducible apply regAdd_kept | with_reducible apply note_kept | with_reducible apply fnMod_kept | with_reducible apply kept_ite | simp only [kept_upd] | split | dsimp only)

theorem critGate_kept {x0 : Nat} {x1 : State} (h1 : Kept q k x1) : KeptO q k (critGate x0 x1) := by
  unfold critGate
  repeat' (first | with_reducible assumption | (intro) | with_reducible apply fnMod_kept | with_reducible apply finish_kept | with_reducible apply keyUse_kept | (with_reducible refine keyUse_keptE (by assumption) ?_) | with_reducible apply regAdd_kept | with_reducible apply jIssue_kept | with_reducible apply ctxSet_kept | with_reducible apply authFail_kept | with_reducible apply keptO_some | with_reducible exact keptO_none | with_reducible apply keptO_ite | with_reducible apply kept_ite | simp only [kept_upd] | split | dsimp only)
theorem critGate_keptE {x0 : Nat} {x1 : State}  {t : State} (e : critGate x0 x1 = some t) (h1 : Kept q k x1) : Kept q k t := by
  have w := critGate_kept (q := q) (k := k) (x0 := x0) (x1 := x1) h1
  rw [e] at w; exact w

theorem execLockoutEnd_kept {x0 : Nat} {x1 : State} (h1 : Kept q k x1) : KeptX q k (execLockoutEnd x0 x1) := by
  unfold execLockoutEnd
  repeat' (first | with_reducible assumption | (intro) | with_reducible apply fnMod_kept | with_reducible apply keptX_next | with_reducible exact keptX_fault | with_reducible apply keptX_ite | with_reducible apply kept_ite | simp only [kept_upd] | split | dsimp only)

theorem ioGate_kept {x0 : Nat} {x1 : State} (h1 : Kept q k x1) : KeptO q k (ioGate x0 x1) := by
  unfold ioGate
  repeat' (first | with_reducible assumption | (intro) | with_reducible apply finish_kept | with_reducible apply countWait_kept | with_reducible apply keptO_some | with_reducible exact keptO_none | with_reducible apply keptO_ite | with_reducible apply kept_ite | split | dsimp only)
theorem ioGate_keptE {x0 : Nat} {x1 : State}  {t : State} (e : ioGate x0 x1 = some t) (h1 : Kept q k x1) : Kept q k t := by
  have w := ioGate_kept (q := q) (k := k) (x0 := x0) (x1 := x1) h1
  rw [e] at w; exact w

theorem endFailed_kept {x0 : Nat} {x1 : State} (h1 : Kept q k x1) : Kept q k (endFailed x0 x1) := by
  unfold endFailed
  repeat' (first | with_reducible assumption | (intro) | with_reducible apply finish_kept | simp only [kept_upd] | split | dsimp only)

theorem noEngine_kept {x0 : Nat} {x1 : Nat} {x2 : Nat} {x3 : State} (h3 : Kept q k x3) : Kept q k (noEngine x0 x1 x2 x3) := by
  unfold noEngine
  repeat' (first | with_reducible assumption | (intro) | with_reducible apply finish_kept | with_reducible apply kept_ite | split | dsimp only)

theorem fwCharge_kept {x0 : Nat} {x1 : Nat} {x2 : Nat} {x3 : State} (h3 : Kept q k x3) : Kept q k (fwCharge x0 x1 x2 x3) := by
  unfold fwCharge
  repeat' (first | with_reducible assumption | (intro) | with_reducible apply regAdd_kept | with_reducible apply charge_kept | with_reducible apply kept_ite | split | dsimp only)

end Sys2Proof.Machine
end

