-- ==== Sys2Proof/Laws/KeptTwillEng.lean ====
section
/-!
SUPPORT. What the operations of Machine/TwillEng.lean keep (`Kept`).
-/
namespace Sys2Proof.Machine

set_option linter.all false

variable {q : List Instr} {k : W64}

theorem twcFinish_kept {x0 : Nat} {x1 : EngJob} {x2 : State} (h2 : Kept q k x2) : Kept q k (twcFinish x0 x1 x2) := by
  unfold twcFinish
  repeat' (first | with_reducible assumption | (intro) | with_reducible apply engStop_kept | with_reducible apply regAdd_kept | with_reducible apply spoil_kept | with_reducible apply engOutput_kept | with_reducible apply kept_ite | split | dsimp only)

theorem twdFinish_kept {x0 : Nat} {x1 : EngJob} {x2 : State} (h2 : Kept q k x2) : Kept q k (twdFinish x0 x1 x2) := by
  unfold twdFinish
  repeat' (first | with_reducible assumption | (intro) | with_reducible apply regAdd_kept | with_reducible apply engStop_kept | with_reducible apply spoil_kept | with_reducible apply engOutput_kept | with_reducible apply kept_ite | split | dsimp only)

theorem twFinish_kept {x0 : Nat} {x1 : EngJob} {x2 : State} (h2 : Kept q k x2) : Kept q k (twFinish x0 x1 x2) := by
  unfold twFinish
  repeat' (first | with_reducible assumption | (intro) | with_reducible apply twcFinish_kept | with_reducible apply twdFinish_kept | with_reducible apply kept_ite | split | dsimp only)

theorem execTwillCompress_kept {x0 : Nat} {x1 : State} (h1 : Kept q k x1) : KeptX q k (execTwillCompress x0 x1) := by
  unfold execTwillCompress
  repeat' (first | with_reducible assumption | (intro) | with_reducible apply engAccept_kept | with_reducible apply keptX_next | with_reducible exact keptX_fault | with_reducible apply keptX_ite | with_reducible apply kept_ite | split | dsimp only)

theorem execTwillDecompress_kept {x0 : Nat} {x1 : State} (h1 : Kept q k x1) : KeptX q k (execTwillDecompress x0 x1) := by
  unfold execTwillDecompress
  repeat' (first | with_reducible assumption | (intro) | with_reducible apply engAccept_kept | with_reducible apply keptX_next | with_reducible exact keptX_fault | with_reducible apply keptX_ite | with_reducible apply kept_ite | split | dsimp only)

theorem execTwillVerify_kept {x0 : Nat} {x1 : State} (h1 : Kept q k x1) : KeptX q k (execTwillVerify x0 x1) := by
  unfold execTwillVerify
  repeat' (first | with_reducible assumption | (intro) | with_reducible apply engAccept_kept | with_reducible apply keptX_next | with_reducible exact keptX_fault | with_reducible apply keptX_ite | with_reducible apply kept_ite | split | dsimp only)

theorem execTwillJobEnd_kept {x0 : Nat} {x1 : State} (h1 : Kept q k x1) : KeptX q k (execTwillJobEnd x0 x1) := by
  unfold execTwillJobEnd
  repeat' (first | with_reducible assumption | (intro) | with_reducible apply engEnds_kept | with_reducible apply keptX_next | with_reducible exact keptX_fault | with_reducible apply keptX_ite | with_reducible apply kept_ite | split | dsimp only)

theorem execTwillTailAdvance_kept {x0 : Nat} {x1 : W32} {x2 : State} (h2 : Kept q k x2) : KeptX q k (execTwillTailAdvance x0 x1 x2) := by
  unfold execTwillTailAdvance
  repeat' (first | with_reducible assumption | (intro) | with_reducible apply engRow_kept | with_reducible apply engTail_kept | with_reducible apply keptX_next | with_reducible exact keptX_fault | split | dsimp only)

theorem execTwillStop_kept {x0 : Nat} {x1 : W32} {x2 : State} (h2 : Kept q k x2) : KeptX q k (execTwillStop x0 x1 x2) := by
  unfold execTwillStop
  repeat' (first | with_reducible assumption | (intro) | with_reducible apply engRow_kept | with_reducible apply engCtl_kept | with_reducible apply keptX_next | with_reducible exact keptX_fault | split | dsimp only)

theorem execTwillFlush_kept {x0 : Nat} {x1 : W32} {x2 : State} (h2 : Kept q k x2) : KeptX q k (execTwillFlush x0 x1 x2) := by
  unfold execTwillFlush
  repeat' (first | with_reducible assumption | (intro) | with_reducible apply engRow_kept | with_reducible apply engCtl_kept | with_reducible apply keptX_next | with_reducible exact keptX_fault | split | dsimp only)

end Sys2Proof.Machine
end

