-- ==== Sys2Proof/Laws/KeptDigest.lean ====
section
/-!
SUPPORT. What the operations of Machine/Digest.lean keep (`Kept`).
-/
namespace Sys2Proof.Machine

set_option linter.all false

variable {q : List Instr} {k : W64}

theorem ddTake_kept {x0 : EngJob} {x1 : State} (h1 : Kept q k x1) : Kept q k ((ddTake x0 x1)).2 := by
  unfold ddTake
  repeat' (first | with_reducible assumption | (intro) | split | dsimp only | with_reducible apply kept_digs | (with_reducible refine Tabs.digs (Kept.tabs (q := q) (k := k) ?_)) | with_reducible apply tabUp_tset | with_reducible apply tabUp_filter | with_reducible apply tabUp_map | with_reducible apply tabUp_tmod | with_reducible apply tabUp_foldl | with_reducible apply tabUp_tdel | with_reducible apply tabUp_tput | with_reducible apply tabUp_filterMap | with_reducible exact tabUp_nil | with_reducible apply tabWf_tset | with_reducible apply tabWf_filter | with_reducible apply tabWf_tdel | with_reducible apply tabWf_tsetBytes | with_reducible apply tabWf_foldl | with_reducible exact tabWf_nil | simp only [kept_upd])
theorem ddTake_keptE {x0 : EngJob} {x1 : State} {a : EngJob} {t : State} (e : ddTake x0 x1 = (a, t)) (h1 : Kept q k x1) : Kept q k t := by
  have w := ddTake_kept (q := q) (k := k) (x0 := x0) (x1 := x1) h1
  rw [e] at w; exact w

theorem digPut_kept {x0 : Nat} {x1 : DigCtx} {x2 : Bool} {x3 : State} (h3 : Kept q k x3) : Kept q k (digPut x0 x1 x2 x3) := by
  unfold digPut
  repeat' (first | with_reducible assumption | (intro) | with_reducible apply digRelease_kept | with_reducible apply kept_ite | split | dsimp only | with_reducible apply kept_digs | (with_reducible refine Tabs.digs (Kept.tabs (q := q) (k := k) ?_)) | with_reducible apply tabUp_tset | with_reducible apply tabUp_filter | with_reducible apply tabUp_map | with_reducible apply tabUp_tmod | with_reducible apply tabUp_foldl | with_reducible apply tabUp_tdel | with_reducible apply tabUp_tput | with_reducible apply tabUp_filterMap | with_reducible exact tabUp_nil | with_reducible apply tabWf_tset | with_reducible apply tabWf_filter | with_reducible apply tabWf_tdel | with_reducible apply tabWf_tsetBytes | with_reducible apply tabWf_foldl | with_reducible exact tabWf_nil | simp only [kept_upd])

theorem ddDeliver_kept {x0 : Nat} {x1 : Bytes} {x2 : Bool} {x3 : Bytes} {x4 : State} (h4 : Kept q k x4) : KeptOP q k (ddDeliver x0 x1 x2 x3 x4) := by
  unfold ddDeliver
  repeat' (first | with_reducible assumption | (intro) | with_reducible apply warpMove_kept | with_reducible apply engWrite_kept | (with_reducible refine engWrite_keptE (by assumption) ?_) | with_reducible apply keptO_map | with_reducible apply keptOP_map | with_reducible apply keptO_mapP | with_reducible apply keptOP_mapP | with_reducible apply keptO_mapA | with_reducible apply keptOP_mapA | with_reducible apply keptOP_some | with_reducible exact keptOP_none | with_reducible apply keptOP_ite | with_reducible apply kept_ite | split | dsimp only)
theorem ddDeliver_keptE {x0 : Nat} {x1 : Bytes} {x2 : Bool} {x3 : Bytes} {x4 : State} {a : Bool} {t : State} (e : ddDeliver x0 x1 x2 x3 x4 = some (a, t)) (h4 : Kept q k x4) : Kept q k t := by
  have w := ddDeliver_kept (q := q) (k := k) (x0 := x0) (x1 := x1) (x2 := x2) (x3 := x3) (x4 := x4) h4
  rw [e] at w; exact w

theorem ddFinish_kept {x0 : Nat} {x1 : Nat} {x2 : EngJob} {x3 : DigCtx} {x4 : State} (h4 : Kept q k x4) : Kept q k (ddFinish x0 x1 x2 x3 x4) := by
  unfold ddFinish
  repeat' (first | with_reducible assumption | (intro) | with_reducible apply regAdd_kept | with_reducible apply note_kept | with_reducible apply ddDeliver_kept | (with_reducible refine ddDeliver_keptE (by assumption) ?_) | with_reducible apply engStop_kept | with_reducible apply errResp_kept | with_reducible apply digPut_kept | with_reducible apply kept_ite | simp only [kept_upd] | split | dsimp only)

theorem ddCompare_kept {x0 : Nat} {x1 : Nat} {x2 : EngJob} {x3 : DigCtx} {x4 : State} (h4 : Kept q k x4) : Kept q k (ddCompare x0 x1 x2 x3 x4) := by
  unfold ddCompare
  repeat' (first | with_reducible assumption | (intro) | with_reducible apply engStop_kept | with_reducible apply errResp_kept | with_reducible apply warpMove_kept | with_reducible apply memMet_kept | with_reducible apply digPut_kept | with_reducible apply kept_ite | simp only [kept_upd] | split | dsimp only)

theorem digFinish_kept {x0 : Nat} {x1 : EngJob} {x2 : State} (h2 : Kept q k x2) : Kept q k (digFinish x0 x1 x2) := by
  unfold digFinish
  repeat' (first | with_reducible assumption | (intro) | with_reducible apply illegalDma_kept | with_reducible apply engStop_kept | with_reducible apply note_kept | with_reducible apply regAdd_kept | with_reducible apply digPut_kept | with_reducible apply ddFinish_kept | with_reducible apply ddCompare_kept | with_reducible apply digRelease_kept | with_reducible apply kept_getD | with_reducible apply keptP_getD | with_reducible apply kept_ite | simp only [kept_upd] | split | dsimp only)

theorem digRow_kept {x0 : Nat} {x1 : Nat → Bool} {x2 : Bool} {x3 : State} (h3 : Kept q k x3) : KeptX q k (digRow x0 x1 x2 x3) := by
  unfold digRow
  refine keptX_ite ?_ keptX_fault
  extract_lets a c s1
  refine keptX_next (engAccept_kept ?_)
  exact kept_ite (kept_digs h3 (tabUp_tset h3.tabs.digs)) h3

theorem execDigestInit_kept {x0 : Nat} {x1 : State} (h1 : Kept q k x1) : KeptX q k (execDigestInit x0 x1) := by
  unfold execDigestInit
  repeat' (first | with_reducible assumption | (intro) | with_reducible apply digRow_kept | with_reducible apply keptX_next | with_reducible exact keptX_fault | split | dsimp only)

theorem execDigestUpdate_kept {x0 : Nat} {x1 : Bool} {x2 : State} (h2 : Kept q k x2) : KeptX q k (execDigestUpdate x0 x1 x2) := by
  unfold execDigestUpdate
  repeat' (first | with_reducible assumption | (intro) | with_reducible apply digRow_kept | with_reducible apply keptX_next | with_reducible exact keptX_fault | split | dsimp only)

theorem execDigestFinal_kept {x0 : Nat} {x1 : Bool} {x2 : State} (h2 : Kept q k x2) : KeptX q k (execDigestFinal x0 x1 x2) := by
  unfold execDigestFinal
  repeat' (first | with_reducible assumption | (intro) | with_reducible apply digRow_kept | with_reducible apply keptX_next | with_reducible exact keptX_fault | split | dsimp only)

theorem execDigestOneshot_kept {x0 : Nat} {x1 : State} (h1 : Kept q k x1) : KeptX q k (execDigestOneshot x0 x1) := by
  unfold execDigestOneshot
  repeat' (first | with_reducible assumption | (intro) | with_reducible apply digRow_kept | with_reducible apply keptX_next | with_reducible exact keptX_fault | split | dsimp only)

theorem execDigestCompare_kept {x0 : Nat} {x1 : Bool} {x2 : State} (h2 : Kept q k x2) : KeptX q k (execDigestCompare x0 x1 x2) := by
  unfold execDigestCompare
  repeat' (first | with_reducible assumption | (intro) | with_reducible apply digRow_kept | with_reducible apply keptX_next | with_reducible exact keptX_fault | split | dsimp only)

theorem execDigestRelease_kept {x0 : Nat} {x1 : State} (h1 : Kept q k x1) : KeptX q k (execDigestRelease x0 x1) := by
  unfold execDigestRelease
  repeat' (first | with_reducible assumption | (intro) | with_reducible apply digRow_kept | with_reducible apply keptX_next | with_reducible exact keptX_fault | split | dsimp only)

theorem execDigestJobEnd_kept {x0 : Nat} {x1 : State} (h1 : Kept q k x1) : KeptX q k (execDigestJobEnd x0 x1) := by
  unfold execDigestJobEnd
  repeat' (first | with_reducible assumption | (intro) | with_reducible apply engEnds_kept | with_reducible apply keptX_next | with_reducible exact keptX_fault | with_reducible apply keptX_ite | with_reducible apply kept_ite | split | dsimp only)

theorem execDigTailAdvance_kept {x0 : Nat} {x1 : W32} {x2 : State} (h2 : Kept q k x2) : KeptX q k (execDigTailAdvance x0 x1 x2) := by
  unfold execDigTailAdvance
  repeat' (first | with_reducible assumption | (intro) | with_reducible apply engRow_kept | with_reducible apply engTail_kept | with_reducible apply keptX_next | with_reducible exact keptX_fault | split | dsimp only)

theorem execDigStop_kept {x0 : Nat} {x1 : W32} {x2 : State} (h2 : Kept q k x2) : KeptX q k (execDigStop x0 x1 x2) := by
  unfold execDigStop
  repeat' (first | with_reducible assumption | (intro) | with_reducible apply engRow_kept | with_reducible apply engCtl_kept | with_reducible apply keptX_next | with_reducible exact keptX_fault | split | dsimp only)

theorem execDigFlush_kept {x0 : Nat} {x1 : W32} {x2 : State} (h2 : Kept q k x2) : KeptX q k (execDigFlush x0 x1 x2) := by
  unfold execDigFlush
  repeat' (first | with_reducible assumption | (intro) | with_reducible apply engRow_kept | with_reducible apply engCtl_kept | with_reducible apply keptX_next | with_reducible exact keptX_fault | split | dsimp only)

theorem digReleaseAll_kept {x0 : DigUser → Bool} {x1 : State} (h1 : Kept q k x1) : Kept q k (digReleaseAll x0 x1) := by
  unfold digReleaseAll
  repeat' (first | with_reducible assumption | (intro) | split | dsimp only | with_reducible apply kept_digs | (with_reducible refine Tabs.digs (Kept.tabs (q := q) (k := k) ?_)) | with_reducible apply tabUp_tset | with_reducible apply tabUp_filter | with_reducible apply tabUp_map | with_reducible apply tabUp_tmod | with_reducible apply tabUp_foldl | with_reducible apply tabUp_tdel | with_reducible apply tabUp_tput | with_reducible apply tabUp_filterMap | with_reducible exact tabUp_nil | with_reducible apply tabWf_tset | with_reducible apply tabWf_filter | with_reducible apply tabWf_tdel | with_reducible apply tabWf_tsetBytes | with_reducible apply tabWf_foldl | with_reducible exact tabWf_nil | simp only [kept_upd])

end Sys2Proof.Machine
end

