-- ==== Sys2Proof/Laws/KeptHeddle.lean ====
section
/-!
SUPPORT. What the operations of Machine/Heddle.lean keep (`Kept`).
-/
namespace Sys2Proof.Machine

set_option linter.all false

variable {q : List Instr} {k : W64}

theorem hedPut_kept {x0 : Nat} {x1 : Nat} {x2 : Option Nat} {x3 : State} (h3 : Kept q k x3) : Kept q k (hedPut x0 x1 x2 x3) := by
  unfold hedPut
  repeat' (first | with_reducible assumption | (intro) | with_reducible apply kept_foldl | with_reducible apply kept_foldl2 | split | dsimp only | with_reducible apply kept_hed | (with_reducible refine Tabs.hed (Kept.tabs (q := q) (k := k) ?_)) | with_reducible apply tabUp_tset | with_reducible apply tabUp_filter | with_reducible apply tabUp_map | with_reducible apply tabUp_tmod | with_reducible apply tabUp_foldl | with_reducible apply tabUp_tdel | with_reducible apply tabUp_tput | with_reducible apply tabUp_filterMap | with_reducible exact tabUp_nil | with_reducible apply tabWf_tset | with_reducible apply tabWf_filter | with_reducible apply tabWf_tdel | with_reducible apply tabWf_tsetBytes | with_reducible apply tabWf_foldl | with_reducible exact tabWf_nil | simp only [kept_upd])

theorem hedMove_kept {x0 : Nat} {x1 : Nat} {x2 : Nat} {x3 : State} (h3 : Kept q k x3) : Kept q k (hedMove x0 x1 x2 x3) := by
  unfold hedMove
  repeat' (first | with_reducible assumption | (intro) | with_reducible apply hedPut_kept | with_reducible apply kept_foldl | with_reducible apply kept_foldl2 | with_reducible apply kept_ite | split | dsimp only | with_reducible apply kept_hed | (with_reducible refine Tabs.hed (Kept.tabs (q := q) (k := k) ?_)) | with_reducible apply tabUp_tset | with_reducible apply tabUp_filter | with_reducible apply tabUp_map | with_reducible apply tabUp_tmod | with_reducible apply tabUp_foldl | with_reducible apply tabUp_tdel | with_reducible apply tabUp_tput | with_reducible apply tabUp_filterMap | with_reducible exact tabUp_nil | with_reducible apply tabWf_tset | with_reducible apply tabWf_filter | with_reducible apply tabWf_tdel | with_reducible apply tabWf_tsetBytes | with_reducible apply tabWf_foldl | with_reducible exact tabWf_nil | simp only [kept_upd])

theorem genStep_kept {x0 : Nat} {x1 : Nat} {x2 : State} (h2 : Kept q k x2) : Kept q k (genStep x0 x1 x2) := by
  unfold genStep
  repeat' (first | with_reducible assumption | (intro) | split | dsimp only | with_reducible apply kept_hgrp | (with_reducible refine Tabs.hgrp (Kept.tabs (q := q) (k := k) ?_)) | with_reducible apply tabUp_tset | with_reducible apply tabUp_filter | with_reducible apply tabUp_map | with_reducible apply tabUp_tmod | with_reducible apply tabUp_foldl | with_reducible apply tabUp_tdel | with_reducible apply tabUp_tput | with_reducible apply tabUp_filterMap | with_reducible exact tabUp_nil | with_reducible apply tabWf_tset | with_reducible apply tabWf_filter | with_reducible apply tabWf_tdel | with_reducible apply tabWf_tsetBytes | with_reducible apply tabWf_foldl | with_reducible exact tabWf_nil | simp only [kept_upd])

theorem tileOps_kept {x0 : Nat} {x1 : Nat} {x2 : State} (h2 : Kept q k x2) : Kept q k (tileOps x0 x1 x2) := by
  unfold tileOps
  repeat' (first | with_reducible assumption | (intro) | with_reducible apply regAdd_kept | with_reducible apply kept_foldl | with_reducible apply kept_foldl2 | split | dsimp only)

theorem hedLose_kept {x0 : Nat} {x1 : Nat} {x2 : Nat} {x3 : State} (h3 : Kept q k x3) : Kept q k (hedLose x0 x1 x2 x3) := by
  unfold hedLose
  repeat' (first | with_reducible assumption | (intro) | with_reducible apply note_kept | with_reducible apply regAdd_kept | with_reducible apply regSet_kept | with_reducible apply hedPut_kept | split | dsimp only)

theorem hedCorrect_kept {x0 : Nat} {x1 : State} (h1 : Kept q k x1) : Kept q k (hedCorrect x0 x1) := by
  unfold hedCorrect
  repeat' (first | with_reducible assumption | (intro) | with_reducible apply note_kept | with_reducible apply regAdd_kept | split | dsimp only | with_reducible apply kept_hed | (with_reducible refine Tabs.hed (Kept.tabs (q := q) (k := k) ?_)) | with_reducible apply tabUp_tset | with_reducible apply tabUp_filter | with_reducible apply tabUp_map | with_reducible apply tabUp_tmod | with_reducible apply tabUp_foldl | with_reducible apply tabUp_tdel | with_reducible apply tabUp_tput | with_reducible apply tabUp_filterMap | with_reducible exact tabUp_nil | with_reducible apply tabWf_tset | with_reducible apply tabWf_filter | with_reducible apply tabWf_tdel | with_reducible apply tabWf_tsetBytes | with_reducible apply tabWf_foldl | with_reducible exact tabWf_nil | simp only [kept_upd])

theorem hedLook_kept {x0 : Nat} {x1 : Nat} {x2 : Nat} {x3 : Nat} {x4 : Nat} {x5 : State} (h5 : Kept q k x5) : Kept q k ((hedLook x0 x1 x2 x3 x4 x5)).2 := by
  induction x4 generalizing x5 with
  | zero =>
    unfold hedLook
    repeat' (first | with_reducible assumption | (intro) | with_reducible apply hedLose_kept | with_reducible apply regAdd_kept | with_reducible apply hedCorrect_kept | with_reducible apply kept_foldl | with_reducible apply kept_foldl2 | with_reducible apply kept_getD | with_reducible apply keptP_getD | simp only [kept_upd] | split | dsimp only)
  | succ n ih =>
    unfold hedLook
    repeat' (first | with_reducible assumption | (intro) | with_reducible apply hedLose_kept | with_reducible apply regAdd_kept | with_reducible apply hedCorrect_kept | with_reducible apply kept_foldl | with_reducible apply kept_foldl2 | with_reducible apply kept_getD | with_reducible apply keptP_getD | with_reducible apply ih | simp only [kept_upd] | split | dsimp only)
theorem hedLook_keptE {x0 : Nat} {x1 : Nat} {x2 : Nat} {x3 : Nat} {x4 : Nat} {x5 : State} {a : HedRes} {t : State} (e : hedLook x0 x1 x2 x3 x4 x5 = (a, t)) (h5 : Kept q k x5) : Kept q k t := by
  have w := hedLook_kept (q := q) (k := k) (x0 := x0) (x1 := x1) (x2 := x2) (x3 := x3) (x4 := x4) (x5 := x5) h5
  rw [e] at w; exact w

theorem hedFind_kept {x0 : Nat} {x1 : Nat} {x2 : Nat} {x3 : Nat} {x4 : State} (h4 : Kept q k x4) : Kept q k ((hedFind x0 x1 x2 x3 x4)).2 := by
  unfold hedFind
  repeat' (first | with_reducible assumption | (intro) | with_reducible apply hedLook_kept | (with_reducible refine hedLook_keptE (by assumption) ?_) | with_reducible apply tileOps_kept | with_reducible apply regAdd_kept | split | dsimp only)
theorem hedFind_keptE {x0 : Nat} {x1 : Nat} {x2 : Nat} {x3 : Nat} {x4 : State} {a : HedRes} {t : State} (e : hedFind x0 x1 x2 x3 x4 = (a, t)) (h4 : Kept q k x4) : Kept q k t := by
  have w := hedFind_kept (q := q) (k := k) (x0 := x0) (x1 := x1) (x2 := x2) (x3 := x3) (x4 := x4) h4
  rw [e] at w; exact w

theorem hedSearch_kept {x0 : Nat} {x1 : Nat} {x2 : Nat} {x3 : State} (h3 : Kept q k x3) : Kept q k ((hedSearch x0 x1 x2 x3)).2.2 := by
  unfold hedSearch
  repeat' (first | with_reducible assumption | (intro) | with_reducible apply hedFind_kept | (with_reducible refine hedFind_keptE (by assumption) ?_) | with_reducible apply keptP_ite | with_reducible apply kept_ite | with_reducible apply keptPP_ite | split | dsimp only)
theorem hedSearch_keptE {x0 : Nat} {x1 : Nat} {x2 : Nat} {x3 : State} {a : HedRes} {b : Search} {t : State} (e : hedSearch x0 x1 x2 x3 = (a, b, t)) (h3 : Kept q k x3) : Kept q k t := by
  have w := hedSearch_kept (q := q) (k := k) (x0 := x0) (x1 := x1) (x2 := x2) (x3 := x3) h3
  rw [e] at w; exact w

theorem hedNext_kept {x0 : Search} {x1 : State} (h1 : Kept q k x1) : Kept q k ((hedNext x0 x1)).2.2 := by
  unfold hedNext
  repeat' (first | with_reducible assumption | (intro) | with_reducible apply tileOps_kept | with_reducible apply regAdd_kept | with_reducible apply hedFind_kept | (with_reducible refine hedFind_keptE (by assumption) ?_) | with_reducible apply keptP_ite | with_reducible apply kept_ite | with_reducible apply keptPP_ite | simp only [kept_upd] | split | dsimp only)
theorem hedNext_keptE {x0 : Search} {x1 : State} {a : HedRes} {b : Search} {t : State} (e : hedNext x0 x1 = (a, b, t)) (h1 : Kept q k x1) : Kept q k t := by
  have w := hedNext_kept (q := q) (k := k) (x0 := x0) (x1 := x1) h1
  rw [e] at w; exact w

theorem hedInsert_kept {x0 : Nat} {x1 : Nat} {x2 : Option Nat} {x3 : State} (h3 : Kept q k x3) : Kept q k ((hedInsert x0 x1 x2 x3)).2 := by
  unfold hedInsert
  repeat' (first | with_reducible assumption | (intro) | with_reducible apply tileOps_kept | with_reducible apply regAdd_kept | with_reducible apply genStep_kept | with_reducible apply hedPut_kept | with_reducible apply hedMove_kept | with_reducible apply kept_foldl | with_reducible apply kept_foldl2 | with_reducible apply keptP_ite | with_reducible apply kept_ite | with_reducible apply keptPP_ite | simp only [kept_upd] | split | dsimp only)
theorem hedInsert_keptE {x0 : Nat} {x1 : Nat} {x2 : Option Nat} {x3 : State} {a : HedRes} {t : State} (e : hedInsert x0 x1 x2 x3 = (a, t)) (h3 : Kept q k x3) : Kept q k t := by
  have w := hedInsert_kept (q := q) (k := k) (x0 := x0) (x1 := x1) (x2 := x2) (x3 := x3) h3
  rw [e] at w; exact w

theorem hedDelete_kept {x0 : Nat} {x1 : Nat} {x2 : State} (h2 : Kept q k x2) : Kept q k ((hedDelete x0 x1 x2)).2 := by
  unfold hedDelete
  repeat' (first | with_reducible assumption | (intro) | with_reducible apply genStep_kept | with_reducible apply hedPut_kept | with_reducible apply tileOps_kept | with_reducible apply keptP_ite | with_reducible apply kept_ite | with_reducible apply keptPP_ite | split | dsimp only)
theorem hedDelete_keptE {x0 : Nat} {x1 : Nat} {x2 : State} {a : HedRes} {t : State} (e : hedDelete x0 x1 x2 = (a, t)) (h2 : Kept q k x2) : Kept q k t := by
  have w := hedDelete_kept (q := q) (k := k) (x0 := x0) (x1 := x1) (x2 := x2) h2
  rw [e] at w; exact w

theorem hedClear_kept {x0 : Nat} {x1 : State} (h1 : Kept q k x1) : Kept q k (hedClear x0 x1) := by
  unfold hedClear
  repeat' (first | with_reducible assumption | (intro) | with_reducible apply genStep_kept | split | dsimp only | with_reducible apply kept_hed | (with_reducible refine Tabs.hed (Kept.tabs (q := q) (k := k) ?_)) | with_reducible apply tabUp_tset | with_reducible apply tabUp_filter | with_reducible apply tabUp_map | with_reducible apply tabUp_tmod | with_reducible apply tabUp_foldl | with_reducible apply tabUp_tdel | with_reducible apply tabUp_tput | with_reducible apply tabUp_filterMap | with_reducible exact tabUp_nil | with_reducible apply tabWf_tset | with_reducible apply tabWf_filter | with_reducible apply tabWf_tdel | with_reducible apply tabWf_tsetBytes | with_reducible apply tabWf_foldl | with_reducible exact tabWf_nil | simp only [kept_upd])

theorem hedCompact_kept {x0 : Nat} {x1 : Bool} {x2 : State} (h2 : Kept q k x2) : Kept q k (hedCompact x0 x1 x2) := by
  unfold hedCompact
  repeat' (first | with_reducible assumption | (intro) | with_reducible apply hedMove_kept | with_reducible apply regAdd_kept | with_reducible apply tileOps_kept | with_reducible apply genStep_kept | with_reducible apply kept_foldl | with_reducible apply kept_foldl2 | with_reducible apply kept_ite | split | dsimp only)

theorem grpCfgWrite_kept {x0 : Nat} {x1 : Nat} {x2 : State} (h2 : Kept q k x2) : Kept q k (grpCfgWrite x0 x1 x2) := by
  unfold grpCfgWrite
  repeat' (first | with_reducible assumption | (intro) | with_reducible apply regSet_kept | with_reducible apply note_kept | with_reducible apply hedClear_kept | with_reducible apply kept_ite | split | dsimp only)

theorem grpCtlWrite_kept {x0 : Nat} {x1 : Nat} {x2 : State} (h2 : Kept q k x2) : Kept q k (grpCtlWrite x0 x1 x2) := by
  unfold grpCtlWrite
  extract_lets s1 s2
  have k_s1 : Kept q k s1 := by
    dsimp only [s1]
    repeat' (first | with_reducible assumption | (intro) | with_reducible apply regSetFld_kept | with_reducible apply hedClear_kept | with_reducible apply hedCompact_kept | with_reducible apply kept_ite | split | dsimp only)
  clear_value s1
  have k_s2 : Kept q k s2 := by
    dsimp only [s2]
    repeat' (first | with_reducible assumption | (intro) | with_reducible apply regSetFld_kept | with_reducible apply hedClear_kept | with_reducible apply hedCompact_kept | with_reducible apply kept_ite | split | dsimp only)
  clear_value s2
  repeat' (first | with_reducible assumption | (intro) | with_reducible apply regSetFld_kept | with_reducible apply hedClear_kept | with_reducible apply hedCompact_kept | with_reducible apply kept_ite | split | dsimp only)

theorem grpRow_kept {x0 : Nat} {x1 : State → State} {x2 : State} (h1 : ∀ y0, Kept q k y0 → Kept q k (x1 y0)) (h2 : Kept q k x2) : KeptX q k (grpRow x0 x1 x2) := by
  unfold grpRow
  repeat' (first | with_reducible assumption | (intro) | with_reducible apply h1 | with_reducible apply keptX_next | with_reducible exact keptX_fault | with_reducible apply keptX_ite | with_reducible apply kept_ite | split | dsimp only)

theorem execHedGroupCfgWrite_kept {x0 : Nat} {x1 : W32} {x2 : State} (h2 : Kept q k x2) : KeptX q k (execHedGroupCfgWrite x0 x1 x2) := by
  unfold execHedGroupCfgWrite
  repeat' (first | with_reducible assumption | (intro) | with_reducible apply grpRow_kept | with_reducible apply grpCfgWrite_kept | with_reducible apply keptX_next | with_reducible exact keptX_fault | split | dsimp only)

theorem execHedCompactPack_kept {x0 : Nat} {x1 : State} (h1 : Kept q k x1) : KeptX q k (execHedCompactPack x0 x1) := by
  unfold execHedCompactPack
  repeat' (first | with_reducible assumption | (intro) | with_reducible apply grpRow_kept | with_reducible apply grpCtlWrite_kept | with_reducible apply keptX_next | with_reducible exact keptX_fault | split | dsimp only)

theorem execHedCompactSpread_kept {x0 : Nat} {x1 : State} (h1 : Kept q k x1) : KeptX q k (execHedCompactSpread x0 x1) := by
  unfold execHedCompactSpread
  repeat' (first | with_reducible assumption | (intro) | with_reducible apply grpRow_kept | with_reducible apply grpCtlWrite_kept | with_reducible apply keptX_next | with_reducible exact keptX_fault | split | dsimp only)

theorem execHedGroupClear_kept {x0 : Nat} {x1 : State} (h1 : Kept q k x1) : KeptX q k (execHedGroupClear x0 x1) := by
  unfold execHedGroupClear
  repeat' (first | with_reducible assumption | (intro) | with_reducible apply grpRow_kept | with_reducible apply grpCtlWrite_kept | with_reducible apply keptX_next | with_reducible exact keptX_fault | split | dsimp only)

theorem execHeddleCheck_kept {x0 : Nat} {x1 : Nat} {x2 : Nat} {x3 : State} (h3 : Kept q k x3) : KeptX q k (execHeddleCheck x0 x1 x2 x3) := by
  unfold execHeddleCheck
  repeat' (first | with_reducible assumption | (intro) | with_reducible apply hedCorrect_kept | with_reducible apply note_kept | with_reducible apply regAdd_kept | with_reducible apply hedLose_kept | with_reducible apply keptX_next | with_reducible exact keptX_fault | with_reducible apply keptX_ite | with_reducible apply kept_ite | split | dsimp only | with_reducible apply kept_hed | (with_reducible refine Tabs.hed (Kept.tabs (q := q) (k := k) ?_)) | with_reducible apply tabUp_tset | with_reducible apply tabUp_filter | with_reducible apply tabUp_map | with_reducible apply tabUp_tmod | with_reducible apply tabUp_foldl | with_reducible apply tabUp_tdel | with_reducible apply tabUp_tput | with_reducible apply tabUp_filterMap | with_reducible exact tabUp_nil | with_reducible apply tabWf_tset | with_reducible apply tabWf_filter | with_reducible apply tabWf_tdel | with_reducible apply tabWf_tsetBytes | with_reducible apply tabWf_foldl | with_reducible exact tabWf_nil | simp only [kept_upd])

end Sys2Proof.Machine
end

