-- ==== Sys2Proof/Laws/KeptScan.lean ====
section
/-!
SUPPORT. What the operations of Machine/Scan.lean keep (`Kept`).
-/
namespace Sys2Proof.Machine

set_option linter.all false

variable {q : List Instr} {k : W64}

theorem scRecord_kept {x0 : Bytes} {x1 : Nat} {x2 : Nat} {x3 : Bytes} {x4 : ScOut × State} (h4 : Kept q k x4.2) : Kept q k ((scRecord x0 x1 x2 x3 x4)).2 := by
  unfold scRecord
  repeat' (first | with_reducible assumption | (intro) | with_reducible apply hedSearch_kept | (with_reducible refine hedSearch_keptE (by assumption) ?_) | with_reducible apply kept_foldl | with_reducible apply kept_foldl2 | with_reducible apply keptP_ite | with_reducible apply kept_ite | with_reducible apply keptPP_ite | simp only [kept_upd] | split | dsimp only)
theorem scRecord_keptE {x0 : Bytes} {x1 : Nat} {x2 : Nat} {x3 : Bytes} {x4 : ScOut × State} {a : ScOut} {t : State} (e : scRecord x0 x1 x2 x3 x4 = (a, t)) (h4 : Kept q k x4.2) : Kept q k t := by
  have w := scRecord_kept (q := q) (k := k) (x0 := x0) (x1 := x1) (x2 := x2) (x3 := x3) (x4 := x4) h4
  rw [e] at w; exact w

theorem scRun_kept {x0 : Bytes} {x1 : Nat} {x2 : Nat} {x3 : Nat} {x4 : Bytes} {x5 : State} (h5 : Kept q k x5) : Kept q k ((scRun x0 x1 x2 x3 x4 x5)).2.2.2.2 := by
  unfold scRun
  repeat' (first | with_reducible assumption | (intro) | with_reducible apply scRecord_kept | (with_reducible refine scRecord_keptE (by assumption) ?_) | with_reducible apply kept_foldl | with_reducible apply kept_foldl2 | with_reducible apply keptP_ite | with_reducible apply kept_ite | with_reducible apply keptPP_ite | split | dsimp only)
theorem scRun_keptE {x0 : Bytes} {x1 : Nat} {x2 : Nat} {x3 : Nat} {x4 : Bytes} {x5 : State} {a : Bytes} {b : ScOut} {c : Nat} {d : Bool} {t : State} (e : scRun x0 x1 x2 x3 x4 x5 = (a, b, c, d, t)) (h5 : Kept q k x5) : Kept q k t := by
  have w := scRun_kept (q := q) (k := k) (x0 := x0) (x1 := x1) (x2 := x2) (x3 := x3) (x4 := x4) (x5 := x5) h5
  rw [e] at w; exact w

theorem sjWork_kept {x0 : Nat} {x1 : EngJob} {x2 : State} (h2 : Kept q k x2) : Kept q k ((sjWork x0 x1 x2)).2 := by
  unfold sjWork
  repeat' (first | with_reducible assumption | (intro) | with_reducible apply scRecord_kept | (with_reducible refine scRecord_keptE (by assumption) ?_) | with_reducible apply regAdd_kept | with_reducible apply kept_foldl | with_reducible apply kept_foldl2 | with_reducible apply kept_getD | with_reducible apply keptP_getD | with_reducible apply keptP_ite | with_reducible apply kept_ite | with_reducible apply keptPP_ite | simp only [kept_upd] | split | dsimp only)
theorem sjWork_keptE {x0 : Nat} {x1 : EngJob} {x2 : State} {a : EngJob} {t : State} (e : sjWork x0 x1 x2 = (a, t)) (h2 : Kept q k x2) : Kept q k t := by
  have w := sjWork_kept (q := q) (k := k) (x0 := x0) (x1 := x1) (x2 := x2) h2
  rw [e] at w; exact w

theorem sjFinish_kept {x0 : Nat} {x1 : EngJob} {x2 : State} (h2 : Kept q k x2) : Kept q k (sjFinish x0 x1 x2) := by
  unfold sjFinish
  repeat' (first | with_reducible assumption | (intro) | with_reducible apply engStop_kept | with_reducible apply spoil_kept | with_reducible apply engOutput_kept | with_reducible apply kept_getD | with_reducible apply keptP_getD | with_reducible apply kept_ite | split | dsimp only)

theorem execScanJob_kept {x0 : Nat} {x1 : State} (h1 : Kept q k x1) : KeptX q k (execScanJob x0 x1) := by
  unfold execScanJob
  repeat' (first | with_reducible assumption | (intro) | with_reducible apply engAccept_kept | with_reducible apply keptX_next | with_reducible exact keptX_fault | with_reducible apply keptX_ite | with_reducible apply kept_ite | split | dsimp only)

theorem execScanJobEnd_kept {x0 : Nat} {x1 : State} (h1 : Kept q k x1) : KeptX q k (execScanJobEnd x0 x1) := by
  unfold execScanJobEnd
  repeat' (first | with_reducible assumption | (intro) | with_reducible apply engEnds_kept | with_reducible apply keptX_next | with_reducible exact keptX_fault | with_reducible apply keptX_ite | with_reducible apply kept_ite | split | dsimp only)

theorem execScnTailAdvance_kept {x0 : Nat} {x1 : W32} {x2 : State} (h2 : Kept q k x2) : KeptX q k (execScnTailAdvance x0 x1 x2) := by
  unfold execScnTailAdvance
  repeat' (first | with_reducible assumption | (intro) | with_reducible apply engRow_kept | with_reducible apply engTail_kept | with_reducible apply keptX_next | with_reducible exact keptX_fault | split | dsimp only)

theorem execScnStop_kept {x0 : Nat} {x1 : W32} {x2 : State} (h2 : Kept q k x2) : KeptX q k (execScnStop x0 x1 x2) := by
  unfold execScnStop
  repeat' (first | with_reducible assumption | (intro) | with_reducible apply engRow_kept | with_reducible apply engCtl_kept | with_reducible apply keptX_next | with_reducible exact keptX_fault | split | dsimp only)

theorem execScnFlush_kept {x0 : Nat} {x1 : W32} {x2 : State} (h2 : Kept q k x2) : KeptX q k (execScnFlush x0 x1 x2) := by
  unfold execScnFlush
  repeat' (first | with_reducible assumption | (intro) | with_reducible apply engRow_kept | with_reducible apply engCtl_kept | with_reducible apply keptX_next | with_reducible exact keptX_fault | split | dsimp only)

end Sys2Proof.Machine
end

