-- ==== Sys2Proof/Laws/KeptIo.lean ====
section
/-!
SUPPORT. What the operations of Machine/Io.lean keep (`Kept`).
-/
namespace Sys2Proof.Machine

set_option linter.all false

variable {q : List Instr} {k : W64}

theorem sendGranules_kept {x0 : Ctx} {x1 : Nat} {x2 : List Granule} {x3 : State} (h3 : Kept q k x3) : Kept q k (sendGranules x0 x1 x2 x3) := by
  unfold sendGranules
  repeat' (first | with_reducible assumption | (intro) | with_reducible apply sendData_kept | with_reducible apply kept_foldl | with_reducible apply kept_foldl2 | split | dsimp only)

theorem countRead_kept {x0 : Nat} {x1 : Nat} {x2 : State} (h2 : Kept q k x2) : Kept q k (countRead x0 x1 x2) := by
  unfold countRead
  repeat' (first | with_reducible assumption | (intro) | with_reducible apply fnMod_kept | simp only [kept_upd] | split | dsimp only)

theorem readCmd_kept {x0 : Nat} {x1 : State} (h1 : Kept q k x1) : Kept q k (readCmd x0 x1) := by
  unfold readCmd
  repeat' (first | with_reducible assumption | (intro) | with_reducible apply ioGate_kept | (with_reducible refine ioGate_keptE (by assumption) ?_) | with_reducible apply finish_kept | with_reducible apply bufferOf_kept | (with_reducible refine bufferOf_keptE (by assumption) ?_) | with_reducible apply gather_kept | (with_reducible refine gather_keptE (by assumption) ?_) | with_reducible apply countRead_kept | with_reducible apply sendGranules_kept | with_reducible apply endFailed_kept | with_reducible apply kept_ite | simp only [kept_upd] | split | dsimp only)

theorem execRead_kept {x0 : Nat} {x1 : State} (h1 : Kept q k x1) : KeptX q k (execRead x0 x1) := by
  unfold execRead
  repeat' (first | with_reducible assumption | (intro) | with_reducible apply readCmd_kept | with_reducible apply keptX_next | with_reducible exact keptX_fault | with_reducible apply keptX_ite | with_reducible apply kept_ite | split | dsimp only)

theorem writeCmd_kept {x0 : Nat} {x1 : State} (h1 : Kept q k x1) : Kept q k (writeCmd x0 x1) := by
  unfold writeCmd
  repeat' (first | with_reducible assumption | (intro) | with_reducible apply ioGate_kept | (with_reducible refine ioGate_keptE (by assumption) ?_) | with_reducible apply finish_kept | with_reducible apply hostData_kept | (with_reducible refine hostData_keptE (by assumption) ?_) | with_reducible apply setPlan_kept | with_reducible apply kept_ite | simp only [kept_upd] | split | dsimp only)

theorem execWrite_kept {x0 : Nat} {x1 : State} (h1 : Kept q k x1) : KeptX q k (execWrite x0 x1) := by
  unfold execWrite
  repeat' (first | with_reducible assumption | (intro) | with_reducible apply writeCmd_kept | with_reducible apply keptX_next | with_reducible exact keptX_fault | with_reducible apply keptX_ite | with_reducible apply kept_ite | split | dsimp only)

theorem execFlush_kept {x0 : Nat} {x1 : State} (h1 : Kept q k x1) : KeptX q k (execFlush x0 x1) := by
  unfold execFlush
  repeat' (first | with_reducible assumption | (intro) | with_reducible apply finish_kept | with_reducible apply keptX_next | with_reducible exact keptX_fault | with_reducible apply keptX_ite | with_reducible apply kept_ite | split | dsimp only)

theorem openExtents_kept {x0 : Nat} {x1 : List (Nat × Nat)} {x2 : List (Nat × Nat)} {x3 : State} (h3 : Kept q k x3) : Kept q k (openExtents x0 x1 x2 x3) := by
  unfold openExtents
  repeat' (first | with_reducible assumption | (intro) | with_reducible apply guardTake_kept | with_reducible apply kept_ite | simp only [kept_upd] | split | dsimp only)

theorem dsmCmd_kept {x0 : Nat} {x1 : State} (h1 : Kept q k x1) : Kept q k (dsmCmd x0 x1) := by
  unfold dsmCmd
  repeat' (first | with_reducible assumption | (intro) | with_reducible apply ioGate_kept | (with_reducible refine ioGate_keptE (by assumption) ?_) | with_reducible apply finish_kept | with_reducible apply hostData_kept | (with_reducible refine hostData_keptE (by assumption) ?_) | with_reducible apply openExtents_kept | with_reducible apply setPlan_kept | with_reducible apply kept_ite | simp only [kept_upd] | split | dsimp only)

theorem execDatasetManagement_kept {x0 : Nat} {x1 : State} (h1 : Kept q k x1) : KeptX q k (execDatasetManagement x0 x1) := by
  unfold execDatasetManagement
  repeat' (first | with_reducible assumption | (intro) | with_reducible apply dsmCmd_kept | with_reducible apply keptX_next | with_reducible exact keptX_fault | with_reducible apply keptX_ite | with_reducible apply kept_ite | split | dsimp only)

theorem compressWrite_kept {x0 : Nat} {x1 : State} (h1 : Kept q k x1) : Kept q k (compressWrite x0 x1) := by
  unfold compressWrite
  repeat' (first | with_reducible assumption | (intro) | with_reducible apply ioGate_kept | (with_reducible refine ioGate_keptE (by assumption) ?_) | with_reducible apply finish_kept | with_reducible apply noEngine_kept | with_reducible apply hostData_kept | (with_reducible refine hostData_keptE (by assumption) ?_) | with_reducible apply regAdd_kept | with_reducible apply fwCharge_kept | with_reducible apply ctxMod_kept | with_reducible apply setPlan_kept | with_reducible apply kept_ite | simp only [kept_upd] | split | dsimp only)

theorem execCompressWrite_kept {x0 : Nat} {x1 : State} (h1 : Kept q k x1) : KeptX q k (execCompressWrite x0 x1) := by
  unfold execCompressWrite
  repeat' (first | with_reducible assumption | (intro) | with_reducible apply compressWrite_kept | with_reducible apply keptX_next | with_reducible exact keptX_fault | with_reducible apply keptX_ite | with_reducible apply kept_ite | split | dsimp only)

theorem twdCount_kept {x0 : Nat} {x1 : Nat} {x2 : Nat} {x3 : Nat} {x4 : TwOut} {x5 : State} (h5 : Kept q k x5) : Kept q k (twdCount x0 x1 x2 x3 x4 x5) := by
  unfold twdCount
  extract_lets s1 s2
  have k_s1 : Kept q k s1 := by
    dsimp only [s1]
    repeat' (first | with_reducible assumption | (intro) | with_reducible apply regAdd_kept | with_reducible apply fwCharge_kept | with_reducible apply endEvent_kept | with_reducible apply kept_ite | split | dsimp only)
  clear_value s1
  have k_s2 : Kept q k s2 := by
    dsimp only [s2]
    repeat' (first | with_reducible assumption | (intro) | with_reducible apply regAdd_kept | with_reducible apply fwCharge_kept | with_reducible apply endEvent_kept | with_reducible apply kept_ite | split | dsimp only)
  clear_value s2
  repeat' (first | with_reducible assumption | (intro) | with_reducible apply regAdd_kept | with_reducible apply fwCharge_kept | with_reducible apply endEvent_kept | with_reducible apply kept_ite | split | dsimp only)

theorem bufferUnless_kept {x0 : Bool} {x1 : Nat} {x2 : Nat} {x3 : State} (h3 : Kept q k x3) : Kept q k ((bufferUnless x0 x1 x2 x3)).2 := by
  unfold bufferUnless
  repeat' (first | with_reducible assumption | (intro) | with_reducible apply bufferOf_kept | (with_reducible refine bufferOf_keptE (by assumption) ?_) | with_reducible apply keptP_ite | with_reducible apply kept_ite | with_reducible apply keptPP_ite | split | dsimp only)
theorem bufferUnless_keptE {x0 : Bool} {x1 : Nat} {x2 : Nat} {x3 : State} {a : Option (List (Nat × Nat))} {t : State} (e : bufferUnless x0 x1 x2 x3 = (a, t)) (h3 : Kept q k x3) : Kept q k t := by
  have w := bufferUnless_kept (q := q) (k := k) (x0 := x0) (x1 := x1) (x2 := x2) (x3 := x3) h3
  rw [e] at w; exact w

theorem decompressRead_kept {x0 : Nat} {x1 : State} (h1 : Kept q k x1) : Kept q k (decompressRead x0 x1) := by
  unfold decompressRead
  repeat' (first | with_reducible assumption | (intro) | with_reducible apply ioGate_kept | (with_reducible refine ioGate_keptE (by assumption) ?_) | with_reducible apply finish_kept | with_reducible apply bufferUnless_kept | (with_reducible refine bufferUnless_keptE (by assumption) ?_) | with_reducible apply noEngine_kept | with_reducible apply gather_kept | (with_reducible refine gather_keptE (by assumption) ?_) | with_reducible apply endFailed_kept | with_reducible apply twdCount_kept | with_reducible apply draw_kept | (with_reducible refine draw_keptE (by assumption) ?_) | with_reducible apply freeBytes_kept | (with_reducible refine freeBytes_keptE (by assumption) ?_) | with_reducible apply sendData_kept | with_reducible apply regAdd_kept | with_reducible apply finishDw_kept | with_reducible apply countRead_kept | with_reducible apply kept_ite | simp only [kept_upd] | split | dsimp only)

theorem execDecompressRead_kept {x0 : Nat} {x1 : State} (h1 : Kept q k x1) : KeptX q k (execDecompressRead x0 x1) := by
  unfold execDecompressRead
  repeat' (first | with_reducible assumption | (intro) | with_reducible apply decompressRead_kept | with_reducible apply keptX_next | with_reducible exact keptX_fault | with_reducible apply keptX_ite | with_reducible apply kept_ite | split | dsimp only)

theorem digestReadCmd_kept {x0 : Nat} {x1 : State} (h1 : Kept q k x1) : Kept q k (digestReadCmd x0 x1) := by
  unfold digestReadCmd
  repeat' (first | with_reducible assumption | (intro) | with_reducible apply ioGate_kept | (with_reducible refine ioGate_keptE (by assumption) ?_) | with_reducible apply finish_kept | with_reducible apply bufferOf_kept | (with_reducible refine bufferOf_keptE (by assumption) ?_) | with_reducible apply noEngine_kept | with_reducible apply gather_kept | (with_reducible refine gather_keptE (by assumption) ?_) | with_reducible apply endFailed_kept | with_reducible apply countRead_kept | with_reducible apply sendData_kept | with_reducible apply regAdd_kept | with_reducible apply fwCharge_kept | with_reducible apply kept_ite | simp only [kept_upd] | split | dsimp only)

theorem execDigestRead_kept {x0 : Nat} {x1 : State} (h1 : Kept q k x1) : KeptX q k (execDigestRead x0 x1) := by
  unfold execDigestRead
  repeat' (first | with_reducible assumption | (intro) | with_reducible apply digestReadCmd_kept | with_reducible apply keptX_next | with_reducible exact keptX_fault | with_reducible apply keptX_ite | with_reducible apply kept_ite | split | dsimp only)

theorem srDeliver_kept {x0 : Ctx} {x1 : Bytes} {x2 : State} (h2 : Kept q k x2) : Kept q k (srDeliver x0 x1 x2) := by
  unfold srDeliver
  repeat' (first | with_reducible assumption | (intro) | with_reducible apply spaceWrite_kept | (with_reducible refine spaceWrite_keptE (by assumption) ?_) | with_reducible apply sendData_kept | with_reducible apply kept_getD | with_reducible apply keptP_getD | with_reducible apply kept_ite | split | dsimp only)

theorem scanRun_kept {x0 : Nat} {x1 : Nat} {x2 : List Granule} {x3 : State} (h3 : Kept q k x3) : Kept q k (scanRun x0 x1 x2 x3) := by
  unfold scanRun
  repeat' (first | with_reducible assumption | (intro) | with_reducible apply twdCount_kept | with_reducible apply finish_kept | with_reducible apply scRun_kept | (with_reducible refine scRun_keptE (by assumption) ?_) | with_reducible apply regAdd_kept | with_reducible apply fwCharge_kept | with_reducible apply finishDw_kept | with_reducible apply freeBytes_kept | (with_reducible refine freeBytes_keptE (by assumption) ?_) | with_reducible apply srDeliver_kept | with_reducible apply countRead_kept | with_reducible apply kept_ite | simp only [kept_upd] | split | dsimp only)

theorem scanReadCmd_kept {x0 : Nat} {x1 : State} (h1 : Kept q k x1) : Kept q k (scanReadCmd x0 x1) := by
  unfold scanReadCmd
  repeat' (first | with_reducible assumption | (intro) | with_reducible apply ioGate_kept | (with_reducible refine ioGate_keptE (by assumption) ?_) | with_reducible apply finish_kept | with_reducible apply noEngine_kept | with_reducible apply bufferUnless_kept | (with_reducible refine bufferUnless_keptE (by assumption) ?_) | with_reducible apply askHost_kept | with_reducible apply gather_kept | (with_reducible refine gather_keptE (by assumption) ?_) | with_reducible apply endFailed_kept | with_reducible apply scanRun_kept | with_reducible apply kept_ite | simp only [kept_upd] | split | dsimp only)

theorem execScanRead_kept {x0 : Nat} {x1 : State} (h1 : Kept q k x1) : KeptX q k (execScanRead x0 x1) := by
  unfold execScanRead
  repeat' (first | with_reducible assumption | (intro) | with_reducible apply scanReadCmd_kept | with_reducible apply keptX_next | with_reducible exact keptX_fault | with_reducible apply keptX_ite | with_reducible apply kept_ite | split | dsimp only)

end Sys2Proof.Machine
end

