-- ==== Sys2Proof/Laws/KeptAuth.lean ====
section
/-!
SUPPORT. What the operations of Machine/Auth.lean keep (`Kept`).
-/
namespace Sys2Proof.Machine

set_option linter.all false

variable {q : List Instr} {k : W64}

theorem armCmd_kept {x0 : Nat} {x1 : State} (h1 : Kept q k x1) : Kept q k (armCmd x0 x1) := by
  unfold armCmd
  repeat' (first | with_reducible assumption | (intro) | with_reducible apply finish_kept | with_reducible apply keyRetire_kept | with_reducible apply regAdd_kept | with_reducible apply fnMod_kept | with_reducible apply armDrop_kept | with_reducible apply kept_ite | simp only [kept_upd] | split | dsimp only)

theorem execArm_kept {x0 : Nat} {x1 : State} (h1 : Kept q k x1) : KeptX q k (execArm x0 x1) := by
  unfold execArm
  repeat' (first | with_reducible assumption | (intro) | with_reducible apply armCmd_kept | with_reducible apply keptX_next | with_reducible exact keptX_fault | with_reducible apply keptX_ite | with_reducible apply kept_ite | split | dsimp only)

theorem klGate_kept {x0 : Nat} {x1 : State} (h1 : Kept q k x1) : KeptB q k (klGate x0 x1) := by
  unfold klGate
  repeat' (first | with_reducible assumption | (intro) | with_reducible apply critGate_kept | (with_reducible refine critGate_keptE (by assumption) ?_) | with_reducible apply armDrop_kept | with_reducible apply keptB_some | with_reducible apply keptB_none | with_reducible apply keptB_mk | with_reducible apply keptO_some | with_reducible exact keptO_none | with_reducible apply keptB_ite | with_reducible apply kept_ite | split | dsimp only)
theorem klGate_keptE {x0 : Nat} {x1 : State} {a : _} {t : State} (e : klGate x0 x1 = (some a, t)) (h1 : Kept q k x1) : Kept q k a := by
  have w := klGate_kept (q := q) (k := k) (x0 := x0) (x1 := x1) h1
  rw [e] at w; exact w.1
theorem klGate_keptE2 {x0 : Nat} {x1 : State} {o : _} {t : State} (e : klGate x0 x1 = (o, t)) (h1 : Kept q k x1) : Kept q k t := by
  have w := klGate_kept (q := q) (k := k) (x0 := x0) (x1 := x1) h1
  rw [e] at w; exact w.2
theorem klGate_kept1 {x0 : Nat} {x1 : State} (h1 : Kept q k x1) : KeptO q k (klGate x0 x1).1 := (klGate_kept (q := q) (k := k) (x0 := x0) (x1 := x1) h1).1
theorem klGate_kept2 {x0 : Nat} {x1 : State} (h1 : Kept q k x1) : Kept q k (klGate x0 x1).2 := (klGate_kept (q := q) (k := k) (x0 := x0) (x1 := x1) h1).2

theorem keyCmd_kept {x0 : Nat} {x1 : State → State} {x2 : State} (h1 : ∀ y0, Kept q k y0 → Kept q k (x1 y0)) (h2 : Kept q k x2) : Kept q k (keyCmd x0 x1 x2) := by
  unfold keyCmd
  repeat' (first | with_reducible assumption | (intro) | with_reducible apply h1 | with_reducible apply finish_kept | with_reducible apply klGate_kept | with_reducible apply klGate_kept1 | with_reducible apply klGate_kept2 | (with_reducible refine klGate_keptE (by assumption) ?_) | (with_reducible refine klGate_keptE2 (by assumption) ?_) | with_reducible apply kept_ite | simp only [kept_upd] | split | dsimp only)

theorem keyReplace_kept {x0 : Nat} {x1 : Nat} {x2 : Nat} {x3 : State} (h3 : Kept q k x3) : Kept q k (keyReplace x0 x1 x2 x3) := by
  unfold keyReplace
  repeat' (first | with_reducible assumption | (intro) | with_reducible apply keyPut_kept | with_reducible apply kept_foldl | with_reducible apply kept_foldl2 | with_reducible apply kept_ite | split | dsimp only)

theorem keyLoadAct_kept {x0 : Nat} {x1 : State} (h1 : Kept q k x1) : Kept q k (keyLoadAct x0 x1) := by
  unfold keyLoadAct
  repeat' (first | with_reducible assumption | (intro) | with_reducible apply hostData_kept | (with_reducible refine hostData_keptE (by assumption) ?_) | with_reducible apply finish_kept | with_reducible apply finishDw_kept | with_reducible apply note_kept | with_reducible apply keyReplace_kept | with_reducible apply keyRecord_kept | with_reducible apply keyPut_kept | with_reducible apply kept_ite | simp only [kept_upd] | split | dsimp only)

theorem execKeyLoad_kept {x0 : Nat} {x1 : State} (h1 : Kept q k x1) : KeptX q k (execKeyLoad x0 x1) := by
  unfold execKeyLoad
  repeat' (first | with_reducible assumption | (intro) | with_reducible apply keyCmd_kept | with_reducible apply keyLoadAct_kept | with_reducible apply keptX_next | with_reducible exact keptX_fault | with_reducible apply keptX_ite | with_reducible apply kept_ite | split | dsimp only)

theorem keyEraseAct_kept {x0 : Nat} {x1 : State} (h1 : Kept q k x1) : Kept q k (keyEraseAct x0 x1) := by
  unfold keyEraseAct
  repeat' (first | with_reducible assumption | (intro) | with_reducible apply note_kept | with_reducible apply keyRecord_kept | with_reducible apply keyPut_kept | with_reducible apply finishDw_kept | with_reducible apply kept_ite | split | dsimp only)

theorem execKeyErase_kept {x0 : Nat} {x1 : State} (h1 : Kept q k x1) : KeptX q k (execKeyErase x0 x1) := by
  unfold execKeyErase
  repeat' (first | with_reducible assumption | (intro) | with_reducible apply keyCmd_kept | with_reducible apply keyEraseAct_kept | with_reducible apply keptX_next | with_reducible exact keptX_fault | with_reducible apply keptX_ite | with_reducible apply kept_ite | split | dsimp only)

end Sys2Proof.Machine
end

