-- ==== Sys2Proof/Laws/KeptQueue.lean ====
section
/-!
SUPPORT. What the operations of Machine/Queue.lean keep (`Kept`).
-/
namespace Sys2Proof.Machine

set_option linter.all false

variable {q : List Instr} {k : W64}

theorem wake_kept {x0 : State} (h0 : Kept q k x0) : Kept q k (wake x0) := by
  unfold wake
  repeat' (first | with_reducible assumption | (intro) | with_reducible apply kept_ite | simp only [kept_upd] | split | dsimp only)

theorem wakeEnd_kept {x0 : State} (h0 : Kept q k x0) : Kept q k (wakeEnd x0) := by
  unfold wakeEnd
  repeat' (first | with_reducible assumption | (intro) | with_reducible apply regAdd_kept | with_reducible apply kept_ite | simp only [kept_upd] | split | dsimp only)

theorem errorEvent_kept {x0 : Nat} {x1 : Nat} {x2 : State} (h2 : Kept q k x2) : Kept q k (errorEvent x0 x1 x2) := by
  unfold errorEvent
  repeat' (first | with_reducible assumption | (intro) | with_reducible apply postAev_kept | with_reducible apply kept_ite | split | dsimp only)

theorem doorbell_kept {x0 : Nat} {x1 : Nat} {x2 : Bool} {x3 : Nat} {x4 : State} (h4 : Kept q k x4) : Kept q k (doorbell x0 x1 x2 x3 x4) := by
  unfold doorbell
  repeat' (first | with_reducible assumption | (intro) | with_reducible apply wake_kept | with_reducible apply errorEvent_kept | with_reducible apply fnMod_kept | with_reducible apply drainCpl_kept | with_reducible apply kept_ite | simp only [kept_upd] | split | dsimp only)

theorem execDoorbellWrite_kept {x0 : Nat} {x1 : Nat} {x2 : Bool} {x3 : Nat} {x4 : State} (h4 : Kept q k x4) : KeptX q k (execDoorbellWrite x0 x1 x2 x3 x4) := by
  unfold execDoorbellWrite
  repeat' (first | with_reducible assumption | (intro) | with_reducible apply doorbell_kept | with_reducible apply keptX_next | with_reducible exact keptX_fault | with_reducible apply keptX_ite | with_reducible apply kept_ite | split | dsimp only)

theorem takeSeq_kept {x0 : Nat} {x1 : State} (h1 : Kept q k x1) : Kept q k ((takeSeq x0 x1)).2 := by
  unfold takeSeq
  repeat' (first | with_reducible assumption | (intro) | with_reducible apply jCtrl_kept | with_reducible apply nsSet_kept | with_reducible apply keptP_ite | with_reducible apply kept_ite | with_reducible apply keptPP_ite | simp only [kept_upd] | split | dsimp only)
theorem takeSeq_keptE {x0 : Nat} {x1 : State} {a : Nat} {t : State} (e : takeSeq x0 x1 = (a, t)) (h1 : Kept q k x1) : Kept q k t := by
  have w := takeSeq_kept (q := q) (k := k) (x0 := x0) (x1 := x1) h1
  rw [e] at w; exact w

theorem seat_kept {x0 : Nat} {x1 : State} (h1 : Kept q k x1) : Kept q k (seat x0 x1) := by
  unfold seat
  repeat' (first | with_reducible assumption | (intro) | with_reducible apply finish_kept | with_reducible apply takeSeq_kept | (with_reducible refine takeSeq_keptE (by assumption) ?_) | with_reducible apply ctxSet_kept | with_reducible apply guardTake_kept | with_reducible apply kept_ite | simp only [kept_upd] | split | dsimp only)

theorem fetchOne_kept {x0 : Nat} {x1 : Nat} {x2 : Nat} {x3 : Sqe} {x4 : State} (h4 : Kept q k x4) : Kept q k (fetchOne x0 x1 x2 x3 x4) := by
  unfold fetchOne
  extract_lets x y o ctx s1 _ s2
  have k_s1 : Kept q k s1 := by
    dsimp only [s1]
    repeat' (first | with_reducible assumption | (intro) | with_reducible apply fnSet_kept | with_reducible apply regAdd_kept | with_reducible apply hostReadCharge_kept | with_reducible apply seat_kept | with_reducible apply armDrop_kept | with_reducible apply kept_ite | simp only [kept_upd] | split | dsimp only)
  clear_value s1
  have k_s2 : Kept q k s2 := by
    dsimp only [s2]
    repeat' (first | with_reducible assumption | (intro) | with_reducible apply fnSet_kept | with_reducible apply regAdd_kept | with_reducible apply hostReadCharge_kept | with_reducible apply seat_kept | with_reducible apply armDrop_kept | with_reducible apply kept_ite | simp only [kept_upd] | split | dsimp only)
  clear_value s2
  repeat' (first | with_reducible assumption | (intro) | with_reducible apply fnSet_kept | with_reducible apply regAdd_kept | with_reducible apply hostReadCharge_kept | with_reducible apply seat_kept | with_reducible apply armDrop_kept | with_reducible apply kept_ite | simp only [kept_upd] | split | dsimp only)

theorem fetchSome_kept {x0 : Nat} {x1 : Nat} {x2 : List Sqe} {x3 : State} (h3 : Kept q k x3) : Kept q k (fetchSome x0 x1 x2 x3) := by
  induction x2 generalizing x3 with
  | nil =>
    unfold fetchSome
    repeat' (first | with_reducible assumption | (intro) | with_reducible apply fetchOne_kept | with_reducible apply kept_ite | simp only [kept_upd] | split | dsimp only)
  | cons e l ih =>
    unfold fetchSome
    repeat' (first | with_reducible assumption | (intro) | with_reducible apply fetchOne_kept | with_reducible apply ih | with_reducible apply kept_ite | simp only [kept_upd] | split | dsimp only)

theorem fetchTurn_kept {x0 : List Sqe} {x1 : Bool} {x2 : State} (h2 : Kept q k x2) : Kept q k (fetchTurn x0 x1 x2) := by
  unfold fetchTurn
  repeat' (first | with_reducible assumption | (intro) | with_reducible apply note_kept | with_reducible apply fnMod_kept | with_reducible apply fetchSome_kept | with_reducible apply kept_ite | simp only [kept_upd] | split | dsimp only)

theorem execSqeFetch_kept {x0 : List Sqe} {x1 : Bool} {x2 : State} (h2 : Kept q k x2) : KeptX q k (execSqeFetch x0 x1 x2) := by
  unfold execSqeFetch
  repeat' (first | with_reducible assumption | (intro) | with_reducible apply fetchTurn_kept | with_reducible apply keptX_next | with_reducible exact keptX_fault | with_reducible apply keptX_ite | with_reducible apply kept_ite | split | dsimp only)

theorem fetchCtl_kept {x0 : Nat} {x1 : State} (h1 : Kept q k x1) : Kept q k (fetchCtl x0 x1) := by
  unfold fetchCtl
  repeat' (first | with_reducible assumption | (intro) | with_reducible apply later_kept | with_reducible apply regSetFld_kept | split | dsimp only)

theorem execQenFetchHold_kept {x0 : W32} {x1 : State} (h1 : Kept q k x1) : KeptX q k (execQenFetchHold x0 x1) := by
  unfold execQenFetchHold
  repeat' (first | with_reducible assumption | (intro) | with_reducible apply fetchCtl_kept | with_reducible apply keptX_next | with_reducible exact keptX_fault | with_reducible apply keptX_ite | with_reducible apply kept_ite | split | dsimp only)

theorem createCq_kept {x0 : Nat} {x1 : State} (h1 : Kept q k x1) : Kept q k (createCq x0 x1) := by
  unfold createCq
  repeat' (first | with_reducible assumption | (intro) | with_reducible apply finish_kept | with_reducible apply fnMod_kept | with_reducible apply kept_ite | simp only [kept_upd] | split | dsimp only)

theorem execCreateIoCq_kept {x0 : Nat} {x1 : State} (h1 : Kept q k x1) : KeptX q k (execCreateIoCq x0 x1) := by
  unfold execCreateIoCq
  repeat' (first | with_reducible assumption | (intro) | with_reducible apply createCq_kept | with_reducible apply keptX_next | with_reducible exact keptX_fault | with_reducible apply keptX_ite | with_reducible apply kept_ite | split | dsimp only)

theorem createSq_kept {x0 : Nat} {x1 : State} (h1 : Kept q k x1) : Kept q k (createSq x0 x1) := by
  unfold createSq
  repeat' (first | with_reducible assumption | (intro) | with_reducible apply finish_kept | with_reducible apply fnMod_kept | with_reducible apply kept_ite | simp only [kept_upd] | split | dsimp only)

theorem execCreateIoSq_kept {x0 : Nat} {x1 : State} (h1 : Kept q k x1) : KeptX q k (execCreateIoSq x0 x1) := by
  unfold execCreateIoSq
  repeat' (first | with_reducible assumption | (intro) | with_reducible apply createSq_kept | with_reducible apply keptX_next | with_reducible exact keptX_fault | with_reducible apply keptX_ite | with_reducible apply kept_ite | split | dsimp only)

theorem deleteCq_kept {x0 : Nat} {x1 : State} (h1 : Kept q k x1) : Kept q k (deleteCq x0 x1) := by
  unfold deleteCq
  repeat' (first | with_reducible assumption | (intro) | with_reducible apply finish_kept | with_reducible apply fnMod_kept | with_reducible apply kept_ite | simp only [kept_upd] | split | dsimp only)

theorem execDeleteIoCq_kept {x0 : Nat} {x1 : State} (h1 : Kept q k x1) : KeptX q k (execDeleteIoCq x0 x1) := by
  unfold execDeleteIoCq
  repeat' (first | with_reducible assumption | (intro) | with_reducible apply deleteCq_kept | with_reducible apply keptX_next | with_reducible exact keptX_fault | with_reducible apply keptX_ite | with_reducible apply kept_ite | split | dsimp only)

theorem abortCtx_kept {x0 : Nat} {x1 : Status} {x2 : State} (h2 : Kept q k x2) : Kept q k (abortCtx x0 x1 x2) := by
  unfold abortCtx
  repeat' (first | with_reducible assumption | (intro) | with_reducible apply later_kept | with_reducible apply discSweep_kept | with_reducible apply slotSweep_kept | with_reducible apply finish_kept | with_reducible apply slotDrop_kept | with_reducible apply kept_ite | simp only [kept_upd] | split | dsimp only)

theorem deleteSq_kept {x0 : Nat} {x1 : State} (h1 : Kept q k x1) : Kept q k (deleteSq x0 x1) := by
  unfold deleteSq
  repeat' (first | with_reducible assumption | (intro) | with_reducible apply finish_kept | with_reducible apply abortCtx_kept | with_reducible apply fnMod_kept | with_reducible apply kept_foldl | with_reducible apply kept_foldl2 | with_reducible apply kept_ite | simp only [kept_upd] | split | dsimp only)

theorem execDeleteIoSq_kept {x0 : Nat} {x1 : State} (h1 : Kept q k x1) : KeptX q k (execDeleteIoSq x0 x1) := by
  unfold execDeleteIoSq
  repeat' (first | with_reducible assumption | (intro) | with_reducible apply deleteSq_kept | with_reducible apply keptX_next | with_reducible exact keptX_fault | with_reducible apply keptX_ite | with_reducible apply kept_ite | split | dsimp only)

theorem abortCmd_kept {x0 : Nat} {x1 : State} (h1 : Kept q k x1) : Kept q k (abortCmd x0 x1) := by
  unfold abortCmd
  repeat' (first | with_reducible assumption | (intro) | with_reducible apply finish_kept | with_reducible apply finishDw_kept | with_reducible apply regAdd_kept | with_reducible apply abortCtx_kept | with_reducible apply kept_ite | simp only [kept_upd] | split | dsimp only)

theorem execAbort_kept {x0 : Nat} {x1 : State} (h1 : Kept q k x1) : KeptX q k (execAbort x0 x1) := by
  unfold execAbort
  repeat' (first | with_reducible assumption | (intro) | with_reducible apply abortCmd_kept | with_reducible apply keptX_next | with_reducible exact keptX_fault | with_reducible apply keptX_ite | with_reducible apply kept_ite | split | dsimp only)

theorem setFeatures_kept {x0 : Nat} {x1 : State} (h1 : Kept q k x1) : Kept q k (setFeatures x0 x1) := by
  unfold setFeatures
  repeat' (first | with_reducible assumption | (intro) | with_reducible apply finish_kept | with_reducible apply fnMod_kept | with_reducible apply finishDw_kept | with_reducible apply drainAev_kept | with_reducible apply hostData_kept | (with_reducible refine hostData_keptE (by assumption) ?_) | with_reducible apply kept_ite | simp only [kept_upd] | split | dsimp only)

theorem execSetFeatures_kept {x0 : Nat} {x1 : State} (h1 : Kept q k x1) : KeptX q k (execSetFeatures x0 x1) := by
  unfold execSetFeatures
  repeat' (first | with_reducible assumption | (intro) | with_reducible apply setFeatures_kept | with_reducible apply keptX_next | with_reducible exact keptX_fault | with_reducible apply keptX_ite | with_reducible apply kept_ite | split | dsimp only)

theorem getFeatures_kept {x0 : Nat} {x1 : State} (h1 : Kept q k x1) : Kept q k (getFeatures x0 x1) := by
  unfold getFeatures
  repeat' (first | with_reducible assumption | (intro) | with_reducible apply finishDw_kept | with_reducible apply finish_kept | with_reducible apply bufferOf_kept | (with_reducible refine bufferOf_keptE (by assumption) ?_) | with_reducible apply sendData_kept | with_reducible apply kept_getD | with_reducible apply keptP_getD | with_reducible apply kept_ite | simp only [kept_upd] | split | dsimp only)

theorem execGetFeatures_kept {x0 : Nat} {x1 : State} (h1 : Kept q k x1) : KeptX q k (execGetFeatures x0 x1) := by
  unfold execGetFeatures
  repeat' (first | with_reducible assumption | (intro) | with_reducible apply getFeatures_kept | with_reducible apply keptX_next | with_reducible exact keptX_fault | with_reducible apply keptX_ite | with_reducible apply kept_ite | split | dsimp only)

theorem execAsynchronousEventRequest_kept {x0 : Nat} {x1 : State} (h1 : Kept q k x1) : KeptX q k (execAsynchronousEventRequest x0 x1) := by
  unfold execAsynchronousEventRequest
  repeat' (first | with_reducible assumption | (intro) | with_reducible apply finish_kept | with_reducible apply drainAev_kept | with_reducible apply fnSet_kept | with_reducible apply keptX_next | with_reducible exact keptX_fault | with_reducible apply keptX_ite | with_reducible apply kept_ite | simp only [kept_upd] | split | dsimp only)

theorem coalEnd_kept {x0 : Nat} {x1 : Nat} {x2 : State} (h2 : Kept q k x2) : Kept q k (coalEnd x0 x1 x2) := by
  unfold coalEnd
  repeat' (first | with_reducible assumption | (intro) | with_reducible apply msix_kept | with_reducible apply fnSet_kept | with_reducible apply kept_ite | simp only [kept_upd] | split | dsimp only)

theorem execCoalescingWindowEnd_kept {x0 : Nat} {x1 : Nat} {x2 : State} (h2 : Kept q k x2) : KeptX q k (execCoalescingWindowEnd x0 x1 x2) := by
  unfold execCoalescingWindowEnd
  repeat' (first | with_reducible assumption | (intro) | with_reducible apply coalEnd_kept | with_reducible apply keptX_next | with_reducible exact keptX_fault | with_reducible apply keptX_ite | with_reducible apply kept_ite | split | dsimp only)

theorem execMsixVectorUnmask_kept {x0 : Nat} {x1 : Nat} {x2 : State} (h2 : Kept q k x2) : KeptX q k (execMsixVectorUnmask x0 x1 x2) := by
  unfold execMsixVectorUnmask
  repeat' (first | with_reducible assumption | (intro) | with_reducible apply fnSet_kept | with_reducible apply msix_kept | with_reducible apply fnMod_kept | with_reducible apply keptX_next | with_reducible exact keptX_fault | with_reducible apply keptX_ite | with_reducible apply kept_ite | simp only [kept_upd] | split | dsimp only)

end Sys2Proof.Machine
end

