-- ==== Sys2Proof/Laws/KeptProgram.lean ====
section
/-!
SUPPORT. What the operations of Machine/Program.lean keep (`Kept`).
-/
namespace Sys2Proof.Machine

set_option linter.all false

variable {q : List Instr} {k : W64}

theorem loadPiece_kept {x0 : Nat} {x1 : Nat} {x2 : Bool} {x3 : Bytes} {x4 : State} (h4 : Kept q k x4) : Kept q k (loadPiece x0 x1 x2 x3 x4) := by
  unfold loadPiece
  repeat' (first | with_reducible assumption | (intro) | with_reducible apply imgSet_kept | with_reducible apply dramWrite_kept | with_reducible apply finishDw_kept | with_reducible apply finish_kept | with_reducible apply kept_ite | simp only [kept_upd] | split | dsimp only)

theorem loadProgram_kept {x0 : Nat} {x1 : State} (h1 : Kept q k x1) : Kept q k (loadProgram x0 x1) := by
  unfold loadProgram
  repeat' (first | with_reducible assumption | (intro) | with_reducible apply finish_kept | with_reducible apply imgSet_kept | with_reducible apply hostData_kept | (with_reducible refine hostData_keptE (by assumption) ?_) | with_reducible apply loadPiece_kept | with_reducible apply kept_ite | simp only [kept_upd] | split | dsimp only)

theorem execLoadProgram_kept {x0 : Nat} {x1 : State} (h1 : Kept q k x1) : KeptX q k (execLoadProgram x0 x1) := by
  unfold execLoadProgram
  repeat' (first | with_reducible assumption | (intro) | with_reducible apply loadProgram_kept | with_reducible apply keptX_next | with_reducible exact keptX_fault | with_reducible apply keptX_ite | with_reducible apply kept_ite | split | dsimp only)

theorem execPartialLoadDiscard_kept {x0 : Nat} {x1 : Nat} {x2 : State} (h2 : Kept q k x2) : KeptX q k (execPartialLoadDiscard x0 x1 x2) := by
  unfold execPartialLoadDiscard
  repeat' (first | with_reducible assumption | (intro) | with_reducible apply imgSet_kept | with_reducible apply keptX_next | with_reducible exact keptX_fault | with_reducible apply keptX_ite | with_reducible apply kept_ite | split | dsimp only)

theorem unloadProgram_kept {x0 : Nat} {x1 : State} (h1 : Kept q k x1) : Kept q k (unloadProgram x0 x1) := by
  unfold unloadProgram
  repeat' (first | with_reducible assumption | (intro) | with_reducible apply finish_kept | with_reducible apply codeDrop_kept | with_reducible apply imgSet_kept | with_reducible apply kept_ite | split | dsimp only)

theorem execUnloadProgram_kept {x0 : Nat} {x1 : State} (h1 : Kept q k x1) : KeptX q k (execUnloadProgram x0 x1) := by
  unfold execUnloadProgram
  repeat' (first | with_reducible assumption | (intro) | with_reducible apply unloadProgram_kept | with_reducible apply keptX_next | with_reducible exact keptX_fault | with_reducible apply keptX_ite | with_reducible apply kept_ite | split | dsimp only)

theorem unloadAll_kept {x0 : Nat} {x1 : State} (h1 : Kept q k x1) : Kept q k (unloadAll x0 x1) := by
  unfold unloadAll
  repeat' (first | with_reducible assumption | (intro) | with_reducible apply codeDrop_kept | with_reducible apply imgSet_kept | with_reducible apply kept_foldl | with_reducible apply kept_foldl2 | split | dsimp only)

theorem grantLine_kept {x0 : Nat} {x1 : Nat} {x2 : Bytes} {x3 : Nat} {x4 : State} (h4 : Kept q k x4) : Kept q k (grantLine x0 x1 x2 x3 x4) := by
  unfold grantLine
  repeat' (first | with_reducible assumption | (intro) | with_reducible apply lineSet_kept | with_reducible apply regSet_kept | split | dsimp only)

theorem zeroBuf_kept {x0 : Buf} {x1 : State} (h1 : Kept q k x1) : Kept q k (zeroBuf x0 x1) := by
  unfold zeroBuf
  repeat' (first | with_reducible assumption | (intro) | with_reducible apply memWrite_kept | (with_reducible refine memWrite_keptE (by assumption) ?_) | with_reducible apply kept_getD | with_reducible apply keptP_getD | split | dsimp only)

theorem acquire_kept {x0 : Nat} {x1 : Bytes} {x2 : State} (h2 : Kept q k x2) : Kept q k (acquire x0 x1 x2) := by
  unfold acquire
  repeat' (first | with_reducible assumption | (intro) | with_reducible apply finish_kept | with_reducible apply ctxMod_kept | with_reducible apply fnMod_kept | with_reducible apply runSet_kept | with_reducible apply grantLine_kept | with_reducible apply zeroBuf_kept | with_reducible apply kept_foldl | with_reducible apply kept_foldl2 | with_reducible apply kept_getD | with_reducible apply keptP_getD | with_reducible apply kept_ite | split | dsimp only | with_reducible apply kept_lines | (with_reducible refine Tabs.lines (Kept.tabs (q := q) (k := k) ?_)) | with_reducible apply tabUp_tset | with_reducible apply tabUp_filter | with_reducible apply tabUp_map | with_reducible apply tabUp_tmod | with_reducible apply tabUp_foldl | with_reducible apply tabUp_tdel | with_reducible apply tabUp_tput | with_reducible apply tabUp_filterMap | with_reducible exact tabUp_nil | with_reducible apply tabWf_tset | with_reducible apply tabWf_filter | with_reducible apply tabWf_tdel | with_reducible apply tabWf_tsetBytes | with_reducible apply tabWf_foldl | with_reducible exact tabWf_nil | with_reducible apply kept_tasks | (with_reducible refine Tabs.tasks (Kept.tabs (q := q) (k := k) ?_)) | simp only [kept_upd])

theorem seek_kept {x0 : Nat} {x1 : Nat} {x2 : Nat} {x3 : State} (h3 : Kept q k x3) : Kept q k (seek x0 x1 x2 x3) := by
  unfold seek
  repeat' (first | with_reducible assumption | (intro) | with_reducible apply mediaTurn_kept | with_reducible apply resolveUnit_kept | with_reducible apply kept_foldl | with_reducible apply kept_foldl2 | split | dsimp only)

theorem fillBuf_kept {x0 : Nat} {x1 : Buf} {x2 : State} (h2 : Kept q k x2) : Kept q k (fillBuf x0 x1 x2) := by
  unfold fillBuf
  repeat' (first | with_reducible assumption | (intro) | with_reducible apply memWrite_kept | (with_reducible refine memWrite_keptE (by assumption) ?_) | with_reducible apply warpMove_kept | with_reducible apply errResp_kept | with_reducible apply kept_foldl | with_reducible apply kept_foldl2 | with_reducible apply kept_getD | with_reducible apply keptP_getD | simp only [kept_upd] | split | dsimp only)

theorem entryTask_kept {x0 : Nat} {x1 : State} (h1 : Kept q k x1) : Kept q k (entryTask x0 x1) := by
  unfold entryTask
  repeat' (first | with_reducible assumption | (intro) | with_reducible apply hamWrite_kept | with_reducible apply newTask_kept | (with_reducible refine newTask_keptE (by assumption) ?_) | with_reducible apply runSet_kept | with_reducible apply later_kept | with_reducible apply kept_ite | simp only [kept_upd] | split | dsimp only)

theorem execRunEntryTaskCreate_kept {x0 : Nat} {x1 : State} (h1 : Kept q k x1) : KeptX q k (execRunEntryTaskCreate x0 x1) := by
  unfold execRunEntryTaskCreate
  repeat' (first | with_reducible assumption | (intro) | with_reducible apply entryTask_kept | with_reducible apply keptX_next | with_reducible exact keptX_fault | with_reducible apply keptX_ite | with_reducible apply kept_ite | split | dsimp only)

theorem feedBufs_kept {x0 : Nat} {x1 : Nat} {x2 : State} (h2 : Kept q k x2) : Kept q k (feedBufs x0 x1 x2) := by
  unfold feedBufs
  repeat' (first | with_reducible assumption | (intro) | with_reducible apply seek_kept | with_reducible apply fillBuf_kept | with_reducible apply runMod_kept | with_reducible apply entryTask_kept | with_reducible apply later_kept | with_reducible apply kept_foldl | with_reducible apply kept_foldl2 | with_reducible apply kept_ite | simp only [kept_upd] | split | dsimp only)

theorem writeMarked_kept {x0 : Nat} {x1 : Nat} {x2 : List Granule} {x3 : Nat} {x4 : Nat} {x5 : State} (h5 : Kept q k x5) : KeptO q k (writeMarked x0 x1 x2 x3 x4 x5) := by
  unfold writeMarked
  repeat' (first | with_reducible assumption | (intro) | with_reducible apply memWrite_kept | (with_reducible refine memWrite_keptE (by assumption) ?_) | with_reducible apply keptO_foldl | with_reducible apply kept_foldl | with_reducible apply kept_foldl2 | with_reducible apply keptO_bindS | with_reducible apply keptOP_bindP | with_reducible apply keptO_bind | with_reducible apply keptOP_bind | with_reducible apply keptO_some | with_reducible exact keptO_none | with_reducible apply keptO_ite | with_reducible apply kept_ite | split | dsimp only)
theorem writeMarked_keptE {x0 : Nat} {x1 : Nat} {x2 : List Granule} {x3 : Nat} {x4 : Nat} {x5 : State}  {t : State} (e : writeMarked x0 x1 x2 x3 x4 x5 = some t) (h5 : Kept q k x5) : Kept q k t := by
  have w := writeMarked_kept (q := q) (k := k) (x0 := x0) (x1 := x1) (x2 := x2) (x3 := x3) (x4 := x4) (x5 := x5) h5
  rw [e] at w; exact w

theorem feedLine_kept {x0 : Nat} {x1 : Nat} {x2 : Nat} {x3 : State} (h3 : Kept q k x3) : Kept q k (feedLine x0 x1 x2 x3) := by
  unfold feedLine
  repeat' (first | with_reducible assumption | (intro) | with_reducible apply seek_kept | with_reducible apply writeMarked_kept | (with_reducible refine writeMarked_keptE (by assumption) ?_) | with_reducible apply errResp_kept | with_reducible apply runMod_kept | with_reducible apply linePost_kept | with_reducible apply warpMove_kept | with_reducible apply kept_getD | with_reducible apply keptP_getD | with_reducible apply kept_ite | simp only [kept_upd] | split | dsimp only)

theorem feedRun_kept {x0 : Nat} {x1 : Nat} {x2 : State} (h2 : Kept q k x2) : Kept q k (feedRun x0 x1 x2) := by
  unfold feedRun
  repeat' (first | with_reducible assumption | (intro) | with_reducible apply feedBufs_kept | with_reducible apply feedLine_kept | with_reducible apply kept_foldl | with_reducible apply kept_foldl2 | with_reducible apply kept_ite | split | dsimp only)

theorem startRun_kept {x0 : Nat} {x1 : Bytes} {x2 : State} (h2 : Kept q k x2) : Kept q k (startRun x0 x1 x2) := by
  unfold startRun
  repeat' (first | with_reducible assumption | (intro) | with_reducible apply finish_kept | with_reducible apply openExtents_kept | with_reducible apply ctxMod_kept | with_reducible apply acquire_kept | with_reducible apply kept_ite | simp only [kept_upd] | split | dsimp only)

theorem runProgram_kept {x0 : Nat} {x1 : State} (h1 : Kept q k x1) : Kept q k (runProgram x0 x1) := by
  unfold runProgram
  repeat' (first | with_reducible assumption | (intro) | with_reducible apply feedRun_kept | with_reducible apply ioGate_kept | (with_reducible refine ioGate_keptE (by assumption) ?_) | with_reducible apply finish_kept | with_reducible apply askHost_kept | with_reducible apply startRun_kept | with_reducible apply kept_ite | simp only [kept_upd] | split | dsimp only)

theorem execRunProgram_kept {x0 : Nat} {x1 : State} (h1 : Kept q k x1) : KeptX q k (execRunProgram x0 x1) := by
  unfold execRunProgram
  repeat' (first | with_reducible assumption | (intro) | with_reducible apply runProgram_kept | with_reducible apply keptX_next | with_reducible exact keptX_fault | with_reducible apply keptX_ite | with_reducible apply kept_ite | split | dsimp only)

theorem execRunResourceAcquire_kept {x0 : Nat} {x1 : State} (h1 : Kept q k x1) : KeptX q k (execRunResourceAcquire x0 x1) := by
  unfold execRunResourceAcquire
  repeat' (first | with_reducible assumption | (intro) | with_reducible apply acquire_kept | with_reducible apply keptX_next | with_reducible exact keptX_fault | with_reducible apply keptX_ite | with_reducible apply kept_ite | split | dsimp only)

theorem runRelease_kept {x0 : Nat} {x1 : State} (h1 : Kept q k x1) : Kept q k (runRelease x0 x1) := by
  unfold runRelease
  extract_lets r bytes s1 s2
  have k1 : Kept q k s1 := kept_foldl (fun s x h => lineSet_kept (lineFree_kept h)) h1
  clear_value s1
  have k2 : Kept q k s2 := kept_tasks (s := { s1 with digs := s1.digs.filter fun e => e.2.user ≠ .run x0 })
    (kept_digs k1 (tabUp_filter k1.tabs.digs)) (tabUp_filter k1.tabs.tasks)
  clear_value s2
  exact runSet_kept (fnMod_kept k2)

theorem runFinish_kept {x0 : Nat} {x1 : State} (h1 : Kept q k x1) : Kept q k (runFinish x0 x1) := by
  unfold runFinish
  repeat' (first | with_reducible assumption | (intro) | with_reducible apply bufferOf_kept | (with_reducible refine bufferOf_keptE (by assumption) ?_) | with_reducible apply runRelease_kept | with_reducible apply hamMet_kept | with_reducible apply sendData_kept | with_reducible apply finishDw_kept | with_reducible apply fnMod_kept | with_reducible apply kept_foldl | with_reducible apply kept_foldl2 | with_reducible apply kept_getD | with_reducible apply keptP_getD | with_reducible apply kept_ite | simp only [kept_upd] | split | dsimp only)

theorem execRunEnd_kept {x0 : Nat} {x1 : State} (h1 : Kept q k x1) : KeptX q k (execRunEnd x0 x1) := by
  unfold execRunEnd
  repeat' (first | with_reducible assumption | (intro) | with_reducible apply runFinish_kept | with_reducible apply setPlan_kept | with_reducible apply runSet_kept | with_reducible apply memMet_kept | with_reducible apply kept_foldl | with_reducible apply kept_foldl2 | with_reducible apply keptX_next | with_reducible exact keptX_fault | with_reducible apply keptX_ite | with_reducible apply kept_ite | simp only [kept_upd] | split | dsimp only)

theorem evict_kept {x0 : Nat} {x1 : State} (h1 : Kept q k x1) : Kept q k (evict x0 x1) := by
  unfold evict
  repeat' (first | with_reducible assumption | (intro) | with_reducible apply unlist_kept | with_reducible apply kept_ite | split | dsimp only | with_reducible apply kept_cores | (with_reducible refine Tabs.cores (Kept.tabs (q := q) (k := k) ?_)) | with_reducible apply tabUp_tset | with_reducible apply tabUp_filter | with_reducible apply tabUp_map | with_reducible apply tabUp_tmod | with_reducible apply tabUp_foldl | with_reducible apply tabUp_tdel | with_reducible apply tabUp_tput | with_reducible apply tabUp_filterMap | with_reducible exact tabUp_nil | with_reducible apply tabWf_tset | with_reducible apply tabWf_filter | with_reducible apply tabWf_tdel | with_reducible apply tabWf_tsetBytes | with_reducible apply tabWf_foldl | with_reducible exact tabWf_nil | simp only [kept_upd])

theorem runKill_kept {x0 : Nat} {x1 : Option (Status × W32 × W32)} {x2 : State} (h2 : Kept q k x2) : Kept q k (runKill x0 x1 x2) := by
  unfold runKill
  repeat' (first | with_reducible assumption | (intro) | with_reducible apply evict_kept | with_reducible apply shuSquash_kept | with_reducible apply engSquash_kept | with_reducible apply note_kept | with_reducible apply runRelease_kept | with_reducible apply discSweep_kept | with_reducible apply slotSweep_kept | with_reducible apply finishDw_kept | with_reducible apply slotDrop_kept | with_reducible apply squash_kept | with_reducible apply kept_foldl | with_reducible apply kept_foldl2 | with_reducible apply kept_ite | simp only [kept_upd] | split | dsimp only)

theorem trapKill_kept {x0 : Nat} {x1 : Nat} {x2 : State} (h2 : Kept q k x2) : Kept q k (trapKill x0 x1 x2) := by
  unfold trapKill
  repeat' (first | with_reducible assumption | (intro) | with_reducible apply runKill_kept | split | dsimp only)

theorem execRunTimeout_kept {x0 : Nat} {x1 : State} (h1 : Kept q k x1) : KeptX q k (execRunTimeout x0 x1) := by
  unfold execRunTimeout
  repeat' (first | with_reducible assumption | (intro) | with_reducible apply later_kept | with_reducible apply note_kept | with_reducible apply keptX_next | with_reducible exact keptX_fault | with_reducible apply keptX_ite | with_reducible apply kept_ite | split | dsimp only)

theorem houseFenced_kept {x0 : Nat} {x1 : State} (h1 : Kept q k x1) : Kept q k (houseFenced x0 x1) := by
  unfold houseFenced
  repeat' (first | with_reducible assumption | (intro) | with_reducible apply note_kept | with_reducible apply taskEnd_kept | with_reducible apply joinList_kept | with_reducible apply coreMod_kept | with_reducible apply kept_getD | with_reducible apply keptP_getD | simp only [kept_upd] | split | dsimp only)

theorem coreFenced_kept {x0 : Nat} {x1 : State} (h1 : Kept q k x1) : Kept q k (coreFenced x0 x1) := by
  unfold coreFenced
  repeat' (first | with_reducible assumption | (intro) | with_reducible apply houseFenced_kept | with_reducible apply trapKill_kept | with_reducible apply kept_foldl | with_reducible apply kept_foldl2 | with_reducible apply kept_ite | split | dsimp only)

theorem clusterFenced_kept {x0 : Nat} {x1 : State} (h1 : Kept q k x1) : Kept q k (clusterFenced x0 x1) := by
  unfold clusterFenced
  repeat' (first | with_reducible assumption | (intro) | with_reducible apply houseFenced_kept | with_reducible apply fnMod_kept | with_reducible apply coreFenced_kept | with_reducible apply trapKill_kept | with_reducible apply kept_foldl | with_reducible apply kept_foldl2 | with_reducible apply kept_ite | simp only [kept_upd] | split | dsimp only)

theorem backPressure_kept {x0 : State} (h0 : Kept q k x0) : Kept q k (backPressure x0) := by
  unfold backPressure
  repeat' (first | with_reducible assumption | (intro) | with_reducible apply note_kept | with_reducible apply kept_ite | simp only [kept_upd] | split | dsimp only)

end Sys2Proof.Machine
end

