-- ==== Sys2Proof/Laws/KeptPortion.lean ====
section
/-!
SUPPORT. What the operations of Machine/Portion.lean keep (`Kept`).
-/
namespace Sys2Proof.Machine

set_option linter.all false

variable {q : List Instr} {k : W64}

theorem dramZero_kept {x0 : Nat} {x1 : Nat} {x2 : State} (h2 : Kept q k x2) : Kept q k (dramZero x0 x1 x2) := by
  unfold dramZero tabClear
  exact ⟨h2.pending, h2.pick, { h2.tabs with
    dram := tabWf_filter h2.tabs.dram, dramPoison := tabWf_filter h2.tabs.dramPoison, dramErr := tabWf_filter h2.tabs.dramErr }⟩

theorem recordCarve_kept {x0 : Nat} {x1 : State} (h1 : Kept q k x1) : Kept q k (recordCarve x0 x1) := by
  unfold recordCarve
  repeat' (first | with_reducible assumption | (intro) | split | dsimp only | with_reducible apply kept_ham | (with_reducible refine Tabs.ham (Kept.tabs (q := q) (k := k) ?_)) | with_reducible apply tabWf_tset | with_reducible apply tabWf_filter | with_reducible apply tabWf_tdel | with_reducible apply tabWf_tsetBytes | with_reducible apply tabWf_foldl | with_reducible exact tabWf_nil | with_reducible apply kept_dram | (with_reducible refine Tabs.dram (Kept.tabs (q := q) (k := k) ?_)) | simp only [kept_upd])

theorem recordPortion_kept {x0 : Nat} {x1 : Portion} {x2 : State} (h2 : Kept q k x2) : Kept q k (recordPortion x0 x1 x2) := by
  unfold recordPortion
  repeat' (first | with_reducible assumption | (intro) | simp only [kept_upd] | split | dsimp only)

theorem placeGroup_kept {x0 : Nat} {x1 : Portion} {x2 : State} (h2 : Kept q k x2) : KeptE q k (placeGroup x0 x1 x2) := by
  unfold placeGroup
  repeat' (first | with_reducible assumption | (intro) | with_reducible apply fnMod_kept | with_reducible apply hedClear_kept | with_reducible apply regSet_kept | with_reducible apply keptE_ok | with_reducible exact keptE_error | with_reducible apply keptE_ite | with_reducible apply kept_ite | split | dsimp only | with_reducible apply kept_hed | (with_reducible refine Tabs.hed (Kept.tabs (q := q) (k := k) ?_)) | with_reducible apply tabUp_tset | with_reducible apply tabUp_filter | with_reducible apply tabUp_map | with_reducible apply tabUp_tmod | with_reducible apply tabUp_foldl | with_reducible apply tabUp_tdel | with_reducible apply tabUp_tput | with_reducible apply tabUp_filterMap | with_reducible exact tabUp_nil | with_reducible apply tabWf_tset | with_reducible apply tabWf_filter | with_reducible apply tabWf_tdel | with_reducible apply tabWf_tsetBytes | with_reducible apply tabWf_foldl | with_reducible exact tabWf_nil | simp only [kept_upd])
theorem placeGroup_keptE {x0 : Nat} {x1 : Portion} {x2 : State}  {t : State} (e : placeGroup x0 x1 x2 = .ok t) (h2 : Kept q k x2) : Kept q k t := by
  have w := placeGroup_kept (q := q) (k := k) (x0 := x0) (x1 := x1) (x2 := x2) h2
  rw [e] at w; exact w

theorem placeHam_kept {x0 : Nat} {x1 : Nat} {x2 : State} (h2 : Kept q k x2) : KeptE q k (placeHam x0 x1 x2) := by
  unfold placeHam
  repeat' (first | with_reducible assumption | (intro) | with_reducible apply hamZero_kept | with_reducible apply regSet_kept | with_reducible apply keptE_ok | with_reducible exact keptE_error | with_reducible apply keptE_ite | with_reducible apply kept_ite | simp only [kept_upd] | split | dsimp only)
theorem placeHam_keptE {x0 : Nat} {x1 : Nat} {x2 : State}  {t : State} (e : placeHam x0 x1 x2 = .ok t) (h2 : Kept q k x2) : Kept q k t := by
  have w := placeHam_kept (q := q) (k := k) (x0 := x0) (x1 := x1) (x2 := x2) h2
  rw [e] at w; exact w

theorem placeDram_kept {x0 : Nat} {x1 : Nat} {x2 : State} (h2 : Kept q k x2) : KeptE q k (placeDram x0 x1 x2) := by
  unfold placeDram
  repeat' (first | with_reducible assumption | (intro) | with_reducible apply dramZero_kept | with_reducible apply regSet_kept | with_reducible apply keptE_ok | with_reducible exact keptE_error | with_reducible apply keptE_ite | with_reducible apply kept_ite | simp only [kept_upd] | split | dsimp only)
theorem placeDram_keptE {x0 : Nat} {x1 : Nat} {x2 : State}  {t : State} (e : placeDram x0 x1 x2 = .ok t) (h2 : Kept q k x2) : Kept q k t := by
  have w := placeDram_kept (q := q) (k := k) (x0 := x0) (x1 := x1) (x2 := x2) h2
  rw [e] at w; exact w

theorem placeHeap_kept {x0 : Nat} {x1 : Nat} {x2 : State} (h2 : Kept q k x2) : KeptE q k (placeHeap x0 x1 x2) := by
  unfold placeHeap
  repeat' (first | with_reducible assumption | (intro) | with_reducible apply fnSet_kept | with_reducible apply keptE_ok | with_reducible exact keptE_error | with_reducible apply keptE_ite | with_reducible apply kept_ite | simp only [kept_upd] | split | dsimp only)
theorem placeHeap_keptE {x0 : Nat} {x1 : Nat} {x2 : State}  {t : State} (e : placeHeap x0 x1 x2 = .ok t) (h2 : Kept q k x2) : Kept q k t := by
  have w := placeHeap_kept (q := q) (k := k) (x0 := x0) (x1 := x1) (x2 := x2) h2
  rw [e] at w; exact w

theorem carveAll_kept {x0 : Nat} {x1 : Portion} {x2 : State} (h2 : Kept q k x2) : KeptE q k (carveAll x0 x1 x2) := by
  unfold carveAll
  repeat' (first | with_reducible assumption | (intro) | with_reducible apply placeGroup_kept | (with_reducible refine placeGroup_keptE (by assumption) ?_) | with_reducible apply placeHam_kept | (with_reducible refine placeHam_keptE (by assumption) ?_) | with_reducible apply placeDram_kept | (with_reducible refine placeDram_keptE (by assumption) ?_) | with_reducible apply placeHeap_kept | (with_reducible refine placeHeap_keptE (by assumption) ?_) | with_reducible apply keptE_ok | with_reducible exact keptE_error | simp only [kept_upd] | split | dsimp only)
theorem carveAll_keptE {x0 : Nat} {x1 : Portion} {x2 : State}  {t : State} (e : carveAll x0 x1 x2 = .ok t) (h2 : Kept q k x2) : Kept q k t := by
  have w := carveAll_kept (q := q) (k := k) (x0 := x0) (x1 := x1) (x2 := x2) h2
  rw [e] at w; exact w

theorem groupShrink_kept {x0 : Nat} {x1 : State} (h1 : Kept q k x1) : Kept q k (groupShrink x0 x1) := by
  unfold groupShrink
  repeat' (first | with_reducible assumption | (intro) | with_reducible apply hedCompact_kept | with_reducible apply genStep_kept | with_reducible apply recordCarve_kept | with_reducible apply fnMod_kept | with_reducible apply regSet_kept | with_reducible apply kept_ite | split | dsimp only | with_reducible apply kept_hed | (with_reducible refine Tabs.hed (Kept.tabs (q := q) (k := k) ?_)) | with_reducible apply tabUp_tset | with_reducible apply tabUp_filter | with_reducible apply tabUp_map | with_reducible apply tabUp_tmod | with_reducible apply tabUp_foldl | with_reducible apply tabUp_tdel | with_reducible apply tabUp_tput | with_reducible apply tabUp_filterMap | with_reducible exact tabUp_nil | with_reducible apply tabWf_tset | with_reducible apply tabWf_filter | with_reducible apply tabWf_tdel | with_reducible apply tabWf_tsetBytes | with_reducible apply tabWf_foldl | with_reducible exact tabWf_nil | simp only [kept_upd])

theorem carveShrink_kept {x0 : Nat} {x1 : State} (h1 : Kept q k x1) : Kept q k (carveShrink x0 x1) := by
  unfold carveShrink
  extract_lets p runs cut s1 s2 s3
  have k_s1 : Kept q k s1 := by
    dsimp only [s1]
    repeat' (first | with_reducible assumption | (intro) | with_reducible apply regSet_kept | with_reducible apply fnMod_kept | with_reducible apply recordCarve_kept | with_reducible apply kept_ite | split | dsimp only | with_reducible apply kept_runs | (with_reducible refine Tabs.runs (Kept.tabs (q := q) (k := k) ?_)) | with_reducible apply tabUp_tset | with_reducible apply tabUp_filter | with_reducible apply tabUp_map | with_reducible apply tabUp_tmod | with_reducible apply tabUp_foldl | with_reducible apply tabUp_tdel | with_reducible apply tabUp_tput | with_reducible apply tabUp_filterMap | with_reducible exact tabUp_nil | with_reducible apply tabWf_tset | with_reducible apply tabWf_filter | with_reducible apply tabWf_tdel | with_reducible apply tabWf_tsetBytes | with_reducible apply tabWf_foldl | with_reducible exact tabWf_nil | simp only [kept_upd])
  clear_value s1
  have k_s2 : Kept q k s2 := by
    dsimp only [s2]
    repeat' (first | with_reducible assumption | (intro) | with_reducible apply regSet_kept | with_reducible apply fnMod_kept | with_reducible apply recordCarve_kept | with_reducible apply kept_ite | split | dsimp only | with_reducible apply kept_runs | (with_reducible refine Tabs.runs (Kept.tabs (q := q) (k := k) ?_)) | with_reducible apply tabUp_tset | with_reducible apply tabUp_filter | with_reducible apply tabUp_map | with_reducible apply tabUp_tmod | with_reducible apply tabUp_foldl | with_reducible apply tabUp_tdel | with_reducible apply tabUp_tput | with_reducible apply tabUp_filterMap | with_reducible exact tabUp_nil | with_reducible apply tabWf_tset | with_reducible apply tabWf_filter | with_reducible apply tabWf_tdel | with_reducible apply tabWf_tsetBytes | with_reducible apply tabWf_foldl | with_reducible exact tabWf_nil | simp only [kept_upd])
  clear_value s2
  have k_s3 : Kept q k s3 := by
    dsimp only [s3]
    repeat' (first | with_reducible assumption | (intro) | with_reducible apply regSet_kept | with_reducible apply fnMod_kept | with_reducible apply recordCarve_kept | with_reducible apply kept_ite | split | dsimp only | with_reducible apply kept_runs | (with_reducible refine Tabs.runs (Kept.tabs (q := q) (k := k) ?_)) | with_reducible apply tabUp_tset | with_reducible apply tabUp_filter | with_reducible apply tabUp_map | with_reducible apply tabUp_tmod | with_reducible apply tabUp_foldl | with_reducible apply tabUp_tdel | with_reducible apply tabUp_tput | with_reducible apply tabUp_filterMap | with_reducible exact tabUp_nil | with_reducible apply tabWf_tset | with_reducible apply tabWf_filter | with_reducible apply tabWf_tdel | with_reducible apply tabWf_tsetBytes | with_reducible apply tabWf_foldl | with_reducible exact tabWf_nil | simp only [kept_upd])
  clear_value s3
  repeat' (first | with_reducible assumption | (intro) | with_reducible apply regSet_kept | with_reducible apply fnMod_kept | with_reducible apply recordCarve_kept | with_reducible apply kept_ite | split | dsimp only | with_reducible apply kept_runs | (with_reducible refine Tabs.runs (Kept.tabs (q := q) (k := k) ?_)) | with_reducible apply tabUp_tset | with_reducible apply tabUp_filter | with_reducible apply tabUp_map | with_reducible apply tabUp_tmod | with_reducible apply tabUp_foldl | with_reducible apply tabUp_tdel | with_reducible apply tabUp_tput | with_reducible apply tabUp_filterMap | with_reducible exact tabUp_nil | with_reducible apply tabWf_tset | with_reducible apply tabWf_filter | with_reducible apply tabWf_tdel | with_reducible apply tabWf_tsetBytes | with_reducible apply tabWf_foldl | with_reducible exact tabWf_nil | simp only [kept_upd])

theorem setPortionAct_kept {x0 : Nat} {x1 : Nat} {x2 : Portion} {x3 : State} (h3 : Kept q k x3) : Kept q k (setPortionAct x0 x1 x2 x3) := by
  unfold setPortionAct
  repeat' (first | with_reducible assumption | (intro) | with_reducible apply carveAll_kept | (with_reducible refine carveAll_keptE (by assumption) ?_) | with_reducible apply finishDw_kept | with_reducible apply fnMod_kept | with_reducible apply recordPortion_kept | with_reducible apply recordCarve_kept | with_reducible apply groupShrink_kept | with_reducible apply hedCompact_kept | with_reducible apply note_kept | with_reducible apply vendorEvent_kept | with_reducible apply kept_ite | simp only [kept_upd] | split | dsimp only)

theorem setPortion_kept {x0 : Nat} {x1 : State} (h1 : Kept q k x1) : Kept q k (setPortion x0 x1) := by
  unfold setPortion
  repeat' (first | with_reducible assumption | (intro) | with_reducible apply critGate_kept | (with_reducible refine critGate_keptE (by assumption) ?_) | with_reducible apply hostData_kept | (with_reducible refine hostData_keptE (by assumption) ?_) | with_reducible apply finish_kept | with_reducible apply setPortionAct_kept | with_reducible apply kept_ite | simp only [kept_upd] | split | dsimp only)

theorem execSetPortion_kept {x0 : Nat} {x1 : State} (h1 : Kept q k x1) : KeptX q k (execSetPortion x0 x1) := by
  unfold execSetPortion
  repeat' (first | with_reducible assumption | (intro) | with_reducible apply setPortion_kept | with_reducible apply keptX_next | with_reducible exact keptX_fault | with_reducible apply keptX_ite | with_reducible apply kept_ite | split | dsimp only)

theorem adminData_kept {x0 : Nat} {x1 : Bytes} {x2 : State} (h2 : Kept q k x2) : Kept q k (adminData x0 x1 x2) := by
  unfold adminData
  repeat' (first | with_reducible assumption | (intro) | with_reducible apply bufferOf_kept | (with_reducible refine bufferOf_keptE (by assumption) ?_) | with_reducible apply finish_kept | with_reducible apply sendData_kept | with_reducible apply kept_ite | simp only [kept_upd] | split | dsimp only)

theorem execGetPortion_kept {x0 : Nat} {x1 : State} (h1 : Kept q k x1) : KeptX q k (execGetPortion x0 x1) := by
  unfold execGetPortion
  repeat' (first | with_reducible assumption | (intro) | with_reducible apply adminData_kept | with_reducible apply keptX_next | with_reducible exact keptX_fault | with_reducible apply keptX_ite | with_reducible apply kept_ite | split | dsimp only)

end Sys2Proof.Machine
end

