-- ==== Sys2Proof/Laws/KeptFunction.lean ====
section
/-!
SUPPORT. What the operations of Machine/Function.lean keep (`Kept`).
-/
namespace Sys2Proof.Machine

set_option linter.all false

variable {q : List Instr} {k : W64}

theorem selfTestStop_kept {x0 : Nat} {x1 : State} (h1 : Kept q k x1) : Kept q k (selfTestStop x0 x1) := by
  unfold selfTestStop
  repeat' (first | with_reducible assumption | (intro) | with_reducible apply kept_ite | simp only [kept_upd] | split | dsimp only)

theorem cplDrop_kept {x0 : Nat} {x1 : State} (h1 : Kept q k x1) : Kept q k (cplDrop x0 x1) := by
  unfold cplDrop
  repeat' (first | with_reducible assumption | (intro) | with_reducible apply regAdd_kept | with_reducible apply fnMod_kept | with_reducible apply kept_ite | simp only [kept_upd] | split | dsimp only)

theorem fnStop_kept {x0 : Nat} {x1 : Option Status} {x2 : State} (h2 : Kept q k x2) : Kept q k (fnStop x0 x1 x2) := by
  unfold fnStop
  extract_lets kept own runs s1 s2 s3 s4
  have k_s1 : Kept q k s1 := by
    dsimp only [s1]
    repeat' (first | with_reducible assumption | (intro) | with_reducible apply runKill_kept | with_reducible apply shuSquash_kept | with_reducible apply engSquash_kept | with_reducible apply squash_kept | with_reducible apply discSweep_kept | with_reducible apply slotSweep_kept | with_reducible apply finish_kept | with_reducible apply slotDrop_kept | with_reducible apply digReleaseAll_kept | with_reducible apply cplDrop_kept | with_reducible apply kept_foldl | with_reducible apply kept_foldl2 | with_reducible apply kept_ite | split | dsimp only | with_reducible apply kept_runs | (with_reducible refine Tabs.runs (Kept.tabs (q := q) (k := k) ?_)) | with_reducible apply tabUp_tset | with_reducible apply tabUp_filter | with_reducible apply tabUp_map | with_reducible apply tabUp_tmod | with_reducible apply tabUp_foldl | with_reducible apply tabUp_tdel | with_reducible apply tabUp_tput | with_reducible apply tabUp_filterMap | with_reducible exact tabUp_nil | with_reducible apply tabWf_tset | with_reducible apply tabWf_filter | with_reducible apply tabWf_tdel | with_reducible apply tabWf_tsetBytes | with_reducible apply tabWf_foldl | with_reducible exact tabWf_nil | simp only [kept_upd])
  clear_value s1
  have k_s2 : Kept q k s2 := by
    dsimp only [s2]
    repeat' (first | with_reducible assumption | (intro) | with_reducible apply runKill_kept | with_reducible apply shuSquash_kept | with_reducible apply engSquash_kept | with_reducible apply squash_kept | with_reducible apply discSweep_kept | with_reducible apply slotSweep_kept | with_reducible apply finish_kept | with_reducible apply slotDrop_kept | with_reducible apply digReleaseAll_kept | with_reducible apply cplDrop_kept | with_reducible apply kept_foldl | with_reducible apply kept_foldl2 | with_reducible apply kept_ite | split | dsimp only | with_reducible apply kept_runs | (with_reducible refine Tabs.runs (Kept.tabs (q := q) (k := k) ?_)) | with_reducible apply tabUp_tset | with_reducible apply tabUp_filter | with_reducible apply tabUp_map | with_reducible apply tabUp_tmod | with_reducible apply tabUp_foldl | with_reducible apply tabUp_tdel | with_reducible apply tabUp_tput | with_reducible apply tabUp_filterMap | with_reducible exact tabUp_nil | with_reducible apply tabWf_tset | with_reducible apply tabWf_filter | with_reducible apply tabWf_tdel | with_reducible apply tabWf_tsetBytes | with_reducible apply tabWf_foldl | with_reducible exact tabWf_nil | simp only [kept_upd])
  clear_value s2
  have k_s3 : Kept q k s3 := by
    dsimp only [s3]
    repeat' (first | with_reducible assumption | (intro) | with_reducible apply runKill_kept | with_reducible apply shuSquash_kept | with_reducible apply engSquash_kept | with_reducible apply squash_kept | with_reducible apply discSweep_kept | with_reducible apply slotSweep_kept | with_reducible apply finish_kept | with_reducible apply slotDrop_kept | with_reducible apply digReleaseAll_kept | with_reducible apply cplDrop_kept | with_reducible apply kept_foldl | with_reducible apply kept_foldl2 | with_reducible apply kept_ite | split | dsimp only | with_reducible apply kept_runs | (with_reducible refine Tabs.runs (Kept.tabs (q := q) (k := k) ?_)) | with_reducible apply tabUp_tset | with_reducible apply tabUp_filter | with_reducible apply tabUp_map | with_reducible apply tabUp_tmod | with_reducible apply tabUp_foldl | with_reducible apply tabUp_tdel | with_reducible apply tabUp_tput | with_reducible apply tabUp_filterMap | with_reducible exact tabUp_nil | with_reducible apply tabWf_tset | with_reducible apply tabWf_filter | with_reducible apply tabWf_tdel | with_reducible apply tabWf_tsetBytes | with_reducible apply tabWf_foldl | with_reducible exact tabWf_nil | simp only [kept_upd])
  clear_value s3
  have k_s4 : Kept q k s4 := by
    dsimp only [s4]
    repeat' (first | with_reducible assumption | (intro) | with_reducible apply runKill_kept | with_reducible apply shuSquash_kept | with_reducible apply engSquash_kept | with_reducible apply squash_kept | with_reducible apply discSweep_kept | with_reducible apply slotSweep_kept | with_reducible apply finish_kept | with_reducible apply slotDrop_kept | with_reducible apply digReleaseAll_kept | with_reducible apply cplDrop_kept | with_reducible apply kept_foldl | with_reducible apply kept_foldl2 | with_reducible apply kept_ite | split | dsimp only | with_reducible apply kept_runs | (with_reducible refine Tabs.runs (Kept.tabs (q := q) (k := k) ?_)) | with_reducible apply tabUp_tset | with_reducible apply tabUp_filter | with_reducible apply tabUp_map | with_reducible apply tabUp_tmod | with_reducible apply tabUp_foldl | with_reducible apply tabUp_tdel | with_reducible apply tabUp_tput | with_reducible apply tabUp_filterMap | with_reducible exact tabUp_nil | with_reducible apply tabWf_tset | with_reducible apply tabWf_filter | with_reducible apply tabWf_tdel | with_reducible apply tabWf_tsetBytes | with_reducible apply tabWf_foldl | with_reducible exact tabWf_nil | simp only [kept_upd])
  clear_value s4
  repeat' (first | with_reducible assumption | (intro) | with_reducible apply runKill_kept | with_reducible apply shuSquash_kept | with_reducible apply engSquash_kept | with_reducible apply squash_kept | with_reducible apply discSweep_kept | with_reducible apply slotSweep_kept | with_reducible apply finish_kept | with_reducible apply slotDrop_kept | with_reducible apply digReleaseAll_kept | with_reducible apply cplDrop_kept | with_reducible apply kept_foldl | with_reducible apply kept_foldl2 | with_reducible apply kept_ite | split | dsimp only | with_reducible apply kept_runs | (with_reducible refine Tabs.runs (Kept.tabs (q := q) (k := k) ?_)) | with_reducible apply tabUp_tset | with_reducible apply tabUp_filter | with_reducible apply tabUp_map | with_reducible apply tabUp_tmod | with_reducible apply tabUp_foldl | with_reducible apply tabUp_tdel | with_reducible apply tabUp_tput | with_reducible apply tabUp_filterMap | with_reducible exact tabUp_nil | with_reducible apply tabWf_tset | with_reducible apply tabWf_filter | with_reducible apply tabWf_tdel | with_reducible apply tabWf_tsetBytes | with_reducible apply tabWf_foldl | with_reducible exact tabWf_nil | simp only [kept_upd])

theorem ctlClear_kept {x0 : Nat} {x1 : Nat} {x2 : State} (h2 : Kept q k x2) : Kept q k (ctlClear x0 x1 x2) := by
  unfold ctlClear
  extract_lets s1 s2
  have k_s1 : Kept q k s1 := by
    dsimp only [s1]
    repeat' (first | with_reducible assumption | (intro) | with_reducible apply fnMod_kept | with_reducible apply selfTestStop_kept | with_reducible apply kept_ite | simp only [kept_upd] | split | dsimp only)
  clear_value s1
  have k_s2 : Kept q k s2 := by
    dsimp only [s2]
    repeat' (first | with_reducible assumption | (intro) | with_reducible apply fnMod_kept | with_reducible apply selfTestStop_kept | with_reducible apply kept_ite | simp only [kept_upd] | split | dsimp only)
  clear_value s2
  repeat' (first | with_reducible assumption | (intro) | with_reducible apply fnMod_kept | with_reducible apply selfTestStop_kept | with_reducible apply kept_ite | simp only [kept_upd] | split | dsimp only)

theorem ctlReset_kept {x0 : Nat} {x1 : Bool} {x2 : State} (h2 : Kept q k x2) : Kept q k (ctlReset x0 x1 x2) := by
  unfold ctlReset
  repeat' (first | with_reducible assumption | (intro) | with_reducible apply fnMod_kept | with_reducible apply ctlClear_kept | with_reducible apply fnStop_kept | with_reducible apply kept_ite | simp only [kept_upd] | split | dsimp only)

theorem execCcEnClear_kept {x0 : Nat} {x1 : State} (h1 : Kept q k x1) : KeptX q k (execCcEnClear x0 x1) := by
  unfold execCcEnClear
  repeat' (first | with_reducible assumption | (intro) | with_reducible apply later_kept | with_reducible apply fnMod_kept | with_reducible apply ctlReset_kept | with_reducible apply keptX_next | with_reducible exact keptX_fault | with_reducible apply keptX_ite | with_reducible apply kept_ite | simp only [kept_upd] | split | dsimp only)

theorem execCcEnSet_kept {x0 : Nat} {x1 : W32} {x2 : W32} {x3 : W64} {x4 : W64} {x5 : State} (h5 : Kept q k x5) : KeptX q k (execCcEnSet x0 x1 x2 x3 x4 x5) := by
  unfold execCcEnSet
  repeat' (first | with_reducible assumption | (intro) | with_reducible apply fnMod_kept | with_reducible apply keptX_next | with_reducible exact keptX_fault | with_reducible apply keptX_ite | with_reducible apply kept_ite | simp only [kept_upd] | split | dsimp only)

theorem execNormalShutdown_kept {x0 : Nat} {x1 : State} (h1 : Kept q k x1) : KeptX q k (execNormalShutdown x0 x1) := by
  unfold execNormalShutdown
  repeat' (first | with_reducible assumption | (intro) | with_reducible apply fnMod_kept | with_reducible apply keptX_next | with_reducible exact keptX_fault | with_reducible apply keptX_ite | with_reducible apply kept_ite | simp only [kept_upd] | split | dsimp only)

theorem shutdownFlush_kept {x0 : Nat} {x1 : State} (h1 : Kept q k x1) : Kept q k (shutdownFlush x0 x1) := by
  unfold shutdownFlush
  repeat' (first | with_reducible assumption | (intro) | with_reducible apply fnMod_kept | with_reducible apply kept_ite | simp only [kept_upd] | split | dsimp only)

theorem shutdownEnd_kept {x0 : Nat} {x1 : State} (h1 : Kept q k x1) : Kept q k (shutdownEnd x0 x1) := by
  unfold shutdownEnd
  repeat' (first | with_reducible assumption | (intro) | with_reducible apply shutdownFlush_kept | with_reducible apply fnMod_kept | with_reducible apply kept_ite | simp only [kept_upd] | split | dsimp only)

theorem execAbruptShutdown_kept {x0 : Nat} {x1 : State} (h1 : Kept q k x1) : KeptX q k (execAbruptShutdown x0 x1) := by
  unfold execAbruptShutdown
  repeat' (first | with_reducible assumption | (intro) | with_reducible apply later_kept | with_reducible apply ctlReset_kept | with_reducible apply keptX_next | with_reducible exact keptX_fault | with_reducible apply keptX_ite | with_reducible apply kept_ite | split | dsimp only)

theorem dlogEndAll_kept {x0 : State} (h0 : Kept q k x0) : Kept q k (dlogEndAll x0) := by
  unfold dlogEndAll
  repeat' (first | with_reducible assumption | (intro) | with_reducible apply fnMod_kept | with_reducible apply kept_foldl | with_reducible apply kept_foldl2 | simp only [kept_upd] | split | dsimp only)

theorem fnReset_kept {x0 : Nat} {x1 : State} (h1 : Kept q k x1) : Kept q k (fnReset x0 x1) := by
  unfold fnReset
  extract_lets s1 s2
  have k_s1 : Kept q k s1 := by
    dsimp only [s1]
    repeat' (first | with_reducible assumption | (intro) | with_reducible apply unloadAll_kept | with_reducible apply fnStop_kept | with_reducible apply regSet_kept | with_reducible apply ctlClear_kept | with_reducible apply fnMod_kept | with_reducible apply kept_ite | simp only [kept_upd] | split | dsimp only)
  clear_value s1
  have k_s2 : Kept q k s2 := by
    dsimp only [s2]
    repeat' (first | with_reducible assumption | (intro) | with_reducible apply unloadAll_kept | with_reducible apply fnStop_kept | with_reducible apply regSet_kept | with_reducible apply ctlClear_kept | with_reducible apply fnMod_kept | with_reducible apply kept_ite | simp only [kept_upd] | split | dsimp only)
  clear_value s2
  repeat' (first | with_reducible assumption | (intro) | with_reducible apply unloadAll_kept | with_reducible apply fnStop_kept | with_reducible apply regSet_kept | with_reducible apply ctlClear_kept | with_reducible apply fnMod_kept | with_reducible apply kept_ite | simp only [kept_upd] | split | dsimp only)

theorem flrDone_kept {x0 : Nat} {x1 : State} (h1 : Kept q k x1) : Kept q k (flrDone x0 x1) := by
  unfold flrDone
  repeat' (first | with_reducible assumption | (intro) | with_reducible apply note_kept | with_reducible apply regAdd32_kept | with_reducible apply fnMod_kept | with_reducible apply fnReset_kept | simp only [kept_upd] | split | dsimp only)

theorem flrAct_kept {x0 : Nat} {x1 : State} (h1 : Kept q k x1) : Kept q k (flrAct x0 x1) := by
  unfold flrAct
  repeat' (first | with_reducible assumption | (intro) | with_reducible apply flrDone_kept | with_reducible apply dlogEndAll_kept | with_reducible apply kept_foldl | with_reducible apply kept_foldl2 | with_reducible apply kept_ite | simp only [kept_upd] | split | dsimp only)

theorem execFlr_kept {x0 : Nat} {x1 : State} (h1 : Kept q k x1) : KeptX q k (execFlr x0 x1) := by
  unfold execFlr
  repeat' (first | with_reducible assumption | (intro) | with_reducible apply later_kept | with_reducible apply fnMod_kept | with_reducible apply keptX_next | with_reducible exact keptX_fault | with_reducible apply keptX_ite | with_reducible apply kept_ite | simp only [kept_upd] | split | dsimp only)

theorem execVfEnableClear_kept {x0 : State} (h0 : Kept q k x0) : KeptX q k (execVfEnableClear x0) := by
  unfold execVfEnableClear
  repeat' (first | with_reducible assumption | (intro) | with_reducible apply later_kept | with_reducible apply kept_foldl | with_reducible apply kept_foldl2 | with_reducible apply keptX_next | with_reducible exact keptX_fault | with_reducible apply keptX_ite | with_reducible apply kept_ite | simp only [kept_upd] | split | dsimp only)

theorem execVfEnableSet_kept {x0 : Nat} {x1 : State} (h1 : Kept q k x1) : KeptX q k (execVfEnableSet x0 x1) := by
  unfold execVfEnableSet
  repeat' (first | with_reducible assumption | (intro) | with_reducible apply keptX_next | with_reducible exact keptX_fault | with_reducible apply keptX_ite | with_reducible apply kept_ite | simp only [kept_upd] | split | dsimp only)

theorem execBusMasterEnableClear_kept {x0 : Nat} {x1 : State} (h1 : Kept q k x1) : KeptX q k (execBusMasterEnableClear x0 x1) := by
  unfold execBusMasterEnableClear
  repeat' (first | with_reducible assumption | (intro) | with_reducible apply fnMod_kept | with_reducible apply keptX_next | with_reducible exact keptX_fault | with_reducible apply keptX_ite | with_reducible apply kept_ite | simp only [kept_upd] | split | dsimp only)

theorem sendPending_kept {x0 : Nat} {x1 : State} (h1 : Kept q k x1) : Kept q k (sendPending x0 x1) := by
  unfold sendPending
  repeat' (first | with_reducible assumption | (intro) | with_reducible apply msix_kept | with_reducible apply fnMod_kept | with_reducible apply kept_foldl | with_reducible apply kept_foldl2 | simp only [kept_upd] | split | dsimp only)

theorem execBusMasterEnableSet_kept {x0 : Nat} {x1 : State} (h1 : Kept q k x1) : KeptX q k (execBusMasterEnableSet x0 x1) := by
  unfold execBusMasterEnableSet
  repeat' (first | with_reducible assumption | (intro) | with_reducible apply fnMod_kept | with_reducible apply sendPending_kept | with_reducible apply drainCpl_kept | with_reducible apply keptX_next | with_reducible exact keptX_fault | with_reducible apply keptX_ite | with_reducible apply kept_ite | simp only [kept_upd] | split | dsimp only)

theorem execMemorySpaceEnableClear_kept {x0 : Nat} {x1 : State} (h1 : Kept q k x1) : KeptX q k (execMemorySpaceEnableClear x0 x1) := by
  unfold execMemorySpaceEnableClear
  repeat' (first | with_reducible assumption | (intro) | with_reducible apply fnMod_kept | with_reducible apply keptX_next | with_reducible exact keptX_fault | with_reducible apply keptX_ite | with_reducible apply kept_ite | simp only [kept_upd] | split | dsimp only)

theorem fnFenceAct_kept {x0 : Nat} {x1 : State} (h1 : Kept q k x1) : Kept q k (fnFenceAct x0 x1) := by
  unfold fnFenceAct
  repeat' (first | with_reducible assumption | (intro) | with_reducible apply fnMod_kept | with_reducible apply fnStop_kept | with_reducible apply kept_ite | simp only [kept_upd] | split | dsimp only)

theorem killRuns_kept {x0 : Nat} {x1 : Nat} {x2 : State} (h2 : Kept q k x2) : Kept q k (killRuns x0 x1 x2) := by
  unfold killRuns
  repeat' (first | with_reducible assumption | (intro) | with_reducible apply note_kept | with_reducible apply later_kept | with_reducible apply kept_foldl | with_reducible apply kept_foldl2 | with_reducible apply kept_ite | split | dsimp only | with_reducible apply kept_runs | (with_reducible refine Tabs.runs (Kept.tabs (q := q) (k := k) ?_)) | with_reducible apply tabUp_tset | with_reducible apply tabUp_filter | with_reducible apply tabUp_map | with_reducible apply tabUp_tmod | with_reducible apply tabUp_foldl | with_reducible apply tabUp_tdel | with_reducible apply tabUp_tput | with_reducible apply tabUp_filterMap | with_reducible exact tabUp_nil | with_reducible apply tabWf_tset | with_reducible apply tabWf_filter | with_reducible apply tabWf_tdel | with_reducible apply tabWf_tsetBytes | with_reducible apply tabWf_foldl | with_reducible exact tabWf_nil)

theorem execKillRuns_kept {x0 : Nat} {x1 : W32} {x2 : State} (h2 : Kept q k x2) : KeptX q k (execKillRuns x0 x1 x2) := by
  unfold execKillRuns
  repeat' (first | with_reducible assumption | (intro) | with_reducible apply killRuns_kept | with_reducible apply keptX_next | with_reducible exact keptX_fault | with_reducible apply keptX_ite | with_reducible apply kept_ite | split | dsimp only)

theorem heldSend_kept {x0 : Nat} {x1 : State} (h1 : Kept q k x1) : Kept q k (heldSend x0 x1) := by
  unfold heldSend
  repeat' (first | with_reducible assumption | (intro) | with_reducible apply msix_kept | with_reducible apply fnMod_kept | with_reducible apply kept_foldl | with_reducible apply kept_foldl2 | with_reducible apply kept_ite | simp only [kept_upd] | split | dsimp only)

theorem dlogPut_kept {x0 : Nat} {x1 : Nat} {x2 : State} (h2 : Kept q k x2) : Kept q k (dlogPut x0 x1 x2) := by
  unfold dlogPut
  repeat' (first | with_reducible assumption | (intro) | with_reducible apply regAdd_kept | with_reducible apply fnMod_kept | with_reducible apply emit_kept | with_reducible apply kept_ite | simp only [kept_upd] | split | dsimp only)

theorem dlogFlush_kept {x0 : Nat} {x1 : State} (h1 : Kept q k x1) : Kept q k (dlogFlush x0 x1) := by
  unfold dlogFlush
  repeat' (first | with_reducible assumption | (intro) | with_reducible apply dlogPut_kept | with_reducible apply kept_foldl | with_reducible apply kept_foldl2 | split | dsimp only)

theorem execDirtyLineWrite_kept {x0 : Nat} {x1 : Nat} {x2 : State} (h2 : Kept q k x2) : KeptX q k (execDirtyLineWrite x0 x1 x2) := by
  unfold execDirtyLineWrite
  repeat' (first | with_reducible assumption | (intro) | with_reducible apply dlogPut_kept | with_reducible apply keptX_next | with_reducible exact keptX_fault | with_reducible apply keptX_ite | with_reducible apply kept_ite | split | dsimp only)

theorem logSwap_kept {x0 : Nat} {x1 : State} (h1 : Kept q k x1) : Kept q k (logSwap x0 x1) := by
  unfold logSwap
  repeat' (first | with_reducible assumption | (intro) | with_reducible apply finish_kept | with_reducible apply later_kept | with_reducible apply ctxSet_kept | with_reducible apply kept_ite | simp only [kept_upd] | split | dsimp only)

theorem logSwapAct_kept {x0 : Nat} {x1 : State} (h1 : Kept q k x1) : Kept q k (logSwapAct x0 x1) := by
  unfold logSwapAct
  repeat' (first | with_reducible assumption | (intro) | with_reducible apply finish_kept | with_reducible apply fnMod_kept | with_reducible apply dlogFlush_kept | with_reducible apply finishDw_kept | with_reducible apply note_kept | with_reducible apply regSet_kept | with_reducible apply kept_ite | simp only [kept_upd] | split | dsimp only)

theorem logRow_kept {x0 : Nat} {x1 : Nat} {x2 : State} (h2 : Kept q k x2) : Kept q k (logRow x0 x1 x2) := by
  unfold logRow
  repeat' (first | with_reducible assumption | (intro) | with_reducible apply logSwap_kept | with_reducible apply kept_ite | split | dsimp only)

theorem execLogSwapStart_kept {x0 : Nat} {x1 : State} (h1 : Kept q k x1) : KeptX q k (execLogSwapStart x0 x1) := by
  unfold execLogSwapStart
  repeat' (first | with_reducible assumption | (intro) | with_reducible apply logRow_kept | with_reducible apply keptX_next | with_reducible exact keptX_fault | split | dsimp only)

theorem execLogSwapSwap_kept {x0 : Nat} {x1 : State} (h1 : Kept q k x1) : KeptX q k (execLogSwapSwap x0 x1) := by
  unfold execLogSwapSwap
  repeat' (first | with_reducible assumption | (intro) | with_reducible apply logRow_kept | with_reducible apply keptX_next | with_reducible exact keptX_fault | split | dsimp only)

theorem execLogSwapStop_kept {x0 : Nat} {x1 : State} (h1 : Kept q k x1) : KeptX q k (execLogSwapStop x0 x1) := by
  unfold execLogSwapStop
  repeat' (first | with_reducible assumption | (intro) | with_reducible apply logRow_kept | with_reducible apply keptX_next | with_reducible exact keptX_fault | split | dsimp only)

end Sys2Proof.Machine
end

