-- ==== Sys2Proof/Laws/KeptCxl.lean ====
section
/-!
SUPPORT. What the operations of Machine/Cxl.lean keep (`Kept`).
-/
namespace Sys2Proof.Machine

set_option linter.all false

variable {q : List Instr} {k : W64}

theorem cxlMod_kept {x0 : Cxl → Cxl} {x1 : State} (h1 : Kept q k x1) : Kept q k (cxlMod x0 x1) := by
  unfold cxlMod
  repeat' (first | with_reducible assumption | (intro) | simp only [kept_upd] | split | dsimp only)

theorem fnsReset_kept {x0 : State} (h0 : Kept q k x0) : Kept q k (fnsReset x0) := by
  unfold fnsReset
  repeat' (first | with_reducible assumption | (intro) | with_reducible apply fnReset_kept | with_reducible apply cxlMod_kept | with_reducible apply dlogEndAll_kept | with_reducible apply kept_foldl | with_reducible apply kept_foldl2 | with_reducible apply kept_ite | simp only [kept_upd] | split | dsimp only)

theorem linkLost_kept {x0 : Bool} {x1 : State} (h1 : Kept q k x1) : Kept q k (linkLost x0 x1) := by
  unfold linkLost
  repeat' (first | with_reducible assumption | (intro) | with_reducible apply later_kept | with_reducible apply regAdd32_kept | with_reducible apply cxlMod_kept | with_reducible apply kept_ite | simp only [kept_upd] | split | dsimp only)

theorem linkDownAct_kept {x0 : State} (h0 : Kept q k x0) : Kept q k (linkDownAct x0) := by
  unfold linkDownAct
  repeat' (first | with_reducible assumption | (intro) | with_reducible apply note_kept | with_reducible apply fnsReset_kept | with_reducible apply kept_ite | split | dsimp only)

theorem execLinkDown_kept {x0 : State} (h0 : Kept q k x0) : KeptX q k (execLinkDown x0) := by
  unfold execLinkDown
  repeat' (first | with_reducible assumption | (intro) | with_reducible apply linkLost_kept | with_reducible apply keptX_next | with_reducible exact keptX_fault | with_reducible apply keptX_ite | with_reducible apply kept_ite | split | dsimp only)

theorem execLinkUp_kept {x0 : Nat} {x1 : Nat} {x2 : Bool} {x3 : Bool} {x4 : Nat} {x5 : State} (h5 : Kept q k x5) : KeptX q k (execLinkUp x0 x1 x2 x3 x4 x5) := by
  unfold execLinkUp
  repeat' (first | with_reducible assumption | (intro) | with_reducible apply note_kept | with_reducible apply cxlMod_kept | with_reducible apply keptX_next | with_reducible exact keptX_fault | with_reducible apply keptX_ite | with_reducible apply kept_ite | simp only [kept_upd] | split | dsimp only)

theorem execLinkRecovery_kept {x0 : Nat} {x1 : Nat} {x2 : State} (h2 : Kept q k x2) : KeptX q k (execLinkRecovery x0 x1 x2) := by
  unfold execLinkRecovery
  repeat' (first | with_reducible assumption | (intro) | with_reducible apply regAdd_kept | with_reducible apply cxlMod_kept | with_reducible apply note_kept | with_reducible apply linkLost_kept | with_reducible apply keptX_next | with_reducible exact keptX_fault | with_reducible apply keptX_ite | with_reducible apply kept_ite | simp only [kept_upd] | split | dsimp only)

theorem execLinkTrainingRetry_kept {x0 : State} (h0 : Kept q k x0) : KeptX q k (execLinkTrainingRetry x0) := by
  unfold execLinkTrainingRetry
  repeat' (first | with_reducible assumption | (intro) | with_reducible apply cxlMod_kept | with_reducible apply keptX_next | with_reducible exact keptX_fault | with_reducible apply keptX_ite | with_reducible apply kept_ite | simp only [kept_upd] | split | dsimp only)

theorem linkCtl_kept {x0 : Nat} {x1 : State} (h1 : Kept q k x1) : Kept q k (linkCtl x0 x1) := by
  unfold linkCtl
  repeat' (first | with_reducible assumption | (intro) | with_reducible apply mergeRw_kept | (with_reducible refine mergeRw_keptE (by assumption) ?_) | with_reducible apply regSet_kept | with_reducible apply cxlMod_kept | with_reducible apply kept_ite | simp only [kept_upd] | split | dsimp only)

theorem execRetrain_kept {x0 : W32} {x1 : State} (h1 : Kept q k x1) : KeptX q k (execRetrain x0 x1) := by
  unfold execRetrain
  repeat' (first | with_reducible assumption | (intro) | with_reducible apply linkCtl_kept | with_reducible apply keptX_next | with_reducible exact keptX_fault | with_reducible apply keptX_ite | with_reducible apply kept_ite | split | dsimp only)

theorem execPerstAssert_kept {x0 : State} (h0 : Kept q k x0) : KeptX q k (execPerstAssert x0) := by
  unfold execPerstAssert
  repeat' (first | with_reducible assumption | (intro) | with_reducible apply regSet_kept | with_reducible apply linkLost_kept | with_reducible apply later_kept | with_reducible apply keptX_next | with_reducible exact keptX_fault | with_reducible apply keptX_ite | with_reducible apply kept_ite | simp only [kept_upd] | split | dsimp only)

theorem execPerstDeassert_kept {x0 : State} (h0 : Kept q k x0) : KeptX q k (execPerstDeassert x0) := by
  unfold execPerstDeassert
  repeat' (first | with_reducible assumption | (intro) | with_reducible apply keptX_next | with_reducible exact keptX_fault | simp only [kept_upd] | split | dsimp only)

theorem execHdmDecoderCommit_kept {x0 : Nat} {x1 : Nat} {x2 : Nat} {x3 : Nat} {x4 : Bool} {x5 : State} (h5 : Kept q k x5) : KeptX q k (execHdmDecoderCommit x0 x1 x2 x3 x4 x5) := by
  unfold execHdmDecoderCommit
  repeat' (first | with_reducible assumption | (intro) | with_reducible apply cxlMod_kept | with_reducible apply note_kept | with_reducible apply keptX_next | with_reducible exact keptX_fault | with_reducible apply keptX_ite | with_reducible apply kept_ite | simp only [kept_upd] | split | dsimp only)

theorem windowsZero_kept {x0 : State} (h0 : Kept q k x0) : Kept q k (windowsZero x0) := by
  unfold windowsZero
  repeat' (first | with_reducible assumption | (intro) | with_reducible apply dramZero_kept | with_reducible apply hamZero_kept | with_reducible apply kept_foldl | with_reducible apply kept_foldl2 | split | dsimp only)

theorem memPoison_kept {x0 : State} (h0 : Kept q k x0) : Kept q k (memPoison x0) := by
  unfold memPoison
  repeat' (first | with_reducible assumption | (intro) | with_reducible apply regAdd_kept | with_reducible apply emit_kept | split | dsimp only)

theorem addRecord_kept {x0 : Nat} {x1 : State} (h1 : Kept q k x1) : Kept q k (addRecord x0 x1) := by
  unfold addRecord
  repeat' (first | with_reducible assumption | (intro) | with_reducible apply msix_kept | with_reducible apply kept_ite | simp only [kept_upd] | split | dsimp only)

theorem memReadLine_kept {x0 : Nat} {x1 : State} (h1 : Kept q k x1) : Kept q k (memReadLine x0 x1) := by
  unfold memReadLine
  repeat' (first | with_reducible assumption | (intro) | with_reducible apply wake_kept | with_reducible apply memPoison_kept | with_reducible apply note_kept | with_reducible apply regSet_kept | with_reducible apply errResp_kept | with_reducible apply emit_kept | with_reducible apply warpMove_kept | with_reducible apply regAdd_kept | with_reducible apply memMet_kept | with_reducible apply addRecord_kept | with_reducible apply kept_ite | simp only [kept_upd] | split | dsimp only)

theorem memQueue_kept {x0 : MemReq} {x1 : State} (h1 : Kept q k x1) : Kept q k (memQueue x0 x1) := by
  unfold memQueue
  repeat' (first | with_reducible assumption | (intro) | with_reducible apply cxlMod_kept | with_reducible apply wake_kept | simp only [kept_upd] | split | dsimp only)

theorem execCxlMemRead_kept {x0 : Nat} {x1 : State} (h1 : Kept q k x1) : KeptX q k (execCxlMemRead x0 x1) := by
  unfold execCxlMemRead
  repeat' (first | with_reducible assumption | (intro) | with_reducible apply memQueue_kept | with_reducible apply memReadLine_kept | with_reducible apply keptX_next | with_reducible exact keptX_fault | with_reducible apply keptX_ite | with_reducible apply kept_ite | split | dsimp only)

theorem memWordWrite_kept {x0 : Nat} {x1 : Nat} {x2 : Nat} {x3 : Bytes} {x4 : Nat} {x5 : Bool} {x6 : State} (h6 : Kept q k x6) : Kept q k (memWordWrite x0 x1 x2 x3 x4 x5 x6) := by
  unfold memWordWrite
  repeat' (first | with_reducible assumption | (intro) | with_reducible apply memMet_kept | with_reducible apply memWrite_kept | (with_reducible refine memWrite_keptE (by assumption) ?_) | with_reducible apply kept_getD | with_reducible apply keptP_getD | with_reducible apply kept_ite | split | dsimp only)

theorem memWriteLine_kept {x0 : Nat} {x1 : Bytes} {x2 : Nat} {x3 : Bool} {x4 : State} (h4 : Kept q k x4) : Kept q k (memWriteLine x0 x1 x2 x3 x4) := by
  unfold memWriteLine
  repeat' (first | with_reducible assumption | (intro) | with_reducible apply wake_kept | with_reducible apply emit_kept | with_reducible apply regAdd_kept | with_reducible apply note_kept | with_reducible apply regSet_kept | with_reducible apply errResp_kept | with_reducible apply warpMove_kept | with_reducible apply memWordWrite_kept | with_reducible apply kept_foldl | with_reducible apply kept_foldl2 | with_reducible apply kept_ite | simp only [kept_upd] | split | dsimp only)

theorem execCxlMemWrite_kept {x0 : Nat} {x1 : Bytes} {x2 : Nat} {x3 : Bool} {x4 : State} (h4 : Kept q k x4) : KeptX q k (execCxlMemWrite x0 x1 x2 x3 x4) := by
  unfold execCxlMemWrite
  repeat' (first | with_reducible assumption | (intro) | with_reducible apply memQueue_kept | with_reducible apply memWriteLine_kept | with_reducible apply keptX_next | with_reducible exact keptX_fault | with_reducible apply keptX_ite | with_reducible apply kept_ite | split | dsimp only)

theorem memResume_kept {x0 : State} (h0 : Kept q k x0) : Kept q k (memResume x0) := by
  unfold memResume
  repeat' (first | with_reducible assumption | (intro) | with_reducible apply memQueue_kept | with_reducible apply memReadLine_kept | with_reducible apply memWriteLine_kept | with_reducible apply cxlMod_kept | with_reducible apply kept_foldl | with_reducible apply kept_foldl2 | with_reducible apply kept_ite | simp only [kept_upd] | split | dsimp only)

theorem mbox_kept {x0 : Nat} {x1 : Bytes} {x2 : State} (h2 : Kept q k x2) : Kept q k (mbox x0 x1 x2) := by
  unfold mbox
  repeat' (first | with_reducible assumption | (intro) | with_reducible apply emit_kept | with_reducible apply cxlMod_kept | with_reducible apply kept_ite | simp only [kept_upd] | split | dsimp only)

theorem execIdentifyMemoryDevice_kept {x0 : State} (h0 : Kept q k x0) : KeptX q k (execIdentifyMemoryDevice x0) := by
  unfold execIdentifyMemoryDevice
  repeat' (first | with_reducible assumption | (intro) | with_reducible apply freeBytes_kept | (with_reducible refine freeBytes_keptE (by assumption) ?_) | with_reducible apply mbox_kept | with_reducible apply keptX_next | with_reducible exact keptX_fault | split | dsimp only)

theorem execGetSupportedLogs_kept {x0 : State} (h0 : Kept q k x0) : KeptX q k (execGetSupportedLogs x0) := by
  unfold execGetSupportedLogs
  repeat' (first | with_reducible assumption | (intro) | with_reducible apply mbox_kept | with_reducible apply keptX_next | with_reducible exact keptX_fault | split | dsimp only)

theorem execGetLog_kept {x0 : Bytes} {x1 : State} (h1 : Kept q k x1) : KeptX q k (execGetLog x0 x1) := by
  unfold execGetLog
  repeat' (first | with_reducible assumption | (intro) | with_reducible apply mbox_kept | with_reducible apply keptX_next | with_reducible exact keptX_fault | with_reducible apply keptX_ite | with_reducible apply kept_ite | split | dsimp only)

theorem execGetEventRecords_kept {x0 : Bytes} {x1 : State} (h1 : Kept q k x1) : KeptX q k (execGetEventRecords x0 x1) := by
  unfold execGetEventRecords
  repeat' (first | with_reducible assumption | (intro) | with_reducible apply mbox_kept | with_reducible apply keptX_next | with_reducible exact keptX_fault | with_reducible apply keptX_ite | with_reducible apply kept_ite | split | dsimp only)

theorem execClearEventRecords_kept {x0 : Bytes} {x1 : State} (h1 : Kept q k x1) : KeptX q k (execClearEventRecords x0 x1) := by
  unfold execClearEventRecords
  repeat' (first | with_reducible assumption | (intro) | with_reducible apply cxlMod_kept | with_reducible apply mbox_kept | with_reducible apply keptX_next | with_reducible exact keptX_fault | with_reducible apply keptX_ite | with_reducible apply kept_ite | simp only [kept_upd] | split | dsimp only)

theorem execGetEventInterruptPolicy_kept {x0 : State} (h0 : Kept q k x0) : KeptX q k (execGetEventInterruptPolicy x0) := by
  unfold execGetEventInterruptPolicy
  repeat' (first | with_reducible assumption | (intro) | with_reducible apply mbox_kept | with_reducible apply keptX_next | with_reducible exact keptX_fault | split | dsimp only)

theorem execSetEventInterruptPolicy_kept {x0 : Bytes} {x1 : State} (h1 : Kept q k x1) : KeptX q k (execSetEventInterruptPolicy x0 x1) := by
  unfold execSetEventInterruptPolicy
  repeat' (first | with_reducible assumption | (intro) | with_reducible apply mbox_kept | with_reducible apply cxlMod_kept | with_reducible apply keptX_next | with_reducible exact keptX_fault | with_reducible apply keptX_ite | with_reducible apply kept_ite | simp only [kept_upd] | split | dsimp only)

theorem execGetTimestamp_kept {x0 : State} (h0 : Kept q k x0) : KeptX q k (execGetTimestamp x0) := by
  unfold execGetTimestamp
  repeat' (first | with_reducible assumption | (intro) | with_reducible apply mbox_kept | with_reducible apply keptX_next | with_reducible exact keptX_fault | split | dsimp only)

theorem execSetTimestamp_kept {x0 : Bytes} {x1 : State} (h1 : Kept q k x1) : KeptX q k (execSetTimestamp x0 x1) := by
  unfold execSetTimestamp
  repeat' (first | with_reducible assumption | (intro) | with_reducible apply mbox_kept | with_reducible apply cxlMod_kept | with_reducible apply keptX_next | with_reducible exact keptX_fault | with_reducible apply keptX_ite | with_reducible apply kept_ite | simp only [kept_upd] | split | dsimp only)

theorem mboxRun_kept {x0 : Nat} {x1 : Bytes} {x2 : State} (h2 : Kept q k x2) : Kept q k (mboxRun x0 x1 x2) := by
  unfold mboxRun
  refine stateOr_kept h2 ?_
  split
  · exact execIdentifyMemoryDevice_kept h2
  · exact execGetSupportedLogs_kept h2
  · exact execGetLog_kept h2
  · exact execGetEventRecords_kept h2
  · exact execClearEventRecords_kept h2
  · exact execGetEventInterruptPolicy_kept h2
  · exact execSetEventInterruptPolicy_kept h2
  · exact execGetTimestamp_kept h2
  · exact execSetTimestamp_kept h2
  · exact keptX_next (mbox_kept h2)

theorem execDoeDiscovery_kept {x0 : Nat} {x1 : State} (h1 : Kept q k x1) : KeptX q k (execDoeDiscovery x0 x1) := by
  unfold execDoeDiscovery
  repeat' (first | with_reducible assumption | (intro) | with_reducible apply regAdd32_kept | with_reducible apply emit_kept | with_reducible apply keptX_next | with_reducible exact keptX_fault | with_reducible apply keptX_ite | with_reducible apply kept_ite | simp only [kept_upd] | split | dsimp only)

theorem execCdatTableAccess_kept {x0 : Nat} {x1 : State} (h1 : Kept q k x1) : KeptX q k (execCdatTableAccess x0 x1) := by
  unfold execCdatTableAccess
  repeat' (first | with_reducible assumption | (intro) | with_reducible apply regAdd32_kept | with_reducible apply emit_kept | with_reducible apply keptX_next | with_reducible exact keptX_fault | with_reducible apply keptX_ite | with_reducible apply kept_ite | simp only [kept_upd] | split | dsimp only)

theorem execDoeAbort_kept {x0 : State} (h0 : Kept q k x0) : KeptX q k (execDoeAbort x0) := by
  unfold execDoeAbort
  repeat' (first | with_reducible assumption | (intro) | with_reducible apply regAdd32_kept | with_reducible apply keptX_next | with_reducible exact keptX_fault | with_reducible apply keptX_ite | with_reducible apply kept_ite | split | dsimp only)

end Sys2Proof.Machine
end

