-- ==== Sys2Proof/Laws/KeptParty.lean ====
section
/-!
SUPPORT. What the operations of Machine/Party.lean keep (`Kept`).
-/
namespace Sys2Proof.Machine

set_option linter.all false

variable {q : List Instr} {k : W64}

theorem ptyMod_kept {x0 : Party → Party} {x1 : State} (h1 : Kept q k x1) : Kept q k (ptyMod x0 x1) := by
  unfold ptyMod
  repeat' (first | with_reducible assumption | (intro) | simp only [kept_upd] | split | dsimp only)

theorem ptyTag_kept {x0 : Bytes} {x1 : State} (h1 : Kept q k x1) : Kept q k ((ptyTag x0 x1)).2 := by
  unfold ptyTag
  repeat' (first | with_reducible assumption | (intro) | with_reducible apply keyUse_kept | (with_reducible refine keyUse_keptE (by assumption) ?_) | simp only [kept_upd] | split | dsimp only)
theorem ptyTag_keptE {x0 : Bytes} {x1 : State} {a : Option Bytes} {t : State} (e : ptyTag x0 x1 = (a, t)) (h1 : Kept q k x1) : Kept q k t := by
  have w := ptyTag_kept (q := q) (k := k) (x0 := x0) (x1 := x1) h1
  rw [e] at w; exact w

theorem cellSend_kept {x0 : Nat} {x1 : Nat} {x2 : Nat} {x3 : Bytes} {x4 : State} (h4 : Kept q k x4) : Kept q k ((cellSend x0 x1 x2 x3 x4)).2 := by
  unfold cellSend
  repeat' (first | with_reducible assumption | (intro) | with_reducible apply ptyTag_kept | (with_reducible refine ptyTag_keptE (by assumption) ?_) | with_reducible apply regAdd_kept | with_reducible apply emit_kept | with_reducible apply ptyMod_kept | with_reducible apply keptP_ite | with_reducible apply kept_ite | with_reducible apply keptPP_ite | simp only [kept_upd] | split | dsimp only)
theorem cellSend_keptE {x0 : Nat} {x1 : Nat} {x2 : Nat} {x3 : Bytes} {x4 : State} {a : Option Nat} {t : State} (e : cellSend x0 x1 x2 x3 x4 = (a, t)) (h4 : Kept q k x4) : Kept q k t := by
  have w := cellSend_kept (q := q) (k := k) (x0 := x0) (x1 := x1) (x2 := x2) (x3 := x3) (x4 := x4) h4
  rw [e] at w; exact w

theorem ptyPump_kept {x0 : State} (h0 : Kept q k x0) : Kept q k (ptyPump x0) := by
  unfold ptyPump
  repeat' (first | with_reducible assumption | (intro) | with_reducible apply cellSend_kept | (with_reducible refine cellSend_keptE (by assumption) ?_) | with_reducible apply ptyMod_kept | with_reducible apply kept_foldl | with_reducible apply kept_foldl2 | with_reducible apply kept_ite | simp only [kept_upd] | split | dsimp only)

theorem ptySendAt_kept {x0 : Nat} {x1 : Nat} {x2 : Nat} {x3 : Bytes} {x4 : State} (h4 : Kept q k x4) : Kept q k (ptySendAt x0 x1 x2 x3 x4) := by
  unfold ptySendAt
  repeat' (first | with_reducible assumption | (intro) | with_reducible apply ptyMod_kept | with_reducible apply ptyPump_kept | with_reducible apply kept_ite | simp only [kept_upd] | split | dsimp only)

theorem ptySend_kept {x0 : Nat} {x1 : Nat} {x2 : Bytes} {x3 : State} (h3 : Kept q k x3) : Kept q k (ptySend x0 x1 x2 x3) := by
  unfold ptySend
  repeat' (first | with_reducible assumption | (intro) | with_reducible apply ptySendAt_kept | split | dsimp only)

theorem ptySteward_kept {x0 : Nat} {x1 : Bytes} {x2 : State} (h2 : Kept q k x2) : Kept q k (ptySteward x0 x1 x2) := by
  unfold ptySteward
  repeat' (first | with_reducible assumption | (intro) | with_reducible apply ptySend_kept | simp only [kept_upd] | split | dsimp only)

theorem holdChange_kept {x0 : Nat} {x1 : Member → Member} {x2 : State} (h2 : Kept q k x2) : Kept q k (holdChange x0 x1 x2) := by
  unfold holdChange
  repeat' (first | with_reducible assumption | (intro) | with_reducible apply ptyMod_kept | simp only [kept_upd] | split | dsimp only)

theorem holdState_kept {x0 : Nat} {x1 : List MState} {x2 : MState} {x3 : State} (h3 : Kept q k x3) : Kept q k (holdState x0 x1 x2 x3) := by
  unfold holdState
  repeat' (first | with_reducible assumption | (intro) | with_reducible apply holdChange_kept | with_reducible apply kept_ite | simp only [kept_upd] | split | dsimp only)

theorem ptyDurable_kept {x0 : PartyRec} {x1 : State} (h1 : Kept q k x1) : Kept q k (ptyDurable x0 x1) := by
  unfold ptyDurable
  repeat' (first | with_reducible assumption | (intro) | simp only [kept_upd] | split | dsimp only)

theorem ptyClear_kept {x0 : State} (h0 : Kept q k x0) : Kept q k (ptyClear x0) := by
  unfold ptyClear
  repeat' (first | with_reducible assumption | (intro) | with_reducible apply ptyDurable_kept | simp only [kept_upd] | split | dsimp only)

theorem ptyRecord_kept {x0 : State} (h0 : Kept q k x0) : Kept q k (ptyRecord x0) := by
  unfold ptyRecord
  repeat' (first | with_reducible assumption | (intro) | with_reducible apply ptyDurable_kept | split | dsimp only)

theorem joinEnd_kept {x0 : Nat} {x1 : State} (h1 : Kept q k x1) : Kept q k (joinEnd x0 x1) := by
  unfold joinEnd
  repeat' (first | with_reducible assumption | (intro) | with_reducible apply ptyMod_kept | with_reducible apply finishDw_kept | with_reducible apply kept_ite | simp only [kept_upd] | split | dsimp only)

theorem leaveEnd_kept {x0 : Nat} {x1 : State} (h1 : Kept q k x1) : Kept q k (leaveEnd x0 x1) := by
  unfold leaveEnd
  repeat' (first | with_reducible assumption | (intro) | with_reducible apply ptyMod_kept | with_reducible apply finishDw_kept | with_reducible apply kept_ite | simp only [kept_upd] | split | dsimp only)

theorem memberChange_kept {x0 : Roster} {x1 : Roster} {x2 : State} {x3 : Nat} (h2 : Kept q k x2) : Kept q k (memberChange x0 x1 x2 x3) := by
  unfold memberChange
  repeat' (first | with_reducible assumption | (intro) | with_reducible apply note_kept | with_reducible apply ptyMod_kept | with_reducible apply kept_ite | simp only [kept_upd] | split | dsimp only)

theorem ownChange_kept {x0 : State} (h0 : Kept q k x0) : Kept q k (ownChange x0) := by
  unfold ownChange
  repeat' (first | with_reducible assumption | (intro) | with_reducible apply joinEnd_kept | with_reducible apply note_kept | with_reducible apply ptyMod_kept | with_reducible apply leaveEnd_kept | with_reducible apply ptyClear_kept | with_reducible apply kept_ite | simp only [kept_upd] | split | dsimp only)

theorem applyRoster_kept {x0 : Roster} {x1 : State} (h1 : Kept q k x1) : Kept q k (applyRoster x0 x1) := by
  unfold applyRoster
  extract_lets old xs changed gone s1 s2
  have k_s1 : Kept q k s1 := by
    dsimp only [s1]
    repeat' (first | with_reducible assumption | (intro) | with_reducible apply ptyRecord_kept | with_reducible apply ptyMod_kept | with_reducible apply memberChange_kept | with_reducible apply ownChange_kept | with_reducible apply kept_foldl | with_reducible apply kept_foldl2 | simp only [kept_upd] | split | dsimp only)
  clear_value s1
  have k_s2 : Kept q k s2 := by
    dsimp only [s2]
    repeat' (first | with_reducible assumption | (intro) | with_reducible apply ptyRecord_kept | with_reducible apply ptyMod_kept | with_reducible apply memberChange_kept | with_reducible apply ownChange_kept | with_reducible apply kept_foldl | with_reducible apply kept_foldl2 | simp only [kept_upd] | split | dsimp only)
  clear_value s2
  repeat' (first | with_reducible assumption | (intro) | with_reducible apply ptyRecord_kept | with_reducible apply ptyMod_kept | with_reducible apply memberChange_kept | with_reducible apply ownChange_kept | with_reducible apply kept_foldl | with_reducible apply kept_foldl2 | simp only [kept_upd] | split | dsimp only)

theorem syncReq_kept {x0 : Nat} {x1 : State} (h1 : Kept q k x1) : Kept q k (syncReq x0 x1) := by
  unfold syncReq
  repeat' (first | with_reducible assumption | (intro) | with_reducible apply ptySend_kept | split | dsimp only)

theorem syncHint_kept {x0 : Nat} {x1 : State} (h1 : Kept q k x1) : Kept q k (syncHint x0 x1) := by
  unfold syncHint
  repeat' (first | with_reducible assumption | (intro) | with_reducible apply ptySend_kept | split | dsimp only)

theorem sendRoster_kept {x0 : Nat} {x1 : Nat} {x2 : State} (h2 : Kept q k x2) : Kept q k (sendRoster x0 x1 x2) := by
  unfold sendRoster
  repeat' (first | with_reducible assumption | (intro) | with_reducible apply ptySendAt_kept | with_reducible apply kept_foldl | with_reducible apply kept_foldl2 | split | dsimp only)

theorem ptyEvent_kept {x0 : Nat} {x1 : Nat} {x2 : State} (h2 : Kept q k x2) : Kept q k (ptyEvent x0 x1 x2) := by
  unfold ptyEvent
  repeat' (first | with_reducible assumption | (intro) | with_reducible apply note_kept | with_reducible apply ptyMod_kept | with_reducible apply kept_ite | simp only [kept_upd] | split | dsimp only)

theorem itemTaken_kept {x0 : Nat} {x1 : State} (h1 : Kept q k x1) : Kept q k (itemTaken x0 x1) := by
  unfold itemTaken
  repeat' (first | with_reducible assumption | (intro) | with_reducible apply ptyMod_kept | simp only [kept_upd] | split | dsimp only)

theorem takeCounter_kept {x0 : Nat} {x1 : Nat} {x2 : State} (h2 : Kept q k x2) : Kept q k (takeCounter x0 x1 x2) := by
  unfold takeCounter
  repeat' (first | with_reducible assumption | (intro) | with_reducible apply ptyMod_kept | simp only [kept_upd] | split | dsimp only)

theorem cellCheck_kept {x0 : Nat} {x1 : State} (h1 : Kept q k x1) : Kept q k ((cellCheck x0 x1)).2 := by
  unfold cellCheck
  repeat' (first | with_reducible assumption | (intro) | with_reducible apply itemTaken_kept | with_reducible apply ptyEvent_kept | with_reducible apply regAdd_kept | with_reducible apply syncHint_kept | with_reducible apply ptyMod_kept | with_reducible apply ptyTag_kept | (with_reducible refine ptyTag_keptE (by assumption) ?_) | with_reducible apply takeCounter_kept | with_reducible apply later_kept | with_reducible apply keptP_ite | with_reducible apply kept_ite | with_reducible apply keptPP_ite | simp only [kept_upd] | split | dsimp only)
theorem cellCheck_keptE {x0 : Nat} {x1 : State} {a : Option (Nat × Nat × Bytes)} {t : State} (e : cellCheck x0 x1 = (a, t)) (h1 : Kept q k x1) : Kept q k t := by
  have w := cellCheck_kept (q := q) (k := k) (x0 := x0) (x1 := x1) h1
  rw [e] at w; exact w

theorem sawEpoch_kept {x0 : Nat} {x1 : Nat} {x2 : Nat} {x3 : Option Nat} {x4 : State} (h4 : Kept q k x4) : Kept q k (sawEpoch x0 x1 x2 x3 x4) := by
  unfold sawEpoch
  repeat' (first | with_reducible assumption | (intro) | with_reducible apply syncHint_kept | with_reducible apply syncReq_kept | with_reducible apply ptyMod_kept | with_reducible apply kept_ite | simp only [kept_upd] | split | dsimp only)

theorem msgRow_kept {x0 : Nat} {x1 : Nat} {x2 : Nat → Bytes → State → State} {x3 : State} (h2 : ∀ y0 y1 y2, Kept q k y2 → Kept q k (x2 y0 y1 y2)) (h3 : Kept q k x3) : KeptX q k (msgRow x0 x1 x2 x3) := by
  unfold msgRow
  repeat' (first | with_reducible assumption | (intro) | with_reducible apply h2 | with_reducible apply wake_kept | with_reducible apply cellCheck_kept | (with_reducible refine cellCheck_keptE (by assumption) ?_) | with_reducible apply sawEpoch_kept | with_reducible apply keptX_next | with_reducible exact keptX_fault | with_reducible apply keptX_ite | with_reducible apply kept_ite | simp only [kept_upd] | split | dsimp only)

theorem hAck_kept {x0 : Nat} {x1 : Bytes} {x2 : State} (h2 : Kept q k x2) : Kept q k (hAck x0 x1 x2) := by
  unfold hAck
  repeat' (first | with_reducible assumption | (intro) | with_reducible apply ptyPump_kept | with_reducible apply ptyMod_kept | simp only [kept_upd] | split | dsimp only)

theorem hJoinReq_kept {x0 : Nat} {x1 : Bytes} {x2 : State} (h2 : Kept q k x2) : Kept q k (hJoinReq x0 x1 x2) := by
  unfold hJoinReq
  repeat' (first | with_reducible assumption | (intro) | with_reducible apply holdChange_kept | with_reducible apply ptySendAt_kept | with_reducible apply ptySteward_kept | with_reducible apply kept_ite | split | dsimp only)

theorem hJoinNak_kept {x0 : Nat} {x1 : Bytes} {x2 : State} (h2 : Kept q k x2) : Kept q k (hJoinNak x0 x1 x2) := by
  unfold hJoinNak
  repeat' (first | with_reducible assumption | (intro) | with_reducible apply ptyClear_kept | with_reducible apply joinEnd_kept | with_reducible apply kept_ite | split | dsimp only)

theorem hEpoch_kept {x0 : Nat} {x1 : Bytes} {x2 : State} (h2 : Kept q k x2) : Kept q k (hEpoch x0 x1 x2) := by
  unfold hEpoch
  repeat' (first | with_reducible assumption | (intro) | with_reducible apply note_kept | with_reducible apply applyRoster_kept | with_reducible apply syncReq_kept | with_reducible apply kept_ite | split | dsimp only)

theorem hSyncReq_kept {x0 : Nat} {x1 : Bytes} {x2 : State} (h2 : Kept q k x2) : Kept q k (hSyncReq x0 x1 x2) := by
  unfold hSyncReq
  repeat' (first | with_reducible assumption | (intro) | with_reducible apply sendRoster_kept | with_reducible apply kept_ite | split | dsimp only)

theorem hRosterPart_kept {x0 : Nat} {x1 : Bytes} {x2 : State} (h2 : Kept q k x2) : Kept q k (hRosterPart x0 x1 x2) := by
  unfold hRosterPart
  repeat' (first | with_reducible assumption | (intro) | with_reducible apply ptyMod_kept | with_reducible apply note_kept | with_reducible apply applyRoster_kept | with_reducible apply kept_ite | simp only [kept_upd] | split | dsimp only)

theorem weighLoss_kept {x0 : Nat} {x1 : State} (h1 : Kept q k x1) : Kept q k (weighLoss x0 x1) := by
  unfold weighLoss
  repeat' (first | with_reducible assumption | (intro) | with_reducible apply note_kept | with_reducible apply ptyMod_kept | with_reducible apply holdState_kept | with_reducible apply kept_ite | simp only [kept_upd] | split | dsimp only)

theorem hSuspect_kept {x0 : Nat} {x1 : Bytes} {x2 : State} (h2 : Kept q k x2) : Kept q k (hSuspect x0 x1 x2) := by
  unfold hSuspect
  repeat' (first | with_reducible assumption | (intro) | with_reducible apply weighLoss_kept | with_reducible apply ptyMod_kept | with_reducible apply kept_ite | simp only [kept_upd] | split | dsimp only)

theorem hRetract_kept {x0 : Nat} {x1 : Bytes} {x2 : State} (h2 : Kept q k x2) : Kept q k (hRetract x0 x1 x2) := by
  unfold hRetract
  repeat' (first | with_reducible assumption | (intro) | with_reducible apply ptyMod_kept | simp only [kept_upd] | split | dsimp only)

theorem hAway_kept {x0 : Nat} {x1 : Bytes} {x2 : State} (h2 : Kept q k x2) : Kept q k (hAway x0 x1 x2) := by
  unfold hAway
  repeat' (first | with_reducible assumption | (intro) | with_reducible apply holdState_kept | with_reducible apply kept_ite | split | dsimp only)

theorem hBack_kept {x0 : Nat} {x1 : Bytes} {x2 : State} (h2 : Kept q k x2) : Kept q k (hBack x0 x1 x2) := by
  unfold hBack
  repeat' (first | with_reducible assumption | (intro) | with_reducible apply holdState_kept | with_reducible apply kept_ite | split | dsimp only)

theorem hLeave_kept {x0 : Nat} {x1 : Bytes} {x2 : State} (h2 : Kept q k x2) : Kept q k (hLeave x0 x1 x2) := by
  unfold hLeave
  repeat' (first | with_reducible assumption | (intro) | with_reducible apply holdState_kept | with_reducible apply kept_ite | split | dsimp only)

theorem hDepart_kept {x0 : Nat} {x1 : Bytes} {x2 : State} (h2 : Kept q k x2) : Kept q k (hDepart x0 x1 x2) := by
  unfold hDepart
  repeat' (first | with_reducible assumption | (intro) | with_reducible apply holdState_kept | with_reducible apply kept_ite | split | dsimp only)

theorem hCap_kept {x0 : Nat} {x1 : Bytes} {x2 : State} (h2 : Kept q k x2) : Kept q k (hCap x0 x1 x2) := by
  unfold hCap
  repeat' (first | with_reducible assumption | (intro) | with_reducible apply holdChange_kept | with_reducible apply kept_ite | simp only [kept_upd] | split | dsimp only)

theorem hSyncHint_kept {x0 : Nat} {x1 : Bytes} {x2 : State} (h2 : Kept q k x2) : Kept q k (hSyncHint x0 x1 x2) := by
  unfold hSyncHint
  repeat' (first | with_reducible assumption | (intro) | with_reducible apply syncReq_kept | with_reducible apply ptyMod_kept | with_reducible apply kept_ite | simp only [kept_upd] | split | dsimp only)

theorem execMsgAck_kept {x0 : Nat} {x1 : State} (h1 : Kept q k x1) : KeptX q k (execMsgAck x0 x1) := by
  unfold execMsgAck
  repeat' (first | with_reducible assumption | (intro) | with_reducible apply msgRow_kept | with_reducible apply hAck_kept | with_reducible apply keptX_next | with_reducible exact keptX_fault | split | dsimp only)

theorem execMsgJoinReq_kept {x0 : Nat} {x1 : State} (h1 : Kept q k x1) : KeptX q k (execMsgJoinReq x0 x1) := by
  unfold execMsgJoinReq
  repeat' (first | with_reducible assumption | (intro) | with_reducible apply msgRow_kept | with_reducible apply hJoinReq_kept | with_reducible apply keptX_next | with_reducible exact keptX_fault | split | dsimp only)

theorem execMsgJoinNak_kept {x0 : Nat} {x1 : State} (h1 : Kept q k x1) : KeptX q k (execMsgJoinNak x0 x1) := by
  unfold execMsgJoinNak
  repeat' (first | with_reducible assumption | (intro) | with_reducible apply msgRow_kept | with_reducible apply hJoinNak_kept | with_reducible apply keptX_next | with_reducible exact keptX_fault | split | dsimp only)

theorem execMsgEpoch_kept {x0 : Nat} {x1 : State} (h1 : Kept q k x1) : KeptX q k (execMsgEpoch x0 x1) := by
  unfold execMsgEpoch
  repeat' (first | with_reducible assumption | (intro) | with_reducible apply msgRow_kept | with_reducible apply hEpoch_kept | with_reducible apply keptX_next | with_reducible exact keptX_fault | split | dsimp only)

theorem execMsgSyncReq_kept {x0 : Nat} {x1 : State} (h1 : Kept q k x1) : KeptX q k (execMsgSyncReq x0 x1) := by
  unfold execMsgSyncReq
  repeat' (first | with_reducible assumption | (intro) | with_reducible apply msgRow_kept | with_reducible apply hSyncReq_kept | with_reducible apply keptX_next | with_reducible exact keptX_fault | split | dsimp only)

theorem execMsgRosterPart_kept {x0 : Nat} {x1 : State} (h1 : Kept q k x1) : KeptX q k (execMsgRosterPart x0 x1) := by
  unfold execMsgRosterPart
  repeat' (first | with_reducible assumption | (intro) | with_reducible apply msgRow_kept | with_reducible apply hRosterPart_kept | with_reducible apply keptX_next | with_reducible exact keptX_fault | split | dsimp only)

theorem execMsgSuspect_kept {x0 : Nat} {x1 : State} (h1 : Kept q k x1) : KeptX q k (execMsgSuspect x0 x1) := by
  unfold execMsgSuspect
  repeat' (first | with_reducible assumption | (intro) | with_reducible apply msgRow_kept | with_reducible apply hSuspect_kept | with_reducible apply keptX_next | with_reducible exact keptX_fault | split | dsimp only)

theorem execMsgRetract_kept {x0 : Nat} {x1 : State} (h1 : Kept q k x1) : KeptX q k (execMsgRetract x0 x1) := by
  unfold execMsgRetract
  repeat' (first | with_reducible assumption | (intro) | with_reducible apply msgRow_kept | with_reducible apply hRetract_kept | with_reducible apply keptX_next | with_reducible exact keptX_fault | split | dsimp only)

theorem execMsgAway_kept {x0 : Nat} {x1 : State} (h1 : Kept q k x1) : KeptX q k (execMsgAway x0 x1) := by
  unfold execMsgAway
  repeat' (first | with_reducible assumption | (intro) | with_reducible apply msgRow_kept | with_reducible apply hAway_kept | with_reducible apply keptX_next | with_reducible exact keptX_fault | split | dsimp only)

theorem execMsgBack_kept {x0 : Nat} {x1 : State} (h1 : Kept q k x1) : KeptX q k (execMsgBack x0 x1) := by
  unfold execMsgBack
  repeat' (first | with_reducible assumption | (intro) | with_reducible apply msgRow_kept | with_reducible apply hBack_kept | with_reducible apply keptX_next | with_reducible exact keptX_fault | split | dsimp only)

theorem execMsgLeave_kept {x0 : Nat} {x1 : State} (h1 : Kept q k x1) : KeptX q k (execMsgLeave x0 x1) := by
  unfold execMsgLeave
  repeat' (first | with_reducible assumption | (intro) | with_reducible apply msgRow_kept | with_reducible apply hLeave_kept | with_reducible apply keptX_next | with_reducible exact keptX_fault | split | dsimp only)

theorem execMsgDepart_kept {x0 : Nat} {x1 : State} (h1 : Kept q k x1) : KeptX q k (execMsgDepart x0 x1) := by
  unfold execMsgDepart
  repeat' (first | with_reducible assumption | (intro) | with_reducible apply msgRow_kept | with_reducible apply hDepart_kept | with_reducible apply keptX_next | with_reducible exact keptX_fault | split | dsimp only)

theorem execMsgCap_kept {x0 : Nat} {x1 : State} (h1 : Kept q k x1) : KeptX q k (execMsgCap x0 x1) := by
  unfold execMsgCap
  repeat' (first | with_reducible assumption | (intro) | with_reducible apply msgRow_kept | with_reducible apply hCap_kept | with_reducible apply keptX_next | with_reducible exact keptX_fault | split | dsimp only)

theorem execMsgSyncHint_kept {x0 : Nat} {x1 : State} (h1 : Kept q k x1) : KeptX q k (execMsgSyncHint x0 x1) := by
  unfold execMsgSyncHint
  repeat' (first | with_reducible assumption | (intro) | with_reducible apply msgRow_kept | with_reducible apply hSyncHint_kept | with_reducible apply keptX_next | with_reducible exact keptX_fault | split | dsimp only)

theorem slotPut_kept {x0 : Nat} {x1 : ChunkSlot} {x2 : State} (h2 : Kept q k x2) : Kept q k (slotPut x0 x1 x2) := by
  unfold slotPut
  repeat' (first | with_reducible assumption | (intro) | with_reducible apply ptyMod_kept | simp only [kept_upd] | split | dsimp only)

theorem execBar4Write_kept {x0 : Nat} {x1 : Bytes} {x2 : Bool} {x3 : State} (h3 : Kept q k x3) : KeptX q k (execBar4Write x0 x1 x2 x3) := by
  unfold execBar4Write
  repeat' (first | with_reducible assumption | (intro) | with_reducible apply note_kept | with_reducible apply ptyMod_kept | with_reducible apply slotPut_kept | with_reducible apply kept_foldl | with_reducible apply kept_foldl2 | with_reducible apply keptX_next | with_reducible exact keptX_fault | with_reducible apply keptX_ite | with_reducible apply kept_ite | simp only [kept_upd] | split | dsimp only)

theorem execHeartbeatSend_kept {x0 : State} (h0 : Kept q k x0) : KeptX q k (execHeartbeatSend x0) := by
  unfold execHeartbeatSend
  repeat' (first | with_reducible assumption | (intro) | with_reducible apply ptyTag_kept | (with_reducible refine ptyTag_keptE (by assumption) ?_) | with_reducible apply ptyMod_kept | with_reducible apply regAdd_kept | with_reducible apply emit_kept | with_reducible apply kept_foldl | with_reducible apply kept_foldl2 | with_reducible apply keptX_next | with_reducible exact keptX_fault | with_reducible apply keptX_ite | with_reducible apply kept_ite | simp only [kept_upd] | split | dsimp only)

theorem execHeartbeat_kept {x0 : Nat} {x1 : State} (h1 : Kept q k x1) : KeptX q k (execHeartbeat x0 x1) := by
  unfold execHeartbeat
  extract_lets m s p r s1 last
  clear_value m
  have ks : Kept q k s := by
    dsimp only [s]
    exact itemTaken_kept h1
  clear_value s
  have k1 : Kept q k s1 := regAdd_kept ks
  clear_value s1 last r p
  refine keptX_ite keptX_fault (keptX_ite (keptX_next h1) (keptX_ite (keptX_next (ptyEvent_kept (regAdd_kept ks))) (keptX_ite (keptX_next ?_)
    (keptX_ite (keptX_next (ptyEvent_kept (regAdd_kept ks))) ?_))))
  · exact kept_ite (syncHint_kept (ptyMod_kept k1)) k1
  · generalize e : ptyTag (m.take 32) s = o
    obtain ⟨tag, t⟩ := o
    have kt := ptyTag_keptE e ks
    cases tag with
    | none => exact keptX_next (ptyEvent_kept (regAdd_kept kt))
    | some tag =>
      refine keptX_ite (keptX_next (sawEpoch_kept (kept_ite (ptyMod_kept (regAdd_kept kt)) ?_))) (keptX_next (ptyEvent_kept (regAdd_kept kt)))
      generalize collector r x0 = y
      cases y with
      | none => exact ptyMod_kept (regAdd_kept kt)
      | some y => exact ptySend_kept (ptyMod_kept (regAdd_kept kt))

theorem execSilentMark_kept {x0 : Nat} {x1 : State} (h1 : Kept q k x1) : KeptX q k (execSilentMark x0 x1) := by
  unfold execSilentMark
  repeat' (first | with_reducible assumption | (intro) | with_reducible apply ptyMod_kept | with_reducible apply keptX_next | with_reducible exact keptX_fault | with_reducible apply keptX_ite | with_reducible apply kept_ite | simp only [kept_upd] | split | dsimp only)

theorem execSuspectSend_kept {x0 : Nat} {x1 : State} (h1 : Kept q k x1) : KeptX q k (execSuspectSend x0 x1) := by
  unfold execSuspectSend
  repeat' (first | with_reducible assumption | (intro) | with_reducible apply ptySend_kept | with_reducible apply ptyMod_kept | with_reducible apply keptX_next | with_reducible exact keptX_fault | with_reducible apply keptX_ite | with_reducible apply kept_ite | simp only [kept_upd] | split | dsimp only)

theorem execEpochIssue_kept {x0 : State} (h0 : Kept q k x0) : KeptX q k (execEpochIssue x0) := by
  unfold execEpochIssue
  repeat' (first | with_reducible assumption | (intro) | with_reducible apply note_kept | with_reducible apply applyRoster_kept | with_reducible apply ptyMod_kept | with_reducible apply sendRoster_kept | with_reducible apply ptySendAt_kept | with_reducible apply kept_foldl | with_reducible apply kept_foldl2 | with_reducible apply keptX_next | with_reducible exact keptX_fault | with_reducible apply keptX_ite | with_reducible apply kept_ite | simp only [kept_upd] | split | dsimp only)

theorem execLostMemberFree_kept {x0 : Nat} {x1 : State} (h1 : Kept q k x1) : KeptX q k (execLostMemberFree x0 x1) := by
  unfold execLostMemberFree
  repeat' (first | with_reducible assumption | (intro) | with_reducible apply holdState_kept | with_reducible apply keptX_next | with_reducible exact keptX_fault | with_reducible apply keptX_ite | with_reducible apply kept_ite | split | dsimp only)

theorem execMessageResend_kept {x0 : Nat} {x1 : Nat} {x2 : State} (h2 : Kept q k x2) : KeptX q k (execMessageResend x0 x1 x2) := by
  unfold execMessageResend
  repeat' (first | with_reducible assumption | (intro) | with_reducible apply ptyPump_kept | with_reducible apply ptyMod_kept | with_reducible apply cellSend_kept | (with_reducible refine cellSend_keptE (by assumption) ?_) | with_reducible apply regAdd_kept | with_reducible apply keptX_next | with_reducible exact keptX_fault | with_reducible apply keptX_ite | with_reducible apply kept_ite | simp only [kept_upd] | split | dsimp only)

theorem execAckSend_kept {x0 : Nat} {x1 : State} (h1 : Kept q k x1) : KeptX q k (execAckSend x0 x1) := by
  unfold execAckSend
  repeat' (first | with_reducible assumption | (intro) | with_reducible apply cellSend_kept | (with_reducible refine cellSend_keptE (by assumption) ?_) | with_reducible apply keptX_next | with_reducible exact keptX_fault | with_reducible apply keptX_ite | with_reducible apply kept_ite | simp only [kept_upd] | split | dsimp only)

theorem execCapSend_kept {x0 : State} (h0 : Kept q k x0) : KeptX q k (execCapSend x0) := by
  unfold execCapSend
  repeat' (first | with_reducible assumption | (intro) | with_reducible apply ptySteward_kept | with_reducible apply ptyMod_kept | with_reducible apply keptX_next | with_reducible exact keptX_fault | with_reducible apply keptX_ite | with_reducible apply kept_ite | simp only [kept_upd] | split | dsimp only)

theorem takeTableRange_kept {x0 : State} (h0 : Kept q k x0) : KeptO q k (takeTableRange x0) := by
  unfold takeTableRange
  repeat' (first | with_reducible assumption | (intro) | with_reducible apply keptO_map | with_reducible apply keptOP_map | with_reducible apply keptO_mapP | with_reducible apply keptOP_mapP | with_reducible apply keptO_mapA | with_reducible apply keptOP_mapA | with_reducible apply keptO_some | with_reducible exact keptO_none | with_reducible apply keptO_ite | with_reducible apply kept_ite | simp only [kept_upd] | split | dsimp only)
theorem takeTableRange_keptE {x0 : State}  {t : State} (e : takeTableRange x0 = some t) (h0 : Kept q k x0) : Kept q k t := by
  have w := takeTableRange_kept (q := q) (k := k) (x0 := x0) h0
  rw [e] at w; exact w

theorem joinAct_kept {x0 : Nat} {x1 : State} (h1 : Kept q k x1) : Kept q k (joinAct x0 x1) := by
  unfold joinAct
  repeat' (first | with_reducible assumption | (intro) | with_reducible apply hostData_kept | (with_reducible refine hostData_keptE (by assumption) ?_) | with_reducible apply finish_kept | with_reducible apply finishDw_kept | with_reducible apply takeTableRange_kept | (with_reducible refine takeTableRange_keptE (by assumption) ?_) | with_reducible apply note_kept | with_reducible apply ptyRecord_kept | with_reducible apply ptyMod_kept | with_reducible apply ptySendAt_kept | with_reducible apply ctxMod_kept | with_reducible apply kept_ite | simp only [kept_upd] | split | dsimp only)

theorem joinRow_kept {x0 : Nat} {x1 : Bool} {x2 : State} (h2 : Kept q k x2) : Kept q k (joinRow x0 x1 x2) := by
  unfold joinRow
  repeat' (first | with_reducible assumption | (intro) | with_reducible apply critGate_kept | (with_reducible refine critGate_keptE (by assumption) ?_) | with_reducible apply joinAct_kept | with_reducible apply kept_ite | simp only [kept_upd] | split | dsimp only)

theorem execPartyJoinFound_kept {x0 : Nat} {x1 : State} (h1 : Kept q k x1) : KeptX q k (execPartyJoinFound x0 x1) := by
  unfold execPartyJoinFound
  repeat' (first | with_reducible assumption | (intro) | with_reducible apply joinRow_kept | with_reducible apply keptX_next | with_reducible exact keptX_fault | split | dsimp only)

theorem execPartyJoin_kept {x0 : Nat} {x1 : State} (h1 : Kept q k x1) : KeptX q k (execPartyJoin x0 x1) := by
  unfold execPartyJoin
  repeat' (first | with_reducible assumption | (intro) | with_reducible apply joinRow_kept | with_reducible apply keptX_next | with_reducible exact keptX_fault | split | dsimp only)

theorem execJoinTimeout_kept {x0 : State} (h0 : Kept q k x0) : KeptX q k (execJoinTimeout x0) := by
  unfold execJoinTimeout
  repeat' (first | with_reducible assumption | (intro) | with_reducible apply ptyClear_kept | with_reducible apply joinEnd_kept | with_reducible apply keptX_next | with_reducible exact keptX_fault | with_reducible apply keptX_ite | with_reducible apply kept_ite | split | dsimp only)

theorem execPartyLeave_kept {x0 : Nat} {x1 : State} (h1 : Kept q k x1) : KeptX q k (execPartyLeave x0 x1) := by
  unfold execPartyLeave
  repeat' (first | with_reducible assumption | (intro) | with_reducible apply finish_kept | with_reducible apply critGate_kept | (with_reducible refine critGate_keptE (by assumption) ?_) | with_reducible apply ptyClear_kept | with_reducible apply ptySteward_kept | with_reducible apply ptyMod_kept | with_reducible apply ctxMod_kept | with_reducible apply keptX_next | with_reducible exact keptX_fault | with_reducible apply keptX_ite | with_reducible apply kept_ite | simp only [kept_upd] | split | dsimp only)

theorem execLeaveTimeout_kept {x0 : State} (h0 : Kept q k x0) : KeptX q k (execLeaveTimeout x0) := by
  unfold execLeaveTimeout
  repeat' (first | with_reducible assumption | (intro) | with_reducible apply leaveEnd_kept | with_reducible apply keptX_next | with_reducible exact keptX_fault | with_reducible apply keptX_ite | with_reducible apply kept_ite | split | dsimp only)

theorem execPartyStatus_kept {x0 : Nat} {x1 : State} (h1 : Kept q k x1) : KeptX q k (execPartyStatus x0 x1) := by
  unfold execPartyStatus
  repeat' (first | with_reducible assumption | (intro) | with_reducible apply adminData_kept | with_reducible apply keptX_next | with_reducible exact keptX_fault | with_reducible apply keptX_ite | with_reducible apply kept_ite | split | dsimp only)

theorem ptyResume_kept {x0 : State} (h0 : Kept q k x0) : Kept q k (ptyResume x0) := by
  unfold ptyResume
  repeat' (first | with_reducible assumption | (intro) | with_reducible apply ptyDurable_kept | with_reducible apply ptyMod_kept | with_reducible apply kept_foldl | with_reducible apply kept_foldl2 | with_reducible apply kept_ite | simp only [kept_upd] | split | dsimp only)

theorem backSend_kept {x0 : State} (h0 : Kept q k x0) : Kept q k (backSend x0) := by
  unfold backSend
  repeat' (first | with_reducible assumption | (intro) | with_reducible apply ptySteward_kept | with_reducible apply ptyMod_kept | with_reducible apply kept_ite | simp only [kept_upd] | split | dsimp only)

theorem dropUndefined_kept {x0 : State} (h0 : Kept q k x0) : Kept q k (dropUndefined x0) := by
  unfold dropUndefined
  repeat' (first | with_reducible assumption | (intro) | with_reducible apply ptyEvent_kept | with_reducible apply regAdd_kept | with_reducible apply itemTaken_kept | with_reducible apply kept_foldl | with_reducible apply kept_foldl2 | with_reducible apply kept_ite | split | dsimp only)

end Sys2Proof.Machine
end

