-- ==== Sys2Proof/Laws/KeptMenderEng.lean ====
section
/-!
SUPPORT. What the operations of Machine/MenderEng.lean keep (`Kept`).
-/
namespace Sys2Proof.Machine

set_option linter.all false

variable {q : List Instr} {k : W64}

theorem mdWrites_kept {x0 : Nat} {x1 : Bytes} {x2 : Nat} {x3 : List Bytes} {x4 : State} (h4 : Kept q k x4) : KeptOP q k (mdWrites x0 x1 x2 x3 x4) := by
  induction x3 generalizing x2 x4 with
  | nil => exact keptOP_some h4
  | cons e l ih =>
    unfold mdWrites
    split
    · exact keptOP_none
    · refine keptOP_mapP (ih ?_) fun e h => h
      exact engWrite_keptE (by assumption) h4
theorem mdWrites_keptE {x0 : Nat} {x1 : Bytes} {x2 : Nat} {x3 : List Bytes} {x4 : State} {a : Bool} {t : State} (e : mdWrites x0 x1 x2 x3 x4 = some (a, t)) (h4 : Kept q k x4) : Kept q k t := by
  have w := mdWrites_kept (q := q) (k := k) (x0 := x0) (x1 := x1) (x2 := x2) (x3 := x3) (x4 := x4) h4
  rw [e] at w; exact w

theorem mdMet_kept {x0 : Nat} {x1 : Nat} {x2 : List Nat} {x3 : State} (h3 : Kept q k x3) : Kept q k (mdMet x0 x1 x2 x3) := by
  unfold mdMet
  repeat' (first | with_reducible assumption | (intro) | with_reducible apply memMet_kept | with_reducible apply kept_foldl | with_reducible apply kept_foldl2 | split | dsimp only)

theorem mdFinish_kept {x0 : EngJob} {x1 : State} (h1 : Kept q k x1) : Kept q k (mdFinish x0 x1) := by
  unfold mdFinish
  repeat' (first | with_reducible assumption | (intro) | with_reducible apply mdMet_kept | with_reducible apply engStop_kept | with_reducible apply mdWrites_kept | (with_reducible refine mdWrites_keptE (by assumption) ?_) | with_reducible apply warpMove_kept | with_reducible apply regAdd_kept | with_reducible apply errResp_kept | with_reducible apply kept_foldl | with_reducible apply kept_foldl2 | with_reducible apply kept_ite | simp only [kept_upd] | split | dsimp only)

theorem execMenderMac_kept {x0 : State} (h0 : Kept q k x0) : KeptX q k (execMenderMac x0) := by
  unfold execMenderMac
  repeat' (first | with_reducible assumption | (intro) | with_reducible apply engAccept_kept | with_reducible apply keptX_next | with_reducible exact keptX_fault | split | dsimp only)

theorem execMenderJobEnd_kept {x0 : State} (h0 : Kept q k x0) : KeptX q k (execMenderJobEnd x0) := by
  unfold execMenderJobEnd
  repeat' (first | with_reducible assumption | (intro) | with_reducible apply engEnds_kept | with_reducible apply keptX_next | with_reducible exact keptX_fault | split | dsimp only)

theorem execMndTailAdvance_kept {x0 : W32} {x1 : State} (h1 : Kept q k x1) : KeptX q k (execMndTailAdvance x0 x1) := by
  unfold execMndTailAdvance
  repeat' (first | with_reducible assumption | (intro) | with_reducible apply engTail_kept | with_reducible apply keptX_next | with_reducible exact keptX_fault | with_reducible apply keptX_ite | with_reducible apply kept_ite | split | dsimp only)

theorem execMndStop_kept {x0 : W32} {x1 : State} (h1 : Kept q k x1) : KeptX q k (execMndStop x0 x1) := by
  unfold execMndStop
  repeat' (first | with_reducible assumption | (intro) | with_reducible apply engCtl_kept | with_reducible apply keptX_next | with_reducible exact keptX_fault | with_reducible apply keptX_ite | with_reducible apply kept_ite | split | dsimp only)

theorem execMndFlush_kept {x0 : W32} {x1 : State} (h1 : Kept q k x1) : KeptX q k (execMndFlush x0 x1) := by
  unfold execMndFlush
  repeat' (first | with_reducible assumption | (intro) | with_reducible apply engCtl_kept | with_reducible apply keptX_next | with_reducible exact keptX_fault | with_reducible apply keptX_ite | with_reducible apply kept_ite | split | dsimp only)

end Sys2Proof.Machine
end

