-- ==== Sys2Proof/Laws/KeptMender.lean ====
section
/-!
SUPPORT. What the operations of Machine/Mender.lean keep (`Kept`).
-/
namespace Sys2Proof.Machine

set_option linter.all false

variable {q : List Instr} {k : W64}

theorem mndMod_kept {x0 : Mender → Mender} {x1 : State} (h1 : Kept q k x1) : Kept q k (mndMod x0 x1) := by
  unfold mndMod
  repeat' (first | with_reducible assumption | (intro) | simp only [kept_upd] | split | dsimp only)

theorem stripePut_kept {x0 : Nat} {x1 : Stripe} {x2 : State} (h2 : Kept q k x2) : Kept q k (stripePut x0 x1 x2) := by
  unfold stripePut
  repeat' (first | with_reducible assumption | (intro) | with_reducible apply mndMod_kept | simp only [kept_upd] | split | dsimp only)

theorem stripeMod_kept {x0 : Nat} {x1 : Stripe → Stripe} {x2 : State} (h2 : Kept q k x2) : Kept q k (stripeMod x0 x1 x2) := by
  unfold stripeMod
  repeat' (first | with_reducible assumption | (intro) | with_reducible apply stripePut_kept | simp only [kept_upd] | split | dsimp only)

theorem placeShard_kept {x0 : Nat} {x1 : State} (h1 : Kept q k x1) : KeptOP q k (placeShard x0 x1) := by
  unfold placeShard
  repeat' (first | with_reducible assumption | (intro) | with_reducible apply mndMod_kept | with_reducible apply keptO_map | with_reducible apply keptOP_map | with_reducible apply keptO_mapP | with_reducible apply keptOP_mapP | with_reducible apply keptO_mapA | with_reducible apply keptOP_mapA | with_reducible apply keptOP_some | with_reducible exact keptOP_none | with_reducible apply keptOP_ite | with_reducible apply kept_ite | simp only [kept_upd] | split | dsimp only)
theorem placeShard_keptE {x0 : Nat} {x1 : State} {a : Nat} {t : State} (e : placeShard x0 x1 = some (a, t)) (h1 : Kept q k x1) : Kept q k t := by
  have w := placeShard_kept (q := q) (k := k) (x0 := x0) (x1 := x1) h1
  rw [e] at w; exact w

theorem stripeNew_kept {x0 : Stripe} {x1 : Nat} {x2 : State} (h2 : Kept q k x2) : Kept q k (stripeNew x0 x1 x2) := by
  unfold stripeNew
  repeat' (first | with_reducible assumption | (intro) | with_reducible apply stripePut_kept | simp only [kept_upd] | split | dsimp only)

theorem slotsFree_kept {x0 : Nat} {x1 : State} (h1 : Kept q k x1) : Kept q k (slotsFree x0 x1) := by
  unfold slotsFree
  repeat' (first | with_reducible assumption | (intro) | with_reducible apply ptyMod_kept | simp only [kept_upd] | split | dsimp only)

theorem freeShard_kept {x0 : Nat} {x1 : State} (h1 : Kept q k x1) : Kept q k (freeShard x0 x1) := by
  unfold freeShard
  repeat' (first | with_reducible assumption | (intro) | with_reducible apply mndMod_kept | with_reducible apply slotsFree_kept | with_reducible apply takeSeq_kept | (with_reducible refine takeSeq_keptE (by assumption) ?_) | with_reducible apply discardRun_kept | with_reducible apply jIssue_kept | with_reducible apply jFlush_kept | with_reducible apply kept_foldl | with_reducible apply kept_foldl2 | with_reducible apply kept_ite | simp only [kept_upd] | split | dsimp only)

theorem shardUnit_kept {x0 : Nat} {x1 : State} (h1 : Kept q k x1) : Kept q k ((shardUnit x0 x1)).2 := by
  unfold shardUnit
  repeat' (first | with_reducible assumption | (intro) | with_reducible apply mapSeek_kept | (with_reducible refine mapSeek_keptE (by assumption) ?_) | with_reducible apply regAdd_kept | with_reducible apply keptP_ite | with_reducible apply kept_ite | with_reducible apply keptPP_ite | simp only [kept_upd] | split | dsimp only)
theorem shardUnit_keptE {x0 : Nat} {x1 : State} {a : Bool} {t : State} (e : shardUnit x0 x1 = (a, t)) (h1 : Kept q k x1) : Kept q k t := by
  have w := shardUnit_kept (q := q) (k := k) (x0 := x0) (x1 := x1) h1
  rw [e] at w; exact w

theorem shardSeek_kept {x0 : Stripe} {x1 : Nat} {x2 : Nat} {x3 : State} (h3 : Kept q k x3) : Kept q k ((shardSeek x0 x1 x2 x3)).2 := by
  unfold shardSeek
  repeat' (first | with_reducible assumption | (intro) | with_reducible apply shardUnit_kept | (with_reducible refine shardUnit_keptE (by assumption) ?_) | with_reducible apply kept_foldl | with_reducible apply kept_foldl2 | split | dsimp only)
theorem shardSeek_keptE {x0 : Stripe} {x1 : Nat} {x2 : Nat} {x3 : State} {a : Bool} {t : State} (e : shardSeek x0 x1 x2 x3 = (a, t)) (h3 : Kept q k x3) : Kept q k t := by
  have w := shardSeek_kept (q := q) (k := k) (x0 := x0) (x1 := x1) (x2 := x2) (x3 := x3) h3
  rw [e] at w; exact w

theorem shardReady_kept {x0 : Nat} {x1 : State} (h1 : Kept q k x1) : Kept q k ((shardReady x0 x1)).2 := by
  unfold shardReady
  repeat' (first | with_reducible assumption | (intro) | with_reducible apply shardSeek_kept | (with_reducible refine shardSeek_keptE (by assumption) ?_) | with_reducible apply keptP_ite | with_reducible apply kept_ite | with_reducible apply keptPP_ite | simp only [kept_upd] | split | dsimp only)
theorem shardReady_keptE {x0 : Nat} {x1 : State} {a : Bool} {t : State} (e : shardReady x0 x1 = (a, t)) (h1 : Kept q k x1) : Kept q k t := by
  have w := shardReady_kept (q := q) (k := k) (x0 := x0) (x1 := x1) h1
  rw [e] at w; exact w

theorem repairCharge_kept {x0 : Nat} {x1 : State} (h1 : Kept q k x1) : Kept q k (repairCharge x0 x1) := by
  unfold repairCharge
  repeat' (first | with_reducible assumption | (intro) | with_reducible apply charge_kept | split | dsimp only)

theorem mndJob_kept {x0 : Nat} {x1 : Nat} {x2 : Nat} {x3 : State} (h3 : Kept q k x3) : Kept q k (mndJob x0 x1 x2 x3) := by
  unfold mndJob
  repeat' (first | with_reducible assumption | (intro) | with_reducible apply repairCharge_kept | with_reducible apply regAdd_kept | split | dsimp only)

theorem shardHash_kept {x0 : Nat} {x1 : State} (h1 : Kept q k x1) : Kept q k ((shardHash x0 x1)).2 := by
  unfold shardHash
  repeat' (first | with_reducible assumption | (intro) | with_reducible apply repairCharge_kept | with_reducible apply stripePut_kept | with_reducible apply keptP_ite | with_reducible apply kept_ite | with_reducible apply keptPP_ite | simp only [kept_upd] | split | dsimp only)
theorem shardHash_keptE {x0 : Nat} {x1 : State} {a : Option (BitVec 256)} {t : State} (e : shardHash x0 x1 = (a, t)) (h1 : Kept q k x1) : Kept q k t := by
  have w := shardHash_kept (q := q) (k := k) (x0 := x0) (x1 := x1) h1
  rw [e] at w; exact w

theorem storeWrite_kept {x0 : Stripe} {x1 : Nat} {x2 : Bytes} {x3 : State} (h3 : Kept q k x3) : KeptOP q k (storeWrite x0 x1 x2 x3) := by
  unfold storeWrite
  repeat' (first | with_reducible assumption | (intro) | with_reducible apply takeSeq_kept | (with_reducible refine takeSeq_keptE (by assumption) ?_) | with_reducible apply slotStore_kept | with_reducible apply slotSet_kept | with_reducible apply jIssue_kept | with_reducible apply repairCharge_kept | with_reducible apply kept_foldl | with_reducible apply kept_foldl2 | with_reducible apply keptOP_some | with_reducible exact keptOP_none | with_reducible apply keptOP_ite | with_reducible apply kept_ite | simp only [kept_upd] | split | dsimp only)
theorem storeWrite_keptE {x0 : Stripe} {x1 : Nat} {x2 : Bytes} {x3 : State} {a : Nat} {t : State} (e : storeWrite x0 x1 x2 x3 = some (a, t)) (h3 : Kept q k x3) : Kept q k t := by
  have w := storeWrite_kept (q := q) (k := k) (x0 := x0) (x1 := x1) (x2 := x2) (x3 := x3) h3
  rw [e] at w; exact w

theorem newStream_kept {x0 : State} (h0 : Kept q k x0) : Kept q k ((newStream x0)).2 := by
  unfold newStream
  repeat' (first | with_reducible assumption | (intro) | with_reducible apply mndMod_kept | simp only [kept_upd] | split | dsimp only)
theorem newStream_keptE {x0 : State} {a : Nat} {t : State} (e : newStream x0 = (a, t)) (h0 : Kept q k x0) : Kept q k t := by
  have w := newStream_kept (q := q) (k := k) (x0 := x0) h0
  rw [e] at w; exact w

theorem planAck_kept {x0 : Nat} {x1 : Nat} {x2 : Nat} {x3 : Nat} {x4 : State} (h4 : Kept q k x4) : Kept q k (planAck x0 x1 x2 x3 x4) := by
  unfold planAck
  repeat' (first | with_reducible assumption | (intro) | with_reducible apply ptySend_kept | split | dsimp only)

theorem grantMsg_kept {x0 : Nat} {x1 : Nat} {x2 : List Nat} {x3 : State} (h3 : Kept q k x3) : Kept q k (grantMsg x0 x1 x2 x3) := by
  unfold grantMsg
  repeat' (first | with_reducible assumption | (intro) | with_reducible apply ptySend_kept | split | dsimp only)

theorem chunkOk_kept {x0 : Nat} {x1 : Nat} {x2 : Nat} {x3 : State} (h3 : Kept q k x3) : Kept q k (chunkOk x0 x1 x2 x3) := by
  unfold chunkOk
  repeat' (first | with_reducible assumption | (intro) | with_reducible apply ptySend_kept | split | dsimp only)

theorem hopFail_kept {x0 : Nat} {x1 : Nat} {x2 : Nat} {x3 : Nat} {x4 : Nat} {x5 : State} (h5 : Kept q k x5) : Kept q k (hopFail x0 x1 x2 x3 x4 x5) := by
  unfold hopFail
  repeat' (first | with_reducible assumption | (intro) | with_reducible apply ptySend_kept | split | dsimp only)

theorem idMsg_kept {x0 : Nat} {x1 : Nat} {x2 : Nat} {x3 : State} (h3 : Kept q k x3) : Kept q k (idMsg x0 x1 x2 x3) := by
  unfold idMsg
  repeat' (first | with_reducible assumption | (intro) | with_reducible apply ptySend_kept | split | dsimp only)

theorem toAll_kept {x0 : List Nat} {x1 : Nat} {x2 : Bytes} {x3 : State} (h3 : Kept q k x3) : Kept q k (toAll x0 x1 x2 x3) := by
  unfold toAll
  repeat' (first | with_reducible assumption | (intro) | with_reducible apply ptySend_kept | with_reducible apply kept_foldl | with_reducible apply kept_foldl2 | split | dsimp only)

theorem msgForget_kept {x0 : Nat} {x1 : State} (h1 : Kept q k x1) : Kept q k (msgForget x0 x1) := by
  unfold msgForget
  repeat' (first | with_reducible assumption | (intro) | with_reducible apply ptyMod_kept | simp only [kept_upd] | split | dsimp only)

theorem grantTwo_kept {x0 : Nat} {x1 : Nat} {x2 : State} (h2 : Kept q k x2) : Kept q k (grantTwo x0 x1 x2) := by
  unfold grantTwo
  repeat' (first | with_reducible assumption | (intro) | with_reducible apply grantMsg_kept | with_reducible apply slotPut_kept | with_reducible apply kept_foldl | with_reducible apply kept_foldl2 | split | dsimp only)

theorem regrant_kept {x0 : Nat} {x1 : State} (h1 : Kept q k x1) : Kept q k (regrant x0 x1) := by
  unfold regrant
  repeat' (first | with_reducible assumption | (intro) | with_reducible apply grantMsg_kept | with_reducible apply slotPut_kept | split | dsimp only)

theorem chunkLoad_kept {x0 : Fly} {x1 : State} (h1 : Kept q k x1) : Kept q k (chunkLoad x0 x1) := by
  unfold chunkLoad
  repeat' (first | with_reducible assumption | (intro) | with_reducible apply hamWrite_kept | with_reducible apply kept_ite | split | dsimp only)

theorem chunkWrite_kept {x0 : Hop} {x1 : Fly} {x2 : State} (h2 : Kept q k x2) : Kept q k (chunkWrite x0 x1 x2) := by
  unfold chunkWrite
  repeat' (first | with_reducible assumption | (intro) | with_reducible apply hamMet_kept | with_reducible apply repairCharge_kept | with_reducible apply emit_kept | with_reducible apply kept_ite | split | dsimp only)

theorem shareUse_kept {x0 : Nat} {x1 : State} (h1 : Kept q k x1) : Kept q k (shareUse x0 x1) := by
  unfold shareUse
  repeat' (first | with_reducible assumption | (intro) | with_reducible apply mndMod_kept | with_reducible apply kept_ite | simp only [kept_upd] | split | dsimp only)

theorem hopPump_kept {x0 : Nat} {x1 : Hop} {x2 : State} (h2 : Kept q k x2) : Kept q k ((hopPump x0 x1 x2)).2 := by
  induction x0 generalizing x1 x2 with
  | zero =>
    unfold hopPump
    repeat' (first | with_reducible assumption | (intro) | with_reducible apply chunkWrite_kept | with_reducible apply chunkLoad_kept | with_reducible apply shareUse_kept | with_reducible apply keptP_ite | with_reducible apply kept_ite | with_reducible apply keptPP_ite | simp only [kept_upd] | split | dsimp only)
  | succ n ih =>
    unfold hopPump
    repeat' (first | with_reducible assumption | (intro) | with_reducible apply chunkWrite_kept | with_reducible apply chunkLoad_kept | with_reducible apply shareUse_kept | with_reducible apply ih | with_reducible apply keptP_ite | with_reducible apply kept_ite | with_reducible apply keptPP_ite | simp only [kept_upd] | split | dsimp only)
theorem hopPump_keptE {x0 : Nat} {x1 : Hop} {x2 : State} {a : Hop} {t : State} (e : hopPump x0 x1 x2 = (a, t)) (h2 : Kept q k x2) : Kept q k t := by
  have w := hopPump_kept (q := q) (k := k) (x0 := x0) (x1 := x1) (x2 := x2) h2
  rw [e] at w; exact w

theorem hopsPump_kept {x0 : State} (h0 : Kept q k x0) : Kept q k (hopsPump x0) := by
  unfold hopsPump
  repeat' (first | with_reducible assumption | (intro) | with_reducible apply hopPump_kept | (with_reducible refine hopPump_keptE (by assumption) ?_) | with_reducible apply mndMod_kept | with_reducible apply kept_foldl | with_reducible apply kept_foldl2 | with_reducible apply kept_getD | with_reducible apply keptP_getD | with_reducible apply kept_ite | simp only [kept_upd] | split | dsimp only)

theorem hopMod_kept {x0 : Nat} {x1 : Nat} {x2 : Hop → Hop} {x3 : State} (h3 : Kept q k x3) : Kept q k (hopMod x0 x1 x2 x3) := by
  unfold hopMod
  repeat' (first | with_reducible assumption | (intro) | with_reducible apply mndMod_kept | with_reducible apply kept_ite | simp only [kept_upd] | split | dsimp only)

theorem planEnd_kept {x0 : Nat} {x1 : PlanRole} {x2 : State} (h2 : Kept q k x2) : Kept q k (planEnd x0 x1 x2) := by
  unfold planEnd
  repeat' (first | with_reducible assumption | (intro) | with_reducible apply mndMod_kept | with_reducible apply slotsFree_kept | with_reducible apply kept_ite | simp only [kept_upd] | split | dsimp only)

theorem stripeCmdEnd_kept {x0 : Nat} {x1 : Status} {x2 : State} (h2 : Kept q k x2) : Kept q k (stripeCmdEnd x0 x1 x2) := by
  unfold stripeCmdEnd
  repeat' (first | with_reducible assumption | (intro) | with_reducible apply stripePut_kept | with_reducible apply mndMod_kept | with_reducible apply finish_kept | with_reducible apply slotDrop_kept | with_reducible apply kept_ite | simp only [kept_upd] | split | dsimp only)

theorem stripeDropAll_kept {x0 : Nat} {x1 : State} (h1 : Kept q k x1) : Kept q k (stripeDropAll x0 x1) := by
  unfold stripeDropAll
  repeat' (first | with_reducible assumption | (intro) | with_reducible apply freeShard_kept | with_reducible apply toAll_kept | simp only [kept_upd] | split | dsimp only)

theorem replan_kept {x0 : Nat} {x1 : Option Nat} {x2 : State} (h2 : Kept q k x2) : Kept q k (replan x0 x1 x2) := by
  unfold replan
  repeat' (first | with_reducible assumption | (intro) | with_reducible apply planEnd_kept | with_reducible apply toAll_kept | with_reducible apply note_kept | with_reducible apply regAdd_kept | with_reducible apply mndMod_kept | with_reducible apply stripeMod_kept | with_reducible apply kept_ite | simp only [kept_upd] | split | dsimp only)

theorem stripeDamaged_kept {x0 : Nat} {x1 : State} (h1 : Kept q k x1) : Kept q k (stripeDamaged x0 x1) := by
  unfold stripeDamaged
  repeat' (first | with_reducible assumption | (intro) | with_reducible apply note_kept | with_reducible apply toAll_kept | with_reducible apply mndMod_kept | with_reducible apply stripePut_kept | simp only [kept_upd] | split | dsimp only)

theorem planStart_kept {x0 : Stripe} {x1 : Nat} {x2 : Nat} {x3 : Nat} {x4 : Nat} {x5 : List (Nat × Nat)} {x6 : State} (h6 : Kept q k x6) : Kept q k (planStart x0 x1 x2 x3 x4 x5 x6) := by
  unfold planStart
  repeat' (first | with_reducible assumption | (intro) | with_reducible apply newStream_kept | (with_reducible refine newStream_keptE (by assumption) ?_) | with_reducible apply ptySend_kept | with_reducible apply stripeMod_kept | with_reducible apply mndMod_kept | with_reducible apply kept_getD | with_reducible apply keptP_getD | with_reducible apply kept_ite | simp only [kept_upd] | split | dsimp only)

theorem planHelpers_kept {x0 : Plan} {x1 : Nat} {x2 : State} (h2 : Kept q k x2) : Kept q k (planHelpers x0 x1 x2) := by
  unfold planHelpers
  repeat' (first | with_reducible assumption | (intro) | with_reducible apply ptySend_kept | with_reducible apply kept_foldl | with_reducible apply kept_foldl2 | with_reducible apply kept_getD | with_reducible apply keptP_getD | with_reducible apply kept_ite | simp only [kept_upd] | split | dsimp only)

theorem askDigests_kept {x0 : Nat} {x1 : Nat} {x2 : State} (h2 : Kept q k x2) : Kept q k (askDigests x0 x1 x2) := by
  unfold askDigests
  repeat' (first | with_reducible assumption | (intro) | with_reducible apply toAll_kept | with_reducible apply stripePut_kept | simp only [kept_upd] | split | dsimp only)

theorem leadStep_kept {x0 : Nat} {x1 : State} (h1 : Kept q k x1) : Kept q k (leadStep x0 x1) := by
  unfold leadStep
  repeat' (first | with_reducible assumption | (intro) | with_reducible apply mndMod_kept | with_reducible apply stripeDamaged_kept | with_reducible apply planStart_kept | with_reducible apply askDigests_kept | with_reducible apply kept_ite | simp only [kept_upd] | split | dsimp only)

theorem digestsDone_kept {x0 : Nat} {x1 : Stripe} {x2 : State} (h2 : Kept q k x2) : Kept q k (digestsDone x0 x1 x2) := by
  unfold digestsDone
  repeat' (first | with_reducible assumption | (intro) | with_reducible apply stripeCmdEnd_kept | with_reducible apply toAll_kept | with_reducible apply msgForget_kept | with_reducible apply stripePut_kept | with_reducible apply regAdd_kept | with_reducible apply note_kept | with_reducible apply finishDw_kept | with_reducible apply mndMod_kept | with_reducible apply freeShard_kept | with_reducible apply stripeDamaged_kept | with_reducible apply kept_ite | simp only [kept_upd] | split | dsimp only)

theorem digestCheck_kept {x0 : Nat} {x1 : State} (h1 : Kept q k x1) : Kept q k (digestCheck x0 x1) := by
  unfold digestCheck
  repeat' (first | with_reducible assumption | (intro) | with_reducible apply stripePut_kept | with_reducible apply msgForget_kept | with_reducible apply digestsDone_kept | with_reducible apply kept_foldl | with_reducible apply kept_foldl2 | with_reducible apply kept_getD | with_reducible apply keptP_getD | with_reducible apply kept_ite | simp only [kept_upd] | split | dsimp only)

theorem spreadRefused_kept {x0 : Stripe} {x1 : State} (h1 : Kept q k x1) : Kept q k (spreadRefused x0 x1) := by
  unfold spreadRefused
  repeat' (first | with_reducible assumption | (intro) | with_reducible apply stripeDropAll_kept | with_reducible apply stripeCmdEnd_kept | split | dsimp only)

theorem hSpreadOpen_kept {x0 : Nat} {x1 : Bytes} {x2 : State} (h2 : Kept q k x2) : Kept q k (hSpreadOpen x0 x1 x2) := by
  unfold hSpreadOpen
  repeat' (first | with_reducible assumption | (intro) | with_reducible apply planAck_kept | with_reducible apply placeShard_kept | (with_reducible refine placeShard_keptE (by assumption) ?_) | with_reducible apply grantTwo_kept | with_reducible apply stripeNew_kept | with_reducible apply kept_ite | simp only [kept_upd] | split | dsimp only)

theorem planTarget_kept {x0 : Nat} {x1 : Plan} {x2 : State} (h2 : Kept q k x2) : Kept q k (planTarget x0 x1 x2) := by
  unfold planTarget
  repeat' (first | with_reducible assumption | (intro) | with_reducible apply planAck_kept | with_reducible apply grantTwo_kept | with_reducible apply mndMod_kept | with_reducible apply placeShard_kept | (with_reducible refine placeShard_keptE (by assumption) ?_) | with_reducible apply stripeNew_kept | with_reducible apply kept_ite | simp only [kept_upd] | split | dsimp only)

theorem hPlan_kept {x0 : Nat} {x1 : Bytes} {x2 : State} (h2 : Kept q k x2) : Kept q k (hPlan x0 x1 x2) := by
  unfold hPlan
  repeat' (first | with_reducible assumption | (intro) | with_reducible apply planAck_kept | with_reducible apply planTarget_kept | with_reducible apply mndMod_kept | with_reducible apply grantTwo_kept | with_reducible apply kept_ite | simp only [kept_upd] | split | dsimp only)

theorem queueHead_kept {x0 : Nat} {x1 : State} (h1 : Kept q k x1) : Kept q k (queueHead x0 x1) := by
  unfold queueHead
  repeat' (first | with_reducible assumption | (intro) | with_reducible apply mndMod_kept | simp only [kept_upd] | split | dsimp only)

theorem hPlanAck_kept {x0 : Nat} {x1 : Bytes} {x2 : State} (h2 : Kept q k x2) : Kept q k (hPlanAck x0 x1 x2) := by
  unfold hPlanAck
  repeat' (first | with_reducible assumption | (intro) | with_reducible apply replan_kept | with_reducible apply mndMod_kept | with_reducible apply note_kept | with_reducible apply planHelpers_kept | with_reducible apply spreadRefused_kept | with_reducible apply stripePut_kept | with_reducible apply queueHead_kept | with_reducible apply kept_ite | simp only [kept_upd] | split | dsimp only)

theorem hGrant_kept {x0 : Nat} {x1 : Bytes} {x2 : State} (h2 : Kept q k x2) : Kept q k (hGrant x0 x1 x2) := by
  unfold hGrant
  repeat' (first | with_reducible assumption | (intro) | with_reducible apply hopsPump_kept | with_reducible apply hopMod_kept | simp only [kept_upd] | split | dsimp only)

theorem hChunkOk_kept {x0 : Nat} {x1 : Bytes} {x2 : State} (h2 : Kept q k x2) : Kept q k (hChunkOk x0 x1 x2) := by
  unfold hChunkOk
  repeat' (first | with_reducible assumption | (intro) | with_reducible apply mndMod_kept | with_reducible apply hopMod_kept | with_reducible apply kept_ite | simp only [kept_upd] | split | dsimp only)

theorem hHopFail_kept {x0 : Nat} {x1 : Bytes} {x2 : State} (h2 : Kept q k x2) : Kept q k (hHopFail x0 x1 x2) := by
  unfold hHopFail
  repeat' (first | with_reducible assumption | (intro) | with_reducible apply replan_kept | split | dsimp only)

theorem hPlanAbort_kept {x0 : Nat} {x1 : Bytes} {x2 : State} (h2 : Kept q k x2) : Kept q k (hPlanAbort x0 x1 x2) := by
  unfold hPlanAbort
  repeat' (first | with_reducible assumption | (intro) | with_reducible apply planEnd_kept | split | dsimp only)

theorem hDigestReq_kept {x0 : Nat} {x1 : Bytes} {x2 : State} (h2 : Kept q k x2) : Kept q k (hDigestReq x0 x1 x2) := by
  unfold hDigestReq
  repeat' (first | with_reducible assumption | (intro) | with_reducible apply ptySend_kept | with_reducible apply shardHash_kept | (with_reducible refine shardHash_keptE (by assumption) ?_) | simp only [kept_upd] | split | dsimp only)

theorem hDigest_kept {x0 : Nat} {x1 : Bytes} {x2 : State} (h2 : Kept q k x2) : Kept q k (hDigest x0 x1 x2) := by
  unfold hDigest
  repeat' (first | with_reducible assumption | (intro) | with_reducible apply digestsDone_kept | with_reducible apply stripePut_kept | with_reducible apply kept_getD | with_reducible apply keptP_getD | with_reducible apply kept_ite | simp only [kept_upd] | split | dsimp only)

theorem hStripeSet_kept {x0 : Nat} {x1 : Bytes} {x2 : State} (h2 : Kept q k x2) : Kept q k (hStripeSet x0 x1 x2) := by
  unfold hStripeSet
  repeat' (first | with_reducible assumption | (intro) | with_reducible apply freeShard_kept | with_reducible apply stripePut_kept | with_reducible apply slotsFree_kept | with_reducible apply regAdd_kept | with_reducible apply note_kept | with_reducible apply kept_getD | with_reducible apply keptP_getD | with_reducible apply kept_ite | simp only [kept_upd] | split | dsimp only)

theorem hStripeDrop_kept {x0 : Nat} {x1 : Bytes} {x2 : State} (h2 : Kept q k x2) : Kept q k (hStripeDrop x0 x1 x2) := by
  unfold hStripeDrop
  repeat' (first | with_reducible assumption | (intro) | with_reducible apply freeShard_kept | split | dsimp only)

theorem hRecordReq_kept {x0 : Nat} {x1 : Bytes} {x2 : State} (h2 : Kept q k x2) : Kept q k (hRecordReq x0 x1 x2) := by
  unfold hRecordReq
  repeat' (first | with_reducible assumption | (intro) | with_reducible apply ptySend_kept | with_reducible apply kept_ite | simp only [kept_upd] | split | dsimp only)

theorem hRecord_kept {x0 : Nat} {x1 : Bytes} {x2 : State} (h2 : Kept q k x2) : Kept q k (hRecord x0 x1 x2) := by
  unfold hRecord
  repeat' (first | with_reducible assumption | (intro) | with_reducible apply note_kept | with_reducible apply stripeNew_kept | simp only [kept_upd] | split | dsimp only)

theorem chunkDead_kept {x0 : Nat} {x1 : Hop} {x2 : Fly} {x3 : State} (h3 : Kept q k x3) : Kept q k (chunkDead x0 x1 x2 x3) := by
  unfold chunkDead
  repeat' (first | with_reducible assumption | (intro) | with_reducible apply stripeCmdEnd_kept | with_reducible apply planEnd_kept | with_reducible apply hopFail_kept | with_reducible apply kept_ite | simp only [kept_upd] | split | dsimp only)

theorem chunkAgain_kept {x0 : Hop} {x1 : Fly} {x2 : State} (h2 : Kept q k x2) : Kept q k (chunkAgain x0 x1 x2) := by
  unfold chunkAgain
  repeat' (first | with_reducible assumption | (intro) | with_reducible apply chunkDead_kept | with_reducible apply chunkLoad_kept | with_reducible apply chunkWrite_kept | with_reducible apply hopMod_kept | with_reducible apply kept_ite | simp only [kept_upd] | split | dsimp only)

theorem hChunkNak_kept {x0 : Nat} {x1 : Bytes} {x2 : State} (h2 : Kept q k x2) : Kept q k (hChunkNak x0 x1 x2) := by
  unfold hChunkNak
  repeat' (first | with_reducible assumption | (intro) | with_reducible apply chunkAgain_kept | simp only [kept_upd] | split | dsimp only)

theorem slotClear_kept {x0 : Nat} {x1 : State} (h1 : Kept q k x1) : Kept q k (slotClear x0 x1) := by
  unfold slotClear
  repeat' (first | with_reducible assumption | (intro) | with_reducible apply slotPut_kept | split | dsimp only)

theorem takeChunk_kept {x0 : Nat} {x1 : Bytes} {x2 : State} (h2 : Kept q k x2) : KeptO q k (takeChunk x0 x1 x2) := by
  unfold takeChunk
  repeat' (first | with_reducible assumption | (intro) | with_reducible apply slotClear_kept | with_reducible apply mndMod_kept | with_reducible apply storeWrite_kept | (with_reducible refine storeWrite_keptE (by assumption) ?_) | with_reducible apply slotsFree_kept | with_reducible apply keptO_map | with_reducible apply keptOP_map | with_reducible apply keptO_mapP | with_reducible apply keptOP_mapP | with_reducible apply keptO_mapA | with_reducible apply keptOP_mapA | with_reducible apply keptO_some | with_reducible exact keptO_none | with_reducible apply keptO_ite | with_reducible apply kept_ite | simp only [kept_upd] | split | dsimp only)
theorem takeChunk_keptE {x0 : Nat} {x1 : Bytes} {x2 : State}  {t : State} (e : takeChunk x0 x1 x2 = some t) (h2 : Kept q k x2) : Kept q k t := by
  have w := takeChunk_kept (q := q) (k := k) (x0 := x0) (x1 := x1) (x2 := x2) h2
  rw [e] at w; exact w

theorem execChunkHeaderArrival_kept {x0 : Nat} {x1 : State} (h1 : Kept q k x1) : KeptX q k (execChunkHeaderArrival x0 x1) := by
  unfold execChunkHeaderArrival
  repeat' (first | with_reducible assumption | (intro) | with_reducible apply wake_kept | with_reducible apply note_kept | with_reducible apply regAdd_kept | with_reducible apply ptySend_kept | with_reducible apply slotClear_kept | with_reducible apply itemTaken_kept | with_reducible apply takeChunk_kept | (with_reducible refine takeChunk_keptE (by assumption) ?_) | with_reducible apply keptX_next | with_reducible exact keptX_fault | with_reducible apply keptX_ite | with_reducible apply kept_ite | simp only [kept_upd] | split | dsimp only)

theorem execUioWriteCompletion_kept {x0 : Nat} {x1 : Bool} {x2 : State} (h2 : Kept q k x2) : KeptX q k (execUioWriteCompletion x0 x1 x2) := by
  unfold execUioWriteCompletion
  repeat' (first | with_reducible assumption | (intro) | with_reducible apply regAdd_kept | with_reducible apply note_kept | with_reducible apply chunkAgain_kept | with_reducible apply keptX_next | with_reducible exact keptX_fault | with_reducible apply keptX_ite | with_reducible apply kept_ite | simp only [kept_upd] | split | dsimp only)

theorem stripeRow_kept {x0 : Nat} {x1 : Nat} {x2 : Nat → Bytes → State → State} {x3 : State} (h2 : ∀ y0 y1 y2, Kept q k y2 → Kept q k (x2 y0 y1 y2)) (h3 : Kept q k x3) : KeptX q k (stripeRow x0 x1 x2 x3) := by
  unfold stripeRow
  repeat' (first | with_reducible assumption | (intro) | with_reducible apply h2 | with_reducible apply msgRow_kept | with_reducible apply keptX_next | with_reducible exact keptX_fault | with_reducible apply keptX_ite | with_reducible apply kept_ite | split | dsimp only)

theorem shardRow_kept {x0 : Nat} {x1 : Nat} {x2 : Nat} {x3 : Nat → Bytes → State → State} {x4 : State} (h3 : ∀ y0 y1 y2, Kept q k y2 → Kept q k (x3 y0 y1 y2)) (h4 : Kept q k x4) : KeptX q k (shardRow x0 x1 x2 x3 x4) := by
  unfold shardRow
  repeat' (first | with_reducible assumption | (intro) | with_reducible apply h3 | with_reducible apply stripeRow_kept | with_reducible apply shardReady_kept | (with_reducible refine shardReady_keptE (by assumption) ?_) | with_reducible apply keptX_next | with_reducible exact keptX_fault | with_reducible apply keptX_ite | with_reducible apply kept_ite | simp only [kept_upd] | split | dsimp only)

theorem execMsgChunkNak_kept {x0 : Nat} {x1 : State} (h1 : Kept q k x1) : KeptX q k (execMsgChunkNak x0 x1) := by
  unfold execMsgChunkNak
  repeat' (first | with_reducible assumption | (intro) | with_reducible apply msgRow_kept | with_reducible apply hChunkNak_kept | with_reducible apply keptX_next | with_reducible exact keptX_fault | split | dsimp only)

theorem execMsgPlan_kept {x0 : Nat} {x1 : State} (h1 : Kept q k x1) : KeptX q k (execMsgPlan x0 x1) := by
  unfold execMsgPlan
  repeat' (first | with_reducible assumption | (intro) | with_reducible apply shardRow_kept | with_reducible apply hPlan_kept | with_reducible apply keptX_next | with_reducible exact keptX_fault | split | dsimp only)

theorem execMsgPlanAck_kept {x0 : Nat} {x1 : State} (h1 : Kept q k x1) : KeptX q k (execMsgPlanAck x0 x1) := by
  unfold execMsgPlanAck
  repeat' (first | with_reducible assumption | (intro) | with_reducible apply msgRow_kept | with_reducible apply hPlanAck_kept | with_reducible apply keptX_next | with_reducible exact keptX_fault | split | dsimp only)

theorem execMsgGrant_kept {x0 : Nat} {x1 : State} (h1 : Kept q k x1) : KeptX q k (execMsgGrant x0 x1) := by
  unfold execMsgGrant
  repeat' (first | with_reducible assumption | (intro) | with_reducible apply msgRow_kept | with_reducible apply hGrant_kept | with_reducible apply keptX_next | with_reducible exact keptX_fault | split | dsimp only)

theorem execMsgChunkOk_kept {x0 : Nat} {x1 : State} (h1 : Kept q k x1) : KeptX q k (execMsgChunkOk x0 x1) := by
  unfold execMsgChunkOk
  repeat' (first | with_reducible assumption | (intro) | with_reducible apply msgRow_kept | with_reducible apply hChunkOk_kept | with_reducible apply keptX_next | with_reducible exact keptX_fault | split | dsimp only)

theorem execMsgHopFail_kept {x0 : Nat} {x1 : State} (h1 : Kept q k x1) : KeptX q k (execMsgHopFail x0 x1) := by
  unfold execMsgHopFail
  repeat' (first | with_reducible assumption | (intro) | with_reducible apply msgRow_kept | with_reducible apply hHopFail_kept | with_reducible apply keptX_next | with_reducible exact keptX_fault | split | dsimp only)

theorem execMsgPlanAbort_kept {x0 : Nat} {x1 : State} (h1 : Kept q k x1) : KeptX q k (execMsgPlanAbort x0 x1) := by
  unfold execMsgPlanAbort
  repeat' (first | with_reducible assumption | (intro) | with_reducible apply msgRow_kept | with_reducible apply hPlanAbort_kept | with_reducible apply keptX_next | with_reducible exact keptX_fault | split | dsimp only)

theorem execMsgDigestReq_kept {x0 : Nat} {x1 : State} (h1 : Kept q k x1) : KeptX q k (execMsgDigestReq x0 x1) := by
  unfold execMsgDigestReq
  repeat' (first | with_reducible assumption | (intro) | with_reducible apply shardRow_kept | with_reducible apply hDigestReq_kept | with_reducible apply keptX_next | with_reducible exact keptX_fault | split | dsimp only)

theorem execMsgDigest_kept {x0 : Nat} {x1 : State} (h1 : Kept q k x1) : KeptX q k (execMsgDigest x0 x1) := by
  unfold execMsgDigest
  repeat' (first | with_reducible assumption | (intro) | with_reducible apply stripeRow_kept | with_reducible apply hDigest_kept | with_reducible apply keptX_next | with_reducible exact keptX_fault | split | dsimp only)

theorem execMsgStripeSet_kept {x0 : Nat} {x1 : State} (h1 : Kept q k x1) : KeptX q k (execMsgStripeSet x0 x1) := by
  unfold execMsgStripeSet
  repeat' (first | with_reducible assumption | (intro) | with_reducible apply stripeRow_kept | with_reducible apply hStripeSet_kept | with_reducible apply keptX_next | with_reducible exact keptX_fault | split | dsimp only)

theorem execMsgStripeDrop_kept {x0 : Nat} {x1 : State} (h1 : Kept q k x1) : KeptX q k (execMsgStripeDrop x0 x1) := by
  unfold execMsgStripeDrop
  repeat' (first | with_reducible assumption | (intro) | with_reducible apply stripeRow_kept | with_reducible apply hStripeDrop_kept | with_reducible apply keptX_next | with_reducible exact keptX_fault | split | dsimp only)

theorem execMsgSpreadOpen_kept {x0 : Nat} {x1 : State} (h1 : Kept q k x1) : KeptX q k (execMsgSpreadOpen x0 x1) := by
  unfold execMsgSpreadOpen
  repeat' (first | with_reducible assumption | (intro) | with_reducible apply stripeRow_kept | with_reducible apply hSpreadOpen_kept | with_reducible apply keptX_next | with_reducible exact keptX_fault | split | dsimp only)

theorem execMsgRecordReq_kept {x0 : Nat} {x1 : State} (h1 : Kept q k x1) : KeptX q k (execMsgRecordReq x0 x1) := by
  unfold execMsgRecordReq
  repeat' (first | with_reducible assumption | (intro) | with_reducible apply stripeRow_kept | with_reducible apply hRecordReq_kept | with_reducible apply keptX_next | with_reducible exact keptX_fault | split | dsimp only)

theorem execMsgRecord_kept {x0 : Nat} {x1 : State} (h1 : Kept q k x1) : KeptX q k (execMsgRecord x0 x1) := by
  unfold execMsgRecord
  repeat' (first | with_reducible assumption | (intro) | with_reducible apply stripeRow_kept | with_reducible apply hRecord_kept | with_reducible apply keptX_next | with_reducible exact keptX_fault | split | dsimp only)

theorem stripeGate_kept {x0 : Nat} {x1 : State} (h1 : Kept q k x1) : KeptO q k (stripeGate x0 x1) := by
  unfold stripeGate
  repeat' (first | with_reducible assumption | (intro) | with_reducible apply finish_kept | with_reducible apply keptO_some | with_reducible exact keptO_none | with_reducible apply keptO_ite | with_reducible apply kept_ite | split | dsimp only)
theorem stripeGate_keptE {x0 : Nat} {x1 : State}  {t : State} (e : stripeGate x0 x1 = some t) (h1 : Kept q k x1) : Kept q k t := by
  have w := stripeGate_kept (q := q) (k := k) (x0 := x0) (x1 := x1) h1
  rw [e] at w; exact w

theorem swOpen_kept {x0 : Nat} {x1 : Bytes} {x2 : State} (h2 : Kept q k x2) : Kept q k (swOpen x0 x1 x2) := by
  unfold swOpen
  repeat' (first | with_reducible assumption | (intro) | with_reducible apply placeShard_kept | (with_reducible refine placeShard_keptE (by assumption) ?_) | with_reducible apply finish_kept | with_reducible apply newStream_kept | (with_reducible refine newStream_keptE (by assumption) ?_) | with_reducible apply toAll_kept | with_reducible apply ctxMod_kept | with_reducible apply mndMod_kept | with_reducible apply stripeNew_kept | simp only [kept_upd] | split | dsimp only)

theorem swPiece_kept {x0 : Nat} {x1 : Nat} {x2 : Stripe} {x3 : Nat} {x4 : Bytes} {x5 : State} (h5 : Kept q k x5) : Kept q k (swPiece x0 x1 x2 x3 x4 x5) := by
  unfold swPiece
  repeat' (first | with_reducible assumption | (intro) | with_reducible apply hopsPump_kept | with_reducible apply setPlan_kept | with_reducible apply stripePut_kept | with_reducible apply mndMod_kept | with_reducible apply mndJob_kept | with_reducible apply kept_getD | with_reducible apply keptP_getD | with_reducible apply kept_ite | simp only [kept_upd] | split | dsimp only)

theorem swStep_kept {x0 : Nat} {x1 : Nat} {x2 : Stripe} {x3 : State} (h3 : Kept q k x3) : Kept q k (swStep x0 x1 x2 x3) := by
  unfold swStep
  repeat' (first | with_reducible assumption | (intro) | with_reducible apply askDigests_kept | with_reducible apply stripePut_kept | with_reducible apply finish_kept | with_reducible apply stripeCmdEnd_kept | with_reducible apply finishDw_kept | with_reducible apply note_kept | with_reducible apply mndMod_kept | with_reducible apply openExtents_kept | with_reducible apply hostData_kept | (with_reducible refine hostData_keptE (by assumption) ?_) | with_reducible apply swPiece_kept | with_reducible apply kept_ite | simp only [kept_upd] | split | dsimp only)

theorem spreadWrite_kept {x0 : Nat} {x1 : State} (h1 : Kept q k x1) : Kept q k (spreadWrite x0 x1) := by
  unfold spreadWrite
  repeat' (first | with_reducible assumption | (intro) | with_reducible apply swStep_kept | with_reducible apply finish_kept | with_reducible apply stripeGate_kept | (with_reducible refine stripeGate_keptE (by assumption) ?_) | with_reducible apply askHost_kept | with_reducible apply swOpen_kept | with_reducible apply ctxMod_kept | with_reducible apply openExtents_kept | with_reducible apply kept_ite | simp only [kept_upd] | split | dsimp only)

theorem execSpreadWrite_kept {x0 : Nat} {x1 : State} (h1 : Kept q k x1) : KeptX q k (execSpreadWrite x0 x1) := by
  unfold execSpreadWrite
  repeat' (first | with_reducible assumption | (intro) | with_reducible apply spreadWrite_kept | with_reducible apply keptX_next | with_reducible exact keptX_fault | with_reducible apply keptX_ite | with_reducible apply kept_ite | split | dsimp only)

theorem execSpreadOpenTimeout_kept {x0 : Nat} {x1 : State} (h1 : Kept q k x1) : KeptX q k (execSpreadOpenTimeout x0 x1) := by
  unfold execSpreadOpenTimeout
  repeat' (first | with_reducible assumption | (intro) | with_reducible apply spreadRefused_kept | with_reducible apply keptX_next | with_reducible exact keptX_fault | with_reducible apply keptX_ite | with_reducible apply kept_ite | simp only [kept_upd] | split | dsimp only)

theorem execOpenStripeTimeout_kept {x0 : Nat} {x1 : State} (h1 : Kept q k x1) : KeptX q k (execOpenStripeTimeout x0 x1) := by
  unfold execOpenStripeTimeout
  repeat' (first | with_reducible assumption | (intro) | with_reducible apply note_kept | with_reducible apply stripeDropAll_kept | with_reducible apply keptX_next | with_reducible exact keptX_fault | with_reducible apply keptX_ite | with_reducible apply kept_ite | simp only [kept_upd] | split | dsimp only)

theorem shardRead_kept {x0 : Nat} {x1 : State} (h1 : Kept q k x1) : Kept q k (shardRead x0 x1) := by
  unfold shardRead
  repeat' (first | with_reducible assumption | (intro) | with_reducible apply finish_kept | with_reducible apply bufferOf_kept | (with_reducible refine bufferOf_keptE (by assumption) ?_) | with_reducible apply sendData_kept | with_reducible apply openExtents_kept | with_reducible apply gather_kept | (with_reducible refine gather_keptE (by assumption) ?_) | with_reducible apply countRead_kept | with_reducible apply sendGranules_kept | with_reducible apply kept_ite | simp only [kept_upd] | split | dsimp only)

theorem execShardRead_kept {x0 : Nat} {x1 : State} (h1 : Kept q k x1) : KeptX q k (execShardRead x0 x1) := by
  unfold execShardRead
  repeat' (first | with_reducible assumption | (intro) | with_reducible apply shardRead_kept | with_reducible apply keptX_next | with_reducible exact keptX_fault | with_reducible apply keptX_ite | with_reducible apply kept_ite | split | dsimp only)

theorem mendRow_kept {x0 : Nat} {x1 : Nat} {x2 : Nat → Stripe → State → State} {x3 : State} (h2 : ∀ y0 y1 y2, Kept q k y2 → Kept q k (x2 y0 y1 y2)) (h3 : Kept q k x3) : Kept q k (mendRow x0 x1 x2 x3) := by
  unfold mendRow
  repeat' (first | with_reducible assumption | (intro) | with_reducible apply h2 | with_reducible apply finish_kept | with_reducible apply stripeGate_kept | (with_reducible refine stripeGate_keptE (by assumption) ?_) | with_reducible apply kept_ite | simp only [kept_upd] | split | dsimp only)

theorem execMendRepair_kept {x0 : Nat} {x1 : State} (h1 : Kept q k x1) : KeptX q k (execMendRepair x0 x1) := by
  unfold execMendRepair
  repeat' (first | with_reducible assumption | (intro) | with_reducible apply mendRow_kept | with_reducible apply finishDw_kept | with_reducible apply queueHead_kept | with_reducible apply planAck_kept | with_reducible apply keptX_next | with_reducible exact keptX_fault | with_reducible apply keptX_ite | with_reducible apply kept_ite | simp only [kept_upd] | split | dsimp only)

theorem execMendVerify_kept {x0 : Nat} {x1 : State} (h1 : Kept q k x1) : KeptX q k (execMendVerify x0 x1) := by
  unfold execMendVerify
  repeat' (first | with_reducible assumption | (intro) | with_reducible apply mendRow_kept | with_reducible apply askDigests_kept | with_reducible apply stripePut_kept | with_reducible apply ctxMod_kept | with_reducible apply openExtents_kept | with_reducible apply keptX_next | with_reducible exact keptX_fault | with_reducible apply keptX_ite | with_reducible apply kept_ite | simp only [kept_upd] | split | dsimp only)

theorem dropEnd_kept {x0 : Nat} {x1 : Nat} {x2 : State} (h2 : Kept q k x2) : Kept q k (dropEnd x0 x1 x2) := by
  unfold dropEnd
  repeat' (first | with_reducible assumption | (intro) | with_reducible apply finishDw_kept | with_reducible apply msgForget_kept | with_reducible apply kept_ite | split | dsimp only)

theorem execMendDrop_kept {x0 : Nat} {x1 : State} (h1 : Kept q k x1) : KeptX q k (execMendDrop x0 x1) := by
  unfold execMendDrop
  repeat' (first | with_reducible assumption | (intro) | with_reducible apply dropEnd_kept | with_reducible apply mendRow_kept | with_reducible apply openExtents_kept | with_reducible apply ctxMod_kept | with_reducible apply stripeDropAll_kept | with_reducible apply keptX_next | with_reducible exact keptX_fault | with_reducible apply keptX_ite | with_reducible apply kept_ite | simp only [kept_upd] | split | dsimp only)

theorem execRelayTimeout_kept {x0 : Nat} {x1 : State} (h1 : Kept q k x1) : KeptX q k (execRelayTimeout x0 x1) := by
  unfold execRelayTimeout
  repeat' (first | with_reducible assumption | (intro) | with_reducible apply replan_kept | with_reducible apply planEnd_kept | with_reducible apply hopFail_kept | with_reducible apply keptX_next | with_reducible exact keptX_fault | with_reducible apply keptX_ite | with_reducible apply kept_ite | simp only [kept_upd] | split | dsimp only)

theorem helperStep_kept {x0 : Plan} {x1 : State} (h1 : Kept q k x1) : Kept q k (helperStep x0 x1) := by
  unfold helperStep
  repeat' (first | with_reducible assumption | (intro) | with_reducible apply planEnd_kept | with_reducible apply shardSeek_kept | (with_reducible refine shardSeek_keptE (by assumption) ?_) | with_reducible apply hopFail_kept | with_reducible apply hopMod_kept | with_reducible apply mndMod_kept | with_reducible apply mndJob_kept | with_reducible apply repairCharge_kept | with_reducible apply regrant_kept | with_reducible apply kept_ite | simp only [kept_upd] | split | dsimp only)

theorem commitDone_kept {x0 : Commit} {x1 : State} (h1 : Kept q k x1) : Kept q k (commitDone x0 x1) := by
  unfold commitDone
  repeat' (first | with_reducible assumption | (intro) | with_reducible apply shardReady_kept | (with_reducible refine shardReady_keptE (by assumption) ?_) | with_reducible apply mndMod_kept | with_reducible apply regAdd_kept | with_reducible apply stripePut_kept | with_reducible apply chunkOk_kept | with_reducible apply regrant_kept | with_reducible apply planEnd_kept | with_reducible apply shardHash_kept | (with_reducible refine shardHash_keptE (by assumption) ?_) | with_reducible apply kept_ite | simp only [kept_upd] | split | dsimp only)

theorem leadDone_kept {x0 : Plan} {x1 : State} (h1 : Kept q k x1) : Kept q k (leadDone x0 x1) := by
  unfold leadDone
  repeat' (first | with_reducible assumption | (intro) | with_reducible apply planEnd_kept | with_reducible apply stripeMod_kept | with_reducible apply kept_ite | simp only [kept_upd] | split | dsimp only)

theorem planCheck_kept {x0 : Plan} {x1 : State} (h1 : Kept q k x1) : Kept q k (planCheck x0 x1) := by
  unfold planCheck
  repeat' (first | with_reducible assumption | (intro) | with_reducible apply replan_kept | with_reducible apply planEnd_kept | with_reducible apply kept_ite | simp only [kept_upd] | split | dsimp only)

theorem stripeCheck_kept {x0 : Nat} {x1 : State} (h1 : Kept q k x1) : Kept q k (stripeCheck x0 x1) := by
  unfold stripeCheck
  repeat' (first | with_reducible assumption | (intro) | with_reducible apply stripePut_kept | with_reducible apply stripeCmdEnd_kept | with_reducible apply mndMod_kept | with_reducible apply kept_ite | simp only [kept_upd] | split | dsimp only)

theorem lossCheck_kept {x0 : State} (h0 : Kept q k x0) : Kept q k (lossCheck x0) := by
  unfold lossCheck
  repeat' (first | with_reducible assumption | (intro) | with_reducible apply mndMod_kept | with_reducible apply kept_foldl | with_reducible apply kept_foldl2 | with_reducible apply kept_ite | simp only [kept_upd] | split | dsimp only)

theorem orphanCheck_kept {x0 : Nat} {x1 : State} (h1 : Kept q k x1) : Kept q k (orphanCheck x0 x1) := by
  unfold orphanCheck
  repeat' (first | with_reducible assumption | (intro) | with_reducible apply stripeCmdEnd_kept | with_reducible apply stripePut_kept | with_reducible apply kept_ite | simp only [kept_upd] | split | dsimp only)

theorem selfAct_kept {x0 : Nat} {x1 : Bytes} {x2 : State} (h2 : Kept q k x2) : Kept q k (selfAct x0 x1 x2) := by
  unfold selfAct
  repeat' (first | with_reducible assumption | (intro) | with_reducible apply hSuspect_kept | with_reducible apply hRetract_kept | with_reducible apply hAway_kept | with_reducible apply hBack_kept | with_reducible apply hLeave_kept | with_reducible apply hDepart_kept | with_reducible apply hCap_kept | with_reducible apply hPlan_kept | with_reducible apply hPlanAck_kept | with_reducible apply hGrant_kept | with_reducible apply hChunkOk_kept | with_reducible apply hHopFail_kept | with_reducible apply hPlanAbort_kept | with_reducible apply hDigestReq_kept | with_reducible apply hDigest_kept | with_reducible apply hStripeSet_kept | with_reducible apply hStripeDrop_kept | simp only [kept_upd] | split | dsimp only)

theorem selfMessage_kept {x0 : Nat} {x1 : Bytes} {x2 : State} (h2 : Kept q k x2) : Kept q k (selfMessage x0 x1 x2) := by
  unfold selfMessage
  repeat' (first | with_reducible assumption | (intro) | with_reducible apply shardReady_kept | (with_reducible refine shardReady_keptE (by assumption) ?_) | with_reducible apply selfAct_kept | with_reducible apply ptyMod_kept | with_reducible apply kept_ite | simp only [kept_upd] | split | dsimp only)

theorem partyPick_kept {x0 : State} (h0 : Kept q k x0) : Kept q k (partyPick x0) := by
  unfold partyPick
  repeat' (first | with_reducible assumption | (intro) | with_reducible apply dropUndefined_kept | with_reducible apply backSend_kept | with_reducible apply selfMessage_kept | with_reducible apply ptyMod_kept | with_reducible apply orphanCheck_kept | with_reducible apply stripeCheck_kept | with_reducible apply planCheck_kept | with_reducible apply mndMod_kept | with_reducible apply ptyPump_kept | with_reducible apply digestCheck_kept | with_reducible apply commitDone_kept | with_reducible apply helperStep_kept | with_reducible apply leadDone_kept | with_reducible apply leadStep_kept | with_reducible apply lossCheck_kept | with_reducible apply hopsPump_kept | with_reducible apply ptySteward_kept | with_reducible apply kept_foldl | with_reducible apply kept_foldl2 | with_reducible apply kept_ite | simp only [kept_upd] | split | dsimp only)

end Sys2Proof.Machine
end

