-- ==== Sys2Proof/Laws/KeptReset.lean ====
section
/-!
SUPPORT. What the operations of Machine/Reset.lean keep (`Kept`).
-/
namespace Sys2Proof.Machine

set_option linter.all false

variable {q : List Instr} {k : W64}

theorem bootMod_kept {x0 : Boot → Boot} {x1 : State} (h1 : Kept q k x1) : Kept q k (bootMod x0 x1) := by
  unfold bootMod
  repeat' (first | with_reducible assumption | (intro) | simp only [kept_upd] | split | dsimp only)

theorem ringKeep_kept {x0 : Nat} {x1 : State} (h1 : Kept q k x1) : Kept q k (ringKeep x0 x1) := by
  unfold ringKeep
  repeat' (first | with_reducible assumption | (intro) | with_reducible apply kept_foldl | with_reducible apply kept_foldl2 | simp only [kept_upd] | split | dsimp only)

theorem dumpCut_kept {x0 : State} (h0 : Kept q k x0) : Kept q k (dumpCut x0) := by
  unfold dumpCut
  repeat' (first | with_reducible assumption | (intro) | with_reducible apply draw_kept | (with_reducible refine draw_keptE (by assumption) ?_) | with_reducible apply dumpRun_kept | (with_reducible refine dumpRun_keptE (by assumption) ?_) | with_reducible apply kept_ite | split | dsimp only)

theorem powerLoss_kept {x0 : State} (h0 : Kept q k x0) : Kept q 0 (powerLoss x0) := by
  unfold powerLoss
  generalize e : draw (dumpCut x0) = p
  obtain ⟨d, s⟩ := p
  have h : Kept q k s := draw_keptE e (dumpCut_kept h0)
  extract_lets n die r
  refine ⟨h.pending, rfl, ?_⟩
  constructor <;> first | rfl | exact tabUp_map h.tabs.fns

theorem extDis_kept {x0 : State} (h0 : Kept q k x0) : Kept q k (extDis x0) := by
  unfold extDis
  repeat' (first | with_reducible assumption | (intro) | with_reducible apply regSetFld_kept | with_reducible apply kept_foldl | with_reducible apply kept_foldl2 | with_reducible apply kept_ite | split | dsimp only)

theorem execPowerOnReset_kept {x0 : Byte} {x1 : State} (h1 : Kept q k x1) : KeptX q k (execPowerOnReset x0 x1) ∨ KeptX q 0 (execPowerOnReset x0 x1) := by
  unfold execPowerOnReset
  split
  · exact .inl (keptX_next h1)
  · right
    extract_lets s0 src0 s1 good bad src1 s2
    have k0 : Kept q 0 s0 := bootMod_kept (powerLoss_kept h1)
    clear_value s0
    have k1 : Kept q 0 s1 := by
      simp only [s1, kept_upd]; exact k0
    clear_value s1
    have k2 : Kept q 0 s2 := extDis_kept (regSetFld_kept (regSet_kept (by simp only [kept_upd]; exact k1)))
    clear_value s2
    exact keptX_next (kept_iter (fun _ _ h => note_kept h) k2)

theorem execPorNAssert_kept {x0 : State} (h0 : Kept q k x0) : KeptX q 0 (execPorNAssert x0) := by
  unfold execPorNAssert
  exact keptX_next (bootMod_kept (powerLoss_kept h0))

theorem aonFall_kept {x0 : State} (h0 : Kept q k x0) : Kept q 0 (aonFall x0) := by
  unfold aonFall
  exact bootMod_kept (powerLoss_kept h0)

theorem execVddAonLoss_kept {x0 : State} (h0 : Kept q k x0) : KeptX q 0 (execVddAonLoss x0) := by
  unfold execVddAonLoss
  exact keptX_next (aonFall_kept h0)

theorem resetDrain_kept {x0 : Bool} {x1 : State} (h1 : Kept q k x1) : Kept q k (resetDrain x0 x1) := by
  unfold resetDrain
  repeat' (first | with_reducible assumption | (intro) | with_reducible apply fnsReset_kept | with_reducible apply jDrain_kept | with_reducible apply jFlush_kept | with_reducible apply kept_ite | simp only [kept_upd] | split | dsimp only)

theorem doReset_kept {x0 : Nat} {x1 : State} (h1 : Kept q k x1) : Kept q k (doReset x0 x1) := by
  unfold doReset
  extract_lets fatal wasFatal wasUp isSealed s1 had mapKept stageKept b cause ps r src0 src1 src2 src3 src4 s2 s3 s4
  have k1 : Kept q k s1 := resetDrain_kept (kept_ite (note_kept h1) h1)
  clear_value s1
  have k2 : Kept q k s2 := by
    refine ⟨k1.pending, k1.pick, ?_⟩
    constructor
    case regs => exact regsWf_filter k1.tabs.regs
    case snaps => exact tabWf_filter k1.tabs.snaps
    case map =>
      show tabWf 0 (if mapKept then s1.map else []) = true
      split
      · exact k1.tabs.map
      · rfl
    case ham => exact k1.tabs.ham
    case hamPoison => exact k1.tabs.hamPoison
    case hamErr => exact k1.tabs.hamErr
    case dram =>
      show tabWf 0 (if mapKept then s1.dram else []) = true
      split
      · exact k1.tabs.dram
      · rfl
    case dramPoison =>
      show tabWf false (if mapKept then s1.dramPoison else []) = true
      split
      · exact k1.tabs.dramPoison
      · rfl
    case dramErr =>
      show tabWf [] (if mapKept then s1.dramErr else []) = true
      split
      · exact k1.tabs.dramErr
      · rfl
    case fns => exact tabUp_map k1.tabs.fns
    case digs => exact tabUp_filter k1.tabs.digs
    case hed => exact tabUp_filter k1.tabs.hed
    case hgrp => exact k1.tabs.hgrp
    all_goals rfl
  clear_value s2
  have k3 : Kept q k s3 := regSetFld_kept (regSet_kept (regAdd32_kept (extDis_kept (regSet_kept k2))))
  clear_value s3
  have k4 : Kept q k s4 := kept_ite (regAdd32_kept k3) k3
  clear_value s4
  exact kept_ite k4 (note_kept k4)

theorem execDeviceReset_kept {x0 : State} (h0 : Kept q k x0) : KeptX q k (execDeviceReset x0) := by
  unfold execDeviceReset
  repeat' (first | with_reducible assumption | (intro) | with_reducible apply doReset_kept | with_reducible apply keptX_next | with_reducible exact keptX_fault | with_reducible apply keptX_ite | with_reducible apply kept_ite | split | dsimp only)

theorem execFatalReset_kept {x0 : State} (h0 : Kept q k x0) : KeptX q k (execFatalReset x0) := by
  unfold execFatalReset
  repeat' (first | with_reducible assumption | (intro) | with_reducible apply doReset_kept | with_reducible apply keptX_next | with_reducible exact keptX_fault | with_reducible apply keptX_ite | with_reducible apply kept_ite | split | dsimp only)

theorem execBootWatchdogExpiry_kept {x0 : State} (h0 : Kept q k x0) : KeptX q k (execBootWatchdogExpiry x0) := by
  unfold execBootWatchdogExpiry
  repeat' (first | with_reducible assumption | (intro) | with_reducible apply later_kept | with_reducible apply note_kept | with_reducible apply keptX_next | with_reducible exact keptX_fault | with_reducible apply keptX_ite | with_reducible apply kept_ite | simp only [kept_upd] | split | dsimp only)

theorem rstCtl_kept {x0 : Nat} {x1 : State} (h1 : Kept q k x1) : Kept q k (rstCtl x0 x1) := by
  unfold rstCtl
  repeat' (first | with_reducible assumption | (intro) | with_reducible apply note_kept | with_reducible apply later_kept | with_reducible apply kept_ite | split | dsimp only)

theorem execRstCtlDevice_kept {x0 : W32} {x1 : State} (h1 : Kept q k x1) : KeptX q k (execRstCtlDevice x0 x1) := by
  unfold execRstCtlDevice
  repeat' (first | with_reducible assumption | (intro) | with_reducible apply rstCtl_kept | with_reducible apply keptX_next | with_reducible exact keptX_fault | with_reducible apply keptX_ite | with_reducible apply kept_ite | split | dsimp only)

theorem bootUpdate_kept {x0 : BootRecord → BootRecord} {x1 : State} (h1 : Kept q k x1) : Kept q k (bootUpdate x0 x1) := by
  unfold bootUpdate
  repeat' (first | with_reducible assumption | (intro) | with_reducible apply bootMod_kept | simp only [kept_upd] | split | dsimp only)

theorem pagesEnable_kept {x0 : State} (h0 : Kept q k x0) : Kept q k (pagesEnable x0) := by
  unfold pagesEnable
  repeat' (first | with_reducible assumption | (intro) | with_reducible apply regSetFld_kept | with_reducible apply kept_foldl | with_reducible apply kept_foldl2 | split | dsimp only)

theorem carvesRestore_kept {x0 : Bool} {x1 : State} (h1 : Kept q k x1) : Kept q k (carvesRestore x0 x1) := by
  unfold carvesRestore
  repeat' (first | with_reducible assumption | (intro) | with_reducible apply fnMod_kept | with_reducible apply regSet_kept | with_reducible apply hedClear_kept | with_reducible apply kept_foldl | with_reducible apply kept_foldl2 | with_reducible apply kept_ite | simp only [kept_upd] | split | dsimp only)

theorem firmwareStart_kept {x0 : State} (h0 : Kept q k x0) : Kept q k (firmwareStart x0) := by
  unfold firmwareStart
  repeat' (first | with_reducible assumption | (intro) | with_reducible apply runSet_kept | with_reducible apply newTask_kept | (with_reducible refine newTask_keptE (by assumption) ?_) | with_reducible apply kept_getD | with_reducible apply keptP_getD | simp only [kept_upd] | split | dsimp only)

theorem nssLoad_kept {x0 : State} (h0 : Kept q k x0) : Kept q k (nssLoad x0) := by
  unfold nssLoad
  repeat' (first | with_reducible assumption | (intro) | simp only [kept_upd] | split | dsimp only)

theorem bootSlot_kept {x0 : Nat} {x1 : List Nat} {x2 : State} (h2 : Kept q k x2) : Kept q k (bootSlot x0 x1 x2) := by
  unfold bootSlot
  extract_lets mask s1 fresh s2
  have k_s1 : Kept q k s1 := by
    dsimp only [s1]
    repeat' (first | with_reducible assumption | (intro) | with_reducible apply note_kept | with_reducible apply firmwareStart_kept | with_reducible apply carvesRestore_kept | with_reducible apply keyReload_kept | with_reducible apply nssLoad_kept | with_reducible apply pagesEnable_kept | with_reducible apply regSetFld_kept | with_reducible apply bootMod_kept | with_reducible apply degrade_kept | with_reducible apply kept_foldl | with_reducible apply kept_foldl2 | with_reducible apply kept_ite | simp only [kept_upd] | split | dsimp only)
  clear_value s1
  have k_s2 : Kept q k s2 := by
    dsimp only [s2]
    repeat' (first | with_reducible assumption | (intro) | with_reducible apply note_kept | with_reducible apply firmwareStart_kept | with_reducible apply carvesRestore_kept | with_reducible apply keyReload_kept | with_reducible apply nssLoad_kept | with_reducible apply pagesEnable_kept | with_reducible apply regSetFld_kept | with_reducible apply bootMod_kept | with_reducible apply degrade_kept | with_reducible apply kept_foldl | with_reducible apply kept_foldl2 | with_reducible apply kept_ite | simp only [kept_upd] | split | dsimp only)
  clear_value s2
  repeat' (first | with_reducible assumption | (intro) | with_reducible apply note_kept | with_reducible apply firmwareStart_kept | with_reducible apply carvesRestore_kept | with_reducible apply keyReload_kept | with_reducible apply nssLoad_kept | with_reducible apply pagesEnable_kept | with_reducible apply regSetFld_kept | with_reducible apply bootMod_kept | with_reducible apply degrade_kept | with_reducible apply kept_foldl | with_reducible apply kept_foldl2 | with_reducible apply kept_ite | simp only [kept_upd] | split | dsimp only)

theorem recoveryEnter_kept {x0 : List Nat} {x1 : State} (h1 : Kept q k x1) : Kept q k (recoveryEnter x0 x1) := by
  unfold recoveryEnter
  repeat' (first | with_reducible assumption | (intro) | with_reducible apply note_kept | with_reducible apply keyReload_kept | with_reducible apply pagesEnable_kept | with_reducible apply regSetFld_kept | with_reducible apply bootMod_kept | with_reducible apply kept_foldl | with_reducible apply kept_foldl2 | simp only [kept_upd] | split | dsimp only)

theorem execBootSlotSelect_kept {x0 : State} (h0 : Kept q k x0) : KeptX q k (execBootSlotSelect x0) := by
  unfold execBootSlotSelect
  repeat' (first | with_reducible assumption | (intro) | with_reducible apply recoveryEnter_kept | with_reducible apply bootSlot_kept | with_reducible apply keptX_next | with_reducible exact keptX_fault | with_reducible apply keptX_ite | with_reducible apply kept_ite | simp only [kept_upd] | split | dsimp only)

theorem bootOk_kept {x0 : State} (h0 : Kept q k x0) : Kept q k (bootOk x0) := by
  unfold bootOk
  repeat' (first | with_reducible assumption | (intro) | with_reducible apply regSet_kept | with_reducible apply bootMod_kept | with_reducible apply bootUpdate_kept | with_reducible apply kept_ite | simp only [kept_upd] | split | dsimp only)

theorem execRstBootOk_kept {x0 : W32} {x1 : State} (h1 : Kept q k x1) : KeptX q k (execRstBootOk x0 x1) := by
  unfold execRstBootOk
  repeat' (first | with_reducible assumption | (intro) | with_reducible apply bootOk_kept | with_reducible apply keptX_next | with_reducible exact keptX_fault | with_reducible apply keptX_ite | with_reducible apply kept_ite | split | dsimp only)

theorem trainStore_kept {x0 : List Nat} {x1 : Nat} {x2 : State} (h2 : Kept q k x2) : Kept q k (trainStore x0 x1 x2) := by
  unfold trainStore
  repeat' (first | with_reducible assumption | (intro) | with_reducible apply jCtrl_kept | with_reducible apply ctlStore_kept | simp only [kept_upd] | split | dsimp only)

theorem execDramTraining_kept {x0 : List Nat} {x1 : Nat} {x2 : Nat} {x3 : State} {x4 : Nat} (h3 : Kept q k x3) : KeptX q k (execDramTraining x0 x1 x2 x3 x4) := by
  unfold execDramTraining
  repeat' (first | with_reducible assumption | (intro) | with_reducible apply regSet_kept | with_reducible apply degrade_kept | with_reducible apply raise_kept | with_reducible apply trainStore_kept | with_reducible apply note_kept | with_reducible apply kept_foldl | with_reducible apply kept_foldl2 | with_reducible apply kept_getD | with_reducible apply keptP_getD | with_reducible apply keptX_next | with_reducible exact keptX_fault | with_reducible apply keptX_ite | with_reducible apply kept_ite | simp only [kept_upd] | split | dsimp only)

theorem trainFull_kept {x0 : State} (h0 : Kept q k x0) : Kept q k (trainFull x0) := by
  unfold trainFull
  repeat' (first | with_reducible assumption | (intro) | with_reducible apply jCtrl_kept | with_reducible apply regSetFld_kept | simp only [kept_upd] | split | dsimp only)

theorem execDdrTrainFull_kept {x0 : W32} {x1 : State} (h1 : Kept q k x1) : KeptX q k (execDdrTrainFull x0 x1) := by
  unfold execDdrTrainFull
  repeat' (first | with_reducible assumption | (intro) | with_reducible apply trainFull_kept | with_reducible apply keptX_next | with_reducible exact keptX_fault | with_reducible apply keptX_ite | with_reducible apply kept_ite | split | dsimp only)

theorem stageCheck_kept {x0 : State} (h0 : Kept q k x0) : Kept q k (stageCheck x0) := by
  unfold stageCheck
  repeat' (first | with_reducible assumption | (intro) | with_reducible apply slotStore_kept | with_reducible apply loseStaged_kept | with_reducible apply slotSet_kept | with_reducible apply kept_foldl | with_reducible apply kept_foldl2 | with_reducible apply kept_ite | simp only [kept_upd] | split | dsimp only)

theorem segsUnbuilt_kept {x0 : State} (h0 : Kept q k x0) : Kept q k (segsUnbuilt x0) := by
  exact kept_map h0 rfl

theorem restartStaging_kept {x0 : State} (h0 : Kept q k x0) : Kept q k (restartStaging x0) := by
  unfold restartStaging
  refine kept_ite h0 ?_
  extract_lets from_ commits s1 src s2
  have k2 : Kept q k s2 := kept_upd.2 (segsUnbuilt_kept h0)
  clear_value s2 commits from_
  refine kept_ite (restoreDiscs_kept (stageCheck_kept k2)) ?_
  exact restoreDiscs_kept (kept_foldl (fun s x h => restoreSlot_kept h) (kept_upd.2 k2))

theorem headFind_kept {x0 : State} (h0 : Kept q k x0) : Kept q k (headFind x0) := by
  unfold headFind
  repeat' (first | with_reducible assumption | (intro) | with_reducible apply kept_ite | simp only [kept_upd] | split | dsimp only)

theorem execRestartIndex_kept {x0 : Nat} {x1 : State} (h1 : Kept q k x1) : KeptX q k (execRestartIndex x0 x1) := by
  unfold execRestartIndex
  repeat' (first | with_reducible assumption | (intro) | with_reducible apply headFind_kept | with_reducible apply nssLoad_kept | with_reducible apply accLoad_kept | with_reducible apply restartStaging_kept | with_reducible apply note_kept | with_reducible apply regSet_kept | with_reducible apply ptyResume_kept | with_reducible apply windowsZero_kept | with_reducible apply smartEvent_kept | with_reducible apply buildNext_kept | with_reducible apply readyPick_kept | with_reducible apply keptX_next | with_reducible exact keptX_fault | with_reducible apply keptX_ite | with_reducible apply kept_ite | simp only [kept_upd] | split | dsimp only)

end Sys2Proof.Machine
end

