-- ==== Sys2Proof/Laws/KeptPower.lean ====
section
/-!
SUPPORT. What the operations of Machine/Power.lean keep (`Kept`).
-/
namespace Sys2Proof.Machine

set_option linter.all false

variable {q : List Instr} {k : W64}

theorem pfTrigger_kept {x0 : Nat} {x1 : State} (h1 : Kept q k x1) : Kept q k (pfTrigger x0 x1) := by
  unfold pfTrigger
  repeat' (first | with_reducible assumption | (intro) | with_reducible apply kept_ite | simp only [kept_upd] | split | dsimp only)

theorem execPwrfailNAssert_kept {x0 : Nat} {x1 : State} (h1 : Kept q k x1) : KeptX q k (execPwrfailNAssert x0 x1) := by
  unfold execPwrfailNAssert
  repeat' (first | with_reducible assumption | (intro) | with_reducible apply bootMod_kept | with_reducible apply pfTrigger_kept | with_reducible apply draw_kept | (with_reducible refine draw_keptE (by assumption) ?_) | with_reducible apply keptX_next | with_reducible exact keptX_fault | with_reducible apply keptX_ite | with_reducible apply kept_ite | simp only [kept_upd] | split | dsimp only)

theorem execPwrfailNDeassert_kept {x0 : State} (h0 : Kept q k x0) : KeptX q k (execPwrfailNDeassert x0) := by
  unfold execPwrfailNDeassert
  repeat' (first | with_reducible assumption | (intro) | with_reducible apply bootMod_kept | with_reducible apply keptX_next | with_reducible exact keptX_fault | simp only [kept_upd] | split | dsimp only)

theorem execSupplyMonitorTrip_kept {x0 : Nat} {x1 : State} (h1 : Kept q k x1) :
    KeptX q k (execSupplyMonitorTrip x0 x1) ∨ KeptX q 0 (execSupplyMonitorTrip x0 x1) := by
  unfold execSupplyMonitorTrip
  split
  · exact .inl (keptX_next (pfTrigger_kept (bootMod_kept h1)))
  · split
    · exact .inr (keptX_next (aonFall_kept h1))
    · exact .inl keptX_fault

theorem execRailBackInRange_kept {x0 : Nat} {x1 : State} (h1 : Kept q k x1) : KeptX q k (execRailBackInRange x0 x1) := by
  unfold execRailBackInRange
  repeat' (first | with_reducible assumption | (intro) | with_reducible apply bootMod_kept | with_reducible apply keptX_next | with_reducible exact keptX_fault | with_reducible apply keptX_ite | with_reducible apply kept_ite | simp only [kept_upd] | split | dsimp only)

theorem pfDrill_kept {x0 : State} (h0 : Kept q k x0) : Kept q k (pfDrill x0) := by
  unfold pfDrill
  repeat' (first | with_reducible assumption | (intro) | with_reducible apply pfTrigger_kept | with_reducible apply regSetFld_kept | with_reducible apply kept_ite | split | dsimp only)

theorem execDrill_kept {x0 : W32} {x1 : State} (h1 : Kept q k x1) : KeptX q k (execDrill x0 x1) := by
  unfold execDrill
  repeat' (first | with_reducible assumption | (intro) | with_reducible apply pfDrill_kept | with_reducible apply keptX_next | with_reducible exact keptX_fault | with_reducible apply keptX_ite | with_reducible apply kept_ite | split | dsimp only)

theorem execLatchOpen_kept {x0 : State} (h0 : Kept q k x0) : KeptX q k (execLatchOpen x0) := by
  unfold execLatchOpen
  repeat' (first | with_reducible assumption | (intro) | with_reducible apply bootMod_kept | with_reducible apply pfTrigger_kept | with_reducible apply note_kept | with_reducible apply keptX_next | with_reducible exact keptX_fault | with_reducible apply keptX_ite | with_reducible apply kept_ite | simp only [kept_upd] | split | dsimp only)

theorem execLatchClose_kept {x0 : State} (h0 : Kept q k x0) : KeptX q k (execLatchClose x0) := by
  unfold execLatchClose
  repeat' (first | with_reducible assumption | (intro) | with_reducible apply keptX_next | with_reducible exact keptX_fault | simp only [kept_upd] | split | dsimp only)

theorem workStop_kept {x0 : State} (h0 : Kept q k x0) : Kept q k (workStop x0) := by
  unfold workStop
  extract_lets all s1 s2 s3 s4
  have k_s1 : Kept q k s1 := by
    dsimp only [s1]
    repeat' (first | with_reducible assumption | (intro) | with_reducible apply runKill_kept | with_reducible apply shuSquash_kept | with_reducible apply engSquash_kept | with_reducible apply squash_kept | with_reducible apply cplDrop_kept | with_reducible apply kept_foldl | with_reducible apply kept_foldl2 | split | dsimp only)
  clear_value s1
  have k_s2 : Kept q k s2 := by
    dsimp only [s2]
    repeat' (first | with_reducible assumption | (intro) | with_reducible apply runKill_kept | with_reducible apply shuSquash_kept | with_reducible apply engSquash_kept | with_reducible apply squash_kept | with_reducible apply cplDrop_kept | with_reducible apply kept_foldl | with_reducible apply kept_foldl2 | split | dsimp only)
  clear_value s2
  have k_s3 : Kept q k s3 := by
    dsimp only [s3]
    repeat' (first | with_reducible assumption | (intro) | with_reducible apply runKill_kept | with_reducible apply shuSquash_kept | with_reducible apply engSquash_kept | with_reducible apply squash_kept | with_reducible apply cplDrop_kept | with_reducible apply kept_foldl | with_reducible apply kept_foldl2 | split | dsimp only)
  clear_value s3
  have k_s4 : Kept q k s4 := by
    dsimp only [s4]
    repeat' (first | with_reducible assumption | (intro) | with_reducible apply runKill_kept | with_reducible apply shuSquash_kept | with_reducible apply engSquash_kept | with_reducible apply squash_kept | with_reducible apply cplDrop_kept | with_reducible apply kept_foldl | with_reducible apply kept_foldl2 | split | dsimp only)
  clear_value s4
  repeat' (first | with_reducible assumption | (intro) | with_reducible apply runKill_kept | with_reducible apply shuSquash_kept | with_reducible apply engSquash_kept | with_reducible apply squash_kept | with_reducible apply cplDrop_kept | with_reducible apply kept_foldl | with_reducible apply kept_foldl2 | split | dsimp only)

theorem mediaStop_kept {x0 : State} (h0 : Kept q k x0) : Kept q k (mediaStop x0) := by
  unfold mediaStop
  extract_lets slc off _ _ s1 s2
  have k_s1 : Kept q k s1 := by
    dsimp only [s1]
    repeat' (first | with_reducible assumption | (intro) | with_reducible apply unitDone_kept | with_reducible apply kept_foldl | with_reducible apply kept_foldl2 | simp only [kept_upd] | split | dsimp only)
  clear_value s1
  have k_s2 : Kept q k s2 := by
    dsimp only [s2]
    repeat' (first | with_reducible assumption | (intro) | with_reducible apply unitDone_kept | with_reducible apply kept_foldl | with_reducible apply kept_foldl2 | simp only [kept_upd] | split | dsimp only)
  clear_value s2
  repeat' (first | with_reducible assumption | (intro) | with_reducible apply unitDone_kept | with_reducible apply kept_foldl | with_reducible apply kept_foldl2 | simp only [kept_upd] | split | dsimp only)

theorem pfStop_kept {x0 : State} (h0 : Kept q k x0) : Kept q k (pfStop x0) := by
  unfold pfStop
  extract_lets s1 _ _ s2 s3
  have k_s1 : Kept q k s1 := by
    dsimp only [s1]
    repeat' (first | with_reducible assumption | (intro) | with_reducible apply mediaStop_kept | with_reducible apply workStop_kept | with_reducible apply dlogEndAll_kept | with_reducible apply jDrain_kept | with_reducible apply jFlush_kept | with_reducible apply kept_ite | split | dsimp only | with_reducible apply kept_digs | (with_reducible refine Tabs.digs (Kept.tabs (q := q) (k := k) ?_)) | with_reducible apply tabUp_tset | with_reducible apply tabUp_filter | with_reducible apply tabUp_map | with_reducible apply tabUp_tmod | with_reducible apply tabUp_foldl | with_reducible apply tabUp_tdel | with_reducible apply tabUp_tput | with_reducible apply tabUp_filterMap | with_reducible exact tabUp_nil | with_reducible apply tabWf_tset | with_reducible apply tabWf_filter | with_reducible apply tabWf_tdel | with_reducible apply tabWf_tsetBytes | with_reducible apply tabWf_foldl | with_reducible exact tabWf_nil | simp only [kept_upd])
  clear_value s1
  have k_s2 : Kept q k s2 := by
    dsimp only [s2]
    repeat' (first | with_reducible assumption | (intro) | with_reducible apply mediaStop_kept | with_reducible apply workStop_kept | with_reducible apply dlogEndAll_kept | with_reducible apply jDrain_kept | with_reducible apply jFlush_kept | with_reducible apply kept_ite | split | dsimp only | with_reducible apply kept_digs | (with_reducible refine Tabs.digs (Kept.tabs (q := q) (k := k) ?_)) | with_reducible apply tabUp_tset | with_reducible apply tabUp_filter | with_reducible apply tabUp_map | with_reducible apply tabUp_tmod | with_reducible apply tabUp_foldl | with_reducible apply tabUp_tdel | with_reducible apply tabUp_tput | with_reducible apply tabUp_filterMap | with_reducible exact tabUp_nil | with_reducible apply tabWf_tset | with_reducible apply tabWf_filter | with_reducible apply tabWf_tdel | with_reducible apply tabWf_tsetBytes | with_reducible apply tabWf_foldl | with_reducible exact tabWf_nil | simp only [kept_upd])
  clear_value s2
  have k_s3 : Kept q k s3 := by
    dsimp only [s3]
    repeat' (first | with_reducible assumption | (intro) | with_reducible apply mediaStop_kept | with_reducible apply workStop_kept | with_reducible apply dlogEndAll_kept | with_reducible apply jDrain_kept | with_reducible apply jFlush_kept | with_reducible apply kept_ite | split | dsimp only | with_reducible apply kept_digs | (with_reducible refine Tabs.digs (Kept.tabs (q := q) (k := k) ?_)) | with_reducible apply tabUp_tset | with_reducible apply tabUp_filter | with_reducible apply tabUp_map | with_reducible apply tabUp_tmod | with_reducible apply tabUp_foldl | with_reducible apply tabUp_tdel | with_reducible apply tabUp_tput | with_reducible apply tabUp_filterMap | with_reducible exact tabUp_nil | with_reducible apply tabWf_tset | with_reducible apply tabWf_filter | with_reducible apply tabWf_tdel | with_reducible apply tabWf_tsetBytes | with_reducible apply tabWf_foldl | with_reducible exact tabWf_nil | simp only [kept_upd])
  clear_value s3
  repeat' (first | with_reducible assumption | (intro) | with_reducible apply mediaStop_kept | with_reducible apply workStop_kept | with_reducible apply dlogEndAll_kept | with_reducible apply jDrain_kept | with_reducible apply jFlush_kept | with_reducible apply kept_ite | split | dsimp only | with_reducible apply kept_digs | (with_reducible refine Tabs.digs (Kept.tabs (q := q) (k := k) ?_)) | with_reducible apply tabUp_tset | with_reducible apply tabUp_filter | with_reducible apply tabUp_map | with_reducible apply tabUp_tmod | with_reducible apply tabUp_foldl | with_reducible apply tabUp_tdel | with_reducible apply tabUp_tput | with_reducible apply tabUp_filterMap | with_reducible exact tabUp_nil | with_reducible apply tabWf_tset | with_reducible apply tabWf_filter | with_reducible apply tabWf_tdel | with_reducible apply tabWf_tsetBytes | with_reducible apply tabWf_foldl | with_reducible exact tabWf_nil | simp only [kept_upd])

theorem pfAway_kept {x0 : State} (h0 : Kept q k x0) : Kept q k (pfAway x0) := by
  unfold pfAway
  repeat' (first | with_reducible assumption | (intro) | with_reducible apply cellSend_kept | (with_reducible refine cellSend_keptE (by assumption) ?_) | with_reducible apply kept_ite | simp only [kept_upd] | split | dsimp only)

theorem execPowerFailAct_kept {x0 : State} (h0 : Kept q k x0) : KeptX q k (execPowerFailAct x0) := by
  unfold execPowerFailAct
  repeat' (first | with_reducible assumption | (intro) | with_reducible apply pfStop_kept | with_reducible apply note_kept | with_reducible apply pfAway_kept | with_reducible apply regSet_kept | with_reducible apply keptX_next | with_reducible exact keptX_fault | with_reducible apply keptX_ite | with_reducible apply kept_ite | simp only [kept_upd] | split | dsimp only)

theorem logSave_kept {x0 : State} (h0 : Kept q k x0) : Kept q k (logSave x0) := by
  unfold logSave
  repeat' (first | with_reducible assumption | (intro) | with_reducible apply kept_ite | simp only [kept_upd] | split | dsimp only)

theorem sealWrite_kept {x0 : Nat} {x1 : Nat} {x2 : State} (h2 : Kept q k x2) : Kept q k (sealWrite x0 x1 x2) := by
  unfold sealWrite
  extract_lets s1 keep s2
  have k_s1 : Kept q k s1 := by
    dsimp only [s1]
    repeat' (first | with_reducible assumption | (intro) | with_reducible apply jDrain_kept | with_reducible apply jIssue_kept | with_reducible apply ptyRecord_kept | with_reducible apply logSave_kept | with_reducible apply ctlSeal_kept | with_reducible apply ctlFold_kept | with_reducible apply kept_ite | simp only [kept_upd] | split | dsimp only)
  clear_value s1
  have k_s2 : Kept q k s2 := by
    dsimp only [s2]
    repeat' (first | with_reducible assumption | (intro) | with_reducible apply jDrain_kept | with_reducible apply jIssue_kept | with_reducible apply ptyRecord_kept | with_reducible apply logSave_kept | with_reducible apply ctlSeal_kept | with_reducible apply ctlFold_kept | with_reducible apply kept_ite | simp only [kept_upd] | split | dsimp only)
  clear_value s2
  repeat' (first | with_reducible assumption | (intro) | with_reducible apply jDrain_kept | with_reducible apply jIssue_kept | with_reducible apply ptyRecord_kept | with_reducible apply logSave_kept | with_reducible apply ctlSeal_kept | with_reducible apply ctlFold_kept | with_reducible apply kept_ite | simp only [kept_upd] | split | dsimp only)

theorem execSeal_kept {x0 : Bool} {x1 : State} (h1 : Kept q k x1) : KeptX q k (execSeal x0 x1) := by
  unfold execSeal
  repeat' (first | with_reducible assumption | (intro) | with_reducible apply raise_kept | with_reducible apply dumpRun_kept | (with_reducible refine dumpRun_keptE (by assumption) ?_) | with_reducible apply regSetFld_kept | with_reducible apply sealWrite_kept | with_reducible apply note_kept | with_reducible apply keptX_next | with_reducible exact keptX_fault | with_reducible apply keptX_ite | with_reducible apply kept_ite | simp only [kept_upd] | split | dsimp only)

theorem execPowerRestoredReset_kept {x0 : State} (h0 : Kept q k x0) : KeptX q k (execPowerRestoredReset x0) := by
  unfold execPowerRestoredReset
  repeat' (first | with_reducible assumption | (intro) | with_reducible apply later_kept | with_reducible apply keptX_next | with_reducible exact keptX_fault | with_reducible apply keptX_ite | with_reducible apply kept_ite | simp only [kept_upd] | split | dsimp only)

theorem marginBits_kept {x0 : Int} {x1 : State} (h1 : Kept q k x1) : Kept q k ((marginBits x0 x1)).2 := by
  unfold marginBits
  repeat' (first | with_reducible assumption | (intro) | with_reducible apply draw_kept | (with_reducible refine draw_keptE (by assumption) ?_) | with_reducible apply keptP_ite | with_reducible apply kept_ite | with_reducible apply keptPP_ite | split | dsimp only)
theorem marginBits_keptE {x0 : Int} {x1 : State} {a : Nat} {t : State} (e : marginBits x0 x1 = (a, t)) (h1 : Kept q k x1) : Kept q k t := by
  have w := marginBits_kept (q := q) (k := k) (x0 := x0) (x1 := x1) h1
  rw [e] at w; exact w

theorem throttle_kept {x0 : Nat} {x1 : State} (h1 : Kept q k x1) : Kept q k (throttle x0 x1) := by
  unfold throttle
  repeat' (first | with_reducible assumption | (intro) | with_reducible apply note_kept | with_reducible apply kept_ite | simp only [kept_upd] | split | dsimp only)

theorem thermalActs_kept {x0 : Int} {x1 : Int} {x2 : Int} {x3 : State} (h3 : Kept q k x3) : Kept q k (thermalActs x0 x1 x2 x3) := by
  unfold thermalActs
  extract_lets hot cool forced _ s1 s2
  have k_s1 : Kept q k s1 := by
    dsimp only [s1]
    repeat' (first | with_reducible assumption | (intro) | with_reducible apply note_kept | with_reducible apply kept_ite | simp only [kept_upd] | split | dsimp only)
  clear_value s1
  have k_s2 : Kept q k s2 := by
    dsimp only [s2]
    repeat' (first | with_reducible assumption | (intro) | with_reducible apply note_kept | with_reducible apply kept_ite | simp only [kept_upd] | split | dsimp only)
  clear_value s2
  repeat' (first | with_reducible assumption | (intro) | with_reducible apply note_kept | with_reducible apply kept_ite | simp only [kept_upd] | split | dsimp only)

theorem execThermalUpdate_kept {x0 : List Int} {x1 : List Int} {x2 : State} (h2 : Kept q k x2) : KeptX q k (execThermalUpdate x0 x1 x2) := by
  unfold execThermalUpdate
  repeat' (first | with_reducible assumption | (intro) | with_reducible apply regSet_kept | with_reducible apply marginBits_kept | (with_reducible refine marginBits_keptE (by assumption) ?_) | with_reducible apply thermalActs_kept | with_reducible apply throttle_kept | with_reducible apply postAev_kept | with_reducible apply kept_foldl | with_reducible apply kept_foldl2 | with_reducible apply kept_getD | with_reducible apply keptP_getD | with_reducible apply keptX_next | with_reducible exact keptX_fault | with_reducible apply keptX_ite | with_reducible apply kept_ite | simp only [kept_upd] | split | dsimp only)

theorem enterLow_kept {x0 : Nat} {x1 : State} (h1 : Kept q k x1) : Kept q k (enterLow x0 x1) := by
  unfold enterLow
  repeat' (first | with_reducible assumption | (intro) | with_reducible apply regAdd_kept | with_reducible apply bootMod_kept | with_reducible apply jDrain_kept | with_reducible apply jFlush_kept | with_reducible apply paritiesNow_kept | with_reducible apply kept_ite | simp only [kept_upd] | split | dsimp only)

theorem execApstTransition_kept {x0 : State} (h0 : Kept q k x0) : KeptX q k (execApstTransition x0) := by
  unfold execApstTransition
  repeat' (first | with_reducible assumption | (intro) | with_reducible apply enterLow_kept | with_reducible apply keptX_next | with_reducible exact keptX_fault | with_reducible apply keptX_ite | with_reducible apply kept_ite | simp only [kept_upd] | split | dsimp only)

end Sys2Proof.Machine
end

