-- ==== Sys2Proof/Laws/KeptService.lean ====
section
/-!
SUPPORT. What the operations of Machine/Service.lean keep (`Kept`).
-/
namespace Sys2Proof.Machine

set_option linter.all false

variable {q : List Instr} {k : W64}

theorem svcMod_kept {x0 : Svc → Svc} {x1 : State} (h1 : Kept q k x1) : Kept q k (svcMod x0 x1) := by
  unfold svcMod
  repeat' (first | with_reducible assumption | (intro) | simp only [kept_upd] | split | dsimp only)

theorem execServiceButtonPress_kept {x0 : State} (h0 : Kept q k x0) : KeptX q k (execServiceButtonPress x0) := by
  unfold execServiceButtonPress
  repeat' (first | with_reducible assumption | (intro) | with_reducible apply svcMod_kept | with_reducible apply keptX_next | with_reducible exact keptX_fault | with_reducible apply keptX_ite | with_reducible apply kept_ite | simp only [kept_upd] | split | dsimp only)

theorem execServiceButtonRelease_kept {x0 : Nat} {x1 : State} (h1 : Kept q k x1) : KeptX q k (execServiceButtonRelease x0 x1) := by
  unfold execServiceButtonRelease
  repeat' (first | with_reducible assumption | (intro) | with_reducible apply svcMod_kept | with_reducible apply regSet_kept | with_reducible apply note_kept | with_reducible apply later_kept | with_reducible apply keptX_next | with_reducible exact keptX_fault | with_reducible apply keptX_ite | with_reducible apply kept_ite | simp only [kept_upd] | split | dsimp only)

theorem removalCancel_kept {x0 : State} (h0 : Kept q k x0) : Kept q k (removalCancel x0) := by
  unfold removalCancel
  extract_lets _ _ _ _ s1 s2
  have k_s1 : Kept q k s1 := by
    dsimp only [s1]
    repeat' (first | with_reducible assumption | (intro) | with_reducible apply regSetFld_kept | with_reducible apply ptySteward_kept | with_reducible apply note_kept | with_reducible apply kept_ite | simp only [kept_upd] | split | dsimp only)
  clear_value s1
  have k_s2 : Kept q k s2 := by
    dsimp only [s2]
    repeat' (first | with_reducible assumption | (intro) | with_reducible apply regSetFld_kept | with_reducible apply ptySteward_kept | with_reducible apply note_kept | with_reducible apply kept_ite | simp only [kept_upd] | split | dsimp only)
  clear_value s2
  repeat' (first | with_reducible assumption | (intro) | with_reducible apply regSetFld_kept | with_reducible apply ptySteward_kept | with_reducible apply note_kept | with_reducible apply kept_ite | simp only [kept_upd] | split | dsimp only)

theorem execServiceButtonCancel_kept {x0 : State} (h0 : Kept q k x0) : KeptX q k (execServiceButtonCancel x0) := by
  unfold execServiceButtonCancel
  repeat' (first | with_reducible assumption | (intro) | with_reducible apply note_kept | with_reducible apply removalCancel_kept | with_reducible apply keptX_next | with_reducible exact keptX_fault | with_reducible apply keptX_ite | with_reducible apply kept_ite | split | dsimp only)

theorem execRemovalRequest_kept {x0 : State} (h0 : Kept q k x0) : KeptX q k (execRemovalRequest x0) := by
  unfold execRemovalRequest
  repeat' (first | with_reducible assumption | (intro) | with_reducible apply note_kept | with_reducible apply regSetFld_kept | with_reducible apply vendorEvent_kept | with_reducible apply ptySteward_kept | with_reducible apply kept_foldl | with_reducible apply kept_foldl2 | with_reducible apply keptX_next | with_reducible exact keptX_fault | with_reducible apply keptX_ite | with_reducible apply kept_ite | simp only [kept_upd] | split | dsimp only)

theorem execRemovalDrainLimit_kept {x0 : State} (h0 : Kept q k x0) : KeptX q k (execRemovalDrainLimit x0) := by
  unfold execRemovalDrainLimit
  repeat' (first | with_reducible assumption | (intro) | with_reducible apply runKill_kept | with_reducible apply squash_kept | with_reducible apply cplDrop_kept | with_reducible apply fnMod_kept | with_reducible apply note_kept | with_reducible apply kept_foldl | with_reducible apply kept_foldl2 | with_reducible apply keptX_next | with_reducible exact keptX_fault | with_reducible apply keptX_ite | with_reducible apply kept_ite | split | dsimp only | with_reducible apply kept_runs | (with_reducible refine Tabs.runs (Kept.tabs (q := q) (k := k) ?_)) | with_reducible apply tabUp_tset | with_reducible apply tabUp_filter | with_reducible apply tabUp_map | with_reducible apply tabUp_tmod | with_reducible apply tabUp_foldl | with_reducible apply tabUp_tdel | with_reducible apply tabUp_tput | with_reducible apply tabUp_filterMap | with_reducible exact tabUp_nil | with_reducible apply tabWf_tset | with_reducible apply tabWf_filter | with_reducible apply tabWf_tdel | with_reducible apply tabWf_tsetBytes | with_reducible apply tabWf_foldl | with_reducible exact tabWf_nil | simp only [kept_upd])

theorem removalDone_kept {x0 : State} (h0 : Kept q k x0) : Kept q k (removalDone x0) := by
  unfold removalDone
  repeat' (first | with_reducible assumption | (intro) | with_reducible apply note_kept | with_reducible apply regAdd32_kept | with_reducible apply svcMod_kept | simp only [kept_upd] | split | dsimp only)

theorem shutdownSeal_kept {x0 : State} (h0 : Kept q k x0) : Kept q k (shutdownSeal x0) := by
  unfold shutdownSeal
  repeat' (first | with_reducible assumption | (intro) | with_reducible apply sealWrite_kept | with_reducible apply jDrain_kept | with_reducible apply jFlush_kept | with_reducible apply kept_ite | split | dsimp only)

theorem execRemovalSeal_kept {x0 : State} (h0 : Kept q k x0) : KeptX q k (execRemovalSeal x0) := by
  unfold execRemovalSeal
  repeat' (first | with_reducible assumption | (intro) | with_reducible apply svcMod_kept | with_reducible apply mediaTurn_kept | with_reducible apply placeAll_kept | with_reducible apply checkpoint_kept | with_reducible apply sealWrite_kept | with_reducible apply jDrain_kept | with_reducible apply jFlush_kept | with_reducible apply removalDone_kept | with_reducible apply kept_foldl | with_reducible apply kept_foldl2 | with_reducible apply keptX_next | with_reducible exact keptX_fault | with_reducible apply keptX_ite | with_reducible apply kept_ite | simp only [kept_upd] | split | dsimp only)

theorem execRemovalAwayTimeout_kept {x0 : State} (h0 : Kept q k x0) : KeptX q k (execRemovalAwayTimeout x0) := by
  unfold execRemovalAwayTimeout
  repeat' (first | with_reducible assumption | (intro) | with_reducible apply removalDone_kept | with_reducible apply note_kept | with_reducible apply keptX_next | with_reducible exact keptX_fault | with_reducible apply keptX_ite | with_reducible apply kept_ite | simp only [kept_upd] | split | dsimp only)

theorem execPrsntNRise_kept {x0 : State} (h0 : Kept q k x0) : KeptX q k (execPrsntNRise x0) := by
  unfold execPrsntNRise
  repeat' (first | with_reducible assumption | (intro) | with_reducible apply note_kept | with_reducible apply svcMod_kept | with_reducible apply keptX_next | with_reducible exact keptX_fault | with_reducible apply keptX_ite | with_reducible apply kept_ite | simp only [kept_upd] | split | dsimp only)

end Sys2Proof.Machine
end

