-- ==== Sys2Proof/Laws/KeptContain.lean ====
section
/-!
SUPPORT. What the operations of Machine/Contain.lean keep (`Kept`).
-/
namespace Sys2Proof.Machine

set_option linter.all false

variable {q : List Instr} {k : W64}

theorem chanReset_kept {x0 : State} {x1 : Nat} (h0 : Kept q k x0) : Kept q k (chanReset x0 x1) := by
  unfold chanReset
  repeat' (first | with_reducible assumption | (intro) | with_reducible apply dieMod_kept | with_reducible apply abandonSb_kept | with_reducible apply mediaTurn_kept | with_reducible apply readFailed_kept | with_reducible apply kept_foldl | with_reducible apply kept_foldl2 | simp only [kept_upd] | split | dsimp only)

theorem mendersEnd_kept {x0 : State} (h0 : Kept q k x0) : Kept q k (mendersEnd x0) := by
  unfold mendersEnd
  repeat' (first | with_reducible assumption | (intro) | with_reducible apply discSweep_kept | with_reducible apply slotSweep_kept | with_reducible apply finish_kept | with_reducible apply slotDrop_kept | with_reducible apply kept_foldl | with_reducible apply kept_foldl2 | split | dsimp only)

theorem blockSquash_kept {x0 : Nat} {x1 : State} (h1 : Kept q k x1) : Kept q k (blockSquash x0 x1) := by
  unfold blockSquash
  repeat' (first | with_reducible assumption | (intro) | with_reducible apply chanReset_kept | with_reducible apply shuSquash_kept | with_reducible apply mendersEnd_kept | with_reducible apply engSquash_kept | with_reducible apply clusterFenced_kept | with_reducible apply coreFenced_kept | with_reducible apply kept_foldl | with_reducible apply kept_foldl2 | simp only [kept_upd] | split | dsimp only)

theorem quadLost_kept {x0 : Nat} {x1 : State} (h1 : Kept q k x1) : Kept q k (quadLost x0 x1) := by
  unfold quadLost
  repeat' (first | with_reducible assumption | (intro) | with_reducible apply dieAbandon_kept | with_reducible apply mediaTurn_kept | with_reducible apply warnLost_kept | with_reducible apply loseUnit_kept | with_reducible apply kept_foldl | with_reducible apply kept_foldl2 | split | dsimp only)

theorem slotLost_kept {x0 : State} {x1 : Nat × Slot} (h0 : Kept q k x0) : Kept q k (slotLost x0 x1) := by
  unfold slotLost
  repeat' (first | with_reducible assumption | (intro) | with_reducible apply slotRelease_kept | with_reducible apply poisonUnit_kept | with_reducible apply note_kept | with_reducible apply placedClear_kept | with_reducible apply shardLost_kept | with_reducible apply warnLost_kept | with_reducible apply logLost_kept | with_reducible apply kept_ite | split | dsimp only)

theorem stagingLost_kept {x0 : State} (h0 : Kept q k x0) : Kept q k (stagingLost x0) := by
  unfold stagingLost
  repeat' (first | with_reducible assumption | (intro) | with_reducible apply slotLost_kept | with_reducible apply kept_foldl | with_reducible apply kept_foldl2 | split | dsimp only)

theorem fenceEffect_kept {x0 : Nat} {x1 : State} (h1 : Kept q k x1) : Kept q k (fenceEffect x0 x1) := by
  unfold fenceEffect
  repeat' (first | with_reducible assumption | (intro) | with_reducible apply blockSquash_kept | with_reducible apply dieFail_kept | with_reducible apply quadLost_kept | with_reducible apply stagingLost_kept | with_reducible apply kept_foldl | with_reducible apply kept_foldl2 | with_reducible apply kept_ite | simp only [kept_upd] | split | dsimp only)

theorem taskLost_kept {x0 : Nat} {x1 : State} (h1 : Kept q k x1) : Kept q k (taskLost x0 x1) := by
  unfold taskLost
  repeat' (first | with_reducible assumption | (intro) | with_reducible apply taskMod_kept | with_reducible apply evict_kept | with_reducible apply trapKill_kept | with_reducible apply kept_ite | simp only [kept_upd] | split | dsimp only)

theorem selfCheckAct_kept {x0 : Nat} {x1 : Nat} {x2 : State} (h2 : Kept q k x2) : Kept q k (selfCheckAct x0 x1 x2) := by
  unfold selfCheckAct
  repeat' (first | with_reducible assumption | (intro) | with_reducible apply keyBad_kept | with_reducible apply codeKeep_kept | with_reducible apply taskLost_kept | with_reducible apply toAll_kept | with_reducible apply fnMod_kept | with_reducible apply kept_ite | split | dsimp only | with_reducible apply kept_digs | (with_reducible refine Tabs.digs (Kept.tabs (q := q) (k := k) ?_)) | with_reducible apply tabUp_tset | with_reducible apply tabUp_filter | with_reducible apply tabUp_map | with_reducible apply tabUp_tmod | with_reducible apply tabUp_foldl | with_reducible apply tabUp_tdel | with_reducible apply tabUp_tput | with_reducible apply tabUp_filterMap | with_reducible exact tabUp_nil | with_reducible apply tabWf_tset | with_reducible apply tabWf_filter | with_reducible apply tabWf_tdel | with_reducible apply tabWf_tsetBytes | with_reducible apply tabWf_foldl | with_reducible exact tabWf_nil | simp only [kept_upd])

theorem execBlockFatalEvent_kept {x0 : Nat} {x1 : Nat} {x2 : Nat} {x3 : State} (h3 : Kept q k x3) : KeptX q k (execBlockFatalEvent x0 x1 x2 x3) := by
  unfold execBlockFatalEvent
  repeat' (first | with_reducible assumption | (intro) | with_reducible apply raise_kept | with_reducible apply selfCheckAct_kept | with_reducible apply note_kept | with_reducible apply keptX_next | with_reducible exact keptX_fault | with_reducible apply keptX_ite | with_reducible apply kept_ite | simp only [kept_upd] | split | dsimp only)

theorem execDeviceFatalEvent_kept {x0 : Nat} {x1 : State} (h1 : Kept q k x1) : KeptX q k (execDeviceFatalEvent x0 x1) := by
  unfold execDeviceFatalEvent
  repeat' (first | with_reducible assumption | (intro) | with_reducible apply raise_kept | with_reducible apply keptX_next | with_reducible exact keptX_fault | with_reducible apply keptX_ite | with_reducible apply kept_ite | simp only [kept_upd] | split | dsimp only)

theorem execPickDistributionFailure_kept {x0 : State} (h0 : Kept q k x0) : KeptX q k (execPickDistributionFailure x0) := by
  unfold execPickDistributionFailure
  repeat' (first | with_reducible assumption | (intro) | with_reducible apply raise_kept | with_reducible apply keptX_next | with_reducible exact keptX_fault | with_reducible apply keptX_ite | with_reducible apply kept_ite | split | dsimp only)

theorem execCorePllLockLost_kept {x0 : State} (h0 : Kept q k x0) : KeptX q k (execCorePllLockLost x0) := by
  unfold execCorePllLockLost
  repeat' (first | with_reducible assumption | (intro) | with_reducible apply raise_kept | with_reducible apply bootMod_kept | with_reducible apply keptX_next | with_reducible exact keptX_fault | with_reducible apply keptX_ite | with_reducible apply kept_ite | simp only [kept_upd] | split | dsimp only)

theorem branchDown_kept {x0 : Nat} {x1 : State} (h1 : Kept q k x1) : Kept q k (branchDown x0 x1) := by
  unfold branchDown
  repeat' (first | with_reducible assumption | (intro) | with_reducible apply fencePage_kept | with_reducible apply note_kept | with_reducible apply regSetFld_kept | with_reducible apply kept_foldl | with_reducible apply kept_foldl2 | with_reducible apply kept_ite | split | dsimp only)

theorem execBranchNotAnswering_kept {x0 : Nat} {x1 : State} (h1 : Kept q k x1) : KeptX q k (execBranchNotAnswering x0 x1) := by
  unfold execBranchNotAnswering
  repeat' (first | with_reducible assumption | (intro) | with_reducible apply branchDown_kept | with_reducible apply keptX_next | with_reducible exact keptX_fault | with_reducible apply keptX_ite | with_reducible apply kept_ite | split | dsimp only)

theorem execCrossingWatchdogExpiry_kept {x0 : Nat} {x1 : Bool} {x2 : State} (h2 : Kept q k x2) : KeptX q k (execCrossingWatchdogExpiry x0 x1 x2) := by
  unfold execCrossingWatchdogExpiry
  repeat' (first | with_reducible assumption | (intro) | with_reducible apply note_kept | with_reducible apply regSet_kept | with_reducible apply regAdd_kept | with_reducible apply goFatal_kept | with_reducible apply regAdd32_kept | with_reducible apply branchDown_kept | with_reducible apply fencePage_kept | with_reducible apply kept_foldl | with_reducible apply kept_foldl2 | with_reducible apply keptX_next | with_reducible exact keptX_fault | with_reducible apply keptX_ite | with_reducible apply kept_ite | split | dsimp only)

theorem selvReq_kept {x0 : Nat} {x1 : State} (h1 : Kept q k x1) : Kept q k (selvReq x0 x1) := by
  unfold selvReq
  repeat' (first | with_reducible assumption | (intro) | with_reducible apply fencePage_kept | with_reducible apply note_kept | with_reducible apply kept_ite | simp only [kept_upd] | split | dsimp only)

theorem execSelvReq_kept {x0 : Nat} {x1 : State} (h1 : Kept q k x1) : KeptX q k (execSelvReq x0 x1) := by
  unfold execSelvReq
  repeat' (first | with_reducible assumption | (intro) | with_reducible apply selvReq_kept | with_reducible apply keptX_next | with_reducible exact keptX_fault | split | dsimp only)

theorem softStart_kept {x0 : Nat} {x1 : State} (h1 : Kept q k x1) : Kept q k (softStart x0 x1) := by
  unfold softStart
  repeat' (first | with_reducible assumption | (intro) | with_reducible apply note_kept | with_reducible apply blockSquash_kept | with_reducible apply later_kept | with_reducible apply fnMod_kept | with_reducible apply cxlMod_kept | with_reducible apply linkLost_kept | with_reducible apply ctlReset_kept | with_reducible apply kept_foldl | with_reducible apply kept_foldl2 | with_reducible apply kept_ite | simp only [kept_upd] | split | dsimp only)

theorem execSoftRst_kept {x0 : Nat} {x1 : State} (h1 : Kept q k x1) : KeptX q k (execSoftRst x0 x1) := by
  unfold execSoftRst
  repeat' (first | with_reducible assumption | (intro) | with_reducible apply softStart_kept | with_reducible apply keptX_next | with_reducible exact keptX_fault | split | dsimp only)

theorem mndReload_kept {x0 : State} (h0 : Kept q k x0) : Kept q k (mndReload x0) := by
  unfold mndReload
  repeat' (first | with_reducible assumption | (intro) | with_reducible apply mndMod_kept | simp only [kept_upd] | split | dsimp only)

theorem ptyReload_kept {x0 : State} (h0 : Kept q k x0) : Kept q k (ptyReload x0) := by
  unfold ptyReload
  repeat' (first | with_reducible assumption | (intro) | simp only [kept_upd] | split | dsimp only)

theorem softState_kept {x0 : Nat} {x1 : State} (h1 : Kept q k x1) : Kept q k (softState x0 x1) := by
  unfold softState
  repeat' (first | with_reducible assumption | (intro) | with_reducible apply ptyReload_kept | with_reducible apply mndReload_kept | with_reducible apply engMod_kept | with_reducible apply snapAll_kept | with_reducible apply kept_ite | split | dsimp only | with_reducible apply kept_lines | (with_reducible refine Tabs.lines (Kept.tabs (q := q) (k := k) ?_)) | with_reducible apply tabUp_tset | with_reducible apply tabUp_filter | with_reducible apply tabUp_map | with_reducible apply tabUp_tmod | with_reducible apply tabUp_foldl | with_reducible apply tabUp_tdel | with_reducible apply tabUp_tput | with_reducible apply tabUp_filterMap | with_reducible exact tabUp_nil | with_reducible apply tabWf_tset | with_reducible apply tabWf_filter | with_reducible apply tabWf_tdel | with_reducible apply tabWf_tsetBytes | with_reducible apply tabWf_foldl | with_reducible exact tabWf_nil | with_reducible apply kept_hgrp | (with_reducible refine Tabs.hgrp (Kept.tabs (q := q) (k := k) ?_)) | with_reducible apply kept_icache | (with_reducible refine Tabs.icache (Kept.tabs (q := q) (k := k) ?_)) | simp only [kept_upd])

theorem softRegs_kept {x0 : Nat} {x1 : State} (h1 : Kept q k x1) : Kept q k (softRegs x0 x1) := by
  exact regSet_kept ⟨h1.pending, h1.pick, { h1.tabs with regs := regsWf_filter h1.tabs.regs, snaps := tabWf_filter h1.tabs.snaps }⟩

theorem softLift_kept {x0 : Bool} {x1 : State} {x2 : Nat} (h1 : Kept q k x1) : Kept q k (softLift x0 x1 x2) := by
  unfold softLift
  repeat' (first | with_reducible assumption | (intro) | with_reducible apply regSet_kept | with_reducible apply regSat_kept | with_reducible apply fencePage_kept | with_reducible apply kept_ite | split | dsimp only)

theorem execSoftResetEnd_kept {x0 : Nat} {x1 : Bool} {x2 : State} (h2 : Kept q k x2) : KeptX q k (execSoftResetEnd x0 x1 x2) := by
  unfold execSoftResetEnd
  repeat' (first | with_reducible assumption | (intro) | with_reducible apply memResume_kept | with_reducible apply softLift_kept | with_reducible apply softState_kept | with_reducible apply softRegs_kept | with_reducible apply kept_foldl | with_reducible apply kept_foldl2 | with_reducible apply keptX_next | with_reducible exact keptX_fault | with_reducible apply keptX_ite | with_reducible apply kept_ite | simp only [kept_upd] | split | dsimp only)

theorem capture_kept {x0 : Nat} {x1 : State} (h1 : Kept q k x1) : Kept q k (capture x0 x1) := by
  unfold capture
  repeat' (first | with_reducible assumption | (intro) | with_reducible apply regSet_kept | with_reducible apply kept_foldl | with_reducible apply kept_foldl2 | split | dsimp only | with_reducible apply kept_snaps | (with_reducible refine Tabs.snaps (Kept.tabs (q := q) (k := k) ?_)) | with_reducible apply tabWf_tset | with_reducible apply tabWf_filter | with_reducible apply tabWf_tdel | with_reducible apply tabWf_tsetBytes | with_reducible apply tabWf_foldl | with_reducible exact tabWf_nil | simp only [kept_upd])

theorem snapPage_kept {x0 : Nat} {x1 : State} (h1 : Kept q k x1) : Kept q k (snapPage x0 x1) := by
  unfold snapPage
  repeat' (first | with_reducible assumption | (intro) | with_reducible apply capture_kept | with_reducible apply note_kept | simp only [kept_upd] | split | dsimp only)

theorem execSnap_kept {x0 : Nat} {x1 : State} (h1 : Kept q k x1) : KeptX q k (execSnap x0 x1) := by
  unfold execSnap
  repeat' (first | with_reducible assumption | (intro) | with_reducible apply snapPage_kept | with_reducible apply keptX_next | with_reducible exact keptX_fault | split | dsimp only)

theorem captureAll_kept {x0 : State} (h0 : Kept q k x0) : Kept q k (captureAll x0) := by
  unfold captureAll
  repeat' (first | with_reducible assumption | (intro) | with_reducible apply regAdd32_kept | with_reducible apply capture_kept | with_reducible apply kept_foldl | with_reducible apply kept_foldl2 | simp only [kept_upd] | split | dsimp only)

theorem snapAll_kept {x0 : State} (h0 : Kept q k x0) : Kept q k (snapAll x0) := by
  unfold snapAll
  repeat' (first | with_reducible assumption | (intro) | with_reducible apply later_kept | with_reducible apply kept_ite | split | dsimp only)

theorem execGlbSnapAll_kept {x0 : State} (h0 : Kept q k x0) : KeptX q k (execGlbSnapAll x0) := by
  unfold execGlbSnapAll
  repeat' (first | with_reducible assumption | (intro) | with_reducible apply snapAll_kept | with_reducible apply keptX_next | with_reducible exact keptX_fault | split | dsimp only)

theorem errClear_kept {x0 : Nat} {x1 : Nat} {x2 : State} (h2 : Kept q k x2) : Kept q k (errClear x0 x1 x2) := by
  unfold errClear
  repeat' (first | with_reducible assumption | (intro) | with_reducible apply regSet_kept | with_reducible apply kept_ite | split | dsimp only)

theorem execErrStatClear_kept {x0 : Nat} {x1 : W32} {x2 : State} (h2 : Kept q k x2) : KeptX q k (execErrStatClear x0 x1 x2) := by
  unfold execErrStatClear
  repeat' (first | with_reducible assumption | (intro) | with_reducible apply errClear_kept | with_reducible apply note_kept | with_reducible apply keptX_next | with_reducible exact keptX_fault | simp only [kept_upd] | split | dsimp only)

theorem irqClear_kept {x0 : Nat} {x1 : Nat} {x2 : State} (h2 : Kept q k x2) : Kept q k (irqClear x0 x1 x2) := by
  unfold irqClear
  repeat' (first | with_reducible assumption | (intro) | with_reducible apply regSet_kept | with_reducible apply irqMessage_kept | with_reducible apply kept_ite | split | dsimp only)

theorem execIrqStatClear_kept {x0 : Nat} {x1 : W32} {x2 : State} (h2 : Kept q k x2) : KeptX q k (execIrqStatClear x0 x1 x2) := by
  unfold execIrqStatClear
  repeat' (first | with_reducible assumption | (intro) | with_reducible apply irqClear_kept | with_reducible apply note_kept | with_reducible apply keptX_next | with_reducible exact keptX_fault | simp only [kept_upd] | split | dsimp only)

theorem skewClear_kept {x0 : Nat} {x1 : State} (h1 : Kept q k x1) : Kept q k (skewClear x0 x1) := by
  unfold skewClear
  repeat' (first | with_reducible assumption | (intro) | with_reducible apply regSet_kept | with_reducible apply kept_ite | split | dsimp only)

theorem execWeftSkewClr_kept {x0 : W32} {x1 : State} (h1 : Kept q k x1) : KeptX q k (execWeftSkewClr x0 x1) := by
  unfold execWeftSkewClr
  repeat' (first | with_reducible assumption | (intro) | with_reducible apply skewClear_kept | with_reducible apply keptX_next | with_reducible exact keptX_fault | split | dsimp only)

theorem weightWrite_kept {x0 : Nat} {x1 : Nat} {x2 : State} (h2 : Kept q k x2) : Kept q k (weightWrite x0 x1 x2) := by
  unfold weightWrite
  repeat' (first | with_reducible assumption | (intro) | with_reducible apply regSet_kept | split | dsimp only)

theorem execWarpArbWeightWrite_kept {x0 : Nat} {x1 : W32} {x2 : State} (h2 : Kept q k x2) : KeptX q k (execWarpArbWeightWrite x0 x1 x2) := by
  unfold execWarpArbWeightWrite
  repeat' (first | with_reducible assumption | (intro) | with_reducible apply weightWrite_kept | with_reducible apply keptX_next | with_reducible exact keptX_fault | with_reducible apply keptX_ite | with_reducible apply kept_ite | split | dsimp only)

theorem logIndex_kept {x0 : Nat} {x1 : State} (h1 : Kept q k x1) : Kept q k (logIndex x0 x1) := by
  unfold logIndex
  repeat' (first | with_reducible assumption | (intro) | simp only [kept_upd] | split | dsimp only)

theorem execGlbLogIndex_kept {x0 : W32} {x1 : State} (h1 : Kept q k x1) : KeptX q k (execGlbLogIndex x0 x1) := by
  unfold execGlbLogIndex
  repeat' (first | with_reducible assumption | (intro) | with_reducible apply logIndex_kept | with_reducible apply keptX_next | with_reducible exact keptX_fault | split | dsimp only)

end Sys2Proof.Machine
end

