-- ==== Sys2Proof/Laws/KeptEngineRun.lean ====
section
/-!
SUPPORT. What the operations of Machine/EngineRun.lean keep (`Kept`).
-/
namespace Sys2Proof.Machine

set_option linter.all false

variable {q : List Instr} {k : W64}

theorem jobBegin_kept {x0 : Nat} {x1 : EngJob} {x2 : State} (h2 : Kept q k x2) : Kept q k (jobBegin x0 x1 x2) := by
  unfold jobBegin
  repeat' (first | with_reducible assumption | (intro) | with_reducible apply engJobSet_kept | with_reducible apply charge_kept | with_reducible apply ddTake_kept | (with_reducible refine ddTake_keptE (by assumption) ?_) | with_reducible apply kdStart_kept | with_reducible apply kept_ite | simp only [kept_upd] | split | dsimp only)

theorem jobWork_kept {x0 : Nat} {x1 : EngJob} {x2 : State} (h2 : Kept q k x2) : Kept q k ((jobWork x0 x1 x2)).2 := by
  unfold jobWork
  repeat' (first | with_reducible assumption | (intro) | with_reducible apply kdWork_kept | (with_reducible refine kdWork_keptE (by assumption) ?_) | with_reducible apply sjWork_kept | (with_reducible refine sjWork_keptE (by assumption) ?_) | with_reducible apply keptP_ite | with_reducible apply kept_ite | with_reducible apply keptPP_ite | simp only [kept_upd] | split | dsimp only)
theorem jobWork_keptE {x0 : Nat} {x1 : EngJob} {x2 : State} {a : EngJob} {t : State} (e : jobWork x0 x1 x2 = (a, t)) (h2 : Kept q k x2) : Kept q k t := by
  have w := jobWork_kept (q := q) (k := k) (x0 := x0) (x1 := x1) (x2 := x2) h2
  rw [e] at w; exact w

theorem jobFinish_kept {x0 : Nat} {x1 : EngJob} {x2 : State} (h2 : Kept q k x2) : Kept q k (jobFinish x0 x1 x2) := by
  unfold jobFinish
  repeat' (first | with_reducible assumption | (intro) | with_reducible apply twFinish_kept | with_reducible apply digFinish_kept | with_reducible apply kckFinish_kept | with_reducible apply mdFinish_kept | with_reducible apply sjFinish_kept | with_reducible apply kept_ite | split | dsimp only)

theorem jobStep_kept {x0 : Nat} {x1 : EngJob} {x2 : State} (h2 : Kept q k x2) : Kept q k ((jobStep x0 x1 x2)).2 := by
  unfold jobStep
  repeat' (first | with_reducible assumption | (intro) | with_reducible apply giveMade_kept | (with_reducible refine giveMade_keptE (by assumption) ?_) | (with_reducible refine giveMade_keptE2 (by assumption) ?_) | (with_reducible refine giveMade_keptE3 (by assumption) ?_) | with_reducible apply engStop_kept | with_reducible apply engJobSet_kept | with_reducible apply jobFinish_kept | with_reducible apply engInput_kept | (with_reducible refine engInput_keptE (by assumption) ?_) | (with_reducible refine engInput_keptE2 (by assumption) ?_) | (with_reducible refine engInput_keptE3 (by assumption) ?_) | with_reducible apply jobWork_kept | (with_reducible refine jobWork_keptE (by assumption) ?_) | with_reducible apply keptP_ite | with_reducible apply kept_ite | with_reducible apply keptPP_ite | simp only [kept_upd] | split | dsimp only)
theorem jobStep_keptE {x0 : Nat} {x1 : EngJob} {x2 : State} {a : Bool} {t : State} (e : jobStep x0 x1 x2 = (a, t)) (h2 : Kept q k x2) : Kept q k t := by
  have w := jobStep_kept (q := q) (k := k) (x0 := x0) (x1 := x1) (x2 := x2) h2
  rw [e] at w; exact w

theorem jobSlice_kept {x0 : Nat} {x1 : Nat} {x2 : Nat} {x3 : Nat} {x4 : Nat} {x5 : State} (h5 : Kept q k x5) : Kept q k ((jobSlice x0 x1 x2 x3 x4 x5)).2 := by
  induction x2 generalizing x3 x4 x5 with
  | zero =>
    unfold jobSlice
    repeat' (first | with_reducible assumption | (intro) | with_reducible apply jobBegin_kept | with_reducible apply engJobSet_kept | with_reducible apply jobStep_kept | (with_reducible refine jobStep_keptE (by assumption) ?_) | with_reducible apply engOutput_kept | with_reducible apply keptP_ite | with_reducible apply kept_ite | with_reducible apply keptPP_ite | simp only [kept_upd] | split | dsimp only)
  | succ n ih =>
    unfold jobSlice
    repeat' (first | with_reducible assumption | (intro) | with_reducible apply jobBegin_kept | with_reducible apply engJobSet_kept | with_reducible apply jobStep_kept | (with_reducible refine jobStep_keptE (by assumption) ?_) | with_reducible apply engOutput_kept | with_reducible apply ih | with_reducible apply keptP_ite | with_reducible apply kept_ite | with_reducible apply keptPP_ite | simp only [kept_upd] | split | dsimp only)
theorem jobSlice_keptE {x0 : Nat} {x1 : Nat} {x2 : Nat} {x3 : Nat} {x4 : Nat} {x5 : State} {a : Option Nat} {t : State} (e : jobSlice x0 x1 x2 x3 x4 x5 = (a, t)) (h5 : Kept q k x5) : Kept q k t := by
  have w := jobSlice_kept (q := q) (k := k) (x0 := x0) (x1 := x1) (x2 := x2) (x3 := x3) (x4 := x4) (x5 := x5) h5
  rw [e] at w; exact w

theorem engSlices_kept {x0 : Nat} {x1 : Nat} {x2 : Nat} {x3 : State} (h3 : Kept q k x3) : Kept q k (engSlices x0 x1 x2 x3) := by
  induction x1 generalizing x2 x3 with
  | zero =>
    unfold engSlices
    repeat' (first | with_reducible assumption | (intro) | with_reducible apply engCharge_kept | with_reducible apply engTurn_kept | with_reducible apply jobSlice_kept | (with_reducible refine jobSlice_keptE (by assumption) ?_) | simp only [kept_upd] | split | dsimp only)
  | succ n ih =>
    unfold engSlices
    repeat' (first | with_reducible assumption | (intro) | with_reducible apply engCharge_kept | with_reducible apply engTurn_kept | with_reducible apply jobSlice_kept | (with_reducible refine jobSlice_keptE (by assumption) ?_) | with_reducible apply ih | simp only [kept_upd] | split | dsimp only)

theorem enginesRun_kept {x0 : State} (h0 : Kept q k x0) : Kept q k (enginesRun x0) := by
  unfold enginesRun
  repeat' (first | with_reducible assumption | (intro) | with_reducible apply engSlices_kept | with_reducible apply kept_foldl | with_reducible apply kept_foldl2 | with_reducible apply kept_ite | split | dsimp only)

theorem enginesPick_kept {x0 : State} (h0 : Kept q k x0) : Kept q k (enginesPick x0) := by
  unfold enginesPick
  repeat' (first | with_reducible assumption | (intro) | with_reducible apply engPick_kept | with_reducible apply engCharge_kept | with_reducible apply kept_foldl | with_reducible apply kept_foldl2 | with_reducible apply kept_ite | simp only [kept_upd] | split | dsimp only)

end Sys2Proof.Machine
end

