-- ==== Sys2Proof/Laws/KeptNsRange.lean ====
section
/-!
SUPPORT. What the operations of Machine/NsRange.lean keep (`Kept`).
-/
namespace Sys2Proof.Machine

set_option linter.all false

variable {q : List Instr} {k : W64}

theorem slotsClear_kept {x0 : Nat} {x1 : Nat} {x2 : State} (h2 : Kept q k x2) : Kept q k (slotsClear x0 x1 x2) := by
  unfold slotsClear
  repeat' (first | with_reducible assumption | (intro) | with_reducible apply slotRelease_kept | with_reducible apply kept_foldl | with_reducible apply kept_foldl2 | split | dsimp only)

theorem rangeClear_kept {x0 : Nat} {x1 : Nat} {x2 : State} (h2 : Kept q k x2) : Kept q k (rangeClear x0 x1 x2) := by
  unfold rangeClear
  extract_lets s1 _ s2
  have k_s1 : Kept q k s1 := by
    dsimp only [s1]
    repeat' (first | with_reducible assumption | (intro) | with_reducible apply placedClear_kept | with_reducible apply slotsClear_kept | with_reducible apply segCount_kept | with_reducible apply jWindow_kept | with_reducible apply mapUpdate_kept | with_reducible apply kept_foldl | with_reducible apply kept_foldl2 | simp only [kept_upd] | split | dsimp only)
  clear_value s1
  have k_s2 : Kept q k s2 := by
    dsimp only [s2]
    repeat' (first | with_reducible assumption | (intro) | with_reducible apply placedClear_kept | with_reducible apply slotsClear_kept | with_reducible apply segCount_kept | with_reducible apply jWindow_kept | with_reducible apply mapUpdate_kept | with_reducible apply kept_foldl | with_reducible apply kept_foldl2 | simp only [kept_upd] | split | dsimp only)
  clear_value s2
  repeat' (first | with_reducible assumption | (intro) | with_reducible apply placedClear_kept | with_reducible apply slotsClear_kept | with_reducible apply segCount_kept | with_reducible apply jWindow_kept | with_reducible apply mapUpdate_kept | with_reducible apply kept_foldl | with_reducible apply kept_foldl2 | simp only [kept_upd] | split | dsimp only)

theorem ckptsEmpty_kept {x0 : State} (h0 : Kept q k x0) : Kept q k (ckptsEmpty x0) := by
  unfold ckptsEmpty
  repeat' (first | with_reducible assumption | (intro) | with_reducible apply ctlDirty_kept | with_reducible apply kept_foldl | with_reducible apply kept_foldl2 | simp only [kept_upd] | split | dsimp only)

theorem sanitizeBegin_kept {x0 : State} (h0 : Kept q k x0) : Kept q k (sanitizeBegin x0) := by
  unfold sanitizeBegin
  repeat' (first | with_reducible assumption | (intro) | with_reducible apply jFlush_kept | with_reducible apply rangeClear_kept | with_reducible apply ckptsEmpty_kept | with_reducible apply kept_ite | simp only [kept_upd] | split | dsimp only)

theorem sanitizePick_kept {x0 : State} (h0 : Kept q k x0) : Kept q k (sanitizePick x0) := by
  unfold sanitizePick
  repeat' (first | with_reducible assumption | (intro) | with_reducible apply sanitizeBegin_kept | with_reducible apply kept_ite | simp only [kept_upd] | split | dsimp only)

end Sys2Proof.Machine
end

