-- ==== Sys2Proof/Laws/KeptPick.lean ====
section
/-!
SUPPORT. What the operations of Machine/Pick.lean keep (`Kept`).
-/
namespace Sys2Proof.Machine

set_option linter.all false

variable {q : List Instr} {k : W64}

theorem refillFn_kept {x0 : Nat} {x1 : State} (h1 : Kept q k x1) : Kept q k (refillFn x0 x1) := by
  unfold refillFn
  repeat' (first | with_reducible assumption | (intro) | with_reducible apply fnMod_kept | with_reducible apply regAdd_kept | with_reducible apply kept_foldl | with_reducible apply kept_foldl2 | with_reducible apply kept_ite | simp only [kept_upd] | split | dsimp only)

theorem powerBolt_kept {x0 : State} (h0 : Kept q k x0) : Kept q k (powerBolt x0) := by
  unfold powerBolt
  extract_lets t _ s1 _ s2 s3
  have k_s1 : Kept q k s1 := by
    dsimp only [s1]
    repeat' (first | with_reducible assumption | (intro) | with_reducible apply regAdd_kept | with_reducible apply draw_kept | (with_reducible refine draw_keptE (by assumption) ?_) | with_reducible apply regSet_kept | with_reducible apply kept_ite | simp only [kept_upd] | split | dsimp only)
  clear_value s1
  have k_s2 : Kept q k s2 := by
    dsimp only [s2]
    repeat' (first | with_reducible assumption | (intro) | with_reducible apply regAdd_kept | with_reducible apply draw_kept | (with_reducible refine draw_keptE (by assumption) ?_) | with_reducible apply regSet_kept | with_reducible apply kept_ite | simp only [kept_upd] | split | dsimp only)
  clear_value s2
  have k_s3 : Kept q k s3 := by
    dsimp only [s3]
    repeat' (first | with_reducible assumption | (intro) | with_reducible apply regAdd_kept | with_reducible apply draw_kept | (with_reducible refine draw_keptE (by assumption) ?_) | with_reducible apply regSet_kept | with_reducible apply kept_ite | simp only [kept_upd] | split | dsimp only)
  clear_value s3
  repeat' (first | with_reducible assumption | (intro) | with_reducible apply regAdd_kept | with_reducible apply draw_kept | (with_reducible refine draw_keptE (by assumption) ?_) | with_reducible apply regSet_kept | with_reducible apply kept_ite | simp only [kept_upd] | split | dsimp only)

theorem histBolt_kept {x0 : State} (h0 : Kept q k x0) : Kept q k (histBolt x0) := by
  unfold histBolt
  repeat' (first | with_reducible assumption | (intro) | simp only [kept_upd] | split | dsimp only)

theorem boltStart_kept {x0 : State} (h0 : Kept q k x0) : Kept q k (boltStart x0) := by
  unfold boltStart
  extract_lets s1 s2 s3 idle _ _ _ s4 s5
  have k_s1 : Kept q k s1 := by
    dsimp only [s1]
    repeat' (first | with_reducible assumption | (intro) | with_reducible apply powerBolt_kept | with_reducible apply refillFn_kept | with_reducible apply carveShrink_kept | with_reducible apply heldSend_kept | with_reducible apply histBolt_kept | with_reducible apply ptyRecord_kept | with_reducible apply kept_foldl | with_reducible apply kept_foldl2 | with_reducible apply kept_ite | simp only [kept_upd] | split | dsimp only)
  clear_value s1
  have k_s2 : Kept q k s2 := by
    dsimp only [s2]
    repeat' (first | with_reducible assumption | (intro) | with_reducible apply powerBolt_kept | with_reducible apply refillFn_kept | with_reducible apply carveShrink_kept | with_reducible apply heldSend_kept | with_reducible apply histBolt_kept | with_reducible apply ptyRecord_kept | with_reducible apply kept_foldl | with_reducible apply kept_foldl2 | with_reducible apply kept_ite | simp only [kept_upd] | split | dsimp only)
  clear_value s2
  have k_s3 : Kept q k s3 := by
    dsimp only [s3]
    repeat' (first | with_reducible assumption | (intro) | with_reducible apply powerBolt_kept | with_reducible apply refillFn_kept | with_reducible apply carveShrink_kept | with_reducible apply heldSend_kept | with_reducible apply histBolt_kept | with_reducible apply ptyRecord_kept | with_reducible apply kept_foldl | with_reducible apply kept_foldl2 | with_reducible apply kept_ite | simp only [kept_upd] | split | dsimp only)
  clear_value s3
  have k_s4 : Kept q k s4 := by
    dsimp only [s4]
    repeat' (first | with_reducible assumption | (intro) | with_reducible apply powerBolt_kept | with_reducible apply refillFn_kept | with_reducible apply carveShrink_kept | with_reducible apply heldSend_kept | with_reducible apply histBolt_kept | with_reducible apply ptyRecord_kept | with_reducible apply kept_foldl | with_reducible apply kept_foldl2 | with_reducible apply kept_ite | simp only [kept_upd] | split | dsimp only)
  clear_value s4
  have k_s5 : Kept q k s5 := by
    dsimp only [s5]
    repeat' (first | with_reducible assumption | (intro) | with_reducible apply powerBolt_kept | with_reducible apply refillFn_kept | with_reducible apply carveShrink_kept | with_reducible apply heldSend_kept | with_reducible apply histBolt_kept | with_reducible apply ptyRecord_kept | with_reducible apply kept_foldl | with_reducible apply kept_foldl2 | with_reducible apply kept_ite | simp only [kept_upd] | split | dsimp only)
  clear_value s5
  repeat' (first | with_reducible assumption | (intro) | with_reducible apply powerBolt_kept | with_reducible apply refillFn_kept | with_reducible apply carveShrink_kept | with_reducible apply heldSend_kept | with_reducible apply histBolt_kept | with_reducible apply ptyRecord_kept | with_reducible apply kept_foldl | with_reducible apply kept_foldl2 | with_reducible apply kept_ite | simp only [kept_upd] | split | dsimp only)

theorem regDue_kept {x0 : Nat} {x1 : Nat} {x2 : State} (h2 : Kept q k x2) : Kept q k (regDue x0 x1 x2) := by
  unfold regDue
  repeat' (first | with_reducible assumption | (intro) | with_reducible apply regSet_kept | with_reducible apply kept_ite | simp only [kept_upd] | split | dsimp only)

theorem holdDue_kept {x0 : Nat} {x1 : State} (h1 : Kept q k x1) : Kept q k (holdDue x0 x1) := by
  unfold holdDue
  repeat' (first | with_reducible assumption | (intro) | with_reducible apply engMod_kept | simp only [kept_upd] | split | dsimp only)

theorem activateAct_kept {x0 : Nat} {x1 : Nat} {x2 : State} (h2 : Kept q k x2) : Kept q k (activateAct x0 x1 x2) := by
  unfold activateAct
  repeat' (first | with_reducible assumption | (intro) | with_reducible apply note_kept | with_reducible apply kept_ite | simp only [kept_upd] | split | dsimp only)

theorem activateDone_kept {x0 : Bool} {x1 : State} (h1 : Kept q k x1) : Kept q k (activateDone x0 x1) := by
  unfold activateDone
  repeat' (first | with_reducible assumption | (intro) | with_reducible apply finish_kept | with_reducible apply kept_ite | simp only [kept_upd] | split | dsimp only)

theorem dueAct_kept {x0 : Due} {x1 : State} (h1 : Kept q k x1) : Kept q k (dueAct x0 x1) := by
  unfold dueAct
  repeat' (first | with_reducible assumption | (intro) | with_reducible apply captureAll_kept | with_reducible apply regDue_kept | with_reducible apply fenceEffect_kept | with_reducible apply fnFenceAct_kept | with_reducible apply runKill_kept | with_reducible apply ctlReset_kept | with_reducible apply flrAct_kept | with_reducible apply linkDownAct_kept | with_reducible apply logSwapAct_kept | with_reducible apply holdDue_kept | with_reducible apply entryTask_kept | with_reducible apply activateAct_kept | with_reducible apply activateDone_kept | with_reducible apply snapAll_kept | with_reducible apply logSwap_kept | with_reducible apply kept_ite | simp only [kept_upd] | split | dsimp only)

theorem duesAct_kept {x0 : State} (h0 : Kept q k x0) : Kept q k (duesAct x0) := by
  unfold duesAct
  repeat' (first | with_reducible assumption | (intro) | with_reducible apply dueAct_kept | with_reducible apply kept_foldl | with_reducible apply kept_foldl2 | simp only [kept_upd] | split | dsimp only)

theorem edgesPick_kept {x0 : State} (h0 : Kept q k x0) : Kept q k (edgesPick x0) := by
  unfold edgesPick
  exact kept_tasks h0 (tabUp_map h0.tabs.tasks)

theorem preemptCore_kept {x0 : State} {x1 : Nat × Nat} (h0 : Kept q k x0) : Kept q k (preemptCore x0 x1) := by
  unfold preemptCore
  repeat' (first | with_reducible assumption | (intro) | with_reducible apply regAdd_kept | with_reducible apply coreIdle_kept | split | dsimp only)

theorem decsAct_kept {x0 : State} (h0 : Kept q k x0) : Kept q k (decsAct x0) := by
  unfold decsAct
  repeat' (first | with_reducible assumption | (intro) | with_reducible apply decTask_kept | with_reducible apply kept_foldl | with_reducible apply kept_foldl2 | simp only [kept_upd] | split | dsimp only)

theorem itineraryPick_kept {x0 : State} (h0 : Kept q k x0) : Kept q k (itineraryPick x0) := by
  unfold itineraryPick
  repeat' (first | with_reducible assumption | (intro) | with_reducible apply requeue_kept | with_reducible apply shuHeld_kept | with_reducible apply decsAct_kept | with_reducible apply preemptCore_kept | with_reducible apply edgesPick_kept | with_reducible apply kept_foldl | with_reducible apply kept_foldl2 | split | dsimp only)

theorem coalPick_kept {x0 : State} (h0 : Kept q k x0) : Kept q k (coalPick x0) := by
  unfold coalPick
  repeat' (first | with_reducible assumption | (intro) | with_reducible apply coalEnd_kept | with_reducible apply kept_foldl | with_reducible apply kept_foldl2 | split | dsimp only)

theorem readyPick_kept {x0 : Nat} {x1 : State} (h1 : Kept q k x1) : Kept q k (readyPick x0 x1) := by
  unfold readyPick
  repeat' (first | with_reducible assumption | (intro) | with_reducible apply fnMod_kept | with_reducible apply kept_ite | simp only [kept_upd] | split | dsimp only)

theorem goodPick_kept {x0 : State} (h0 : Kept q k x0) : Kept q k (goodPick x0) := by
  unfold goodPick
  repeat' (first | with_reducible assumption | (intro) | with_reducible apply bootMod_kept | with_reducible apply kept_ite | simp only [kept_upd] | split | dsimp only)

theorem tablePick_kept {x0 : State} (h0 : Kept q k x0) : Kept q k (tablePick x0) := by
  unfold tablePick
  repeat' (first | with_reducible assumption | (intro) | with_reducible apply mndMod_kept | with_reducible apply kept_ite | simp only [kept_upd] | split | dsimp only)

theorem timePick_kept {x0 : State} (h0 : Kept q k x0) : Kept q k (timePick x0) := by
  unfold timePick
  repeat' (first | with_reducible assumption | (intro) | with_reducible apply regAdd_kept | with_reducible apply kept_ite | split | dsimp only)

theorem mediaPick_kept {x0 : State} (h0 : Kept q k x0) : Kept q k (mediaPick x0) := by
  unfold mediaPick
  repeat' (first | with_reducible assumption | (intro) | with_reducible apply mediaTurn_kept | with_reducible apply sweepEmpty_kept | with_reducible apply memResume_kept | with_reducible apply wakeEnd_kept | split | dsimp only)

theorem testStep_kept {x0 : Bool} {x1 : State} (h1 : Kept q k x1) : Kept q k (testStep x0 x1) := by
  unfold testStep
  repeat' (first | with_reducible assumption | (intro) | with_reducible apply mediaTurn_kept | with_reducible apply queueRead_kept | with_reducible apply selfTestStop_kept | with_reducible apply kept_ite | simp only [kept_upd] | split | dsimp only)

theorem testFloor_kept {x0 : State} (h0 : Kept q k x0) : Kept q k (testFloor x0) := by
  unfold testFloor
  repeat' (first | with_reducible assumption | (intro) | with_reducible apply testStep_kept | with_reducible apply kept_ite | split | dsimp only)

theorem restPick_kept {x0 : State} (h0 : Kept q k x0) : Kept q k (restPick x0) := by
  unfold restPick
  extract_lets s1 s2 _ _ s3 s4
  have k_s1 : Kept q k s1 := by
    dsimp only [s1]
    repeat' (first | with_reducible assumption | (intro) | with_reducible apply backPressure_kept | with_reducible apply testFloor_kept | with_reducible apply mediaPick_kept | with_reducible apply jFlush_kept | with_reducible apply groupShrink_kept | with_reducible apply shutdownEnd_kept | with_reducible apply readyPick_kept | with_reducible apply goodPick_kept | with_reducible apply shutdownSeal_kept | with_reducible apply sanitizePick_kept | with_reducible apply partyPick_kept | with_reducible apply tablePick_kept | with_reducible apply removalDone_kept | with_reducible apply kept_foldl | with_reducible apply kept_foldl2 | with_reducible apply kept_ite | simp only [kept_upd] | split | dsimp only)
  clear_value s1
  have k_s2 : Kept q k s2 := by
    dsimp only [s2]
    repeat' (first | with_reducible assumption | (intro) | with_reducible apply backPressure_kept | with_reducible apply testFloor_kept | with_reducible apply mediaPick_kept | with_reducible apply jFlush_kept | with_reducible apply groupShrink_kept | with_reducible apply shutdownEnd_kept | with_reducible apply readyPick_kept | with_reducible apply goodPick_kept | with_reducible apply shutdownSeal_kept | with_reducible apply sanitizePick_kept | with_reducible apply partyPick_kept | with_reducible apply tablePick_kept | with_reducible apply removalDone_kept | with_reducible apply kept_foldl | with_reducible apply kept_foldl2 | with_reducible apply kept_ite | simp only [kept_upd] | split | dsimp only)
  clear_value s2
  have k_s3 : Kept q k s3 := by
    dsimp only [s3]
    repeat' (first | with_reducible assumption | (intro) | with_reducible apply backPressure_kept | with_reducible apply testFloor_kept | with_reducible apply mediaPick_kept | with_reducible apply jFlush_kept | with_reducible apply groupShrink_kept | with_reducible apply shutdownEnd_kept | with_reducible apply readyPick_kept | with_reducible apply goodPick_kept | with_reducible apply shutdownSeal_kept | with_reducible apply sanitizePick_kept | with_reducible apply partyPick_kept | with_reducible apply tablePick_kept | with_reducible apply removalDone_kept | with_reducible apply kept_foldl | with_reducible apply kept_foldl2 | with_reducible apply kept_ite | simp only [kept_upd] | split | dsimp only)
  clear_value s3
  have k_s4 : Kept q k s4 := by
    dsimp only [s4]
    repeat' (first | with_reducible assumption | (intro) | with_reducible apply backPressure_kept | with_reducible apply testFloor_kept | with_reducible apply mediaPick_kept | with_reducible apply jFlush_kept | with_reducible apply groupShrink_kept | with_reducible apply shutdownEnd_kept | with_reducible apply readyPick_kept | with_reducible apply goodPick_kept | with_reducible apply shutdownSeal_kept | with_reducible apply sanitizePick_kept | with_reducible apply partyPick_kept | with_reducible apply tablePick_kept | with_reducible apply removalDone_kept | with_reducible apply kept_foldl | with_reducible apply kept_foldl2 | with_reducible apply kept_ite | simp only [kept_upd] | split | dsimp only)
  clear_value s4
  repeat' (first | with_reducible assumption | (intro) | with_reducible apply backPressure_kept | with_reducible apply testFloor_kept | with_reducible apply mediaPick_kept | with_reducible apply jFlush_kept | with_reducible apply groupShrink_kept | with_reducible apply shutdownEnd_kept | with_reducible apply readyPick_kept | with_reducible apply goodPick_kept | with_reducible apply shutdownSeal_kept | with_reducible apply sanitizePick_kept | with_reducible apply partyPick_kept | with_reducible apply tablePick_kept | with_reducible apply removalDone_kept | with_reducible apply kept_foldl | with_reducible apply kept_foldl2 | with_reducible apply kept_ite | simp only [kept_upd] | split | dsimp only)

theorem strobeMiss_kept {x0 : Nat} {x1 : State} (h1 : Kept q k x1) : Kept q k (strobeMiss x0 x1) := by
  unfold strobeMiss
  have a : tabUp (tmod 0 x0 (· + 1) x1.lag) = true := tabUp_tmod h1.tabs.lag
  have b : tabUp (tmod 0 x0 (· + 1) x1.missed) = true := tabUp_tmod h1.tabs.missed
  exact ⟨h1.pending, h1.pick, { h1.tabs with lag := a, missed := b }⟩

theorem strobePick_kept {x0 : List Nat} {x1 : State} (h1 : Kept q k x1) : Kept q k (strobePick x0 x1) := by
  unfold strobePick
  extract_lets l s1 silent differs
  have h : Kept q k s1 := kept_foldl (fun s p h => strobeMiss_kept h) (kept_missed h1 (tabUp_filter h1.tabs.missed))
  clear_value s1 silent differs
  refine kept_ite (raise_kept ?_) h
  exact ⟨h.pending, h.pick, { h.tabs with lag := rfl, missed := rfl }⟩

theorem weightsPick_kept {x0 : State} (h0 : Kept q k x0) : Kept q k (weightsPick x0) := by
  unfold weightsPick
  repeat' (first | with_reducible assumption | (intro) | with_reducible apply kept_foldl | with_reducible apply kept_foldl2 | split | dsimp only | with_reducible apply kept_weights | (with_reducible refine Tabs.weights (Kept.tabs (q := q) (k := k) ?_)) | with_reducible apply tabUp_tset | with_reducible apply tabUp_filter | with_reducible apply tabUp_map | with_reducible apply tabUp_tmod | with_reducible apply tabUp_foldl | with_reducible apply tabUp_tdel | with_reducible apply tabUp_tput | with_reducible apply tabUp_filterMap | with_reducible exact tabUp_nil | with_reducible apply tabWf_tset | with_reducible apply tabWf_filter | with_reducible apply tabWf_tdel | with_reducible apply tabWf_tsetBytes | with_reducible apply tabWf_foldl | with_reducible exact tabWf_nil | simp only [kept_upd])

theorem upset_kept {x0 : State} {x1 : Nat × Nat × Nat × Nat} (h0 : Kept q k x0) : Kept q k (upset x0 x1) := by
  unfold upset
  repeat' (first | with_reducible assumption | (intro) | with_reducible apply kept_ite | split | dsimp only | with_reducible apply kept_hamErr | (with_reducible refine Tabs.hamErr (Kept.tabs (q := q) (k := k) ?_)) | (with_reducible refine strike_wf ?_) | with_reducible apply tabWf_tset | with_reducible apply tabWf_filter | with_reducible apply tabWf_tdel | with_reducible apply tabWf_tsetBytes | with_reducible apply tabWf_foldl | with_reducible exact tabWf_nil | with_reducible apply kept_dramErr | (with_reducible refine Tabs.dramErr (Kept.tabs (q := q) (k := k) ?_)) | with_reducible apply kept_hed | (with_reducible refine Tabs.hed (Kept.tabs (q := q) (k := k) ?_)) | with_reducible apply tabUp_tset | with_reducible apply tabUp_filter | with_reducible apply tabUp_map | with_reducible apply tabUp_tmod | with_reducible apply tabUp_foldl | with_reducible apply tabUp_tdel | with_reducible apply tabUp_tput | with_reducible apply tabUp_filterMap | with_reducible exact tabUp_nil | simp only [kept_upd])

theorem envPick_kept {x0 : PickEnv} {x1 : State} (h1 : Kept q k x1) : Kept q k (envPick x0 x1) := by
  unfold envPick
  extract_lets s1 s2
  have k_s1 : Kept q k s1 := by
    dsimp only [s1]
    repeat' (first | with_reducible assumption | (intro) | with_reducible apply regAdd_kept | with_reducible apply upset_kept | with_reducible apply kept_foldl | with_reducible apply kept_foldl2 | simp only [kept_upd] | split | dsimp only)
  clear_value s1
  have k_s2 : Kept q k s2 := by
    dsimp only [s2]
    repeat' (first | with_reducible assumption | (intro) | with_reducible apply regAdd_kept | with_reducible apply upset_kept | with_reducible apply kept_foldl | with_reducible apply kept_foldl2 | simp only [kept_upd] | split | dsimp only)
  clear_value s2
  repeat' (first | with_reducible assumption | (intro) | with_reducible apply regAdd_kept | with_reducible apply upset_kept | with_reducible apply kept_foldl | with_reducible apply kept_foldl2 | simp only [kept_upd] | split | dsimp only)

theorem skewPick_kept {x0 : State} (h0 : Kept q k x0) : Kept q k (skewPick x0) := by
  unfold skewPick
  repeat' (first | with_reducible assumption | (intro) | with_reducible apply draw_kept | (with_reducible refine draw_keptE (by assumption) ?_) | with_reducible apply regMax_kept | split | dsimp only)

theorem pickBoundary_kept {v : PickEnv} {x0 : State} (h0 : Kept q k x0) : Kept q (k + 1) (pickBoundary v x0) := by
  unfold pickBoundary
  extract_lets s0 s1 s2
  have k0 : Kept q k s0 := enginesRun_kept h0
  clear_value s0
  have k1 : Kept q (k + 1) s1 := weightsPick_kept (strobePick_kept (envPick_kept (skewPick_kept (timePick_kept
    ⟨k0.pending, by rw [← k0.pick], { k0.tabs with }⟩))))
  clear_value s1
  have k2 : Kept q (k + 1) s2 := kept_ite (boltStart_kept k1) k1
  clear_value s2
  exact restPick_kept (coalPick_kept (itineraryPick_kept (enginesPick_kept (duesAct_kept k2))))

theorem execPickBoundary_kept {v : PickEnv} {x0 : State} (h0 : Kept q k x0) :
    KeptX q k (execPickBoundary x0 v) ∨ KeptX q (k + 1) (execPickBoundary x0 v) := by
  unfold execPickBoundary
  split
  · exact .inl (keptX_next h0)
  · exact .inr (keptX_next (pickBoundary_kept h0))

end Sys2Proof.Machine
end

