-- ==== Sys2Proof/Laws/KeptAdminLog.lean ====
section
/-!
SUPPORT. What the operations of Machine/AdminLog.lean keep (`Kept`).
-/
namespace Sys2Proof.Machine

set_option linter.all false

variable {q : List Instr} {k : W64}

theorem smartPage_kept {x0 : Nat} {x1 : State} (h1 : Kept q k x1) : Kept q k ((smartPage x0 x1)).2 := by
  unfold smartPage
  repeat' (first | with_reducible assumption | (intro) | with_reducible apply freeBytes_kept | (with_reducible refine freeBytes_keptE (by assumption) ?_) | split | dsimp only)
theorem smartPage_keptE {x0 : Nat} {x1 : State} {a : Bytes} {t : State} (e : smartPage x0 x1 = (a, t)) (h1 : Kept q k x1) : Kept q k t := by
  have w := smartPage_kept (q := q) (k := k) (x0 := x0) (x1 := x1) h1
  rw [e] at w; exact w

theorem testBytes_kept {x0 : Nat × Nat × Nat} {x1 : State} (h1 : Kept q k x1) : Kept q k ((testBytes x0 x1)).2 := by
  unfold testBytes
  repeat' (first | with_reducible assumption | (intro) | with_reducible apply freeBytes_kept | (with_reducible refine freeBytes_keptE (by assumption) ?_) | split | dsimp only)
theorem testBytes_keptE {x0 : Nat × Nat × Nat} {x1 : State} {a : Bytes} {t : State} (e : testBytes x0 x1 = (a, t)) (h1 : Kept q k x1) : Kept q k t := by
  have w := testBytes_kept (q := q) (k := k) (x0 := x0) (x1 := x1) h1
  rw [e] at w; exact w

theorem testPage_kept {x0 : State} (h0 : Kept q k x0) : Kept q k ((testPage x0)).2 := by
  unfold testPage
  repeat' (first | with_reducible assumption | (intro) | with_reducible apply draw_kept | (with_reducible refine draw_keptE (by assumption) ?_) | with_reducible apply testBytes_kept | (with_reducible refine testBytes_keptE (by assumption) ?_) | with_reducible apply kept_foldl | with_reducible apply kept_foldl2 | with_reducible apply keptP_ite | with_reducible apply kept_ite | with_reducible apply keptPP_ite | split | dsimp only)
theorem testPage_keptE {x0 : State} {a : Bytes} {t : State} (e : testPage x0 = (a, t)) (h0 : Kept q k x0) : Kept q k t := by
  have w := testPage_kept (q := q) (k := k) (x0 := x0) h0
  rw [e] at w; exact w

theorem pageBytes_kept {x0 : Nat} {x1 : Nat} {x2 : State} (h2 : Kept q k x2) : KeptOP q k (pageBytes x0 x1 x2) := by
  unfold pageBytes
  repeat' (first | with_reducible assumption | (intro) | with_reducible apply smartPage_kept | (with_reducible refine smartPage_keptE (by assumption) ?_) | with_reducible apply testPage_kept | (with_reducible refine testPage_keptE (by assumption) ?_) | with_reducible apply keptOP_some | with_reducible exact keptOP_none | with_reducible apply keptOP_ite | with_reducible apply kept_ite | simp only [kept_upd] | split | dsimp only)
theorem pageBytes_keptE {x0 : Nat} {x1 : Nat} {x2 : State} {a : Bytes} {t : State} (e : pageBytes x0 x1 x2 = some (a, t)) (h2 : Kept q k x2) : Kept q k t := by
  have w := pageBytes_kept (q := q) (k := k) (x0 := x0) (x1 := x1) (x2 := x2) h2
  rw [e] at w; exact w

theorem logRead_kept {x0 : Nat} {x1 : Nat} {x2 : State} (h2 : Kept q k x2) : Kept q k (logRead x0 x1 x2) := by
  unfold logRead
  repeat' (first | with_reducible assumption | (intro) | with_reducible apply drainAev_kept | with_reducible apply fnMod_kept | simp only [kept_upd] | split | dsimp only)

theorem sendPage_kept {x0 : Nat} {x1 : Nat} {x2 : Nat} {x3 : Bytes} {x4 : State} (h4 : Kept q k x4) : Kept q k (sendPage x0 x1 x2 x3 x4) := by
  unfold sendPage
  repeat' (first | with_reducible assumption | (intro) | with_reducible apply freeBytes_kept | (with_reducible refine freeBytes_keptE (by assumption) ?_) | with_reducible apply logRead_kept | with_reducible apply finish_kept | with_reducible apply sendData_kept | with_reducible apply kept_ite | split | dsimp only)

theorem getLogPage_kept {x0 : Nat} {x1 : State} (h1 : Kept q k x1) : Kept q k (getLogPage x0 x1) := by
  unfold getLogPage
  repeat' (first | with_reducible assumption | (intro) | with_reducible apply finish_kept | with_reducible apply pageBytes_kept | (with_reducible refine pageBytes_keptE (by assumption) ?_) | with_reducible apply bufferOf_kept | (with_reducible refine bufferOf_keptE (by assumption) ?_) | with_reducible apply sendPage_kept | with_reducible apply kept_ite | simp only [kept_upd] | split | dsimp only)

theorem execGetLogPage_kept {x0 : Nat} {x1 : State} (h1 : Kept q k x1) : KeptX q k (execGetLogPage x0 x1) := by
  unfold execGetLogPage
  repeat' (first | with_reducible assumption | (intro) | with_reducible apply getLogPage_kept | with_reducible apply keptX_next | with_reducible exact keptX_fault | with_reducible apply keptX_ite | with_reducible apply kept_ite | split | dsimp only)

end Sys2Proof.Machine
end

