-- ==== Sys2Proof/Laws/KeptIdentify.lean ====
section
/-!
SUPPORT. What the operations of Machine/Identify.lean keep (`Kept`).
-/
namespace Sys2Proof.Machine

set_option linter.all false

variable {q : List Instr} {k : W64}

theorem identifyCmd_kept {x0 : Nat} {x1 : State} (h1 : Kept q k x1) : Kept q k (identifyCmd x0 x1) := by
  unfold identifyCmd
  repeat' (first | with_reducible assumption | (intro) | with_reducible apply adminData_kept | with_reducible apply finish_kept | simp only [kept_upd] | split | dsimp only)

theorem execIdentify_kept {x0 : Nat} {x1 : State} (h1 : Kept q k x1) : KeptX q k (execIdentify x0 x1) := by
  unfold execIdentify
  repeat' (first | with_reducible assumption | (intro) | with_reducible apply identifyCmd_kept | with_reducible apply keptX_next | with_reducible exact keptX_fault | with_reducible apply keptX_ite | with_reducible apply kept_ite | split | dsimp only)

end Sys2Proof.Machine
end

