-- ==== Sys2Proof/Laws/KeptAdmin.lean ====
section
/-!
SUPPORT. What the operations of Machine/Admin.lean keep (`Kept`).
-/
namespace Sys2Proof.Machine

set_option linter.all false

variable {q : List Instr} {k : W64}

theorem nsRecord_kept {x0 : Nat} {x1 : Namespace} {x2 : State} (h2 : Kept q k x2) : Kept q k (nsRecord x0 x1 x2) := by
  unfold nsRecord
  repeat' (first | with_reducible assumption | (intro) | with_reducible apply jCtrl_kept | with_reducible apply nsSet_kept | with_reducible apply kept_ite | simp only [kept_upd] | split | dsimp only)

theorem capacityFix_kept {x0 : State} (h0 : Kept q k x0) : Kept q k (capacityFix x0) := by
  unfold capacityFix
  repeat' (first | with_reducible assumption | (intro) | with_reducible apply kept_ite | simp only [kept_upd] | split | dsimp only)

theorem nsCreate_kept {x0 : Nat} {x1 : Nat} {x2 : Nat} {x3 : State} (h3 : Kept q k x3) : Kept q k (nsCreate x0 x1 x2 x3) := by
  unfold nsCreate
  repeat' (first | with_reducible assumption | (intro) | with_reducible apply finish_kept | with_reducible apply capacityFix_kept | with_reducible apply finishDw_kept | with_reducible apply nsSet_kept | with_reducible apply nsRecord_kept | simp only [kept_upd] | split | dsimp only)

theorem nsCreateCmd_kept {x0 : Nat} {x1 : State} (h1 : Kept q k x1) : Kept q k (nsCreateCmd x0 x1) := by
  unfold nsCreateCmd
  repeat' (first | with_reducible assumption | (intro) | with_reducible apply finish_kept | with_reducible apply hostData_kept | (with_reducible refine hostData_keptE (by assumption) ?_) | with_reducible apply nsCreate_kept | with_reducible apply kept_ite | simp only [kept_upd] | split | dsimp only)

theorem execNamespaceCreate_kept {x0 : Nat} {x1 : State} (h1 : Kept q k x1) : KeptX q k (execNamespaceCreate x0 x1) := by
  unfold execNamespaceCreate
  repeat' (first | with_reducible assumption | (intro) | with_reducible apply nsCreateCmd_kept | with_reducible apply keptX_next | with_reducible exact keptX_fault | with_reducible apply keptX_ite | with_reducible apply kept_ite | split | dsimp only)

theorem nsPromote_kept {x0 : List Nat} {x1 : State} (h1 : Kept q k x1) : Kept q k (nsPromote x0 x1) := by
  unfold nsPromote
  repeat' (first | with_reducible assumption | (intro) | with_reducible apply promote_kept | with_reducible apply kept_foldl | with_reducible apply kept_foldl2 | split | dsimp only)

theorem nsEmpty_kept {x0 : Nat} {x1 : State} (h1 : Kept q k x1) : Kept q k (nsEmpty x0 x1) := by
  unfold nsEmpty
  repeat' (first | with_reducible assumption | (intro) | with_reducible apply rangeClear_kept | split | dsimp only)

theorem nsTestStop_kept {x0 : Nat} {x1 : Nat} {x2 : State} (h2 : Kept q k x2) : Kept q k (nsTestStop x0 x1 x2) := by
  unfold nsTestStop
  repeat' (first | with_reducible assumption | (intro) | with_reducible apply selfTestStop_kept | with_reducible apply kept_ite | split | dsimp only)

theorem nsDrop_kept {x0 : Nat} {x1 : Nat} {x2 : State} (h2 : Kept q k x2) : Kept q k (nsDrop x0 x1 x2) := by
  unfold nsDrop
  repeat' (first | with_reducible assumption | (intro) | with_reducible apply finish_kept | with_reducible apply slotDrop_kept | with_reducible apply kept_foldl | with_reducible apply kept_foldl2 | split | dsimp only)

theorem nsDeleteCmd_kept {x0 : Nat} {x1 : State} (h1 : Kept q k x1) : Kept q k (nsDeleteCmd x0 x1) := by
  unfold nsDeleteCmd
  repeat' (first | with_reducible assumption | (intro) | with_reducible apply critGate_kept | (with_reducible refine critGate_keptE (by assumption) ?_) | with_reducible apply finish_kept | with_reducible apply nsPromote_kept | with_reducible apply nsDrop_kept | with_reducible apply nsRecord_kept | with_reducible apply nsTestStop_kept | with_reducible apply nsEmpty_kept | with_reducible apply kept_foldl | with_reducible apply kept_foldl2 | with_reducible apply kept_ite | simp only [kept_upd] | split | dsimp only)

theorem execNamespaceDelete_kept {x0 : Nat} {x1 : State} (h1 : Kept q k x1) : KeptX q k (execNamespaceDelete x0 x1) := by
  unfold execNamespaceDelete
  repeat' (first | with_reducible assumption | (intro) | with_reducible apply nsDeleteCmd_kept | with_reducible apply keptX_next | with_reducible exact keptX_fault | with_reducible apply keptX_ite | with_reducible apply kept_ite | split | dsimp only)

theorem nsAttachCmd_kept {x0 : Nat} {x1 : State} (h1 : Kept q k x1) : Kept q k (nsAttachCmd x0 x1) := by
  unfold nsAttachCmd
  repeat' (first | with_reducible assumption | (intro) | with_reducible apply finish_kept | with_reducible apply hostData_kept | (with_reducible refine hostData_keptE (by assumption) ?_) | with_reducible apply nsRecord_kept | with_reducible apply kept_ite | simp only [kept_upd] | split | dsimp only)

theorem execNamespaceAttachment_kept {x0 : Nat} {x1 : State} (h1 : Kept q k x1) : KeptX q k (execNamespaceAttachment x0 x1) := by
  unfold execNamespaceAttachment
  repeat' (first | with_reducible assumption | (intro) | with_reducible apply nsAttachCmd_kept | with_reducible apply keptX_next | with_reducible exact keptX_fault | with_reducible apply keptX_ite | with_reducible apply kept_ite | split | dsimp only)

theorem formatCmd_kept {x0 : Nat} {x1 : State} (h1 : Kept q k x1) : Kept q k (formatCmd x0 x1) := by
  unfold formatCmd
  repeat' (first | with_reducible assumption | (intro) | with_reducible apply critGate_kept | (with_reducible refine critGate_keptE (by assumption) ?_) | with_reducible apply finish_kept | with_reducible apply nsPromote_kept | with_reducible apply nsTestStop_kept | with_reducible apply nsEmpty_kept | with_reducible apply nsRecord_kept | with_reducible apply kept_foldl | with_reducible apply kept_foldl2 | with_reducible apply kept_ite | simp only [kept_upd] | split | dsimp only)

theorem execFormatNvm_kept {x0 : Nat} {x1 : State} (h1 : Kept q k x1) : KeptX q k (execFormatNvm x0 x1) := by
  unfold execFormatNvm
  repeat' (first | with_reducible assumption | (intro) | with_reducible apply formatCmd_kept | with_reducible apply keptX_next | with_reducible exact keptX_fault | with_reducible apply keptX_ite | with_reducible apply kept_ite | split | dsimp only)

theorem sanitizeEnd_kept {x0 : Nat} {x1 : State} (h1 : Kept q k x1) : Kept q k (sanitizeEnd x0 x1) := by
  unfold sanitizeEnd
  repeat' (first | with_reducible assumption | (intro) | with_reducible apply runKill_kept | with_reducible apply discSweep_kept | with_reducible apply slotSweep_kept | with_reducible apply finish_kept | with_reducible apply slotDrop_kept | simp only [kept_upd] | split | dsimp only)

theorem sanitizeCmd_kept {x0 : Nat} {x1 : State} (h1 : Kept q k x1) : Kept q k (sanitizeCmd x0 x1) := by
  unfold sanitizeCmd
  repeat' (first | with_reducible assumption | (intro) | with_reducible apply critGate_kept | (with_reducible refine critGate_keptE (by assumption) ?_) | with_reducible apply finish_kept | with_reducible apply sanitizeEnd_kept | with_reducible apply selfTestStop_kept | with_reducible apply kept_foldl | with_reducible apply kept_foldl2 | with_reducible apply kept_ite | simp only [kept_upd] | split | dsimp only)

theorem execSanitize_kept {x0 : Nat} {x1 : State} (h1 : Kept q k x1) : KeptX q k (execSanitize x0 x1) := by
  unfold execSanitize
  repeat' (first | with_reducible assumption | (intro) | with_reducible apply sanitizeCmd_kept | with_reducible apply keptX_next | with_reducible exact keptX_fault | with_reducible apply keptX_ite | with_reducible apply kept_ite | split | dsimp only)

theorem flexGive_kept {x0 : Nat} {x1 : Nat} {x2 : Nat} {x3 : State} (h3 : Kept q k x3) : Kept q k (flexGive x0 x1 x2 x3) := by
  unfold flexGive
  repeat' (first | with_reducible assumption | (intro) | with_reducible apply finishDw_kept | with_reducible apply fnMod_kept | simp only [kept_upd] | split | dsimp only)

theorem virtCmd_kept {x0 : Nat} {x1 : State} (h1 : Kept q k x1) : Kept q k (virtCmd x0 x1) := by
  unfold virtCmd
  repeat' (first | with_reducible assumption | (intro) | with_reducible apply critGate_kept | (with_reducible refine critGate_keptE (by assumption) ?_) | with_reducible apply finish_kept | with_reducible apply finishDw_kept | with_reducible apply flexGive_kept | with_reducible apply later_kept | with_reducible apply fnMod_kept | with_reducible apply ctlReset_kept | with_reducible apply kept_ite | simp only [kept_upd] | split | dsimp only)

theorem execVirtualizationManagement_kept {x0 : Nat} {x1 : State} (h1 : Kept q k x1) : KeptX q k (execVirtualizationManagement x0 x1) := by
  unfold execVirtualizationManagement
  repeat' (first | with_reducible assumption | (intro) | with_reducible apply virtCmd_kept | with_reducible apply keptX_next | with_reducible exact keptX_fault | with_reducible apply keptX_ite | with_reducible apply kept_ite | split | dsimp only)

theorem testStart_kept {x0 : Nat} {x1 : Bool} {x2 : State} (h2 : Kept q k x2) : Kept q k (testStart x0 x1 x2) := by
  unfold testStart
  repeat' (first | with_reducible assumption | (intro) | with_reducible apply finish_kept | with_reducible apply draw_kept | (with_reducible refine draw_keptE (by assumption) ?_) | with_reducible apply kept_ite | simp only [kept_upd] | split | dsimp only)

theorem execDeviceSelfTestShort_kept {x0 : Nat} {x1 : State} (h1 : Kept q k x1) : KeptX q k (execDeviceSelfTestShort x0 x1) := by
  unfold execDeviceSelfTestShort
  repeat' (first | with_reducible assumption | (intro) | with_reducible apply testStart_kept | with_reducible apply finish_kept | with_reducible apply keptX_next | with_reducible exact keptX_fault | with_reducible apply keptX_ite | with_reducible apply kept_ite | split | dsimp only)

theorem execDeviceSelfTestExtended_kept {x0 : Nat} {x1 : State} (h1 : Kept q k x1) : KeptX q k (execDeviceSelfTestExtended x0 x1) := by
  unfold execDeviceSelfTestExtended
  repeat' (first | with_reducible assumption | (intro) | with_reducible apply testStart_kept | with_reducible apply keptX_next | with_reducible exact keptX_fault | with_reducible apply keptX_ite | with_reducible apply kept_ite | split | dsimp only)

theorem execDeviceSelfTestAbort_kept {x0 : Nat} {x1 : State} (h1 : Kept q k x1) : KeptX q k (execDeviceSelfTestAbort x0 x1) := by
  unfold execDeviceSelfTestAbort
  repeat' (first | with_reducible assumption | (intro) | with_reducible apply finish_kept | with_reducible apply selfTestStop_kept | with_reducible apply keptX_next | with_reducible exact keptX_fault | with_reducible apply keptX_ite | with_reducible apply kept_ite | split | dsimp only)

theorem execSelfTestStep_kept {x0 : Bool} {x1 : State} (h1 : Kept q k x1) : KeptX q k (execSelfTestStep x0 x1) := by
  unfold execSelfTestStep
  repeat' (first | with_reducible assumption | (intro) | with_reducible apply testStep_kept | with_reducible apply keptX_next | with_reducible exact keptX_fault | split | dsimp only)

theorem fuseCmd_kept {x0 : Nat} {x1 : State} (h1 : Kept q k x1) : Kept q k (fuseCmd x0 x1) := by
  unfold fuseCmd
  repeat' (first | with_reducible assumption | (intro) | with_reducible apply critGate_kept | (with_reducible refine critGate_keptE (by assumption) ?_) | with_reducible apply finish_kept | with_reducible apply finishDw_kept | with_reducible apply kept_ite | simp only [kept_upd] | split | dsimp only)

theorem execFuseRepair_kept {x0 : Nat} {x1 : State} (h1 : Kept q k x1) : KeptX q k (execFuseRepair x0 x1) := by
  unfold execFuseRepair
  repeat' (first | with_reducible assumption | (intro) | with_reducible apply fuseCmd_kept | with_reducible apply keptX_next | with_reducible exact keptX_fault | with_reducible apply keptX_ite | with_reducible apply kept_ite | split | dsimp only)

end Sys2Proof.Machine
end

