-- ==== Sys2Proof/Laws/KeptFirmware.lean ====
section
/-!
SUPPORT. What the operations of Machine/Firmware.lean keep (`Kept`).
-/
namespace Sys2Proof.Machine

set_option linter.all false

variable {q : List Instr} {k : W64}

theorem downloadCmd_kept {x0 : Nat} {x1 : State} (h1 : Kept q k x1) : Kept q k (downloadCmd x0 x1) := by
  unfold downloadCmd
  repeat' (first | with_reducible assumption | (intro) | with_reducible apply finish_kept | with_reducible apply hostData_kept | (with_reducible refine hostData_keptE (by assumption) ?_) | with_reducible apply bootMod_kept | with_reducible apply kept_ite | simp only [kept_upd] | split | dsimp only)

theorem execFirmwareImageDownload_kept {x0 : Nat} {x1 : State} (h1 : Kept q k x1) : KeptX q k (execFirmwareImageDownload x0 x1) := by
  unfold execFirmwareImageDownload
  repeat' (first | with_reducible assumption | (intro) | with_reducible apply downloadCmd_kept | with_reducible apply keptX_next | with_reducible exact keptX_fault | with_reducible apply keptX_ite | with_reducible apply kept_ite | split | dsimp only)

theorem fcSlot_kept {x0 : Nat} {x1 : State} (h1 : Kept q k x1) : Kept q k ((fcSlot x0 x1)).2 := by
  unfold fcSlot
  repeat' (first | with_reducible assumption | (intro) | with_reducible apply draw_kept | (with_reducible refine draw_keptE (by assumption) ?_) | with_reducible apply keptP_ite | with_reducible apply kept_ite | with_reducible apply keptPP_ite | split | dsimp only)
theorem fcSlot_keptE {x0 : Nat} {x1 : State} {a : Nat} {t : State} (e : fcSlot x0 x1 = (a, t)) (h1 : Kept q k x1) : Kept q k t := by
  have w := fcSlot_kept (q := q) (k := k) (x0 := x0) (x1 := x1) h1
  rw [e] at w; exact w

theorem slotWrite_kept {x0 : Nat} {x1 : State} (h1 : Kept q k x1) : Kept q k (slotWrite x0 x1) := by
  unfold slotWrite
  repeat' (first | with_reducible assumption | (intro) | with_reducible apply bootMod_kept | simp only [kept_upd] | split | dsimp only)

theorem slotPend_kept {x0 : Nat} {x1 : State} (h1 : Kept q k x1) : Kept q k (slotPend x0 x1) := by
  unfold slotPend
  repeat' (first | with_reducible assumption | (intro) | with_reducible apply bootUpdate_kept | simp only [kept_upd] | split | dsimp only)

theorem fcGate_kept {x0 : Nat} {x1 : State} (h1 : Kept q k x1) : KeptO q k (fcGate x0 x1) := by
  unfold fcGate
  repeat' (first | with_reducible assumption | (intro) | with_reducible apply critGate_kept | (with_reducible refine critGate_keptE (by assumption) ?_) | with_reducible apply keptO_some | with_reducible exact keptO_none | with_reducible apply keptO_ite | with_reducible apply kept_ite | split | dsimp only)
theorem fcGate_keptE {x0 : Nat} {x1 : State}  {t : State} (e : fcGate x0 x1 = some t) (h1 : Kept q k x1) : Kept q k t := by
  have w := fcGate_kept (q := q) (k := k) (x0 := x0) (x1 := x1) h1
  rw [e] at w; exact w

theorem fcReset_kept {x0 : State} (h0 : Kept q k x0) : Kept q k (fcReset x0) := by
  unfold fcReset
  repeat' (first | with_reducible assumption | (intro) | with_reducible apply later_kept | with_reducible apply kept_ite | split | dsimp only)

theorem commitReset_kept {x0 : Nat} {x1 : Nat} {x2 : State} (h2 : Kept q k x2) : Kept q k (commitReset x0 x1 x2) := by
  unfold commitReset
  repeat' (first | with_reducible assumption | (intro) | with_reducible apply fcSlot_kept | (with_reducible refine fcSlot_keptE (by assumption) ?_) | with_reducible apply finish_kept | with_reducible apply fcReset_kept | with_reducible apply slotWrite_kept | with_reducible apply slotPend_kept | with_reducible apply kept_ite | split | dsimp only)

theorem execFirmwareCommitAtReset_kept {x0 : Nat} {x1 : State} (h1 : Kept q k x1) : KeptX q k (execFirmwareCommitAtReset x0 x1) := by
  unfold execFirmwareCommitAtReset
  repeat' (first | with_reducible assumption | (intro) | with_reducible apply fcGate_kept | (with_reducible refine fcGate_keptE (by assumption) ?_) | with_reducible apply commitReset_kept | with_reducible apply keptX_next | with_reducible exact keptX_fault | with_reducible apply keptX_ite | with_reducible apply kept_ite | simp only [kept_upd] | split | dsimp only)

theorem commitActivate_kept {x0 : Nat} {x1 : State} (h1 : Kept q k x1) : Kept q k (commitActivate x0 x1) := by
  unfold commitActivate
  repeat' (first | with_reducible assumption | (intro) | with_reducible apply fcSlot_kept | (with_reducible refine fcSlot_keptE (by assumption) ?_) | with_reducible apply finish_kept | with_reducible apply fcReset_kept | with_reducible apply slotPend_kept | with_reducible apply later_kept | with_reducible apply kept_ite | split | dsimp only)

theorem execFirmwareCommitActivate_kept {x0 : Nat} {x1 : State} (h1 : Kept q k x1) : KeptX q k (execFirmwareCommitActivate x0 x1) := by
  unfold execFirmwareCommitActivate
  repeat' (first | with_reducible assumption | (intro) | with_reducible apply fcGate_kept | (with_reducible refine fcGate_keptE (by assumption) ?_) | with_reducible apply commitActivate_kept | with_reducible apply keptX_next | with_reducible exact keptX_fault | with_reducible apply keptX_ite | with_reducible apply kept_ite | simp only [kept_upd] | split | dsimp only)

theorem drainDone_kept {x0 : State} (h0 : Kept q k x0) : Kept q k (drainDone x0) := by
  unfold drainDone
  repeat' (first | with_reducible assumption | (intro) | with_reducible apply regSetFld_kept | split | dsimp only)

theorem execActivationDrainEnd_kept {x0 : State} (h0 : Kept q k x0) : KeptX q k (execActivationDrainEnd x0) := by
  unfold execActivationDrainEnd
  repeat' (first | with_reducible assumption | (intro) | with_reducible apply drainDone_kept | with_reducible apply keptX_next | with_reducible exact keptX_fault | with_reducible apply keptX_ite | with_reducible apply kept_ite | simp only [kept_upd] | split | dsimp only)

theorem execActivationDrainLimit_kept {x0 : State} (h0 : Kept q k x0) : KeptX q k (execActivationDrainLimit x0) := by
  unfold execActivationDrainLimit
  repeat' (first | with_reducible assumption | (intro) | with_reducible apply finish_kept | with_reducible apply note_kept | with_reducible apply drainDone_kept | with_reducible apply keptX_next | with_reducible exact keptX_fault | with_reducible apply keptX_ite | with_reducible apply kept_ite | simp only [kept_upd] | split | dsimp only)

theorem houseClear_kept {x0 : State} (h0 : Kept q k x0) : Kept q k (houseClear x0) := by
  unfold houseClear
  repeat' (first | with_reducible assumption | (intro) | with_reducible apply taskSet_kept | with_reducible apply evict_kept | with_reducible apply kept_foldl | with_reducible apply kept_foldl2 | split | dsimp only)

theorem imageSwitch_kept {x0 : Nat} {x1 : State} (h1 : Kept q k x1) : Kept q k (imageSwitch x0 x1) := by
  unfold imageSwitch
  repeat' (first | with_reducible assumption | (intro) | with_reducible apply slotPend_kept | with_reducible apply firmwareStart_kept | with_reducible apply regSetFld_kept | with_reducible apply bootMod_kept | with_reducible apply houseClear_kept | simp only [kept_upd] | split | dsimp only)

theorem execActivationEnd_kept {x0 : Bool} {x1 : State} (h1 : Kept q k x1) : KeptX q k (execActivationEnd x0 x1) := by
  unfold execActivationEnd
  repeat' (first | with_reducible assumption | (intro) | with_reducible apply later_kept | with_reducible apply imageSwitch_kept | with_reducible apply keptX_next | with_reducible exact keptX_fault | with_reducible apply keptX_ite | with_reducible apply kept_ite | simp only [kept_upd] | split | dsimp only)

end Sys2Proof.Machine
end

