-- ==== Sys2Proof/Laws/KeptIzkin.lean ====
section
/-!
SUPPORT. What the operations of Machine/Izkin.lean keep (`Kept`).
-/
namespace Sys2Proof.Machine

set_option linter.all false

variable {q : List Instr} {k : W64}

theorem izDone_kept {x0 : Nat} {x1 : Nat} {x2 : Nat} {x3 : State} (h3 : Kept q k x3) : Kept q k (izDone x0 x1 x2 x3) := by
  unfold izDone
  repeat' (first | with_reducible assumption | (intro) | with_reducible apply codeFetch_kept | with_reducible apply taskMod_kept | with_reducible apply chargeClk_kept | with_reducible apply regAdd_kept | with_reducible apply coreMod_kept | with_reducible apply kept_ite | simp only [kept_upd] | split | dsimp only)

theorem izRun_kept {x0 : Nat} {x1 : Nat} {x2 : Nat → Task → State → IzOut} {x3 : State} (h2 : ∀ y0 y1 y2, Kept q k y2 → KeptZ q k (x2 y0 y1 y2)) (h3 : Kept q k x3) : KeptX q k (izRun x0 x1 x2 x3) := by
  unfold izRun
  split
  · exact keptX_fault
  · split
    · exact keptX_next h3
    · rename_i t _
      extract_lets x
      split
      · exact keptX_next (trapTask_kept (taskSet_kept h3))
      · have w := h2 t { x with pc := x.pc + BitVec.ofNat 24 x1 } x3 h3
        split
        · rename_i e; rw [e] at w
          split
          · exact keptX_next (trapTask_kept h3)
          · exact keptX_next (izDone_kept (taskSet_kept w))
        · rename_i e; rw [e] at w
          exact keptX_next (izDone_kept w)
        · rename_i e; rw [e] at w
          exact keptX_next (trapTask_kept w)
        · exact keptX_next (coreMod_kept h3)
        · exact keptX_fault

theorem under_kept {x0 : State} (h0 : Kept q k x0) : KeptZ q k (under x0) := by
  unfold under
  repeat' (first | with_reducible assumption | (intro) | with_reducible apply keptZ_go | with_reducible apply keptZ_done | with_reducible apply keptZ_trap | with_reducible exact keptZ_stall | with_reducible exact keptZ_undef | split | dsimp only)

theorem izPop1_kept {x0 : Task} {x1 : State} {x2 : W64 → Task → IzOut} (h1 : Kept q k x1) (h2 : ∀ y0 y1, KeptZ q k (x2 y0 y1)) : KeptZ q k (izPop1 x0 x1 x2) := by
  unfold izPop1
  repeat' (first | with_reducible assumption | (intro) | with_reducible apply h2 | with_reducible apply under_kept | with_reducible apply keptZ_go | with_reducible apply keptZ_done | with_reducible apply keptZ_trap | with_reducible exact keptZ_stall | with_reducible exact keptZ_undef | simp only [kept_upd] | split | dsimp only)

theorem izPop2_kept {x0 : Task} {x1 : State} {x2 : W64 → W64 → Task → IzOut} (h1 : Kept q k x1) (h2 : ∀ y0 y1 y2, KeptZ q k (x2 y0 y1 y2)) : KeptZ q k (izPop2 x0 x1 x2) := by
  unfold izPop2
  repeat' (first | with_reducible assumption | (intro) | with_reducible apply h2 | with_reducible apply under_kept | with_reducible apply keptZ_go | with_reducible apply keptZ_done | with_reducible apply keptZ_trap | with_reducible exact keptZ_stall | with_reducible exact keptZ_undef | simp only [kept_upd] | split | dsimp only)

theorem izPop3_kept {x0 : Task} {x1 : State} {x2 : W64 → W64 → W64 → Task → IzOut} (h1 : Kept q k x1) (h2 : ∀ y0 y1 y2 y3, KeptZ q k (x2 y0 y1 y2 y3)) : KeptZ q k (izPop3 x0 x1 x2) := by
  unfold izPop3
  repeat' (first | with_reducible assumption | (intro) | with_reducible apply h2 | with_reducible apply under_kept | with_reducible apply keptZ_go | with_reducible apply keptZ_done | with_reducible apply keptZ_trap | with_reducible exact keptZ_stall | with_reducible exact keptZ_undef | simp only [kept_upd] | split | dsimp only)

theorem izPop4_kept {x0 : Task} {x1 : State} {x2 : W64 → W64 → W64 → W64 → Task → IzOut} (h1 : Kept q k x1) (h2 : ∀ y0 y1 y2 y3 y4, KeptZ q k (x2 y0 y1 y2 y3 y4)) : KeptZ q k (izPop4 x0 x1 x2) := by
  unfold izPop4
  repeat' (first | with_reducible assumption | (intro) | with_reducible apply h2 | with_reducible apply under_kept | with_reducible apply keptZ_go | with_reducible apply keptZ_done | with_reducible apply keptZ_trap | with_reducible exact keptZ_stall | with_reducible exact keptZ_undef | simp only [kept_upd] | split | dsimp only)

theorem iz0_kept {x0 : Nat} {x1 : Nat} {x2 : Nat} {x3 : Nat → Task → State → W64} {x4 : State} (h4 : Kept q k x4) : KeptX q k (iz0 x0 x1 x2 x3 x4) := by
  unfold iz0
  repeat' (first | with_reducible assumption | (intro) | with_reducible apply h3 | with_reducible apply izRun_kept | with_reducible apply keptX_next | with_reducible exact keptX_fault | with_reducible apply keptZ_go | with_reducible apply keptZ_done | with_reducible apply keptZ_trap | with_reducible exact keptZ_stall | with_reducible exact keptZ_undef | split | dsimp only)

theorem iz1_kept {x0 : Nat} {x1 : Nat} {x2 : Nat} {x3 : W64 → W64} {x4 : State} (h4 : Kept q k x4) : KeptX q k (iz1 x0 x1 x2 x3 x4) := by
  unfold iz1
  repeat' (first | with_reducible assumption | (intro) | with_reducible apply izRun_kept | with_reducible apply izPop1_kept | with_reducible apply keptX_next | with_reducible exact keptX_fault | with_reducible apply keptZ_go | with_reducible apply keptZ_done | with_reducible apply keptZ_trap | with_reducible exact keptZ_stall | with_reducible exact keptZ_undef | split | dsimp only)

theorem iz2_kept {x0 : Nat} {x1 : Nat} {x2 : Nat} {x3 : W64 → W64 → W64} {x4 : State} (h4 : Kept q k x4) : KeptX q k (iz2 x0 x1 x2 x3 x4) := by
  unfold iz2
  repeat' (first | with_reducible assumption | (intro) | with_reducible apply izRun_kept | with_reducible apply izPop2_kept | with_reducible apply keptX_next | with_reducible exact keptX_fault | with_reducible apply keptZ_go | with_reducible apply keptZ_done | with_reducible apply keptZ_trap | with_reducible exact keptZ_stall | with_reducible exact keptZ_undef | split | dsimp only)

theorem iz3_kept {x0 : Nat} {x1 : Nat} {x2 : Nat} {x3 : W64 → W64 → W64 → W64} {x4 : State} (h4 : Kept q k x4) : KeptX q k (iz3 x0 x1 x2 x3 x4) := by
  unfold iz3
  repeat' (first | with_reducible assumption | (intro) | with_reducible apply izRun_kept | with_reducible apply izPop3_kept | with_reducible apply keptX_next | with_reducible exact keptX_fault | with_reducible apply keptZ_go | with_reducible apply keptZ_done | with_reducible apply keptZ_trap | with_reducible exact keptZ_stall | with_reducible exact keptZ_undef | split | dsimp only)

theorem iz1i_kept {x0 : Nat} {x1 : Nat} {x2 : Nat} {x3 : Bool} {x4 : W64 → W64} {x5 : State} (h5 : Kept q k x5) : KeptX q k (iz1i x0 x1 x2 x3 x4 x5) := by
  unfold iz1i
  repeat' (first | with_reducible assumption | (intro) | with_reducible apply izRun_kept | with_reducible apply izPop1_kept | with_reducible apply keptX_next | with_reducible exact keptX_fault | with_reducible apply keptZ_go | with_reducible apply keptZ_done | with_reducible apply keptZ_trap | with_reducible exact keptZ_stall | with_reducible exact keptZ_undef | with_reducible apply keptX_ite | with_reducible apply kept_ite | with_reducible apply keptZ_ite | split | dsimp only)

theorem izStack_kept {x0 : Nat} {x1 : Nat} {x2 : Nat} {x3 : List W64 → List W64} {x4 : State} (h4 : Kept q k x4) : KeptX q k (izStack x0 x1 x2 x3 x4) := by
  unfold izStack
  repeat' (first | with_reducible assumption | (intro) | with_reducible apply izRun_kept | with_reducible apply under_kept | with_reducible apply keptX_next | with_reducible exact keptX_fault | with_reducible apply keptZ_go | with_reducible apply keptZ_done | with_reducible apply keptZ_trap | with_reducible exact keptZ_stall | with_reducible exact keptZ_undef | with_reducible apply keptX_ite | with_reducible apply kept_ite | with_reducible apply keptZ_ite | simp only [kept_upd] | split | dsimp only)

theorem winMet_kept {x0 : Task} {x1 : Win} {x2 : Nat} {x3 : Nat} {x4 : State} (h4 : Kept q k x4) : Kept q k (winMet x0 x1 x2 x3 x4) := by
  unfold winMet
  repeat' (first | with_reducible assumption | (intro) | with_reducible apply memMet_kept | with_reducible apply kept_ite | split | dsimp only)

theorem corePut_kept {x0 : Task} {x1 : Nat} {x2 : Nat} {x3 : Bytes} {x4 : Bool} {x5 : State} (h5 : Kept q k x5) : KeptOP q k (corePut x0 x1 x2 x3 x4 x5) := by
  unfold corePut
  repeat' (first | with_reducible assumption | (intro) | with_reducible apply regAdd_kept | with_reducible apply memWrite_kept | (with_reducible refine memWrite_keptE (by assumption) ?_) | with_reducible apply keptO_map | with_reducible apply keptOP_map | with_reducible apply keptO_mapP | with_reducible apply keptOP_mapP | with_reducible apply keptO_mapA | with_reducible apply keptOP_mapA | with_reducible apply keptOP_some | with_reducible exact keptOP_none | with_reducible apply keptOP_ite | with_reducible apply kept_ite | simp only [kept_upd] | split | dsimp only)
theorem corePut_keptE {x0 : Task} {x1 : Nat} {x2 : Nat} {x3 : Bytes} {x4 : Bool} {x5 : State} {a : Task} {t : State} (e : corePut x0 x1 x2 x3 x4 x5 = some (a, t)) (h5 : Kept q k x5) : Kept q k t := by
  have w := corePut_kept (q := q) (k := k) (x0 := x0) (x1 := x1) (x2 := x2) (x3 := x3) (x4 := x4) (x5 := x5) h5
  rw [e] at w; exact w

theorem winWrite_kept {x0 : Task} {x1 : Win} {x2 : Nat} {x3 : Bytes} {x4 : Bool} {x5 : State} (h5 : Kept q k x5) : KeptOP q k (winWrite x0 x1 x2 x3 x4 x5) := by
  unfold winWrite
  repeat' (first | with_reducible assumption | (intro) | with_reducible apply corePut_kept | (with_reducible refine corePut_keptE (by assumption) ?_) | with_reducible apply keptO_bindS | with_reducible apply keptOP_bindP | with_reducible apply keptO_bind | with_reducible apply keptOP_bind | with_reducible apply keptOP_some | with_reducible exact keptOP_none | simp only [kept_upd] | split | dsimp only)
theorem winWrite_keptE {x0 : Task} {x1 : Win} {x2 : Nat} {x3 : Bytes} {x4 : Bool} {x5 : State} {a : Task} {t : State} (e : winWrite x0 x1 x2 x3 x4 x5 = some (a, t)) (h5 : Kept q k x5) : Kept q k t := by
  have w := winWrite_kept (q := q) (k := k) (x0 := x0) (x1 := x1) (x2 := x2) (x3 := x3) (x4 := x4) (x5 := x5) h5
  rw [e] at w; exact w

theorem winPost_kept {x0 : Task} {x1 : Win} {x2 : Nat} {x3 : Nat} {x4 : Bytes} {x5 : State} (h5 : Kept q k x5) : Kept q k ((winPost x0 x1 x2 x3 x4 x5)).2 := by
  unfold winPost
  repeat' (first | with_reducible assumption | (intro) | with_reducible apply winWrite_kept | (with_reducible refine winWrite_keptE (by assumption) ?_) | with_reducible apply keptP_ite | with_reducible apply kept_ite | with_reducible apply keptPP_ite | simp only [kept_upd] | split | dsimp only)
theorem winPost_keptE {x0 : Task} {x1 : Win} {x2 : Nat} {x3 : Nat} {x4 : Bytes} {x5 : State} {a : Task} {t : State} (e : winPost x0 x1 x2 x3 x4 x5 = (a, t)) (h5 : Kept q k x5) : Kept q k t := by
  have w := winPost_kept (q := q) (k := k) (x0 := x0) (x1 := x1) (x2 := x2) (x3 := x3) (x4 := x4) (x5 := x5) h5
  rw [e] at w; exact w

theorem izLoad_kept {x0 : Task} {x1 : Nat} {x2 : Nat} {x3 : Nat} {x4 : Need} {x5 : State} {x6 : Win → Nat → Bytes → State → IzOut} (h5 : Kept q k x5) (h6 : ∀ y0 y1 y2 y3, Kept q k y3 → KeptZ q k (x6 y0 y1 y2 y3)) : KeptZ q k (izLoad x0 x1 x2 x3 x4 x5 x6) := by
  unfold izLoad
  repeat' (first | with_reducible assumption | (intro) | with_reducible apply h6 | with_reducible apply winMet_kept | with_reducible apply keptZ_go | with_reducible apply keptZ_done | with_reducible apply keptZ_trap | with_reducible exact keptZ_stall | with_reducible exact keptZ_undef | with_reducible apply keptZ_ite | with_reducible apply kept_ite | simp only [kept_upd] | split | dsimp only)

end Sys2Proof.Machine
end

