-- ==== Sys2Proof/Laws/KeptIzAlu.lean ====
section
/-!
SUPPORT. What the operations of Machine/IzAlu.lean keep (`Kept`).
-/
namespace Sys2Proof.Machine

set_option linter.all false

variable {q : List Instr} {k : W64}

theorem execIzNop_kept {x0 : Nat} {x1 : State} (h1 : Kept q k x1) : KeptX q k (execIzNop x0 x1) := by
  unfold execIzNop
  repeat' (first | with_reducible assumption | (intro) | with_reducible apply izRun_kept | with_reducible apply keptX_next | with_reducible exact keptX_fault | with_reducible apply keptZ_go | with_reducible apply keptZ_done | with_reducible apply keptZ_trap | with_reducible exact keptZ_stall | with_reducible exact keptZ_undef | split | dsimp only)

theorem execIzLit8_kept {x0 : Nat} {x1 : Byte} {x2 : State} (h2 : Kept q k x2) : KeptX q k (execIzLit8 x0 x1 x2) := by
  unfold execIzLit8
  repeat' (first | with_reducible assumption | (intro) | with_reducible apply iz0_kept | with_reducible apply keptX_next | with_reducible exact keptX_fault | split | dsimp only)

theorem execIzLit16_kept {x0 : Nat} {x1 : W16} {x2 : State} (h2 : Kept q k x2) : KeptX q k (execIzLit16 x0 x1 x2) := by
  unfold execIzLit16
  repeat' (first | with_reducible assumption | (intro) | with_reducible apply iz0_kept | with_reducible apply keptX_next | with_reducible exact keptX_fault | split | dsimp only)

theorem execIzLit32_kept {x0 : Nat} {x1 : W32} {x2 : State} (h2 : Kept q k x2) : KeptX q k (execIzLit32 x0 x1 x2) := by
  unfold execIzLit32
  repeat' (first | with_reducible assumption | (intro) | with_reducible apply iz0_kept | with_reducible apply keptX_next | with_reducible exact keptX_fault | split | dsimp only)

theorem execIzLit64_kept {x0 : Nat} {x1 : W64} {x2 : State} (h2 : Kept q k x2) : KeptX q k (execIzLit64 x0 x1 x2) := by
  unfold execIzLit64
  repeat' (first | with_reducible assumption | (intro) | with_reducible apply iz0_kept | with_reducible apply keptX_next | with_reducible exact keptX_fault | split | dsimp only)

theorem execIzDup_kept {x0 : Nat} {x1 : State} (h1 : Kept q k x1) : KeptX q k (execIzDup x0 x1) := by
  unfold execIzDup
  repeat' (first | with_reducible assumption | (intro) | with_reducible apply izStack_kept | with_reducible apply kept_getD | with_reducible apply keptP_getD | with_reducible apply keptX_next | with_reducible exact keptX_fault | split | dsimp only)

theorem execIzDrop_kept {x0 : Nat} {x1 : State} (h1 : Kept q k x1) : KeptX q k (execIzDrop x0 x1) := by
  unfold execIzDrop
  repeat' (first | with_reducible assumption | (intro) | with_reducible apply izStack_kept | with_reducible apply keptX_next | with_reducible exact keptX_fault | split | dsimp only)

theorem execIzSwap_kept {x0 : Nat} {x1 : State} (h1 : Kept q k x1) : KeptX q k (execIzSwap x0 x1) := by
  unfold execIzSwap
  repeat' (first | with_reducible assumption | (intro) | with_reducible apply izStack_kept | with_reducible apply kept_getD | with_reducible apply keptP_getD | with_reducible apply keptX_next | with_reducible exact keptX_fault | split | dsimp only)

theorem execIzOver_kept {x0 : Nat} {x1 : State} (h1 : Kept q k x1) : KeptX q k (execIzOver x0 x1) := by
  unfold execIzOver
  repeat' (first | with_reducible assumption | (intro) | with_reducible apply izStack_kept | with_reducible apply kept_getD | with_reducible apply keptP_getD | with_reducible apply keptX_next | with_reducible exact keptX_fault | split | dsimp only)

theorem execIzRot_kept {x0 : Nat} {x1 : State} (h1 : Kept q k x1) : KeptX q k (execIzRot x0 x1) := by
  unfold execIzRot
  repeat' (first | with_reducible assumption | (intro) | with_reducible apply izStack_kept | with_reducible apply kept_getD | with_reducible apply keptP_getD | with_reducible apply keptX_next | with_reducible exact keptX_fault | split | dsimp only)

theorem execIzNip_kept {x0 : Nat} {x1 : State} (h1 : Kept q k x1) : KeptX q k (execIzNip x0 x1) := by
  unfold execIzNip
  repeat' (first | with_reducible assumption | (intro) | with_reducible apply izStack_kept | with_reducible apply kept_getD | with_reducible apply keptP_getD | with_reducible apply keptX_next | with_reducible exact keptX_fault | split | dsimp only)

theorem execIzTuck_kept {x0 : Nat} {x1 : State} (h1 : Kept q k x1) : KeptX q k (execIzTuck x0 x1) := by
  unfold execIzTuck
  repeat' (first | with_reducible assumption | (intro) | with_reducible apply izStack_kept | with_reducible apply kept_getD | with_reducible apply keptP_getD | with_reducible apply keptX_next | with_reducible exact keptX_fault | split | dsimp only)

theorem execIzNth_kept {x0 : Nat} {x1 : Byte} {x2 : State} (h2 : Kept q k x2) : KeptX q k (execIzNth x0 x1 x2) := by
  unfold execIzNth
  repeat' (first | with_reducible assumption | (intro) | with_reducible apply izRun_kept | with_reducible apply under_kept | with_reducible apply keptX_next | with_reducible exact keptX_fault | with_reducible apply keptZ_go | with_reducible apply keptZ_done | with_reducible apply keptZ_trap | with_reducible exact keptZ_stall | with_reducible exact keptZ_undef | with_reducible apply keptX_ite | with_reducible apply kept_ite | with_reducible apply keptZ_ite | simp only [kept_upd] | split | dsimp only)

theorem execIzSetn_kept {x0 : Nat} {x1 : Byte} {x2 : State} (h2 : Kept q k x2) : KeptX q k (execIzSetn x0 x1 x2) := by
  unfold execIzSetn
  repeat' (first | with_reducible assumption | (intro) | with_reducible apply izRun_kept | with_reducible apply izPop1_kept | with_reducible apply under_kept | with_reducible apply keptX_next | with_reducible exact keptX_fault | with_reducible apply keptZ_go | with_reducible apply keptZ_done | with_reducible apply keptZ_trap | with_reducible exact keptZ_stall | with_reducible exact keptZ_undef | with_reducible apply keptX_ite | with_reducible apply kept_ite | with_reducible apply keptZ_ite | simp only [kept_upd] | split | dsimp only)

theorem execIzDropn_kept {x0 : Nat} {x1 : Byte} {x2 : State} (h2 : Kept q k x2) : KeptX q k (execIzDropn x0 x1 x2) := by
  unfold execIzDropn
  repeat' (first | with_reducible assumption | (intro) | with_reducible apply izRun_kept | with_reducible apply izStack_kept | with_reducible apply keptX_next | with_reducible exact keptX_fault | with_reducible apply keptZ_go | with_reducible apply keptZ_done | with_reducible apply keptZ_trap | with_reducible exact keptZ_stall | with_reducible exact keptZ_undef | with_reducible apply keptX_ite | with_reducible apply kept_ite | with_reducible apply keptZ_ite | split | dsimp only)

theorem execIzDup2_kept {x0 : Nat} {x1 : State} (h1 : Kept q k x1) : KeptX q k (execIzDup2 x0 x1) := by
  unfold execIzDup2
  repeat' (first | with_reducible assumption | (intro) | with_reducible apply izStack_kept | with_reducible apply kept_getD | with_reducible apply keptP_getD | with_reducible apply keptX_next | with_reducible exact keptX_fault | split | dsimp only)

theorem execIzTor_kept {x0 : Nat} {x1 : State} (h1 : Kept q k x1) : KeptX q k (execIzTor x0 x1) := by
  unfold execIzTor
  repeat' (first | with_reducible assumption | (intro) | with_reducible apply izRun_kept | with_reducible apply izPop1_kept | with_reducible apply keptX_next | with_reducible exact keptX_fault | with_reducible apply keptZ_go | with_reducible apply keptZ_done | with_reducible apply keptZ_trap | with_reducible exact keptZ_stall | with_reducible exact keptZ_undef | simp only [kept_upd] | split | dsimp only)

theorem execIzFromr_kept {x0 : Nat} {x1 : State} (h1 : Kept q k x1) : KeptX q k (execIzFromr x0 x1) := by
  unfold execIzFromr
  repeat' (first | with_reducible assumption | (intro) | with_reducible apply izRun_kept | with_reducible apply under_kept | with_reducible apply keptX_next | with_reducible exact keptX_fault | with_reducible apply keptZ_go | with_reducible apply keptZ_done | with_reducible apply keptZ_trap | with_reducible exact keptZ_stall | with_reducible exact keptZ_undef | simp only [kept_upd] | split | dsimp only)

theorem execIzRfetch_kept {x0 : Nat} {x1 : State} (h1 : Kept q k x1) : KeptX q k (execIzRfetch x0 x1) := by
  unfold execIzRfetch
  repeat' (first | with_reducible assumption | (intro) | with_reducible apply izRun_kept | with_reducible apply under_kept | with_reducible apply keptX_next | with_reducible exact keptX_fault | with_reducible apply keptZ_go | with_reducible apply keptZ_done | with_reducible apply keptZ_trap | with_reducible exact keptZ_stall | with_reducible exact keptZ_undef | simp only [kept_upd] | split | dsimp only)

theorem execIzDepth_kept {x0 : Nat} {x1 : State} (h1 : Kept q k x1) : KeptX q k (execIzDepth x0 x1) := by
  unfold execIzDepth
  repeat' (first | with_reducible assumption | (intro) | with_reducible apply iz0_kept | with_reducible apply keptX_next | with_reducible exact keptX_fault | split | dsimp only)

theorem execIzLitw_kept {x0 : Nat} {x1 : Byte} {x2 : State} (h2 : Kept q k x2) : KeptX q k (execIzLitw x0 x1 x2) := by
  unfold execIzLitw
  repeat' (first | with_reducible assumption | (intro) | with_reducible apply izRun_kept | with_reducible apply keptX_next | with_reducible exact keptX_fault | with_reducible apply keptZ_go | with_reducible apply keptZ_done | with_reducible apply keptZ_trap | with_reducible exact keptZ_stall | with_reducible exact keptZ_undef | with_reducible apply keptX_ite | with_reducible apply kept_ite | with_reducible apply keptZ_ite | split | dsimp only)

theorem execIzAdd_kept {x0 : Nat} {x1 : State} (h1 : Kept q k x1) : KeptX q k (execIzAdd x0 x1) := by
  unfold execIzAdd
  repeat' (first | with_reducible assumption | (intro) | with_reducible apply iz2_kept | with_reducible apply keptX_next | with_reducible exact keptX_fault | split | dsimp only)

theorem execIzSub_kept {x0 : Nat} {x1 : State} (h1 : Kept q k x1) : KeptX q k (execIzSub x0 x1) := by
  unfold execIzSub
  repeat' (first | with_reducible assumption | (intro) | with_reducible apply iz2_kept | with_reducible apply keptX_next | with_reducible exact keptX_fault | split | dsimp only)

theorem execIzMul_kept {x0 : Nat} {x1 : State} (h1 : Kept q k x1) : KeptX q k (execIzMul x0 x1) := by
  unfold execIzMul
  repeat' (first | with_reducible assumption | (intro) | with_reducible apply iz2_kept | with_reducible apply keptX_next | with_reducible exact keptX_fault | split | dsimp only)

theorem execIzMulhu_kept {x0 : Nat} {x1 : State} (h1 : Kept q k x1) : KeptX q k (execIzMulhu x0 x1) := by
  unfold execIzMulhu
  repeat' (first | with_reducible assumption | (intro) | with_reducible apply iz2_kept | with_reducible apply keptX_next | with_reducible exact keptX_fault | split | dsimp only)

theorem execIzMulhs_kept {x0 : Nat} {x1 : State} (h1 : Kept q k x1) : KeptX q k (execIzMulhs x0 x1) := by
  unfold execIzMulhs
  repeat' (first | with_reducible assumption | (intro) | with_reducible apply iz2_kept | with_reducible apply keptX_next | with_reducible exact keptX_fault | split | dsimp only)

theorem execIzDivu_kept {x0 : Nat} {x1 : State} (h1 : Kept q k x1) : KeptX q k (execIzDivu x0 x1) := by
  unfold execIzDivu
  repeat' (first | with_reducible assumption | (intro) | with_reducible apply iz2_kept | with_reducible apply keptX_next | with_reducible exact keptX_fault | with_reducible apply keptX_ite | with_reducible apply kept_ite | split | dsimp only)

theorem execIzRemu_kept {x0 : Nat} {x1 : State} (h1 : Kept q k x1) : KeptX q k (execIzRemu x0 x1) := by
  unfold execIzRemu
  repeat' (first | with_reducible assumption | (intro) | with_reducible apply iz2_kept | with_reducible apply keptX_next | with_reducible exact keptX_fault | with_reducible apply keptX_ite | with_reducible apply kept_ite | split | dsimp only)

theorem execIzDivs_kept {x0 : Nat} {x1 : State} (h1 : Kept q k x1) : KeptX q k (execIzDivs x0 x1) := by
  unfold execIzDivs
  repeat' (first | with_reducible assumption | (intro) | with_reducible apply iz2_kept | with_reducible apply keptX_next | with_reducible exact keptX_fault | split | dsimp only)

theorem execIzRems_kept {x0 : Nat} {x1 : State} (h1 : Kept q k x1) : KeptX q k (execIzRems x0 x1) := by
  unfold execIzRems
  repeat' (first | with_reducible assumption | (intro) | with_reducible apply iz2_kept | with_reducible apply keptX_next | with_reducible exact keptX_fault | split | dsimp only)

theorem execIzNeg_kept {x0 : Nat} {x1 : State} (h1 : Kept q k x1) : KeptX q k (execIzNeg x0 x1) := by
  unfold execIzNeg
  repeat' (first | with_reducible assumption | (intro) | with_reducible apply iz1_kept | with_reducible apply keptX_next | with_reducible exact keptX_fault | split | dsimp only)

theorem execIzAnd_kept {x0 : Nat} {x1 : State} (h1 : Kept q k x1) : KeptX q k (execIzAnd x0 x1) := by
  unfold execIzAnd
  repeat' (first | with_reducible assumption | (intro) | with_reducible apply iz2_kept | with_reducible apply keptX_next | with_reducible exact keptX_fault | split | dsimp only)

theorem execIzOr_kept {x0 : Nat} {x1 : State} (h1 : Kept q k x1) : KeptX q k (execIzOr x0 x1) := by
  unfold execIzOr
  repeat' (first | with_reducible assumption | (intro) | with_reducible apply iz2_kept | with_reducible apply keptX_next | with_reducible exact keptX_fault | split | dsimp only)

theorem execIzXor_kept {x0 : Nat} {x1 : State} (h1 : Kept q k x1) : KeptX q k (execIzXor x0 x1) := by
  unfold execIzXor
  repeat' (first | with_reducible assumption | (intro) | with_reducible apply iz2_kept | with_reducible apply keptX_next | with_reducible exact keptX_fault | split | dsimp only)

theorem execIzNot_kept {x0 : Nat} {x1 : State} (h1 : Kept q k x1) : KeptX q k (execIzNot x0 x1) := by
  unfold execIzNot
  repeat' (first | with_reducible assumption | (intro) | with_reducible apply iz1_kept | with_reducible apply keptX_next | with_reducible exact keptX_fault | split | dsimp only)

theorem execIzShl_kept {x0 : Nat} {x1 : State} (h1 : Kept q k x1) : KeptX q k (execIzShl x0 x1) := by
  unfold execIzShl
  repeat' (first | with_reducible assumption | (intro) | with_reducible apply iz2_kept | with_reducible apply keptX_next | with_reducible exact keptX_fault | split | dsimp only)

theorem execIzShr_kept {x0 : Nat} {x1 : State} (h1 : Kept q k x1) : KeptX q k (execIzShr x0 x1) := by
  unfold execIzShr
  repeat' (first | with_reducible assumption | (intro) | with_reducible apply iz2_kept | with_reducible apply keptX_next | with_reducible exact keptX_fault | split | dsimp only)

theorem execIzSar_kept {x0 : Nat} {x1 : State} (h1 : Kept q k x1) : KeptX q k (execIzSar x0 x1) := by
  unfold execIzSar
  repeat' (first | with_reducible assumption | (intro) | with_reducible apply iz2_kept | with_reducible apply keptX_next | with_reducible exact keptX_fault | split | dsimp only)

theorem execIzRol_kept {x0 : Nat} {x1 : State} (h1 : Kept q k x1) : KeptX q k (execIzRol x0 x1) := by
  unfold execIzRol
  repeat' (first | with_reducible assumption | (intro) | with_reducible apply iz2_kept | with_reducible apply keptX_next | with_reducible exact keptX_fault | split | dsimp only)

theorem execIzRor_kept {x0 : Nat} {x1 : State} (h1 : Kept q k x1) : KeptX q k (execIzRor x0 x1) := by
  unfold execIzRor
  repeat' (first | with_reducible assumption | (intro) | with_reducible apply iz2_kept | with_reducible apply keptX_next | with_reducible exact keptX_fault | split | dsimp only)

theorem execIzAddi_kept {x0 : Nat} {x1 : Byte} {x2 : State} (h2 : Kept q k x2) : KeptX q k (execIzAddi x0 x1 x2) := by
  unfold execIzAddi
  repeat' (first | with_reducible assumption | (intro) | with_reducible apply iz1i_kept | with_reducible apply keptX_next | with_reducible exact keptX_fault | split | dsimp only)

theorem execIzAddi32_kept {x0 : Nat} {x1 : W32} {x2 : State} (h2 : Kept q k x2) : KeptX q k (execIzAddi32 x0 x1 x2) := by
  unfold execIzAddi32
  repeat' (first | with_reducible assumption | (intro) | with_reducible apply iz1i_kept | with_reducible apply keptX_next | with_reducible exact keptX_fault | split | dsimp only)

theorem execIzAndi_kept {x0 : Nat} {x1 : W32} {x2 : State} (h2 : Kept q k x2) : KeptX q k (execIzAndi x0 x1 x2) := by
  unfold execIzAndi
  repeat' (first | with_reducible assumption | (intro) | with_reducible apply iz1i_kept | with_reducible apply keptX_next | with_reducible exact keptX_fault | split | dsimp only)

theorem execIzShli_kept {x0 : Nat} {x1 : Byte} {x2 : State} (h2 : Kept q k x2) : KeptX q k (execIzShli x0 x1 x2) := by
  unfold execIzShli
  repeat' (first | with_reducible assumption | (intro) | with_reducible apply iz1i_kept | with_reducible apply keptX_next | with_reducible exact keptX_fault | split | dsimp only)

theorem execIzShri_kept {x0 : Nat} {x1 : Byte} {x2 : State} (h2 : Kept q k x2) : KeptX q k (execIzShri x0 x1 x2) := by
  unfold execIzShri
  repeat' (first | with_reducible assumption | (intro) | with_reducible apply iz1i_kept | with_reducible apply keptX_next | with_reducible exact keptX_fault | split | dsimp only)

theorem execIzSari_kept {x0 : Nat} {x1 : Byte} {x2 : State} (h2 : Kept q k x2) : KeptX q k (execIzSari x0 x1 x2) := by
  unfold execIzSari
  repeat' (first | with_reducible assumption | (intro) | with_reducible apply iz1i_kept | with_reducible apply keptX_next | with_reducible exact keptX_fault | split | dsimp only)

theorem execIzMinu_kept {x0 : Nat} {x1 : State} (h1 : Kept q k x1) : KeptX q k (execIzMinu x0 x1) := by
  unfold execIzMinu
  repeat' (first | with_reducible assumption | (intro) | with_reducible apply iz2_kept | with_reducible apply keptX_next | with_reducible exact keptX_fault | with_reducible apply keptX_ite | with_reducible apply kept_ite | split | dsimp only)

theorem execIzMaxu_kept {x0 : Nat} {x1 : State} (h1 : Kept q k x1) : KeptX q k (execIzMaxu x0 x1) := by
  unfold execIzMaxu
  repeat' (first | with_reducible assumption | (intro) | with_reducible apply iz2_kept | with_reducible apply keptX_next | with_reducible exact keptX_fault | with_reducible apply keptX_ite | with_reducible apply kept_ite | split | dsimp only)

theorem execIzMins_kept {x0 : Nat} {x1 : State} (h1 : Kept q k x1) : KeptX q k (execIzMins x0 x1) := by
  unfold execIzMins
  repeat' (first | with_reducible assumption | (intro) | with_reducible apply iz2_kept | with_reducible apply keptX_next | with_reducible exact keptX_fault | with_reducible apply keptX_ite | with_reducible apply kept_ite | split | dsimp only)

theorem execIzMaxs_kept {x0 : Nat} {x1 : State} (h1 : Kept q k x1) : KeptX q k (execIzMaxs x0 x1) := by
  unfold execIzMaxs
  repeat' (first | with_reducible assumption | (intro) | with_reducible apply iz2_kept | with_reducible apply keptX_next | with_reducible exact keptX_fault | with_reducible apply keptX_ite | with_reducible apply kept_ite | split | dsimp only)

theorem execIzSext_kept {x0 : Nat} {x1 : Byte} {x2 : State} (h2 : Kept q k x2) : KeptX q k (execIzSext x0 x1 x2) := by
  unfold execIzSext
  repeat' (first | with_reducible assumption | (intro) | with_reducible apply iz1i_kept | with_reducible apply keptX_next | with_reducible exact keptX_fault | split | dsimp only)

theorem execIzZext_kept {x0 : Nat} {x1 : Byte} {x2 : State} (h2 : Kept q k x2) : KeptX q k (execIzZext x0 x1 x2) := by
  unfold execIzZext
  repeat' (first | with_reducible assumption | (intro) | with_reducible apply iz1i_kept | with_reducible apply keptX_next | with_reducible exact keptX_fault | split | dsimp only)

theorem execIzClz_kept {x0 : Nat} {x1 : State} (h1 : Kept q k x1) : KeptX q k (execIzClz x0 x1) := by
  unfold execIzClz
  repeat' (first | with_reducible assumption | (intro) | with_reducible apply iz1_kept | with_reducible apply keptX_next | with_reducible exact keptX_fault | split | dsimp only)

theorem execIzCtz_kept {x0 : Nat} {x1 : State} (h1 : Kept q k x1) : KeptX q k (execIzCtz x0 x1) := by
  unfold execIzCtz
  repeat' (first | with_reducible assumption | (intro) | with_reducible apply iz1_kept | with_reducible apply keptX_next | with_reducible exact keptX_fault | split | dsimp only)

theorem execIzPopc_kept {x0 : Nat} {x1 : State} (h1 : Kept q k x1) : KeptX q k (execIzPopc x0 x1) := by
  unfold execIzPopc
  repeat' (first | with_reducible assumption | (intro) | with_reducible apply iz1_kept | with_reducible apply keptX_next | with_reducible exact keptX_fault | split | dsimp only)

theorem execIzBfx_kept {x0 : Nat} {x1 : W16} {x2 : State} (h2 : Kept q k x2) : KeptX q k (execIzBfx x0 x1 x2) := by
  unfold execIzBfx
  repeat' (first | with_reducible assumption | (intro) | with_reducible apply iz1i_kept | with_reducible apply keptX_next | with_reducible exact keptX_fault | split | dsimp only)

theorem execIzBfxs_kept {x0 : Nat} {x1 : W16} {x2 : State} (h2 : Kept q k x2) : KeptX q k (execIzBfxs x0 x1 x2) := by
  unfold execIzBfxs
  repeat' (first | with_reducible assumption | (intro) | with_reducible apply iz1i_kept | with_reducible apply keptX_next | with_reducible exact keptX_fault | split | dsimp only)

theorem execIzBfi_kept {x0 : Nat} {x1 : W16} {x2 : State} (h2 : Kept q k x2) : KeptX q k (execIzBfi x0 x1 x2) := by
  unfold execIzBfi
  repeat' (first | with_reducible assumption | (intro) | with_reducible apply izRun_kept | with_reducible apply izPop2_kept | with_reducible apply keptX_next | with_reducible exact keptX_fault | with_reducible apply keptZ_go | with_reducible apply keptZ_done | with_reducible apply keptZ_trap | with_reducible exact keptZ_stall | with_reducible exact keptZ_undef | with_reducible apply keptX_ite | with_reducible apply kept_ite | with_reducible apply keptZ_ite | split | dsimp only)

theorem execIzBperm_kept {x0 : Nat} {x1 : State} (h1 : Kept q k x1) : KeptX q k (execIzBperm x0 x1) := by
  unfold execIzBperm
  repeat' (first | with_reducible assumption | (intro) | with_reducible apply iz2_kept | with_reducible apply keptX_next | with_reducible exact keptX_fault | split | dsimp only)

theorem execIzBswap_kept {x0 : Nat} {x1 : State} (h1 : Kept q k x1) : KeptX q k (execIzBswap x0 x1) := by
  unfold execIzBswap
  repeat' (first | with_reducible assumption | (intro) | with_reducible apply iz1_kept | with_reducible apply keptX_next | with_reducible exact keptX_fault | split | dsimp only)

theorem execIzBfxv_kept {x0 : Nat} {x1 : State} (h1 : Kept q k x1) : KeptX q k (execIzBfxv x0 x1) := by
  unfold execIzBfxv
  repeat' (first | with_reducible assumption | (intro) | with_reducible apply iz3_kept | with_reducible apply keptX_next | with_reducible exact keptX_fault | split | dsimp only)

theorem execIzBfiv_kept {x0 : Nat} {x1 : State} (h1 : Kept q k x1) : KeptX q k (execIzBfiv x0 x1) := by
  unfold execIzBfiv
  repeat' (first | with_reducible assumption | (intro) | with_reducible apply izRun_kept | with_reducible apply izPop4_kept | with_reducible apply keptX_next | with_reducible exact keptX_fault | with_reducible apply keptZ_go | with_reducible apply keptZ_done | with_reducible apply keptZ_trap | with_reducible exact keptZ_stall | with_reducible exact keptZ_undef | split | dsimp only)

theorem execIzBpermi_kept {x0 : Nat} {x1 : W64} {x2 : State} (h2 : Kept q k x2) : KeptX q k (execIzBpermi x0 x1 x2) := by
  unfold execIzBpermi
  repeat' (first | with_reducible assumption | (intro) | with_reducible apply iz1i_kept | with_reducible apply keptX_next | with_reducible exact keptX_fault | split | dsimp only)

theorem execIzEq_kept {x0 : Nat} {x1 : State} (h1 : Kept q k x1) : KeptX q k (execIzEq x0 x1) := by
  unfold execIzEq
  repeat' (first | with_reducible assumption | (intro) | with_reducible apply iz2_kept | with_reducible apply keptX_next | with_reducible exact keptX_fault | split | dsimp only)

theorem execIzNe_kept {x0 : Nat} {x1 : State} (h1 : Kept q k x1) : KeptX q k (execIzNe x0 x1) := by
  unfold execIzNe
  repeat' (first | with_reducible assumption | (intro) | with_reducible apply iz2_kept | with_reducible apply keptX_next | with_reducible exact keptX_fault | split | dsimp only)

theorem execIzLtu_kept {x0 : Nat} {x1 : State} (h1 : Kept q k x1) : KeptX q k (execIzLtu x0 x1) := by
  unfold execIzLtu
  repeat' (first | with_reducible assumption | (intro) | with_reducible apply iz2_kept | with_reducible apply keptX_next | with_reducible exact keptX_fault | split | dsimp only)

theorem execIzLeu_kept {x0 : Nat} {x1 : State} (h1 : Kept q k x1) : KeptX q k (execIzLeu x0 x1) := by
  unfold execIzLeu
  repeat' (first | with_reducible assumption | (intro) | with_reducible apply iz2_kept | with_reducible apply keptX_next | with_reducible exact keptX_fault | split | dsimp only)

theorem execIzGtu_kept {x0 : Nat} {x1 : State} (h1 : Kept q k x1) : KeptX q k (execIzGtu x0 x1) := by
  unfold execIzGtu
  repeat' (first | with_reducible assumption | (intro) | with_reducible apply iz2_kept | with_reducible apply keptX_next | with_reducible exact keptX_fault | split | dsimp only)

theorem execIzGeu_kept {x0 : Nat} {x1 : State} (h1 : Kept q k x1) : KeptX q k (execIzGeu x0 x1) := by
  unfold execIzGeu
  repeat' (first | with_reducible assumption | (intro) | with_reducible apply iz2_kept | with_reducible apply keptX_next | with_reducible exact keptX_fault | split | dsimp only)

theorem execIzLts_kept {x0 : Nat} {x1 : State} (h1 : Kept q k x1) : KeptX q k (execIzLts x0 x1) := by
  unfold execIzLts
  repeat' (first | with_reducible assumption | (intro) | with_reducible apply iz2_kept | with_reducible apply keptX_next | with_reducible exact keptX_fault | split | dsimp only)

theorem execIzLes_kept {x0 : Nat} {x1 : State} (h1 : Kept q k x1) : KeptX q k (execIzLes x0 x1) := by
  unfold execIzLes
  repeat' (first | with_reducible assumption | (intro) | with_reducible apply iz2_kept | with_reducible apply keptX_next | with_reducible exact keptX_fault | split | dsimp only)

theorem execIzGts_kept {x0 : Nat} {x1 : State} (h1 : Kept q k x1) : KeptX q k (execIzGts x0 x1) := by
  unfold execIzGts
  repeat' (first | with_reducible assumption | (intro) | with_reducible apply iz2_kept | with_reducible apply keptX_next | with_reducible exact keptX_fault | split | dsimp only)

theorem execIzGes_kept {x0 : Nat} {x1 : State} (h1 : Kept q k x1) : KeptX q k (execIzGes x0 x1) := by
  unfold execIzGes
  repeat' (first | with_reducible assumption | (intro) | with_reducible apply iz2_kept | with_reducible apply keptX_next | with_reducible exact keptX_fault | split | dsimp only)

theorem execIzEqz_kept {x0 : Nat} {x1 : State} (h1 : Kept q k x1) : KeptX q k (execIzEqz x0 x1) := by
  unfold execIzEqz
  repeat' (first | with_reducible assumption | (intro) | with_reducible apply iz1_kept | with_reducible apply keptX_next | with_reducible exact keptX_fault | split | dsimp only)

theorem execIzNez_kept {x0 : Nat} {x1 : State} (h1 : Kept q k x1) : KeptX q k (execIzNez x0 x1) := by
  unfold execIzNez
  repeat' (first | with_reducible assumption | (intro) | with_reducible apply iz1_kept | with_reducible apply keptX_next | with_reducible exact keptX_fault | split | dsimp only)

theorem execIzSelect_kept {x0 : Nat} {x1 : State} (h1 : Kept q k x1) : KeptX q k (execIzSelect x0 x1) := by
  unfold execIzSelect
  repeat' (first | with_reducible assumption | (intro) | with_reducible apply iz3_kept | with_reducible apply keptX_next | with_reducible exact keptX_fault | with_reducible apply keptX_ite | with_reducible apply kept_ite | split | dsimp only)

theorem execIzJmp_kept {x0 : Nat} {x1 : W16} {x2 : State} (h2 : Kept q k x2) : KeptX q k (execIzJmp x0 x1 x2) := by
  unfold execIzJmp
  repeat' (first | with_reducible assumption | (intro) | with_reducible apply izRun_kept | with_reducible apply keptX_next | with_reducible exact keptX_fault | with_reducible apply keptZ_go | with_reducible apply keptZ_done | with_reducible apply keptZ_trap | with_reducible exact keptZ_stall | with_reducible exact keptZ_undef | split | dsimp only)

theorem execIzJz_kept {x0 : Nat} {x1 : W16} {x2 : State} (h2 : Kept q k x2) : KeptX q k (execIzJz x0 x1 x2) := by
  unfold execIzJz
  repeat' (first | with_reducible assumption | (intro) | with_reducible apply izRun_kept | with_reducible apply izPop1_kept | with_reducible apply keptX_next | with_reducible exact keptX_fault | with_reducible apply keptZ_go | with_reducible apply keptZ_done | with_reducible apply keptZ_trap | with_reducible exact keptZ_stall | with_reducible exact keptZ_undef | with_reducible apply keptX_ite | with_reducible apply kept_ite | with_reducible apply keptZ_ite | split | dsimp only)

theorem execIzJnz_kept {x0 : Nat} {x1 : W16} {x2 : State} (h2 : Kept q k x2) : KeptX q k (execIzJnz x0 x1 x2) := by
  unfold execIzJnz
  repeat' (first | with_reducible assumption | (intro) | with_reducible apply izRun_kept | with_reducible apply izPop1_kept | with_reducible apply keptX_next | with_reducible exact keptX_fault | with_reducible apply keptZ_go | with_reducible apply keptZ_done | with_reducible apply keptZ_trap | with_reducible exact keptZ_stall | with_reducible exact keptZ_undef | with_reducible apply keptX_ite | with_reducible apply kept_ite | with_reducible apply keptZ_ite | split | dsimp only)

theorem execIzJmpl_kept {x0 : Nat} {x1 : W32} {x2 : State} (h2 : Kept q k x2) : KeptX q k (execIzJmpl x0 x1 x2) := by
  unfold execIzJmpl
  repeat' (first | with_reducible assumption | (intro) | with_reducible apply izRun_kept | with_reducible apply keptX_next | with_reducible exact keptX_fault | with_reducible apply keptZ_go | with_reducible apply keptZ_done | with_reducible apply keptZ_trap | with_reducible exact keptZ_stall | with_reducible exact keptZ_undef | split | dsimp only)

theorem execIzJzl_kept {x0 : Nat} {x1 : W32} {x2 : State} (h2 : Kept q k x2) : KeptX q k (execIzJzl x0 x1 x2) := by
  unfold execIzJzl
  repeat' (first | with_reducible assumption | (intro) | with_reducible apply izRun_kept | with_reducible apply izPop1_kept | with_reducible apply keptX_next | with_reducible exact keptX_fault | with_reducible apply keptZ_go | with_reducible apply keptZ_done | with_reducible apply keptZ_trap | with_reducible exact keptZ_stall | with_reducible exact keptZ_undef | with_reducible apply keptX_ite | with_reducible apply kept_ite | with_reducible apply keptZ_ite | split | dsimp only)

theorem execIzJnzl_kept {x0 : Nat} {x1 : W32} {x2 : State} (h2 : Kept q k x2) : KeptX q k (execIzJnzl x0 x1 x2) := by
  unfold execIzJnzl
  repeat' (first | with_reducible assumption | (intro) | with_reducible apply izRun_kept | with_reducible apply izPop1_kept | with_reducible apply keptX_next | with_reducible exact keptX_fault | with_reducible apply keptZ_go | with_reducible apply keptZ_done | with_reducible apply keptZ_trap | with_reducible exact keptZ_stall | with_reducible exact keptZ_undef | with_reducible apply keptX_ite | with_reducible apply kept_ite | with_reducible apply keptZ_ite | split | dsimp only)

theorem execIzCall_kept {x0 : Nat} {x1 : W16} {x2 : State} (h2 : Kept q k x2) : KeptX q k (execIzCall x0 x1 x2) := by
  unfold execIzCall
  repeat' (first | with_reducible assumption | (intro) | with_reducible apply izRun_kept | with_reducible apply keptX_next | with_reducible exact keptX_fault | with_reducible apply keptZ_go | with_reducible apply keptZ_done | with_reducible apply keptZ_trap | with_reducible exact keptZ_stall | with_reducible exact keptZ_undef | with_reducible apply keptX_ite | with_reducible apply kept_ite | with_reducible apply keptZ_ite | simp only [kept_upd] | split | dsimp only)

theorem execIzRet_kept {x0 : Nat} {x1 : State} (h1 : Kept q k x1) : KeptX q k (execIzRet x0 x1) := by
  unfold execIzRet
  repeat' (first | with_reducible assumption | (intro) | with_reducible apply izRun_kept | with_reducible apply under_kept | with_reducible apply keptX_next | with_reducible exact keptX_fault | with_reducible apply keptZ_go | with_reducible apply keptZ_done | with_reducible apply keptZ_trap | with_reducible exact keptZ_stall | with_reducible exact keptZ_undef | simp only [kept_upd] | split | dsimp only)

theorem execIzLoop_kept {x0 : Nat} {x1 : W16} {x2 : State} (h2 : Kept q k x2) : KeptX q k (execIzLoop x0 x1 x2) := by
  unfold execIzLoop
  repeat' (first | with_reducible assumption | (intro) | with_reducible apply izRun_kept | with_reducible apply under_kept | with_reducible apply keptX_next | with_reducible exact keptX_fault | with_reducible apply keptZ_go | with_reducible apply keptZ_done | with_reducible apply keptZ_trap | with_reducible exact keptZ_stall | with_reducible exact keptZ_undef | with_reducible apply keptX_ite | with_reducible apply kept_ite | with_reducible apply keptZ_ite | simp only [kept_upd] | split | dsimp only)

theorem execIzTrap_kept {x0 : Nat} {x1 : Byte} {x2 : State} (h2 : Kept q k x2) : KeptX q k (execIzTrap x0 x1 x2) := by
  unfold execIzTrap
  repeat' (first | with_reducible assumption | (intro) | with_reducible apply izRun_kept | with_reducible apply keptX_next | with_reducible exact keptX_fault | with_reducible apply keptZ_go | with_reducible apply keptZ_done | with_reducible apply keptZ_trap | with_reducible exact keptZ_stall | with_reducible exact keptZ_undef | split | dsimp only)

theorem execIzGfmul_kept {x0 : Nat} {x1 : State} (h1 : Kept q k x1) : KeptX q k (execIzGfmul x0 x1) := by
  unfold execIzGfmul
  repeat' (first | with_reducible assumption | (intro) | with_reducible apply iz2_kept | with_reducible apply keptX_next | with_reducible exact keptX_fault | split | dsimp only)

theorem execIzClmul_kept {x0 : Nat} {x1 : State} (h1 : Kept q k x1) : KeptX q k (execIzClmul x0 x1) := by
  unfold execIzClmul
  repeat' (first | with_reducible assumption | (intro) | with_reducible apply iz2_kept | with_reducible apply keptX_next | with_reducible exact keptX_fault | split | dsimp only)

theorem execIzClmulh_kept {x0 : Nat} {x1 : State} (h1 : Kept q k x1) : KeptX q k (execIzClmulh x0 x1) := by
  unfold execIzClmulh
  repeat' (first | with_reducible assumption | (intro) | with_reducible apply iz2_kept | with_reducible apply keptX_next | with_reducible exact keptX_fault | split | dsimp only)

end Sys2Proof.Machine
end

