-- ==== Sys2Proof/Laws/KeptIzMem.lean ====
section
/-!
SUPPORT. What the operations of Machine/IzMem.lean keep (`Kept`).
-/
namespace Sys2Proof.Machine

set_option linter.all false

variable {q : List Instr} {k : W64}

theorem izLd_kept {x0 : Nat} {x1 : Nat} {x2 : Bool} {x3 : State} (h3 : Kept q k x3) : KeptX q k (izLd x0 x1 x2 x3) := by
  unfold izLd
  repeat' (first | with_reducible assumption | (intro) | with_reducible apply izRun_kept | with_reducible apply izPop1_kept | with_reducible apply izLoad_kept | with_reducible apply keptX_next | with_reducible exact keptX_fault | with_reducible apply keptZ_go | with_reducible apply keptZ_done | with_reducible apply keptZ_trap | with_reducible exact keptZ_stall | with_reducible exact keptZ_undef | with_reducible apply keptX_ite | with_reducible apply kept_ite | with_reducible apply keptZ_ite | split | dsimp only)

theorem izSt_kept {x0 : Nat} {x1 : Nat} {x2 : State} (h2 : Kept q k x2) : KeptX q k (izSt x0 x1 x2) := by
  unfold izSt
  repeat' (first | with_reducible assumption | (intro) | with_reducible apply izRun_kept | with_reducible apply izPop2_kept | with_reducible apply winPost_kept | (with_reducible refine winPost_keptE (by assumption) ?_) | with_reducible apply keptX_next | with_reducible exact keptX_fault | with_reducible apply keptZ_go | with_reducible apply keptZ_done | with_reducible apply keptZ_trap | with_reducible exact keptZ_stall | with_reducible exact keptZ_undef | with_reducible apply keptX_ite | with_reducible apply kept_ite | with_reducible apply keptZ_ite | simp only [kept_upd] | split | dsimp only)

theorem execIzLd8_kept {x0 : Nat} {x1 : State} (h1 : Kept q k x1) : KeptX q k (execIzLd8 x0 x1) := by
  unfold execIzLd8
  repeat' (first | with_reducible assumption | (intro) | with_reducible apply izLd_kept | with_reducible apply keptX_next | with_reducible exact keptX_fault | split | dsimp only)

theorem execIzLd16_kept {x0 : Nat} {x1 : State} (h1 : Kept q k x1) : KeptX q k (execIzLd16 x0 x1) := by
  unfold execIzLd16
  repeat' (first | with_reducible assumption | (intro) | with_reducible apply izLd_kept | with_reducible apply keptX_next | with_reducible exact keptX_fault | split | dsimp only)

theorem execIzLd32_kept {x0 : Nat} {x1 : State} (h1 : Kept q k x1) : KeptX q k (execIzLd32 x0 x1) := by
  unfold execIzLd32
  repeat' (first | with_reducible assumption | (intro) | with_reducible apply izLd_kept | with_reducible apply keptX_next | with_reducible exact keptX_fault | split | dsimp only)

theorem execIzLd64_kept {x0 : Nat} {x1 : State} (h1 : Kept q k x1) : KeptX q k (execIzLd64 x0 x1) := by
  unfold execIzLd64
  repeat' (first | with_reducible assumption | (intro) | with_reducible apply izLd_kept | with_reducible apply keptX_next | with_reducible exact keptX_fault | split | dsimp only)

theorem execIzLds8_kept {x0 : Nat} {x1 : State} (h1 : Kept q k x1) : KeptX q k (execIzLds8 x0 x1) := by
  unfold execIzLds8
  repeat' (first | with_reducible assumption | (intro) | with_reducible apply izLd_kept | with_reducible apply keptX_next | with_reducible exact keptX_fault | split | dsimp only)

theorem execIzLds16_kept {x0 : Nat} {x1 : State} (h1 : Kept q k x1) : KeptX q k (execIzLds16 x0 x1) := by
  unfold execIzLds16
  repeat' (first | with_reducible assumption | (intro) | with_reducible apply izLd_kept | with_reducible apply keptX_next | with_reducible exact keptX_fault | split | dsimp only)

theorem execIzLds32_kept {x0 : Nat} {x1 : State} (h1 : Kept q k x1) : KeptX q k (execIzLds32 x0 x1) := by
  unfold execIzLds32
  repeat' (first | with_reducible assumption | (intro) | with_reducible apply izLd_kept | with_reducible apply keptX_next | with_reducible exact keptX_fault | split | dsimp only)

theorem execIzSt8_kept {x0 : Nat} {x1 : State} (h1 : Kept q k x1) : KeptX q k (execIzSt8 x0 x1) := by
  unfold execIzSt8
  repeat' (first | with_reducible assumption | (intro) | with_reducible apply izSt_kept | with_reducible apply keptX_next | with_reducible exact keptX_fault | split | dsimp only)

theorem execIzSt16_kept {x0 : Nat} {x1 : State} (h1 : Kept q k x1) : KeptX q k (execIzSt16 x0 x1) := by
  unfold execIzSt16
  repeat' (first | with_reducible assumption | (intro) | with_reducible apply izSt_kept | with_reducible apply keptX_next | with_reducible exact keptX_fault | split | dsimp only)

theorem execIzSt32_kept {x0 : Nat} {x1 : State} (h1 : Kept q k x1) : KeptX q k (execIzSt32 x0 x1) := by
  unfold execIzSt32
  repeat' (first | with_reducible assumption | (intro) | with_reducible apply izSt_kept | with_reducible apply keptX_next | with_reducible exact keptX_fault | split | dsimp only)

theorem execIzSt64_kept {x0 : Nat} {x1 : State} (h1 : Kept q k x1) : KeptX q k (execIzSt64 x0 x1) := by
  unfold execIzSt64
  repeat' (first | with_reducible assumption | (intro) | with_reducible apply izSt_kept | with_reducible apply keptX_next | with_reducible exact keptX_fault | split | dsimp only)

theorem izAtomic_kept {x0 : Task} {x1 : Nat} {x2 : W64 → Option W64} {x3 : State} (h3 : Kept q k x3) : KeptZ q k (izAtomic x0 x1 x2 x3) := by
  unfold izAtomic
  repeat' (first | with_reducible assumption | (intro) | with_reducible apply izLoad_kept | with_reducible apply winWrite_kept | (with_reducible refine winWrite_keptE (by assumption) ?_) | with_reducible apply keptZ_go | with_reducible apply keptZ_done | with_reducible apply keptZ_trap | with_reducible exact keptZ_stall | with_reducible exact keptZ_undef | with_reducible apply keptZ_ite | with_reducible apply kept_ite | simp only [kept_upd] | split | dsimp only)

theorem execIzAadd_kept {x0 : Nat} {x1 : State} (h1 : Kept q k x1) : KeptX q k (execIzAadd x0 x1) := by
  unfold execIzAadd
  repeat' (first | with_reducible assumption | (intro) | with_reducible apply izRun_kept | with_reducible apply izPop2_kept | with_reducible apply izAtomic_kept | with_reducible apply keptX_next | with_reducible exact keptX_fault | with_reducible apply keptZ_go | with_reducible apply keptZ_done | with_reducible apply keptZ_trap | with_reducible exact keptZ_stall | with_reducible exact keptZ_undef | split | dsimp only)

theorem execIzCas_kept {x0 : Nat} {x1 : State} (h1 : Kept q k x1) : KeptX q k (execIzCas x0 x1) := by
  unfold execIzCas
  repeat' (first | with_reducible assumption | (intro) | with_reducible apply izRun_kept | with_reducible apply izPop3_kept | with_reducible apply izAtomic_kept | with_reducible apply keptX_next | with_reducible exact keptX_fault | with_reducible apply keptZ_go | with_reducible apply keptZ_done | with_reducible apply keptZ_trap | with_reducible exact keptZ_stall | with_reducible exact keptZ_undef | with_reducible apply keptX_ite | with_reducible apply kept_ite | with_reducible apply keptZ_ite | split | dsimp only)

theorem execIzColl_kept {x0 : Nat} {x1 : State} (h1 : Kept q k x1) : KeptX q k (execIzColl x0 x1) := by
  unfold execIzColl
  repeat' (first | with_reducible assumption | (intro) | with_reducible apply izRun_kept | with_reducible apply keptX_next | with_reducible exact keptX_fault | with_reducible apply keptZ_go | with_reducible apply keptZ_done | with_reducible apply keptZ_trap | with_reducible exact keptZ_stall | with_reducible exact keptZ_undef | simp only [kept_upd] | split | dsimp only)

theorem copyPieces_kept {x0 : Win} {x1 : Win} {x2 : Nat} {x3 : Nat} {x4 : Nat} {x5 : Nat} {x6 : Task} {x7 : State} (h7 : Kept q k x7) : KeptOP q k (copyPieces x0 x1 x2 x3 x4 x5 x6 x7) := by
  induction x4 generalizing x5 x6 x7 with
  | zero =>
    unfold copyPieces
    repeat' (first | with_reducible assumption | (intro) | with_reducible apply winWrite_kept | (with_reducible refine winWrite_keptE (by assumption) ?_) | with_reducible apply winMet_kept | with_reducible apply keptO_bindS | with_reducible apply keptOP_bindP | with_reducible apply keptO_bind | with_reducible apply keptOP_bind | with_reducible apply keptOP_some | with_reducible exact keptOP_none | simp only [kept_upd] | split | dsimp only)
  | succ n ih =>
    unfold copyPieces
    repeat' (first | with_reducible assumption | (intro) | with_reducible apply winWrite_kept | (with_reducible refine winWrite_keptE (by assumption) ?_) | with_reducible apply winMet_kept | with_reducible apply keptO_bindS | with_reducible apply keptOP_bindP | with_reducible apply keptO_bind | with_reducible apply keptOP_bind | with_reducible apply ih | with_reducible apply keptOP_some | with_reducible exact keptOP_none | simp only [kept_upd] | split | dsimp only)
theorem copyPieces_keptE {x0 : Win} {x1 : Win} {x2 : Nat} {x3 : Nat} {x4 : Nat} {x5 : Nat} {x6 : Task} {x7 : State} {a : Task} {t : State} (e : copyPieces x0 x1 x2 x3 x4 x5 x6 x7 = some (a, t)) (h7 : Kept q k x7) : Kept q k t := by
  have w := copyPieces_kept (q := q) (k := k) (x0 := x0) (x1 := x1) (x2 := x2) (x3 := x3) (x4 := x4) (x5 := x5) (x6 := x6) (x7 := x7) h7
  rw [e] at w; exact w

theorem execIzCopy_kept {x0 : Nat} {x1 : State} (h1 : Kept q k x1) : KeptX q k (execIzCopy x0 x1) := by
  unfold execIzCopy
  repeat' (first | with_reducible assumption | (intro) | with_reducible apply izRun_kept | with_reducible apply izPop3_kept | with_reducible apply freeBytes_kept | (with_reducible refine freeBytes_keptE (by assumption) ?_) | with_reducible apply winWrite_kept | (with_reducible refine winWrite_keptE (by assumption) ?_) | with_reducible apply copyPieces_kept | (with_reducible refine copyPieces_keptE (by assumption) ?_) | with_reducible apply keptX_next | with_reducible exact keptX_fault | with_reducible apply keptZ_go | with_reducible apply keptZ_done | with_reducible apply keptZ_trap | with_reducible exact keptZ_stall | with_reducible exact keptZ_undef | with_reducible apply keptX_ite | with_reducible apply kept_ite | with_reducible apply keptZ_ite | simp only [kept_upd] | split | dsimp only)

theorem execIzFence_kept {x0 : Nat} {x1 : State} (h1 : Kept q k x1) : KeptX q k (execIzFence x0 x1) := by
  unfold execIzFence
  repeat' (first | with_reducible assumption | (intro) | with_reducible apply izRun_kept | with_reducible apply keptX_next | with_reducible exact keptX_fault | with_reducible apply keptZ_go | with_reducible apply keptZ_done | with_reducible apply keptZ_trap | with_reducible exact keptZ_stall | with_reducible exact keptZ_undef | split | dsimp only)

theorem execIzCrc32c_kept {x0 : Nat} {x1 : State} (h1 : Kept q k x1) : KeptX q k (execIzCrc32c x0 x1) := by
  unfold execIzCrc32c
  repeat' (first | with_reducible assumption | (intro) | with_reducible apply izRun_kept | with_reducible apply izPop3_kept | with_reducible apply draw_kept | (with_reducible refine draw_keptE (by assumption) ?_) | with_reducible apply izLoad_kept | with_reducible apply keptX_next | with_reducible exact keptX_fault | with_reducible apply keptZ_go | with_reducible apply keptZ_done | with_reducible apply keptZ_trap | with_reducible exact keptZ_stall | with_reducible exact keptZ_undef | with_reducible apply keptX_ite | with_reducible apply kept_ite | with_reducible apply keptZ_ite | split | dsimp only)

end Sys2Proof.Machine
end

