-- ==== Sys2Proof/Laws/KeptIzTask.lean ====
section
/-!
SUPPORT. What the operations of Machine/IzTask.lean keep (`Kept`).
-/
namespace Sys2Proof.Machine

set_option linter.all false

variable {q : List Instr} {k : W64}

theorem subQueue_kept {x0 : Nat} {x1 : Bytes} {x2 : Back} {x3 : State} (h3 : Kept q k x3) : KeptO q k (subQueue x0 x1 x2 x3) := by
  unfold subQueue
  repeat' (first | with_reducible assumption | (intro) | with_reducible apply regSetFld_kept | with_reducible apply shuMod_kept | with_reducible apply engMod_kept | with_reducible apply memWrite_kept | (with_reducible refine memWrite_keptE (by assumption) ?_) | with_reducible apply keptO_map | with_reducible apply keptOP_map | with_reducible apply keptO_mapP | with_reducible apply keptOP_mapP | with_reducible apply keptO_mapA | with_reducible apply keptOP_mapA | with_reducible apply keptO_some | with_reducible exact keptO_none | with_reducible apply keptO_ite | with_reducible apply kept_ite | simp only [kept_upd] | split | dsimp only)
theorem subQueue_keptE {x0 : Nat} {x1 : Bytes} {x2 : Back} {x3 : State}  {t : State} (e : subQueue x0 x1 x2 x3 = some t) (h3 : Kept q k x3) : Kept q k t := by
  have w := subQueue_kept (q := q) (k := k) (x0 := x0) (x1 := x1) (x2 := x2) (x3 := x3) h3
  rw [e] at w; exact w

theorem submitWith_kept {x0 : Nat} {x1 : Task} {x2 : Nat} {x3 : Nat} {x4 : Win} {x5 : Nat} {x6 : Bytes} {x7 : State} (h7 : Kept q k x7) : KeptZ q k (submitWith x0 x1 x2 x3 x4 x5 x6 x7) := by
  unfold submitWith
  repeat' (first | with_reducible assumption | (intro) | with_reducible apply illegalDma_kept | with_reducible apply subQueue_kept | (with_reducible refine subQueue_keptE (by assumption) ?_) | with_reducible apply taskSet_kept | with_reducible apply taskMod_kept | with_reducible apply kept_getD | with_reducible apply keptP_getD | with_reducible apply keptZ_go | with_reducible apply keptZ_done | with_reducible apply keptZ_trap | with_reducible exact keptZ_stall | with_reducible exact keptZ_undef | with_reducible apply keptZ_ite | with_reducible apply kept_ite | simp only [kept_upd] | split | dsimp only)

theorem execIzSubmit_kept {x0 : Nat} {x1 : State} (h1 : Kept q k x1) : KeptX q k (execIzSubmit x0 x1) := by
  unfold execIzSubmit
  repeat' (first | with_reducible assumption | (intro) | with_reducible apply izRun_kept | with_reducible apply izPop2_kept | with_reducible apply izLoad_kept | with_reducible apply submitWith_kept | with_reducible apply keptX_next | with_reducible exact keptX_fault | with_reducible apply keptZ_go | with_reducible apply keptZ_done | with_reducible apply keptZ_trap | with_reducible exact keptZ_stall | with_reducible exact keptZ_undef | with_reducible apply keptX_ite | with_reducible apply kept_ite | with_reducible apply keptZ_ite | simp only [kept_upd] | split | dsimp only)

theorem execIzWait_kept {x0 : Nat} {x1 : State} (h1 : Kept q k x1) : KeptX q k (execIzWait x0 x1) := by
  unfold execIzWait
  repeat' (first | with_reducible assumption | (intro) | with_reducible apply izRun_kept | with_reducible apply izPop1_kept | with_reducible apply coreIdle_kept | with_reducible apply taskSet_kept | with_reducible apply keptX_next | with_reducible exact keptX_fault | with_reducible apply keptZ_go | with_reducible apply keptZ_done | with_reducible apply keptZ_trap | with_reducible exact keptZ_stall | with_reducible exact keptZ_undef | with_reducible apply keptX_ite | with_reducible apply kept_ite | with_reducible apply keptZ_ite | simp only [kept_upd] | split | dsimp only)

theorem execIzSpawn_kept {x0 : Nat} {x1 : State} (h1 : Kept q k x1) : KeptX q k (execIzSpawn x0 x1) := by
  unfold execIzSpawn
  repeat' (first | with_reducible assumption | (intro) | with_reducible apply izRun_kept | with_reducible apply izPop3_kept | with_reducible apply draw_kept | (with_reducible refine draw_keptE (by assumption) ?_) | with_reducible apply newTask_kept | (with_reducible refine newTask_keptE (by assumption) ?_) | with_reducible apply taskSet_kept | with_reducible apply keptX_next | with_reducible exact keptX_fault | with_reducible apply keptZ_go | with_reducible apply keptZ_done | with_reducible apply keptZ_trap | with_reducible exact keptZ_stall | with_reducible exact keptZ_undef | with_reducible apply keptX_ite | with_reducible apply kept_ite | with_reducible apply keptZ_ite | simp only [kept_upd] | split | dsimp only)

theorem execIzSignal_kept {x0 : Nat} {x1 : State} (h1 : Kept q k x1) : KeptX q k (execIzSignal x0 x1) := by
  unfold execIzSignal
  repeat' (first | with_reducible assumption | (intro) | with_reducible apply izRun_kept | with_reducible apply izPop1_kept | with_reducible apply tryDec_kept | (with_reducible refine tryDec_keptE (by assumption) ?_) | with_reducible apply taskSet_kept | with_reducible apply keptX_next | with_reducible exact keptX_fault | with_reducible apply keptZ_go | with_reducible apply keptZ_done | with_reducible apply keptZ_trap | with_reducible exact keptZ_stall | with_reducible exact keptZ_undef | with_reducible apply keptX_ite | with_reducible apply kept_ite | with_reducible apply keptZ_ite | simp only [kept_upd] | split | dsimp only)

theorem execIzYield_kept {x0 : Nat} {x1 : State} (h1 : Kept q k x1) : KeptX q k (execIzYield x0 x1) := by
  unfold execIzYield
  repeat' (first | with_reducible assumption | (intro) | with_reducible apply izRun_kept | with_reducible apply requeue_kept | with_reducible apply coreIdle_kept | with_reducible apply taskSet_kept | with_reducible apply keptX_next | with_reducible exact keptX_fault | with_reducible apply keptZ_go | with_reducible apply keptZ_done | with_reducible apply keptZ_trap | with_reducible exact keptZ_stall | with_reducible exact keptZ_undef | split | dsimp only)

theorem execIzEnd_kept {x0 : Nat} {x1 : State} (h1 : Kept q k x1) : KeptX q k (execIzEnd x0 x1) := by
  unfold execIzEnd
  repeat' (first | with_reducible assumption | (intro) | with_reducible apply izRun_kept | with_reducible apply taskEnd_kept | with_reducible apply taskSet_kept | with_reducible apply keptX_next | with_reducible exact keptX_fault | with_reducible apply keptZ_go | with_reducible apply keptZ_done | with_reducible apply keptZ_trap | with_reducible exact keptZ_stall | with_reducible exact keptZ_undef | split | dsimp only)

theorem execIzSelf_kept {x0 : Nat} {x1 : State} (h1 : Kept q k x1) : KeptX q k (execIzSelf x0 x1) := by
  unfold execIzSelf
  repeat' (first | with_reducible assumption | (intro) | with_reducible apply iz0_kept | with_reducible apply keptX_next | with_reducible exact keptX_fault | split | dsimp only)

theorem execIzPnow_kept {x0 : Nat} {x1 : State} (h1 : Kept q k x1) : KeptX q k (execIzPnow x0 x1) := by
  unfold execIzPnow
  repeat' (first | with_reducible assumption | (intro) | with_reducible apply iz0_kept | with_reducible apply keptX_next | with_reducible exact keptX_fault | split | dsimp only)

theorem searchDone_kept {x0 : Task} {x1 : Search} {x2 : Win} {x3 : Nat} {x4 : Nat} {x5 : Nat} {x6 : HedRes} {x7 : State} (h7 : Kept q k x7) : KeptZ q k (searchDone x0 x1 x2 x3 x4 x5 x6 x7) := by
  unfold searchDone
  repeat' (first | with_reducible assumption | (intro) | with_reducible apply winPost_kept | (with_reducible refine winPost_keptE (by assumption) ?_) | with_reducible apply keptZ_go | with_reducible apply keptZ_done | with_reducible apply keptZ_trap | with_reducible exact keptZ_stall | with_reducible exact keptZ_undef | with_reducible apply keptZ_ite | with_reducible apply kept_ite | simp only [kept_upd] | split | dsimp only)

theorem execIzHsrch_kept {x0 : Nat} {x1 : State} (h1 : Kept q k x1) : KeptX q k (execIzHsrch x0 x1) := by
  unfold execIzHsrch
  repeat' (first | with_reducible assumption | (intro) | with_reducible apply izRun_kept | with_reducible apply izPop3_kept | with_reducible apply izLoad_kept | with_reducible apply hedSearch_kept | (with_reducible refine hedSearch_keptE (by assumption) ?_) | with_reducible apply searchDone_kept | with_reducible apply keptX_next | with_reducible exact keptX_fault | with_reducible apply keptZ_go | with_reducible apply keptZ_done | with_reducible apply keptZ_trap | with_reducible exact keptZ_stall | with_reducible exact keptZ_undef | with_reducible apply keptX_ite | with_reducible apply kept_ite | with_reducible apply keptZ_ite | simp only [kept_upd] | split | dsimp only)

theorem execIzHsrchm_kept {x0 : Nat} {x1 : State} (h1 : Kept q k x1) : KeptX q k (execIzHsrchm x0 x1) := by
  unfold execIzHsrchm
  repeat' (first | with_reducible assumption | (intro) | with_reducible apply izRun_kept | with_reducible apply izPop4_kept | with_reducible apply izLoad_kept | with_reducible apply hedSearch_kept | (with_reducible refine hedSearch_keptE (by assumption) ?_) | with_reducible apply searchDone_kept | with_reducible apply keptX_next | with_reducible exact keptX_fault | with_reducible apply keptZ_go | with_reducible apply keptZ_done | with_reducible apply keptZ_trap | with_reducible exact keptZ_stall | with_reducible exact keptZ_undef | with_reducible apply keptX_ite | with_reducible apply kept_ite | with_reducible apply keptZ_ite | simp only [kept_upd] | split | dsimp only)

theorem execIzHnext_kept {x0 : Nat} {x1 : State} (h1 : Kept q k x1) : KeptX q k (execIzHnext x0 x1) := by
  unfold execIzHnext
  repeat' (first | with_reducible assumption | (intro) | with_reducible apply izRun_kept | with_reducible apply izPop1_kept | with_reducible apply hedNext_kept | (with_reducible refine hedNext_keptE (by assumption) ?_) | with_reducible apply searchDone_kept | with_reducible apply keptX_next | with_reducible exact keptX_fault | with_reducible apply keptZ_go | with_reducible apply keptZ_done | with_reducible apply keptZ_trap | with_reducible exact keptZ_stall | with_reducible exact keptZ_undef | with_reducible apply keptX_ite | with_reducible apply kept_ite | with_reducible apply keptZ_ite | simp only [kept_upd] | split | dsimp only)

theorem execIzHins_kept {x0 : Nat} {x1 : State} (h1 : Kept q k x1) : KeptX q k (execIzHins x0 x1) := by
  unfold execIzHins
  repeat' (first | with_reducible assumption | (intro) | with_reducible apply izRun_kept | with_reducible apply izPop3_kept | with_reducible apply izLoad_kept | with_reducible apply regAdd_kept | with_reducible apply tileOps_kept | with_reducible apply hedInsert_kept | (with_reducible refine hedInsert_keptE (by assumption) ?_) | with_reducible apply keptX_next | with_reducible exact keptX_fault | with_reducible apply keptZ_go | with_reducible apply keptZ_done | with_reducible apply keptZ_trap | with_reducible exact keptZ_stall | with_reducible exact keptZ_undef | with_reducible apply keptX_ite | with_reducible apply kept_ite | with_reducible apply keptZ_ite | split | dsimp only)

theorem execIzHdel_kept {x0 : Nat} {x1 : State} (h1 : Kept q k x1) : KeptX q k (execIzHdel x0 x1) := by
  unfold execIzHdel
  repeat' (first | with_reducible assumption | (intro) | with_reducible apply izRun_kept | with_reducible apply izPop2_kept | with_reducible apply hedDelete_kept | (with_reducible refine hedDelete_keptE (by assumption) ?_) | with_reducible apply keptX_next | with_reducible exact keptX_fault | with_reducible apply keptZ_go | with_reducible apply keptZ_done | with_reducible apply keptZ_trap | with_reducible exact keptZ_stall | with_reducible exact keptZ_undef | with_reducible apply keptX_ite | with_reducible apply kept_ite | with_reducible apply keptZ_ite | split | dsimp only)

theorem execIzFeat_kept {x0 : Nat} {x1 : Byte} {x2 : State} (h2 : Kept q k x2) : KeptX q k (execIzFeat x0 x1 x2) := by
  unfold execIzFeat
  repeat' (first | with_reducible assumption | (intro) | with_reducible apply izRun_kept | with_reducible apply keptX_next | with_reducible exact keptX_fault | with_reducible apply keptZ_go | with_reducible apply keptZ_done | with_reducible apply keptZ_trap | with_reducible exact keptZ_stall | with_reducible exact keptZ_undef | with_reducible apply keptX_ite | with_reducible apply kept_ite | with_reducible apply keptZ_ite | split | dsimp only)

theorem execIzCore_kept {x0 : Nat} {x1 : State} (h1 : Kept q k x1) : KeptX q k (execIzCore x0 x1) := by
  unfold execIzCore
  repeat' (first | with_reducible assumption | (intro) | with_reducible apply iz0_kept | with_reducible apply keptX_next | with_reducible exact keptX_fault | split | dsimp only)

theorem execIzFuncn_kept {x0 : Nat} {x1 : State} (h1 : Kept q k x1) : KeptX q k (execIzFuncn x0 x1) := by
  unfold execIzFuncn
  repeat' (first | with_reducible assumption | (intro) | with_reducible apply iz0_kept | with_reducible apply keptX_next | with_reducible exact keptX_fault | with_reducible apply keptX_ite | with_reducible apply kept_ite | split | dsimp only)

theorem execIzEvt_kept {x0 : Nat} {x1 : State} (h1 : Kept q k x1) : KeptX q k (execIzEvt x0 x1) := by
  unfold execIzEvt
  repeat' (first | with_reducible assumption | (intro) | with_reducible apply izRun_kept | with_reducible apply izPop1_kept | with_reducible apply logEvent_kept | with_reducible apply keptX_next | with_reducible exact keptX_fault | with_reducible apply keptZ_go | with_reducible apply keptZ_done | with_reducible apply keptZ_trap | with_reducible exact keptZ_stall | with_reducible exact keptZ_undef | with_reducible apply keptX_ite | with_reducible apply kept_ite | with_reducible apply keptZ_ite | split | dsimp only)

end Sys2Proof.Machine
end

