-- ==== Sys2Proof/Laws/KeptBar.lean ====
section
/-!
SUPPORT. What the operations of Machine/Bar.lean keep (`Kept`).
-/
namespace Sys2Proof.Machine

set_option linter.all false

variable {q : List Instr} {k : W64}

theorem ccWrite_kept {x0 : Nat} {x1 : Nat} {x2 : State} (h2 : Kept q k x2) : Kept q k (ccWrite x0 x1 x2) := by
  unfold ccWrite
  repeat' (first | with_reducible assumption | (intro) | with_reducible apply stateOr_kept | with_reducible apply execCcEnSet_kept | with_reducible apply execCcEnClear_kept | with_reducible apply execNormalShutdown_kept | with_reducible apply execAbruptShutdown_kept | with_reducible apply kept_ite | split | dsimp only)

theorem nvmeWrite_kept {x0 : Nat} {x1 : Nat} {x2 : Nat} {x3 : State} (h3 : Kept q k x3) : Kept q k (nvmeWrite x0 x1 x2 x3) := by
  unfold nvmeWrite
  repeat' (first | with_reducible assumption | (intro) | with_reducible apply fnMod_kept | with_reducible apply ccWrite_kept | with_reducible apply kept_ite | simp only [kept_upd] | split | dsimp only)

theorem msixWrite_kept {x0 : Nat} {x1 : Nat} {x2 : Nat} {x3 : Nat} {x4 : State} (h4 : Kept q k x4) : Kept q k (msixWrite x0 x1 x2 x3 x4) := by
  unfold msixWrite
  repeat' (first | with_reducible assumption | (intro) | with_reducible apply fnSet_kept | with_reducible apply stateOr_kept | with_reducible apply execMsixVectorUnmask_kept | with_reducible apply kept_ite | simp only [kept_upd] | split | dsimp only)

theorem mboxWrite_kept {x0 : Nat} {x1 : Nat} {x2 : State} (h2 : Kept q k x2) : Kept q k (mboxWrite x0 x1 x2) := by
  unfold mboxWrite
  repeat' (first | with_reducible assumption | (intro) | with_reducible apply mboxRun_kept | with_reducible apply cxlMod_kept | with_reducible apply kept_ite | simp only [kept_upd] | split | dsimp only)

end Sys2Proof.Machine
end

