-- ==== Sys2Proof/Laws/KeptWeft.lean ====
section
/-!
SUPPORT. What the operations of Machine/Weft.lean keep (`Kept`).
-/
namespace Sys2Proof.Machine

set_option linter.all false

variable {q : List Instr} {k : W64}

theorem pageCtl_kept {x0 : Nat} {x1 : Nat} {x2 : State} (h2 : Kept q k x2) : Kept q k (pageCtl x0 x1 x2) := by
  unfold pageCtl
  extract_lets s1 s2
  have k_s1 : Kept q k s1 := by
    dsimp only [s1]
    repeat' (first | with_reducible assumption | (intro) | with_reducible apply regSetFld_kept | with_reducible apply selvReq_kept | with_reducible apply softStart_kept | with_reducible apply kept_ite | split | dsimp only)
  clear_value s1
  have k_s2 : Kept q k s2 := by
    dsimp only [s2]
    repeat' (first | with_reducible assumption | (intro) | with_reducible apply regSetFld_kept | with_reducible apply selvReq_kept | with_reducible apply softStart_kept | with_reducible apply kept_ite | split | dsimp only)
  clear_value s2
  repeat' (first | with_reducible assumption | (intro) | with_reducible apply regSetFld_kept | with_reducible apply selvReq_kept | with_reducible apply softStart_kept | with_reducible apply kept_ite | split | dsimp only)

theorem errMaskWrite_kept {x0 : Nat} {x1 : Nat} {x2 : State} (h2 : Kept q k x2) : Kept q k (errMaskWrite x0 x1 x2) := by
  unfold errMaskWrite
  repeat' (first | with_reducible assumption | (intro) | with_reducible apply regSet_kept | with_reducible apply irqCause_kept | with_reducible apply kept_ite | split | dsimp only)

theorem irqMaskWrite_kept {x0 : Nat} {x1 : Nat} {x2 : State} (h2 : Kept q k x2) : Kept q k (irqMaskWrite x0 x1 x2) := by
  unfold irqMaskWrite
  repeat' (first | with_reducible assumption | (intro) | with_reducible apply regSet_kept | with_reducible apply irqMessage_kept | with_reducible apply kept_ite | split | dsimp only)

theorem plainWrite_kept {x0 : Nat} {x1 : Nat} {x2 : Nat} {x3 : Nat} {x4 : State} (h4 : Kept q k x4) : Kept q k (plainWrite x0 x1 x2 x3 x4) := by
  unfold plainWrite
  repeat' (first | with_reducible assumption | (intro) | with_reducible apply regSet_kept | with_reducible apply mergeRw_kept | (with_reducible refine mergeRw_keptE (by assumption) ?_) | with_reducible apply kept_ite | simp only [kept_upd] | split | dsimp only)

theorem headWrite_kept {x0 : Nat} {x1 : Nat} {x2 : Nat} {x3 : State} (h3 : Kept q k x3) : Kept q k (headWrite x0 x1 x2 x3) := by
  unfold headWrite
  repeat' (first | with_reducible assumption | (intro) | with_reducible apply pageCtl_kept | with_reducible apply errClear_kept | with_reducible apply errMaskWrite_kept | with_reducible apply irqClear_kept | with_reducible apply irqMaskWrite_kept | with_reducible apply snapPage_kept | with_reducible apply plainWrite_kept | with_reducible apply kept_ite | simp only [kept_upd] | split | dsimp only)

theorem blockWrite_kept {x0 : PageId} {x1 : Nat} {x2 : Nat} {x3 : State} (h3 : Kept q k x3) : KeptO q k (blockWrite x0 x1 x2 x3) := by
  unfold blockWrite
  repeat' (first | with_reducible assumption | (intro) | with_reducible apply snapAll_kept | with_reducible apply logIndex_kept | with_reducible apply weightWrite_kept | with_reducible apply skewClear_kept | with_reducible apply regionWrite_kept | with_reducible apply trainFull_kept | with_reducible apply pfDrill_kept | with_reducible apply mapcWrite_kept | with_reducible apply spareCheck_kept | with_reducible apply plainWrite_kept | with_reducible apply shuTail_kept | with_reducible apply shuCtl_kept | with_reducible apply softLine_kept | with_reducible apply engTail_kept | with_reducible apply engCtl_kept | with_reducible apply grpCfgWrite_kept | with_reducible apply grpCtlWrite_kept | with_reducible apply decTask_kept | with_reducible apply itnQuery_kept | with_reducible apply fetchCtl_kept | with_reducible apply killRuns_kept | with_reducible apply linkCtl_kept | with_reducible apply rstCtl_kept | with_reducible apply bootOk_kept | with_reducible apply keptO_some | with_reducible exact keptO_none | with_reducible apply keptO_ite | with_reducible apply kept_ite | simp only [kept_upd] | split | dsimp only)
theorem blockWrite_keptE {x0 : PageId} {x1 : Nat} {x2 : Nat} {x3 : State}  {t : State} (e : blockWrite x0 x1 x2 x3 = some t) (h3 : Kept q k x3) : Kept q k t := by
  have w := blockWrite_kept (q := q) (k := k) (x0 := x0) (x1 := x1) (x2 := x2) (x3 := x3) h3
  rw [e] at w; exact w

theorem regWrite_kept {x0 : Nat} {x1 : Nat} {x2 : Nat} {x3 : Nat} {x4 : State} (h4 : Kept q k x4) : Kept q k (regWrite x0 x1 x2 x3 x4) := by
  unfold regWrite
  repeat' (first | with_reducible assumption | (intro) | with_reducible apply headWrite_kept | with_reducible apply lineCfgWrite_kept | with_reducible apply blockWrite_kept | (with_reducible refine blockWrite_keptE (by assumption) ?_) | with_reducible apply plainWrite_kept | with_reducible apply kept_getD | with_reducible apply keptP_getD | with_reducible apply kept_ite | simp only [kept_upd] | split | dsimp only)

theorem wordWrite_kept {x0 : Nat} {x1 : Nat} {x2 : State} (h2 : Kept q k x2) : Kept q k (wordWrite x0 x1 x2) := by
  unfold wordWrite
  repeat' (first | with_reducible assumption | (intro) | with_reducible apply regWrite_kept | with_reducible apply kept_ite | simp only [kept_upd] | split | dsimp only)

theorem accTimeout_kept {x0 : State} (h0 : Kept q k x0) : Kept q k (accTimeout x0) := by
  unfold accTimeout
  repeat' (first | with_reducible assumption | (intro) | with_reducible apply regAdd32_kept | split | dsimp only)

theorem storeWords_kept {x0 : Master} {x1 : Nat} {x2 : Nat} {x3 : Nat} {x4 : State} (h4 : Kept q k x4) : Kept q k (storeWords x0 x1 x2 x3 x4) := by
  unfold storeWords
  repeat' (first | with_reducible assumption | (intro) | with_reducible apply regWrite_kept | with_reducible apply wordWrite_kept | with_reducible apply note_kept | with_reducible apply kept_ite | simp only [kept_upd] | split | dsimp only)

theorem weftStore_kept {x0 : Master} {x1 : Nat} {x2 : Nat} {x3 : Nat} {x4 : State} (h4 : Kept q k x4) : Kept q k (weftStore x0 x1 x2 x3 x4) := by
  unfold weftStore
  repeat' (first | with_reducible assumption | (intro) | with_reducible apply note_kept | with_reducible apply accTimeout_kept | with_reducible apply storeWords_kept | with_reducible apply kept_ite | simp only [kept_upd] | split | dsimp only)

theorem weftLoad_kept {x0 : Nat} {x1 : Nat} {x2 : State} (h2 : Kept q k x2) : Kept q k ((weftLoad x0 x1 x2)).2 := by
  unfold weftLoad
  repeat' (first | with_reducible assumption | (intro) | with_reducible apply note_kept | with_reducible apply accTimeout_kept | with_reducible apply keptP_ite | with_reducible apply kept_ite | with_reducible apply keptPP_ite | simp only [kept_upd] | split | dsimp only)
theorem weftLoad_keptE {x0 : Nat} {x1 : Nat} {x2 : State} {a : Nat} {t : State} (e : weftLoad x0 x1 x2 = (a, t)) (h2 : Kept q k x2) : Kept q k t := by
  have w := weftLoad_kept (q := q) (k := k) (x0 := x0) (x1 := x1) (x2 := x2) h2
  rw [e] at w; exact w

theorem bar0Write_kept {x0 : Nat} {x1 : Nat} {x2 : Nat} {x3 : Nat} {x4 : State} (h4 : Kept q k x4) : Kept q k (bar0Write x0 x1 x2 x3 x4) := by
  unfold bar0Write
  repeat' (first | with_reducible assumption | (intro) | with_reducible apply weftStore_kept | with_reducible apply nvmeWrite_kept | with_reducible apply doorbell_kept | with_reducible apply msixWrite_kept | with_reducible apply mboxWrite_kept | with_reducible apply msix_kept | with_reducible apply kept_ite | simp only [kept_upd] | split | dsimp only)

theorem execRegisterWrite_kept {x0 : Nat} {x1 : Nat} {x2 : Nat} {x3 : Nat} {x4 : W64} {x5 : State} (h5 : Kept q k x5) : KeptX q k (execRegisterWrite x0 x1 x2 x3 x4 x5) := by
  unfold execRegisterWrite
  repeat' (first | with_reducible assumption | (intro) | with_reducible apply weftStore_kept | with_reducible apply bar0Write_kept | with_reducible apply keptX_next | with_reducible exact keptX_fault | with_reducible apply keptX_ite | with_reducible apply kept_ite | simp only [kept_upd] | split | dsimp only)

theorem weftClk_kept {x0 : Nat} {x1 : State} (h1 : Kept q k x1) : Kept q k ((weftClk x0 x1)).2 := by
  unfold weftClk
  repeat' (first | with_reducible assumption | (intro) | with_reducible apply draw_kept | (with_reducible refine draw_keptE (by assumption) ?_) | with_reducible apply keptP_ite | with_reducible apply kept_ite | with_reducible apply keptPP_ite | simp only [kept_upd] | split | dsimp only)
theorem weftClk_keptE {x0 : Nat} {x1 : State} {a : Nat} {t : State} (e : weftClk x0 x1 = (a, t)) (h1 : Kept q k x1) : Kept q k t := by
  have w := weftClk_kept (q := q) (k := k) (x0 := x0) (x1 := x1) h1
  rw [e] at w; exact w

theorem izWeftLoad_kept {x0 : Nat} {x1 : Nat} {x2 : State} (h2 : Kept q k x2) : KeptX q k (izWeftLoad x0 x1 x2) := by
  unfold izWeftLoad
  repeat' (first | with_reducible assumption | (intro) | with_reducible apply izRun_kept | with_reducible apply izPop1_kept | with_reducible apply weftLoad_kept | (with_reducible refine weftLoad_keptE (by assumption) ?_) | with_reducible apply weftClk_kept | (with_reducible refine weftClk_keptE (by assumption) ?_) | with_reducible apply keptX_next | with_reducible exact keptX_fault | with_reducible apply keptZ_go | with_reducible apply keptZ_done | with_reducible apply keptZ_trap | with_reducible exact keptZ_stall | with_reducible exact keptZ_undef | with_reducible apply keptX_ite | with_reducible apply kept_ite | with_reducible apply keptZ_ite | split | dsimp only)

theorem izWeftStore_kept {x0 : Nat} {x1 : Nat} {x2 : State} (h2 : Kept q k x2) : KeptX q k (izWeftStore x0 x1 x2) := by
  unfold izWeftStore
  repeat' (first | with_reducible assumption | (intro) | with_reducible apply izRun_kept | with_reducible apply izPop2_kept | with_reducible apply weftStore_kept | with_reducible apply taskSet_kept | with_reducible apply keptX_next | with_reducible exact keptX_fault | with_reducible apply keptZ_go | with_reducible apply keptZ_done | with_reducible apply keptZ_trap | with_reducible exact keptZ_stall | with_reducible exact keptZ_undef | with_reducible apply keptX_ite | with_reducible apply kept_ite | with_reducible apply keptZ_ite | split | dsimp only)

theorem execIzWld_kept {x0 : Nat} {x1 : State} (h1 : Kept q k x1) : KeptX q k (execIzWld x0 x1) := by
  unfold execIzWld
  repeat' (first | with_reducible assumption | (intro) | with_reducible apply izWeftLoad_kept | with_reducible apply keptX_next | with_reducible exact keptX_fault | split | dsimp only)

theorem execIzWst_kept {x0 : Nat} {x1 : State} (h1 : Kept q k x1) : KeptX q k (execIzWst x0 x1) := by
  unfold execIzWst
  repeat' (first | with_reducible assumption | (intro) | with_reducible apply izWeftStore_kept | with_reducible apply keptX_next | with_reducible exact keptX_fault | split | dsimp only)

theorem execIzWld64_kept {x0 : Nat} {x1 : State} (h1 : Kept q k x1) : KeptX q k (execIzWld64 x0 x1) := by
  unfold execIzWld64
  repeat' (first | with_reducible assumption | (intro) | with_reducible apply izWeftLoad_kept | with_reducible apply keptX_next | with_reducible exact keptX_fault | split | dsimp only)

theorem execIzWst64_kept {x0 : Nat} {x1 : State} (h1 : Kept q k x1) : KeptX q k (execIzWst64 x0 x1) := by
  unfold execIzWst64
  repeat' (first | with_reducible assumption | (intro) | with_reducible apply izWeftStore_kept | with_reducible apply keptX_next | with_reducible exact keptX_fault | split | dsimp only)

end Sys2Proof.Machine
end

