-- ==== Sys2Proof/Laws/KeptAll.lean ====
section
/-!
SUPPORT. What every command keeps: the queue and the form of the sparse tables, and what it does to the pick counter.
-/
namespace Sys2Proof.Machine

set_option linter.all false

variable {q : List Instr} {k : W64} {s : State}

/-- The clauses of the invariant are the form of the tables. -/
theorem tabs_of (hc : canonical s = true) (ho : ordered s = true) : Tabs s := by
  simp only [canonical, ordered, Bool.and_eq_true] at hc ho
  constructor <;> simp_all

theorem of_tabs (h : Tabs s) : canonical s = true ∧ ordered s = true := by
  simp only [canonical, ordered, Bool.and_eq_true]
  obtain ⟨⟩ := h
  simp_all

/-- What a command does to the pick counter: PICK_BOUNDARY counts, power-on reset clears, nothing else changes it. -/
def PickX (q : List Instr) (k : W64) (i : Instr) (o : Host.Outcome State Fault Refusal) : Prop :=
  KeptX q k o ∨ ((∃ v, i = .pickBoundary v) ∧ KeptX q (k + 1) o) ∨ (powersOn i = true ∧ KeptX q 0 o)

theorem execSupplyMonitorTrip_pick {r : Nat} (h : Kept q k s) : PickX q k (.supplyMonitorTrip r) (execSupplyMonitorTrip r s) := by
  unfold execSupplyMonitorTrip
  split
  · exact .inl (keptX_next (pfTrigger_kept (bootMod_kept h)))
  · split
    · exact .inr (.inr ⟨by simp_all [powersOn], keptX_next (aonFall_kept h)⟩)
    · exact .inl keptX_fault

theorem exec_kept (h : Kept q k s) (i : Instr) : PickX q k i (exec i s) := by
  cases i with
  | powerOnReset _ => rw [exec_powerOnReset]; exact (execPowerOnReset_kept h).imp id fun w => .inr ⟨rfl, w⟩
  | vddAonLoss => rw [exec_vddAonLoss]; exact .inr (.inr ⟨rfl, execVddAonLoss_kept h⟩)
  | corePllLockLost => rw [exec_corePllLockLost]; exact .inl (execCorePllLockLost_kept h)
  | bootSlotSelect => rw [exec_bootSlotSelect]; exact .inl (execBootSlotSelect_kept h)
  | dieTableValidation _ _ => rw [exec_dieTableValidation]; exact .inl (execDieTableValidation_kept h)
  | channelTraining _ _ => rw [exec_channelTraining]; exact .inl (execChannelTraining_kept h)
  | dramTraining _ _ _ _ => rw [exec_dramTraining]; exact .inl (execDramTraining_kept h)
  | restartIndex _ => rw [exec_restartIndex]; exact .inl (execRestartIndex_kept h)
  | segmentRebuild _ _ => rw [exec_segmentRebuild]; exact .inl (execSegmentRebuild_kept h)
  | pwrfailNAssert _ => rw [exec_pwrfailNAssert]; exact .inl (execPwrfailNAssert_kept h)
  | supplyMonitorTrip _ => rw [exec_supplyMonitorTrip]; exact execSupplyMonitorTrip_pick h
  | latchOpen => rw [exec_latchOpen]; exact .inl (execLatchOpen_kept h)
  | latchClose => rw [exec_latchClose]; exact .inl (execLatchClose_kept h)
  | powerFailAct => rw [exec_powerFailAct]; exact .inl (execPowerFailAct_kept h)
  | sealRing _ => rw [exec_sealRing]; exact .inl (execSeal_kept h)
  | powerRestoredReset => rw [exec_powerRestoredReset]; exact .inl (execPowerRestoredReset_kept h)
  | perstAssert => rw [exec_perstAssert]; exact .inl (execPerstAssert_kept h)
  | linkDown => rw [exec_linkDown]; exact .inl (execLinkDown_kept h)
  | linkUp _ _ _ _ _ => rw [exec_linkUp]; exact .inl (execLinkUp_kept h)
  | linkRecovery _ _ => rw [exec_linkRecovery]; exact .inl (execLinkRecovery_kept h)
  | linkTrainingRetry => rw [exec_linkTrainingRetry]; exact .inl (execLinkTrainingRetry_kept h)
  | cxlMemRead _ => rw [exec_cxlMemRead]; exact .inl (execCxlMemRead_kept h)
  | cxlMemWrite _ _ _ _ => rw [exec_cxlMemWrite]; exact .inl (execCxlMemWrite_kept h)
  | hdmDecoderCommit _ _ _ _ _ => rw [exec_hdmDecoderCommit]; exact .inl (execHdmDecoderCommit_kept h)
  | hostReadCompletion _ _ _ _ => rw [exec_hostReadCompletion]; exact .inl (execHostReadCompletion_kept h)
  | uioWriteCompletion _ _ => rw [exec_uioWriteCompletion]; exact .inl (execUioWriteCompletion_kept h)
  | identifyMemoryDevice => rw [exec_identifyMemoryDevice]; exact .inl (execIdentifyMemoryDevice_kept h)
  | getSupportedLogs => rw [exec_getSupportedLogs]; exact .inl (execGetSupportedLogs_kept h)
  | getLog _ => rw [exec_getLog]; exact .inl (execGetLog_kept h)
  | getEventRecords _ => rw [exec_getEventRecords]; exact .inl (execGetEventRecords_kept h)
  | clearEventRecords _ => rw [exec_clearEventRecords]; exact .inl (execClearEventRecords_kept h)
  | getEventInterruptPolicy => rw [exec_getEventInterruptPolicy]; exact .inl (execGetEventInterruptPolicy_kept h)
  | setEventInterruptPolicy _ => rw [exec_setEventInterruptPolicy]; exact .inl (execSetEventInterruptPolicy_kept h)
  | getTimestamp => rw [exec_getTimestamp]; exact .inl (execGetTimestamp_kept h)
  | setTimestamp _ => rw [exec_setTimestamp]; exact .inl (execSetTimestamp_kept h)
  | doeDiscovery _ => rw [exec_doeDiscovery]; exact .inl (execDoeDiscovery_kept h)
  | cdatTableAccess _ => rw [exec_cdatTableAccess]; exact .inl (execCdatTableAccess_kept h)
  | doeAbort => rw [exec_doeAbort]; exact .inl (execDoeAbort_kept h)
  | doorbellWrite _ _ _ _ => rw [exec_doorbellWrite]; exact .inl (execDoorbellWrite_kept h)
  | ccEnClear _ => rw [exec_ccEnClear]; exact .inl (execCcEnClear_kept h)
  | ccEnSet _ _ _ _ _ => rw [exec_ccEnSet]; exact .inl (execCcEnSet_kept h)
  | normalShutdown _ => rw [exec_normalShutdown]; exact .inl (execNormalShutdown_kept h)
  | abruptShutdown _ => rw [exec_abruptShutdown]; exact .inl (execAbruptShutdown_kept h)
  | flr _ => rw [exec_flr]; exact .inl (execFlr_kept h)
  | vfEnableClear => rw [exec_vfEnableClear]; exact .inl (execVfEnableClear_kept h)
  | busMasterEnableClear _ => rw [exec_busMasterEnableClear]; exact .inl (execBusMasterEnableClear_kept h)
  | busMasterEnableSet _ => rw [exec_busMasterEnableSet]; exact .inl (execBusMasterEnableSet_kept h)
  | memorySpaceEnableClear _ => rw [exec_memorySpaceEnableClear]; exact .inl (execMemorySpaceEnableClear_kept h)
  | sqeFetch _ _ => rw [exec_sqeFetch]; exact .inl (execSqeFetch_kept h)
  | createIoSq _ => rw [exec_createIoSq]; exact .inl (execCreateIoSq_kept h)
  | createIoCq _ => rw [exec_createIoCq]; exact .inl (execCreateIoCq_kept h)
  | deleteIoSq _ => rw [exec_deleteIoSq]; exact .inl (execDeleteIoSq_kept h)
  | deleteIoCq _ => rw [exec_deleteIoCq]; exact .inl (execDeleteIoCq_kept h)
  | getLogPage _ => rw [exec_getLogPage]; exact .inl (execGetLogPage_kept h)
  | identify _ => rw [exec_identify]; exact .inl (execIdentify_kept h)
  | abort _ => rw [exec_abort]; exact .inl (execAbort_kept h)
  | setFeatures _ => rw [exec_setFeatures]; exact .inl (execSetFeatures_kept h)
  | getFeatures _ => rw [exec_getFeatures]; exact .inl (execGetFeatures_kept h)
  | asynchronousEventRequest _ => rw [exec_asynchronousEventRequest]; exact .inl (execAsynchronousEventRequest_kept h)
  | namespaceCreate _ => rw [exec_namespaceCreate]; exact .inl (execNamespaceCreate_kept h)
  | namespaceDelete _ => rw [exec_namespaceDelete]; exact .inl (execNamespaceDelete_kept h)
  | namespaceAttachment _ => rw [exec_namespaceAttachment]; exact .inl (execNamespaceAttachment_kept h)
  | firmwareImageDownload _ => rw [exec_firmwareImageDownload]; exact .inl (execFirmwareImageDownload_kept h)
  | firmwareCommitActivate _ => rw [exec_firmwareCommitActivate]; exact .inl (execFirmwareCommitActivate_kept h)
  | firmwareCommitAtReset _ => rw [exec_firmwareCommitAtReset]; exact .inl (execFirmwareCommitAtReset_kept h)
  | activationDrainEnd => rw [exec_activationDrainEnd]; exact .inl (execActivationDrainEnd_kept h)
  | activationEnd _ => rw [exec_activationEnd]; exact .inl (execActivationEnd_kept h)
  | activationDrainLimit => rw [exec_activationDrainLimit]; exact .inl (execActivationDrainLimit_kept h)
  | deviceSelfTestShort _ => rw [exec_deviceSelfTestShort]; exact .inl (execDeviceSelfTestShort_kept h)
  | deviceSelfTestExtended _ => rw [exec_deviceSelfTestExtended]; exact .inl (execDeviceSelfTestExtended_kept h)
  | deviceSelfTestAbort _ => rw [exec_deviceSelfTestAbort]; exact .inl (execDeviceSelfTestAbort_kept h)
  | selfTestStep _ => rw [exec_selfTestStep]; exact .inl (execSelfTestStep_kept h)
  | virtualizationManagement _ => rw [exec_virtualizationManagement]; exact .inl (execVirtualizationManagement_kept h)
  | formatNvm _ => rw [exec_formatNvm]; exact .inl (execFormatNvm_kept h)
  | sanitize _ => rw [exec_sanitize]; exact .inl (execSanitize_kept h)
  | read _ => rw [exec_read]; exact .inl (execRead_kept h)
  | write _ => rw [exec_write]; exact .inl (execWrite_kept h)
  | flush _ => rw [exec_flush]; exact .inl (execFlush_kept h)
  | datasetManagement _ => rw [exec_datasetManagement]; exact .inl (execDatasetManagement_kept h)
  | arm _ => rw [exec_arm]; exact .inl (execArm_kept h)
  | lockoutEnd _ => rw [exec_lockoutEnd]; exact .inl (execLockoutEnd_kept h)
  | setPortion _ => rw [exec_setPortion]; exact .inl (execSetPortion_kept h)
  | getPortion _ => rw [exec_getPortion]; exact .inl (execGetPortion_kept h)
  | loadProgram _ => rw [exec_loadProgram]; exact .inl (execLoadProgram_kept h)
  | partialLoadDiscard _ _ => rw [exec_partialLoadDiscard]; exact .inl (execPartialLoadDiscard_kept h)
  | unloadProgram _ => rw [exec_unloadProgram]; exact .inl (execUnloadProgram_kept h)
  | runProgram _ => rw [exec_runProgram]; exact .inl (execRunProgram_kept h)
  | runResourceAcquire _ => rw [exec_runResourceAcquire]; exact .inl (execRunResourceAcquire_kept h)
  | runEntryTaskCreate _ => rw [exec_runEntryTaskCreate]; exact .inl (execRunEntryTaskCreate_kept h)
  | runEnd _ => rw [exec_runEnd]; exact .inl (execRunEnd_kept h)
  | runTimeout _ => rw [exec_runTimeout]; exact .inl (execRunTimeout_kept h)
  | keyLoad _ => rw [exec_keyLoad]; exact .inl (execKeyLoad_kept h)
  | keyErase _ => rw [exec_keyErase]; exact .inl (execKeyErase_kept h)
  | partyJoinFound _ => rw [exec_partyJoinFound]; exact .inl (execPartyJoinFound_kept h)
  | partyJoin _ => rw [exec_partyJoin]; exact .inl (execPartyJoin_kept h)
  | joinTimeout => rw [exec_joinTimeout]; exact .inl (execJoinTimeout_kept h)
  | partyLeave _ => rw [exec_partyLeave]; exact .inl (execPartyLeave_kept h)
  | leaveTimeout => rw [exec_leaveTimeout]; exact .inl (execLeaveTimeout_kept h)
  | partyStatus _ => rw [exec_partyStatus]; exact .inl (execPartyStatus_kept h)
  | logSwapStart _ => rw [exec_logSwapStart]; exact .inl (execLogSwapStart_kept h)
  | logSwapSwap _ => rw [exec_logSwapSwap]; exact .inl (execLogSwapSwap_kept h)
  | logSwapStop _ => rw [exec_logSwapStop]; exact .inl (execLogSwapStop_kept h)
  | dirtyLineWrite _ _ => rw [exec_dirtyLineWrite]; exact .inl (execDirtyLineWrite_kept h)
  | fuseRepair _ => rw [exec_fuseRepair]; exact .inl (execFuseRepair_kept h)
  | compressWrite _ => rw [exec_compressWrite]; exact .inl (execCompressWrite_kept h)
  | decompressRead _ => rw [exec_decompressRead]; exact .inl (execDecompressRead_kept h)
  | scanRead _ => rw [exec_scanRead]; exact .inl (execScanRead_kept h)
  | digestRead _ => rw [exec_digestRead]; exact .inl (execDigestRead_kept h)
  | spreadWrite _ => rw [exec_spreadWrite]; exact .inl (execSpreadWrite_kept h)
  | spreadOpenTimeout _ => rw [exec_spreadOpenTimeout]; exact .inl (execSpreadOpenTimeout_kept h)
  | openStripeTimeout _ => rw [exec_openStripeTimeout]; exact .inl (execOpenStripeTimeout_kept h)
  | shardRead _ => rw [exec_shardRead]; exact .inl (execShardRead_kept h)
  | mendRepair _ => rw [exec_mendRepair]; exact .inl (execMendRepair_kept h)
  | mendVerify _ => rw [exec_mendVerify]; exact .inl (execMendVerify_kept h)
  | mendDrop _ => rw [exec_mendDrop]; exact .inl (execMendDrop_kept h)
  | writeClaim _ => rw [exec_writeClaim]; exact .inl (execWriteClaim_kept h)
  | stagingUnitComplete _ => rw [exec_stagingUnitComplete]; exact .inl (execStagingUnitComplete_kept h)
  | journalWordDurable _ => rw [exec_journalWordDurable]; exact .inl (execJournalWordDurable_kept h)
  | checkpointStart _ => rw [exec_checkpointStart]; exact .inl (execCheckpointStart_kept h)
  | ctrlFieldFold => rw [exec_ctrlFieldFold]; exact .inl (execCtrlFieldFold_kept h)
  | unitProgramStart _ => rw [exec_unitProgramStart]; exact .inl (execUnitProgramStart_kept h)
  | flashReadDone _ _ _ => rw [exec_flashReadDone]; exact .inl (execFlashReadDone_kept h)
  | flashProgramDone _ _ _ => rw [exec_flashProgramDone]; exact .inl (execFlashProgramDone_kept h)
  | flashEraseDone _ _ _ _ => rw [exec_flashEraseDone]; exact .inl (execFlashEraseDone_kept h)
  | dieReadyTimeout _ _ => rw [exec_dieReadyTimeout]; exact .inl (execDieReadyTimeout_kept h)
  | dieRebuild _ => rw [exec_dieRebuild]; exact .inl (execDieRebuild_kept h)
  | fold _ => rw [exec_fold]; exact .inl (execFold_kept h)
  | garbageCollection => rw [exec_garbageCollection]; exact .inl (execGarbageCollection_kept h)
  | refresh _ => rw [exec_refresh]; exact .inl (execRefresh_kept h)
  | staticWearLevelling => rw [exec_staticWearLevelling]; exact .inl (execStaticWearLevelling_kept h)
  | patrolRead => rw [exec_patrolRead]; exact .inl (execPatrolRead_kept h)
  | dumpStandbyErase => rw [exec_dumpStandbyErase]; exact .inl (execDumpStandbyErase_kept h)
  | slcTargetUpdate => rw [exec_slcTargetUpdate]; exact .inl (execSlcTargetUpdate_kept h)
  | dieTemperatureRead _ _ => rw [exec_dieTemperatureRead]; exact .inl (execDieTemperatureRead_kept h)
  | pickBoundary _ => rw [exec_pickBoundary]; exact (execPickBoundary_kept h).imp id fun w => .inl ⟨⟨_, rfl⟩, w⟩
  | pickDistributionFailure => rw [exec_pickDistributionFailure]; exact .inl (execPickDistributionFailure_kept h)
  | activationPreempt _ => rw [exec_activationPreempt]; exact .inl (execActivationPreempt_kept h)
  | coalescingWindowEnd _ _ => rw [exec_coalescingWindowEnd]; exact .inl (execCoalescingWindowEnd_kept h)
  | apstTransition => rw [exec_apstTransition]; exact .inl (execApstTransition_kept h)
  | thermalUpdate _ _ => rw [exec_thermalUpdate]; exact .inl (execThermalUpdate_kept h)
  | hamperScrubStep _ => rw [exec_hamperScrubStep]; exact .inl (execHamperScrubStep_kept h)
  | dramScrubStep _ => rw [exec_dramScrubStep]; exact .inl (execDramScrubStep_kept h)
  | heddleCheck _ _ _ => rw [exec_heddleCheck]; exact .inl (execHeddleCheck_kept h)
  | blockFatalEvent _ _ _ => rw [exec_blockFatalEvent]; exact .inl (execBlockFatalEvent_kept h)
  | deviceFatalEvent _ => rw [exec_deviceFatalEvent]; exact .inl (execDeviceFatalEvent_kept h)
  | fatalReset => rw [exec_fatalReset]; exact .inl (execFatalReset_kept h)
  | deviceReset => rw [exec_deviceReset]; exact .inl (execDeviceReset_kept h)
  | bootWatchdogExpiry => rw [exec_bootWatchdogExpiry]; exact .inl (execBootWatchdogExpiry_kept h)
  | crossingWatchdogExpiry _ _ => rw [exec_crossingWatchdogExpiry]; exact .inl (execCrossingWatchdogExpiry_kept h)
  | branchNotAnswering _ => rw [exec_branchNotAnswering]; exact .inl (execBranchNotAnswering_kept h)
  | serviceButtonRelease _ => rw [exec_serviceButtonRelease]; exact .inl (execServiceButtonRelease_kept h)
  | serviceButtonCancel => rw [exec_serviceButtonCancel]; exact .inl (execServiceButtonCancel_kept h)
  | removalRequest => rw [exec_removalRequest]; exact .inl (execRemovalRequest_kept h)
  | removalDrainLimit => rw [exec_removalDrainLimit]; exact .inl (execRemovalDrainLimit_kept h)
  | removalSeal => rw [exec_removalSeal]; exact .inl (execRemovalSeal_kept h)
  | removalAwayTimeout => rw [exec_removalAwayTimeout]; exact .inl (execRemovalAwayTimeout_kept h)
  | prsntNRise => rw [exec_prsntNRise]; exact .inl (execPrsntNRise_kept h)
  | shuttleDescriptor _ _ _ => rw [exec_shuttleDescriptor]; exact .inl (execShuttleDescriptor_kept h)
  | shuttleDescriptorEnd _ => rw [exec_shuttleDescriptorEnd]; exact .inl (execShuttleDescriptorEnd_kept h)
  | linePost _ _ _ _ => rw [exec_linePost]; exact .inl (execLinePost_kept h)
  | lineRelease _ _ => rw [exec_lineRelease]; exact .inl (execLineRelease_kept h)
  | twillCompress _ => rw [exec_twillCompress]; exact .inl (execTwillCompress_kept h)
  | twillDecompress _ => rw [exec_twillDecompress]; exact .inl (execTwillDecompress_kept h)
  | twillVerify _ => rw [exec_twillVerify]; exact .inl (execTwillVerify_kept h)
  | twillJobEnd _ => rw [exec_twillJobEnd]; exact .inl (execTwillJobEnd_kept h)
  | digestInit _ => rw [exec_digestInit]; exact .inl (execDigestInit_kept h)
  | digestUpdate _ _ => rw [exec_digestUpdate]; exact .inl (execDigestUpdate_kept h)
  | digestFinal _ _ => rw [exec_digestFinal]; exact .inl (execDigestFinal_kept h)
  | digestOneshot _ => rw [exec_digestOneshot]; exact .inl (execDigestOneshot_kept h)
  | digestCompare _ _ => rw [exec_digestCompare]; exact .inl (execDigestCompare_kept h)
  | digestRelease _ => rw [exec_digestRelease]; exact .inl (execDigestRelease_kept h)
  | digestJobEnd _ => rw [exec_digestJobEnd]; exact .inl (execDigestJobEnd_kept h)
  | kckGenerate _ => rw [exec_kckGenerate]; exact .inl (execKckGenerate_kept h)
  | kckVerify _ => rw [exec_kckVerify]; exact .inl (execKckVerify_kept h)
  | kckJobEnd _ => rw [exec_kckJobEnd]; exact .inl (execKckJobEnd_kept h)
  | scanJob _ => rw [exec_scanJob]; exact .inl (execScanJob_kept h)
  | scanJobEnd _ => rw [exec_scanJobEnd]; exact .inl (execScanJobEnd_kept h)
  | menderMac => rw [exec_menderMac]; exact .inl (execMenderMac_kept h)
  | menderJobEnd => rw [exec_menderJobEnd]; exact .inl (execMenderJobEnd_kept h)
  | taskDispatch _ => rw [exec_taskDispatch]; exact .inl (execTaskDispatch_kept h)
  | dependenceDecrement _ => rw [exec_dependenceDecrement]; exact .inl (execDependenceDecrement_kept h)
  | taskAgeing _ => rw [exec_taskAgeing]; exact .inl (execTaskAgeing_kept h)
  | heartbeatSend => rw [exec_heartbeatSend]; exact .inl (execHeartbeatSend_kept h)
  | heartbeat _ => rw [exec_heartbeat]; exact .inl (execHeartbeat_kept h)
  | silentMark _ => rw [exec_silentMark]; exact .inl (execSilentMark_kept h)
  | suspectSend _ => rw [exec_suspectSend]; exact .inl (execSuspectSend_kept h)
  | epochIssue => rw [exec_epochIssue]; exact .inl (execEpochIssue_kept h)
  | lostMemberFree _ => rw [exec_lostMemberFree]; exact .inl (execLostMemberFree_kept h)
  | messageResend _ _ => rw [exec_messageResend]; exact .inl (execMessageResend_kept h)
  | ackSend _ => rw [exec_ackSend]; exact .inl (execAckSend_kept h)
  | capSend => rw [exec_capSend]; exact .inl (execCapSend_kept h)
  | bar4Write _ _ _ => rw [exec_bar4Write]; exact .inl (execBar4Write_kept h)
  | msgAck _ => rw [exec_msgAck]; exact .inl (execMsgAck_kept h)
  | msgChunkNak _ => rw [exec_msgChunkNak]; exact .inl (execMsgChunkNak_kept h)
  | msgJoinReq _ => rw [exec_msgJoinReq]; exact .inl (execMsgJoinReq_kept h)
  | msgJoinNak _ => rw [exec_msgJoinNak]; exact .inl (execMsgJoinNak_kept h)
  | msgEpoch _ => rw [exec_msgEpoch]; exact .inl (execMsgEpoch_kept h)
  | msgSyncReq _ => rw [exec_msgSyncReq]; exact .inl (execMsgSyncReq_kept h)
  | msgRosterPart _ => rw [exec_msgRosterPart]; exact .inl (execMsgRosterPart_kept h)
  | msgSuspect _ => rw [exec_msgSuspect]; exact .inl (execMsgSuspect_kept h)
  | msgRetract _ => rw [exec_msgRetract]; exact .inl (execMsgRetract_kept h)
  | msgAway _ => rw [exec_msgAway]; exact .inl (execMsgAway_kept h)
  | msgBack _ => rw [exec_msgBack]; exact .inl (execMsgBack_kept h)
  | msgLeave _ => rw [exec_msgLeave]; exact .inl (execMsgLeave_kept h)
  | msgDepart _ => rw [exec_msgDepart]; exact .inl (execMsgDepart_kept h)
  | msgCap _ => rw [exec_msgCap]; exact .inl (execMsgCap_kept h)
  | msgSyncHint _ => rw [exec_msgSyncHint]; exact .inl (execMsgSyncHint_kept h)
  | chunkHeaderArrival _ => rw [exec_chunkHeaderArrival]; exact .inl (execChunkHeaderArrival_kept h)
  | msgPlan _ => rw [exec_msgPlan]; exact .inl (execMsgPlan_kept h)
  | msgPlanAck _ => rw [exec_msgPlanAck]; exact .inl (execMsgPlanAck_kept h)
  | msgGrant _ => rw [exec_msgGrant]; exact .inl (execMsgGrant_kept h)
  | msgChunkOk _ => rw [exec_msgChunkOk]; exact .inl (execMsgChunkOk_kept h)
  | msgHopFail _ => rw [exec_msgHopFail]; exact .inl (execMsgHopFail_kept h)
  | msgPlanAbort _ => rw [exec_msgPlanAbort]; exact .inl (execMsgPlanAbort_kept h)
  | msgDigestReq _ => rw [exec_msgDigestReq]; exact .inl (execMsgDigestReq_kept h)
  | msgDigest _ => rw [exec_msgDigest]; exact .inl (execMsgDigest_kept h)
  | msgStripeSet _ => rw [exec_msgStripeSet]; exact .inl (execMsgStripeSet_kept h)
  | msgStripeDrop _ => rw [exec_msgStripeDrop]; exact .inl (execMsgStripeDrop_kept h)
  | msgSpreadOpen _ => rw [exec_msgSpreadOpen]; exact .inl (execMsgSpreadOpen_kept h)
  | msgRecordReq _ => rw [exec_msgRecordReq]; exact .inl (execMsgRecordReq_kept h)
  | msgRecord _ => rw [exec_msgRecord]; exact .inl (execMsgRecord_kept h)
  | relayTimeout _ => rw [exec_relayTimeout]; exact .inl (execRelayTimeout_kept h)
  | softRst _ => rw [exec_softRst]; exact .inl (execSoftRst_kept h)
  | softResetEnd _ _ => rw [exec_softResetEnd]; exact .inl (execSoftResetEnd_kept h)
  | selvReq _ => rw [exec_selvReq]; exact .inl (execSelvReq_kept h)
  | snap _ => rw [exec_snap]; exact .inl (execSnap_kept h)
  | glbSnapAll => rw [exec_glbSnapAll]; exact .inl (execGlbSnapAll_kept h)
  | errStatClear _ _ => rw [exec_errStatClear]; exact .inl (execErrStatClear_kept h)
  | irqStatClear _ _ => rw [exec_irqStatClear]; exact .inl (execIrqStatClear_kept h)
  | weftSkewClr _ => rw [exec_weftSkewClr]; exact .inl (execWeftSkewClr_kept h)
  | rstCtlDevice _ => rw [exec_rstCtlDevice]; exact .inl (execRstCtlDevice_kept h)
  | rstBootOk _ => rw [exec_rstBootOk]; exact .inl (execRstBootOk_kept h)
  | drill _ => rw [exec_drill]; exact .inl (execDrill_kept h)
  | ddrTrainFull _ => rw [exec_ddrTrainFull]; exact .inl (execDdrTrainFull_kept h)
  | retrain _ => rw [exec_retrain]; exact .inl (execRetrain_kept h)
  | qenFetchHold _ => rw [exec_qenFetchHold]; exact .inl (execQenFetchHold_kept h)
  | warpArbWeightWrite _ _ => rw [exec_warpArbWeightWrite]; exact .inl (execWarpArbWeightWrite_kept h)
  | hamperRegionCfg _ _ => rw [exec_hamperRegionCfg]; exact .inl (execHamperRegionCfg_kept h)
  | jnlMapcCfgWrite _ => rw [exec_jnlMapcCfgWrite]; exact .inl (execJnlMapcCfgWrite_kept h)
  | shuTailAdvance _ _ => rw [exec_shuTailAdvance]; exact .inl (execShuTailAdvance_kept h)
  | shuStop _ _ => rw [exec_shuStop]; exact .inl (execShuStop_kept h)
  | shuFlush _ _ => rw [exec_shuFlush]; exact .inl (execShuFlush_kept h)
  | shuLineCfgWrite _ _ => rw [exec_shuLineCfgWrite]; exact .inl (execShuLineCfgWrite_kept h)
  | softwareLinePost _ => rw [exec_softwareLinePost]; exact .inl (execSoftwareLinePost_kept h)
  | softwareLineRelease _ => rw [exec_softwareLineRelease]; exact .inl (execSoftwareLineRelease_kept h)
  | twillTailAdvance _ _ => rw [exec_twillTailAdvance]; exact .inl (execTwillTailAdvance_kept h)
  | twillStop _ _ => rw [exec_twillStop]; exact .inl (execTwillStop_kept h)
  | twillFlush _ _ => rw [exec_twillFlush]; exact .inl (execTwillFlush_kept h)
  | digTailAdvance _ _ => rw [exec_digTailAdvance]; exact .inl (execDigTailAdvance_kept h)
  | digStop _ _ => rw [exec_digStop]; exact .inl (execDigStop_kept h)
  | digFlush _ _ => rw [exec_digFlush]; exact .inl (execDigFlush_kept h)
  | kckTailAdvance _ _ => rw [exec_kckTailAdvance]; exact .inl (execKckTailAdvance_kept h)
  | kckStop _ _ => rw [exec_kckStop]; exact .inl (execKckStop_kept h)
  | kckFlush _ _ => rw [exec_kckFlush]; exact .inl (execKckFlush_kept h)
  | scnTailAdvance _ _ => rw [exec_scnTailAdvance]; exact .inl (execScnTailAdvance_kept h)
  | scnStop _ _ => rw [exec_scnStop]; exact .inl (execScnStop_kept h)
  | scnFlush _ _ => rw [exec_scnFlush]; exact .inl (execScnFlush_kept h)
  | mndTailAdvance _ => rw [exec_mndTailAdvance]; exact .inl (execMndTailAdvance_kept h)
  | mndStop _ => rw [exec_mndStop]; exact .inl (execMndStop_kept h)
  | mndFlush _ => rw [exec_mndFlush]; exact .inl (execMndFlush_kept h)
  | hedGroupCfgWrite _ _ => rw [exec_hedGroupCfgWrite]; exact .inl (execHedGroupCfgWrite_kept h)
  | hedCompactPack _ => rw [exec_hedCompactPack]; exact .inl (execHedCompactPack_kept h)
  | hedCompactSpread _ => rw [exec_hedCompactSpread]; exact .inl (execHedCompactSpread_kept h)
  | hedGroupClear _ => rw [exec_hedGroupClear]; exact .inl (execHedGroupClear_kept h)
  | itnDec _ => rw [exec_itnDec]; exact .inl (execItnDec_kept h)
  | itnQuery _ => rw [exec_itnQuery]; exact .inl (execItnQuery_kept h)
  | glbLogIndex _ => rw [exec_glbLogIndex]; exact .inl (execGlbLogIndex_kept h)
  | killRuns _ _ => rw [exec_killRuns]; exact .inl (execKillRuns_kept h)
  | registerWrite _ _ _ _ _ => rw [exec_registerWrite]; exact .inl (execRegisterWrite_kept h)
  | izNop _ => rw [exec_izNop]; exact .inl (execIzNop_kept h)
  | izLit8 _ _ => rw [exec_izLit8]; exact .inl (execIzLit8_kept h)
  | izLit16 _ _ => rw [exec_izLit16]; exact .inl (execIzLit16_kept h)
  | izLit32 _ _ => rw [exec_izLit32]; exact .inl (execIzLit32_kept h)
  | izLit64 _ _ => rw [exec_izLit64]; exact .inl (execIzLit64_kept h)
  | izDup _ => rw [exec_izDup]; exact .inl (execIzDup_kept h)
  | izDrop _ => rw [exec_izDrop]; exact .inl (execIzDrop_kept h)
  | izSwap _ => rw [exec_izSwap]; exact .inl (execIzSwap_kept h)
  | izOver _ => rw [exec_izOver]; exact .inl (execIzOver_kept h)
  | izRot _ => rw [exec_izRot]; exact .inl (execIzRot_kept h)
  | izNip _ => rw [exec_izNip]; exact .inl (execIzNip_kept h)
  | izTuck _ => rw [exec_izTuck]; exact .inl (execIzTuck_kept h)
  | izNth _ _ => rw [exec_izNth]; exact .inl (execIzNth_kept h)
  | izSetn _ _ => rw [exec_izSetn]; exact .inl (execIzSetn_kept h)
  | izDropn _ _ => rw [exec_izDropn]; exact .inl (execIzDropn_kept h)
  | izDup2 _ => rw [exec_izDup2]; exact .inl (execIzDup2_kept h)
  | izTor _ => rw [exec_izTor]; exact .inl (execIzTor_kept h)
  | izFromr _ => rw [exec_izFromr]; exact .inl (execIzFromr_kept h)
  | izRfetch _ => rw [exec_izRfetch]; exact .inl (execIzRfetch_kept h)
  | izDepth _ => rw [exec_izDepth]; exact .inl (execIzDepth_kept h)
  | izLitw _ _ => rw [exec_izLitw]; exact .inl (execIzLitw_kept h)
  | izAdd _ => rw [exec_izAdd]; exact .inl (execIzAdd_kept h)
  | izSub _ => rw [exec_izSub]; exact .inl (execIzSub_kept h)
  | izMul _ => rw [exec_izMul]; exact .inl (execIzMul_kept h)
  | izMulhu _ => rw [exec_izMulhu]; exact .inl (execIzMulhu_kept h)
  | izMulhs _ => rw [exec_izMulhs]; exact .inl (execIzMulhs_kept h)
  | izDivu _ => rw [exec_izDivu]; exact .inl (execIzDivu_kept h)
  | izRemu _ => rw [exec_izRemu]; exact .inl (execIzRemu_kept h)
  | izDivs _ => rw [exec_izDivs]; exact .inl (execIzDivs_kept h)
  | izRems _ => rw [exec_izRems]; exact .inl (execIzRems_kept h)
  | izNeg _ => rw [exec_izNeg]; exact .inl (execIzNeg_kept h)
  | izAnd _ => rw [exec_izAnd]; exact .inl (execIzAnd_kept h)
  | izOr _ => rw [exec_izOr]; exact .inl (execIzOr_kept h)
  | izXor _ => rw [exec_izXor]; exact .inl (execIzXor_kept h)
  | izNot _ => rw [exec_izNot]; exact .inl (execIzNot_kept h)
  | izShl _ => rw [exec_izShl]; exact .inl (execIzShl_kept h)
  | izShr _ => rw [exec_izShr]; exact .inl (execIzShr_kept h)
  | izSar _ => rw [exec_izSar]; exact .inl (execIzSar_kept h)
  | izRol _ => rw [exec_izRol]; exact .inl (execIzRol_kept h)
  | izRor _ => rw [exec_izRor]; exact .inl (execIzRor_kept h)
  | izAddi _ _ => rw [exec_izAddi]; exact .inl (execIzAddi_kept h)
  | izAddi32 _ _ => rw [exec_izAddi32]; exact .inl (execIzAddi32_kept h)
  | izAndi _ _ => rw [exec_izAndi]; exact .inl (execIzAndi_kept h)
  | izShli _ _ => rw [exec_izShli]; exact .inl (execIzShli_kept h)
  | izShri _ _ => rw [exec_izShri]; exact .inl (execIzShri_kept h)
  | izSari _ _ => rw [exec_izSari]; exact .inl (execIzSari_kept h)
  | izMinu _ => rw [exec_izMinu]; exact .inl (execIzMinu_kept h)
  | izMaxu _ => rw [exec_izMaxu]; exact .inl (execIzMaxu_kept h)
  | izMins _ => rw [exec_izMins]; exact .inl (execIzMins_kept h)
  | izMaxs _ => rw [exec_izMaxs]; exact .inl (execIzMaxs_kept h)
  | izSext _ _ => rw [exec_izSext]; exact .inl (execIzSext_kept h)
  | izZext _ _ => rw [exec_izZext]; exact .inl (execIzZext_kept h)
  | izClz _ => rw [exec_izClz]; exact .inl (execIzClz_kept h)
  | izCtz _ => rw [exec_izCtz]; exact .inl (execIzCtz_kept h)
  | izPopc _ => rw [exec_izPopc]; exact .inl (execIzPopc_kept h)
  | izBfx _ _ => rw [exec_izBfx]; exact .inl (execIzBfx_kept h)
  | izBfxs _ _ => rw [exec_izBfxs]; exact .inl (execIzBfxs_kept h)
  | izBfi _ _ => rw [exec_izBfi]; exact .inl (execIzBfi_kept h)
  | izBperm _ => rw [exec_izBperm]; exact .inl (execIzBperm_kept h)
  | izBswap _ => rw [exec_izBswap]; exact .inl (execIzBswap_kept h)
  | izBfxv _ => rw [exec_izBfxv]; exact .inl (execIzBfxv_kept h)
  | izBfiv _ => rw [exec_izBfiv]; exact .inl (execIzBfiv_kept h)
  | izBpermi _ _ => rw [exec_izBpermi]; exact .inl (execIzBpermi_kept h)
  | izEq _ => rw [exec_izEq]; exact .inl (execIzEq_kept h)
  | izNe _ => rw [exec_izNe]; exact .inl (execIzNe_kept h)
  | izLtu _ => rw [exec_izLtu]; exact .inl (execIzLtu_kept h)
  | izLeu _ => rw [exec_izLeu]; exact .inl (execIzLeu_kept h)
  | izGtu _ => rw [exec_izGtu]; exact .inl (execIzGtu_kept h)
  | izGeu _ => rw [exec_izGeu]; exact .inl (execIzGeu_kept h)
  | izLts _ => rw [exec_izLts]; exact .inl (execIzLts_kept h)
  | izLes _ => rw [exec_izLes]; exact .inl (execIzLes_kept h)
  | izGts _ => rw [exec_izGts]; exact .inl (execIzGts_kept h)
  | izGes _ => rw [exec_izGes]; exact .inl (execIzGes_kept h)
  | izEqz _ => rw [exec_izEqz]; exact .inl (execIzEqz_kept h)
  | izNez _ => rw [exec_izNez]; exact .inl (execIzNez_kept h)
  | izSelect _ => rw [exec_izSelect]; exact .inl (execIzSelect_kept h)
  | izJmp _ _ => rw [exec_izJmp]; exact .inl (execIzJmp_kept h)
  | izJz _ _ => rw [exec_izJz]; exact .inl (execIzJz_kept h)
  | izJnz _ _ => rw [exec_izJnz]; exact .inl (execIzJnz_kept h)
  | izJmpl _ _ => rw [exec_izJmpl]; exact .inl (execIzJmpl_kept h)
  | izJzl _ _ => rw [exec_izJzl]; exact .inl (execIzJzl_kept h)
  | izJnzl _ _ => rw [exec_izJnzl]; exact .inl (execIzJnzl_kept h)
  | izCall _ _ => rw [exec_izCall]; exact .inl (execIzCall_kept h)
  | izRet _ => rw [exec_izRet]; exact .inl (execIzRet_kept h)
  | izLoop _ _ => rw [exec_izLoop]; exact .inl (execIzLoop_kept h)
  | izTrap _ _ => rw [exec_izTrap]; exact .inl (execIzTrap_kept h)
  | izLd8 _ => rw [exec_izLd8]; exact .inl (execIzLd8_kept h)
  | izLd16 _ => rw [exec_izLd16]; exact .inl (execIzLd16_kept h)
  | izLd32 _ => rw [exec_izLd32]; exact .inl (execIzLd32_kept h)
  | izLd64 _ => rw [exec_izLd64]; exact .inl (execIzLd64_kept h)
  | izLds8 _ => rw [exec_izLds8]; exact .inl (execIzLds8_kept h)
  | izLds16 _ => rw [exec_izLds16]; exact .inl (execIzLds16_kept h)
  | izLds32 _ => rw [exec_izLds32]; exact .inl (execIzLds32_kept h)
  | izSt8 _ => rw [exec_izSt8]; exact .inl (execIzSt8_kept h)
  | izSt16 _ => rw [exec_izSt16]; exact .inl (execIzSt16_kept h)
  | izSt32 _ => rw [exec_izSt32]; exact .inl (execIzSt32_kept h)
  | izSt64 _ => rw [exec_izSt64]; exact .inl (execIzSt64_kept h)
  | izAadd _ => rw [exec_izAadd]; exact .inl (execIzAadd_kept h)
  | izCas _ => rw [exec_izCas]; exact .inl (execIzCas_kept h)
  | izColl _ => rw [exec_izColl]; exact .inl (execIzColl_kept h)
  | izCopy _ => rw [exec_izCopy]; exact .inl (execIzCopy_kept h)
  | izFence _ => rw [exec_izFence]; exact .inl (execIzFence_kept h)
  | izSubmit _ => rw [exec_izSubmit]; exact .inl (execIzSubmit_kept h)
  | izWait _ => rw [exec_izWait]; exact .inl (execIzWait_kept h)
  | izSpawn _ => rw [exec_izSpawn]; exact .inl (execIzSpawn_kept h)
  | izSignal _ => rw [exec_izSignal]; exact .inl (execIzSignal_kept h)
  | izYield _ => rw [exec_izYield]; exact .inl (execIzYield_kept h)
  | izEnd _ => rw [exec_izEnd]; exact .inl (execIzEnd_kept h)
  | izSelf _ => rw [exec_izSelf]; exact .inl (execIzSelf_kept h)
  | izPnow _ => rw [exec_izPnow]; exact .inl (execIzPnow_kept h)
  | izHsrch _ => rw [exec_izHsrch]; exact .inl (execIzHsrch_kept h)
  | izHsrchm _ => rw [exec_izHsrchm]; exact .inl (execIzHsrchm_kept h)
  | izHnext _ => rw [exec_izHnext]; exact .inl (execIzHnext_kept h)
  | izHins _ => rw [exec_izHins]; exact .inl (execIzHins_kept h)
  | izHdel _ => rw [exec_izHdel]; exact .inl (execIzHdel_kept h)
  | izFeat _ _ => rw [exec_izFeat]; exact .inl (execIzFeat_kept h)
  | izCore _ => rw [exec_izCore]; exact .inl (execIzCore_kept h)
  | izFuncn _ => rw [exec_izFuncn]; exact .inl (execIzFuncn_kept h)
  | izWld _ => rw [exec_izWld]; exact .inl (execIzWld_kept h)
  | izWst _ => rw [exec_izWst]; exact .inl (execIzWst_kept h)
  | izWld64 _ => rw [exec_izWld64]; exact .inl (execIzWld64_kept h)
  | izWst64 _ => rw [exec_izWst64]; exact .inl (execIzWst64_kept h)
  | izEvt _ => rw [exec_izEvt]; exact .inl (execIzEvt_kept h)
  | izCrc32c _ => rw [exec_izCrc32c]; exact .inl (execIzCrc32c_kept h)
  | izGfmul _ => rw [exec_izGfmul]; exact .inl (execIzGfmul_kept h)
  | izClmul _ => rw [exec_izClmul]; exact .inl (execIzClmul_kept h)
  | izClmulh _ => rw [exec_izClmulh]; exact .inl (execIzClmulh_kept h)
  | porNAssert => rw [exec_porNAssert]; exact .inr (.inr ⟨rfl, execPorNAssert_kept h⟩)
  | pwrfailNDeassert => rw [exec_pwrfailNDeassert]; exact .inl (execPwrfailNDeassert_kept h)
  | railBackInRange _ => rw [exec_railBackInRange]; exact .inl (execRailBackInRange_kept h)
  | perstDeassert => rw [exec_perstDeassert]; exact .inl (execPerstDeassert_kept h)
  | serviceButtonPress => rw [exec_serviceButtonPress]; exact .inl (execServiceButtonPress_kept h)
  | vfEnableSet _ => rw [exec_vfEnableSet]; exact .inl (execVfEnableSet_kept h)
  | msixVectorUnmask _ _ => rw [exec_msixVectorUnmask]; exact .inl (execMsixVectorUnmask_kept h)

end Sys2Proof.Machine
end

