-- ==== Sys2Proof/Laws/Tab.lean ====
section
/-!
SUPPORT. Reading sparse tables back: a write is read at its own key and leaves every other key alone. The first holds of any table when
the value written is not the default, and of a table whose keys rise strictly whatever the value.
-/
namespace Sys2Proof.Machine

variable {α : Type} {d v : α} {k j : Nat} {t : Tab α}

theorem tget_tput_self : tget d (tput k v t) k = v := by
  induction t with
  | nil => simp [tput, tget]
  | cons e t ih =>
    obtain ⟨a, b⟩ := e
    simp only [tput]
    split
    · simp [tget]
    · split
      · simp [tget]
      · rename_i _ h; simp [tget, h, ih]

theorem tget_tput_ne (h : j ≠ k) : tget d (tput k v t) j = tget d t j := by
  induction t with
  | nil => simp [tput, tget, h]
  | cons e t ih =>
    obtain ⟨a, b⟩ := e
    simp only [tput]
    split
    · simp [tget, h]
    · split
      · rename_i _ hk; subst hk; simp [tget, h]
      · simp [tget, ih]

theorem tget_tdel_ne (h : j ≠ k) : tget d (tdel k t) j = tget d t j := by
  induction t with
  | nil => rfl
  | cons e t ih =>
    obtain ⟨a, b⟩ := e
    simp only [tdel]
    split
    · rename_i hk; subst hk; simp [tget, h]
    · simp [tget, ih]

theorem tget_above (h : tabAbove k t = true) (hj : j ≤ k) : tget d t j = d := by
  induction t with
  | nil => rfl
  | cons e t ih =>
    obtain ⟨a, b⟩ := e
    simp only [tabAbove, Bool.and_eq_true, decide_eq_true_eq] at h
    simp only [tget]
    rw [if_neg (by omega)]
    exact ih h.2

theorem tget_tdel_self (h : tabUp t = true) : tget d (tdel k t) k = d := by
  induction t with
  | nil => rfl
  | cons e t ih =>
    obtain ⟨a, b⟩ := e
    simp only [tabUp, Bool.and_eq_true] at h
    simp only [tdel]
    split
    · rename_i hk; subst hk; exact tget_above h.1 (Nat.le_refl _)
    · rename_i hk; simp [tget, hk, ih h.2]

variable [DecidableEq α]

theorem tget_tset_ne {e : α} (h : j ≠ k) : tget e (tset d k v t) j = tget e t j := by
  unfold tset
  split
  · exact tget_tdel_ne h
  · exact tget_tput_ne h

theorem tget_tset_of_ne (h : v ≠ d) : tget d (tset d k v t) k = v := by
  unfold tset
  rw [if_neg h]
  exact tget_tput_self

theorem tget_tset_self (h : tabUp t = true) : tget d (tset d k v t) k = v := by
  unfold tset
  split
  · rename_i hv; rw [hv]; exact tget_tdel_self h
  · exact tget_tput_self

theorem tabUp_of_tabWf (h : tabWf d t = true) : tabUp t = true := by
  induction t with
  | nil => rfl
  | cons e t ih =>
    obtain ⟨a, b⟩ := e
    simp only [tabWf, Bool.and_eq_true] at h
    simp only [tabUp, Bool.and_eq_true]
    exact ⟨h.1.2, ih h.2⟩

theorem tabUp_of_regsWf {t : Tab W64} (h : regsWf t = true) : tabUp t = true := by
  induction t with
  | nil => rfl
  | cons e t ih =>
    obtain ⟨a, b⟩ := e
    simp only [regsWf, Bool.and_eq_true] at h
    simp only [tabUp, Bool.and_eq_true]
    exact ⟨h.1.2, ih h.2⟩

/-- Reading one byte after a write of several. -/
theorem tget_tsetBytes {bs : Bytes} {t : Tab Byte} (h : tabUp t = true) :
    tget 0 (tsetBytes k bs t) j = if k ≤ j ∧ j < k + bs.length then bs.getD (j - k) 0 else tget 0 t j := by
  induction bs generalizing k t with
  | nil =>
    rw [if_neg (by simp only [List.length_nil]; omega)]
    rfl
  | cons b bs ih =>
    have hu : tabUp (tset 0 k b t) = true := tabUp_tset h
    rw [tsetBytes, ih hu]
    by_cases h1 : k + 1 ≤ j ∧ j < k + 1 + bs.length
    · rw [if_pos h1, if_pos (by simp only [List.length_cons]; omega), show j - k = (j - (k + 1)) + 1 by omega]
      simp
    · rw [if_neg h1]
      by_cases h2 : j = k
      · subst h2
        rw [tget_tset_self h, if_pos (by simp only [List.length_cons]; omega)]
        simp
      · rw [tget_tset_ne h2, if_neg (by simp only [List.length_cons]; omega)]

end Sys2Proof.Machine
end

