-- ==== Sys2Proof/Laws/Ops.lean ====
section
/-!
SUPPORT. Registers, functions, tasks and the other numbered units read back after a write.
-/
namespace Sys2Proof.Machine

variable {s : State} {a b k j : Nat}

theorem regGet_regSet_ne (v : Nat) (h : b ≠ a) : regGet b (regSet a v s) = regGet b s := by
  simp only [regGet, regSet_regs]
  rw [tget_tset_ne h]

theorem regGet_regSet_self (v : Nat) (h : regsWf s.regs = true) : regGet a (regSet a v s) = v % 2 ^ 64 := by
  simp only [regGet, regSet_regs]
  rw [tget_tset_self (tabUp_of_regsWf h)]
  exact BitVec.toNat_ofNat v 64

theorem regGet_lt (a : Nat) (s : State) : regGet a s < 2 ^ 64 := (tget _ s.regs a).isLt

theorem fnGet_fnSet_self (x : Fn) (h : tabUp s.fns = true) : fnGet k (fnSet k x s) = x := by
  simp only [fnGet, fnSet_fns]
  exact tget_tset_self h
theorem fnGet_fnSet_ne (x : Fn) (h : j ≠ k) : fnGet j (fnSet k x s) = fnGet j s := by
  simp only [fnGet, fnSet_fns]
  exact tget_tset_ne h
theorem taskGet_taskSet_self (x : Task) (h : tabUp s.tasks = true) : taskGet k (taskSet k x s) = x := by
  simp only [taskGet, taskSet_tasks]
  exact tget_tset_self h
theorem taskGet_taskSet_ne (x : Task) (h : j ≠ k) : taskGet j (taskSet k x s) = taskGet j s := by
  simp only [taskGet, taskSet_tasks]
  exact tget_tset_ne h
theorem coreGet_coreSet_ne (x : Core) (h : j ≠ k) : coreGet j (coreSet k x s) = coreGet j s := by
  simp only [coreGet, coreSet_cores]
  exact tget_tset_ne h
theorem coreGet_coreSet_self (x : Core) (h : tabUp s.cores = true) : coreGet k (coreSet k x s) = x := by
  simp only [coreGet, coreSet_cores]
  exact tget_tset_self h
theorem runGet_runSet_self (x : Run) (h : tabUp s.runs = true) : runGet k (runSet k x s) = x := by
  simp only [runGet, runSet_runs]
  exact tget_tset_self h
theorem runGet_runSet_ne (x : Run) (h : j ≠ k) : runGet j (runSet k x s) = runGet j s := by
  simp only [runGet, runSet_runs]
  exact tget_tset_ne h
theorem engGet_engSet_self (x : Engine) (h : tabUp s.engs = true) : engGet k (engSet k x s) = x := by
  simp only [engGet, engSet_engs]
  exact tget_tset_self h
theorem engGet_engSet_ne (x : Engine) (h : j ≠ k) : engGet j (engSet k x s) = engGet j s := by
  simp only [engGet, engSet_engs]
  exact tget_tset_ne h
theorem shuGet_shuSet_self (x : Shuttle) (h : tabUp s.shus = true) : shuGet k (shuSet k x s) = x := by
  simp only [shuGet, shuSet_shus]
  exact tget_tset_self h
theorem shuGet_shuSet_ne (x : Shuttle) (h : j ≠ k) : shuGet j (shuSet k x s) = shuGet j s := by
  simp only [shuGet, shuSet_shus]
  exact tget_tset_ne h
theorem lineGet_lineSet_self (x : Line) (h : tabUp s.lines = true) : lineGet k (lineSet k x s) = x := by
  simp only [lineGet, lineSet_lines]
  exact tget_tset_self h
theorem lineGet_lineSet_ne (x : Line) (h : j ≠ k) : lineGet j (lineSet k x s) = lineGet j s := by
  simp only [lineGet, lineSet_lines]
  exact tget_tset_ne h
theorem ctxGet_ctxSet_of_ne {x : Ctx} (h : x ≠ {}) : ctxGet k (ctxSet k x s) = x := by
  simp only [ctxGet, ctxSet_qe]
  exact tget_tset_of_ne h
theorem ctxGet_ctxSet_ne (x : Ctx) (h : j ≠ k) : ctxGet j (ctxSet k x s) = ctxGet j s := by
  simp only [ctxGet, ctxSet_qe]
  exact tget_tset_ne h

/-! ### Memory -/

/-- Reading a word of the Hamper without symbol errors leaves nothing behind. -/
theorem hamWordMet_frame (m w : Nat) (s : State) (h : tget [] s.hamErr w = []) : hamWordMet m w s = s := by
  have e : (hamWordRead w s).2.2 = .clean := by simp [hamWordRead, cwRead, withErrors, h]
  unfold hamWordMet
  rw [e]

/-- Without symbol errors a write to the Hamper changes the written bytes and no other. -/
theorem hamPut_ham {m off : Nat} {bs : Bytes} {p : Bool} (h : tabUp s.ham = true) (he : errsIn 32 off bs.length s.hamErr = []) :
    tget 0 (hamPut m off bs p s).ham a = if off ≤ a ∧ a < off + bs.length then bs.getD (a - off) 0 else tget 0 s.ham a := by
  have e : (hamPut m off bs p s).ham = tsetBytes off bs s.ham := by
    unfold hamPut
    simp only [he, List.filter_nil, List.foldl_nil]
    split <;> rfl
  rw [e]
  exact tget_tsetBytes h

theorem hamWrite_ham {b : HamBy} {off : Nat} {bs : Bytes} {p : Bool} (h : tabUp s.ham = true) (ht : s.hamx.ties = [])
    (he : errsIn 32 off bs.length s.hamErr = []) :
    tget 0 (hamWrite b off bs p s).ham a = if off ≤ a ∧ a < off + bs.length then bs.getD (a - off) 0 else tget 0 s.ham a := by
  unfold hamWrite
  rw [ht]
  exact hamPut_ham h he

/-- What such a write can change. -/
theorem hamPut_frame {m off : Nat} {bs : Bytes} {p : Bool} (he : errsIn 32 off bs.length s.hamErr = []) :
    hamPut m off bs p s = { s with
      ham := (hamPut m off bs p s).ham, hamPoison := (hamPut m off bs p s).hamPoison, regs := (hamPut m off bs p s).regs } := by
  unfold hamPut
  simp only [he, List.filter_nil, List.foldl_nil]
  split <;> rfl

/-- Without symbol errors a write to the DRAM beyond the map changes the written bytes and no other. -/
theorem dramWrite_dram {off : Nat} {bs : Bytes} {p : Bool} (h : tabUp s.dram = true) (hm : mapBytes s ≤ off)
    (he : errsIn 16 off bs.length s.dramErr = []) :
    tget 0 (dramWrite off bs p s).dram a = if off ≤ a ∧ a < off + bs.length then bs.getD (a - off) 0 else tget 0 s.dram a := by
  have e : (dramWrite off bs p s).dram = tsetBytes off bs s.dram := by
    unfold dramWrite dramPutBytes
    simp only [he, List.filter_nil, List.foldl_nil]
    rw [if_neg (by omega)]
  rw [e]
  exact tget_tsetBytes h

/-- A write of either memory that is served. -/
theorem memWrite_cases {b : HamBy} {space off : Nat} {bs : Bytes} {p : Bool} {t : State} (h : memWrite b space off bs p s = some t) :
    (space = 0 ∧ fenced pgHam s = false ∧ off + bs.length ≤ hamSize ∧ t = hamWrite b off bs p s) ∨
    (space ≠ 0 ∧ dramServes off bs.length s = true ∧ t = dramWrite off bs p s) := by
  unfold memWrite at h
  split at h
  · split at h
    · cases h
    · rename_i h0 h1
      simp only [Bool.or_eq_true, decide_eq_true_eq, not_or, Bool.not_eq_true] at h1
      exact .inl ⟨h0, h1.1, by omega, (Option.some.inj h).symm⟩
  · split at h
    · rename_i h0 h1
      exact .inr ⟨h0, h1, (Option.some.inj h).symm⟩
    · cases h

end Sys2Proof.Machine
end

