-- ==== Sys2Proof/Tests/Base.lean ====
section
/-!
SUPPORT. What the tests share: small states and ways to look at an outcome. A theorem whose name begins `witness_` shows states and
operands that meet the hypotheses of a statement, and what the statement says of them; expected values come from the spec's rules.
-/
namespace Sys2Proof.Machine

/-- The outcome is exactly this next state. -/
def goes (o : Host.Outcome State Fault Refusal) (t : State) : Bool :=
  match o with
  | .next u => u = t
  | _ => false

/-- The state that an outcome leads to; reset for a stop. -/
def after (o : Host.Outcome State Fault Refusal) : State :=
  match o with
  | .next t => t
  | _ => State.reset

/-- The outcome is a fault of this kind. -/
def stops (o : Host.Outcome State Fault Refusal) (f : Fault) : Bool :=
  match o with
  | .fault g => g = f
  | _ => false

/-- `PAGE_CTL`.EN written 1 in pages. -/
def enable (l : List Nat) (s : State) : State := l.foldl (fun s p => regSet (p + 0x010) 1 s) s

/-- `PAGE_FENCE` set in pages. -/
def fence (l : List Nat) (s : State) : State := l.foldl (fun s p => regSet (p + 0x044) 1 s) s

/-- The part with firmware up, before and after the controllers may report ready. -/
def fwState : State := { State.reset with boot := { Boot.reset with phase := .firmware } }
def rdyState : State := { State.reset with boot := { Boot.reset with phase := .ready } }

/-- A submission queue entry whose dwords are given by number. -/
def sqe (l : List (Nat × Nat)) : Sqe := BitVec.ofNat 512 (l.foldl (fun v e => v + e.2 * 2 ^ (32 * e.1)) 0)

/-- An image (R338 to R340) of 64-byte frames, windows 0 to 2 and no constants: functions as offset, size, IN, OUT, FLAGS. -/
def izpImage (house : Nat) (engines : Nat) (code : Bytes) (fs : List (Nat × Nat × Nat × Nat × Nat)) : Bytes :=
  let table := fs.flatMap fun f => natLe 4 f.1 ++ natLe 4 f.2.1 ++ natLe 1 f.2.2.1 ++ natLe 1 f.2.2.2.1 ++ natLe 1 f.2.2.2.2 ++ zeros 5
  let n := round64 (64 + 16 * fs.length) + round64 code.length + 8
  let head := natLe 4 0x504B5A49 ++ natLe 2 1 ++ natLe 2 house ++ natLe 4 n ++ natLe 4 code.length ++ natLe 4 0 ++
    natLe 2 fs.length ++ natLe 2 1 ++ natLe 2 7 ++ zeros 2 ++ natLe 4 engines ++ zeros 8 ++ zeros 16 ++ zeros 4
  let body := padTo (round64 (64 + 16 * fs.length)) (head ++ natLe 4 (crc32c head) ++ table) ++ padTo (round64 code.length) code
  body ++ natLe 4 (crc32c body) ++ natLe 4 n

/-- DROP and END: an ENTRY function takes its argument and ends. -/
def tinyImage (house : Nat) : Bytes := izpImage house 0x7F [0x06, 0x85] [(0, 2, 1, 0, 1)]

/-- A die parameter table (R112) with one type record, which die 0 of channel 0 alone has. -/
def dieTable (record : Bytes) : Bytes :=
  let b := natLe 2 0x5044 ++ natLe 2 1 ++ natLe 4 (0x110 + 128 + 4) ++ natLe 1 1 ++ natLe 1 7 ++ natLe 1 10 ++ natLe 1 0 ++ zeros 4 ++
    (0xF0 :: List.replicate 255 0xFF) ++ padTo 128 record
  b ++ natLe 4 (crc32c b)

end Sys2Proof.Machine
end

