-- ==== Sys2Proof/Tests/Queues.lean ====
section
/-!
SUPPORT. Tests and witnesses: doorbells, fetch, queues, features, controllers, functions and Log Swap.
-/
namespace Sys2Proof.Machine

set_option Elab.async false

/-- F0's controller is enabled, with an admin queue pair of four entries and an I/O queue pair 1 of eight. -/
def ctl0 : Fn :=
  { bme := true, mse := true, cc := 0x460001, rdy := true
    sqs := [(0, { base := 0x1000, size := 4 }), (1, { base := 0x3000, size := 8, cq := 1 })]
    cqs := [(0, { base := 0x2000, size := 4, ien := true }), (1, { base := 0x4000, size := 8, vector := 1, ien := true })] }

def ctlState : State :=
  enable [pgQen, pgQenP, pgFun 0, pgFun 1] { rdyState with cxl := { rdyState.cxl with up := true, width := 16 }, fns := [(0, ctl0)] }

/-- Context 0 holds a command of F0's admin queue, or of its I/O queue 1. -/
def adminCmd (l : List (Nat × Nat)) : State :=
  { ctlState with qe := { ctlState.qe with ctxs := [(0, { used := true, fn := 0, sq := 0, cid := 9, sqe := sqe l, order := 1 })], order := 2 } }

/-- The completion entry's status that a command ended with; none while it is held. -/
def ended (c : Nat) (o : Host.Outcome State Fault Refusal) : Bool := !(ctxGet c (after o)).used

/-- The outcome is the command's completion with this status. -/
def endsWith (c : Nat) (st : Status) (o : Host.Outcome State Fault Refusal) (s : State) : Bool := goes o (finish c st s)

theorem witness_DoorbellsAndFetch_doorbell :
    (let s := ctlState
     bar0 0 s = true ∧ 1 ≤ sqAllot 0 s ∧ (tget {} (fnGet 0 (after (exec (.doorbellWrite 0 1 false 7) s))).sqs 1).tail = 7 ∧
     (tget {} (fnGet 0 (after (exec (.doorbellWrite 0 1 false 8) s))).sqs 1).tail = 0 ∧
     (tget {} (fnGet 0 (after (exec (.doorbellWrite 0 1 true 7) s))).cqs 1).head = 7 ∧
     goes (exec (.doorbellWrite 1 0 false 0) s) s = true ∧ (tget {} (fnGet 0 s).sqs 2).size = 0 ∧
     (fnGet 0 (after (exec (.doorbellWrite 0 2 false 0) s))).sqs = ctl0.sqs) := by decide +kernel

/-- Three admin entries wait, the next at index 3. -/
def fetching : State :=
  { ctlState with fns := [(0, { ctl0 with sqs := [(0, { base := 0x1000, size := 4, head := 3, tail := 2 })] })] }

theorem witness_DoorbellsAndFetch_fetch :
    mayFetch fetching = true ∧ nextTurn fetching = some 0 ∧ sqCount (tget {} (fnGet 0 fetching).sqs 0) = 3 ∧ freeCtx 0 true fetching = some 0 ∧
    (let u := after (exec (.sqeFetch [sqe [(0, 0x06)]] true) fetching)
     u.qe.order = 2 ∧ u.qe.turn = 1 ∧ (tget {} (fnGet 0 u).sqs 0).head = 0 ∧ (ctxGet 0 u).used = true) ∧
    (fnGet 0 (after (exec (.sqeFetch [] false) fetching))).cfs = true ∧
    (let s := { fetching with qe := { fetching.qe with held := true } }
     mayFetch s = false ∧ goes (exec (.sqeFetch [] true) s) s = true) ∧
    (after (exec (.qenFetchHold 1) fetching)).due = [.fetchHold] := by decide +kernel

theorem witness_IoQueues_create :
    (let s := adminCmd [(0, 0x05), (6, 0x9000), (10, 0x00030002), (11, 0x00020003)]
     holdsCmd 0 0x05 false s = true ∧ 2 ≤ cqAllot 0 s ∧ endsWith 0 stOk (exec (.createIoCq 0) s)
       (fnMod 0 (fun y => { y with cqs := tset {} 2 { base := 0x9000, size := 4, vector := 2, ien := true } y.cqs }) s) = true) ∧
    (let s := adminCmd [(0, 0x05), (10, 0x00030001), (11, 1)]; endsWith 0 stQid (exec (.createIoCq 0) s) s = true) ∧
    (let s := adminCmd [(0, 0x01), (6, 0x9000), (10, 0x00030002), (11, 0x00010001)]
     holdsCmd 0 0x01 false s = true ∧ (tget {} (fnGet 0 (after (exec (.createIoSq 0) s))).sqs 2) = { base := 0x9000, size := 4, cq := 1 }) ∧
    (let s := adminCmd [(0, 0x01), (6, 0x9000), (10, 0x00030002), (11, 0x00050001)]
     endsWith 0 stCqInvalid (exec (.createIoSq 0) s) s = true) := by decide +kernel
theorem witness_IoQueues_delete :
    (let s := adminCmd [(0, 0x04), (10, 1)]
     holdsCmd 0 0x04 false s = true ∧ endsWith 0 stQDelete (exec (.deleteIoCq 0) s) s = true) ∧
    (let t := adminCmd [(0, 0x04), (10, 1)]
     let s := fnMod 0 (fun y => { y with sqs := tdel 1 y.sqs }) t
     tkeys (fnGet 0 (after (exec (.deleteIoCq 0) s))).cqs = [0]) ∧
    (let s := adminCmd [(0, 0x00), (10, 1)]
     holdsCmd 0 0x00 false s = true ∧ (tget {} (fnGet 0 s).sqs 1).deleting = none ∧
     tkeys (fnGet 0 (after (exec (.deleteIoSq 0) s))).sqs = [0]) ∧
    (let s := adminCmd [(0, 0x08), (10, 0x00050001)]
     holdsCmd 0 0x08 false s = true ∧ goes (exec (.abort 0) s) (finishDw 0 stOk 1 0 s) = true) := by decide +kernel

/-- An Abort of command 5 of I/O queue 1, which context 1 holds; `n` earlier Aborts of the controller are in flight. -/
def abortState (claimed : Bool) (n : Nat) : State :=
  let s := adminCmd [(0, 0x08), (10, 0x00050001)]
  let old := (List.range n).map fun i => (2 + i, ({ used := true, cid := 20 + i, sqe := sqe [(0, 0x08)], order := 20 + i } : Ctx))
  { s with qe := { s.qe with
      ctxs := [(0, { (ctxGet 0 s) with order := 90 }), (1, { used := true, sq := 1, cid := 5, claimed := claimed, order := 10 })] ++ old } }
theorem witness_IoQueues_abort :
    (let s := abortState false 0
     holdsCmd 0 0x08 false s = true ∧ goes (exec (.abort 0) s) (finishDw 0 stOk 0 0 (abortCtx 1 stAbort (regAdd (pgQenP + 0x108) 1 s))) = true ∧
     (ctxGet 1 s).used = true ∧ (ctxGet 1 s).claimed = false ∧ (ctxGet 1 s).run = none ∧ (ctxGet 1 (after (exec (.abort 0) s))).used = false) ∧
    (let s := abortState true 0; goes (exec (.abort 0) s) (finishDw 0 stOk 1 0 (regAdd (pgQenP + 0x110) 1 s)) = true) ∧
    (let s := abortState false 7
     (s.qe.ctxs.filter fun e => e.2.fn = 0 && e.2.sq = 0 && sqeOp e.2.sqe = 0x08 && e.2.order < 90).length = 7 ∧
     (ctxGet 1 (after (exec (.abort 0) s))).used = false) ∧
    (let s := abortState false 8; endsWith 0 stAbortLimit (exec (.abort 0) s) s = true) ∧
    (let s := adminCmd [(0, 0x00), (10, 1)]; holdsCmd 0 0x08 false s = false ∧ goes (exec (.abort 0) s) s = true) := by decide +kernel

theorem witness_FeaturesAndEvents :
    (let s := adminCmd [(0, 0x09), (10, 0x01), (11, 3)]
     holdsCmd 0 0x09 false s = true ∧ bit (dword (ctxGet 0 s).sqe 10) 31 = false ∧ (fnGet 0 (after (exec (.setFeatures 0) s))).ab = 3) ∧
    (let s := adminCmd [(0, 0x09), (10, 0x80000001), (11, 3)]
     bit (dword (ctxGet 0 s).sqe 10) 31 = true ∧ endsWith 0 stNotSaveable (exec (.setFeatures 0) s) s = true) ∧
    (after (exec (.setFeatures 0) (adminCmd [(0, 0x09), (10, 0x02), (11, 4)]))).qe.pmState = 4 ∧
    (fnGet 0 (after (exec (.setFeatures 0) (adminCmd [(0, 0x09), (10, 0x08), (11, 0x0305)])))).coalTime = 3 ∧
    (fnGet 0 (after (exec (.setFeatures 0) (adminCmd [(0, 0x09), (10, 0x09), (11, 0x10002)])))).vecCd = [(2, true)] ∧
    (fnGet 0 (after (exec (.setFeatures 0) (adminCmd [(0, 0x09), (10, 0xC0), (11, 25)])))).pickWin = 25 ∧
    (let s := adminCmd [(0, 0x0A), (10, 0x01)]; goes (exec (.getFeatures 0) s) (finishDw 0 stOk 7 0 s) = true) ∧
    (let s := adminCmd [(0, 0x0A), (10, 0x02)]
     s.pwr.forced = false ∧ goes (exec (.getFeatures 0) s) (finishDw 0 stOk 0 0 s) = true ∧
     (let v := { s with pwr := { s.pwr with forced := true } }; goes (exec (.getFeatures 0) v) (finishDw 0 stOk 2 0 v) = true)) := by decide +kernel
theorem witness_FeaturesAndEvents_requests :
    (let s := adminCmd [(0, 0x0C)]
     holdsCmd 0 0x0C false s = true ∧ 0 ∉ (fnGet 0 s).aers ∧ (fnGet 0 s).held = [] ∧
     (fnGet 0 (after (exec (.asynchronousEventRequest 0) s))).aers = [0]) ∧
    (let s := fnMod 0 (fun y => { y with aers := (List.range 16).map (· + 1) }) (adminCmd [(0, 0x0C)])
     endsWith 0 stAerLimit (exec (.asynchronousEventRequest 0) s) s = true) ∧
    (let s := fnMod 0 (fun y => { y with pickWin := 5, coal := [(1, (2, 3))] }) { ctlState with pick := 8 }
     tget (0, 0) (fnGet 0 s).coal 1 = (2, 3) ∧ (fnGet 0 (after (exec (.coalescingWindowEnd 0 1) s))).coal = []) ∧
    (fnGet 0 (after (exec (.msixVectorUnmask 0 5) ctlState))).unmasked = [(5, true)] := by decide +kernel

theorem witness_Controllers :
    bit (fnGet 0 ctlState).cc.toNat 0 = true ∧ (after (exec (.ccEnClear 0) ctlState)).due = [.ctlReset 0 false] ∧
    (after (exec (.abruptShutdown 0) ctlState)).due = [.ctlReset 0 true] ∧
    (let s := fnMod 0 (fun y => { y with cc := 0, rdy := false, sqs := [], cqs := [] }) ctlState
     let u := after (exec (.ccEnSet 0 0x460001 0x001F000F 0x1000 0x2000) s)
     bit (fnGet 0 s).cc.toNat 0 = false ∧ (fnGet 0 u).cc = 0x460001 ∧ tget {} (fnGet 0 u).sqs 0 = { base := 0x1000, size := 16 } ∧
     (tget {} (fnGet 0 u).cqs 0).size = 32) ∧
    (let u := after (exec (.normalShutdown 0) ctlState); (fnGet 0 u).shst = 1 ∧ (fnGet 0 u).draining = true) ∧
    (after (exec (.flr 0) ctlState)).due = [.flr 0] ∧ (fnGet 0 (after (exec (.busMasterEnableClear 0) ctlState))).bme = false ∧
    (fnGet 0 (after (exec (.memorySpaceEnableClear 0) ctlState))).mse = false ∧
    goes (exec (.ccEnClear 1) ctlState) ctlState = true := by decide +kernel
theorem witness_Controllers_vf :
    (after (exec (.vfEnableSet 3) ctlState)).cxl.numVfs = 3 ∧
    (let s := { ctlState with cxl := { ctlState.cxl with vfEnable := true, numVfs := 2 } }
     let u := after (exec .vfEnableClear s)
     u.cxl.vfEnable = false ∧ Due.flr 2 ∈ u.due ∧ (fnGet 1 (after (exec (.busMasterEnableSet 1) s))).bme = true) ∧
    (let s := { ctlState with runs := [(3, { used := true, fn := 0 })] }
     (after (exec (.killRuns 0 1) s)).due = [.killRun 3 stAbort 0 0]) := by decide +kernel

theorem witness_DirtyLogging :
    (let s := adminCmd [(0, 0xDC), (10, 0x001), (11, 0x1000), (13, 0x10000), (15, 64)]
     holdsCmd 0 0xDC false s = true ∧ lsOk (ctxGet 0 s).sqe = true ∧ loggers s = [] ∧ (after (exec (.logSwapStart 0) s)).due = [.logSwap 0]) ∧
    (let s := adminCmd [(0, 0xDC), (10, 0x101), (11, 0x1000)]
     lsOk (ctxGet 0 s).sqe = true ∧ endsWith 0 stSequence (exec (.logSwapSwap 0) s) s = true) ∧
    (let s := { adminCmd [(0, 0xDC), (10, 0x201)] with fns := [(0, ctl0), (1, { dlog := { active := true } })] }
     lsOk (ctxGet 0 s).sqe = true ∧ loggers s = [1] ∧ (after (exec (.logSwapStop 0) s)).due = [.logSwap 0]) ∧
    (let s := { ctlState with fns := [(0, ctl0), (1, { dlog := { active := true, addr := 0x1000, bits := [(512, true)], dirty := [(1, 4)] } })] }
     (after (exec (.dirtyLineWrite 1 1) s)).sent = [.host 0 0x1040 (1 :: zeros 63) false]) := by decide +kernel

end Sys2Proof.Machine
end

