-- ==== Sys2Proof/Tests/Blocks.lean ====
section
/-!
SUPPORT. Tests and witnesses: lines and Shuttles, engines, tasks and scrubbers, Heddle groups, the service panel, containment and
registers.
-/
namespace Sys2Proof.Machine

set_option Elab.async false

/-- The invariant holds, in a form that can be decided. -/
def okState (s : State) : Bool := canonical s && ordered s && queueWf s

/-! ### Lines and Shuttles -/

/-- Line 8: 4 KiB in bursts of 256 bytes, whose producer and consumer are software. -/
def lineState (x : Line) : State :=
  let s := enable [pgShu 0, pgShu 3, pgHam] ctlState
  { s with lines := [(8, x)], regs := (regSet (pgShu 0 + 0x480) (0x70700000 + 12 * 4 + 1) s).regs }

theorem witness_LinesAndShuttles_lines :
    (let s := lineState { fill := 15 }
     okState s = true ∧ lineEn 8 s = true ∧ lineDepth 8 s = 16 ∧ (lineGet 8 (after (exec (.linePost 8 0x70 true 5) s))).fill = 16) ∧
    (let s := { lineState { fill := 15 } with regs := (regSet (pgShu 0 + 0x480) (0x70700000 + 12 * 4) (lineState {})).regs }
     goes (exec (.linePost 8 0x70 false 0) s) (note 0x3081 (pgShu 0) 8 s) = true) := by decide +kernel
theorem witness_LinesAndShuttles_software :
    (let s := { lineState { fill := 15 } with regs := (regSet (pgShu 0 + 0x480) (0x70700000 + 12 * 4 + 1) (lineState {})).regs }
     lineProducer 8 s = 0x70 ∧ fenced (pgShu 0) s = false ∧
     (lineGet 8 (after (exec (.lineRelease 8 0x70) s))).fill = 14 ∧
     (let u := after (exec (.softwareLinePost 0x348) s)
      (lineGet 8 u).fill = 16 ∧ (lineGet 8 u).ended = true ∧ (lineGet 8 u).endLen = 3) ∧
     (let u := after (exec (.softwareLineRelease 8) s); (lineGet 8 u).taken = 1)) ∧
    (let s := { lineState {} with lines := [], regs := (regSet (pgShu 0 + 0x480) (0x70700000 + 12 * 4 + 1) (lineState {})).regs }
     goes (exec (.softwareLineRelease 8) s) (note 0x3005 (pgShu 0) 8 s) = true) ∧
    (let s := lineState { fill := 16 }
     goes (exec (.softwareLinePost 8) s) (note 0x3005 (pgShu 0) 8 s) = true) ∧
    (let u := after (exec (.shuLineCfgWrite 8 0x70700030) (lineState { fill := 3 }))
     lineEn 8 u = false) := by decide +kernel

theorem witness_LinesAndShuttles_config :
    (let s := lineState { fill := 3 }
     (mergeRw (pgShu 0 + 0x400 + 16 * 8) 63 0 0x70700031 s).1 = 0x70700031 ∧ lineEn 8 s = true ∧
     (lineGet 8 (after (exec (.shuLineCfgWrite 8 0x70700031) s))).fill = 3) ∧
    (let s := { lineState {} with regs := (regSet (pgShu 0 + 0x480) 0x70700030 (lineState {})).regs }
     lineEn 8 s = false ∧ lineEn 8 (after (exec (.shuLineCfgWrite 8 0x70700031) s)) = true) := by decide +kernel

/-- Shuttle 3 has one descriptor of 64 bytes from 0x100 to 0x200 at ring offset 0. -/
def wShuState : State :=
  let s := lineState {}
  { s with ham := [(0x1, 0x01), (0x9, 0x02), (0x10, 64), (0x100, 7)]
           regs := (regSet (pgShu 3 + 0x108) 1 (regSet (pgShu 3 + 0x100) (2 ^ 28) s)).regs }
def shuRunning : State := after (exec (.shuttleDescriptor 3 0 []) wShuState)
def shuMoved : State := after (exec (.shuttleDescriptor 3 0 []) shuRunning)

theorem witness_LinesAndShuttles_takes :
    okState wShuState = true ∧ accepts (pgShu 3) wShuState = true ∧ running wShuState = true ∧ (shuGet 3 wShuState).job = none ∧
    ringHead (pgShu 3) wShuState ≠ ringTail (pgShu 3) wShuState ∧ ringHead (pgShu 3) shuRunning = 1 ∧
    ((shuGet 3 shuRunning).job.any fun j => j.code = none && sdLen j.desc = 64 && sdSrc j.desc = 0x100) = true := by decide +kernel
theorem witness_LinesAndShuttles_moves :
    tget 0 shuMoved.ham 0x200 = 7 ∧ ((shuGet 3 shuMoved).job.any fun j => j.code = some 0 && j.moved = 64) = true ∧
    (let u := after (exec (.shuttleDescriptorEnd 3) shuMoved)
     (shuGet 3 u).job = none ∧ tget 0 u.ham 0x39 = 0x80 ∧ tget 0 u.ham 0x3A = 64) ∧
    goes (exec (.shuttleDescriptorEnd 3) wShuState) wShuState = true := by decide +kernel
theorem witness_LinesAndShuttles_burst :
    (let s := shuRunning
     let d := ((shuGet 3 s).job.getD {}).desc
     memRead 0 0x100 64 s = some (7 :: zeros 63, false) ∧ sideWaits (sdFunc d) (sideIn d 0 64 s) s = false ∧
     sideWaits (sdFunc d) (sideOut d 0 64 s) s = false ∧ sdSrcSpace d = 0 ∧ sdDstSpace d = 0 ∧ sdFlag d 0 = false ∧ sdFlag d 1 = false) ∧
    (let s := { shuRunning with hamx := { shuRunning.hamx with ties := [0x11], tied := [(0x11, .port 0)] } }
     memLoses (.port 1) 0 0x200 64 s = true ∧
     (let u := after (exec (.shuttleDescriptor 3 0 []) s); (tget 0 u.ham 0x200 = 7) ∧ (shuGet 3 u).job.map (·.code) = some (some 7))) ∧
    (let s := { shuRunning with hamPoison := [(8, true)] }
     tget false (after (exec (.shuttleDescriptor 3 0 []) s)).hamPoison 0x10 = true ∧
     tget false (after (exec (.shuttleDescriptor 3 0 []) s)).hamPoison 0x11 = false) := by decide +kernel
/-- The descriptor of Shuttle 3 has ended, and its decrement waits for room in a ready list. -/
def decState : State := shuMod 3 (fun x => { x with heldDec := some 9 }) wShuState
theorem witness_LinesAndShuttles_held :
    (shuGet 3 decState).heldDec = some 9 ∧ (∀ q ∈ decState.shus, q.2.heldDec.isSome = true → q.1 = 3) ∧
    (tryDec 9 decState).isSome = true ∧ (shuGet 3 (shuHeld decState)).heldDec = none := by decide +kernel

theorem test_shuRing :
    ringTail (pgShu 3) (after (exec (.shuTailAdvance 3 0x401) wShuState)) = 1 ∧
    regGet (pgShu 3 + 0x110) (after (exec (.shuStop 3 1) wShuState)) = 1 ∧
    (shuGet 3 (after (exec (.shuFlush 3 2) shuRunning))).job = none := by decide +kernel

/-! ### Engines -/

def wEngState : State := enable [engPage 0x40, engPage 0x48, engPage 0x50, engPage 0x54, engPage 0x58, engPage 0x61, pgHam] ctlState

theorem witness_EngineRings :
    fenced (engPage 0x41) wEngState = false ∧
    regGet (engPage 0x41 + 0x108) (after (exec (.twillTailAdvance 1 0x402) wEngState)) = 2 ∧
    (after (exec (.digStop 0 1) wEngState)).due = [.hold (engPage 0x50)] ∧
    regGet (engPage 0x54 + 0x108) (after (exec (.kckTailAdvance 0 1) wEngState)) = 1 ∧
    (after (exec (.scnFlush 0 2) wEngState)).due = [] ∧ regGet (engPage 0x61 + 0x108) (after (exec (.mndTailAdvance 1) wEngState)) = 1 ∧
    (let s := fence [engPage 0x61] wEngState; goes (exec (.mndFlush 2) s) s = true) := by decide +kernel

/-- A one-byte descriptor, here of operation `op`, stands at the head of agent `a`'s ring. -/
def jobState (a op : Nat) : State :=
  { regSet (engPage a + 0x100) (2 ^ 28) (regSet (engPage a + 0x108) 1 wEngState) with ham := [(0, BitVec.ofNat 8 op)] }

theorem witness_EngineJobs_refused :
    (let s := jobState 0x54 9
     okState s = true ∧ accepts (engPage 0x54) s = true ∧ running s = true ∧ (engGet 0x54 s).jobs = [] ∧
     ringHead (engPage 0x54) s ≠ ringTail (engPage 0x54) s ∧ kdOp (engHead 0x54 0 s).desc ≠ 2 ∧
     kdCheck 0x54 (engHead 0x54 0 s) s ≠ 0 ∧ (after (exec (.kckGenerate 0) s)).jobSeq = 1) ∧
    (let s := jobState 0x48 3
     tdOp (engHead 0x48 0 s).desc = 3 ∧ (after (exec (.twillVerify 0) s)).jobSeq = 1) ∧
    (let s := jobState 0x50 6
     ddOp (engHead 0x50 0 s).desc = 6 ∧ (after (exec (.digestRelease 0) s)).jobSeq = 1) := by decide +kernel

/-- A digest that begins with 64 bytes of the Hamper at 0. -/
def digState : State := { jobState 0x50 1 with ham := [(0, 1), (0x18, 64)] }

theorem witness_EngineJobs_taken :
    ddCheck 0x50 (engHead 0x50 0 digState) digState = 0 ∧ ddOp (engHead 0x50 0 digState).desc = 1 ∧
    (let u := after (exec (.digestInit 0) digState)
     (engGet 0x50 u).jobs.length = 1 ∧ ringHead (engPage 0x50) u = 1) := by decide +kernel
/-- A job of agent 0x54 has ended with code 5. -/
def endingState : State :=
  { wEngState with engs := [(0x54, { jobs := [{ code := some 5, index := 0, desc := zeros 64, res := zeros 15 }] })] }
theorem witness_EngineJobs_ends :
    (let s := endingState
     let u := after (exec (.kckJobEnd 0) s)
     (engGet 0x54 s).jobs.length = 1 ∧ (engGet 0x54 u).jobs = [] ∧ tget 0 u.ham (0x30 + (codeOff 0x54 - 0x30)) = 5) := by decide +kernel

theorem witness_EngineJobs_held :
    (let e := [(0x54, ({ jobs := [{ code := some 5, desc := [0, 8] ++ zeros 30 ++ [9] ++ zeros 31 }] } : Engine))]
     let s := { endingState with engs := e, tasks := [(9, { state := .waiting, counter := 2 })] }
     (engGet 0x54 s).jobs.map (fun j => engHeld 0x54 j s) = [false] ∧
     (let u := after (exec (.kckJobEnd 0) s); (taskGet 9 u).counter = 1 ∧ (engGet 0x54 u).jobs = [])) ∧
    (let s := { digState with digs := [(0, { alloc := true })], ham := [(0, 2), (0x18, 64)] }
     (tget {} s.digs (leAt (engHead 0x50 0 s).desc 3 1 % 64)).alloc = true ∧ ddOp (engHead 0x50 0 s).desc = 2 ∧
     isNext (exec (.digestUpdate 0 true) s) = true) := by decide +kernel

/-! ### Tasks and scrubbers -/

/-- Core 0 is up and idle; task 9 waits in its slot. -/
def coreState (x : Core) : State :=
  { enable [pgItn, pgIzc 0, pgIzk 0, pgHam, pgHamS] ctlState with
    cores := [(0, x)], tasks := [(9, { state := .slotted, house := true, counter := 0 })] }

theorem witness_TasksAndScrub_dispatch :
    (let s := coreState { slot := some 9 }
     okState s = true ∧ coreUp 0 s = true ∧ 9 ∉ readyOf 0 s ∧
     (let u := after (exec (.taskDispatch 0) s); (coreGet 0 u).task = some 9 ∧ (taskGet 9 u).state = .running)) ∧
    (let s := coreState {}
     pickTask 0 (readyOf 0 s) s = none ∧ stealFrom 0 s = none ∧ (coreGet 0 (after (exec (.taskDispatch 0) s))).stat = 4) ∧
    (let s := taskSet 9 { state := .running, house := true, edgeClk := 6400 } (coreState { task := some 9 })
     let u := after (exec (.activationPreempt 0) s)
     (coreGet 0 u).task = none ∧ (taskGet 9 u).state = .ready ∧ 9 ∈ readyOf 0 u) ∧
    (let s := taskSet 9 { state := .running, house := true, edgeClk := 6399 } (coreState { task := some 9 })
     goes (exec (.activationPreempt 0) s) s = true) := by decide +kernel
theorem witness_TasksAndScrub_ageing :
    (let s := regSet (pgItn + 0x114) 4 (taskSet 9 { state := .ready, prio := 3 } { coreState {} with pick := 4 })
     (taskGet 9 (after (exec (.taskAgeing 9) s))).prio = 2 ∧ goes (exec (.taskAgeing 8) s) s = true) ∧
    (let u := after (exec (.itnQuery 9) (coreState {}))
     regGet (pgItn + 0x120) u = leAt (taskEntry 9 (coreState {})) 0 8) ∧
    (let s := coreState {}
     s.hamx.stepPick = pickN s ∧ scrubPaused s = false ∧ bit (regGet (pgHamS + 0x100) s) 0 = true ∧ s.hamx.scrubPos + 1 ≠ 524288 ∧
     (after (exec (.hamperScrubStep []) s)).hamx.scrubPos = 1) ∧
    (let s := { coreState {} with pwr := { rdyState.pwr with ps := 3 } }
     scrubPaused s = true ∧ goes (exec (.dramScrubStep []) s) s = true) := by decide +kernel
theorem witness_TasksAndScrub_dram :
    (let s := { coreState {} with ddr := { (coreState {}).ddr with trained := true, capGib := 16 } }
     dramUp s = true ∧ bit (regGet (pgHamS + 0x118) s) 0 = true ∧ (after (exec (.dramScrubStep []) s)).ddr.scrubPos = 1) ∧
    (let s := coreState {}
     regionOk 3 0x00800200 s = true ∧ (after (exec (.hamperRegionCfg 3 0x00400200) s)).due.length = 1 ∧
     regionOk 0 0x00010000 s = false) := by decide +kernel

/-- Symbols of the word at 0 are wrong. -/
def flipState (l : List (Nat × Nat)) : State := { coreState {} with ham := [(0, 7)], hamErr := [(0, l)] }
theorem gfMul_zero_left (y : Nat) : gfMul 0 y = 0 := by
  have h : ∀ l : List Nat, l.foldl (fun (p : Nat × Nat) i => (if bit y i then Nat.xor p.1 p.2 else p.1, gfDouble p.2)) (0, 0) = (0, 0) := by
    intro l
    induction l with
    | nil => rfl
    | cons i l ih => simpa [gfDouble] using ih
  rw [gfMul, h]
theorem rsFlip_zero (w : List Nat) (i : Nat) : rsFlip w i 0 = w := by
  apply List.ext_getElem (by simp [rsFlip])
  intro k h1 h2
  by_cases e : i = k <;> simp [rsFlip, e, h2]
theorem findSome_none {α : Type} (l : List Nat) : l.findSome? (fun _ => (none : Option α)) = none := by
  induction l with
  | nil => rfl
  | cons i l ih => exact ih
/-- A word whose first two syndromes are 0 and whose third is not has no correction. -/
theorem rsDecode_none {w : List Nat} (h0 : rsEval w 1 = 0) (h1 : rsEval w 2 = 0) (h : rsSyndromes w ≠ [0, 0, 0, 0]) : rsDecode w = none := by
  simp [rsDecode, h, rsOne, rsTwo, h0, h1, gfMul_zero_left, rsFlip_zero, findSome_none]
theorem witness_TasksAndScrub_word :
    (let s := flipState [(0, 0x55)]
     let good := codeword (tgetBytes s.ham 0 32)
     let cw := withErrors 0 (tget [] s.hamErr 0) good
     cw ≠ good ∧ (rsDecode cw).isSome = true ∧ tget false s.hamPoison 0 = false) ∧
    (let s := flipState [(35, 6), (34, 5), (33, 3)]
     let good := codeword (tgetBytes s.ham 0 32)
     let cw := withErrors 0 (tget [] s.hamErr 0) good
     cw ≠ good ∧ tget false s.hamPoison 0 = false ∧ rsDecode cw = none) := by
  refine ⟨by decide +kernel, by decide +kernel, by decide +kernel, ?_⟩
  exact rsDecode_none (by decide +kernel) (by decide +kernel) (by decide +kernel)

/-! ### Heddle -/

/-- Group 2 has one tile, tile 24 of the array, with two entries. -/
def grpState : State :=
  { regSet (pgGrp 2 + 0x100) 0x11801 ctlState with
    hed := [(24 * 2048 + 5, { valid := true, key := 1 }), (24 * 2048 + 9, { valid := true, key := 2 })] }

theorem witness_HeddleGroups :
    okState grpState = true ∧ fenced (pgGrp 2) grpState = false ∧ grpEn 2 grpState = true ∧ grpFenced 2 grpState = false ∧
    grpGeometry (grpCfg 2 grpState) = true ∧ grpE 2 grpState = 2048 := by decide +kernel
theorem witness_HeddleGroups_clear :
    (after (exec (.hedGroupClear 2) grpState)).hed = [] ∧
    grpCfg 2 (after (exec (.hedGroupCfgWrite 2 0x11800) grpState)) = 0x11800 ∧
    goes (exec (.hedGroupCfgWrite 2 0x11901) grpState) grpState = true ∧
    grpCfg 3 (after (exec (.hedGroupCfgWrite 3 0x11901) grpState)) = 0x11901 := by decide +kernel
theorem witness_HeddleGroups_check :
    regGet (pgTile 24 + 0x110) (after (exec (.heddleCheck 24 5 1) grpState)) = 1 ∧
    (49152 : Nat) = 24 * 2048 ∧ 5 * 2048 + 7 ∈ (after (exec (.heddleCheck 5 7 2) grpState)).qe.guardLost ∧
    tileGroup 25 grpState = none ∧ tileGroup 24 grpState = some 2 ∧
    (tget {} (after (exec (.heddleCheck 24 5 3) grpState)).hed (24 * 2048 + 5)).flips = [97, 98] ∧
    goes (exec (.heddleCheck 24 5 0) grpState) grpState = true := by decide +kernel

theorem witness_HeddleGroups_flips :
    (let s := { grpState with hed := [(24 * 2048 + 5, { valid := true, key := 1, flips := [3] })] }
     regGet (pgTile 24 + 0x110) (after (exec (.heddleCheck 24 5 0) s)) = 1 ∧
     (tget {} (after (exec (.heddleCheck 24 5 0) s)).hed (24 * 2048 + 5)).flips = [] ∧
     goes (exec (.heddleCheck 24 5 1) s) (hedLose 2 5 24 s) = true) ∧
    (let s := { grpState with hed := [(25 * 2048, { valid := true, flips := [1, 2] })] }
     tileGroup 25 s = none ∧ (after (exec (.heddleCheck 25 0 0) s)).hed = []) := by decide +kernel

/-! ### The service panel -/

def btnState (p : Option Nat) : State :=
  let s := regSet (pgClk + 0x18C) 1 ctlState
  { s with svc := { s.svc with pressed := p }, pick := 9 }

theorem witness_ServicePanel_button :
    btnActs (btnState none) = true ∧ (after (exec .serviceButtonPress (btnState none))).svc.pressed = some 9 ∧
    (let u := after (exec (.serviceButtonRelease 600) (btnState (some 2)))
     u.due = [.removal] ∧ u.svc.pressed = none ∧ u.svc.reqPick = 9) ∧
    (after (exec (.serviceButtonRelease 499) (btnState (some 2)))).due = [] ∧
    (let s := { btnState (some 2) with due := [.removal], qe := { ctlState.qe with held := true } }
     removalPending s = true ∧ (after (exec .serviceButtonCancel s)).due = []) := by decide +kernel
theorem witness_ServicePanel_removal :
    (let s := { btnState none with due := [.removal] }
     isMember s = false ∧ (after (exec .removalRequest s)).svc.removal = .draining) ∧
    (let s := { btnState none with svc := { (btnState none).svc with removal := .draining }, pick := 256 * 4096 * 64, qe := { ctlState.qe with ctxs := [(0, { used := true })] } }
     removalLive s = true ∧ s.svc.drainFrom + regFld (pgSvc + 0x110) 31 16 s ≤ boltN s ∧
     (after (exec .removalDrainLimit s)).svc = s.svc) ∧
    (let s := { btnState none with svc := { (btnState none).svc with removal := .draining }, jnl := { ctlState.jnl with indexed := true } }
     removalLive s = false ∧ allBuilt s = true ∧ (after (exec .removalSeal s)).svc.removal = .ready) ∧
    (let s := { btnState none with svc := { (btnState none).svc with removal := .draining }, jnl := { ctlState.jnl with slots := [(0, { used := true })] } }
     (after (exec .removalSeal s)).svc.removal = .flushing) := by decide +kernel
theorem witness_ServicePanel_seal :
    (let v := { (btnState none).svc with removal := .flushing }
     let m := { ctlState.media with tnvmcap := some 1024 }
     let s := { btnState none with svc := v, media := m, jnl := { ctlState.jnl with indexed := true, segRecs := [(0, 5)] } }
     recsLeft s = [0] ∧ (after (exec .removalSeal s)).svc.removal = .flushing) ∧
    (let s := { btnState none with svc := { (btnState none).svc with removal := .draining }, jnl := { ctlState.jnl with indexed := true } }
     recsLeft s = [] ∧ s.jnl.ckpts = [] ∧ awayDone s = true ∧ (after (exec .removalSeal s)).die.sealReason = 4) ∧
    (let v := { (btnState none).svc with removal := .draining }
     let p := { ctlState.party with awaySent := some 0 }
     let s := { btnState none with svc := v, party := p, jnl := { ctlState.jnl with indexed := true } }
     awayDone s = false ∧ (after (exec .removalSeal s)).svc.removal = .awaiting) ∧
    (let s := { btnState none with due := [.removal] }
     s.svc.reqPick < pickN s ∧ s.qe.actPhase = 0 ∧ goes (exec .removalRequest (btnState none)) (btnState none) = true) := by decide +kernel

theorem witness_ServicePanel_away :
    (let s := { btnState none with svc := { (btnState none).svc with removal := .awaiting }, pick := 65536, party := { (btnState none).party with awaySent := some 0 } }
     (after (exec .removalAwayTimeout s)).svc.removal = .ready ∧
     goes (exec .removalAwayTimeout { s with pick := 65535 }) { s with pick := 65535 } = true) ∧
    (after (exec .prsntNRise (btnState none))).svc.absent = true := by decide +kernel

/-! ### Containment -/

theorem witness_Containment_events :
    okState ctlState = true ∧ blockFatal 0x3401 = true ∧ deviceFatal 0x3401 = false ∧ errMasked 0x3401 (engPage 0x54) ctlState = false ∧
    bit (regGet (engPage 0x54 + 0x040) ctlState) 0 = true ∧
    fenced (engPage 0x54) (after (exec (.blockFatalEvent (engPage 0x54) 0x3401 0) ctlState)) = true ∧
    (let u := after (exec (.deviceFatalEvent 0x8201) ctlState); u.boot.phase = .fatal ∧ (fnGet 0 u).cfs = true) ∧
    (after (exec .pickDistributionFailure ctlState)).boot.phase = .fatal ∧ (after (exec .corePllLockLost ctlState)).boot.phase = .fatal ∧
    (after (exec (.crossingWatchdogExpiry 0x30 true) ctlState)).boot.phase = .fatal ∧
    fenced (pgFch 2) (after (exec (.crossingWatchdogExpiry 0x12 false) ctlState)) = true := by decide +kernel
theorem witness_Containment_branch :
    regFld (pgWeft + 0x100) 3 3 ctlState = 1 ∧
    (let u := after (exec (.branchNotAnswering 3) ctlState)
     regFld (pgWeft + 0x100) 3 3 u = 0 ∧ goes (exec (.branchNotAnswering 3) u) u = true) ∧
    pageAt (engPage 0x54 + 0x50) ≠ none ∧ fenced (engPage 0x54) (after (exec (.selvReq (engPage 0x54 + 0x048)) ctlState)) = true ∧
    resetting (engPage 0x54) ctlState = false ∧
    (after (exec (.softRst (engPage 0x54)) ctlState)).due = [.softReset (engPage 0x54) 2] ∧
    (let s := { fence [pgShu 3] ctlState with due := [.softReset (pgShu 3) 2], pick := 2 }
     let u := after (exec (.softResetEnd (pgShu 3) true) s)
     u.due = [] ∧ fenced (pgShu 3) u = false) := by
  decide +kernel

theorem witness_Containment_soft :
    (after (exec (.softRst (pgFch 3)) ctlState)).due = [.softReset (pgFch 3) 2] ∧ (after (exec (.softRst (pgFlc 1)) ctlState)).due = [.softReset (pgFlc 1) 2] ∧
    (let u := after (exec (.softRst pgQen) ctlState); Due.softReset pgQen 2 ∈ u.due ∧ Due.ctlReset 0 false ∈ u.due) ∧
    (after (exec (.softRst pgCxl) ctlState)).cxl.retraining = true ∧ (after (exec (.softRst (pgShu 3)) shuRunning)).shus = [] ∧
    (let s := { ctlState with due := [.softReset (pgShu 3) 2] }
     resetting (pgShu 3) s = true ∧ goes (exec (.softRst (pgShu 3)) s) s = true ∧ goes (exec (.softResetEnd (pgShu 3) true) s) s = true) := by
  decide +kernel

/-! ### Registers -/

theorem witness_Registers :
    (let u := after (exec (.snap (pgHam + 4)) (regAdd (pgHam + 0x118) 3 ctlState)); tget 0 u.snaps (pgHam + 0x118) = 3) ∧
    (after (exec .glbSnapAll ctlState)).due = [.snapAll] ∧
    (let u := after (exec (.errStatClear (pgHam + 0x018) 2) (regSet (pgHam + 0x018) 6 ctlState)); regGet (pgHam + 0x018) u = 4) ∧
    regGet (pgWeft + 0x104) (after (exec (.weftSkewClr 1) (regSet (pgWeft + 0x104) 7 ctlState))) = 0 ∧
    regGet (pgWarp + 0x108) (after (exec (.warpArbWeightWrite 2 5) ctlState)) = 5 ∧
    (after (exec (.glbLogIndex 3) { ctlState with log := { ctlState.log with ring := [(3, { code := 9 })] } })).log.captured.code = 9 ∧
    pageAt 0xF00000 = none ∧ goes (exec (.registerWrite 0 0 0xF00000 4 1) ctlState) (note 0x0303 pgWeft 0xF00000 ctlState) = true := by
  decide +kernel
theorem witness_Registers_writes :
    regGet (pgGlb + 0x144) (after (exec (.registerWrite 0 0 (pgGlb + 0x144) 4 0x55) ctlState)) = 0x55 ∧
    badShape (pgGlb + 0x142) 4 = true ∧ goes (exec (.registerWrite 0 0 (pgGlb + 0x142) 4 0) ctlState) (note 0x0304 pgWeft (pgGlb + 0x142) ctlState) = true ∧
    fwOnly (pgClk + 0x18C) = true ∧ goes (exec (.registerWrite 1 0 (pgClk + 0x18C) 4 1) ctlState) (note 0x0305 pgWeft (pgClk + 0x18C) ctlState) = true ∧
    goes (exec (.registerWrite 2 5 0 4 1) ctlState) ctlState = true ∧ stops (exec (.registerWrite 3 0 0 4 1) ctlState) .noSuchUnit = true := by
  decide +kernel

end Sys2Proof.Machine
end

