-- ==== Sys2Proof/Tests/Boot.lean ====
section
/-!
SUPPORT. Tests and witnesses: resets, boot slots, training, the journal and the restart.
-/
namespace Sys2Proof.Machine

set_option Elab.async false

/-- The invariant, in a form that can be decided. -/
def invB (s : State) : Bool := canonical s && ordered s && queueWf s

/-! ### Resets -/

def resetting0 : State := { rdyState with pick := 70, due := [.reset 0 70], keys := [(1, { limit := 1 })] }

theorem witness_Resets_device :
    invB resetting0 = true ∧ mayReset resetting0 = true ∧ resetDue 0 resetting0 = true ∧
    (let u := after (exec .deviceReset resetting0)
     u.boot.phase = .rom ∧ u.boot.holdUntil = 134 ∧ u.pick = 70 ∧ u.keys = []) := by decide +kernel

def resetting1 : State := { rdyState with pick := 70, due := [.reset 1 70], map := [(0, 5)], dram := [(0, 1)] }

theorem witness_Resets_fatal :
    invB resetting1 = true ∧ mayReset resetting1 = true ∧ resetDue 1 resetting1 = true ∧ resetDue 0 resetting1 = false ∧
    (let u := after (exec .fatalReset resetting1)
     u.boot.phase = .rom ∧ u.boot.lastFatalReset = some 0 ∧ u.map = [] ∧ u.dram = [] ∧ u.pick = 70) := by decide +kernel
theorem witness_Resets_other :
    let s3 : State := { resetting0 with due := [.reset 3 70] }
    let s2 : State := { resetting0 with due := [.reset 2 70] }
    resetDue 0 s3 = false ∧ resetDue 3 s3 = true ∧ resetDue 2 s2 = true ∧ resetDue 1 s2 = false ∧
    (after (exec .deviceReset s3)).boot.holdUntil = 134 ∧ (after (exec .deviceReset s2)).boot.holdUntil = 134 := by decide +kernel
theorem witness_Resets_none :
    let s : State := { resetting0 with boot := { resetting0.boot with stuck := true } }
    invB s = true ∧ mayReset s = false ∧ goes (exec .deviceReset s) s = true ∧ goes (exec .fatalReset s) s = true ∧
    goes (exec (.rstCtlDevice 0xA501) s) s = true := by decide +kernel

def dogState : State := { fwState with pick := 1250007, boot := { fwState.boot with wdogFrom := some 7, lastSlot := 2 } }

theorem witness_Resets_watchdog :
    invB dogState = true ∧ regGet (pgClk + 0x188) dogState = 1250000 ∧ running dogState = true ∧ dogState.boot.stuck = false ∧
    (after (exec .bootWatchdogExpiry dogState)).boot.wdogFrom = none ∧
    Due.reset 2 1250008 ∈ (after (exec .bootWatchdogExpiry dogState)).due ∧
    goes (exec .bootWatchdogExpiry { dogState with pick := 1250006 }) { dogState with pick := 1250006 } = true := by decide +kernel
theorem witness_Resets_rstCtl :
    goes (exec (.rstCtlDevice 0xA501) dogState) { dogState with due := [.reset 0 1250008] } = true ∧
    goes (exec (.rstCtlDevice 0x1) dogState) (note 0x8203 pgClk 1 dogState) = true ∧
    (let v := fence [pgClk] dogState; fenced pgClk v = true ∧ goes (exec (.rstCtlDevice 0xA501) v) v = true) := by decide +kernel

/-! ### Boot -/

def romState : State :=
  { State.reset with boot := { Boot.reset with
      slots := [(2, { present := true, image := tinyImage 1, crc := BitVec.ofNat 32 (crc32c (tinyImage 1)) })]
      recordA := { valid := true, seq := 4, active := 1, lastGood := 2, pending := true } } }

theorem test_tinyImage : izVerify (tinyImage 1) true = none ∧ izVerify (tinyImage 0) false = none ∧
    izVerify (tinyImage 1) false ≠ none := by decide +kernel
theorem witness_BootAndTraining_slot :
    invB romState = true ∧ romState.boot.phase = .rom ∧ romState.boot.holdUntil ≤ pickN romState ∧ romState.jnl.pf = .none ∧
    romState.boot.straps.toNat / 4 % 2 = 0 ∧ bootOrder romState = [1, 2, 3] ∧
    (bootOrder romState).find? (fun j => j ≠ regFld (pgPwr + 0x10C) 7 6 romState && slotGood j romState) = some 2 := by
  decide +kernel
theorem witness_BootAndTraining_recovery :
    (let s : State := { romState with boot := { romState.boot with straps := 4 } }
     s.boot.straps.toNat / 4 % 2 = 1) ∧
    (∀ j ∈ bootOrder State.reset, slotGood j State.reset = false) ∧
    (let s : State := { romState with boot := { romState.boot with holdUntil := 64 } }
     pickN s < s.boot.holdUntil ∧ goes (exec .bootSlotSelect s) s = true) := by decide +kernel
theorem witness_BootAndTraining_ok :
    let s : State := { dogState with boot := { dogState.boot with recordA := { valid := true, seq := 4, active := 1, pending := true } } }
    let u := after (exec (.rstBootOk 1) s)
    running s = true ∧ bootRecord s = some ({ valid := true, seq := 4, active := 1, pending := true }, false) ∧
    u.boot.wdogFrom = none ∧ regGet (pgClk + 0x18C) u = 1 ∧
    bootRecord u = some ({ valid := true, seq := 5, active := 1, lastGood := 1 }, true) := by decide +kernel

/-! ### Training -/

theorem witness_BootAndTraining_dram :
    fwState.boot.phase = .firmware ∧ fwState.ddr.trained = false ∧ fenced pgDdr fwState = false ∧ fwState.jnl.pf = .none ∧
    (let u := after (exec (.dramTraining [3, 2, 3, 3] 16 1 9) fwState)
     u.ddr.trained = true ∧ u.ddr.speed = 2 ∧ u.ddr.capGib = 16 ∧ u.ddr.fast = false ∧ u.die.ddrValid = true ∧ u.die.ddrModule = 9) ∧
    (after (exec (.dramTraining [3, 3, 3, 3] 64 1 9) fwState)).ddr.speed = 3 ∧
    (let v : State := { fwState with die := { fwState.die with ddrValid := true, ddrModule := 9 } }
     (after (exec (.dramTraining [3, 3, 3, 3] 64 1 9) v)).ddr.fast = true ∧ (after (exec (.dramTraining [3, 3, 3, 3] 64 1 8) v)).ddr.fast = false) ∧
    (after (exec (.dramTraining [3, 0, 3, 3] 16 1 9) fwState)).ddr.trained = false ∧
    (after (exec (.ddrTrainFull 1) fwState)).die.ddrValid = false ∧ goes (exec (.ddrTrainFull 2) fwState) fwState = true := by
  decide +kernel

def tableState : State := { fwState with boot := { fwState.boot with dieTableB := dieTable [0, 72, 64] } }

theorem witness_BootAndTraining_table :
    tableOk tableState.boot.dieTableA = false ∧ tableOk tableState.boot.dieTableB = true ∧ tableState.media.tableOk = false ∧
    (let u := after (exec (.dieTableValidation [true] []) tableState); u.media.tableOk = true ∧ u.boot.flPwrEn = true) ∧
    (let u := after (exec (.dieTableValidation [true] []) fwState); u.boot.degraded = true ∧ u.boot.phase = .ready) := by decide +kernel

def chanState : State :=
  { fwState with media := { fwState.media with tableOk := true, dies := [(0, { usable := true })], types := [(0, { maxBin := 4 })] } }

theorem witness_BootAndTraining_channel :
    chanState.media.tableOk = true ∧ fenced (pgFch 0) chanState = false ∧ dieOk (dieNo 0 0) chanState = true ∧
    binTarget 0 chanState = 4 ∧ (chanGet 0 (after (exec (.channelTraining 0 5) chanState))).bin = 4 ∧
    (chanGet 0 (after (exec (.channelTraining 0 3) chanState))).bin = 3 ∧
    stops (exec (.channelTraining 32 3) chanState) .noSuchUnit = true := by decide +kernel

/-! ### The journal and the restart -/

def wordState : State := { rdyState with pick := 65536, jnl := { rdyState.jnl with issued := [{ recs := [7, 9], acts := [] }] } }

theorem witness_JournalAndRestart_word :
    wordState.die.failed = false ∧ wordState.jnl.pf ≠ .sealed ∧
    (let u := after (exec (.journalWordDurable true) wordState)
     u.jnl.issued = [] ∧ u.die.head = wordState.die.head + 2 ∧ tget 0 u.die.ring (wordState.die.head % ringN) = 7 ∧
     tget 0 u.die.ring ((wordState.die.head + 1) % ringN) = 9) ∧
    (let u := after (exec (.journalWordDurable false) wordState); u.die.failed = true ∧ u.jnl = wordState.jnl) := by decide +kernel
theorem witness_JournalAndRestart_fold :
    let s : State := { wordState with die := { wordState.die with ctrlDirty := [(0x10003, 1)], armCtr := [(3, 77)] } }
    let u := after (exec .ctrlFieldFold s)
    s.die.foldBolt + 256 ≤ boltN s ∧ (ctlNewest (ctlWord 1 3) s.die).isNone = true ∧ u.die.ctrlDirty = [] ∧ u.die.foldBolt = 256 ∧
    (ctlNewest (ctlWord 1 3) u.die).map (fun q => q.2.2) = some (ctlValue 1 3 s.die % 2 ^ 192) ∧ ctlValue 1 3 s.die % 2 ^ 64 = 77 ∧
    goes (exec .ctrlFieldFold { s with pick := 65535 }) { s with pick := 65535 } = true := by decide +kernel

def restartState : State :=
  { chanState with
    ddr := { chanState.ddr with trained := true, capGib := 16 }
    media := { chanState.media with channels := [(0, { trained := true })] } }

theorem witness_JournalAndRestart_index :
    restartReady restartState = true ∧
    (let u := after (exec (.restartIndex 100) restartState)
     u.boot.phase = .ready ∧ u.jnl.indexed = true ∧ u.die.sealed = false) := by decide +kernel

def segmState : State :=
  { restartState with boot := { restartState.boot with phase := .ready }, jnl := { restartState.jnl with indexed := true, segs := [(0, .building)] } }

theorem witness_JournalAndRestart_segment :
    segmState.jnl.indexed = true ∧ mediaUp segmState = true ∧ segState 0 segmState = .building ∧ tabUp segmState.jnl.segs = true ∧ 0 ∉ segmState.jnl.promoQ ∧
    ringBadIn (tget (0, 0) segmState.die.ckpt 0).1 (tget 0 segmState.jnl.replayTo 0) segmState = false ∧
    (after (exec (.segmentRebuild 0 true) segmState)).jnl.segs = [] := by decide +kernel
theorem witness_JournalAndRestart_checkpoint :
    let s : State := { segmState with jnl := { segmState.jnl with segs := [], segRecs := [(0, 65536)] } }
    mediaUp s = true ∧ 65536 ≤ tget 0 s.jnl.segRecs 0 ∧ goes (exec (.checkpointStart 0) s) (mediaTurn (placeAll (checkpoint 0 s))) = true := by decide +kernel
theorem witness_JournalAndRestart_start :
    let m := { segmState.media with tnvmcap := some 1024 }
    let j := { segmState.jnl with segs := [] }
    let s : State := { segmState with map := [(0, 5), (6710886, 7), (6710887, 8)], media := m, jnl := j }
    let x := tget {} (checkpoint 0 s).jnl.ckpts 0
    segState 0 s = .built ∧ 0 < segTotal s ∧ (tget {} s.jnl.ckpts 0).left = 0 ∧ mapPoisoned (segRange 0).1 (segRange 0).2 s = false ∧
    x.start = jHead s ∧ x.left = 2048 ∧ x.copy = [(0, 5), (6710886, 7)] := by decide +kernel
theorem test_jnlMapcCfgWrite :
    (after (exec (.jnlMapcCfgWrite 0x00100001) segmState)).due ≠ [] := by decide +kernel

end Sys2Proof.Machine
end

