-- ==== Sys2Proof/Tests/Commands.lean ====
section
/-!
SUPPORT. Tests and witnesses: namespaces, the other admin commands, firmware and the block I/O commands.
-/
namespace Sys2Proof.Machine

set_option Elab.async false

/-- A command of F0's admin queue whose data has arrived. -/
def adminData0 (l : List (Nat × Nat)) (bs : Bytes) : State :=
  let s := adminCmd l
  { s with qe := { s.qe with ctxs := [(0, { (ctxGet 0 s) with buf := bs, gotData := true })] } }

/-- The critical command's Arm has passed. -/
def armedCmd (l : List (Nat × Nat)) : State :=
  let s := adminCmd l
  { s with
    qe := { s.qe with ctxs := [(0, { (ctxGet 0 s) with armOk := true })] }
    nss := [(1, { base := 0, units := 65536, active := true, attached := [0] })] }

def statusOf (c : Nat) (o : Host.Outcome State Fault Refusal) (s : State) : Bool × Bool :=
  (!(ctxGet c (after o)).used, goes o s)

/-! ### Namespaces -/

theorem witness_Namespaces_create :
    (let s := adminData0 [(0, 0x0D), (6, 0x10000)] (natLe 8 4 ++ natLe 8 4)
     holdsCmd 0 0x0D false s = true ∧ dword (ctxGet 0 s).sqe 11 / 2 ^ 24 = 0 ∧ s.boot.degraded = false ∧
     (hostData 0 4096 s).1.isSome = true ∧
     (List.range 1021).find? (fun i => !(nsGet (i + 1) s).active) = some 0) ∧
    (let s := { adminCmd [(0, 0x0D)] with boot := { rdyState.boot with degraded := true } }
     endsWith 0 stNsNotReady (exec (.namespaceCreate 0) s) s = true) := by decide +kernel
theorem witness_Namespaces_delete :
    (let s := armedCmd [(0, 0x0D), (1, 1), (10, 1)]
     holdsCmd 0 0x0D false s = true ∧ critGate 0 s = none ∧ nsAll s = [1] ∧ nsBusy 0 [1] s = false ∧
     nsAll (after (exec (.namespaceDelete 0) s)) = []) ∧
    (let s := { armedCmd [(0, 0x0D), (1, 1), (10, 1)] with jnl := { rdyState.jnl with segs := [(0, .unbuilt)] } }
     nsBusy 0 [1] s = true ∧ goes (exec (.namespaceDelete 0) s) (nsPromote [1] s) = true) ∧
    (let s := armedCmd [(0, 0x80), (1, 1), (10, 1)]
     holdsCmd 0 0x80 false s = true ∧ nsVisible 0 1 s = true ∧ (nsGet 1 (after (exec (.formatNvm 0) s))).lbaf = 1) := by decide +kernel
theorem witness_Namespaces_attach :
    (let s := { adminData0 [(0, 0x15), (1, 1), (6, 0x10000)] (natLe 2 1 ++ natLe 2 1) with nss := [(1, { units := 65536, active := true })] }
     holdsCmd 0 0x15 false s = true ∧ 1 ∈ nsAll s ∧ (hostData 0 4096 s).1.isSome = true ∧ ctrlsOk [1] s = true ∧
     (nsGet 1 (after (exec (.namespaceAttachment 0) s))).attached = [0]) ∧
    (let s := armedCmd [(0, 0x84), (10, 2)]
     holdsCmd 0 0x84 false s = true ∧ critGate 0 s = none ∧ ioCtxs s = [] ∧ (after (exec (.sanitize 0) s)).qe.sanitizing = true) ∧
    (let s := { armedCmd [(0, 0x80), (1, 1), (10, 1)] with media := { rdyState.media with ro := true } }
     endsWith 0 vsReadOnly (exec (.formatNvm 0) s) s = true) := by decide +kernel

theorem witness_Namespaces_more :
    (let s := { adminData0 [(0, 0x15), (1, 1), (6, 0x10000)] (natLe 2 1 ++ natLe 2 1) with nss := [(1, { units := 65536, active := true, attached := [0] })] }
     endsWith 0 stNsAttached (exec (.namespaceAttachment 0) s) s = true) ∧
    (let s := { adminData0 [(0, 0x15), (1, 1), (6, 0x10000), (10, 1)] (natLe 2 1 ++ natLe 2 1) with nss := [(1, { units := 65536, active := true, attached := [0] })] }
     (nsGet 1 (after (exec (.namespaceAttachment 0) s))).attached = []) ∧
    (let s := armedCmd [(0, 0x84), (10, 2)]
     let s := { s with qe := { s.qe with ctxs := s.qe.ctxs ++ [(1, { used := true, sq := 1, claimed := true, order := 9 })] } }
     (∃ k ∈ ioCtxs s, (ctxGet k s).claimed = true) ∧ goes (exec (.sanitize 0) s) s = true) := by decide +kernel

/-! ### Other admin commands -/

theorem witness_OtherAdmin_identify :
    (let s := adminCmd [(0, 0x06), (1, 5000), (10, 0)]
     holdsCmd 0 0x06 false s = true ∧ (match identifyBytes 0 (ctxGet 0 s).sqe s with
       | .inr st => decide (st = stNamespace)
       | .inl _ => false) = true ∧ endsWith 0 stNamespace (exec (.identify 0) s) s = true) ∧
    (let s := adminCmd [(0, 0x02), (10, 0x00FF0077)]
     holdsCmd 0 0x02 false s = true ∧ (pageBytes 0x77 0 s).isNone = true ∧ endsWith 0 stLogPage (exec (.getLogPage 0) s) s = true) ∧
    (let s := adminCmd [(0, 0x02), (6, 0x10000), (10, 0x00030003)]
     (pageBytes 0x03 0 s).isSome = true ∧ (bufferOf 0 16 s).1.isSome = true ∧ (after (exec (.getLogPage 0) s)).sent.length ≠ 0) := by
  decide +kernel
theorem witness_OtherAdmin_virtualization :
    (let s := armedCmd [(0, 0x1C), (10, 0x00010001), (11, 960)]
     holdsCmd 0 0x1C false s = true ∧ flexOthers 0 s + 960 ≤ 8128 ∧ (fnGet 0 (after (exec (.virtualizationManagement 0) s))).flexSq = 960) ∧
    (let s := armedCmd [(0, 0x1C), (10, 0x00020008), (11, 4)]
     (fnGet 1 (after (exec (.virtualizationManagement 0) s))).flexCq = 4) ∧
    (let s := fnMod 1 (fun y => { y with flexSq := 2 }) (armedCmd [(0, 0x1C), (10, 0x00020009)])
     let u := after (exec (.virtualizationManagement 0) s)
     (fnGet 1 u).online = true) ∧
    (let s := fnMod 1 (fun y => { y with online := true }) (armedCmd [(0, 0x1C), (10, 0x00020008), (11, 4)])
     endsWith 0 stSecState (exec (.virtualizationManagement 0) s) s = true) := by decide +kernel
theorem witness_OtherAdmin_selfTest :
    (let s := adminCmd [(0, 0x14), (10, 1)]; holdsCmd 0 0x14 false s = true ∧ s.qe.selfTest.running = false ∧ testCode 0 s = 1) ∧
    (let s := adminCmd [(0, 0x14), (10, 0xF)]
     endsWith 0 stOk (exec (.deviceSelfTestAbort 0) s) s = true) ∧
    (let s : State := { ctlState with qe := { ctlState.qe with selfTest := { running := true, steps := 3, total := 9 } } }
     (after (exec (.selfTestStep true) s)).qe.selfTest.steps = 4 ∧
     ((after (exec (.selfTestStep false) s)).qe.selfTest.results.headD (0, 0, 0)).2.1 = 6) ∧
    (let s := armedCmd [(0, 0xE0), (10, 0x41)]
     holdsCmd 0 0xE0 false s = true ∧ fuseResult 1 1 s = 0 ∧ (after (exec (.fuseRepair 0) s)).hamx.field = [{ bank := 1, row := 1 }]) := by
  decide +kernel

theorem witness_OtherAdmin_test :
    (let s := adminCmd [(0, 0x14), (10, 2)]; testCode 0 s = 2 ∧ sqeNsid (ctxGet 0 s).sqe = 0 ∧ isNext (exec (.deviceSelfTestExtended 0) s) = true) ∧
    (let t : SelfTest := { running := true, steps := 3, total := 5 }
     let s := { adminCmd [(0, 0x14), (10, 1)] with qe := { (adminCmd [(0, 0x14), (10, 1)]).qe with selfTest := t }, pick := 9 }
     endsWith 0 stSelfTest (exec (.deviceSelfTestShort 0) s) s = true ∧ s.qe.selfTest.stepPick ≠ some (pickN s) ∧ serving s = true ∧
     testUnit s = none ∧
     (let u := after (exec (.selfTestStep true) s)
      u.qe.selfTest.running = true ∧ u.qe.selfTest.stepPick = some 9 ∧ goes (exec (.selfTestStep true) u) u = true ∧
      (after (exec (.selfTestStep true) { u with pick := 10 })).qe.selfTest.running = false)) ∧
    (let s := armedCmd [(0, 0xE0), (10, 0x41)]
     let v := { s with hamx := { s.hamx with field := [{ bank := 1, row := 1 }] } }
     fuseResult 1 1 v ≠ 0 ∧ (after (exec (.fuseRepair 0) v)).hamx.field.length = 1) := by decide +kernel

/-! ### Firmware -/

theorem witness_FirmwareCommands_download :
    (let s := adminData0 [(0, 0x11), (6, 0x10000), (10, 0), (11, 1)] [1, 2, 3, 4]
     holdsCmd 0 0x11 false s = true ∧ (hostData 0 4 s).1 = some [1, 2, 3, 4] ∧
     (after (exec (.firmwareImageDownload 0) s)).boot.download = [0, 0, 0, 0, 1, 2, 3, 4]) := by decide +kernel

def commitState (cdw10 : Nat) (img : Bytes) : State :=
  let s := armedCmd [(0, 0x10), (10, cdw10)]
  let slot : FwSlot := { present := true, image := tinyImage 1, crc := BitVec.ofNat 32 (crc32c (tinyImage 1)) }
  { s with boot := { s.boot with download := img, slots := [(3, slot)] } }

/-- An activation drains while another command is in flight. -/
def drainState : State :=
  let s := commitState 0x1B []
  { s with qe := { s.qe with actPhase := 1, ctxs := [(0, {}), (1, { used := true, fn := 0, sq := 1 })] }, pick := 150000 }

theorem witness_FirmwareCommands_commit :
    (let s := commitState 0x02 (tinyImage 1)
     holdsCmd 0 0x10 false s = true ∧ critGate 0 s = none ∧ fcAction 0 s = 0 ∧ imageGood s.boot.download = true ∧
     (tget {} (after (exec (.firmwareCommitAtReset 0) s)).boot.slots 2).image = tinyImage 1) ∧
    (let s := commitState 0x0A (tinyImage 0)
     fcAction 0 s = 1 ∧ imageGood s.boot.download = false ∧ endsWith 0 stFwImage (exec (.firmwareCommitAtReset 0) s) s = true) ∧
    (let s := commitState 0x1B []
     fcAction 0 s = 3 ∧ slotGood 3 s = true ∧ (after (exec (.firmwareCommitActivate 0) s)).due = [.activate 0 3] ∧ (activateAct 0 3 s).qe.actPhase = 1) := by decide +kernel
theorem witness_FirmwareCommands_activation :
    (let s := { commitState 0x1B [] with qe := { (commitState 0x1B []).qe with actPhase := 1, actSlot := 3 }, pick := 150000 }
     actLive s = false ∧ (after (exec .activationDrainEnd s)).qe.actPhase = 2 ∧ (after (exec .activationDrainEnd s)).qe.actDrain = 150000 ∧
     (let v := { s with pick := 150001 }; goes (exec .activationDrainEnd v) v = true)) ∧
    actLive drainState = true ∧ goes (exec .activationDrainEnd drainState) drainState = true ∧
    (after (exec .activationDrainLimit drainState)).qe.actPhase = 0 ∧
    (let v := { drainState with pick := 149999 }; goes (exec .activationDrainLimit v) v = true) := by decide +kernel
/-- The drain is over. -/
def switchState : State :=
  { commitState 0x1B [] with qe := { (commitState 0x1B []).qe with actPhase := 2, actSlot := 3, actDrain := 7 }, pick := 50007 }
theorem witness_FirmwareCommands_end :
    (∀ ok, Due.actDone ok ∉ switchState.due) ∧ Due.actDone true ∈ (after (exec (.activationEnd true) switchState)).due ∧
    (after (exec (.activationEnd true) { switchState with pick := 50008 })).due = [.actDone false] ∧
    (after (exec (.activationEnd false) switchState)).due = [.actDone false] ∧ (activateDone true switchState).qe.actPhase = 0 ∧
    (let s := commitState 0x1B []; goes (exec (.activationEnd true) s) s = true) := by
  refine ⟨fun ok => ?_, ?_⟩
  · cases ok <;> decide +kernel
  · decide +kernel

/-! ### Host answers and block commands -/

/-- Context 0 holds an I/O command on namespace 1, which has one GiB. -/
def ioCmd (l : List (Nat × Nat)) : State :=
  let s := enable [engPage 0x40, engPage 0x48, engPage 0x50, engPage 0x58] (adminCmd l)
  { s with
    qe := { s.qe with ctxs := [(0, { used := true, fn := 0, sq := 1, cid := 9, sqe := sqe l, order := 1, nsid := 1, seq := 1 })] }
    nss := [(1, { units := 65536, active := true, attached := [0] })] }
def ioMod (g : Ctx → Ctx) (s : State) : State := { s with qe := { s.qe with ctxs := [(0, g (ctxGet 0 s))] } }

theorem witness_HostAnswers :
    (let s := ioMod (fun x => { x with asked := 7 }) (ioCmd [(0, 0x01)])
     (ctxGet 0 (after (exec (.hostReadCompletion 0 0 0 [1]) s))).buf = [1] ∧
     (ctxGet 0 (after (exec (.hostReadCompletion 0 1 0 [1]) s))).gotMptr = true ∧
     (ctxGet 0 (after (exec (.hostReadCompletion 0 2 0 [1]) s))).list = [1] ∧
     (ctxGet 0 (after (exec (.hostReadCompletion 0 0 2 []) s))).badData = 2) ∧
    (let s := fnMod 0 (fun y => { y with lockUntil := some 2 }) { ctlState with pick := 512 }
     (fnGet 0 (after (exec (.lockoutEnd 0) s))).lockUntil = none ∧ goes (exec (.lockoutEnd 0) { s with pick := 511 }) { s with pick := 511 } = true) := by
  decide +kernel
/-- A write with one unit still to stage; a Dataset Management whose one range has arrived. -/
def stageState : State :=
  ioMod (fun x => { x with planned := true, plan := [{ txid := 1, units := [{ midx := 4, gmask := 3, gs := [{ bytes := [7] }, {}, {}, {}] }] }] })
    (ioCmd [(0, 0x01)])
def dsmState : State :=
  ioMod (fun x => { x with gotData := true, open_ := true, buf := zeros 4 ++ natLe 4 8 ++ natLe 8 0 })
    (ioCmd [(0, 0x09), (6, 0x10000), (10, 0), (11, 4)])

theorem witness_HostAnswers_staging :
    (let s := stageState
     slotFree s = some 0 ∧ mayClaim s = true ∧ goes (exec (.writeClaim 0) s) s = true ∧
     (let u := after (exec (.stagingUnitComplete 0) s)
      (slotGet 0 u).used = true ∧ (slotGet 0 u).midx = 4 ∧ (slotGet 0 u).full = true ∧ ((ctxGet 0 u).plan.getD 0 {}).units = [])) ∧
    (let s := ioMod (fun x => { x with planned := true }) (ioCmd [(0, 0x01)])
     goes (exec (.writeClaim 0) s) (finishDw 0 stOk 0 0 s) = true) ∧
    (let s := ioMod (fun x => { x with planned := true, plan := [{ txid := 1 }] }) (ioCmd [(0, 0x01)])
     (ctxGet 0 (after (exec (.writeClaim 0) s))).claimed = true) := by decide +kernel

theorem witness_BlockIo :
    (let s := ioCmd [(0, 0x02), (6, 0x10000), (10, 5)]
     holdsCmd 0 0x02 true s = true ∧ (ioGate 0 s).isNone = true ∧ (bufferOf 0 4096 s).1.isSome = true ∧ (gather 0 s).1.isSome = true ∧
     outWait (ctxGet 0 s) s = false) ∧
    (let s := ioCmd [(0, 0x02), (10, 262144)]; endsWith 0 stLba (exec (.read 0) s) s = true) ∧
    (let s := ioMod (fun x => { x with ro := true }) (ioCmd [(0, 0x01)]); endsWith 0 vsReadOnly (exec (.write 0) s) s = true) ∧
    (let s := ioMod (fun x => { x with gotData := true, buf := [1] }) (ioCmd [(0, 0x01), (6, 0x10000)])
     fenced pgHam s = false ∧ (hostData 0 4096 s).1.isSome = true ∧ (ctxGet 0 (after (exec (.write 0) s))).planned = true) ∧
    (let s := ioCmd [(0, 0x00), (1, 1)]
     flushPending (ctxGet 0 s) s = false ∧ endsWith 0 stOk (exec (.flush 0) s) s = true) := by decide +kernel
theorem witness_BlockIo_dsm :
    (let s := dsmState
     holdsCmd 0 0x09 true s = true ∧ (hostData 0 16 s).1.isSome = true ∧ bit (dword (ctxGet 0 s).sqe 11) 2 = true ∧
     (ctxGet 0 (after (exec (.datasetManagement 0) s))).planned = true) ∧
    (let s := ioMod (fun x => { x with gotData := true }) (ioCmd [(0, 0x09), (6, 0x10000), (11, 2)])
     endsWith 0 stOk (exec (.datasetManagement 0) s) s = true) := by decide +kernel

theorem witness_HostAnswers_claim :
    (let s := stageState
     tabUp s.ham = true ∧ s.hamx.ties = [] ∧ errsIn 32 (slotOffset 0 s) 16384 s.hamErr = [] ∧ fenced pgHam s = false ∧
     (ctxGet 0 s).run = none ∧ (∃ t ∈ (ctxGet 0 s).plan, t.units ≠ [])) ∧
    (let s := { stageState with jnl := { stageState.jnl with ringHold := true } }
     mayClaim s = false ∧ goes (exec (.writeClaim 0) s) s = true) ∧
    (let s := ioCmd [(0, 0x01)]; goes (exec (.hostReadCompletion 0 1 0 [1]) s) s = true) := by decide +kernel
/-- An earlier write of the namespace, whose ranges are not known yet. -/
def behindOpen (s : State) : State :=
  let x : Ctx := { used := true, sq := 1, cid := 3, nsid := 1, seq := 1, order := 0, cls := 2, open_ := true }
  { s with qe := { s.qe with ctxs := s.qe.ctxs ++ [(1, x)] } }
theorem witness_BlockIo_waits :
    (let s := behindOpen (ioMod (fun x => { x with cls := 1 }) (ioCmd [(0, 0x02), (6, 0x10000)]))
     guardWait (ctxGet 0 s) s = true ∧ (ioGate 0 s).isSome = true) ∧
    (let s := ioCmd [(0, 0x00), (1, 1)]
     let s := { s with jnl := { s.jnl with slots := [(0, { used := true, midx := 4, nsid := 1, posted := 1 })] } }
     flushPending (ctxGet 0 s) s = true ∧ goes (exec (.flush 0) s) s = true) ∧
    (let s := ioMod (fun x => { x with ends := some stReadError }) (ioCmd [(0, 0x02), (6, 0x10000)])
     (gather 0 s).1 = some [] ∧ (ctxGet 0 (countRead 0 0 (sendGranules (ctxGet 0 s) 0 [] s))).ends = some stReadError) := by decide +kernel
theorem witness_BlockIo_dsmGuard :
    let es := (dsmRanges (zeros 4 ++ natLe 4 8 ++ natLe 8 0)).map fun r => nsExtent { units := 65536, active := true } r.1 r.2
    (∀ r ∈ dsmRanges (zeros 4 ++ natLe 4 8 ++ natLe 8 0), r.1 + r.2 ≤ nsBlocks { units := 65536, active := true }) ∧
    guardWait (ctxGet 0 (openExtents 0 es [] dsmState)) (openExtents 0 es [] dsmState) = false ∧
    (let s := behindOpen (ioMod (fun x => { x with cls := 2 }) dsmState)
     guardWait (ctxGet 0 (openExtents 0 es [] s)) (openExtents 0 es [] s) = true) := by decide +kernel

/-! ### Commands through an engine -/

theorem witness_EngineIo_fields :
    (let s := ioMod (fun x => { x with gotData := true }) (ioCmd [(0, 0x85), (6, 0x10000), (13, 0)])
     holdsCmd 0 0x85 true s = true ∧ cwFieldsOk (ctxGet 0 s).sqe = true ∧ fwEngine 0x40 8 s = some 0x40 ∧
     (hostData 0 4096 s).1.isSome = true ∧ spent 0 rTwc s = false) ∧
    (let s := ioCmd [(0, 0x86), (6, 0x10000), (10, 262144)]
     zeroFrom (ctxGet 0 s).sqe 13 11 = true ∧ endsWith 0 stLba (exec (.decompressRead 0) s) s = true) ∧
    (let s := ioCmd [(0, 0x86), (6, 0x10000)]
     fwEngine 0x48 8 s = some 0x48 ∧ (bufferUnless false 0 4096 s).1.isSome = true ∧ (gather 0 s).1.isSome = true) ∧
    (let s := ioCmd [(0, 0x8E)]
     endsWith 0 vsDigLength (exec (.digestRead 0) s) s = true) ∧
    (let s := ioCmd [(0, 0x8E), (6, 0x10000), (14, 64)]
     sqeBits (ctxGet 0 s).sqe 511 448 = 64 ∧ fwEngine 0x50 4 s = some 0x50 ∧ (bufferOf 0 32 s).1.isSome = true ∧
     spent 0 rDig s = false) := by decide +kernel
theorem witness_EngineIo_engines :
    (let s := ioMod (fun x => { x with gotData := true }) (ioCmd [(0, 0x85), (6, 0x10000)])
     let v := regSet (engPage 0x40 + 0x010) 0 s
     fwEngine 0x40 8 v = none ∧ fenced (engPage 0x40) v = false ∧ goes (exec (.compressWrite 0) v) v = true ∧
     (let w := fence ((List.range 8).map fun i => engPage (0x40 + i)) s
      (∀ a < 0x48, 0x40 ≤ a → fenced (engPage a) w = true) ∧ endsWith 0 vsFenced (exec (.compressWrite 0) w) w = true)) ∧
    (let s := ioCmd [(0, 0x86), (6, 0x10000)]
     (gather 0 s).1 = some [] ∧ (twFrames false 4096 1 {} []).1 ≠ 0 ∧
     (let f := (twCompress {} [7, 8]).1; (twFrames false 4096 (f.length + 1) {} f).1 = 0) ∧ (ctxGet 0 s).ends = none ∧ outWait (ctxGet 0 s) s = false) := by decide +kernel
/-- A specification of 64-byte records and no terms. -/
def scanSpec : Bytes := natLe 2 64 ++ zeros 254
theorem witness_EngineIo_scanRun :
    (let s := ioMod (fun x => { x with gotMptr := true, mbuf := scanSpec }) (ioCmd [(0, 0x8A), (4, 0x20000), (6, 0x10000)])
     scSet scanSpec = none ∧ scDetail scanSpec (groupWidth (some 0) 0 false s) = 0 ∧ (gather 0 s).1 = some [] ∧ (ctxGet 0 s).badData = 0 ∧
     spent 0 rScn s = false ∧ (scRun scanSpec 0 0 0 [] s).2.1.lost = false ∧ (scRun scanSpec 0 0 0 [] s).2.2.2.1 = false ∧
     (scRun scanSpec 0 0 0 [] s).1 = []) := by decide +kernel

theorem witness_EngineIo_scan :
    (let s := ioCmd [(0, 0x8A), (4, 0x20000), (6, 0x10000)]
     holdsCmd 0 0x8A true s = true ∧ sqeMptr (ctxGet 0 s).sqe = 0x20000 ∧ srToWindow (ctxGet 0 s).sqe = false ∧ srCap (ctxGet 0 s).sqe = 4096 ∧
     fwEngine 0x58 8 s = some 0x58 ∧ (bufferOf 0 4096 s).1.isSome = true ∧
     (ctxGet 0 (after (exec (.scanRead 0) s))).asked = 2) ∧
    (let s := ioCmd [(0, 0x8A), (12, 0x10000)]
     endsWith 0 stField (exec (.scanRead 0) s) s = true) := by decide +kernel

end Sys2Proof.Machine
end

