-- ==== Sys2Proof/Tests/Izkin.lean ====
section
/-!
SUPPORT. Tests and witnesses: the Izkin instructions on a small running task.
-/
namespace Sys2Proof.Machine

set_option Elab.async false

/-- The premises of the Izkin statements, in a form that can be decided. -/
def izOk (n t : Nat) (x : Task) (s : State) : Bool :=
  n < 128 && izTask n s = some t && taskGet t s = x && !x.storeErr && x.stack.length ≤ 32 && x.rstack.length ≤ 16 &&
  canonical s && ordered s && queueWf s

theorem izOk_runs {n t : Nat} {x : Task} {s : State} (h : izOk n t x s = true) : Runs n t x s ∧ Fits x ∧ Inv s := by
  simp only [izOk, Bool.and_eq_true, decide_eq_true_eq, Bool.not_eq_true'] at h
  obtain ⟨⟨⟨⟨⟨⟨⟨⟨a, b⟩, c⟩, d⟩, e⟩, f⟩, g⟩, i⟩, j⟩ := h
  exact ⟨⟨a, b, c, d⟩, ⟨e, f⟩, g, i, j⟩

/-- The firmware image of these tests: an ENTRY function of two bytes, then one that takes two entries and leaves one. -/
def izImage : Bytes := izpImage 1 0x7F [0x06, 0x85, 0x20, 0x67] [(0, 2, 1, 0, 1), (2, 2, 2, 1, 0)]

/-- Core 0 runs task 7 of the firmware, whose window 2 is 4,096 bytes of Hamper from 0x1000. -/
def izState (x : Task) : State :=
  enable [pgHam, pgItn, pgIzc 0, pgIzk 0]
    { rdyState with
      boot := { rdyState.boot with slots := [(2, { present := true, image := izImage })], lastSlot := 2 }
      cores := [(0, { task := some 7 })]
      tasks := [(7, x)]
      runs := [(1024, { wins := [(2, { space := 1, base := 0x1000, size := 4096, rd := true, wr := true, atom := true })] })]
      ham := [(0x1000, 0x80), (0x1001, 0x02)] }

/-- A running firmware task with these data and return entries, at offset 9 of its code. -/
def izx (l r : List W64) : Task := { state := .running, house := true, stack := l, rstack := r, pc := 9 }

/-- What an instruction leaves of the task: data stack, return stack, pc. -/
def izGives (i : Instr) (l r : List W64) : List W64 × List W64 × Nat :=
  let x := taskGet 7 (after (exec i (izState (izx l r))))
  (x.stack, x.rstack, x.pc.toNat)

/-- What an instruction of `len` bytes leaves of the data stack; the rest stands as it must. -/
def izTo (i : Instr) (len : Nat) (l m : List W64) : Bool := izGives i l [] = (m, [], 9 + len)

/-- The trap that an instruction ends in: `IZK_TRAP_CODE` and the address. -/
def izTraps (i : Instr) (x : Task) : Nat × Nat :=
  let u := after (exec i (izState x))
  (regGet (pgIzk 0 + 0x110) u % 65536, regGet (pgIzk 0 + 0x118) u)

theorem witness_StackGroup_state : izOk 0 7 (izx [1, 2, 3] [4]) (izState (izx [1, 2, 3] [4])) = true := by decide +kernel
theorem test_literals :
    izTo (.izNop 0) 1 [1] [1] = true ∧ izTo (.izLit8 0 0x80) 2 [] [0xFFFFFFFFFFFFFF80] = true ∧
    izTo (.izLit16 0 0x8001) 3 [] [0xFFFFFFFFFFFF8001] = true ∧ izTo (.izLit32 0 0x80000001) 5 [] [0xFFFFFFFF80000001] = true ∧
    izTo (.izLit64 0 0x123456789ABCDEF0) 9 [] [0x123456789ABCDEF0] = true ∧ izTo (.izLitw 0 2) 2 [] [0x2000000000000000] = true ∧
    izTo (.izDepth 0) 1 [1, 2, 3] [3, 1, 2, 3] = true := by decide +kernel
theorem test_stack :
    izTo (.izDrop 0) 1 [1, 2] [2] = true ∧ izTo (.izDup 0) 1 [1, 2] [1, 1, 2] = true ∧ izTo (.izSwap 0) 1 [1, 2] [2, 1] = true ∧
    izTo (.izNip 0) 1 [1, 2] [1] = true ∧ izTo (.izOver 0) 1 [1, 2] [2, 1, 2] = true ∧ izTo (.izTuck 0) 1 [1, 2] [1, 2, 1] = true ∧
    izTo (.izDup2 0) 1 [1, 2] [1, 2, 1, 2] = true ∧ izTo (.izRot 0) 1 [1, 2, 3] [3, 1, 2] = true ∧
    izTo (.izNth 0 2) 2 [1, 2, 3] [3, 1, 2, 3] = true ∧ izTo (.izSetn 0 1) 2 [9, 1, 2] [1, 9] = true ∧
    izTo (.izDropn 0 2) 2 [1, 2, 3] [3] = true := by decide +kernel
theorem test_returnStack :
    izGives (.izTor 0) [1, 2] [3] = ([2], [1, 3], 10) ∧ izGives (.izFromr 0) [1] [3, 4] = ([3, 1], [4], 10) ∧
    izGives (.izRfetch 0) [1] [3, 4] = ([3, 1], [3, 4], 10) := by decide +kernel

theorem witness_Arithmetic_state : izOk 0 7 (izx [5, -7] []) (izState (izx [5, -7] [])) = true := by decide +kernel
theorem test_arithmetic :
    izTo (.izAdd 0) 1 [1, -1] [0] = true ∧ izTo (.izSub 0) 1 [2, 1] [-1] = true ∧ izTo (.izMul 0) 1 [3, -2] [-6] = true ∧
    izTo (.izMulhu 0) 1 [-1, -1] [-2] = true ∧ izTo (.izMulhs 0) 1 [-1, 1] [-1] = true ∧ izTo (.izDivu 0) 1 [0, 5] [-1] = true ∧
    izTo (.izRemu 0) 1 [0, 5] [5] = true ∧ izTo (.izDivs 0) 1 [2, -7] [-3] = true ∧ izTo (.izRems 0) 1 [2, -7] [-1] = true ∧
    izTo (.izDivs 0) 1 [-1, 0x8000000000000000] [0x8000000000000000] = true ∧
    izTo (.izAnd 0) 1 [12, 10] [8] = true ∧ izTo (.izOr 0) 1 [12, 10] [14] = true ∧ izTo (.izXor 0) 1 [12, 10] [6] = true ∧
    izTo (.izShl 0) 1 [65, 3] [6] = true ∧ izTo (.izShr 0) 1 [1, -2] [0x7FFFFFFFFFFFFFFF] = true ∧
    izTo (.izSar 0) 1 [1, -2] [-1] = true ∧ izTo (.izRol 0) 1 [1, 0x8000000000000000] [1] = true ∧
    izTo (.izRor 0) 1 [1, 1] [0x8000000000000000] = true := by decide +kernel
theorem test_minMax :
    izTo (.izMinu 0) 1 [-1, 1] [1] = true ∧ izTo (.izMaxu 0) 1 [-1, 1] [-1] = true ∧ izTo (.izMins 0) 1 [-1, 1] [-1] = true ∧
    izTo (.izMaxs 0) 1 [-1, 1] [1] = true := by decide +kernel
theorem test_immediates :
    izTo (.izNeg 0) 1 [1] [-1] = true ∧ izTo (.izNot 0) 1 [1] [-2] = true ∧ izTo (.izAddi 0 0xFF) 2 [1] [0] = true ∧
    izTo (.izAddi32 0 0xFFFFFFFF) 5 [1] [0] = true ∧ izTo (.izAndi 0 0xFFFFFFFF) 5 [-1] [0xFFFFFFFF] = true ∧
    izTo (.izShli 0 63) 2 [1] [0x8000000000000000] = true ∧ izTo (.izShri 0 63) 2 [-1] [1] = true ∧
    izTo (.izSari 0 63) 2 [-2] [-1] = true ∧ izTo (.izSext 0 1) 2 [0x180] [-128] = true ∧ izTo (.izZext 0 4) 2 [-1] [0xFFFFFFFF] = true ∧
    stops (exec (.izShli 0 64) (izState (izx [1] []))) .undefinedImmediate = true ∧
    stops (exec (.izSext 0 3) (izState (izx [1] []))) .undefinedImmediate = true := by decide +kernel
theorem test_products :
    izTo (.izGfmul 0) 2 [0x0202, 0x8003] [0x1D06] = true ∧ izTo (.izClmul 0) 2 [3, 3] [5] = true ∧
    izTo (.izClmulh 0) 2 [0x8000000000000000, 4] [2] = true := by decide +kernel

theorem test_bits :
    izTo (.izClz 0) 1 [1] [63] = true ∧ izTo (.izCtz 0) 1 [0] [64] = true ∧ izTo (.izPopc 0) 1 [-1] [64] = true ∧
    izTo (.izBfx 0 0x0804) 3 [0x1F80] [0xF8] = true ∧ izTo (.izBfxs 0 0x0804) 3 [0x1F80] [-8] = true ∧
    izTo (.izBswap 0) 1 [0x0102030405060708] [0x0807060504030201] = true ∧
    izTo (.izBpermi 0 0x8001020304050607) 9 [0x0102030405060708] [0x0007060504030201] = true ∧
    izTo (.izBperm 0) 1 [0, 0xAB] [0xABABABABABABABAB] = true ∧ izTo (.izBfi 0 0x0408) 3 [0xF, 0] [0xF00] = true ∧
    izTo (.izBfxv 0) 1 [8, 60, 0xF000000000000000] [0xF] = true ∧ izTo (.izBfiv 0) 1 [4, 8, 0xF, 0] [0xF00] = true ∧
    stops (exec (.izBfx 0 0x0140) (izState (izx [1] []))) .undefinedImmediate = true := by decide +kernel
theorem witness_BitsAndCompares_state : izOk 0 7 (izx [7, 2, 1] []) (izState (izx [7, 2, 1] [])) = true := by decide +kernel
theorem test_compares :
    izTo (.izEq 0) 1 [1, 1] [1] = true ∧ izTo (.izNe 0) 1 [1, 1] [0] = true ∧ izTo (.izLtu 0) 1 [-1, 1] [1] = true ∧
    izTo (.izLeu 0) 1 [1, 1] [1] = true ∧ izTo (.izGtu 0) 1 [-1, 1] [0] = true ∧ izTo (.izGeu 0) 1 [1, 1] [1] = true ∧
    izTo (.izLts 0) 1 [-1, 1] [0] = true ∧ izTo (.izLes 0) 1 [1, 1] [1] = true ∧ izTo (.izGts 0) 1 [-1, 1] [1] = true ∧
    izTo (.izGes 0) 1 [1, -1] [0] = true ∧ izTo (.izEqz 0) 1 [0] [1] = true ∧ izTo (.izNez 0) 1 [5] [1] = true ∧
    izTo (.izSelect 0) 1 [0, 2, 1] [2] = true ∧ izTo (.izSelect 0) 1 [7, 2, 1] [1] = true := by decide +kernel

theorem test_control :
    izGives (.izJmp 0 0xFFFE) [1] [] = ([1], [], 10) ∧ izGives (.izJmpl 0 2) [1] [] = ([1], [], 16) ∧
    izGives (.izJz 0 4) [0, 1] [] = ([1], [], 16) ∧ izGives (.izJnz 0 4) [0, 1] [] = ([1], [], 12) ∧
    izGives (.izJzl 0 4) [1, 1] [] = ([1], [], 14) ∧ izGives (.izJnzl 0 4) [1, 1] [] = ([1], [], 18) ∧
    izGives (.izCall 0 1) [1, 2] [] = ([1, 2], [12], 2) ∧ izGives (.izRet 0) [1] [5, 6] = ([1], [6], 5) ∧
    izGives (.izLoop 0 0xFFFD) [] [1, 6] = ([], [6], 12) ∧ izGives (.izLoop 0 0xFFFD) [] [2, 6] = ([], [1, 6], 9) ∧
    izTraps (.izTrap 0 0x42) (izx [] []) = (0x420B, 0) := by decide +kernel
theorem witness_ControlGroup_call :
    (imgFun (taskImage (izx [] []) (izState (izx [] []))) 1 (izState (izx [] []))).any (fun g => !g.entry && g.off = 2) = true ∧
    stops (exec (.izCall 0 0) (izState (izx [1] []))) .undefinedImmediate = true := by decide +kernel

theorem witness_StackTraps :
    izTraps (.izAdd 0) (izx [1] []) = (2, 0) ∧ izTraps (.izSt64 0) (izx [1] []) = (2, 0) ∧ izTraps (.izSwap 0) (izx [] []) = (2, 0) ∧
    izTraps (.izDup 0) (izx (List.replicate 32 1) []) = (2, 0) ∧ izTraps (.izLit64 0 1) (izx (List.replicate 32 1) []) = (2, 0) ∧
    izTraps (.izRet 0) (izx [] []) = (2, 0) ∧ bits (regGet (pgIzk 0 + 0x038) (izState (izx [] []))) 31 30 = 0 := by decide +kernel

theorem witness_StackTraps_immediates :
    izOk 0 7 (izx [1, 2] []) (izState (izx [1, 2] [])) = true ∧
    (∀ i ∈ ([.izShli 0 64, .izShri 0 64, .izSari 0 255, .izNth 0 31, .izSetn 0 31, .izDropn 0 0, .izDropn 0 33, .izLitw 0 16, .izFeat 0 4,
              .izSext 0 3, .izZext 0 8, .izBfx 0 0x0005, .izBfx 0 0x0140, .izBfxs 0 0x4001, .izBfi 0 0x0040, .izCall 0 0, .izCall 0 2] : List Instr),
       stops (exec i (izState (izx [1, 2] []))) .undefinedImmediate = true) ∧
    (∀ i ∈ ([.izAdd 128, .izLd64 128, .izEnd 128, .taskDispatch 128] : List Instr),
       stops (exec i (izState (izx [1, 2] []))) .noSuchUnit = true) := by decide +kernel
theorem test_bounds :
    izTo (.izNth 0 30) 2 (List.replicate 31 5) (List.replicate 32 5) = true ∧
    izTo (.izDropn 0 32) 2 (List.replicate 32 1) [] = true ∧ izTo (.izLitw 0 15) 2 [] [0xF000000000000000] = true ∧
    izTo (.izBfx 0 0x4000) 3 [-1] [-1] = true ∧ izTo (.izBfxs 0 0x013F) 3 [0x8000000000000000] [-1] = true := by decide +kernel

/-! ### Memory -/

/-- An access passes the checks and has this window and offset. -/
def winIs (x : Task) (a n align : Nat) (q : Need) (s : State) (w : Win) (off : Nat) : Bool :=
  match winCheck x a n align q s with
  | .ok (v, o) => v = w && o = off
  | .error _ => false

def hamWin : Win := { space := 1, base := 0x1000, size := 4096, rd := true, wr := true, atom := true }

/-- Addresses in window 0 (the frame of 64 bytes) and in window 2. -/
def inFrame (o : Nat) : W64 := BitVec.ofNat 64 o
def inHam (o : Nat) : W64 := BitVec.ofNat 64 (0x2000000000000000 + o)

theorem witness_Loads :
    (let x := izx [inHam 0] []
     winIs x (inHam 0).toNat 2 2 { rd := true } (izState x) hamWin 0 = true ∧
     winRead x hamWin 0 2 (izState x) = some ([0x80, 0x02], false)) := by decide +kernel
theorem test_loads :
    izTo (.izLd8 0) 1 [inHam 0] [0x80] = true ∧ izTo (.izLds8 0) 1 [inHam 0] [-128] = true ∧ izTo (.izLd16 0) 1 [inHam 0] [0x280] = true ∧
    izTo (.izLds16 0) 1 [inHam 0] [0x280] = true ∧ izTo (.izLd32 0) 1 [inHam 0] [0x280] = true ∧
    izTo (.izLds32 0) 1 [inFrame 4] [0] = true ∧ izTo (.izLd64 0) 1 [inFrame 56] [0] = true ∧
    izTraps (.izLd16 0) (izx [inHam 1] []) = (4, 0x2000000000000001) ∧ izTraps (.izLd64 0) (izx [inFrame 57] []) = (3, 57) := by decide +kernel
theorem witness_Stores :
    (let x := izx [inHam 8, 0x1234] []
     let u := after (exec (.izSt16 0) (izState x))
     izOk 0 7 x (izState x) = true ∧
     winIs x (inHam 8).toNat 2 2 { wr := true } (izState x) hamWin 8 = true ∧
     fenced pgHam (izState x) = false ∧ (taskGet 7 u).stack = [] ∧ tget 0 u.ham 0x1008 = 0x34 ∧ tget 0 u.ham 0x1009 = 0x12 ∧
     tget 0 u.ham 0x100A = 0) := by decide +kernel
theorem test_stores :
    (taskGet 7 (after (exec (.izSt8 0) (izState (izx [inFrame 3, 0x1FF] []))))).frame = [(3, 0xFF)] ∧
    (taskGet 7 (after (exec (.izSt32 0) (izState (izx [inFrame 4, -1] []))))).frame = [(4, 0xFF), (5, 0xFF), (6, 0xFF), (7, 0xFF)] ∧
    (taskGet 7 (after (exec (.izSt64 0) (izState (izx [inFrame 8, 1] []))))).frame = [(8, 1)] := by decide +kernel
theorem witness_AtomicsAndCopies :
    izTo (.izAadd 0) 1 [inHam 0, 1] [0x280] = true ∧ izTo (.izCas 0) 1 [inHam 0, 1, 5] [0x280] = true ∧
    izTo (.izCas 0) 1 [inHam 0, 0x280, 5] [0x280] = true ∧
    tget 0 (after (exec (.izCas 0) (izState (izx [inHam 0, 0x280, 5] [])))).ham 0x1000 = 5 ∧
    tget 0 (after (exec (.izAadd 0) (izState (izx [inHam 0, 1] [])))).ham 0x1000 = 0x81 ∧
    izTo (.izColl 0) 1 [] [0] = true ∧ izTo (.izFence 0) 1 [1] [1] = true ∧
    izTo (.izCopy 0) 1 [64, inHam 64, inHam 0] [] = true ∧
    tget 0 (after (exec (.izCopy 0) (izState (izx [64, inHam 64, inHam 0] [])))).ham 0x1041 = 2 ∧
    izTo (.izCrc32c 0) 2 [0, inHam 0, 0] [0] = true := by decide +kernel

/-- The data stack that an outcome leaves. -/
def izLeft (o : Host.Outcome State Fault Refusal) : List W64 := (taskGet 7 (after o)).stack

def dramWin : Win := { space := 2, base := 0, size := 4096, rd := true, wr := true, atom := true }
/-- Firmware's window 2 is 4,096 bytes of DRAM from 0. -/
def dramWinState (x : Task) : State :=
  let s := izState x
  enable [pgDdr]
    { s with ddr := { s.ddr with trained := true }, regs := (regSet (pgDdr + 0x100) 1 s).regs,
             runs := [(1024, { wins := [(2, dramWin)] })] }
def frameWin : Win := { space := 0, size := 64, rd := true, wr := true, atom := true }
/-- Word 0x80 of the Hamper, where window 2 begins: poisoned, or with a write of Warp input 0 in the same clk. -/
def poisonedHam (s : State) : State := { s with hamPoison := [(0x80, true)] }
def tiedHam (s : State) : State := { s with hamx := { s.hamx with ties := [0x80], tied := [(0x80, .port 0)] } }

/-- The trap code of core 0. -/
def trapCode (o : Host.Outcome State Fault Refusal) : Nat := regGet (pgIzk 0 + 0x110) (after o) % 256

theorem witness_Loads_poison :
    (let x := izx [inHam 0] []
     let s := poisonedHam (izState x)
     izOk 0 7 x s = true ∧ winWaits x hamWin 0 2 s = false ∧ (winRead x hamWin 0 2 s).map Prod.snd = some true ∧
     trapCode (exec (.izLd16 0) s) = 5 ∧ trapCode (exec (.izLds8 0) s) = 5) := by decide +kernel
theorem witness_Stores_frame :
    (let x := izx [inFrame 63, 0x1FF] []
     izOk 0 7 x (izState x) = true ∧ winIs x 63 1 1 { wr := true } (izState x) frameWin 63 = true) := by decide +kernel
theorem witness_Stores_lost :
    (let x := izx [inHam 24, 5] []
     let s := tiedHam (izState x)
     izOk 0 7 x s = true ∧ (0x1000 + 24) / 32 = (0x1000 + 24 + 8 - 1) / 32 ∧ (hamWinner (.core x.lastCore) ((0x1000 + 24) / 32) s).isSome = true ∧
     (let u := after (exec (.izSt64 0) s); (taskGet 7 u).coll = true ∧ u.ham = s.ham)) := by decide +kernel
theorem witness_Stores_dram :
    (let x := izx [inHam 4088, 5] []
     let s := dramWinState x
     izOk 0 7 x s = true ∧ winIs x (inHam 4088).toNat 8 8 { wr := true } s dramWin 4088 = true ∧ dramServes 4088 8 s = true ∧ dramWaits 4088 8 s = false ∧ mapBytes s = 0 ∧
     (after (exec (.izSt64 0) s)).dram = [(4088, 5)]) := by decide +kernel
theorem witness_AtomicsAndCopies_conditions :
    (let x := izx [inHam 0, 1] []
     let s := izState x
     izOk 0 7 x s = true ∧ winIs x (inHam 0).toNat 8 8 { atom := true } s hamWin 0 = true ∧ winWaits x hamWin 0 8 s = false ∧
     winRead x hamWin 0 8 s = some ([0x80, 2, 0, 0, 0, 0, 0, 0], false) ∧
     (winWrite (x.after 1 []) hamWin 0 (natLe 8 0x281) false (winMet x hamWin 0 8 s)).isSome = true ∧
     winLoses x hamWin 0 8 (tiedHam s) = true ∧ (taskGet 7 (after (exec (.izAadd 0) (tiedHam s)))).stack = [0]) ∧
    (let x := { izx [] [] with coll := true, stores := [5, 9] }
     izLeft (exec (.izColl 0) (izState x)) = [1] ∧ (taskGet 7 (after (exec (.izFence 0) (izState x)))).stores = []) ∧
    (let x := izx [64, inHam 64, inHam 0] []
     winIs x (inHam 0).toNat 64 64 { rd := true } (izState x) hamWin 0 = true ∧
     winIs x (inHam 64).toNat 64 64 { wr := true } (izState x) hamWin 64 = true) ∧
    (let x := izx [4, inHam 0, 0] []
     winIs x (inHam 0).toNat 4 1 { rd := true } (izState x) hamWin 0 = true) := by decide +kernel

/-! ### Tasks -/

theorem witness_TaskGroup :
    izTo (.izSelf 0) 1 [] [7] = true ∧ izTo (.izPnow 0) 1 [] [0] = true ∧ izTo (.izWait 0) 1 [0] [] = true ∧
    (let u := after (exec (.izWait 0) (izState (izx [2] [])))
     (taskGet 7 u).state = .waiting ∧ (taskGet 7 u).counter = 2 ∧ (coreGet 0 u).task = none) ∧
    izTraps (.izWait 0) (izx [65536] []) = (9, 0) ∧ izTraps (.izSignal 0) (izx [8192] []) = (9, 0) ∧
    (let u := after (exec (.izSignal 0) (izState (izx [9] []))); regGet (pgItn + 0x168) u = 1 ∧ (taskGet 7 u).stack = []) ∧
    (taskGet 7 (after (exec (.izYield 0) (izState (izx [] []))))).state = .ready ∧
    (taskGet 7 (after (exec (.izEnd 0) (izState (izx [] []))))).state = .ended := by decide +kernel
theorem witness_TaskGroup_run :
    (let x := izx [9, 3] []
     let s := izState x
     izOk 0 7 x s = true ∧ sameRun x 9 s = true ∧ sameRun x 8191 s = true ∧ sameRun x 8192 s = false ∧
     (tryDec 9 (taskSet 7 (x.after 1 [3]) s)).isSome = true) ∧
    (let x := { izx [0xFFFF] [] with counter := 1 }
     (taskGet 7 (after (exec (.izWait 0) (izState x)))).state = .running) ∧
    (let x := izx [7] []
     (taskGet 7 (after (exec (.izSignal 0) (izState x)))).counter = -1) := by decide +kernel
/-- The ready lists of both house clusters are full. -/
def fullState : State :=
  { izState (izx [9] []) with tasks := [(7, izx [9] []), (9, { state := .waiting, house := true, counter := 1 })]
                              ready := [(0, List.replicate 4096 5), (1, List.replicate 4096 5)] }
theorem witness_TaskGroup_full :
    (tryDec 9 fullState).isNone = true ∧ (coreGet 0 (after (exec (.izSignal 0) fullState))).stat = 3 := by decide +kernel
theorem test_spawn :
    (let u := after (exec (.izSpawn 0) (izState (izx [1, 0, 0x55, 3] [])))
     (taskGet 7 u).stack = [0, 3] ∧ (taskGet 0 u).stack = [0x55] ∧ (taskGet 0 u).counter = 1 ∧ (taskGet 0 u).state = .waiting) := by
  decide +kernel

def waits (c : W16) : State := enable [pgItn] { rdyState with tasks := [(9, { state := .waiting, house := true, counter := c })] }

theorem witness_TaskGroup_decrement :
    (let u := after (exec (.dependenceDecrement 9) (waits 2)); (taskGet 9 u).counter = 1 ∧ regGet (pgItn + 0x160) u = 1) ∧
    (let u := after (exec (.itnDec 9) (waits 1)); (taskGet 9 u).counter = 0 ∧ (taskGet 9 u).state = .ready) ∧
    regGet (pgItn + 0x168) (after (exec (.dependenceDecrement 10) (waits 1))) = 1 := by decide +kernel

/-! ### Submit, Heddle, system -/

/-- A Shuttle descriptor in the Hamper at 0x1000 and its mirror: 64 bytes from 0x100 to 0x200. Rings have two entries. -/
def subState (agent : Nat) (len : Byte) : State :=
  let s := izState (izx [BitVec.ofNat 64 agent, inHam 0] [])
  enable [if agent < 0x40 then pgShu agent else engPage agent]
    { s with ham := [(0x1001, 0x01), (0x1009, 0x02), (0x1010, len)],
             regs := (regSet (pgShu 3 + 0x100) (2 ^ 28) s).regs }

theorem witness_Submit :
    (let s := subState 3 64
     let x := izx [3, inHam 0] []
     izOk 0 7 x s = true ∧ agentOk x 0 3 s = true ∧
     winIs x (inHam 0).toNat 64 64 { rd := true, wr := true } s hamWin 0 = true ∧ (winRead x hamWin 0 64 s).isSome = true ∧
     subDep 3 (tgetBytes s.ham 0x1000 64) = none ∧ (ringTail (pgShu 3) s + 1) % ringLen (pgShu 3) s ≠ ringHead (pgShu 3) s ∧
     subCheck 3 (tgetBytes s.ham 0x1000 64) { task := 7, space := 0, addr := 0x1000 } true s = 0 ∧
     izLeft (exec (.izSubmit 0) s) = [0] ∧ ringTail (pgShu 3) (after (exec (.izSubmit 0) s)) = 1) := by decide +kernel
theorem witness_Submit_stops :
    izLeft (exec (.izSubmit 0) (subState 3 0)) = [0x03] ∧ izLeft (exec (.izSubmit 0) (subState 3 1)) = [0x01] ∧
    (let s := regSet (pgShu 3 + 0x108) 1 (subState 3 64)
     (ringTail (pgShu 3) s + 1) % ringLen (pgShu 3) s = ringHead (pgShu 3) s ∧ izLeft (exec (.izSubmit 0) s) = [0xFE]) ∧
    (izLeft (exec (.izSubmit 0) (fence [pgShu 3] (subState 3 64)))) = [0x08] := by decide +kernel

theorem witness_Submit_task :
    (let x := izx [3, inHam 0] []
     let s := { subState 3 64 with ham := [(0x1001, 0x01), (0x1009, 0x02), (0x1010, 64), (0x1017, 0x20), (0x101D, 0x20)] }
     let d := subDesc x 3 (tgetBytes s.ham 0x1000 64)
     izOk 0 7 x s = true ∧ subDep 3 d = some 8192 ∧ sameRun x 8192 s = false ∧ trapCode (exec (.izSubmit 0) s) = 9 ∧
     subDep 3 (setByte d 0x1D 1) = some 256 ∧ sameRun x 256 s = true) := by decide +kernel
/-- Core 32 runs task 9,000 of a program of F1, whose descriptor names Hamper bytes that it was not granted. -/
def progTask : Task := { state := .running, run := 5, func := 1, stack := [40, inHam 0], pc := 9, lastCore := 32 }
def progState : State :=
  let s := subState 40 64
  enable [pgIzc 2, pgIzk 32]
    { s with cores := [(32, { task := some 9000 })], tasks := [(9000, progTask)], dram := [(0x18, 7), (0x1C, 1)],
             runs := [(5, { used := true, fn := 1, image := 16, wins := [(2, hamWin)], resv := [9000] })] }
theorem witness_Submit_access :
    izOk 32 9000 progTask progState = true ∧ agentOk progTask 2 40 progState = true ∧
    winIs progTask (inHam 0).toNat 64 64 { rd := true, wr := true } progState hamWin 0 = true ∧
    (let bs := tgetBytes progState.ham 0x1000 64
     subDep 40 (subDesc progTask 40 bs) = none ∧
     subCheck 40 (subDesc progTask 40 bs) { task := 9000, space := 0, addr := 0x1000 } false progState = accessCode 40) ∧
    (let u := after (exec (.izSubmit 32) progState)
     (taskGet 9000 u).stack = [4] ∧ regGet (pgFun 1 + 0x240) u = 1) := by decide +kernel

/-- A group of one tile pair with no entries, which firmware owns. -/
def hedState (l : List W64) : State :=
  let s := izState (izx l [])
  { regSet (pgGrp 2 + 0x100) 0x10001 s with ham := [] }

theorem witness_HeddleGroup :
    (let s := hedState [2, inFrame 0, inFrame 24]
     let x := izx [2, inFrame 0, inFrame 24] []
     izOk 0 7 x s = true ∧ grpMine x 2 s = true ∧ grpW 2 s = 1 ∧
     winIs x 24 12 4 { wr := true } s { space := 0, size := 64, rd := true, wr := true, atom := true } 24 = true ∧
     (hedSearch 2 0 (2 ^ 384 - 1) s).1.hit = false ∧ (izLeft (exec (.izHsrch 0) s)).length = 2 ∧
     (izLeft (exec (.izHsrch 0) s)).getD 1 0 = -1) := by decide +kernel
theorem witness_HeddleGroup_more :
    (izLeft (exec (.izHsrchm 0) (hedState [2, inFrame 0, inFrame 12, inFrame 24]))).length = 2 ∧
    (izLeft (exec (.izHnext 0) (hedState [inFrame 0]))).length = 2 ∧
    (let s := hedState [2, -1, inFrame 0]
     grpCut 2 s = false ∧ (izLeft (exec (.izHins 0) s)).length = 2) ∧
    izLeft (exec (.izHdel 0) (hedState [2, BitVec.ofNat 64 (2 ^ 40)])) = [0] ∧
    (let s := hedState [2, 0]
     0 < grpE 2 s ∧ grpFenced 2 s = false ∧ izLeft (exec (.izHdel 0) s) = [0]) := by decide +kernel
/-- Group 2 belongs to F1, whose Portion has shrunk to no tiles. -/
def cutState : State :=
  let s := hedState [2, -1, inFrame 0]
  { regSet (pgGrp 2 + 0x100) 0x01010001 s with
    fns := [(1, { pendingCut := 4 })], ham := [] }
theorem witness_HeddleGroup_cut :
    grpMine (izx [2, -1, inFrame 0] []) 2 cutState = true ∧ grpCut 2 cutState = true ∧ grpFenced 2 cutState = false ∧
    izLeft (exec (.izHins 0) cutState) = [8, -1] ∧
    (let s := fence [pgGrp 2] (hedState [2, 0])
     0 < grpE 2 s ∧ grpFenced 2 s = true ∧ izLeft (exec (.izHdel 0) s) = [32]) ∧
    (let x := izx [inFrame 0] []
     x.search.hit = false ∧ winIs x 0 (12 * grpW x.search.group (hedState [inFrame 0])) 4 { wr := true } (hedState [inFrame 0]) frameWin 0 = true) ∧
    (let s := hedState [2, inFrame 0, inFrame 12, inFrame 24]
     let x := izx [2, inFrame 0, inFrame 12, inFrame 24] []
     winWaits x frameWin 24 12 s = false ∧ winIs x 12 12 4 { rd := true } s frameWin 12 = true ∧ (winRead x frameWin 12 12 s).isSome = true) := by
  decide +kernel
theorem witness_SystemGroup :
    (∀ a < 0x60, 0x40 ≤ a → fenced (engPage a) (izState (izx [] [])) = false) ∧
    izTo (.izFeat 0 2) 2 [] [0xFF3FFFFF] = true ∧
    (let x := { izx [4, 0] [] with house := false }
     izOk 0 7 x (izState x) = true ∧ izTraps (.izWld 0) x = (6, 0) ∧ izTraps (.izWst64 0) x = (6, 0)) := by decide +kernel

theorem witness_LandingFrame :
    (let s := izState (izx [1, 2] [])
     let u := after (lands 0 7 1 (izx [3] []) s)
     (canonical s && ordered s && queueWf s) = true ∧ goes (lands 0 7 1 (izx [3] []) s) u = true ∧
     regGet (pgIzk 0 + 0x120) u = 1 ∧ u.ham = s.ham) := by decide +kernel

theorem witness_LandingFrame_cache :
    (let s := izState (izx [1, 2] [])
     let u := after (lands 0 7 1 (izx [3] []) s)
     let v := after (lands 0 7 1 (izx [4] []) u)
     regGet (pgIzc 0 + 0x110) u = 1 ∧ regGet (pgIzc 0 + 0x108) u = 0 ∧ regGet (pgIzc 0 + 0x108) v = 1 ∧ (tget [] u.icache 0).length = 1) := by
  decide +kernel
theorem test_features :
    izTo (.izFeat 0 0) 2 [] [0x1F] = true ∧ izTo (.izFeat 0 1) 2 [] [0x0008004010101020] = true ∧
    izTo (.izFeat 0 3) 2 [] [0x01B10100] = true ∧ izTo (.izCore 0) 1 [] [0] = true ∧ izTo (.izFuncn 0) 1 [] [0x80] = true ∧
    (after (exec (.izEvt 0) (izState (izx [0x9001] [])))).log.head = 1 ∧
    (let u := after (exec (.izWst 0) (izState (izx [BitVec.ofNat 64 (pgClk + 0x194), 5] []))); (taskGet 7 u).stack = []) ∧
    izTo (.izWld 0) 1 [BitVec.ofNat 64 (pgIzk 0 + 0x010)] [1] = true ∧ izTraps (.izWld 0) (izx [2] []) = (4, 2) ∧
    izTo (.izWld64 0) 1 [BitVec.ofNat 64 (pgIzk 0 + 0x120)] [0] = true ∧ izTraps (.izWst64 0) (izx [4, 0] []) = (4, 4) ∧
    izTraps (.izEvt 0) { izx [1] [] with house := false } = (6, 0) := by decide +kernel

end Sys2Proof.Machine
end

