-- ==== Sys2Proof/Tests/Media.lean ====
section
/-!
SUPPORT. Tests and witnesses: flash dies and superblocks, the CXL link, CXL.mem, the mailbox and DOE.
-/
namespace Sys2Proof.Machine

set_option Elab.async false

/-! ### Flash -/

/-- A die type of four blocks and one plane, with program suspend. -/
def smallType : DieType :=
  { blocks := 4, pagesNative := 4, pagesSlc := 2, planes := 1, native := 3, maxBin := 4, flags := 1, peSlc := 1000, peNative := 300,
    readDisturb := 1000, refreshBits := 60, retrySets := 2, tMax := 85 }

/-- Four dies in row 0, up and built. -/
def flashState : State :=
  enable [pgFlc 0, pgFch 0, pgFch 1, pgFch 2, pgFch 3]
  { rdyState with
    media := { rdyState.media with
      tableOk := true, types := [(0, smallType)]
      dies := [(0, { usable := true }), (16, { usable := true }), (32, { usable := true }), (48, { usable := true })]
      channels := [(0, { trained := true }), (1, { trained := true }), (2, { trained := true }), (3, { trained := true })] }
    jnl := { rdyState.jnl with indexed := true } }

/-- The host stream has superblock 0 open, and its first unit is placed. -/
def placedState : State :=
  { flashState with media := { flashState.media with
      sbs := [(0, { stream := some 0, isOpen := true, placed := 1 })]
      placed := [(mkPua 0 0 0 0 0, some { midx := 9 })] } }

/-- Die 0 is changed by hand. -/
def withDie (f : Die → Die) (s : State) : State := dieMod 0 f s

theorem witness_FlashPrograms_start :
    mediaUp placedState = true ∧ dieFree 0 (placeAll placedState) = true ∧ (nextProgram 0 (placeAll placedState)).isSome = true ∧
    dieFree 0 (placeAll (withDie (fun d => { d with busy := true }) placedState)) = false ∧
    (let u := after (exec (.unitProgramStart 0) placedState)
     u.media.programs.map (fun g => g.units.map (·.midx)) = [[9]] ∧ (dieGet 0 u).busy = true ∧ u.media.placed = []) := by decide +kernel
theorem witness_FlashPrograms_done :
    let s : State := { flashState with media := { flashState.media with programs := [{ die := 0, units := [{ pua := 0, midx := 9 }] }] } }
    s.media.programs.find? (·.die = 0) = some { die := 0, units := [{ pua := 0, midx := 9 }] } ∧ dieOk 0 s = true ∧
    (after (exec (.flashProgramDone 0 true none) s)).media.unitsAll = 1 ∧
    (after (exec (.flashProgramDone 0 false none) s)).media.programs = [] ∧
    goes (exec (.flashProgramDone 16 true (some 0)) s) s = true := by decide +kernel

/-- A command's read of granule 1 of map index 3 waits for die 0. -/
def readState : State :=
  { flashState with
    media := { flashState.media with
      pages := [(2048, { um := List.replicate 64 1, g1 := { bytes := List.replicate 8 7 } })]
      reads := [{ pua := 2048, ctx := some 0, want := { midx := 3, gmask := 2 } }] }
    qe := { flashState.qe with ctxs := [(0, { used := true, fn := 0, sq := 1, sqe := sqe [(0, 0x02)] })] } }
/-- It runs there. -/
def readRuns : State := dieServe 0 readState

theorem witness_FlashPrograms_serve :
    dieOk 0 readState = true ∧ chanUp 0 readState = true ∧ (dieGet 0 readState).hot = false ∧ (dieGet 0 readState).read = none ∧
    nextRead 0 readState = some { pua := 2048, ctx := some 0, want := { midx := 3, gmask := 2 } } ∧ dieHeld 0 readState = false ∧
    (let s := withDie (fun d => { d with busy := true, suspends := 7 }) readState
     dieHeld 0 s = true ∧ suspendable 0 s = true ∧ (dieGet 0 (dieServe 0 s)).suspends = 8) ∧
    (let s := withDie (fun d => { d with busy := true, suspends := 8 }) readState
     dieHeld 0 s = true ∧ suspendable 0 s = false ∧ (dieGet 0 (dieServe 0 s)).read = none) ∧
    (let s := withDie (fun d => { d with erase := some 1 }) readState
     dieHeld 0 s = true ∧ suspendable 0 s = false) ∧
    (let s : State := { readState with media := { readState.media with reads := readState.media.reads.map fun r => { r with ctx := none } } }
     (nextRead 0 s).any (fun r => r.ctx.isNone) = true) := by decide +kernel
theorem witness_FlashPrograms_erase :
    let s : State := { flashState with media := { flashState.media with sbs := [(1, { stream := some 0, placed := 2 })], erasing := [1] } }
    nextRead 0 s = none ∧ dieHeld 0 s = false ∧ nextProgram 0 s = none ∧ dieIdle 0 s = true ∧ nextErase 0 s = some 1 ∧
    (dieGet 0 (dieServe 0 s)).erase = some 1 := by decide +kernel

theorem witness_FlashPrograms_read :
    runningRead 2048 readRuns = some { pua := 2048, ctx := some 0, want := { midx := 3, gmask := 2 } } ∧ (ctxGet 0 readRuns).used = true ∧
    readRuns.media.reads = [] ∧ readRuns.media.todo = [] ∧ runningRead 2048 readState = none ∧
    readWords { pua := 2048, ctx := some 0, want := { midx := 3, gmask := 2 } } = [1] ∧
    cwOutcome 0 [.fail, .retry 1] 1 readRuns = .retry 1 ∧ cwOutcome 0 [.fail, .retry 2] 1 readRuns = .soft ∧
    (let u := after (exec (.flashReadDone 2048 [.fail, .retry 1] none) readRuns)
     (dieGet 0 u).read = none ∧ (tget none (ctxGet 0 u).got 13).map (·.bytes) = some (List.replicate 8 7)) := by decide +kernel
theorem witness_FlashPrograms_readLost :
    let s1 := countRead1 2048 [1] [.fail] (dieMod 0 (fun d => { d with read := none }) readRuns)
    cwOutcome 0 [.hard 0, .fail] 1 readRuns = .fail ∧ readRuns.media.rebuilds = [] ∧ validUnits (· = 2048) readRuns = [] ∧
    stripeMates 2048 s1 = none ∧
    (ctxGet 0 (after (exec (.flashReadDone 2048 [.hard 0, .fail] none) readRuns))).ends = some stReadError := by decide +kernel

def slcSb : Superblock := { stream := some 0, isOpen := false, placed := 6 }
def nativeSb : Superblock := { stream := some 3, isOpen := false, native := (true), placed := 12 }
def withSb (sb : Nat) (x : Superblock) (l : List Nat) : State :=
  { flashState with media := { flashState.media with sbs := [(sb, x)], erasing := l } }

theorem witness_FlashMaintenance_moves :
    mediaUp flashState = true ∧ allBuilt flashState = true ∧ fenced pgHam flashState = false ∧
    (let s := fencePage pgHam 0x1002 false (withSb 1 nativeSb [])
     fenced pgHam s = true ∧ (after (exec .garbageCollection s)).media.erasing = []) ∧
    (let s := withSb 1 nativeSb []
     freeN s < regFld (pgFlc 0 + 0x210) 31 16 s ∧ gcVictim s = some 1 ∧
     1 ∈ (after (exec .garbageCollection s)).media.erasing) ∧
    (let s := { withSb 1 nativeSb [] with
                media := { (withSb 1 nativeSb []).media with refreshQ := [1] }
                map := [(3, mkEntry (mkPua 0 0 0 1 0) true false false false false)] }
     validUnits (fun p => puaEraseBlock p s = 1) s = [(3, mkPua 0 0 0 1 0)] ∧ (sbGet 1 s).isOpen = false ∧
     (let u := after (exec (.refresh 1) s)
      u.media.refreshQ = [] ∧ moveBusy 3 (mkPua 0 0 0 1 0) u = true)) ∧
    (let s := regSet (pgFlc 0 + 0x210) 0 (withSb 1 nativeSb [])
     regFld (pgFlc 0 + 0x210) 31 16 s ≤ freeN s ∧ goes (exec .garbageCollection s) s = true) := by decide +kernel
theorem witness_FlashMaintenance_wear :
    (let s := { withSb 1 slcSb [] with media := { (withSb 1 slcSb []).media with wear := [(2, (1000, 0))] } }
     wearUneven s = true ∧ mostWorn s = some 2 ∧
     (let u := after (exec .staticWearLevelling s)
      1 ∈ u.media.erasing ∧ (sbGet 2 u).stream = some 4)) ∧
    wearUneven (withSb 1 slcSb []) = false := by decide +kernel
theorem witness_FlashMaintenance_erase :
    let s := { withSb 1 nativeSb [1] with map := [], media := { (withSb 1 nativeSb [1]).media with
                 pages := [(mkPua 0 0 0 1 0, {}), (7, {})], erased := [(1, [1, 2, 3])] } }
    let t := withDie (fun d => { d with erase := some 1 }) s
    nextErase 0 s = some 1 ∧ 1 ∈ s.media.erasing ∧ sbValid 1 s = [] ∧ sbChans 1 s = [0, 1, 2, 3] ∧ dieNo 0 (sbRow 1) = 0 ∧
    (dieGet 0 t).erase = some 1 ∧ dieOk 0 t = true ∧
    (let u := after (exec (.flashEraseDone 1 true 0 none) t)
     u.media.erasing = [] ∧ tkeys u.media.pages = [7] ∧ tget (0, 0) u.media.wear 1 = (1, 0)) ∧
    (let t := { t with media := { t.media with erased := [(1, [1, 2])] } }
     (after (exec (.flashEraseDone 1 true 0 none) t)).media.erasing = [1]) ∧
    goes (exec (.flashEraseDone 1 true 0 none) s) s = true ∧
    nextErase 0 { s with jnl := { s.jnl with issued := [{ recs := [1], acts := [] }] } } = none := by decide +kernel
theorem witness_FlashMaintenance_reserve :
    dumpReady flashState < 12288 ∧ mayTake 2 flashState = true ∧ leastWorn flashState = some 0 ∧
    (after (exec .dumpStandbyErase flashState)).media.standby = [0] ∧
    (let s := { flashState with pick := 256 * 64 }
     boltN s % 64 = 0 ∧ boltN s ≠ s.media.vBolt ∧ (after (exec .slcTargetUpdate s)).media.vBolt = 64) := by decide +kernel
theorem witness_FlashMaintenance_patrol :
    let s := { flashState with map := [(3, mkEntry 5 true false false true false)] }
    (validUnits (fun _ => true) s).find? (fun u => s.media.patrolPos ≤ u.1) = some (3, 5) ∧ dieIdle 0 s = true ∧
    (let u := after (exec .patrolRead s)
     u.media.patrolPos = 4 ∧ (dieGet 0 u).read.map (·.pua) = some 5) ∧
    (let t := withDie (fun d => { d with hostPick := 1 }) s
     dieIdle 0 t = false ∧ t.media.patrolBolt < patrolLeast t) ∧
    (let t := withDie (fun d => { d with hostPick := 1 }) { s with media := { s.media with patrolBolt := 1 } }
     dieIdle 0 t = false ∧ patrolLeast t ≤ t.media.patrolBolt ∧ goes (exec .patrolRead t) t = true) := by decide +kernel
def foldState : State :=
  let s := withSb 1 { slcSb with placed := 6 } []
  { s with
    media := { s.media with slcT := 1 }
    map := [(3, mkEntry (mkPua 0 0 0 1 0) true false false true false), (4, mkEntry (mkPua 1 0 0 1 0) true false false true false)] }
theorem witness_FlashMaintenance_fold :
    25 ≤ slcFill foldState ∧ oldestSlc foldState = some 1 ∧ (after (exec (.fold 1) foldState)).media.erasing = [1] ∧
    (let s := { foldState with map := foldState.map.take 1, media := { foldState.media with slcT := 2 } }
     slcFill s < 25 ∧ goes (exec (.fold 1) s) s = true) := by decide +kernel
theorem witness_FlashMaintenance_dies :
    (let u := after (exec (.dieReadyTimeout 16 true) flashState)
     (dieGet 16 u).timeoutBolt = some 0 ∧ (dieGet 16 u).retired = false ∧
     (dieGet 16 (after (exec (.dieReadyTimeout 16 true) u))).retired = true) ∧
    (after (exec (.dieReadyTimeout 16 false) flashState)).media.rebuildDie = [16] ∧
    (let s := { flashState with media := { flashState.media with rebuildDie := [16] } }
     validUnits (fun p => puaDie p = 16) s = [] ∧ (after (exec (.dieRebuild 16) s)).media.rebuildDie = []) ∧
    (let s := { flashState with media := { flashState.media with rebuildDie := [16] }
                                map := [(3, mkEntry (mkPua 1 0 0 1 0) true false false false false)] }
     validUnits (fun p => puaDie p = 16) s ≠ [] ∧ moveBusy 3 (mkPua 1 0 0 1 0) (after (exec (.dieRebuild 16) s)) = true) ∧
    tempDies 0 flashState = [0] ∧
    (dieGet 0 (after (exec (.dieTemperatureRead 0 85) flashState))).hot = true ∧
    (dieGet 0 (after (exec (.dieTemperatureRead 0 84) flashState))).hot = false ∧
    (dieGet 0 (after (exec (.dieTemperatureRead 0 84) (withDie (fun d => { d with hot := true }) flashState)))).hot = true ∧
    (dieGet 0 (after (exec (.dieTemperatureRead 0 80) (withDie (fun d => { d with hot := true }) flashState)))).hot = false ∧
    (let s := withDie (fun d => { d with busy := true }) flashState
     dieHeld 0 s = true ∧ goes (exec (.dieTemperatureRead 0 85) s) s = true) := by decide +kernel

/-! ### The link and CXL -/

/-- The link is up, F0 has its BAR and bus mastering, and the pages of the host ports are enabled. -/
def cxlState : State :=
  enable [pgCxl, pgCxlT, pgCxlH, pgDoe, pgQen, pgHam]
    { rdyState with cxl := { rdyState.cxl with up := true, width := 16, speed := 5 }, fns := [(0, { bme := true, mse := true })] }
def downState : State := { cxlState with cxl := { cxlState.cxl with up := false } }

theorem witness_Link_train :
    downState.cxl.up = false ∧ mayTrain downState = true ∧ downState.cxl.detectFrom = none ∧
    (let u := after (exec (.linkUp 12 9 true false 0xFFFF) downState); u.cxl.up = true ∧ u.cxl.width = 8) ∧
    (let u := after (exec (.linkUp 3 5 true false 0xFFFF) downState); u.cxl.up = false ∧ u.cxl.detectFrom = some 0) ∧
    (after (exec .linkDown cxlState)).due = [.linkDown] ∧ goes (exec .linkDown downState) downState = true ∧
    (after (exec (.linkRecovery 8 4) cxlState)).cxl.width = 8 ∧ (after (exec (.linkRecovery 2 4) cxlState)).due = [.linkDown] := by
  decide +kernel
theorem witness_Link_retry :
    (let s := { downState with cxl := { downState.cxl with detectFrom := some 0 }, pick := 256 * 64 }
     (after (exec .linkTrainingRetry s)).cxl.detectFrom = none ∧
     goes (exec .linkTrainingRetry { s with pick := 256 * 63 }) { s with pick := 256 * 63 } = true) ∧
    fenced pgCxl cxlState = false ∧ mayTrain cxlState = true ∧ (after (exec (.retrain 1) cxlState)).cxl.retraining = true ∧
    (after (exec .perstAssert cxlState)).boot.perstLow = true ∧ (after (exec .perstAssert cxlState)).cxl.up = false ∧
    (after (exec .perstDeassert (after (exec .perstAssert cxlState)))).boot.perstLow = false := by decide +kernel

def memState : State :=
  { cxlState with
    cxl := { cxlState.cxl with dec0 := { hpa := 0, committed := true } }
    jnl := { cxlState.jnl with indexed := true }
    ham := [(0x10041, 7)]
    regs := (regSet (pgCxlH + 0x100) (2 ^ 63 + 2 ^ 40 + 1) cxlState).regs }

/-- The bytes of the answers to reads of CXL.mem, and whether they are poison. -/
def memSent (s : State) : List (Bytes × Bool) := s.sent.filterMap fun m => match m with
  | .memData b p => some (b, p)
  | _ => none

theorem witness_CxlMem_access :
    memServed memState = true ∧ dpaOf 0x40 memState = some 0x40 ∧ windowOf 0x40 memState = some (0, 0x10040) ∧
    memRead 0 0x10040 64 memState = some (0 :: 7 :: zeros 62, false) ∧ (canonical memState && ordered memState && queueWf memState) = true ∧
    memSent (after (exec (.cxlMemRead 0x7F) memState)) = [(0 :: 7 :: zeros 62, false)] ∧
    memSent (after (exec (.cxlMemRead 0x40) { memState with jnl := cxlState.jnl })) = [(zeros 64, true)] ∧
    (after (exec (.cxlMemWrite 0x40 (List.replicate 64 9) 5 false) memState)).ham = [(0x10040, 9), (0x10041, 7), (0x10042, 9)] := by
  decide +kernel

theorem witness_CxlMem_commit :
    bar0 0 cxlState = true ∧ (after (exec (.hdmDecoderCommit 0 0x1000 (2 ^ 28) 1 true) cxlState)).cxl.dec0 = { hpa := 0x1000, committed := true } ∧
    (after (exec (.hdmDecoderCommit 0 0 (2 ^ 28) 2 true) cxlState)).cxl.dec0 = { err := true } ∧
    (after (exec (.hdmDecoderCommit 1 0 (2 ^ 34) 1 true) cxlState)).cxl.dec1 = { err := true } ∧
    (after (exec (.hdmDecoderCommit 1 0 (2 ^ 34) 1 true) memState)).cxl.dec1.committed = true ∧
    (after (exec (.hdmDecoderCommit 0 0 0 0 false) memState)).cxl.dec0 = {} := by decide +kernel
theorem witness_CxlMem_held :
    let s : State := { memState with pwr := { memState.pwr with ps := 3 } }
    memHeld 0x40 s = true ∧ (after (exec (.cxlMemRead 0x40) s)).cxl.memWait = [{ hpa := 0x40 }] := by decide +kernel
theorem witness_CxlMem_down :
    goes (exec (.cxlMemRead 0) downState) downState = true ∧ goes (exec (.cxlMemWrite 0 [] 0 false) downState) downState = true := by
  decide +kernel

theorem witness_MailboxAndDoe_mailbox :
    (after (exec .identifyMemoryDevice cxlState)).sent.length = 1 ∧
    (after (exec .getTimestamp cxlState)).sent = [.mailbox 0 (zeros 8)] ∧
    (after (exec (.setTimestamp [5]) cxlState)).cxl.timestamp = 5 ∧
    (after (exec (.setEventInterruptPolicy [1, 0, 0, 0]) cxlState)).cxl.irqPolicy = 1 ∧
    (after (exec .getEventInterruptPolicy cxlState)).sent = [.mailbox 0 (zeros 4)] ∧
    (after (exec (.clearEventRecords [2, 1]) { cxlState with cxl := { cxlState.cxl with events := [{ handle := 1 }] } })).cxl.events = [] ∧
    (after (exec .getSupportedLogs cxlState)).sent.length = 1 ∧
    (after (exec (.getLog (celUuid ++ zeros 8)) cxlState)).sent = [.mailbox 0 []] ∧
    (after (exec (.getEventRecords [2]) cxlState)).sent = [.mailbox 0 (zeros 32)] := by decide +kernel
theorem test_mailboxOther :
    (mboxRun 0x0200 [] cxlState).sent = [.mailbox 3 []] ∧ (mboxRun 0x0200 [] cxlState).cxl.mboxCode = 3 := by decide +kernel
theorem witness_MailboxAndDoe_doe :
    fenced pgDoe cxlState = false ∧ regGet (pgDoe + 0x100) (after (exec (.doeDiscovery 1) cxlState)) = 1 ∧
    (after (exec (.cdatTableAccess 0) cxlState)).sent.length = 1 ∧
    regGet (pgDoe + 0x104) (after (exec .doeAbort cxlState)) = 1 := by decide +kernel

end Sys2Proof.Machine
end

