-- ==== Sys2Proof/Tests/Party.lean ====
section
/-!
SUPPORT. Tests and witnesses: Party and Mender messages, chunks, heartbeats and the stripe commands.
-/
namespace Sys2Proof.Machine

set_option Elab.async false

/-- Member 1 of a Party of two; member 5 is the other. -/
def ptyState : State :=
  let s := enable [pgPty, pgMnd, pgCxlT, pgHam] ctlState
  { s with
    keys := [(2, { state := .active, role := 1, limit := 100000, key := 0x5A })]
    pick := 16
    jnl := { s.jnl with indexed := true }
    mender := { s.mender with table := 2 }
    party := { s.party with
      state := .active, index := 1, selfHpa := 1
      roster := { partyId := 0x77, epoch := 2, issuer := 1, members := [(1, { hpa := 1, state := .active }), (5, { hpa := 5, state := .active })] } } }

/-- A window that holds bytes from address `a`, each evaluated before it is stored. -/
def windowOfBytes (a : Nat) : Bytes → Tab Byte
  | [] => []
  | b :: l => withNat b.toNat fun n => if n = 0 then windowOfBytes (a + 1) l else (a, BitVec.ofNat 8 n) :: windowOfBytes (a + 1) l

/-- The cell 80 of mailbox 5 holds a message from member 5, or from member `x`; it has arrived. -/
def cellState (type : Nat) (body : Bytes) (s : State) : State :=
  let m := cellBytes type 5 1 0x77 2 9 body
  let c := padTo 0xF0 m ++ cmac (keyBytes (keyGet 2 s)) m
  { s with party := { s.party with
      arrived := [(2128, 3)]
      window := windowOfBytes (0x20000 + 256 * 80) c } }

/-- The cell passes every check, and its row's next state. -/
def good (type : Nat) (body : Bytes) (s : State) : Bool :=
  let t := cellState type body s
  accepts pgPty t && running t && t.jnl.pf = .none && itemReady 2128 t && (cellCheck 80 t).1 = some (5, 2, body)
def did (i : Instr) (type : Nat) (body : Bytes) (s : State) : State := after (exec i (cellState type body s))

/-! ### Party messages -/

theorem witness_PartyMessages_good : good 0x17 [1] ptyState = true ∧ isSteward ptyState = true := by decide +kernel
theorem witness_PartyMessages_states :
    (did (.msgAway 80) 0x17 [1] ptyState).party.held = [(5, { hpa := 5, state := .away })] ∧
    (did (.msgLeave 80) 0x19 [0] ptyState).party.held = [(5, { hpa := 5, state := .leaving })] ∧
    (did (.msgLeave 80) 0x19 [1] ptyState).party.held = [(5, { hpa := 5, state := .lost })] ∧
    (did (.msgBack 80) 0x18 [] ptyState).party.held = [] ∧ (did (.msgDepart 80) 0x1A [] ptyState).party.held = [] ∧
    (did (.msgCap 80) 0x1B [4, 0, 0, 0] ptyState).party.held = [(5, { hpa := 5, state := .active, freeGib := 4 })] := by decide +kernel
theorem test_msgAck :
    (did (.msgAck 80) 0x02 (natLe 8 7 ++ natLe 2 1) { ptyState with party := { ptyState.party with
      out := [{ to_ := 5, counter := 7 }, { to_ := 5, counter := 8 }] } }).party.out.map (·.counter) = [8] := by decide +kernel
/-- The sender is no member yet. -/
def lonely : State :=
  { ptyState with party := { ptyState.party with roster := { ptyState.party.roster with members := [(1, { hpa := 1, state := .active })] } } }
theorem test_msgJoinReq :
    (did (.msgJoinReq 80) 0x10 (natLe 2 5 ++ zeros 2 ++ natLe 4 3 ++ natLe 8 (7 * 2 ^ 26)) lonely).party.held =
      [(5, { hpa := 7, state := .active, freeGib := 3 })] := by decide +kernel
theorem test_msgJoinNak :
    (did (.msgJoinNak 80) 0x11 [1] { ptyState with party := { ptyState.party with state := .joining } }).party.state = .none := by decide +kernel
theorem test_msgEpoch_old :
    (did (.msgEpoch 80) 0x12 (natLe 4 9 ++ zeros 4 ++ natLe 1 1 ++ zeros 19) ptyState).party.roster.epoch = 2 := by decide +kernel
theorem test_msgSyncReq : (did (.msgSyncReq 80) 0x13 (natLe 4 1) ptyState).party.roster.epoch = 2 := by decide +kernel
theorem test_msgRosterPart :
    (did (.msgRosterPart 80) 0x14 (zeros 164) ptyState).party.syncParts.length ≤ 1 ∧
    (did (.msgRosterPart 80) 0x14 (zeros 164) ptyState).party.roster.epoch = 2 := by decide +kernel
theorem test_msgSyncHint : (did (.msgSyncHint 80) 0x1C (natLe 4 7 ++ natLe 2 5) ptyState).party.superseded = true := by decide +kernel

theorem witness_MessageChecks :
    (let s := cellState 0x17 [1] ptyState
     let t := { s with party := { s.party with rx := [(5, 9)] } }
     cellFormOk 5 (cellAt 80 s) s = true ∧ senderOk 5 0x17 [1] s = true ∧ leAt (cellAt 80 s) 0x18 8 = 9 ∧
     regGet (pgPty + 0x158) (after (exec (.msgAway 80) t)) = 1) ∧
    (let s := cellState 0x17 [1, 1] ptyState
     cellFormOk 5 (cellAt 80 s) s = false ∧ regGet (pgPty + 0x160) (after (exec (.msgAway 80) s)) = 1) ∧
    (let s := cellState 0x17 [1] ptyState
     goes (exec (.msgBack 80) s) s = true ∧ goes (exec (.msgAway 81) s) s = true) := by decide +kernel
theorem witness_MessageChecks_tag :
    (let s := { cellState 0x17 [1] ptyState with keys := [(2, { state := .active, role := 1, limit := 100000, key := 0x5B })] }
     regGet (pgPty + 0x150) (after (exec (.msgAway 80) s)) = 1) := by decide +kernel

/-! ### Watching -/

theorem witness_PartyWatch_window :
    windowArea 0x40 4 = 1 ∧ windowArea 0x420000 4 = 0 ∧ windowArea 0x800000 4 = 2 ∧ slotPieces 0x800000 [1, 2] = [(0, 0, [1, 2])] ∧
    (let u := after (exec (.bar4Write 0x7C [1, 2, 3, 4] false) ptyState); u.party.arrived = [(1, 17)]) ∧
    goes (exec (.bar4Write 0x40 [1] true) ptyState) ptyState = true ∧
    (slotOf 0 (after (exec (.bar4Write 0x800000 [1, 2] false) ptyState))).written = 2 := by decide +kernel
theorem witness_PartyWatch_heartbeat :
    (let s := { ptyState with pick := 256, party := { ptyState.party with hbDue := true } }
     hbTime s = true ∧ (ptyTag (heartbeatHead 1 s) s).1.isSome = true ∧ watchers s.party.roster 1 = [5] ∧
     (after (exec .heartbeatSend s)).sent.length = 2) ∧ hbTime ptyState = false := by decide +kernel

/-- Member 5's heartbeat with counter 4 has arrived. -/
def beatState : State :=
  let r := ptyState.party.roster
  let m := natLe 2 0x5041 ++ natLe 1 1 ++ zeros 1 ++ natLe 2 5 ++ natLe 2 1 ++ natLe 4 2 ++ natLe 4 (rosterCrc r) ++ natLe 8 4 ++ natLe 8 0x77
  let c := m ++ zeros 16 ++ cmac (keyBytes (keyGet 2 ptyState)) m
  { ptyState with party := { ptyState.party with
      arrived := [(5, 3)]
      window := windowOfBytes (64 * 5) c } }

theorem witness_PartyWatch_members :
    itemReady 5 beatState = true ∧ goes (exec (.heartbeat 4) beatState) beatState = true ∧
    ptyUp ptyState = true ∧ watches ptyState ptyState.party.roster 5 = true ∧
    (let s := { ptyState with pick := 256 * 64 }
     tget false (after (exec (.silentMark 5) s)).party.silent 5 = true) ∧
    goes (exec (.silentMark 5) ptyState) ptyState = true ∧ collector ptyState.party.roster 5 = some 1 ∧
    suspectReason 5 ptyState = none ∧ goes (exec (.suspectSend 5) ptyState) ptyState = true := by decide +kernel
theorem witness_PartyWatch_sends :
    (let s := { ptyState with due := [.partyAck 5] }
     (after (exec (.ackSend 5) s)).due = [] ∧ (after (exec (.ackSend 5) s)).sent.length = 2) ∧
    goes (exec (.ackSend 5) ptyState) ptyState = true ∧
    (let s := { ptyState with pick := 64, party := { ptyState.party with out := [{ to_ := 5, hpa := 5, type := 0x18, counter := 7, sends := 1 }] } }
     (after (exec (.messageResend 5 7) s)).party.out.map (·.sends) = [2] ∧
     goes (exec (.messageResend 5 7) { s with pick := 63 }) { s with pick := 63 } = true) ∧
    goes (exec .epochIssue ptyState) ptyState = true := by decide +kernel

/-- The only member, as steward, holds a change of its own entry at a boundary of 16 bolts. -/
def holder : State :=
  { lonely with pick := 4096, party := { lonely.party with held := [(1, { hpa := 1, state := .active, freeGib := 9 })] } }
theorem witness_PartyWatch_issue :
    mayIssue holder = true ∧ rosterIn (· ≠ .free) holder.party.roster = [1] := by decide +kernel
/-- Member 5 has been lost for the three days of R350. -/
def lostFive : State :=
  { ptyState with
    pick := 256 * 590625000
    party := { ptyState.party with
      roster := { ptyState.party.roster with
        members := [(1, { hpa := 1, state := .active }), (5, { hpa := 5, state := .lost })] } } }
theorem witness_PartyWatch_free :
    isSteward lostFive = true ∧ (after (exec (.lostMemberFree 5) lostFive)).party.held = [(5, { hpa := 5, state := .free })] ∧
    (let s := { ptyState with pick := 256 * 1023 }; goes (exec .capSend s) s = true) := by decide +kernel

/-! ### Party commands -/

def joinState (found : Nat) : State :=
  let s := adminData0 [(0, 0xD5), (6, 0x10000), (10, 0x20000 + found)]
    (natLe 8 0x77 ++ natLe 8 (3 * 2 ^ 26) ++ natLe 8 (5 * 2 ^ 26) ++ natLe 2 5 ++ natLe 2 60 ++ zeros 36)
  { enable [pgPty] s with
    qe := { s.qe with ctxs := [(0, { (ctxGet 0 s) with armOk := true })] }
    keys := [(2, { state := .active, role := 1, limit := 100000, key := 0x5A })]
    mender := { s.mender with table := 2 } }

theorem witness_PartyCommands_join :
    (let s := joinState 1
     holdsCmd 0 0xD5 false s = true ∧ critGate 0 s = none ∧ (hostData 0 64 s).1.isSome = true ∧
     joinOk (ctxGet 0 s).sqe (ctxGet 0 s).buf = true ∧ keyOf 1 0 s = some 2 ∧ (takeTableRange s).isSome = true) ∧
    (let s := joinState 0
     joinOk (ctxGet 0 s).sqe (ctxGet 0 s).buf = true ∧ goes (exec (.partyJoinFound 0) s) s = true ∧
     (after (exec (.partyJoin 0) s)).party.state = .joining) := by decide +kernel
theorem witness_PartyCommands_leave :
    (let s := armedCmd [(0, 0xD8), (10, 0)]
     holdsCmd 0 0xD8 false s = true ∧ critGate 0 s = none ∧ endsWith 0 vsNotMember (exec (.partyLeave 0) s) s = true) ∧
    (let s := { ptyState with qe := (armedCmd [(0, 0xD8), (10, 0)]).qe }
     (after (exec (.partyLeave 0) s)).party.leaveCtx = some 0) ∧
    (let s := { joinState 0 with pick := 256 * 4096, party := { ptyState.party with state := .joining, joinLimit := 4096 } }
     (after (exec .joinTimeout s)).party.state = .none) ∧
    goes (exec .joinTimeout ptyState) ptyState = true ∧ goes (exec .leaveTimeout ptyState) ptyState = true ∧
    (let s := adminCmd [(0, 0xDA), (6, 0x10000)]
     holdsCmd 0 0xDA false s = true ∧ (bufferOf 0 256 s).1.isSome = true ∧ (after (exec (.partyStatus 0) s)).sent.length ≠ 0) := by
  decide +kernel

/-! ### Mender messages and chunks -/

/-- The stripe 0x99 of members 1 and 5 and one more is held as entry 3. -/
def stripe0 : Stripe := { held := true, id := 0x99, k := 2, m := 1, shardLog2 := 20, local_ := 0, state := .sealed, members := [1, 5, 6], stream := 4, issuer := 5 }
def mndState : State := { ptyState with mender := { ptyState.mender with stripes := [(3, stripe0)] } }

theorem witness_MenderMessages_plan :
    mndState.mender.table ≠ 1 ∧ mayHelp ptyState = true ∧ stripeFind 0x98 mndState = none ∧ stripeFind 0x99 mndState = some (3, stripe0) ∧
    ((did (.msgPlan 80) 0x40 (natLe 8 4 ++ natLe 8 0x98 ++ zeros 26) mndState).party.out.map fun m => (m.type, leAt m.body 8 1)) = [(0x41, 3)] := by
  decide +kernel
theorem witness_MenderMessages_streams :
    (did (.msgChunkNak 80) 0x03 (zeros 16) mndState).mender = mndState.mender ∧
    (did (.msgGrant 80) 0x42 (natLe 8 4 ++ [1, 0, 9, 0]) { mndState with mender := { mndState.mender with hops := [{ stream := 4, to_ := 5 }] } }).mender.hops.map (·.slots) = [[9]] ∧
    (did (.msgChunkOk 80) 0x43 (natLe 8 4 ++ natLe 8 64) { mndState with mender := { mndState.mender with hops := [{ stream := 4, to_ := 5 }] } }).mender.hops.map (·.done) = [64] ∧
    (did (.msgPlanAbort 80) 0x45 (natLe 8 4) { mndState with mender := { mndState.mender with plans := [{ stream := 4, role := .helper }] } }).mender.plans = [] ∧
    (did (.msgHopFail 80) 0x44 (zeros 24) mndState).mender = mndState.mender := by decide +kernel
theorem witness_MenderMessages_stripes :
    ((did (.msgDigestReq 80) 0x46 (natLe 8 0x98) mndState).party.out.map fun m => (m.type, leAt m.body 9 1)) = [(0x47, 2)] ∧
    (did (.msgDigest 80) 0x47 (natLe 8 0x99 ++ zeros 40) mndState).mender.stripes = mndState.mender.stripes ∧
    (did (.msgStripeDrop 80) 0x49 (natLe 8 0x99) mndState).mender.stripes = [] ∧
    (did (.msgPlanAck 80) 0x41 (natLe 8 5 ++ zeros 16) mndState).mender = mndState.mender ∧
    (did (.msgSpreadOpen 80) 0x4A (natLe 8 7 ++ natLe 8 0x99 ++ zeros 88) mndState).party.out.map (fun m => leAt m.body 8 1) = [1] ∧
    ((did (.msgRecordReq 80) 0x4B (natLe 8 0x99) mndState).party.out.map fun m => m.type) = [0x4C] ∧
    (did (.msgRecord 80) 0x4C (natLe 8 0x99 ++ zeros 88) mndState).mender = mndState.mender ∧
    (did (.msgStripeSet 80) 0x48 (natLe 8 0x98 ++ zeros 88) mndState).mender = mndState.mender := by decide +kernel

/-- Slot 0 of the window is granted to member 5 for stream 4; a header of 64 bytes of zeros has arrived. -/
def chunkState (crc : Nat) (kind : Nat) : State :=
  let h := natLe 2 0x4B43 ++ natLe 1 kind ++ zeros 1 ++ natLe 2 5 ++ natLe 2 0 ++ natLe 8 4 ++ natLe 8 0 ++ natLe 4 64 ++ natLe 4 crc ++
    natLe 4 2 ++ natLe 4 0 ++ zeros 24
  { mndState with
    mender := { mndState.mender with plans := [{ stream := 4, role := .helper, length := 65536 }] }
    party := { mndState.party with
      arrived := [(1024, 3)]
      slots := [(0, { granted := true, sender := 5, stream := 4, written := 64, parts := [(0, zeros 64)] })]
      window := windowOfBytes 0x10000 h } }

theorem witness_Chunks :
    (let s := chunkState (crc32c (zeros 64)) 2
     itemReady 1024 s = true ∧ ptyUp s = true ∧ chunkBad 0 (tgetBytes s.party.window 0x10000 64) (slotOf 0 s) = none ∧
     (after (exec (.chunkHeaderArrival 0) s)).mender.plans.map (fun p => p.inbox.length) = [1]) ∧
    (let s := chunkState 1 2
     chunkBad 0 (tgetBytes s.party.window 0x10000 64) (slotOf 0 s) = some 2 ∧
     regGet (pgPty + 0x170) (after (exec (.chunkHeaderArrival 0) s)) = 1) ∧
    goes (exec (.chunkHeaderArrival 1) mndState) mndState = true ∧ goes (exec (.uioWriteCompletion 5 true) mndState) mndState = true := by
  decide +kernel
theorem witness_Chunks_spread :
    (let s := { chunkState (crc32c (zeros 64)) 1 with mender := { mndState.mender with stripes := [(3, { stripe0 with state := .open_ })] } }
     chunkBad 0 (tgetBytes s.party.window 0x10000 64) (slotOf 0 s) = none ∧ chunkAhead 4 0 0 s = false ∧ chunkAhead 4 0 65536 s = true) := by
  decide +kernel
theorem witness_Chunks_uio :
    (let s := { regSet (pgCxlT + 0x128) 1 mndState with cxl := { mndState.cxl with uio := true } }
     regGet (pgPty + 0x178) (after (exec (.uioWriteCompletion 5 false) s)) = 1) := by decide +kernel

/-! ### Stripe commands -/

/-- Context 0 holds a command of F0's I/O queue 1 without a namespace, on the member. -/
def stripeCmd (l : List (Nat × Nat)) (e : Stripe) : State :=
  { mndState with
    qe := { mndState.qe with ctxs := [(0, { used := true, fn := 0, sq := 1, cid := 9, sqe := sqe l, order := 1 })] }
    mender := { mndState.mender with stripes := [(3, e)] } }

/-- A Spread Write waits for the answers to its SPREAD_OPEN, its limit not reached. -/
def openWaits : State :=
  { stripeCmd [] { stripe0 with issued := true, step := 1, ctx := some 0 } with
    qe := { mndState.qe with ctxs := [(0, { used := true, sq := 1, deadline := some 4 })] } }
theorem witness_Stripes_spread :
    (let s := stripeCmd [(0, 0x91), (4, 0x20000), (6, 0x10000), (10, 0x98), (12, 1), (14, 1)] stripe0
     holdsCmd 0 0x91 true s = true ∧ swFieldsOk (ctxGet 0 s).sqe = true ∧ stripeGate 0 s = none ∧
     (ctxGet 0 (after (exec (.spreadWrite 0) s))).asked = 2) ∧
    (let s := stripeCmd [(0, 0x91)] stripe0; endsWith 0 stField (exec (.spreadWrite 0) s) s = true) ∧
    (let s := { stripeCmd [] { stripe0 with issued := true, state := .open_, stream := 4 } with pick := 256 * 1024 * 65536 }
     (after (exec (.openStripeTimeout 0x99) s)).mender.stripes.length ≤ 1) ∧
    goes (exec (.spreadOpenTimeout 0x99) openWaits) openWaits = true := by decide +kernel
theorem witness_Stripes_read :
    (let s := stripeCmd [(0, 0x92), (6, 0x10000), (10, 0x99), (14, 1)] stripe0
     holdsCmd 0 0x92 true s = true ∧ (bufferOf 0 128 s).1.isSome = true ∧ (after (exec (.shardRead 0) s)).sent.length ≠ 0) ∧
    (let s := stripeCmd [(0, 0x92), (6, 0x10000), (10, 0x99), (13, 256)] stripe0
     endsWith 0 stLba (exec (.shardRead 0) s) s = true) ∧
    (let s := stripeCmd [(0, 0x92), (6, 0x10000), (10, 0x99)] { stripe0 with state := .repairing }
     endsWith 0 vsShard (exec (.shardRead 0) s) s = true) := by decide +kernel
theorem witness_Stripes_other :
    (let s := stripeCmd [(0, 0x94), (10, 0x99), (12, 7)] stripe0
     holdsCmd 0 0x94 true s = true ∧ endsWith 0 stField (exec (.mendRepair 0) s) s = true) ∧
    (let s := { mndState with mender := { mndState.mender with table := 1 } }
     goes (exec (.msgPlan 80) s) s = true) := by decide +kernel
theorem witness_Stripes_mend :
    (let s := stripeCmd [(0, 0x94), (10, 0x99), (12, 1)] { stripe0 with state := .damaged }
     holdsCmd 0 0x94 true s = true ∧ goes (exec (.mendRepair 0) s) (finishDw 0 stOk 2 0 s) = true) ∧
    (let s := stripeCmd [(0, 0x94), (10, 0x99), (12, 2)] { stripe0 with step := 3 }
     goes (exec (.mendVerify 0) s) s = true) ∧
    (let s := stripeCmd [(0, 0x94), (10, 0x99), (12, 3)] stripe0
     guardWait (ctxGet 0 s) s = false ∧ (ctxGet 0 (after (exec (.mendDrop 0) s))).phase = 20) ∧
    (let s := { mndState with mender := { mndState.mender with plans := [{ stream := 4, role := .lead, length := 64, done := 64 }] }, pick := 256 * 4096 }
     goes (exec (.relayTimeout 4) s) s = true ∧ goes (exec (.relayTimeout 9) s) s = true) := by decide +kernel

/-! ### Low power, and the clauses that wait or give up -/

/-- The part is in PS3. -/
def asleep (s : State) : State := { s with pwr := { s.pwr with ps := 3 } }
theorem witness_MessageChecks_wake :
    (let s := asleep (cellState 0x17 [1] ptyState)
     itemReady 2128 s = true ∧ cellType (cellAt 80 s) = 0x17 ∧ goes (exec (.msgAway 80) s) (wake s) = true) ∧
    (let s := asleep (chunkState 1 2)
     itemReady 1024 s = true ∧ ptyUp s = true ∧ goes (exec (.chunkHeaderArrival 0) s) (wake s) = true) := by decide +kernel
theorem witness_MenderMessages_ready :
    (let s := cellState 0x46 (natLe 8 0x98) mndState
     cellDue 80 0x46 s = true ∧ (shardReady 0x98 s).1 = true) ∧
    (let s := cellState 0x46 (natLe 8 0x99) { mndState with jnl := { mndState.jnl with segs := [(0, .queued)] } }
     cellDue 80 0x46 s = true ∧ (shardReady 0x99 s).1 = false) := by decide +kernel

/-- The part leads the repair of stripe 0x99: member 5 helps and takes the shard, and answers. -/
def leadSt (asked : Bool) : State := { mndState with
  mender := { mndState.mender with plans := [{ stream := 4, role := .lead, stripe := 0x99, target := 5, helpers := [5], asked := asked, length := 65536 }] } }
theorem witness_MenderMessages_lead :
    ((did (.msgPlanAck 80) 0x41 (natLe 8 4 ++ zeros 16) (leadSt true)).mender.plans.map fun p => (p.started, p.acked)) = [(true, [5])] ∧
    (did (.msgPlanAck 80) 0x41 (natLe 8 4 ++ [2] ++ zeros 15) (leadSt true)).mender.plans = [] ∧
    (did (.msgHopFail 80) 0x44 (natLe 8 4 ++ natLe 2 5 ++ zeros 14) (leadSt true)).mender.queue.head? = some 0x99 := by decide +kernel
theorem witness_MenderMessages_issuer :
    let s := { mndState with mender := { mndState.mender with stripes := [(3, { stripe0 with issued := true, step := 1, state := .open_ })] } }
    (tget {} (did (.msgPlanAck 80) 0x41 (natLe 8 4 ++ zeros 16) s).mender.stripes 3).acks = [5] ∧
    (did (.msgPlanAck 80) 0x41 (natLe 8 4 ++ [1] ++ zeros 15) s).mender.stripes = [] := by decide +kernel
theorem witness_MenderMessages_digest :
    let s := { mndState with mender := { mndState.mender with stripes := [(3, { stripe0 with step := 5 })] } }
    (tget {} (did (.msgDigest 80) 0x47 (natLe 8 0x99 ++ [1, 0] ++ zeros 6 ++ natLe 32 7) s).mender.stripes 3).digests = [(1, 7)] := by
  decide +kernel

/-- A hop of stream 4 to member 5 whose piece of 64 bytes is in flight, tried so often. -/
def hopState (tries : Nat) : State := { mndState with
  mender := { mndState.mender with
    hops := [{ stream := 4, to_ := 5, kind := 2, end_ := 64, seq := 1, flying := [{ slot := 9, seq := 0, tries := tries, data := zeros 64 }] }]
    plans := [{ stream := 4, role := .helper, length := 64 }] } }
theorem witness_Chunks_nak :
    ((did (.msgChunkNak 80) 0x03 (natLe 2 9 ++ zeros 2 ++ natLe 4 0 ++ natLe 8 4) (hopState 1)).mender.hops.map fun h => (h.seq, h.flying.map (·.tries))) =
      [(2, [2])] ∧
    (did (.msgChunkNak 80) 0x03 (natLe 2 9 ++ zeros 2 ++ natLe 4 0 ++ natLe 8 4) (hopState 5)).mender.plans = [] := by decide +kernel
theorem witness_Chunks_again :
    let up (n : Nat) := let s := regSet (pgCxlT + 0x128) 1 (hopState n); { s with cxl := { s.cxl with uio := true } }
    ((after (exec (.uioWriteCompletion 5 false) (up 1))).mender.hops.map fun h => (h.seq, h.flying.map (·.tries))) = [(2, [2])] ∧
    (after (exec (.uioWriteCompletion 5 false) (up 5))).mender.plans = [] := by decide +kernel
theorem witness_PartyWatch_late :
    (let s := { ptyState with pick := 64, party := { ptyState.party with out := [{ to_ := 5, hpa := 5, type := 0x18, counter := 7, sends := 16 }] } }
     let u := after (exec (.messageResend 5 7) s)
     u.party.out = [] ∧ u.party.dropped.map (·.counter) = [7]) ∧
    (let s := { ptyState with pick := 256 * 2400000, party := { ptyState.party with silent := [(5, true)] } }
     suspectReason 5 s = some 1 ∧ tget 0 (after (exec (.suspectSend 5) s)).party.suspectSent 5 = 2400001) := by decide +kernel
theorem witness_Stripes_open :
    (let s := { openWaits with pick := 256 * 4 }
     (after (exec (.spreadOpenTimeout 0x99) s)).mender.stripes = []) ∧
    (let s := stripeCmd [(0, 0x91), (10, 0x99), (12, 1)] { stripe0 with issued := true, state := .open_, step := 2, ctx := some 0 }
     let t := { s with qe := { s.qe with ctxs := s.qe.ctxs.map fun e => (e.1, { e.2 with started := true, phase := 90 }) } }
     swSent stripe0 65536 t = true ∧ (tget {} (after (exec (.spreadWrite 0) t)).mender.stripes 3).step = 0) := by decide +kernel
theorem witness_Stripes_lead :
    (let s := stripeCmd [(0, 0x94), (10, 0x99), (12, 1)] stripe0
     lostShards stripe0 s = [2] ∧ leadOf stripe0 s = some 1 ∧ (after (exec (.mendRepair 0) s)).mender.queue = [0x99]) ∧
    (let e := { stripe0 with members := [1, 5, 5] }
     let s := stripeCmd [(0, 0x94), (10, 0x99), (12, 1)] e
     lostShards e s = [] ∧ ownLoss e s = none ∧ goes (exec (.mendRepair 0) s) (finishDw 0 stOk 4 0 s) = true) := by decide +kernel
theorem witness_Stripes_drop :
    let s := stripeCmd [(0, 0x94), (10, 0x99), (12, 3)] stripe0
    let t := { s with qe := { s.qe with ctxs := s.qe.ctxs.map fun e => (e.1, { e.2 with phase := 20 }) } }
    msgWaits 0x49 0x99 t = false ∧ goes (exec (.mendDrop 0) t) (finishDw 0 stOk 0 0 (msgForget 0x99 t)) = true ∧
    (let u := { t with party := { t.party with out := [{ to_ := 5, type := 0x49, body := natLe 8 0x99 }] } }
     msgWaits 0x49 0x99 u = true ∧ goes (exec (.mendDrop 0) u) u = true) := by decide +kernel
theorem witness_Stripes_verify :
    let s := stripeCmd [(0, 0x94), (10, 0x99), (12, 2)] stripe0
    let v := stripePut 3 { stripe0 with ctx := some 0 } (ctxMod 0 (fun y => { y with started := true }) (openExtents 0 [] [] s))
    goes (exec (.mendVerify 0) s) (askDigests 0x99 5 v) = true := by decide +kernel
theorem witness_Stripes_relay :
    (let s : State := { leadSt true with pick := 256 * 4096 }
     (after (exec (.relayTimeout 4) s)).mender.plans = [] ∧ (after (exec (.relayTimeout 4) s)).mender.queue.head? = some 0x99) ∧
    (let s := { hopState 1 with pick := 256 * 4096 }
     (after (exec (.relayTimeout 4) s)).mender.plans = []) := by decide +kernel

end Sys2Proof.Machine
end

