-- ==== Sys2Proof/Tests/Power.lean ====
section
/-!
SUPPORT. Tests and witnesses: power-on reset, the power-fail sequence, temperatures and idle power states.
-/
namespace Sys2Proof.Machine

set_option Elab.async false

/-! ### Power-on reset -/

def porState : State :=
  { rdyState with pick := 9, tasks := [(3, { counter := 1 })], ham := [(5, 1)], hamx := { HamperAux.reset with
      factory := [], field := [] } }

theorem witness_PowerOnReset :
    let u := after (exec (.powerOnReset 5) porState)
    porState.boot.aonLow = false ∧ u.pick = 0 ∧ u.ham = [] ∧ u.tasks = [] ∧ u.boot.phase = .rom ∧ u.boot.straps = 5 := by decide +kernel
theorem witness_PowerOnReset_aonLow :
    goes (exec (.powerOnReset 5) { porState with boot := { porState.boot with aonLow := true } })
      { porState with boot := { porState.boot with aonLow := true } } = true := by decide +kernel
theorem witness_PowerOnReset_por : let u := after (exec .porNAssert porState); u.boot.phase = .held ∧ u.boot.porLow = true ∧ u.pick = 0 := by
  decide +kernel
theorem witness_PowerOnReset_aon : let u := after (exec .vddAonLoss porState); u.boot.phase = .held ∧ u.boot.aonLow = true ∧ u.pick = 0 := by
  decide +kernel
theorem witness_PowerOnReset_rails :
    (after (exec (.railBackInRange 6) (after (exec .vddAonLoss porState)))).boot.aonLow = false ∧
    (after (exec (.railBackInRange 5) { porState with boot := { porState.boot with railsLow := [(0, true), (5, true)] } })).boot.railsLow
      = [(0, true)] ∧ stops (exec (.railBackInRange 7) porState) .noSuchUnit = true := by decide +kernel

/-! ### The power-fail sequence -/

theorem witness_PowerFailTriggers :
    rdyState.boot.phase ≠ .held ∧ rdyState.jnl.pf = .none ∧
    (after (exec (.pwrfailNAssert 160) rdyState)).jnl = { rdyState.jnl with pf := .triggered, pfReason := 1, pfAt := 0 } ∧
    (after (exec (.supplyMonitorTrip 0) rdyState)).jnl = { rdyState.jnl with pf := .triggered, pfReason := 2, pfAt := 0 } ∧
    (after (exec (.supplyMonitorTrip 5) rdyState)).boot.railsLow = [(5, true)] ∧
    (after (exec (.drill 1) rdyState)).jnl.pfReason = 5 ∧ regGet (pgJnl + 0x134) (after (exec (.drill 1) rdyState)) = 1 ∧
    goes (exec (.drill 2) rdyState) rdyState = true ∧ (after (exec (.pwrfailNAssert 120) rdyState)).jnl = rdyState.jnl ∧
    isNext (exec (.pwrfailNAssert 121) rdyState) = true := by decide +kernel

/-- The pins of a part that is held in reset only show their levels. -/
def heldState : State := { rdyState with boot := { rdyState.boot with phase := .held } }

theorem witness_PowerFailTriggers_held :
    heldState.boot.phase = .held ∧ goes (exec (.drill 1) heldState) heldState = true ∧ (after (exec .latchOpen heldState)).svc.latchOpen = true ∧
    (after (exec .latchOpen heldState)).jnl = heldState.jnl ∧ (after (exec (.pwrfailNAssert 160) heldState)).jnl = heldState.jnl := by
  decide +kernel
theorem witness_PowerFailTriggers_latch :
    rdyState.svc.latchOpen = false ∧ removalPending rdyState = false ∧ (after (exec .latchOpen rdyState)).jnl.pfReason = 3 ∧
    (let v := { rdyState with svc := { rdyState.svc with removal := .ready } }
     removalPending v = true ∧ (after (exec .latchOpen v)).svc = { v.svc with latchOpen := true }) ∧
    (let v := { rdyState with svc := { rdyState.svc with removal := .draining } }
     removalPending v = true ∧ (after (exec .latchOpen v)).svc = { v.svc with latchOpen := true, latchWarn := true }) ∧
    (let v := { rdyState with svc := { rdyState.svc with latchOpen := true } }; goes (exec .latchOpen v) v = true) := by decide +kernel

def dumping : State := { rdyState with pick := 8, jnl := { rdyState.jnl with pf := .dumping, pfAt := 4, pfReason := 3 } }

theorem witness_PowerFailTriggers_second :
    dumping.jnl.pf = .dumping ∧ (after (exec (.pwrfailNAssert 160) dumping)).jnl = dumping.jnl ∧
    (after (exec (.pwrfailNAssert 160) dumping)).boot.pwrfailLow = true ∧ goes (exec (.drill 1) dumping) (regSetFld (pgJnl + 0x134) 0 0 1 dumping) = true := by
  decide +kernel
theorem witness_PowerFailTriggers_samePick :
    let v : State := { rdyState with jnl := { rdyState.jnl with pf := .triggered, pfReason := 2 } }
    (after (exec (.pwrfailNAssert 160) v)).jnl.pfReason = 1 ∧ (after (exec (.pwrfailNAssert 160) { v with pick := 1 })).jnl.pfReason = 2 := by
  decide +kernel
theorem test_pwrfailNDeassert :
    (after (exec .pwrfailNDeassert { rdyState with boot := { rdyState.boot with pwrfailLow := true } })).boot.pwrfailLow = false := by
  decide +kernel
theorem test_latchClose :
    (after (exec .latchClose { rdyState with svc := { rdyState.svc with latchOpen := true } })).svc.latchOpen = false := by decide +kernel

def triggered : State := { rdyState with pick := 3, jnl := { rdyState.jnl with pf := .triggered, pfAt := 2, pfReason := 1 } }

theorem witness_PowerFailSequence_act :
    triggered.jnl.pf = .triggered ∧ triggered.jnl.pfAt < pickN triggered ∧
    (let u := after (exec .powerFailAct triggered); u.jnl.pf = .dumping ∧ u.jnl.pfAt = 3 ∧ u.svc.removal = .idle) ∧
    goes (exec .powerFailAct { triggered with pick := 2 }) { triggered with pick := 2 } = true := by decide +kernel
theorem witness_PowerFailSequence_seal :
    dumping.jnl.pf = .dumping ∧ dumping.jnl.pfAt + regFld (pgJnl + 0x130) 15 0 dumping ≤ pickN dumping + 4 ∧
    dumping.die.failed = false ∧ dumping.boot.phase ≠ .fatal ∧
    (let u := after (exec (.sealRing true) dumping)
     u.jnl.pf = .sealed ∧ u.die.sealReason = 3 ∧ u.boot.phase = .sealed ∧ u.svc.removal = .latch ∧ u.log.savedValid = true) ∧
    (let u := after (exec (.sealRing false) dumping); u.die.failed = true ∧ u.jnl = dumping.jnl ∧ u.boot.phase = .fatal) := by decide +kernel

def sealed256 : State :=
  { rdyState with pick := 300, jnl := { rdyState.jnl with pf := .sealed }, boot := { Boot.reset with phase := .sealed, goodPicks := 256 } }

theorem witness_PowerFailSequence_restore :
    sealed256.jnl.pf = .sealed ∧ powerGood sealed256 = true ∧ sealed256.boot.stuck = false ∧
    (after (exec .powerRestoredReset sealed256)).due = [.reset 0 301] ∧
    goes (exec .powerRestoredReset { sealed256 with boot := { sealed256.boot with goodPicks := 255 } })
      { sealed256 with boot := { sealed256.boot with goodPicks := 255 } } = true := by decide +kernel

/-! ### Temperatures and idle states -/

def warm : State := { rdyState with pick := 256 }

theorem witness_ThermalAndIdle_thermal :
    warm.pwr.thermBolt ≠ boltN warm + 1 ∧ warm.boot.phase ≠ .held ∧ boltN warm % 16 ≠ 0 ∧
    (let v := { warm with pwr := { warm.pwr with thermBolt := 2 } }; goes (exec (.thermalUpdate [90] []) v) v = true) := by
  decide +kernel

def idle3 : State :=
  { rdyState with pick := 99999999, qe := { rdyState.qe with apstOn := true, apst := [(0, (100, 3))] } }

theorem witness_ThermalAndIdle_idle : lowTarget idle3 = some 3 ∧ idle3.boot.phase = .ready ∧ idle3.jnl.pf = .none ∧
    idleNow idle3 = true ∧ idle3.pwr.ps < 3 ∧ (after (exec .apstTransition idle3)).pwr.ps = 3 := by decide +kernel
theorem witness_ThermalAndIdle_busy :
    let v := { idle3 with mender := { idle3.mender with queue := [1] } }
    idleNow v = false ∧ goes (exec .apstTransition v) v = true := by decide +kernel

end Sys2Proof.Machine
end

