-- ==== Sys2Proof/Tests/Programs.lean ====
section
/-!
SUPPORT. Tests and witnesses: keys and Arm, Portions, program images and runs.
-/
namespace Sys2Proof.Machine

set_option Elab.async false

/-! ### Keys and Arm -/

/-- Slot 3 holds F0's admin key; the command of context 0 is the last entry fetched. -/
def keyed (s : State) : State :=
  { s with keys := [(3, { state := .active, role := 0, owner := 0, limit := 100, key := 0x1234 })]
           fns := [(0, { ctl0 with lastAdmin := 1 })] }

theorem witness_KeysAndArm_arm :
    (let s := keyed (adminCmd [(0, 0xC0), (10, 5), (12, 0xAA)])
     holdsCmd 0 0xC0 false s = true ∧ keyOf 0 0 s = some 3 ∧ lockedOut 0 s = false ∧ nextIsCritical (ctxGet 0 s) s = true ∧
     (fnGet 0 (after (exec (.arm 0) s))).arm = some { counter := 5, tag := 0xAA, pick := 0, order := 1 }) ∧
    (let s := keyed (adminCmd [(0, 0xC0), (10, 0)]); endsWith 0 vsCounterStale (exec (.arm 0) s) s = true) ∧
    (let s := adminCmd [(0, 0xC0), (10, 5)]; endsWith 0 vsKeyRetired (exec (.arm 0) s) s = true) := by decide +kernel

/-- A Sanitize behind an Arm with this tag. -/
def armed (tag : Nat) (at_ : Nat) : State :=
  let s := keyed (adminCmd [(0, 0x84), (10, 2)])
  { s with
    fns := [(0, { ctl0 with arm := some { counter := 5, tag := BitVec.ofNat 128 tag, pick := 0, order := 0 } })]
    qe := { s.qe with ctxs := [(0, { (ctxGet 0 s) with pick := at_ })] }
    jnl := { s.jnl with indexed := true } }

theorem witness_KeysAndArm_gate :
    (let s := armed 0 0
     (ctxGet 0 s).armOk = false ∧ (ctxGet 0 s).prev = 0 ∧ keyOf 0 0 s = some 3 ∧
     (keyUse 3 3 (fnMod 0 (fun q => { q with arm := none }) s)).1 = true) ∧
    (ctxGet 0 ((critGate 0 (armed 336759812849869118342630047528193485438 0)).getD State.reset)).armed = true ∧
    (let s := armed 0 16385
     (critGate 0 s).any (fun t => t = finish 0 vsArmExpired (fnMod 0 (fun q => { q with arm := none }) s)) = true) ∧
    (let s := keyed (adminCmd [(0, 0x84), (10, 2)])
     (critGate 0 s).any (fun t => t = finish 0 vsArmRequired s) = true) := by decide +kernel

/-- A Key Load of slot 4, role 0, owner 0, with a key of zeros and its check value. -/
def keyLoadState (erase : Bool) : State :=
  adminData0 [(0, 0xD1), (6, 0x10000), (10, 4 + if erase then 2048 else 0), (11, 9)]
    (zeros 32 ++ (cmac (zeros 32) (zeros 16)).take 4 ++ zeros 28)

theorem witness_KeysAndArm_load :
    (let s := keyLoadState false
     holdsCmd 0 0xD1 false s = true ∧ klFieldsOk (ctxGet 0 s).sqe = true ∧ (klGate 0 s).1.isNone = true ∧ klErase (ctxGet 0 s).sqe = false ∧
     (hostData 0 64 s).1.isSome = true ∧ keyGet 4 (after (exec (.keyLoad 0) s)) = { state := .active, limit := 9 }) ∧
    (let s := { keyLoadState true with keys := [(4, { state := .retired, limit := 9 })] }
     klErase (ctxGet 0 s).sqe = true ∧ (klGate 0 s).1.isNone = true ∧ (keyGet 4 (after (exec (.keyErase 0) s))).state = .empty) := by
  decide +kernel

theorem witness_KeysAndArm_more :
    (let s := keyed (adminCmd [(0, 0xC0), (10, 5)])
     let s := fnMod 0 (fun y => { y with lockUntil := some 1 }) s
     lockedOut 0 s = true ∧ endsWith 0 vsAuthFailed (exec (.arm 0) s) (regAdd (pgKck 0 + 0x600) 1 s) = true) ∧
    (fenced (pgKck 0) (armed 0 0) && fenced (pgKck 1) (armed 0 0)) = false ∧
    ((armed 0 0).qe.ctxs.any fun e => e.2.fn = 0 && e.2.sq = 0 && e.2.order = (ctxGet 0 (armed 0 0)).prev && sqeOp e.2.sqe = 0xC0) = false ∧
    (let s := { keyLoadState false with qe := { (keyLoadState false).qe with
                  ctxs := [(0, { (ctxGet 0 (keyLoadState false)) with buf := zeros 32 ++ [1] ++ zeros 31 })] } }
     endsWith 0 stField (exec (.keyLoad 0) s) s = true) ∧
    (let s := keyLoadState true
     (klGate 0 s).1.isNone = true ∧ (keyGet 4 s).state = .empty ∧ goes (exec (.keyErase 0) s) (finishDw 0 stOk 4 0 s) = true) := by
  decide +kernel

/-! ### Portions -/

def portionBytes (f : Nat) : Bytes := natLe 2 1 ++ natLe 1 f ++ natLe 1 7 ++ natLe 1 8 ++ natLe 1 64 ++ zeros 2 ++ natLe 2 9 ++ zeros 54

/-- Set Portion of a function, behind its Arm. -/
def portionState (f : Nat) : State :=
  let s := adminData0 [(0, 0xC5), (6, 0x10000), (10, f)] (portionBytes 1)
  { s with qe := { s.qe with ctxs := [(0, { (ctxGet 0 s) with armOk := true })] } }

theorem witness_Portions :
    (let s := portionState 1
     holdsCmd 0 0xC5 false s = true ∧ critGate 0 s = none ∧ (hostData 0 64 s).1.isSome = true ∧ ptOk 1 (portionBytes 1) = true ∧
     (portionOf 1 (after (exec (.setPortion 0) s))).slots = 9) ∧
    (let s := portionState 2; ptOk 2 (portionBytes 1) = false ∧ endsWith 0 stField (exec (.setPortion 0) s) s = true) ∧
    (let s := adminCmd [(0, 0xC6), (6, 0x10000), (10, 3)]
     holdsCmd 0 0xC6 false s = true ∧ (bufferOf 0 256 s).1.isSome = true ∧ (fnGet 0 s).bme = true ∧
     (after (exec (.getPortion 0) s)).sent.length ≠ 0) := by decide +kernel

/-- A record of F1 that asks for `n` × 64 KiB of the Hamper in its HDM window. -/
def carveBytes (n : Nat) : Bytes := natLe 2 1 ++ natLe 1 1 ++ natLe 1 7 ++ natLe 1 8 ++ natLe 1 64 ++ zeros 0x24 ++ natLe 2 n ++ zeros 20
theorem witness_Portions_carve :
    (let s := portionState 1
     (match carveAll 1 (ptParse (portionBytes 1)) s with
       | .ok _ => true
       | .error _ => false) = true) ∧
    ptOk 1 (carveBytes 128) = true ∧ (ptParse (carveBytes 128)).hdmHam = 128 ∧
    (let s := regSet (pgCxlH + 0x110) (2 ^ 63 + 128 * 2 ^ 40 + 1024) (portionState 1)
     (match carveAll 1 (ptParse (carveBytes 128)) s with
       | .ok _ => 0
       | .error off => off) = 0x2A) ∧
    (let s := adminCmd [(0, 0xC6), (6, 0x10000), (10, 3)]; (portionEntry 3 s).length = 256) := by decide +kernel

/-! ### Images -/

/-- DRAM is trained; the program store starts at its working space. -/
def withDram (s : State) : State := { s with ddr := { s.ddr with trained := true, capGib := 16 } }

def loadState (len off flags : Nat) (bs : Bytes) : State :=
  withDram (adminData0 [(0, 0xC9), (6, 0x10000), (10, len), (11, off), (12, flags)] bs)

theorem witness_ProgramImages_first :
    (let s := loadState 64 0 1 ((tinyImage 0).take 64)
     holdsCmd 0 0xC9 false s = true ∧ dramUp s = true ∧ partialOf 0 s = none ∧ handles 0 s = [] ∧ (hostData 0 64 s).1.isSome = true ∧
     storePlace (hdLength ((tinyImage 0).take 64)) s = some 0 ∧
     imgGet 0 (after (exec (.loadProgram 0) s)) = { present := true, length := (tinyImage 0).length, got := 64 }) := by decide +kernel

/-- All but the last 8 bytes of an image are in the store; the last piece brings them. -/
def lastState (img : Bytes) (n : Nat) : State :=
  let s := loadState n (img.length - 8) 2 (img.drop (img.length - 8))
  { s with
    progs := [(0, { present := true, got := img.length - 8, length := img.length })]
    dram := (img.take (img.length - 8)).zipIdx.filterMap fun p => if p.1 = 0 then none else some (storeBase s + p.2, p.1) }

theorem witness_ProgramImages_last :
    (let s := lastState (tinyImage 0) 8
     partialOf 0 s = some 0 ∧ (hostData 0 8 s).1.isSome = true ∧ (canonical s && ordered s && queueWf s) = true ∧
     (imgGet 0 (after (exec (.loadProgram 0) s))).loaded = true) ∧
    (imgGet 0 (after (exec (.loadProgram 0) (lastState (tinyImage 1) 8)))).present = false ∧
    (imgGet 0 (after (exec (.loadProgram 0) (lastState (tinyImage 0) 4)))).present = false := by decide +kernel
theorem witness_ProgramImages_end :
    (let s := { ctlState with progs := [(3, { present := true, got := 64, length := 128 })], pick := 64 * 256 }
     (after (exec (.partialLoadDiscard 0 3) s)).progs = [] ∧ goes (exec (.partialLoadDiscard 0 4) s) s = true) ∧
    (let s := { adminCmd [(0, 0xCC), (10, 3)] with progs := [(3, { present := true, loaded := true })] }
     holdsCmd 0 0xCC false s = true ∧ (after (exec (.unloadProgram 0) s)).progs = [] ∧
     endsWith 0 stSequence (exec (.unloadProgram 0) { s with runs := [(5, { used := true, image := 3 })] })
       { s with runs := [(5, { used := true, image := 3 })] } = true) ∧
    (let s := adminCmd [(0, 0xCC), (10, 3)]; endsWith 0 stField (exec (.unloadProgram 0) s) s = true) := by decide +kernel

/-! ### Runs -/

/-- Argument block: image 0, function 0, run window 2, one task. -/
def runArgs : Bytes := zeros 9 ++ [2, 1] ++ zeros 53

/-- A Run Program; its image is loaded, and its argument block has arrived if `got` says so. -/
def runState (n : Nat) (got : Bool) : State :=
  let s := withDram (ioCmd [(0, 0x83), (4, 0x20000), (10, n)])
  let s := ioMod (fun x => { x with mbuf := runArgs, gotMptr := got, started := got }) (enable [pgItn, pgHam] s)
  { s with
    fns := [(0, { ctl0 with bme := true })]
    progs := [(0, { present := true, loaded := true, got := (tinyImage 0).length, length := (tinyImage 0).length })]
    dram := (tinyImage 0).zipIdx.filterMap fun p => if p.1 = 0 then none else some (storeBase s + p.2, p.1) }

theorem witness_Runs_asks :
    (let s := runState 64 false
     holdsCmd 0 0x83 true s = true ∧ (ioGate 0 s).isNone = true ∧ (ctxGet 0 (after (exec (.runProgram 0) s))).asked = 2) ∧
    (let s := runState 63 false; endsWith 0 stField (exec (.runProgram 0) s) s = true) ∧
    (let s := ioMod (fun x => { x with started := false }) { runState 64 true with progs := [] }
     runRefusal (ctxGet 0 s) runArgs s = some stField ∧ endsWith 0 stField (exec (.runProgram 0) s) s = true) := by decide +kernel
theorem witness_Runs_fits :
    (let s := fnMod 0 (fun y => { y with lastAdmin := 0 }) (runState 64 true)
     runMustWait 0 runArgs s = false ∧ freeRun s = some 0 ∧ (runGrants (ctxGet 0 s) runArgs s).isSome = true ∧ raMaxTasks runArgs = 1) ∧
    (let s := runState 64 true
     let t := { s with qe := { s.qe with ctxs := s.qe.ctxs ++ [(1, { used := true, sq := 1, sqe := sqe [(0, 0x83)], phase := 1 })] } }
     runMustWait 0 runArgs t = true ∧ (ctxGet 0 (after (exec (.runProgram 0) t))).phase = 1) := by decide +kernel

theorem witness_Runs_gate :
    (let s := fence [pgHam] (runState 64 true)
     endsWith 0 vsFenced (exec (.runProgram 0) s) s = true) ∧
    (let s := ioMod (fun x => { x with phase := 1 }) (runState 64 true)
     runMustWait 0 runArgs s = false ∧
     (fnGet 0 s).hamUse + ((runGrants (ctxGet 0 s) runArgs s).getD []).foldl (fun t g => t + g.2) 0 ≤ (portionOf 0 s).hamper * 4096 ∧
     (runGet 0 (after (exec (.runResourceAcquire 0) s))).used = true) ∧
    (let s := ioMod (fun x => { x with run := some 4 }) (runState 64 true)
     isNext (exec (.runProgram 0) s) = true) := by decide +kernel

/-- Run 4 of F0, started at bolt 0, with one task entry. -/
def liveState (x : Run) : State := { runState 64 true with runs := [(4, { x with used := true, resv := [9000], timeoutBolts := 2 })] }

theorem witness_Runs_live :
    (let s := { liveState { phase := .live } with pick := 512 }
     (runGet 4 s).startBolt + (runGet 4 s).timeoutBolts ≤ boltN s ∧ (after (exec (.runTimeout 4) s)).due = [.killRun 4 vsTrapped 0x80 0] ∧
     goes (exec (.runTimeout 4) { s with pick := 511 }) { s with pick := 511 } = true) ∧
    (let s := { liveState { phase := .live } with tasks := [(9000, { state := .ready })] }
     taskUsable 9000 s = false ∧ goes (exec (.runEnd 4) s) s = true) ∧
    (let s := { liveState { phase := .live } with due := [.killRun 4 vsTrapped 0x80 0] }
     killDue 4 s = true ∧ (ctxGet 0 s).claimed = false ∧ goes (exec (.runEnd 4) s) s = true) ∧
    (let s := liveState { phase := .live }
     runBusy 4 s = false ∧ killDue 4 s = false ∧ (runGet 4 (after (exec (.runEnd 4) s))).used = false) ∧
    (let s := liveState { phase := .live, outs := [{ first := 0, count := 1, space := 0, addr := 0 }] }
     (runGet 4 (after (exec (.runEnd 4) s))).phase = .done) ∧
    (let s := liveState { inputsIn := true }
     running s = true ∧ fenced pgItn s = false ∧ (imgFun 0 0 s).isSome = true) := by decide +kernel

end Sys2Proof.Machine
end

