-- ==== Sys2Proof/Tests/Slice0.lean ====
section
/-!
SUPPORT. Tests and witnesses of the machine as a whole, and the smoke test of `wellFormed`: for each bound of each check a command just
past it, which the check refuses, and the command at the last value, which it admits. The other files of this folder hold the tests of
the command families.
-/
namespace Sys2Proof.Machine

set_option Elab.async false

/-! ### The machine as a whole -/

/-- Two commands wait. -/
def twoWait : State := { State.reset with pending := [.latchClose, .pickBoundary {}] }

theorem witness_StepRunsFront :
    goes (step twoWait) { State.reset with pending := [.pickBoundary {}] } = true ∧ goes (step State.reset) State.reset = true := by
  decide +kernel
theorem witness_ResetContents :
    State.reset.pick = 0 ∧ regGet (0 + 0x004) State.reset = 0x0100 ∧ regGet (0 + 0x034) State.reset = 0xFFFFFFFF ∧
    regGet (pgPty + 0x040) State.reset = 1 ∧ canonical State.reset = true ∧ ordered State.reset = true := by decide +kernel
theorem witness_StepKeepsForm_canonical : canonical twoWait = true ∧ ordered twoWait = true := by decide +kernel
theorem witness_StepKeepsForm_queue : queueWf twoWait = true ∧ (after (step twoWait)).pending.length = 1 := by decide +kernel
/-- The part has met a fatal condition. -/
def deadState : State := { State.reset with boot := { Boot.reset with phase := .fatal } }
theorem witness_PickCounter :
    isNext (exec (.pickBoundary {}) deadState) = true ∧ deadState.boot.phase ≠ .held ∧
    (after (exec .latchClose { rdyState with pick := 7 })).pick = 7 ∧
    (after (exec .porNAssert { rdyState with pick := 7 })).pick = 0 := by decide +kernel
/-- The part is held in power-on reset. -/
def heldPart : State := { State.reset with boot := { Boot.reset with phase := .held } }
theorem witness_PickCounter_held : heldPart.boot.phase = .held ∧ goes (exec (.pickBoundary {}) heldPart) heldPart = true := by
  decide +kernel
theorem witness_CommandsAnswer :
    wellFormed .perstAssert = true ∧ isNext (exec .perstAssert State.reset) = true ∧
    stops (exec (.flr 200) State.reset) .noSuchUnit = true := by decide +kernel
theorem test_decodeTableWord : decodeTableWord 32 5 = none := rfl

/-! ### `wellFormed` -/

/-- Commands just past a bound of a check of `wellFormed`: one for each bound of each check, part 1. -/
theorem test_refuses0 : List.all ([
  .channelTraining 32 0, .supplyMonitorTrip 7, .hdmDecoderCommit 2 0 0 0 false, .hostReadCompletion 16384 0 0 [],
  .uioWriteCompletion 1024 false, .doorbellWrite 128 0 false 0, .ccEnClear 128, .ccEnSet 128 0 0 0 0, .normalShutdown 128,
  .abruptShutdown 128, .flr 128, .busMasterEnableClear 128, .busMasterEnableSet 128, .memorySpaceEnableClear 128,
  .createIoSq 16384, .createIoCq 16384, .deleteIoSq 16384, .deleteIoCq 16384, .getLogPage 16384, .identify 16384, .abort 16384,
  .setFeatures 16384, .getFeatures 16384, .asynchronousEventRequest 16384, .namespaceCreate 16384, .namespaceDelete 16384,
  .namespaceAttachment 16384, .firmwareImageDownload 16384, .firmwareCommitActivate 16384, .firmwareCommitAtReset 16384,
  .deviceSelfTestShort 16384, .deviceSelfTestExtended 16384, .deviceSelfTestAbort 16384, .virtualizationManagement 16384,
  .formatNvm 16384, .sanitize 16384, .read 16384, .write 16384, .flush 16384, .datasetManagement 16384] : List Instr) (fun c => !wellFormed c) = true := by decide
/-- Commands just past a bound of a check of `wellFormed`: one for each bound of each check, part 2. -/
theorem test_refuses1 : List.all ([
  .arm 16384, .lockoutEnd 128, .setPortion 16384, .getPortion 16384, .loadProgram 16384, .partialLoadDiscard 128 15,
  .partialLoadDiscard 127 16, .unloadProgram 16384, .runProgram 16384, .runResourceAcquire 16384, .runEntryTaskCreate 1024,
  .runEnd 1024, .runTimeout 1024, .keyLoad 16384, .keyErase 16384, .partyJoinFound 16384, .partyJoin 16384, .partyLeave 16384,
  .partyStatus 16384, .logSwapStart 16384, .logSwapSwap 16384, .logSwapStop 16384, .dirtyLineWrite 128 0, .fuseRepair 16384,
  .compressWrite 16384, .decompressRead 16384, .scanRead 16384, .digestRead 16384, .spreadWrite 16384, .shardRead 16384,
  .mendRepair 16384, .mendVerify 16384, .mendDrop 16384, .writeClaim 16384, .stagingUnitComplete 16384, .unitProgramStart 512,
  .flashReadDone 0 [] (some 65536), .flashProgramDone 512 false (some 65535), .flashProgramDone 511 false (some 65536),
  .flashEraseDone 0 false 32 (some 65535)] : List Instr) (fun c => !wellFormed c) = true := by decide
/-- Commands just past a bound of a check of `wellFormed`: one for each bound of each check, part 3. -/
theorem test_refuses2 : List.all ([
  .flashEraseDone 0 false 31 (some 65536), .dieReadyTimeout 512 false, .dieRebuild 512, .dieTemperatureRead 512 0,
  .activationPreempt 128, .coalescingWindowEnd 128 2047, .coalescingWindowEnd 127 2048, .heddleCheck 48 2047 0,
  .heddleCheck 47 2048 0, .blockFatalEvent 0xFFF000 0 0, .crossingWatchdogExpiry 5 false, .crossingWatchdogExpiry 49 false,
  .crossingWatchdogExpiry 80 false, .branchNotAnswering 16, .shuttleDescriptor 64 0 [], .shuttleDescriptorEnd 64,
  .linePost 32 0 false 0, .lineRelease 32 0, .twillCompress 8, .twillDecompress 8, .twillVerify 8, .twillJobEnd 16,
  .digestInit 4, .digestUpdate 4 false, .digestFinal 4 false, .digestOneshot 4, .digestCompare 4 false, .digestRelease 4,
  .digestJobEnd 4, .kckGenerate 2, .kckVerify 2, .kckJobEnd 2, .scanJob 8, .scanJobEnd 8, .taskDispatch 128,
  .dependenceDecrement 65536, .taskAgeing 65536, .heartbeat 1024, .silentMark 1024, .suspectSend 1024] : List Instr) (fun c => !wellFormed c) = true := by decide
/-- Commands just past a bound of a check of `wellFormed`: one for each bound of each check, part 4. -/
theorem test_refuses3 : List.all ([
  .lostMemberFree 1024, .messageResend 1024 0, .ackSend 1024, .msgAck 16384, .msgChunkNak 16384, .msgJoinReq 16384,
  .msgJoinNak 16384, .msgEpoch 16384, .msgSyncReq 16384, .msgRosterPart 16384, .msgSuspect 16384, .msgRetract 16384,
  .msgAway 16384, .msgBack 16384, .msgLeave 16384, .msgDepart 16384, .msgCap 16384, .msgSyncHint 16384, .chunkHeaderArrival 896,
  .msgPlan 16384, .msgPlanAck 16384, .msgGrant 16384, .msgChunkOk 16384, .msgHopFail 16384, .msgPlanAbort 16384,
  .msgDigestReq 16384, .msgDigest 16384, .msgStripeSet 16384, .msgStripeDrop 16384, .msgSpreadOpen 16384, .msgRecordReq 16384,
  .msgRecord 16384, .warpArbWeightWrite 8 0, .hamperRegionCfg 4 0, .shuTailAdvance 64 0, .shuStop 64 0, .shuFlush 64 0,
  .shuLineCfgWrite 32 0, .twillTailAdvance 16 0, .twillStop 16 0] : List Instr) (fun c => !wellFormed c) = true := by decide
/-- Commands just past a bound of a check of `wellFormed`: one for each bound of each check, part 5. -/
theorem test_refuses4 : List.all ([
  .twillFlush 16 0, .digTailAdvance 4 0, .digStop 4 0, .digFlush 4 0, .kckTailAdvance 2 0, .kckStop 2 0, .kckFlush 2 0,
  .scnTailAdvance 8 0, .scnStop 8 0, .scnFlush 8 0, .hedGroupCfgWrite 8 0, .hedCompactPack 8, .hedCompactSpread 8,
  .hedGroupClear 8, .killRuns 128 0, .registerWrite 3 127 0 0 0, .registerWrite 2 128 0 0 0, .izNop 128, .izLit8 128 0,
  .izLit16 128 0, .izLit32 128 0, .izLit64 128 0, .izDup 128, .izDrop 128, .izSwap 128, .izOver 128, .izRot 128, .izNip 128,
  .izTuck 128, .izNth 128 30, .izNth 127 31, .izSetn 128 30, .izSetn 127 31, .izDropn 128 32, .izDropn 127 0, .izDropn 127 33,
  .izDup2 128, .izTor 128, .izFromr 128, .izRfetch 128] : List Instr) (fun c => !wellFormed c) = true := by decide
/-- Commands just past a bound of a check of `wellFormed`: one for each bound of each check, part 6. -/
theorem test_refuses5 : List.all ([
  .izDepth 128, .izLitw 128 15, .izLitw 127 16, .izAdd 128, .izSub 128, .izMul 128, .izMulhu 128, .izMulhs 128, .izDivu 128,
  .izRemu 128, .izDivs 128, .izRems 128, .izNeg 128, .izAnd 128, .izOr 128, .izXor 128, .izNot 128, .izShl 128, .izShr 128,
  .izSar 128, .izRol 128, .izRor 128, .izAddi 128 0, .izAddi32 128 0, .izAndi 128 0, .izShli 128 63, .izShli 127 64,
  .izShri 128 63, .izShri 127 64, .izSari 128 63, .izSari 127 64, .izMinu 128, .izMaxu 128, .izMins 128, .izMaxs 128,
  .izSext 128 4, .izSext 127 3, .izSext 127 0, .izSext 127 8, .izZext 128 4] : List Instr) (fun c => !wellFormed c) = true := by decide
/-- Commands just past a bound of a check of `wellFormed`: one for each bound of each check, part 7. -/
theorem test_refuses6 : List.all ([
  .izZext 127 3, .izZext 127 0, .izZext 127 8, .izClz 128, .izCtz 128, .izPopc 128, .izBfx 128 319, .izBfx 127 5, .izBfx 127 575,
  .izBfxs 128 319, .izBfxs 127 5, .izBfxs 127 575, .izBfi 128 319, .izBfi 127 5, .izBfi 127 575, .izBperm 128, .izBswap 128,
  .izBfxv 128, .izBfiv 128, .izBpermi 128 0, .izEq 128, .izNe 128, .izLtu 128, .izLeu 128, .izGtu 128, .izGeu 128, .izLts 128,
  .izLes 128, .izGts 128, .izGes 128, .izEqz 128, .izNez 128, .izSelect 128, .izJmp 128 0, .izJz 128 0, .izJnz 128 0,
  .izJmpl 128 0, .izJzl 128 0, .izJnzl 128 0, .izCall 128 0] : List Instr) (fun c => !wellFormed c) = true := by decide
/-- Commands just past a bound of a check of `wellFormed`: one for each bound of each check, part 8. -/
theorem test_refuses7 : List.all ([
  .izRet 128, .izLoop 128 0, .izTrap 128 0, .izLd8 128, .izLd16 128, .izLd32 128, .izLd64 128, .izLds8 128, .izLds16 128,
  .izLds32 128, .izSt8 128, .izSt16 128, .izSt32 128, .izSt64 128, .izAadd 128, .izCas 128, .izColl 128, .izCopy 128,
  .izFence 128, .izSubmit 128, .izWait 128, .izSpawn 128, .izSignal 128, .izYield 128, .izEnd 128, .izSelf 128, .izPnow 128,
  .izHsrch 128, .izHsrchm 128, .izHnext 128, .izHins 128, .izHdel 128, .izFeat 128 3, .izFeat 127 4, .izCore 128, .izFuncn 128,
  .izWld 128, .izWst 128, .izWld64 128, .izWst64 128] : List Instr) (fun c => !wellFormed c) = true := by decide
/-- Commands just past a bound of a check of `wellFormed`: one for each bound of each check, part 9. -/
theorem test_refuses8 : List.all ([
  .izEvt 128, .izCrc32c 128, .izGfmul 128, .izClmul 128, .izClmulh 128, .railBackInRange 7, .msixVectorUnmask 128 2047,
  .msixVectorUnmask 127 2048] : List Instr) (fun c => !wellFormed c) = true := by decide
/-- Commands at the last value that every check of `wellFormed` admits, part 1. -/
theorem test_admits0 : List.all ([
  .channelTraining 31 0, .supplyMonitorTrip 6, .hdmDecoderCommit 1 0 0 0 false, .hostReadCompletion 16383 0 0 [],
  .uioWriteCompletion 1023 false, .doorbellWrite 127 0 false 0, .ccEnClear 127, .ccEnSet 127 0 0 0 0, .normalShutdown 127,
  .abruptShutdown 127, .flr 127, .busMasterEnableClear 127, .busMasterEnableSet 127, .memorySpaceEnableClear 127,
  .createIoSq 16383, .createIoCq 16383, .deleteIoSq 16383, .deleteIoCq 16383, .getLogPage 16383, .identify 16383, .abort 16383,
  .setFeatures 16383, .getFeatures 16383, .asynchronousEventRequest 16383, .namespaceCreate 16383, .namespaceDelete 16383,
  .namespaceAttachment 16383, .firmwareImageDownload 16383, .firmwareCommitActivate 16383, .firmwareCommitAtReset 16383,
  .deviceSelfTestShort 16383, .deviceSelfTestExtended 16383, .deviceSelfTestAbort 16383, .virtualizationManagement 16383,
  .formatNvm 16383, .sanitize 16383, .read 16383, .write 16383, .flush 16383, .datasetManagement 16383] : List Instr) wellFormed = true := by decide
/-- Commands at the last value that every check of `wellFormed` admits, part 2. -/
theorem test_admits1 : List.all ([
  .arm 16383, .lockoutEnd 127, .setPortion 16383, .getPortion 16383, .loadProgram 16383, .partialLoadDiscard 127 15,
  .unloadProgram 16383, .runProgram 16383, .runResourceAcquire 16383, .runEntryTaskCreate 1023, .runEnd 1023, .runTimeout 1023,
  .keyLoad 16383, .keyErase 16383, .partyJoinFound 16383, .partyJoin 16383, .partyLeave 16383, .partyStatus 16383,
  .logSwapStart 16383, .logSwapSwap 16383, .logSwapStop 16383, .dirtyLineWrite 127 0, .fuseRepair 16383, .compressWrite 16383,
  .decompressRead 16383, .scanRead 16383, .digestRead 16383, .spreadWrite 16383, .shardRead 16383, .mendRepair 16383,
  .mendVerify 16383, .mendDrop 16383, .writeClaim 16383, .stagingUnitComplete 16383, .unitProgramStart 511,
  .flashReadDone 0 [] (some 65535), .flashProgramDone 511 false (some 65535), .flashEraseDone 0 false 31 (some 65535),
  .dieReadyTimeout 511 false, .dieRebuild 511] : List Instr) wellFormed = true := by decide
/-- Commands at the last value that every check of `wellFormed` admits, part 3. -/
theorem test_admits2 : List.all ([
  .dieTemperatureRead 511 0, .activationPreempt 127, .coalescingWindowEnd 127 2047, .heddleCheck 47 2047 0,
  .blockFatalEvent 0x0 0 0, .crossingWatchdogExpiry 79 false, .branchNotAnswering 15, .shuttleDescriptor 63 0 [],
  .shuttleDescriptorEnd 63, .linePost 31 0 false 0, .lineRelease 31 0, .twillCompress 7, .twillDecompress 7, .twillVerify 7,
  .twillJobEnd 15, .digestInit 3, .digestUpdate 3 false, .digestFinal 3 false, .digestOneshot 3, .digestCompare 3 false,
  .digestRelease 3, .digestJobEnd 3, .kckGenerate 1, .kckVerify 1, .kckJobEnd 1, .scanJob 7, .scanJobEnd 7, .taskDispatch 127,
  .dependenceDecrement 65535, .taskAgeing 65535, .heartbeat 1023, .silentMark 1023, .suspectSend 1023, .lostMemberFree 1023,
  .messageResend 1023 0, .ackSend 1023, .msgAck 16383, .msgChunkNak 16383, .msgJoinReq 16383, .msgJoinNak 16383] : List Instr) wellFormed = true := by decide
/-- Commands at the last value that every check of `wellFormed` admits, part 4. -/
theorem test_admits3 : List.all ([
  .msgEpoch 16383, .msgSyncReq 16383, .msgRosterPart 16383, .msgSuspect 16383, .msgRetract 16383, .msgAway 16383, .msgBack 16383,
  .msgLeave 16383, .msgDepart 16383, .msgCap 16383, .msgSyncHint 16383, .chunkHeaderArrival 895, .msgPlan 16383,
  .msgPlanAck 16383, .msgGrant 16383, .msgChunkOk 16383, .msgHopFail 16383, .msgPlanAbort 16383, .msgDigestReq 16383,
  .msgDigest 16383, .msgStripeSet 16383, .msgStripeDrop 16383, .msgSpreadOpen 16383, .msgRecordReq 16383, .msgRecord 16383,
  .warpArbWeightWrite 7 0, .hamperRegionCfg 3 0, .shuTailAdvance 63 0, .shuStop 63 0, .shuFlush 63 0, .shuLineCfgWrite 31 0,
  .twillTailAdvance 15 0, .twillStop 15 0, .twillFlush 15 0, .digTailAdvance 3 0, .digStop 3 0, .digFlush 3 0,
  .kckTailAdvance 1 0, .kckStop 1 0, .kckFlush 1 0] : List Instr) wellFormed = true := by decide
/-- Commands at the last value that every check of `wellFormed` admits, part 5. -/
theorem test_admits4 : List.all ([
  .scnTailAdvance 7 0, .scnStop 7 0, .scnFlush 7 0, .hedGroupCfgWrite 7 0, .hedCompactPack 7, .hedCompactSpread 7,
  .hedGroupClear 7, .killRuns 127 0, .registerWrite 2 127 0 0 0, .izNop 127, .izLit8 127 0, .izLit16 127 0, .izLit32 127 0,
  .izLit64 127 0, .izDup 127, .izDrop 127, .izSwap 127, .izOver 127, .izRot 127, .izNip 127, .izTuck 127, .izNth 127 30,
  .izSetn 127 30, .izDropn 127 32, .izDup2 127, .izTor 127, .izFromr 127, .izRfetch 127, .izDepth 127, .izLitw 127 15,
  .izAdd 127, .izSub 127, .izMul 127, .izMulhu 127, .izMulhs 127, .izDivu 127, .izRemu 127, .izDivs 127, .izRems 127, .izNeg 127] : List Instr) wellFormed = true := by decide
/-- Commands at the last value that every check of `wellFormed` admits, part 6. -/
theorem test_admits5 : List.all ([
  .izAnd 127, .izOr 127, .izXor 127, .izNot 127, .izShl 127, .izShr 127, .izSar 127, .izRol 127, .izRor 127, .izAddi 127 0,
  .izAddi32 127 0, .izAndi 127 0, .izShli 127 63, .izShri 127 63, .izSari 127 63, .izMinu 127, .izMaxu 127, .izMins 127,
  .izMaxs 127, .izSext 127 4, .izZext 127 4, .izClz 127, .izCtz 127, .izPopc 127, .izBfx 127 319, .izBfxs 127 319,
  .izBfi 127 319, .izBperm 127, .izBswap 127, .izBfxv 127, .izBfiv 127, .izBpermi 127 0, .izEq 127, .izNe 127, .izLtu 127,
  .izLeu 127, .izGtu 127, .izGeu 127, .izLts 127, .izLes 127] : List Instr) wellFormed = true := by decide
/-- Commands at the last value that every check of `wellFormed` admits, part 7. -/
theorem test_admits6 : List.all ([
  .izGts 127, .izGes 127, .izEqz 127, .izNez 127, .izSelect 127, .izJmp 127 0, .izJz 127 0, .izJnz 127 0, .izJmpl 127 0,
  .izJzl 127 0, .izJnzl 127 0, .izCall 127 0, .izRet 127, .izLoop 127 0, .izTrap 127 0, .izLd8 127, .izLd16 127, .izLd32 127,
  .izLd64 127, .izLds8 127, .izLds16 127, .izLds32 127, .izSt8 127, .izSt16 127, .izSt32 127, .izSt64 127, .izAadd 127,
  .izCas 127, .izColl 127, .izCopy 127, .izFence 127, .izSubmit 127, .izWait 127, .izSpawn 127, .izSignal 127, .izYield 127,
  .izEnd 127, .izSelf 127, .izPnow 127, .izHsrch 127] : List Instr) wellFormed = true := by decide
/-- Commands at the last value that every check of `wellFormed` admits, part 8. -/
theorem test_admits7 : List.all ([
  .izHsrchm 127, .izHnext 127, .izHins 127, .izHdel 127, .izFeat 127 3, .izCore 127, .izFuncn 127, .izWld 127, .izWst 127,
  .izWld64 127, .izWst64 127, .izEvt 127, .izCrc32c 127, .izGfmul 127, .izClmul 127, .izClmulh 127, .railBackInRange 6,
  .msixVectorUnmask 127 2047] : List Instr) wellFormed = true := by decide

end Sys2Proof.Machine
end

section
/-!
PROOFS. Register pages (O53): what a snapshot captures, what a W1C write clears, and which check decides a Weft access.
-/
namespace Sys2Proof.Machine

variable {s : State} {a n page : Nat} {p : PageId}

/-- The invariant gives the form of every sparse table. -/
theorem Inv.tabs (h : Inv s) : Tabs s := tabs_of h.1 h.2.1

/-! ### Snapshots (R49) -/

/-- The counters of a list of addresses captured in order: the first half of `capture`. -/
def captureEach (l : List Nat) (s : State) : State :=
  l.foldl (fun s a => { s with snaps := tset 0 a (BitVec.ofNat 64 (liveCounter a s)) s.snaps }) s

theorem capture_eq (page : Nat) (s : State) : capture page s =
    regSet (page + 0x058) ((regFld (page + 0x058) 63 32 (captureEach (snapAddrs page) s) + 1) % 2 ^ 32 * 2 ^ 32 +
      pickN s % 2 ^ 32) (captureEach (snapAddrs page) s) := rfl

theorem captureEach_cons (b : Nat) (l : List Nat) (s : State) : captureEach (b :: l) s =
    captureEach l { s with snaps := tset 0 b (BitVec.ofNat 64 (liveCounter b s)) s.snaps } := rfl

theorem captureEach_frame (l : List Nat) (s : State) : captureEach l s = { s with snaps := (captureEach l s).snaps } := by
  induction l generalizing s with
  | nil => rfl
  | cons b l ih => rw [captureEach_cons, ih]

/-- A captured address holds its live counter, even when the list names it twice: capturing moves no live counter. -/
theorem tget_captureEach (l : List Nat) (h : tabWf 0 s.snaps = true) :
    tget 0 (captureEach l s).snaps a = if a ∈ l then BitVec.ofNat 64 (liveCounter a s) else tget 0 s.snaps a := by
  induction l generalizing s with
  | nil => rfl
  | cons b l ih =>
    rw [captureEach_cons, ih (tabWf_tset h)]
    by_cases hl : a ∈ l
    · rw [if_pos hl, if_pos (List.mem_cons_of_mem b hl)]
      rfl
    · rw [if_neg hl]
      by_cases hb : a = b
      · subst hb
        rw [if_pos List.mem_cons_self]
        exact tget_tset_self (tabUp_of_tabWf h)
      · rw [if_neg (by simp [hl, hb])]
        exact tget_tset_ne hb

theorem captureEach_regs (l : List Nat) (s : State) : (captureEach l s).regs = s.regs := by
  rw [captureEach_frame]

theorem capture_snaps (page : Nat) (s : State) : (capture page s).snaps = (captureEach (snapAddrs page) s).snaps := by
  rw [capture_eq, regSet_snaps]

theorem capture_frame (page : Nat) (s : State) :
    capture page s = { s with regs := (capture page s).regs, snaps := (capture page s).snaps } := by
  rw [capture_eq, captureEach_frame]
  rfl

/-- SNAP_SEQ advances by one, modulo 2^32. -/
theorem capture_seq (page : Nat) (h : regsWf s.regs = true) :
    regFld (page + 0x058) 63 32 (capture page s) = (regFld (page + 0x058) 63 32 s + 1) % 2 ^ 32 := by
  have hr := captureEach_regs (snapAddrs page) s
  have hseq : regFld (page + 0x058) 63 32 (captureEach (snapAddrs page) s) = regFld (page + 0x058) 63 32 s := by
    simp only [regFld, regGet, hr]
  rw [capture_eq, hseq, regFld, regGet_regSet_self _ (by rw [hr]; exact h), bits]
  omega

theorem execSnap_of_page (h : pageAt (pageBase page) = some p) : execSnap page s = .next (capture (pageBase page) s) := by
  simp only [execSnap, snapPage, h]

theorem execGlbSnapAll_of_not_due (h : Due.snapAll ∉ s.due) :
    execGlbSnapAll s = .next { s with due := s.due ++ [.snapAll] } := by
  simp [execGlbSnapAll, snapAll, later, h]

theorem execGlbSnapAll_of_due (h : Due.snapAll ∈ s.due) : execGlbSnapAll s = .next s := by
  simp [execGlbSnapAll, snapAll, h]

/-! ### The W1C registers of the header (R40, R41) -/

theorem clearN_lt {a b c : Nat} (h : a < c) : clearN a b < c := Nat.lt_of_le_of_lt (Nat.sub_le a _) h

theorem execErrStatClear_of_page (h : pageAt page = some p) (v : W32) :
    execErrStatClear page v s = .next (errClear (pageBase page) v.toNat s) := by
  simp only [execErrStatClear, h]

theorem execErrStatClear_of_noPage (h : pageAt page = none) (v : W32) :
    execErrStatClear page v s = .next (note 0x0303 pgWeft page s) := by
  simp only [execErrStatClear, h]

theorem execIrqStatClear_of_page (h : pageAt page = some p) (v : W32) :
    execIrqStatClear page v s = .next (irqClear (pageBase page) v.toNat s) := by
  simp only [execIrqStatClear, h]

theorem execIrqStatClear_of_noPage (h : pageAt page = none) (v : W32) :
    execIrqStatClear page v s = .next (note 0x0303 pgWeft page s) := by
  simp only [execIrqStatClear, h]

theorem errClear_frame (page v : Nat) (s : State) : errClear page v s = { s with regs := (errClear page v s).regs } := by
  unfold errClear
  dsimp only
  split <;> rfl

/-- ERR_FIRST lies beside the two registers that `errLive` reads. -/
theorem errLive_regSet_errFirst (page x : Nat) (s : State) : errLive page (regSet (page + 0x020) x s) = errLive page s := by
  rw [errLive, regGet_regSet_ne x (by omega), regGet_regSet_ne x (by omega), ← errLive]

theorem errClear_errStat (page v : Nat) (h : regsWf s.regs = true) :
    regGet (page + 0x018) (errClear page v s) = clearN (regGet (page + 0x018) s) v := by
  have hset : regGet (page + 0x018) (regSet (page + 0x018) (clearN (regGet (page + 0x018) s) v) s) =
      clearN (regGet (page + 0x018) s) v := by
    rw [regGet_regSet_self _ h, Nat.mod_eq_of_lt (clearN_lt (regGet_lt _ s))]
  unfold errClear
  dsimp only
  split
  · rw [regGet_regSet_ne 0 (by omega), hset]
  · exact hset

/-- When no unmasked error is left, ERR_FIRST is clear. -/
theorem errClear_errFirst (page v : Nat) (h : regsWf s.regs = true) (hl : errLive page (errClear page v s) = 0) :
    regGet (page + 0x020) (errClear page v s) = 0 := by
  unfold errClear at hl ⊢
  dsimp only at hl ⊢
  split at hl
  next h0 =>
    rw [if_pos h0]
    exact regGet_regSet_self 0 (regsWf_tset h)
  next h0 => exact absurd hl h0

theorem irqClear_eq (page v : Nat) (s : State) :
    irqClear page v s =
      let t := regSet (page + 0x030) (clearN (regGet (page + 0x030) s) v) s
      if irqLive page t = 0 then t else irqMessage page t := by
  simp only [irqClear, ne_eq, ite_not]

/-! ### The checks of a Weft access in their order (R33, R35, R47, R48) -/

theorem weftLoad_of_noPage (h : pageAt a = none) (n : Nat) (s : State) :
    weftLoad a n s = (0, note 0x0303 pgWeft a s) := by
  simp only [weftLoad, h]

theorem weftStore_of_noPage (h : pageAt a = none) (m : Master) (n v : Nat) (s : State) :
    weftStore m a n v s = note 0x0303 pgWeft a s := by
  simp only [weftStore, h]

/-- BAR2 writes no protected page and no register of the firmware alone, whatever the shape of the access. -/
theorem weftStore_bar2_of_protected (h : pageAt a = some p) (hp : writeProt p a s = true ∨ fwOnly a = true) (n v : Nat) :
    weftStore .bar2 a n v s = note 0x0305 pgWeft a s := by
  simp [weftStore, h, hp]

theorem weftStore_core_of_badShape (h : pageAt a = some p) (hb : badShape a n = true) (v : Nat) (s : State) :
    weftStore .core a n v s = note 0x0304 pgWeft a s := by
  simp [weftStore, h, hb]

/-- A write of the core with a good shape meets one check more, whether the branch of its page answers. -/
theorem weftStore_core_of_goodShape (h : pageAt a = some p) (hb : badShape a n = false) (v : Nat) (s : State) :
    weftStore .core a n v s = if branchUp p s then storeWords .core a n v s else regAdd32 (pgWeft + 0x110) 1 s := by
  cases hu : branchUp p s <;> simp [weftStore, h, hb, hu, pfOnly, accTimeout]

theorem pageAt_type_ne_zero (h : pageAt a = some p) : p.type ≠ 0 := by
  have hrows : ∀ r ∈ pageRows, r.type ≠ 0 := by decide
  obtain ⟨r, hr, rfl⟩ := Option.map_eq_some_iff.mp h
  have ht := hrows r (List.mem_of_find?_eq_some hr)
  dsimp only
  split <;> exact ht

/-! ### Who writes: REGISTER_WRITE by its master -/

theorem execRegisterWrite_core (ha : a < 2 ^ 24) (hr : running s = true) (f n : Nat) (v : W64) :
    execRegisterWrite 0 f a n v s = .next (weftStore .core a n v.toNat s) := by
  simp only [execRegisterWrite, Nat.mod_eq_of_lt ha, hr, if_true]

theorem execRegisterWrite_bar2 (ha : a < 2 ^ 24) (hb : bar0 0 s = true) (f n : Nat) (v : W64) :
    execRegisterWrite 1 f a n v s = .next (weftStore .bar2 a n v.toNat s) := by
  simp only [execRegisterWrite, Nat.mod_eq_of_lt ha, hb, if_true]

theorem execRegisterWrite_bar2_silent (hb : bar0 0 s = false) (f a n : Nat) (v : W64) :
    execRegisterWrite 1 f a n v s = .next s := by
  simp [execRegisterWrite, hb]

theorem execRegisterWrite_bar0_silent {f : Nat} (hf : f < 128) (hb : bar0 f s = false) (a n : Nat) (v : W64) :
    execRegisterWrite 2 f a n v s = .next s := by
  simp [execRegisterWrite, hf, hb]

theorem execRegisterWrite_noSuchMaster {m : Nat} (hm : 3 ≤ m) (f a n : Nat) (v : W64) (s : State) :
    execRegisterWrite m f a n v s = .fault .noSuchUnit := by
  obtain ⟨k, rfl⟩ := Nat.exists_eq_add_of_le' hm
  rfl

/-! ### A write that passes every check: `GLB_SCRATCH` (R51) -/

/-- The array of the four scratch registers. -/
def scratchReg : Reg := { off := 0x140, rw := 0xFFFFFFFF, por := true, stride := 4, count := 4 }

/-- The four numbers of the array, for the proofs that evaluate the register map at each. -/
theorem scratch_cases {i : Nat} (hi : i < 4) : i = 0 ∨ i = 1 ∨ i = 2 ∨ i = 3 := by omega

theorem regAt_scratch {i : Nat} (hi : i < 4) : regAt (pgGlb + 0x140 + 4 * i) = some scratchReg := by
  obtain rfl | rfl | rfl | rfl := scratch_cases hi <;> rfl

theorem pageAt_scratch {i : Nat} (hi : i < 4) : pageAt (pgGlb + 0x140 + 4 * i) = some ⟨0x01, 0, 0⟩ := by
  obtain rfl | rfl | rfl | rfl := scratch_cases hi <;> rfl

theorem setBits_low_mod (old v : Nat) : setBits old 31 0 v % 2 ^ 32 = v % 2 ^ 32 := by
  simp only [setBits, bits]
  omega

theorem andN_ones (x : Nat) : andN x 0xFFFFFFFF = x % 2 ^ 32 := Nat.and_two_pow_sub_one_eq_mod x 32

theorem clearN_ones (x : Nat) : clearN x 0xFFFFFFFF = x - x % 2 ^ 32 :=
  congrArg (x - ·) (Nat.and_two_pow_sub_one_eq_mod x 32)

/-- A 32-bit write to a register whose whole low word is RW without ranges replaces that word. -/
theorem plainWrite_word {r : Reg} (hr : regAt a = some r) (hc : r.w1c = 0) (hw : r.rw = 0xFFFFFFFF) (hg : r.ranges = [])
    (v : Nat) (s : State) :
    plainWrite a 31 0 v s = regSet a (regGet a s - regGet a s % 2 ^ 32 + v % 2 ^ 32) s := by
  have hm : mergeRw a 31 0 v s = (regGet a s - regGet a s % 2 ^ 32 + v % 2 ^ 32, s) := by
    simp only [mergeRw, hr, hw, hg, List.filter_nil, List.foldl_nil, List.isEmpty_nil, if_true, andN_ones, clearN_ones,
      setBits_low_mod]
  simp [plainWrite, hr, hc, hw, hm]

theorem wordWrite_of_regAt {r : Reg} (hr : regAt a = some r) (v : Nat) (s : State) :
    wordWrite a v s = regWrite a 31 0 v s := by
  simp only [wordWrite, hr]

theorem storeWords_core_word {r : Reg} (hr : regAt a = some r) (v : Nat) (s : State) :
    storeWords .core a 4 v s = regWrite a 31 0 (v % 2 ^ 32) s := by
  simp [storeWords, wordWrite_of_regAt hr]

theorem badShape_scratch {i : Nat} (hi : i < 4) : badShape (pgGlb + 0x140 + 4 * i) 4 = false := by
  obtain rfl | rfl | rfl | rfl := scratch_cases hi <;> rfl

/-- A write of a scratch register has no effect but its value. -/
theorem blockWrite_scratch {i : Nat} (hi : i < 4) (v : Nat) (s : State) :
    blockWrite ⟨0x01, 0, 0⟩ (0x140 + 4 * i) v s = none := by
  obtain rfl | rfl | rfl | rfl := scratch_cases hi <;> rfl

theorem regWrite_scratch {i : Nat} (hi : i < 4) (hf : fenced pgGlb s = false) (v : Nat) :
    regWrite (pgGlb + 0x140 + 4 * i) 31 0 v s = plainWrite (pgGlb + 0x140 + 4 * i) 31 0 v s := by
  have hb : pageBase (pgGlb + 0x140 + 4 * i) = pgGlb := by
    simp only [pageBase, pgGlb]
    omega
  have ho : pgGlb + 0x140 + 4 * i - pgGlb = 0x140 + 4 * i := by omega
  have hblock : ¬ 0x140 + 4 * i < 0x100 := by omega
  simp [regWrite, pageAt_scratch hi, regAt_scratch hi, hb, ho, hf, blockWrite_scratch hi, hblock]

/-- The core's word reaches its scratch register. -/
theorem weftStore_core_scratch {i : Nat} (hi : i < 4) (hf : fenced pgGlb s = false) (v : Nat) :
    weftStore .core (pgGlb + 0x140 + 4 * i) 4 v s = regSet (pgGlb + 0x140 + 4 * i)
      (regGet (pgGlb + 0x140 + 4 * i) s - regGet (pgGlb + 0x140 + 4 * i) s % 2 ^ 32 + v % 2 ^ 32) s := by
  have hu : branchUp ⟨0x01, 0, 0⟩ s = true := rfl
  rw [weftStore_core_of_goodShape (pageAt_scratch hi) (badShape_scratch hi), if_pos hu, storeWords_core_word (regAt_scratch hi),
    regWrite_scratch hi hf, plainWrite_word (regAt_scratch hi) rfl rfl rfl, Nat.mod_mod]

/-- A write of the low word reads back in the low word. -/
theorem regGet_regSet_word (v : Nat) (h : regsWf s.regs = true) :
    regGet a (regSet a (regGet a s - regGet a s % 2 ^ 32 + v % 2 ^ 32) s) % 2 ^ 32 = v % 2 ^ 32 := by
  rw [regGet_regSet_self _ h]
  omega

end Sys2Proof.Machine
end

section
/-!
PROOFS. The obligation of the register pages (O53), one lemma for each of its parts.
-/
namespace Sys2Proof.Machine

theorem execSnap_captures {s : State} {page : Nat} {p : PageId} (hs : Inv s) (hp : pageAt (pageBase page) = some p) :
    ∃ u, exec (.snap page) s = .next u ∧
      regFld (pageBase page + 0x058) 63 32 u = (regFld (pageBase page + 0x058) 63 32 s + 1) % 2 ^ 32 ∧
      u = { s with regs := u.regs, snaps := u.snaps } ∧
      (∀ a ∈ snapAddrs (pageBase page), tget 0 u.snaps a = BitVec.ofNat 64 (liveCounter a s)) ∧
      (∀ a, a ∉ snapAddrs (pageBase page) → tget 0 u.snaps a = tget 0 s.snaps a) := by
  refine ⟨capture (pageBase page) s, execSnap_of_page hp, capture_seq _ hs.tabs.regs, capture_frame _ s,
    fun a ha => ?_, fun a ha => ?_⟩
  · rw [capture_snaps, tget_captureEach _ hs.tabs.snaps, if_pos ha]
  · rw [capture_snaps, tget_captureEach _ hs.tabs.snaps, if_neg ha]

theorem execErrStatClear_clears {s : State} {page : Nat} (hs : Inv s) (hp : (pageAt page).isSome = true) (v : W32) :
    ∃ u, exec (.errStatClear page v) s = .next u ∧ u = { s with regs := u.regs } ∧
      regGet (pageBase page + 0x018) u = clearN (regGet (pageBase page + 0x018) s) v.toNat ∧
      (errLive (pageBase page) u = 0 → regGet (pageBase page + 0x020) u = 0) := by
  obtain ⟨p, hp⟩ := Option.isSome_iff_exists.mp hp
  exact ⟨_, execErrStatClear_of_page hp v, errClear_frame _ _ s, errClear_errStat _ _ hs.tabs.regs,
    errClear_errFirst _ _ hs.tabs.regs⟩

theorem execIrqStatClear_clears {s : State} {page : Nat} (hp : (pageAt page).isSome = true) (v : W32) :
    let b := pageBase page
    let t := regSet (b + 0x030) (clearN (regGet (b + 0x030) s) v.toNat) s
    exec (.irqStatClear page v) s = .next (if irqLive b t = 0 then t else irqMessage b t) := by
  obtain ⟨p, hp⟩ := Option.isSome_iff_exists.mp hp
  rw [exec_irqStatClear, execIrqStatClear_of_page hp, irqClear_eq]

theorem execWeftSkewClr_clears {s : State} {v : W32} (h : bit v.toNat 0 = true) :
    exec (.weftSkewClr v) s = .next (regSet (pgWeft + 0x104) 0 s) := by
  simp only [exec_weftSkewClr, execWeftSkewClr, skewClear, h, if_true]

theorem execWeftSkewClr_keeps {s : State} {v : W32} (h : bit v.toNat 0 = false) : exec (.weftSkewClr v) s = .next s := by
  simp [execWeftSkewClr, skewClear, h]

theorem execWarpArbWeightWrite_writes {o : Nat} (ho : o < 8) (v : W32) (s : State) :
    exec (.warpArbWeightWrite o v) s = .next (regSet (pgWarp + 0x100 + 4 * o) (v.toNat % 2 ^ 32) s) := if_pos ho

theorem registerWrite_scratch {s : State} {i f : Nat} (hs : Inv s) (hi : i < 4) (hr : running s = true)
    (hf : fenced pgGlb s = false) (v : W64) :
    ∃ u, exec (.registerWrite 0 f (pgGlb + 0x140 + 4 * i) 4 v) s = .next u ∧ u = { s with regs := u.regs } ∧
      regGet (pgGlb + 0x140 + 4 * i) u % 2 ^ 32 = v.toNat % 2 ^ 32 ∧
      (∀ b, b ≠ pgGlb + 0x140 + 4 * i → regGet b u = regGet b s) := by
  have ha : pgGlb + 0x140 + 4 * i < 2 ^ 24 := by
    simp only [pgGlb]
    omega
  refine ⟨_, ?_, rfl, regGet_regSet_word v.toNat hs.tabs.regs, fun b hb => regGet_regSet_ne _ hb⟩
  rw [exec_registerWrite, execRegisterWrite_core ha hr, weftStore_core_scratch hi hf]

/-- Settles O53: every part is the rule of one register operation above. Which check of a Weft write decides follows the order of
`weftStore` (log entry 102), with firmware-only registers (103) and a branch that does not answer among them. -/
theorem registers : Obligations.Registers := by
  unfold Obligations.Registers
  intro s hs
  refine ⟨fun _ _ hp => execSnap_captures hs hp, execGlbSnapAll_of_not_due, execGlbSnapAll_of_due,
    fun _ v hp => ⟨execErrStatClear_clears hs hp v, execIrqStatClear_clears hp v⟩,
    fun _ v hp => ⟨execErrStatClear_of_noPage hp v, execIrqStatClear_of_noPage hp v⟩,
    fun v => ⟨execWeftSkewClr_clears, execWeftSkewClr_keeps, fun _ ho => execWarpArbWeightWrite_writes ho v s, rfl⟩,
    fun v f a n ha => ⟨fun hp => ⟨weftLoad_of_noPage hp n s, fun hr => ?coreNoPage, fun hb => ?bar2NoPage⟩, fun _ => pageAt_type_ne_zero,
      fun p hb hp hw => ?bar2Protected, fun p hr hp hb => ?coreBadShape, fun p hr hp hb hu => ?coreBranchDown,
      fun _ hi hr hf => registerWrite_scratch hs hi hr hf v, fun hb => execRegisterWrite_bar2_silent hb f a n v,
      fun hf hb => execRegisterWrite_bar0_silent hf hb a n v, fun _ hm => execRegisterWrite_noSuchMaster hm f a n v s⟩⟩
  case coreNoPage => rw [exec_registerWrite, execRegisterWrite_core ha hr, weftStore_of_noPage hp]
  case bar2NoPage => rw [exec_registerWrite, execRegisterWrite_bar2 ha hb, weftStore_of_noPage hp]
  case bar2Protected => rw [exec_registerWrite, execRegisterWrite_bar2 ha hb, weftStore_bar2_of_protected hp hw]
  case coreBadShape => rw [exec_registerWrite, execRegisterWrite_core ha hr, weftStore_core_of_badShape hp hb]
  case coreBranchDown =>
    rw [exec_registerWrite, execRegisterWrite_core ha hr, weftStore_core_of_goodShape hp hb, hu]
    rfl

end Sys2Proof.Machine
end

section
/-!
PROOFS. The boot state under the part's own work at a reset (O10): squashed commands, ended jobs and drained journal words leave it as
it is. None of the events on the way is device-fatal, the one way in which an event could reach it.
-/
namespace Sys2Proof.Machine

variable {s t u : State}

/-! ### Shared operations -/

@[simp] theorem ite_boot {c : Prop} [Decidable c] : (if c then t else u).boot = if c then t.boot else u.boot := apply_ite State.boot c t u

@[simp] theorem foldl_boot {α : Type} {g : State → α → State} {l : List α} (hg : ∀ s x, (g s x).boot = s.boot) :
    (l.foldl g s).boot = s.boot := by
  induction l generalizing s with
  | nil => rfl
  | cons x l ih => exact (ih (s := g s x)).trans (hg s x)

@[simp] theorem iter_boot {n : Nat} {g : Nat → State → State} (hg : ∀ i s, (g i s).boot = s.boot) :
    (iter n g s).boot = s.boot := foldl_boot fun s i => hg i s

@[simp] theorem regAdd_boot (a n : Nat) (s : State) : (regAdd a n s).boot = s.boot := (regAdd_quiet ..).boot
@[simp] theorem regSetFld_boot (a hi lo v : Nat) (s : State) : (regSetFld a hi lo v s).boot = s.boot := (regSetFld_quiet ..).boot
@[simp] theorem fnMod_boot (f : Nat) (g : Fn → Fn) (s : State) : (fnMod f g s).boot = s.boot := (fnMod_quiet ..).boot
@[simp] theorem taskMod_boot (k : Nat) (g : Task → Task) (s : State) : (taskMod k g s).boot = s.boot := (taskMod_quiet ..).boot
@[simp] theorem ctxMod_boot (c : Nat) (g : Ctx → Ctx) (s : State) : (ctxMod c g s).boot = s.boot := rfl
@[simp] theorem slotMod_boot (k : Nat) (g : Slot → Slot) (s : State) : (slotMod k g s).boot = s.boot := rfl
@[simp] theorem note_boot (code page detail : Nat) (s : State) : (note code page detail s).boot = s.boot := (note_quiet ..).boot
@[simp] theorem irqCause_boot (page mask : Nat) (s : State) : (irqCause page mask s).boot = s.boot := (irqCause_quiet ..).boot
@[simp] theorem decTask_boot (k : Nat) (s : State) : (decTask k s).boot = s.boot := (decTask_quiet ..).boot

theorem raise_boot {code : Nat} (h : deviceFatal code = false) (page detail : Nat) (s : State) :
    (raise code page detail s).boot = s.boot := (raise_quiet h ..).boot

/-! ### The Hamper and the DRAM -/

@[simp] theorem ueRow_boot (bank row : Nat) (s : State) : (ueRow bank row s).boot = s.boot := by
  unfold ueRow
  extract_lets rows k rows' s1
  split
  · exact raise_boot (code := 0x1003) (by decide) ..
  · rfl

@[simp] theorem candidate_boot (bank row : Nat) (ue : Bool) (s : State) : (candidate bank row ue s).boot = s.boot := by
  unfold candidate
  extract_lets l
  split
  · rfl
  · exact note_boot ..

@[simp] theorem hamWordMet_boot (m w : Nat) (s : State) : (hamWordMet m w s).boot = s.boot := by
  unfold hamWordMet
  split
  · rfl
  · rw [regAdd_boot]
  · rw [ueRow_boot, candidate_boot, raise_boot (code := 0x1001) (by decide), regSet_boot, regAdd_boot]

@[simp] theorem hamMet_boot (b : HamBy) (off n : Nat) (s : State) : (hamMet b off n s).boot = s.boot :=
  foldl_boot fun s w => hamWordMet_boot b.master w s

@[simp] theorem hamMerge_boot (m w : Nat) (s : State) : (hamMerge m w s).boot = s.boot := hamWordMet_boot m w s

@[simp] theorem hamPut_boot (m off : Nat) (bs : Bytes) (poison : Bool) (s : State) : (hamPut m off bs poison s).boot = s.boot := by
  simp [hamPut]

@[simp] theorem hamCollide_boot (b c : HamBy) (w : Nat) (s : State) : (hamCollide b c w s).boot = s.boot := by
  unfold hamCollide
  extract_lets s1
  have h1 : s1.boot = s.boot := by rw [regSet_boot, regAdd_boot]
  split
  · exact (note_boot ..).trans h1
  · exact h1

@[simp] theorem hamWordWrite_boot (b : HamBy) (off : Nat) (bs : Bytes) (poison : Bool) (w : Nat) (s : State) :
    (hamWordWrite b off bs poison w s).boot = s.boot := by
  unfold hamWordWrite
  split <;> simp

@[simp] theorem hamWrite_boot (b : HamBy) (off : Nat) (bs : Bytes) (poison : Bool) (s : State) :
    (hamWrite b off bs poison s).boot = s.boot := by
  simp [hamWrite]

@[simp] theorem dramPutBytes_boot (a : Nat) (bs : Bytes) (s : State) : (dramPutBytes a bs s).boot = s.boot := by
  simp [dramPutBytes, dramPutByte]

@[simp] theorem dramWordMet_boot (w : Nat) (s : State) : (dramWordMet w s).boot = s.boot := by
  dsimp only [dramWordMet]
  split
  · rfl
  · rw [regAdd_boot, regAdd_boot]
  · rw [raise_boot (code := 0x1102) (by decide), regSet_boot, regAdd_boot, regAdd_boot]

@[simp] theorem dramMerge_boot (w : Nat) (s : State) : (dramMerge w s).boot = s.boot := by
  simp [dramMerge]

@[simp] theorem dramWrite_boot (a : Nat) (bs : Bytes) (poison : Bool) (s : State) : (dramWrite a bs poison s).boot = s.boot := by
  simp [dramWrite]

/-- A write that memory does not take leaves the state that was there. -/
@[simp] theorem memWrite_getD_boot (b : HamBy) (space off : Nat) (bs : Bytes) (poison : Bool) (s : State) :
    ((memWrite b space off bs poison s).getD s).boot = s.boot := by
  unfold memWrite
  repeat' split
  all_goals simp

@[simp] theorem copyBack_boot (p : Nat) (b : Option Back) (bs : Bytes) (s : State) : (copyBack p b bs s).boot = s.boot := by
  unfold copyBack
  split <;> simp

@[simp] theorem unref_boot (k : Nat) (b : Option Back) (s : State) : (unref k b s).boot = s.boot := by
  unfold unref
  split <;> simp

/-! ### Shuttles and engines -/

@[simp] theorem shuMod_boot (k : Nat) (g : Shuttle → Shuttle) (s : State) : (shuMod k g s).boot = s.boot := rfl
@[simp] theorem engMod_boot (a : Nat) (g : Engine → Engine) (s : State) : (engMod a g s).boot = s.boot := rfl
@[simp] theorem shuStop_boot (k : Nat) (j : ShuJob) (code : Nat) (s : State) : (shuStop k j code s).boot = s.boot := rfl
@[simp] theorem engStop_boot (a : Nat) (j : EngJob) (code : Nat) (res : Bytes) (s : State) : (engStop a j code res s).boot = s.boot := rfl

theorem tryDec_boot {k : Nat} (h : tryDec k s = some t) : t.boot = s.boot := (tryDec_quiet h).boot

@[simp] theorem shuEnd_boot (k : Nat) (j : ShuJob) (code : Nat) (s : State) : (shuEnd k j code s).boot = s.boot := by
  unfold shuEnd
  extract_lets d tagStatus s1 s2 s3 s4 named s5 s6
  have h4 : s4.boot = s.boot := by simp [s4, s3, s2, s1]
  have h5 : s5.boot = s.boot := by simp [s5, h4]
  have h6 : s6.boot = s.boot := by
    dsimp only [s6]
    split
    · split
      next t h => exact (tryDec_boot h).trans h5
      next => exact h5
    · exact h5
  simp [h6]

@[simp] theorem shuSkip_boot (k fuel : Nat) (s : State) : (shuSkip k fuel s).boot = s.boot := by
  induction fuel generalizing s with
  | zero => rfl
  | succ fuel ih => simp [shuSkip, ih]

@[simp] theorem shuDrain_boot (k code : Nat) (p : Option Back → Nat → Bool) (fuel h : Nat) (s : State) :
    (shuDrain k code p fuel h s).boot = s.boot := by
  induction fuel generalizing h s with
  | zero => rfl
  | succ fuel ih => simp [shuDrain, ih]

@[simp] theorem shuCut_boot (k code : Nat) (p : Option Back → Nat → Bool) (s : State) : (shuCut k code p s).boot = s.boot := by
  unfold shuCut
  split <;> simp

@[simp] theorem shuSquash_boot (k code : Nat) (p : Option Back → Nat → Bool) (s : State) : (shuSquash k code p s).boot = s.boot := by
  simp [shuSquash]

@[simp] theorem endEvent_boot (a code index : Nat) (s : State) : (endEvent a code index s).boot = s.boot := by
  simp [endEvent]

@[simp] theorem engEnd_boot (a : Nat) (j : EngJob) (code : Nat) (res : Bytes) (s : State) : (engEnd a j code res s).boot = s.boot := by
  unfold engEnd
  extract_lets page d tail paddedTail s1 s2 s3 detail err s4 s5 s6 s7 causes
  have h4 : s4.boot = s.boot := by simp [s4, s3, s2, s1]
  have h5 : s5.boot = s.boot := by
    dsimp only [s5]
    split <;> simp [digRelease, h4]
  simp [s7, s6, h5]

@[simp] theorem engCut_boot (a code : Nat) (p : Option Back → Nat → Bool) (s : State) : (engCut a code p s).boot = s.boot := by
  simp [engCut]

@[simp] theorem engSkip_boot (a fuel : Nat) (s : State) : (engSkip a fuel s).boot = s.boot := by
  induction fuel generalizing s with
  | zero => rfl
  | succ fuel ih => simp [engSkip, ih]

@[simp] theorem engDrain_boot (a code : Nat) (p : Option Back → Nat → Bool) (fuel h : Nat) (s : State) :
    (engDrain a code p fuel h s).boot = s.boot := by
  induction fuel generalizing h s with
  | zero => rfl
  | succ fuel ih =>
    unfold engDrain
    dsimp only
    split
    · rfl
    · split
      · rw [ite_boot, ih, engEnd_boot, engSet_boot, ih, hamMet_boot, ite_self]
      · rw [ite_boot, ih, engEnd_boot, engSet_boot, ih, hamMet_boot, ite_self]

@[simp] theorem engSquash_boot (a code : Nat) (p : Option Back → Nat → Bool) (s : State) : (engSquash a code p s).boot = s.boot := by
  simp [engSquash]

@[simp] theorem lineFree_boot (l : Nat) (s : State) : (lineFree l s).boot = s.boot := by
  unfold lineFree
  extract_lets s1 bound s2
  have h2 : s2.boot = s.boot := foldl_boot (s := s1) fun s k => by split <;> simp
  rw [foldl_boot fun s a => foldl_boot fun s j => engStop_boot a j 0x0A (noResult 0) s]
  exact h2

/-! ### The journal -/

@[simp] theorem saveViews_boot (i seq : Nat) (s : State) : (saveViews i seq s).boot = s.boot := rfl
@[simp] theorem segCount_boot (g n : Nat) (s : State) : (segCount g n s).boot = s.boot := rfl
@[simp] theorem ctlDirty_boot (field index : Nat) (s : State) : (ctlDirty field index s).boot = s.boot := rfl
@[simp] theorem slotSweep_boot (s : State) : (slotSweep s).boot = s.boot := rfl
@[simp] theorem slotDrop_boot (c : Nat) (s : State) : (slotDrop c s).boot = s.boot := rfl

@[simp] theorem mapPut_boot (i : Nat) (e : BitVec 40) (s : State) : (mapPut i e s).boot = s.boot := by
  unfold mapPut
  dsimp only
  split <;> simp

@[simp] theorem mapUpdate_boot (i : Nat) (e : BitVec 40) (seq : Nat) (s : State) : (mapUpdate i e seq s).boot = s.boot := by
  simp [mapUpdate]

@[simp] theorem ringCheck_boot (s : State) : (ringCheck s).boot = s.boot := by
  simp [ringCheck]

@[simp] theorem jIssue_boot (recs : List (BitVec 128)) (acts : List JAct) (s : State) : (jIssue recs acts s).boot = s.boot := by
  unfold jIssue
  rw [ringCheck_boot, regAdd_boot]

@[simp] theorem jIssueAll_boot (l : List (BitVec 128 × List JAct)) (s : State) : (jIssueAll l s).boot = s.boot := by
  induction l, s using jIssueAll.induct with
  | case1 s => rfl
  | case2 s a => exact jIssue_boot ..
  | case3 s a b l ih => rw [jIssueAll, ih, jIssue_boot]

@[simp] theorem windowMet_boot (n : Nat) (s : State) : (windowMet n s).boot = s.boot := by
  simp [windowMet]

@[simp] theorem jFlush_boot (s : State) : (jFlush s).boot = s.boot := by
  simp [jFlush]

@[simp] theorem jWindow_boot (r : BitVec 128) (acts : List JAct) (s : State) : (jWindow r acts s).boot = s.boot := by
  simp [jWindow]

@[simp] theorem applyDiscs_boot (l : List Disc) (s : State) : (applyDiscs l s).boot = s.boot := by
  induction l generalizing s with
  | nil => rfl
  | cons d l ih => simp [applyDiscs, ih]

@[simp] theorem discSweep_boot (s : State) : (discSweep s).boot = s.boot := applyDiscs_boot _ s

/-! ### Commands and runs that end -/

theorem Posted.boot (h : Posted s t) : t.boot = s.boot :=
  Quiet.boot (s := { s with jnl := { s.jnl with slots := t.jnl.slots } }) h

@[simp] theorem ctxFree_boot (c : Nat) (s : State) : (ctxFree c s).boot = s.boot := rfl

@[simp] theorem finishDw_boot (c : Nat) (st : Status) (a b : Nat) (s : State) : (finishDw c st a b s).boot = s.boot := by
  obtain ⟨-, h⟩ | ⟨-, h⟩ := finishDw_frame c st a b s
  · rw [h]
  · exact h.boot

@[simp] theorem finish_boot (c : Nat) (st : Status) (s : State) : (finish c st s).boot = s.boot := finishDw_boot ..

@[simp] theorem squash_boot (c : Nat) (s : State) : (squash c s).boot = s.boot := by
  unfold squash
  rw [discSweep_boot, slotSweep_boot, regAdd_boot, ctxFree_boot, slotDrop_boot]

@[simp] theorem evict_boot (k : Nat) (s : State) : (evict k s).boot = s.boot := by
  simp [evict, unlist]

@[simp] theorem runRelease_boot (r : Nat) (s : State) : (runRelease r s).boot = s.boot := by
  simp [runRelease]

@[simp] theorem runKill_boot (r : Nat) (e : Option (Status × W32 × W32)) (s : State) : (runKill r e s).boot = s.boot := by
  unfold runKill
  extract_lets q s1 s2 s3 s4
  have h4 : s4.boot = s.boot := by simp [s4, s3, s2, s1]
  split
  · rfl
  · split <;> simp [h4]

/-! ### Durable words -/

@[simp] theorem jAct_boot (a : JAct) (s : State) : (jAct a s).boot = s.boot := by
  cases a with
  | freeSlot k => simp [jAct]
  | commit c txid nsid seq last => simp [jAct]
  | ckpt g start pua => rw [jAct, ringCheck_boot, regAdd_boot, ctlDirty_boot]
  | counter c f o v => rfl
  | dropSlot k => rfl

@[simp] theorem jDurable_boot (s : State) : (jDurable s).boot = s.boot := by
  unfold jDurable
  split
  · rfl
  · simp

@[simp] theorem jDrain_boot (s : State) : (jDrain s).boot = s.boot := iter_boot fun _ s => jDurable_boot s

/-! ### Functions reset -/

@[simp] theorem selfTestStop_boot (result : Nat) (s : State) : (selfTestStop result s).boot = s.boot := by
  simp [selfTestStop]

@[simp] theorem cplDrop_boot (f : Nat) (s : State) : (cplDrop f s).boot = s.boot := by
  unfold cplDrop
  extract_lets n
  split
  · rfl
  · rw [regAdd_boot, fnMod_boot]

@[simp] theorem fnStop_boot (f : Nat) (st : Option Status) (s : State) : (fnStop f st s).boot = s.boot := by
  unfold fnStop
  extract_lets kept own runs s1 s2 s3 s4
  have h3 : s3.boot = s.boot := by simp [s3, s2, s1]
  have h4 : s4.boot = s.boot := by
    cases st <;> simp [s4, h3]
  simp [digReleaseAll, h4]

@[simp] theorem ctlClear_boot (f shst : Nat) (s : State) : (ctlClear f shst s).boot = s.boot := by
  simp [ctlClear]

@[simp] theorem unloadAll_boot (f : Nat) (s : State) : (unloadAll f s).boot = s.boot := foldl_boot fun _ _ => rfl

@[simp] theorem fnReset_boot (f : Nat) (s : State) : (fnReset f s).boot = s.boot := by
  unfold fnReset
  extract_lets s1 s2
  have h1 : s1.boot = s.boot := by rw [unloadAll_boot, fnStop_boot]
  have h2 : s2.boot = s.boot := by rw [ite_boot, regSet_boot, ite_self, h1]
  rw [ctlClear_boot, fnMod_boot, h2]

@[simp] theorem dlogEndAll_boot (s : State) : (dlogEndAll s).boot = s.boot := foldl_boot fun _ _ => fnMod_boot ..

@[simp] theorem fnsReset_boot (s : State) : (fnsReset s).boot = s.boot := by
  simp [fnsReset]

/-- What a reset does to work in flight is not device-fatal, and it leaves the boot area as it is. -/
@[simp] theorem resetDrain_boot (fatal : Bool) (s : State) : (resetDrain fatal s).boot = s.boot := by
  simp [resetDrain]

end Sys2Proof.Machine
end

section
/-!
PROOFS. The resets of the running part (O10): what a device, PERST_FULL, boot-watchdog or fatal reset leaves, when one acts, and what
asks for one.
-/
namespace Sys2Proof.Machine

variable {s u : State}

/-! ### What a reset leaves (R475, R507) -/

/-- What the part holds when a reset of the running part has acted on `s`. -/
def ResetClears (s u : State) : Prop :=
  u.boot.phase = .rom ∧ u.boot.holdUntil = pickN s + 64 ∧ u.pick = s.pick ∧ u.pending = s.pending ∧
    u.runs = [] ∧ u.shus = [] ∧ u.lines = [] ∧ u.engs = [] ∧ u.keys = [] ∧ u.progs = [] ∧ u.boot.slots = s.boot.slots

/-- `ResetClears` speaks of no field that an event or a register reaches. -/
theorem ResetClears.quiet {t : State} (h : ResetClears s t) (q : Quiet t u) : ResetClears s u := by
  unfold ResetClears
  rw [q.boot, q.pick, q.pending, q.runs, q.shus, q.lines, q.engs, q.keys, q.progs]
  exact h

theorem extDis_quiet (s : State) : Quiet s (extDis s) := quiet_ite (quiet_foldl fun s _ => regSetFld_quiet _ 3 3 0 s) .refl

/-- The registers that a reset writes after it has cleared the part, and the events of its end. -/
theorem resetRegs_quiet (cause slot at_ kind : Nat) (wasUp fatal : Prop) [Decidable wasUp] [Decidable fatal] (s : State) :
    let s3 := s |> regSet (pgGlb + 0x11C) cause |> extDis |> regAdd32 (pgClk + 0x190) 1 |> regSet (pgClk + 0x198) at_
                |> regSetFld (pgPwr + 0x10C) 7 6 slot
    let s4 := if wasUp then regAdd32 (pgCxl + 0x108) 1 s3 else s3
    Quiet s (if fatal then s4 else note 0x8281 pgClk kind s4) := by
  intro s3 s4
  have h3 : Quiet s s3 := (regSet_quiet ..).trans ((extDis_quiet _).trans ((regAdd32_quiet ..).trans ((regSet_quiet ..).trans
    (regSetFld_quiet ..))))
  have h4 : Quiet s s4 := quiet_ite (h3.trans (regAdd32_quiet ..)) h3
  exact quiet_ite h4 (h4.trans (note_quiet ..))

/-- The state at which the work in flight has been drained: the clock and the queue stand, and so does the boot area. -/
theorem resetDrain_keeps {fatal up : Bool} (hs : Inv s) :
    let t := resetDrain fatal (if up then note 0x7001 pgCxl 0 s else s)
    t.pick = s.pick ∧ t.pending = s.pending ∧ t.boot = s.boot := by
  intro t
  have hq : Quiet s (if up then note 0x7001 pgCxl 0 s else s) := quiet_ite (note_quiet ..) .refl
  have hk : Kept s.pending s.pick t := resetDrain_kept (kept_ite (note_kept ⟨rfl, rfl, hs.tabs⟩) ⟨rfl, rfl, hs.tabs⟩)
  exact ⟨hk.pick, hk.pending, (resetDrain_boot ..).trans hq.boot⟩

theorem doReset_clears (hs : Inv s) (kind : Nat) :
    ResetClears s (doReset kind s) ∧
      (kind = 1 → (doReset kind s).map = [] ∧ (doReset kind s).dram = [] ∧ (doReset kind s).boot.lastFatalReset = some (boltN s)) := by
  unfold doReset
  extract_lets fatal wasFatal wasUp isSealed s1 had mapKept stageKept b cause ps r src0 src1 src2 src3 src4 s2 s3 s4
  obtain ⟨hpick, hpending, hboot⟩ : s1.pick = s.pick ∧ s1.pending = s.pending ∧ s1.boot = s.boot := resetDrain_keeps hs
  have hq : Quiet s2 (if fatal then s4 else note 0x8281 pgClk kind s4) := resetRegs_quiet ..
  have hpickN : pickN s1 = pickN s := congrArg BitVec.toNat hpick
  have hmap : kind = 1 → mapKept = false := fun hk => by simp [mapKept, fatal, hk]
  clear_value s1 s4 mapKept
  have hhold : pickN s1 + 64 = pickN s + 64 := by rw [hpickN]
  have hslots : s1.boot.slots = s.boot.slots := by rw [hboot]
  have hclears : ResetClears s s2 :=
    ⟨rfl, hhold, hpick, hpending, rfl, rfl, rfl, rfl, rfl, rfl, hslots⟩
  refine ⟨hclears.quiet hq, fun hk => ?_⟩
  rw [hq.map, hq.dram, hq.boot]
  simp [s2, hmap hk, fatal, hk, boltN, hpick]

/-! ### Which reset acts (R474, R475) -/

theorem execDeviceReset_of_mayReset (hm : mayReset s = true) : execDeviceReset s =
    if resetDue 0 s then .next (doReset 0 s)
    else if resetDue 3 s then .next (doReset 3 s)
    else if resetDue 2 s && !resetDue 1 s then .next (doReset 2 s)
    else .next s := by
  simp [execDeviceReset, hm]

theorem execDeviceReset_of_not_mayReset (hm : mayReset s = false) : execDeviceReset s = .next s := by
  simp [execDeviceReset, hm]

theorem execFatalReset_of_due (hm : mayReset s = true) (h1 : resetDue 1 s = true) (h0 : resetDue 0 s = false)
    (h3 : resetDue 3 s = false) : execFatalReset s = .next (doReset 1 s) := by
  simp [execFatalReset, hm, h1, h0, h3]

theorem execFatalReset_of_not_mayReset (hm : mayReset s = false) : execFatalReset s = .next s := by
  simp [execFatalReset, hm]

/-- Without a reset that `RST_CTL` requested, a PERST_FULL reset acts, or a boot-watchdog reset that no fatal one stands above. -/
theorem execDeviceReset_other (hm : mayReset s = true) (h0 : resetDue 0 s = false)
    (h : resetDue 3 s = true ∨ (resetDue 2 s = true ∧ resetDue 1 s = false)) :
    ∃ kind, execDeviceReset s = .next (doReset kind s) := by
  rw [execDeviceReset_of_mayReset hm, h0, if_neg Bool.false_ne_true]
  by_cases h3 : resetDue 3 s = true
  · exact ⟨3, if_pos h3⟩
  · obtain ⟨h2, h1⟩ := h.resolve_left h3
    exact ⟨2, by rw [if_neg h3, h2, h1]; rfl⟩

/-! ### What asks for a reset (R476, R477) -/

/-- The watchdog stops counting, raises its event and asks for a reset at the next pick. -/
theorem execBootWatchdogExpiry_of_expired {p : Nat} (hp : s.boot.wdogFrom = some p) (h0 : regGet (pgClk + 0x188) s ≠ 0)
    (hlim : p + regGet (pgClk + 0x188) s ≤ pickN s) (hr : running s = true) (hst : s.boot.stuck = false) :
    execBootWatchdogExpiry s = .next (later (.reset 2 (pickN s + 1))
      (note 0x8205 pgClk s.boot.lastSlot { s with boot := { s.boot with wdogFrom := none } })) := by
  simp only [execBootWatchdogExpiry, hp]
  rw [if_neg (by simp [h0, hlim, hr, hst])]

theorem execRstCtlDevice_of_fenced (hf : fenced pgClk s = true) (v : W32) : execRstCtlDevice v s = .next s := by
  simp only [execRstCtlDevice, hf, if_true]

theorem execRstCtlDevice_of_unfenced (hf : fenced pgClk s = false) (v : W32) :
    execRstCtlDevice v s = .next (rstCtl v.toNat s) := by
  simp [execRstCtlDevice, hf]

theorem bits_key (v : Nat) : bits v 15 8 = v / 256 % 256 := rfl

/-- With the key, DEVICE asks for the reset at the next pick; a stuck part drops the write. -/
theorem rstCtl_of_key {v : Nat} (hk : v / 256 % 256 = 0xA5) (s : State) :
    rstCtl v s = if bit v 0 && !s.boot.stuck then later (.reset 0 (pickN s + 1)) s else s := by
  simp [rstCtl, bits_key, hk]

theorem rstCtl_of_wrongKey {v : Nat} (hk : v / 256 % 256 ≠ 0xA5) (s : State) : rstCtl v s = note 0x8203 pgClk v s :=
  if_pos hk

theorem rstCtl_device {v : Nat} (hk : v / 256 % 256 = 0xA5) (hd : v % 2 = 1) (hst : s.boot.stuck = false) :
    rstCtl v s = { s with due := s.due ++ [.reset 0 (pickN s + 1)] } := by
  have hb : bit v 0 = true := by simp [bit, hd]
  rw [rstCtl_of_key hk, hb, hst]
  rfl

theorem rstCtl_of_stuck {v : Nat} (hk : v / 256 % 256 = 0xA5) (hst : s.boot.stuck = true) : rstCtl v s = s := by
  simp [rstCtl_of_key hk, hst]

/-- Settles O10: every reset is a `doReset`, and its fields that `ResetClears` names are those of a part just reset or are carried
through the drain of the work in flight. That a fatal reset leaves the DRAM empty rests on log entries 3 and 80. -/
theorem resets : Obligations.Resets := by
  unfold Obligations.Resets
  intro s hs
  refine ⟨fun hm h0 => ?device, fun hm h0 h => ?other, fun hm h1 h0 h3 => ?fatal, ?none,
    fun p hp h0 hlim hr hst => ?watchdog, fun v hf hk hd hst => ?acts, fun v h => ?dropped, fun v hf hk => ?wrongKey⟩
  case device =>
    exact ⟨_, by rw [exec_deviceReset, execDeviceReset_of_mayReset hm, if_pos h0], (doReset_clears hs 0).1⟩
  case other =>
    obtain ⟨kind, h⟩ := execDeviceReset_other hm h0 h
    exact ⟨_, h, (doReset_clears hs kind).1⟩
  case fatal =>
    obtain ⟨hc, hk⟩ := doReset_clears hs 1
    exact ⟨_, execFatalReset_of_due hm h1 h0 h3, hc, hk rfl⟩
  case none =>
    rintro k (rfl | rfl) hm
    · exact execDeviceReset_of_not_mayReset hm
    · exact execFatalReset_of_not_mayReset hm
  case watchdog =>
    refine ⟨_, execBootWatchdogExpiry_of_expired hp h0 hlim hr hst, ?_, ?_⟩
    · rw [later_boot, note_boot]
    · exact List.mem_append_right _ (List.mem_singleton_self _)
  case acts => rw [exec_rstCtlDevice, execRstCtlDevice_of_unfenced hf, rstCtl_device hk hd hst]
  case dropped =>
    rw [exec_rstCtlDevice]
    cases hf : fenced pgClk s
    case true => exact execRstCtlDevice_of_fenced hf v
    case false =>
      obtain ⟨hk, hst⟩ := h.resolve_right (by simp [hf])
      rw [execRstCtlDevice_of_unfenced hf, rstCtl_of_stuck hk hst]
  case wrongKey => rw [exec_rstCtlDevice, execRstCtlDevice_of_unfenced hf, rstCtl_of_wrongKey hk]

end Sys2Proof.Machine
end
